-- ==== Sys2Proof/Word.lean ====
section
/-!
DEFINITION. The word types of the HX7340 model (spec/00_scope.md R2: registers are 32 bits wide), the two plain-data containers
that State uses, a sparse table and a sparse byte memory, and the exact complex numbers of the channel mathematics.
-/
namespace Sys2Proof

/-- A byte. -/
abbrev Byte := BitVec 8

/-- A hardware register (R2). -/
abbrev Word := BitVec 32

/-- A sparse table: pairs of a key and a value, keys strictly rising. -/
abbrev KMap (α : Type) := List (Nat × α)

/-- A sparse byte memory: addresses strictly rising, no listed byte zero; an unlisted byte reads 0. -/
abbrev Mem := List (Nat × Byte)

/-- A complex number with exact parts: real, imaginary. -/
abbrev Cx := Rat × Rat

/-- A complex matrix as a list of rows. -/
abbrev CxMat := List (List Cx)

end Sys2Proof
end

