-- ==== Sys2Proof/Syntax/Args.lean ====
section
/-!
DEFINITION. The operand types of the commands of spec/opcode_table.json: what the world outside the block
(the host, the air, the wire, the board, the pace of self-timed units) determines when a step takes place.
-/
namespace Sys2Proof

/-- The radios (Table 0.6). -/
inductive Radio where
  | a | b | c
  deriving DecidableEq, Repr, Inhabited

/-- The events of Table 2.17 (R51). -/
inductive EvName where
  | fwReady | fwFault | eventsLost | cqFull | refLost | avsFault | thermalWarn | hringError
  | synCal | chainMismatch | chainDerated | chainFallow | coexStuck
  | hlPartial | hlStep | beaconLost | furrowLate | laneFenced | jobBudget | plogWrap
  | belayLost | leadTakeover | ropeRejoined | tbFreeRun | ppsInLost | excLimited
  | ethLink | ethFallow | pnLow | keyExhausted | dramRetrain | dramUncorr
  | residueFence | arrayUncorr | gleanerEsc | cairnReady | rtcAlarm | wurMatch
  deriving DecidableEq, Repr

/-- Widths of the PCI Express link (Table 2.1). -/
inductive PcieWidth where
  | x1 | x4 | x8
  deriving DecidableEq, Repr

/-- The PCI Express link (Table 2.1, R470): in L0 at a rate, 0 Gen1 to 4 Gen5, and a width; in L1; or in recovery. -/
inductive PcieLink where
  | l0 (rate : Fin 5) (width : PcieWidth)
  | l1
  | recovery
  deriving DecidableEq, Repr

/-- A host write that REGISTER_WRITE carries: a BAR0 write of `size` bytes (R34), or a field of configuration space (Table 2.1, R68; PCI
Express base specification): MSI-X Enable and Function Mask, the power state (`true` D3hot), ASPM L1, Max_Payload_Size and
Max_Read_Request_Size, ECRC generation and checking, and the clear of AER's Unsupported Request. -/
inductive RegWrite where
  | bar (offset size : Nat) (value : BitVec 64)
  | msixEnable (on : Bool)
  | functionMask (on : Bool)
  | powerState (d3hot : Bool)
  | aspm (l1 : Bool)
  | deviceControl (mps : Fin 3) (mrrs : Fin 6)
  | ecrc (gen chk : Bool)
  | aerClear
  deriving DecidableEq, Repr

/-- What the hardware checks of a lane find as it executes an instruction (R227, R228): nothing; a residue mismatch that a
retry clears; a second mismatch; an uncorrectable word of memory bank 0 X, 1 Y, 2 C; an uncorrectable word of the loop
cache. The word's index is the one ARRAY_UNCORR carries (R442). -/
inductive LaneCheck where
  | ok | retried | residue | memory (bank : Fin 3) (word : Nat) | cache (word : Nat)
  deriving DecidableEq, Repr

/-- One user as the SIG fields of a PPDU give it (Table 5.8). `bad`: its user field failed (R122). -/
structure UserSig where
  ruSize : Nat
  ruIndex : Nat
  mcs : Nat
  nss : Nat
  giLtf : Nat
  ldpc : Bool
  dcm : Bool
  stbc : Bool
  beamformed : Bool
  bad : Bool
  deriving DecidableEq, Repr, Inhabited

/-- What the SIG fields of a detected PPDU give (R114 to R117, R122, Table 5.5): the L-LTF found, L-SIG parity good, RATE valid and
LENGTH, RL-SIG equal to L-SIG, the CRC of the format's own SIG field (DSSS and CCK: the PLCP header), the format and bandwidth, HT-SIG
LENGTH. `primary`: its primary 20 MHz is the channel's. `excluded`: a parameter combination the standard excludes. `late`: the common
field of HE-SIG-B or EHT-SIG failed after validation. `obss`: an inter-BSS PPDU, with its power in 0.5 dBm at the pins, and `txop` the
TXOP it names in us (R148). `endNs`: time to the end its SIG fields give (R121). -/
structure SigInfo where
  lltf : Bool
  parity : Bool
  rate : Bool
  length : Nat
  rl : Bool
  crc : Bool
  fmt : Nat
  bw : Nat
  htLength : Nat
  primary : Bool
  excluded : Bool
  late : Bool
  users : List UserSig
  obss : Option Int
  txop : Nat
  endNs : Nat
  deriving DecidableEq, Repr

/-- What the PHY measures of one user of a received PPDU, for its quality report (Table 5.8). `sta` none: the sender is not
associated. `decoded`: at least one data symbol was decoded. EVM in 1/32 dB, SNR in 0.25 dB, CFO in 100 Hz; RSSI per chain in 0.5 dBm at
the pins, none for a chain not receiving. -/
structure UserMeas where
  sta : Option Nat
  decoded : Bool
  cfo : Int
  rssi : List (Option Int)
  snr : Int
  evm : List Int
  mpduOk : Nat
  mpduBad : Nat
  bytes : Nat
  deriving DecidableEq, Repr

/-- An operand that carries nothing: what the row does is decided by the state alone. -/
abbrev NoData : Type := Unit

/-- How the slave answers an RFFE read (R96): at once, at the repetition, or not at all. -/
inductive RffeAnswer where
  | first (b : Byte) | second (b : Byte) | silent
  deriving DecidableEq, Repr

/-- The power of a preamble at the pins in 0.5 dBm: of the primary 20 MHz, and what each receiving chain's AGC settles on (R118, R119). -/
structure RxLevels where
  primary : Int
  chains : List Int
  deriving DecidableEq, Repr

/-- What the end of a PPDU shows: the front end's RX entries are staged (R98), and the return loss of each chain in 0.5 dB (R99). -/
structure TxTail where
  staged : Bool
  returnLoss : List Nat
  deriving DecidableEq, Repr

/-- The service period that a TWT request asks for: its length in microseconds and the target wake time on the TSF (R177). -/
structure TwtSpan where
  len : Nat
  target : BitVec 64
  deriving DecidableEq, Repr

/-- What a tone of an OFDM symbol shows (R125): each chain's samples of the LTF symbols of the preamble, then of each midamble; the number
of the data symbol, and each chain's sample in it. -/
structure ToneObs where
  ltfs : List (List (List (Int × Int)))
  sym : Nat
  y : List (Int × Int)
  deriving DecidableEq, Repr

/-- A pilot tone, and the sign the standard gives its pilot. -/
structure PilotObs where
  tone : ToneObs
  sign : Int
  deriving DecidableEq, Repr

/-- A codeword that reaches the LDPC decoder (R125 to R127): its code, format, MCS, the streams in its RU and which one is its own, the
data symbols between midambles (0 none), each receiving chain's two L-LTF symbols by tone, its data tones in order, and the pilots. -/
structure LdpcWord where
  code : Nat
  fmt : Nat
  mcs : Nat
  streams : Nat
  stream : Nat
  mid : Nat
  lltf : List (List ((Int × Int) × (Int × Int)))
  tones : List ToneObs
  pilots : List PilotObs
  deriving DecidableEq, Repr

/-- A WUR frame at its last data symbol (R134, R138, R139). `body`: bytes of its body. `level` in dBm. -/
structure WurFrame where
  fcsOk : Bool
  high : Bool
  type : BitVec 3
  id : BitVec 12
  tdc : BitVec 12
  level : Int
  body : Fin 256
  deriving DecidableEq, Repr

/-- What a received MPDU is, as its 802.11 header says. -/
inductive MpduKind where
  | data | nullData | mgmt | rts | cts | ack | blockAck | bar | psPoll | cfEnd | trigger | beacon | other
  deriving DecidableEq, Repr, Inhabited

/-- An MPDU of a received PPDU, as its delimiter and header give it (R130, R153, R160, R164, R167). `user`: of which user of the PPDU.
`old`: of the PPDU that has ended, else of the one being received. `len`: length with its FCS, 0 a null delimiter. `start`: where its
delimiter starts in the PSDU. `dur` in us. `acks`: TID and SN pairs a
Block Ack reports, `ssn` a BlockAckReq's start. `da`, `sa`, `body`: the MSDU from its LLC header. `whole`: the MPDU without its
FCS. `bsr`: AC and bytes of a queue-size report; for a
trigger frame, the bytes its RU carries. `full`: no room in the radio's memory (R369). `overflow`: the converter FIFO
overflowed (R14). `soft`: the response it asks for (0 none, 1 Ack, 2 Block Ack, 3 CTS, 4 HE TB, 5 multi-STA Block Ack, 6 SU feedback).
`tsf`: a beacon's Timestamp. -/
structure Mpdu where
  user : Nat
  old : Bool
  fcsOk : Bool
  len : Nat
  start : Nat
  kind : MpduKind
  ra : List Byte
  ta : List Byte
  bssid : List Byte
  da : List Byte
  sa : List Byte
  tid : Nat
  qos : Bool
  seq : BitVec 12
  frag : BitVec 4
  more : Bool
  retry : Bool
  pm : Bool
  dur : Nat
  prot : Bool
  keyId : Nat
  pn : Nat
  acks : List (Nat × Nat)
  ssn : BitVec 12
  soft : Nat
  bsr : List (Nat × Nat)
  body : List Byte
  whole : List Byte
  tsf : BitVec 64
  full : Bool
  overflow : Bool
  deriving DecidableEq, Repr

/-- A channel estimate or decompressed feedback: rank, rows, tone grouping and groups, SNR in 0.25 dB, and 3 bytes per
coefficient (R250, Table 10.7). -/
structure CsiIn where
  rank : Nat
  rows : Nat
  ng : Nat
  tones : Nat
  snrs : List Int
  coef : List Byte
  deriving DecidableEq, Repr

/-- A chain's two loopbacks on a subcarrier (R247): to the reference chain, and from it. -/
abbrev Loopback := (Int × Int) × (Int × Int)

/-- A client's uplink as a radio's chains received it (R125, R250): its streams, SNR, and by tone group of 4 each chain's LTF samples. -/
structure UlObs where
  streams : Nat
  snr : Int
  groups : List (List (List (Int × Int)))
  deriving DecidableEq, Repr

/-- The end of a received PPDU (R121, R128, R203, R250): its users' measurements in the order of its SIG fields, the stations whose TB
PPDU validated, the uplink channel estimates by transmitter address, A-MPDU delimiters that failed their CRC, a converter FIFO overflow,
the response its MAC headers ask of the device (as `Mpdu.soft`) and the MPDUs whose FCS check has yet to finish (R22, R23). -/
structure PpduEnd where
  users : List UserMeas
  tb : List Nat
  csi : List (List Byte × UlObs)
  delimErr : Nat
  overflow : Bool
  asks : Nat
  due : Nat
  deriving DecidableEq, Repr

/-- A received Kennar frame (Table 12.2): its port, header, whether LENGTH fits the frame and whether the tag verifies under
the sender's key of the phase it names, and the decrypted payload. -/
structure KnFrame where
  port : Fin 2
  version : Nat
  rope : Nat
  src : Fin 1024
  phase : Bool
  epoch : Nat
  counter : Nat
  fits : Bool
  tagOk : Bool
  payload : List Byte
  deriving DecidableEq, Repr

/-- What an evaluation of one object measures (R263 to R277): busy shares of the three radios; busy shares of 20 MHz subchannels by
centre in MHz, per mille; a class's DRAM traffic and conflict rates per mille and the bank groups with the least conflict; the lanes
in proportion to queued steps. -/
inductive Eval where
  | link (sta : Fin 1024) (busyA busyB busyC : Fin 1001)
  | channel (r : Radio) (busy : List (Nat × Fin 1001))
  | bank (cls : Fin 5) (ch : Fin 2) (traffic conflict : Fin 1001) (best : Fin 16)
  | lanes (cls : Fin 5) (set : BitVec 16)
  | pitch
  | serving (sta : Fin 1024)
  deriving DecidableEq, Repr

/-- A domain that acts on overload (Table 11.2). -/
inductive OverDom where
  | queue | cipher | ring
  deriving DecidableEq, Repr

/-- An event of Table 11.8. -/
inductive Forced where
  | chains (r : Radio)
  | headland (r : Radio)
  | candidate (sta : Fin 1024)
  | lanes
  | cipher (g : Fin 20)
  | portDown (p : Fin 2)
  | ring (n : Fin 64)
  | channel (r : Radio)
  | rope
  deriving DecidableEq, Repr

/-- A router table other than the ternary one whose read can fail its check (R368). -/
inductive RtTab where
  | flow | fdb | route | neigh | indir
  deriving DecidableEq, Repr

/-- What a DRAM request is for (Table 11.3): the packet buffer, a CSI record by radio, kind and place, a lane's scratch window,
Builmin's data, a log entry by its SEQ. -/
inductive DramFor where
  | pkt
  | csi (radio : Fin 3) (kind : Fin 3) (index : Nat)
  | scratch (lane : Fin 16)
  | mp
  | log (seq : Nat)
  deriving DecidableEq, Repr, Inhabited

/-- The frame a PKT burst belongs to: its place in a port's queue, a per-TID queue or a group queue. -/
inductive PktAt where
  | port (p : Fin 2) (i : Nat)
  | sta (q : Fin 8192) (i : Nat)
  | group (q : Fin 192) (i : Nat)
  deriving DecidableEq, Repr

/-- What the check of a read burst finds (R413): nothing, one device, two devices. -/
inductive RdErr where
  | clean
  | one (dev : Fin 9)
  | two (a b : Fin 9)
  deriving DecidableEq, Repr

/-- A read reaches the controller, or the controller serves the next request, a read. -/
inductive RdOp where
  | arrive (addr : Nat) (use : DramFor)
  | serve (err : RdErr) (frame : Option PktAt)
  deriving DecidableEq, Repr

/-- A write reaches the controller, or the controller serves the next request, a write. -/
inductive WrOp where
  | arrive (addr : Nat) (use : DramFor) (data : List Byte)
  | serve
  deriving DecidableEq, Repr

/-- What an uncorrectable array word holds (Table 19.2): Builmin's memory; a frame in ring staging, by its place among those that wait
for the router, or in a receive ring's queue; an MPDU of a radio's scoreboard, or the PPDU it sends; a station context; a queue; a lane's
memory or loop cache; a CSI record; a frame in the packet buffer, with the channel that counts it; a router entry by its index; a rule; a
frame in a port's receive buffer or egress queue; a key slot; a placed object; a radio's precoder bank. -/
inductive ArrayPart where
  | mp
  | htx (i : Nat)
  | hrx (n : Fin 64) (i : Nat)
  | rxMpdu (r : Radio) (sta : Fin 1024) (tid : Fin 8) (sn : BitVec 12)
  | txPpdu (r : Radio)
  | station (n : Fin 1024)
  | tidQueue (q : Fin 8192)
  | groupQueue (q : Fin 192)
  | bank (lane : Fin 16) (b : Fin 3)
  | cache (lane : Fin 16)
  | csi (r kind : Fin 3) (i : Nat)
  | packet (c : Fin 2) (f : PktAt)
  | table (t : RtTab) (i : Nat)
  | rule (i : Fin 1024)
  | ethRx (p : Fin 2)
  | ethTx (p : Fin 2) (i : Nat)
  | key (k : Fin 2560)
  | place (domain : Fin 9) (object : Nat)
  | precoder (r : Radio)
  deriving DecidableEq, Repr

/-- What a scrub finds in the word it reads (R442 to R445): nothing; a single-bit error, which it corrects unless a foreground write
comes between; an uncorrectable word; a ternary row that differs from its shadow, or whose shadow is uncorrectable; in DRAM, a burst of
a buffer class. -/
inductive ScrubFind where
  | clean
  | single (cancelled : Bool)
  | uncorr (lost : ArrayPart)
  | row (i : Fin 1024) (shadowBad : Bool)
  | burst (addr : Nat) (cls : Fin 5) (err : RdErr)
  deriving DecidableEq, Repr

/-- What becomes of a word that a unit's own access meets (R442): a read finds a single-bit error, or an uncorrectable one; a write comes
before the write-back; the free slot for the write-back. -/
inductive WordOp where
  | single (a : Fin 16) (word : Nat)
  | uncorr (word : Nat) (lost : ArrayPart)
  | overwritten (a : Fin 16) (word : Nat)
  | slot
  deriving DecidableEq, Repr

end Sys2Proof
end

