-- ==== Sys2Proof/Syntax.lean ====
section
/-!
DEFINITION. The commands of the block: one constructor per row of spec/opcode_table.json. A mailbox command carries the
mailbox whose next command Builmin starts and the host buffer of an INDIRECT command as Builmin reads it (R37); a lane
instruction carries its lane; an event carries what the world outside the block determines.
-/
namespace Sys2Proof

/-- One command: one row of the table. -/
inductive Instr where
  /-- NOP (R45): General command that does nothing and completes with OK. -/
  | nop (m : Fin 8) (buf : List Byte)
  /-- GET_VERSION (R45): Returns the interface level, stepping, life-cycle state, Builmin build and the outstanding-command limit. -/
  | getVersion (m : Fin 8) (buf : List Byte)
  /-- ABORT_COMMAND (R42): Runs ahead of queued commands; aborts a named outstanding command before it starts, or reports that it is already running. -/
  | abortCommand (m : Fin 8) (buf : List Byte)
  /-- HOST_GET_COUNTERS (R45): Returns the four 64-bit counters of one host transmit or receive ring. -/
  | hostGetCounters (m : Fin 8) (buf : List Byte)
  /-- RADIO_GET_STATE (R84): Returns a radio's state, return state, channel, stale segments, temperature, chain sets and activity class. -/
  | radioGetState (m : Fin 8) (buf : List Byte)
  /-- RADIO_SET_STATE (R87): Requests a radio state and return state, taking effect at the end of the current frame exchange. -/
  | radioSetState (m : Fin 8) (buf : List Byte)
  /-- RADIO_SET_CHANNEL (R111): Sets a radio's channel, with optional announcement and forced calibration, and stays outstanding until the switch. -/
  | radioSetChannel (m : Fin 8) (buf : List Byte)
  /-- RADIO_CALIBRATE (R89): Calibrates the named synthesiser segments, the segment in use last, and then relocks. -/
  | radioCalibrate (m : Fin 8) (buf : List Byte)
  /-- RADIO_SET_FEM_MAP (R97): Loads a radio's front-end map of RFFE writes bound to radio events, refusing a map that breaks the limits. -/
  | radioSetFemMap (m : Fin 8) (buf : List Byte)
  /-- RADIO_SET_RAMP (R94): Sets the transmit ramp-up time, ramp-down time and shape of a radio. -/
  | radioSetRamp (m : Fin 8) (buf : List Byte)
  /-- RADIO_SET_CHAIN (R103): Sets a chain's enable (host-fallow), backoff, RL_THRESH and tuner description. -/
  | radioSetChain (m : Fin 8) (buf : List Byte)
  /-- RADIO_RESTORE_CHAIN (R102): Returns a chain that is fallow by mismatch as derated 6 dB. -/
  | radioRestoreChain (m : Fin 8) (buf : List Byte)
  /-- RADIO_GET_CHAIN (R101): Returns a chain's state, derating, mean return loss and tuner codes. -/
  | radioGetChain (m : Fin 8) (buf : List Byte)
  /-- RADIO_GET_COUNTERS (R99): Returns the radio counters of Table 4.22. -/
  | radioGetCounters (m : Fin 8) (buf : List Byte)
  /-- RADIO_RFFE_TRANSFER (R96): Performs one host RFFE read or write on a radio bus while the radio is OFF or STANDBY. -/
  | radioRffeTransfer (m : Fin 8) (buf : List Byte) (rd : RffeAnswer)
  /-- PHY_SET_RX (R119): Sets CAPTURE_EN, PD_THRESH, LDPC_MAX_ITER and FEM_RX_GAIN of a radio. -/
  | phySetRx (m : Fin 8) (buf : List Byte)
  /-- PHY_SET_FORMATS (R115): Enables or disables PPDU formats of a radio from the next furrow boundary. -/
  | phySetFormats (m : Fin 8) (buf : List Byte)
  /-- PHY_GET_CONFIG (R115): Returns a radio's receive settings, effective format mask and next report SEQ. -/
  | phyGetConfig (m : Fin 8) (buf : List Byte)
  /-- PHY_GET_REPORT (R128): Returns a station's latest quality report on a radio. -/
  | phyGetReport (m : Fin 8) (buf : List Byte)
  /-- PHY_READ_HISTORY (R128): Returns consecutive quality reports from the radio's 1,024-entry history. -/
  | phyReadHistory (m : Fin 8) (buf : List Byte)
  /-- PHY_GET_COUNTERS (R127): Returns the PHY counters of Table 5.13. -/
  | phyGetCounters (m : Fin 8) (buf : List Byte)
  /-- PHY_TEST_TX (R133): In TEST mode sends count test PPDUs, or with count 0 stops a running test. -/
  | phyTestTx (m : Fin 8) (buf : List Byte)
  /-- MAC_SET_BSS (R175): Configures a BSS: enable, beaconing, slot, multiple-BSSID set, BSSID, beacon interval, TBTT offset, DTIM and RTS threshold. -/
  | macSetBss (m : Fin 8) (buf : List Byte)
  /-- MAC_SET_BEACON (R173): Loads a BSS's beacon template and basic rate, refusing one whose beacon could exceed 2,304 bytes. -/
  | macSetBeacon (m : Fin 8) (buf : List Byte)
  /-- MAC_SET_EDCA (R149): Sets a radio's own or a BSS's advertised EDCA parameters. -/
  | macSetEdca (m : Fin 8) (buf : List Byte)
  /-- MAC_SET_CCA (R147): Sets a radio's CCA and OBSS_PD thresholds. -/
  | macSetCca (m : Fin 8) (buf : List Byte)
  /-- MAC_ADD_STA (R183): Adds a station or MLD with its links and capabilities and installs its FDB entry. -/
  | macAddSta (m : Fin 8) (buf : List Byte)
  /-- MAC_DEL_STA (R284): Deletes a station, discarding its frames, records and placements. -/
  | macDelSta (m : Fin 8) (buf : List Byte)
  /-- MAC_SET_BA_POLICY (R161): Sets the Block Ack acceptance policy, maximum buffer size and reorder timeout. -/
  | macSetBaPolicy (m : Fin 8) (buf : List Byte)
  /-- MAC_SET_MLD (R168): Defines an AP MLD from at most one BSS per radio. -/
  | macSetMld (m : Fin 8) (buf : List Byte)
  /-- MAC_SET_TWT (R177): Sets a BSS's TWT policy, drift budget and broadcast schedules. -/
  | macSetTwt (m : Fin 8) (buf : List Byte)
  /-- MAC_SET_UPLINK (R180): Makes a BSS index a station-mode uplink interface, or removes it. -/
  | macSetUplink (m : Fin 8) (buf : List Byte)
  /-- MAC_SET_RETRY (R158): Sets a radio's retry limits, lifetimes and CF-End truncation. -/
  | macSetRetry (m : Fin 8) (buf : List Byte)
  /-- MAC_GET_COUNTERS (R184): Returns the MAC counters of Table 7.9. -/
  | macGetCounters (m : Fin 8) (buf : List Byte)
  /-- MAC_GET_STA (R184): Returns a station's use, dozing, links, AID, sessions and last contact. -/
  | macGetSta (m : Fin 8) (buf : List Byte)
  /-- SCHED_SET_AC_WEIGHTS (R212): Sets a radio's access-category weights. -/
  | schedSetAcWeights (m : Fin 8) (buf : List Byte)
  /-- SCHED_SET_BSS_SHARE (R191): Sets the airtime shares of a radio's BSSs, refusing a sum above 1,000. -/
  | schedSetBssShare (m : Fin 8) (buf : List Byte)
  /-- SCHED_SET_STA (R212): Sets a station's weight, QLIMIT and low-latency targets. -/
  | schedSetSta (m : Fin 8) (buf : List Byte)
  /-- SCHED_SET_LIMITS (R198): Sets a radio's user limit, PPDU limits, low-latency share and other planner parameters. -/
  | schedSetLimits (m : Fin 8) (buf : List Byte)
  /-- SCHED_GET_FURROW (R212): Returns the summary of the last sent or the ready furrow. -/
  | schedGetFurrow (m : Fin 8) (buf : List Byte)
  /-- SCHED_GET_STA (R212): Returns a station's virtual times, rate state, queue depths and uplink demand. -/
  | schedGetSta (m : Fin 8) (buf : List Byte)
  /-- SCHED_FLUSH_QUEUE (R206): Drops the MSDUs of a station's TIDs or of a group queue. -/
  | schedFlushQueue (m : Fin 8) (buf : List Byte)
  /-- SCHED_GET_COUNTERS (R212): Returns the scheduler counters of Table 8.14. -/
  | schedGetCounters (m : Fin 8) (buf : List Byte)
  /-- HARROW_LEASE (R234): Grants a host lease of 1 to 4 Harrow slots, completing when each chosen lane is wiped. -/
  | harrowLease (m : Fin 8) (buf : List Byte)
  /-- HARROW_RELEASE (R236): Releases a lease, aborting its queued jobs and stopping its running jobs. -/
  | harrowRelease (m : Fin 8) (buf : List Byte)
  /-- HARROW_SUBMIT_JOB (R230): Queues a host job on a leased slot; it stays outstanding until the job ends. -/
  | harrowSubmitJob (m : Fin 8) (buf : List Byte)
  /-- HARROW_STOP_JOB (R236): Stops the job running in a leased slot with fault 6. -/
  | harrowStopJob (m : Fin 8) (buf : List Byte)
  /-- HARROW_GET_STATUS (R234): Returns owner, state, mode, fenced parts and queue of every lane. -/
  | harrowGetStatus (m : Fin 8) (buf : List Byte)
  /-- HARROW_GET_COUNTERS (R227): Returns the Harrow counters of Table 9.15. -/
  | harrowGetCounters (m : Fin 8) (buf : List Byte)
  /-- BF_SET_SOUNDING (R243): Sets CSI kinds enabled, SOUND_MAX, Ng and SOUND_LEAD of a radio. -/
  | bfSetSounding (m : Fin 8) (buf : List Byte)
  /-- BF_SET_AGEING (R252): Sets the ages of the STATIC, SLOW and FAST CSI classes. -/
  | bfSetAgeing (m : Fin 8) (buf : List Byte)
  /-- BF_SET_PRECODER (R255): Sets precoder method, ALPHA_SCALE, group size and GROUP_INTERVAL. -/
  | bfSetPrecoder (m : Fin 8) (buf : List Byte)
  /-- BF_RECALIBRATE (R249): Requests a reciprocity calibration, optionally forced, completing when it ends. -/
  | bfRecalibrate (m : Fin 8) (buf : List Byte)
  /-- BF_SET_FEM_RECIP (R247): Loads per-chain front-end reciprocity offsets for a segment. -/
  | bfSetFemRecip (m : Fin 8) (buf : List Byte)
  /-- BF_GET_CSI (R37): Returns an explicit, reciprocity or overheard CSI record. -/
  | bfGetCsi (m : Fin 8) (buf : List Byte)
  /-- BF_GET_GROUPS (R254): Returns a radio's user groups. -/
  | bfGetGroups (m : Fin 8) (buf : List Byte)
  /-- BF_GET_STATUS (R262): Returns calibration state, sounding dimensions, chains and record counts. -/
  | bfGetStatus (m : Fin 8) (buf : List Byte)
  /-- BF_GET_COUNTERS (R262): Returns the sounding and precoding counters of Table 10.8. -/
  | bfGetCounters (m : Fin 8) (buf : List Byte)
  /-- SEEDER_GET_STATUS (R264): Returns the Seeder state, enabled domains, fence counts and next log SEQ. -/
  | seederGetStatus (m : Fin 8) (buf : List Byte)
  /-- SEEDER_SET_PARAMS (R264): Sets Seeder holds, thresholds, gains and enabled domains. -/
  | seederSetParams (m : Fin 8) (buf : List Byte)
  /-- SEEDER_GET_PLACEMENT (R474): Returns an object's placement, hold state and binding fence. -/
  | seederGetPlacement (m : Fin 8) (buf : List Byte)
  /-- SEEDER_READ_LOG (R283): Returns consecutive placement-log entries. -/
  | seederReadLog (m : Fin 8) (buf : List Byte)
  /-- SEEDER_SET_FENCE (R280): Stores or replaces a fence, refusing one that leaves no feasible placement. -/
  | seederSetFence (m : Fin 8) (buf : List Byte)
  /-- SEEDER_CLEAR_FENCE (R281): Removes one fence or all fences without moving anything at once. -/
  | seederClearFence (m : Fin 8) (buf : List Byte)
  /-- SEEDER_GET_FENCE (R280): Returns a stored fence and whether it is blocked. -/
  | seederGetFence (m : Fin 8) (buf : List Byte)
  /-- SEEDER_EVALUATE (R474): Evaluates one object or every object of a domain at once, within holds. -/
  | seederEvaluate (m : Fin 8) (buf : List Byte)
  /-- SEEDER_GET_COUNTERS (R283): Returns the Seeder counters of Table 11.11. -/
  | seederGetCounters (m : Fin 8) (buf : List Byte)
  /-- ROPE_JOIN (R294): Starts joining, or forming, a rope under a rope index and Kennar key. -/
  | ropeJoin (m : Fin 8) (buf : List Byte)
  /-- ROPE_LEAVE (R297): Leaves the rope, with handover if the device is lead. -/
  | ropeLeave (m : Fin 8) (buf : List Byte)
  /-- ROPE_GET_STATUS (R318): Returns role, coordination, lock, pitch, term and alignment bound. -/
  | ropeGetStatus (m : Fin 8) (buf : List Byte)
  /-- ROPE_SET_KEY (R292): Names the next Kennar key slot and, on the lead, schedules the key switch. -/
  | ropeSetKey (m : Fin 8) (buf : List Byte)
  /-- ROPE_GET_MEMBER (R296): Returns the roster entry of a rope index. -/
  | ropeGetMember (m : Fin 8) (buf : List Byte)
  /-- ROPE_GET_PITCH (R306): Returns a pitch's anchor, last planned slot and members. -/
  | ropeGetPitch (m : Fin 8) (buf : List Byte)
  /-- ROPE_GET_COUNTERS (R318): Returns the rope counters of Table 12.15. -/
  | ropeGetCounters (m : Fin 8) (buf : List Byte)
  /-- TIME_SET_ROLE (R326): Assigns a time-base role, servo owner, PTP ports, master timeout and domain. -/
  | timeSetRole (m : Fin 8) (buf : List Byte)
  /-- TIME_SET_ASYM (R333): Sets the ingress and egress stamp corrections of a port or radio. -/
  | timeSetAsym (m : Fin 8) (buf : List Byte)
  /-- TIME_SET_TSF (R335): Sets a BSS's TSF source time base and offset. -/
  | timeSetTsf (m : Fin 8) (buf : List Byte)
  /-- TIME_SET_PPS (R331): Sets PPS_OUT and PPS_IN enables, time base, width and delays. -/
  | timeSetPps (m : Fin 8) (buf : List Byte)
  /-- TIME_GET_STATUS (R328): Returns each time base's role, flags and time since its last correction. -/
  | timeGetStatus (m : Fin 8) (buf : List Byte)
  /-- TIME_GET_TSF (R335): Returns a BSS's TSF now and its source. -/
  | timeGetTsf (m : Fin 8) (buf : List Byte)
  /-- TIME_GET_COUNTERS (R337): Returns the time counters of Table 13.9. -/
  | timeGetCounters (m : Fin 8) (buf : List Byte)
  /-- ROUTER_SET_PARAMS (R346): Sets VXLAN port, CONTROL_RING, EXC_RING, FDB_AGE and GRE parsing. -/
  | routerSetParams (m : Fin 8) (buf : List Byte)
  /-- ROUTER_SET_FLOW (R348): Inserts or replaces an exact-match flow entry and returns its index. -/
  | routerSetFlow (m : Fin 8) (buf : List Byte)
  /-- ROUTER_DEL_FLOW (R349): Removes a flow entry and returns its final counts. -/
  | routerDelFlow (m : Fin 8) (buf : List Byte)
  /-- ROUTER_GET_FLOW (R348): Returns a flow entry with its counts and placement. -/
  | routerGetFlow (m : Fin 8) (buf : List Byte)
  /-- ROUTER_SET_RULE (R347): Writes a ternary rule. -/
  | routerSetRule (m : Fin 8) (buf : List Byte)
  /-- ROUTER_SET_ROUTE (R354): Adds or deletes a route prefix. -/
  | routerSetRoute (m : Fin 8) (buf : List Byte)
  /-- ROUTER_SET_NEIGH (R356): Writes a neighbour table entry. -/
  | routerSetNeigh (m : Fin 8) (buf : List Byte)
  /-- ROUTER_SET_FDB (R352): Installs or deletes a static bridge forwarding entry. -/
  | routerSetFdb (m : Fin 8) (buf : List Byte)
  /-- ROUTER_FLUSH_FDB (R352): Removes FDB entries of a domain or all domains. -/
  | routerFlushFdb (m : Fin 8) (buf : List Byte)
  /-- ROUTER_SET_DOMAIN (R351): Defines a bridge domain and its members. -/
  | routerSetDomain (m : Fin 8) (buf : List Byte)
  /-- ROUTER_SET_PORT_PAIR (R358): Defines a port pair's members, primary and VLANs. -/
  | routerSetPortPair (m : Fin 8) (buf : List Byte)
  /-- ROUTER_SET_RING_GROUP (R358): Sets a ring group's ring bitmap, re-placing entries on rings that leave. -/
  | routerSetRingGroup (m : Fin 8) (buf : List Byte)
  /-- ROUTER_SET_HASH (R359): Sets the Toeplitz key and hash field sets. -/
  | routerSetHash (m : Fin 8) (buf : List Byte)
  /-- ROUTER_SET_INDIRECTION (R360): Writes indirection table entries. -/
  | routerSetIndirection (m : Fin 8) (buf : List Byte)
  /-- ROUTER_SET_EXC_LIMIT (R362): Sets the rate and burst of an exception token bucket. -/
  | routerSetExcLimit (m : Fin 8) (buf : List Byte)
  /-- ROUTER_GET_COUNTERS (R370): Returns the router counters and per-reason exception counts. -/
  | routerGetCounters (m : Fin 8) (buf : List Byte)
  /-- ROUTER_GET_RULE (R347): Returns a ternary rule and its hit count. -/
  | routerGetRule (m : Fin 8) (buf : List Byte)
  /-- ETH_CONFIGURE_PORT (R372): Configures an Ethernet port's mode, speeds, FEC, frame size, filters, pause, preemption and address. -/
  | ethConfigurePort (m : Fin 8) (buf : List Byte)
  /-- ETH_SET_FILTER (R374): Writes an address filter entry, refusing rope-owned entries. -/
  | ethSetFilter (m : Fin 8) (buf : List Byte)
  /-- ETH_GET_STATUS (R373): Returns a port's speed, FEC, link, preemption, pause, fallow and utilisation. -/
  | ethGetStatus (m : Fin 8) (buf : List Byte) (tx rx : Fin 1001)
  /-- ETH_SET_FALLOW (R384): Enables or disables fallow speed stepping on a port. -/
  | ethSetFallow (m : Fin 8) (buf : List Byte)
  /-- ETH_GET_COUNTERS (R387): Returns the port counters of Table 15.9. -/
  | ethGetCounters (m : Fin 8) (buf : List Byte)
  /-- SEC_GET_IDENTITY (R395): Returns the serial and identity public key. -/
  | secGetIdentity (m : Fin 8) (buf : List Byte)
  /-- SEC_OPEN_SESSION (R395): Opens the key session once per reset and derives the key-encryption key. -/
  | secOpenSession (m : Fin 8) (buf : List Byte) (pass : Bool)
  /-- SEC_LOAD_KEY (R396): Unwraps and stores a key in an empty slot. -/
  | secLoadKey (m : Fin 8) (buf : List Byte)
  /-- SEC_DELETE_KEY (R394): Zeroes a slot and removes its bindings after in-flight frames finish. -/
  | secDeleteKey (m : Fin 8) (buf : List Byte)
  /-- SEC_BIND_KEY (R401): Binds a slot to a station or BSS for receive, transmit or both, releasing held frames. -/
  | secBindKey (m : Fin 8) (buf : List Byte)
  /-- SEC_GET_KEY_STATE (R409): Returns a slot's kind, suite, level, flags, TX_PN and group. -/
  | secGetKeyState (m : Fin 8) (buf : List Byte)
  /-- SEC_SET_STREAM (R407): Binds TIDs of a station to a host-stream receive ring. -/
  | secSetStream (m : Fin 8) (buf : List Byte)
  /-- SEC_MACSEC_PORT (R404): Enables MACsec on a port with replay protection and transmit SCI. -/
  | secMacsecPort (m : Fin 8) (buf : List Byte)
  /-- SEC_MACSEC_SET_SA (R404): Creates, activates or deletes a MACsec secure association. -/
  | secMacsecSetSa (m : Fin 8) (buf : List Byte)
  /-- SEC_SAE (R398): Runs an SAE COMMIT, CONFIRM or VERIFY operation in the derivation unit. -/
  | secSae (m : Fin 8) (buf : List Byte) (pass : Bool) (mism : Fin 3)
  /-- SEC_4WAY (R399): Derives the PTK into KCK_KEK and TK slots. -/
  | sec4way (m : Fin 8) (buf : List Byte) (mism : Fin 3)
  /-- SEC_EAPOL (R399): Verifies or computes an EAPOL-Key MIC, or wraps Key Data. -/
  | secEapol (m : Fin 8) (buf : List Byte) (mism : Fin 3)
  /-- SEC_GET_COUNTERS (R402): Returns the security counters of Table 16.8. -/
  | secGetCounters (m : Fin 8) (buf : List Byte)
  /-- DRAM_CONFIGURE (R411): Trains both channels at the given rates and starts initialising DRAM with check bits. -/
  | dramConfigure (m : Fin 8) (buf : List Byte)
  /-- DRAM_SET_POLICY (R422): Sets a channel's reordering policy and its parameters. -/
  | dramSetPolicy (m : Fin 8) (buf : List Byte)
  /-- DRAM_SET_RATE (R421): Moves both channels between the primary and alternate trained rates. -/
  | dramSetRate (m : Fin 8) (buf : List Byte)
  /-- DRAM_RETRAIN (R420): Retrains a channel, periodic or full, optionally at once. -/
  | dramRetrain (m : Fin 8) (buf : List Byte)
  /-- DRAM_GET_STATUS (R418): Returns a channel's state, rate, policy, refresh debt and queue. -/
  | dramGetStatus (m : Fin 8) (buf : List Byte)
  /-- DRAM_GET_ERRORS (R413): Returns a channel's last 16 error records. -/
  | dramGetErrors (m : Fin 8) (buf : List Byte)
  /-- DRAM_GET_COUNTERS (R418): Returns the DRAM counters of Table 17.9. -/
  | dramGetCounters (m : Fin 8) (buf : List Byte)
  /-- REL_GET_STATUS (R449): Returns AGE_GUARD, canary part, Headland triggers and reliability state. -/
  | relGetStatus (m : Fin 8) (buf : List Byte)
  /-- CAIRN_RESTORE (R79): Accepts an ageing record once per reset before any radio leaves OFF. -/
  | cairnRestore (m : Fin 8) (buf : List Byte) (d d0 : Nat)
  /-- CAIRN_EXPORT (R451): Builds and returns a signed ageing record. -/
  | cairnExport (m : Fin 8) (buf : List Byte)
  /-- REL_GET_COUNTERS (R441): Returns the reliability counters of Table 19.8. -/
  | relGetCounters (m : Fin 8) (buf : List Byte)
  /-- SYS_GET_STATE (R78): Returns the service mode, restore, DRAM and session flags and uptime. -/
  | sysGetState (m : Fin 8) (buf : List Byte)
  /-- SYS_SET_MODE (R77): Changes the service mode, starting INITIAL placement on leaving START_UP. -/
  | sysSetMode (m : Fin 8) (buf : List Byte)
  /-- POWER_ENTER_BIVOUAC (R471): Aborts outstanding commands, completes, and takes the device toward bivouac with chosen wake sources. -/
  | powerEnterBivouac (m : Fin 8) (buf : List Byte)
  /-- WUR_SET_RX (R136): Sets the wake receiver mode, channel, PERIOD and ON. -/
  | wurSetRx (m : Fin 8) (buf : List Byte)
  /-- WUR_SET_MATCH (R139): Writes wake match table entries, effective between frames. -/
  | wurSetMatch (m : Fin 8) (buf : List Byte)
  /-- WUR_GET_STATUS (R137): Returns the receiver mode running, valid entries and timing. -/
  | wurGetStatus (m : Fin 8) (buf : List Byte)
  /-- WUR_SEND (R144): Starts sending COUNT copies of a wake-up frame on radio A. -/
  | wurSend (m : Fin 8) (buf : List Byte)
  /-- WUR_GET_COUNTERS (R134): Returns the wake counters of Table 6.6. -/
  | wurGetCounters (m : Fin 8) (buf : List Byte)
  /-- HARROW_NOP (R220): Lane instruction that does nothing. -/
  | harrowNop (l : Fin 16) (chk : LaneCheck)
  /-- HALT (R230): Ends the program and starts the outbound segments. -/
  | halt (l : Fin 16) (chk : LaneCheck)
  /-- LOOP (R216): Starts a hardware loop over the next 1 to 64 instructions. -/
  | loop (l : Fin 16) (chk : LaneCheck)
  /-- BR (R215): Conditional branch on a scalar register. -/
  | br (l : Fin 16) (chk : LaneCheck)
  /-- SLI (R220): Loads an immediate into a scalar register. -/
  | sli (l : Fin 16) (chk : LaneCheck)
  /-- SADD (R220): Adds an immediate to a scalar register. -/
  | sadd (l : Fin 16) (chk : LaneCheck)
  /-- PSET (R219): Sets one field of a pointer. -/
  | pset (l : Fin 16) (chk : LaneCheck)
  /-- XFER (R231): Starts a DMA transfer on a channel after the sandbox check. -/
  | xfer (l : Fin 16) (chk : LaneCheck)
  /-- XWAIT (R215): Holds issue until a DMA channel is idle. -/
  | xwait (l : Fin 16) (chk : LaneCheck)
  /-- SWI (R225): Raises interrupt source 2. -/
  | swi (l : Fin 16) (chk : LaneCheck)
  /-- RTI (R225): Returns from an interrupt handler, restoring the interrupted bank. -/
  | rti (l : Fin 16) (chk : LaneCheck)
  /-- TSET (R225): Arms or cancels the lane step timer. -/
  | tset (l : Fin 16) (chk : LaneCheck)
  /-- EXPCLR (R223): Resets the block exponent to 15. -/
  | expclr (l : Fin 16) (chk : LaneCheck)
  /-- EXPGET (R223): Copies the block exponent to a scalar. -/
  | expget (l : Fin 16) (chk : LaneCheck)
  /-- IDXSET (R224): Sets IBASE and empties the running maximum and minimum. -/
  | idxset (l : Fin 16) (chk : LaneCheck)
  /-- MMGET (R224): Copies a running maximum or minimum value or index to a scalar. -/
  | mmget (l : Fin 16) (chk : LaneCheck)
  /-- MOVE (R219): Executes move slots only. -/
  | move (l : Fin 16) (chk : LaneCheck)
  /-- VADD (R220): Saturating complex vector add. -/
  | vadd (l : Fin 16) (chk : LaneCheck)
  /-- VSUB (R220): Saturating complex vector subtract. -/
  | vsub (l : Fin 16) (chk : LaneCheck)
  /-- VMULN (R222): Narrowing complex vector multiply with convergent rounding. -/
  | vmuln (l : Fin 16) (chk : LaneCheck)
  /-- VMULCN (R222): Narrowing complex multiply by the conjugate. -/
  | vmulcn (l : Fin 16) (chk : LaneCheck)
  /-- VMAC (R221): Complex multiply-accumulate into an accumulator. -/
  | vmac (l : Fin 16) (chk : LaneCheck)
  /-- VMACC (R221): Multiply-accumulate with the conjugate. -/
  | vmacc (l : Fin 16) (chk : LaneCheck)
  /-- VMSU (R221): Complex multiply-subtract from an accumulator. -/
  | vmsu (l : Fin 16) (chk : LaneCheck)
  /-- VMUL0 (R221): Complex multiply into an accumulator. -/
  | vmul0 (l : Fin 16) (chk : LaneCheck)
  /-- VDOTC (R221): Conjugate dot product added into accumulator element 0. -/
  | vdotc (l : Fin 16) (chk : LaneCheck)
  /-- VNRW (R222): Narrows an accumulator with rounding and saturation. -/
  | vnrw (l : Fin 16) (chk : LaneCheck)
  /-- VSHA (R222): Arithmetic vector shift. -/
  | vsha (l : Fin 16) (chk : LaneCheck)
  /-- VCONJ (R220): Vector conjugate. -/
  | vconj (l : Fin 16) (chk : LaneCheck)
  /-- VNEG (R220): Saturating vector negate. -/
  | vneg (l : Fin 16) (chk : LaneCheck)
  /-- VBFLY (R223): Radix-2 butterfly, optionally halving. -/
  | vbfly (l : Fin 16) (chk : LaneCheck)
  /-- VPERM (R220): Permutes vector elements by a pattern. -/
  | vperm (l : Fin 16) (chk : LaneCheck)
  /-- BEXP (R223): Lowers the block exponent to the smallest redundant sign bits of a vector. -/
  | bexp (l : Fin 16) (chk : LaneCheck)
  /-- VMAXI (R224): Updates the running maximum and its index. -/
  | vmaxi (l : Fin 16) (chk : LaneCheck)
  /-- VMINI (R224): Updates the running minimum and its index. -/
  | vmini (l : Fin 16) (chk : LaneCheck)
  /-- VRCP (R220): Reciprocal seed. -/
  | vrcp (l : Fin 16) (chk : LaneCheck)
  /-- VRSQ (R220): Reciprocal square-root seed. -/
  | vrsq (l : Fin 16) (chk : LaneCheck)
  /-- VSPLAT (R220): Broadcasts a scalar to every element. -/
  | vsplat (l : Fin 16) (chk : LaneCheck)
  /-- DMA_TRANSFER_DONE (R231): A lane DMA transfer finishes, raising interrupt source 0 if its IRQ flag is set. -/
  | dmaTransferDone (l : Fin 16) (ch : Fin 4) (data : List Byte)
  /-- STEP_TIMER_EXPIRY (R225): The TSET step count runs out and raises interrupt source 1. -/
  | stepTimerExpiry (l : Fin 16)
  /-- INTERRUPT_TAKEN (R225): A pending enabled interrupt is taken at an instruction boundary, swapping in the shadow bank. -/
  | interruptTaken (l : Fin 16)
  /-- JOB_BUDGET (R232): A job reaches its step budget, stops with fault 3 and raises JOB_BUDGET. -/
  | jobBudget (l : Fin 16)
  /-- JOB_START (R230): A queued job starts on a free lane: wipe, register init and inbound segments. -/
  | jobStart (l : Fin 16) (cls : Option (Fin 5)) (data : List (List Byte))
  /-- JOB_COMPLETE (R230): Outbound segments end and the job command completes with its data. -/
  | jobComplete (l : Fin 16) (chk : LaneCheck)
  /-- CANARY_MEASURE (R237): A lane measures its delay canary in a step with no multiply issue. -/
  | canaryMeasure (l : Fin 16) (ps : Nat)
  /-- TELEM_STEAL (R237): After 10 ms without a free step the lane inserts an idle step for the canary. -/
  | telemSteal (l : Fin 16) (ps : Nat)
  /-- MBX_DOORBELL (R38): A GO write checks and queues the mailbox command or refuses it, setting MBX_STATUS. -/
  | mbxDoorbell (m : Fin 8)
  /-- COMPLETION_WRITE (R47): A completion entry is written once its queue has space and is enabled. -/
  | completionWrite (q : Fin 8)
  /-- CQ_HEAD_WRITE (R47): The host advances CQ_HEAD, freeing space for waiting completions. -/
  | cqHeadWrite (q : Fin 8) (head : BitVec 16)
  /-- CQ_ENABLE (R50): Setting CQ_CTRL.EN resets TAIL and starts writing held completions with phase 1. -/
  | cqEnable (q : Fin 8)
  /-- CQ_DISABLE (R48): Clearing CQ_CTRL.EN stops writes; completions wait and new doorbells naming it are refused. -/
  | cqDisable (q : Fin 8)
  /-- EVENT_RAISE (R49): A unit raises an event, which is filtered, held, written or dropped. -/
  | eventRaise (name : EvName) (inst : BitVec 16) (data : List Byte)
  /-- EVENT_WRITE (R49): A held event is written to the event ring once space returns. -/
  | eventWrite
  /-- EVT_HEAD_WRITE (R49): The host advances EVT_HEAD, freeing ring space. -/
  | evtHeadWrite (head : BitVec 16)
  /-- EVT_ENABLE (R50): Setting EVT_CTRL.EN resets TAIL and writes held events. -/
  | evtEnable
  /-- EVT_DISABLE (R50): Clearing EVT_CTRL.EN stops event writes; up to 64 events are held. -/
  | evtDisable
  /-- EVT_LOST_READ (R5): A host read returns and clears EVT_LOST. -/
  | evtLostRead
  /-- EVT_FILTERED_READ (R5): A host read returns and clears EVT_FILTERED. -/
  | evtFilteredRead
  /-- COEX_GRANTS_READ (R5): A host read returns and clears a radio's grant edge count. -/
  | coexGrantsRead (r : Radio)
  /-- WATCHDOG_EXPIRY (R44): 250 ms without service: FAULT, HW_FAULT completions, FW_FAULT event, doorbells refused. -/
  | watchdogExpiry
  /-- COALESCE_TIMEOUT (R52): COAL_TIME passes after the first unsignalled entry and the MSI-X message is sent. -/
  | coalesceTimeout (src : Fin 137)
  /-- MSIX_DEFERRED_SEND (R470): A message held while the link was not in L0 is sent on return to L0. -/
  | msixDeferredSend (link : PcieLink)
  /-- MSIX_UNMASK (R470): Unmasking a vector sends its pending message. -/
  | msixUnmask (v : Fin 64)
  /-- HRING_PROD_WRITE (R53): The host posts descriptors; a write that overfills the ring halts it. -/
  | hringProdWrite (tx : Bool) (n : Fin 64) (value : BitVec 16)
  /-- HRING_ENABLE (R59): Setting HRING_CTRL.EN starts the ring without resetting PROD or CONS. -/
  | hringEnable (tx : Bool) (n : Fin 64)
  /-- HRING_DISABLE (R59): Clearing HRING_CTRL.EN aborts unsent frames or drops the frame in progress. -/
  | hringDisable (tx : Bool) (n : Fin 64)
  /-- HRING_IDLE (R59): A disabled ring finishes its work and IDLE sets. -/
  | hringIdle (tx : Bool) (n : Fin 64)
  /-- HRING_RESUME (R58): Clearing HALTED with EN set resumes the ring at CONS. -/
  | hringResume (tx : Bool) (n : Fin 64)
  /-- HTX_FRAME_FETCH (R54): The device fetches a transmit frame from a host ring, checks it and hands it on. -/
  | htxFrameFetch (n : Fin 64) (descs : List (List Byte)) (data : List Byte)
  /-- HRX_FRAME_DELIVER (R56): A received frame is written into host receive buffers and its descriptors completed. -/
  | hrxFrameDeliver (n : Fin 64) (descs : List (List Byte))
  /-- REGISTER_WRITE (R4): A host write to a register that has no behaviour of its own sets its fields by access type. -/
  | registerWrite (w : RegWrite)
  /-- POWER_ON_RESET (R65): VDD_CORE or VDD_AON rising resets and wipes the device with cause POWER_ON. -/
  | powerOnReset
  /-- PERST_ASSERT (R66): PERST_N falls and holds the device in reset with cause PERST. -/
  | perstAssert
  /-- PERST_RELEASE (R63): PERST_N rises and the wipe and link training begin. -/
  | perstRelease
  /-- HOT_RESET (R67): A PCI Express hot reset or link down resets and wipes the device. -/
  | hotReset
  /-- FLR (R67): A function-level reset wipes the device and function registers. -/
  | flr
  /-- SYS_RESET (R68): LC_CTRL.SYS_RESET makes an internal reset with cause HOST_CMD. -/
  | sysReset (value : Word)
  /-- WDT_AUTO_RESET (R70): FAULT lasting DELAY x 100 ms with AUTO_RESET makes a watchdog reset. -/
  | wdtAutoReset
  /-- THERMAL_TRIP (R69): The sensor reads 120 degC: radios to OFF, internal reset, thermal hold. -/
  | thermalTrip
  /-- THERMAL_HOLD_CLEAR (R69): The sensor reads below 100 degC and THERMAL_HOLD clears, re-arming the trip. -/
  | thermalHoldClear
  /-- THERMAL_WARN (R51): Tj rises through 105 degC and THERMAL_WARN is raised. -/
  | thermalWarn (high : Bool)
  /-- WIPE_END (R65): The reset wipe completes: FW_STATE EMPTY, window open, time bases start, vector 0 message. -/
  | wipeEnd
  /-- APPLY_TOKEN (R72): LC_CTRL.APPLY_TOKEN checks a life-cycle token and on success starts the transition. -/
  | applyToken (value : Word)
  /-- FUSE_PROGRAM_DONE (R72): Fuse programming ends and the device resets with cause LIFE_CYCLE. -/
  | fuseProgramDone
  /-- FWL_START (R75): FWL_CTRL.START closes the window and checks the image header. -/
  | fwlStart
  /-- IMAGE_VERIFIED (R75): Hash and signature check end: REJECTED or STARTING. -/
  | imageVerified
  /-- FW_READY (R75): Builmin reaches RUNNING, raises FW_READY and makes its first AVSBus request. -/
  | fwReady
  /-- BIVOUAC_N_ASSERT (R80): After bivouac preparation the device drives BIVOUAC_N low. -/
  | bivouacNAssert
  /-- SUPPLY_REMOVAL (R64): Main supplies fall at power-down or in bivouac, losing state outside the kept domains. -/
  | supplyRemoval (aon : Bool)
  /-- CANARY_REPLAN (R17): The canary part of VDD_CORE is re-planned and an AVSBus request made. -/
  | canaryReplan (canary : Nat)
  /-- AVS_FAULT (R18): A write unacknowledged for 1 ms starts or extends an AVS fault. -/
  | avsFault
  /-- AVS_PAUSE_END (R18): The 1 s pause of an AVS fault ends and requests may be made again. -/
  | avsPauseEnd
  /-- AVS_ACK (R18): The regulator acknowledges a write, ending any AVS fault. -/
  | avsAck (readback : Nat)
  /-- REF_LOST (R19): Loss of the 40 MHz reference: radios OFF, time bases hold, links drop. -/
  | refLost
  /-- REF_RETURN (R19): The reference returns: time bases count and SerDes links train. -/
  | refReturn
  /-- COMMIT_POINT (R23): At commit point C the air-timing engine builds the response from the scoreboard. -/
  | commitPoint (r : Radio)
  /-- RESPONDER_COMPLETE (R26): The responder marks a response complete, fixing its slack. -/
  | responderComplete (r : Radio) (d : NoData)
  /-- HL_EVALUATE (R26): After 256 responses or 10 ms the Headland evaluates P1 and may take a step. -/
  | hlEvaluate (r : Radio)
  /-- HL_UNDO (R28): P1 stays above 3.0 us for 30 s and one Headland increment is undone. -/
  | hlUndo (r : Radio)
  /-- RADIO_STATE_APPLY (R87): A requested state change starts at the end of the current frame exchange. -/
  | radioStateApply (r : Radio)
  /-- RADIO_TRANSITION_END (R84): A sequenced radio transition reaches its Table 4.4 time. -/
  | radioTransitionEnd (r : Radio)
  /-- RADIO_AUTO_WAKE (R86): A radio leaves STANDBY or SLEEP by itself in time for a launch, TBTT, coordinated TXOP or TWT period. -/
  | radioAutoWake (r : Radio) (tx : Bool)
  /-- SYN_TEMP_SAMPLE (R88): The synthesiser sensor is sampled; a 12 degC drift makes the segment stale and calibration pending. -/
  | synTempSample (r : Radio) (temp : Int)
  /-- CAL_PENDING_START (R91): A pending calibration starts at the first quiet moment. -/
  | calPendingStart (r : Radio)
  /-- CAL_FORCED (R92): A calibration pending 20 ms starts at the end of the exchange, giving up the TXOP. -/
  | calForced (r : Radio)
  /-- SYN_CAL_END (R89): A 180 us synthesiser calibration ends and the radio goes to its return state. -/
  | synCalEnd (r : Radio)
  /-- CHANNEL_SWITCH (R90): A radio changes channel at the end of the exchange or at the announced instant. -/
  | channelSwitch (r : Radio) (extra : Nat)
  /-- DERATE_RESEARCH (R102): 60 s after derating a chain is searched again. -/
  | derateResearch (r : Radio) (c : Fin 16)
  /-- COEX_REQ_CHANGE (R105): A filtered REQ level change updates GNT and may abort a class 2 PPDU. -/
  | coexReqChange (r : Radio) (level : Bool)
  /-- COEX_PRI_CHANGE (R105): A filtered PRI level change updates GNT. -/
  | coexPriChange (r : Radio) (level : Bool)
  /-- COEX_STUCK (R108): REQ held high for COEX_MAX_HOLD: GNT withdrawn and COEX_STUCK raised. -/
  | coexStuck (r : Radio)
  /-- PREAMBLE_DETECT (R119): An OFDM or DSSS preamble is detected and CCA goes busy. -/
  | preambleDetect (r : Radio) (power : RxLevels) (dsss : Bool)
  /-- SIG_VALIDATE (R122): A detected PPDU reaches its validation point or fails a SIG check. -/
  | sigValidate (r : Radio) (sig : SigInfo)
  /-- SEARCH_RESUME (R122): Preamble search resumes after a SIG failure. -/
  | searchResume (r : Radio)
  /-- RESTART_DECISION (R123): A new stronger preamble during a reception restarts the receiver. -/
  | restartDecision (r : Radio) (power : RxLevels) (users : List UserMeas)
  /-- LDPC_DECODE (R127): An LDPC codeword finishes decoding. -/
  | ldpcDecode (r : Radio) (w : LdpcWord) (waiting : Nat)
  /-- MPDU_RX (R164): A received MPDU's FCS, size, duplicate and session checks finish and its result enters the scoreboard. -/
  | mpduRx (r : Radio) (m : Mpdu)
  /-- RX_PPDU_END (R121): A received PPDU reaches its SIG-computed end. -/
  | rxPpduEnd (r : Radio) (e : PpduEnd)
  /-- TX_PPDU_START (R15): A radio starts a PPDU at its launch instant if the DAC FIFO holds 8 symbols. -/
  | txPpduStart (r : Radio) (fifo staged blanked : Bool)
  /-- TX_UNDERRUN (R15): The DAC FIFO empties mid-PPDU and the PPDU is ended. -/
  | txUnderrun (r : Radio)
  /-- TX_PPDU_END (R85): A transmitted PPDU ends and the radio turns around or returns. -/
  | txPpduEnd (r : Radio) (e : TxTail)
  /-- WUR_FRAME_RX (R138): A WUR frame is received, its FCS checked and matched against the table. -/
  | wurFrameRx (f : WurFrame)
  /-- WUR_WINDOW (R136): A duty-cycled listening window opens or closes. -/
  | wurWindow (isOpen : Bool)
  /-- WUR_COPY_DUE (R144): A wake-up copy falls due, dropping any unsent previous copy. -/
  | wurCopyDue (bss : Fin 16)
  /-- RESPONSE_TIMEOUT (R146): No response detected in the window and the exchange fails. -/
  | responseTimeout (r : Radio)
  /-- CCA_CHANGE (R147): Energy on a subchannel crosses a CCA threshold. -/
  | ccaChange (r : Radio) (sub : Fin 16) (power : Int) (ppdu : Bool)
  /-- BACKOFF_SLOT (R150): An idle slot boundary decrements backoff and may win a TXOP for an EDCA function. -/
  | backoffSlot (r : Radio) (d0 d1 : NoData)
  /-- NAV_RTS_TIMEOUT (R153): A NAV set by RTS is reset when no PPDU follows in time. -/
  | navRtsTimeout (r : Radio)
  /-- MSDU_LIFETIME_EXPIRY (R158): An MSDU's lifetime ends and it is dropped. -/
  | msduLifetimeExpiry (q : Fin 8384)
  /-- DEFRAG_TIMEOUT (R160): An MSDU not reassembled within 100 ms is discarded. -/
  | defragTimeout (q : Fin 8192)
  /-- REORDER_TIMEOUT (R163): A gap open for REORDER_TIMEOUT releases held MPDUs. -/
  | reorderTimeout (q : Fin 8192)
  /-- ADDBA_REQUEST (R161): Builmin answers an ADDBA Request by the policy. -/
  | addbaRequest (q : Fin 8192) (dialog : Byte) (size : Nat) (ssn : BitVec 12)
  /-- TWT_SETUP_REQUEST (R177): Builmin answers an individual TWT setup request. -/
  | twtSetupRequest (sta : Fin 1024) (dialog : Byte) (flow : Fin 8) (interval : Nat) (sp : TwtSpan) (restricted : Bool)
  /-- SA_QUERY (R183): Builmin answers an SA Query. -/
  | saQuery (sta : Fin 1024) (transId : BitVec 16)
  /-- TBTT (R171): A BSS's TBTT arrives and its beacon contends, or a switch instant is reached. -/
  | tbtt (b : Fin 48) (d : NoData)
  /-- BCN_DEFERRED (R172): A beacon goes out after the TBTT when the medium frees. -/
  | bcnDeferred (r : Radio)
  /-- TWT_SP_START (R178): A TWT service period starts and its guard and windows are computed. -/
  | twtSpStart (q : Fin 8192)
  /-- UPL_BEACON_WINDOW_END (R181): An expected upstream beacon window closes missed, possibly losing the link. -/
  | uplBeaconWindowEnd (r : Radio)
  /-- FURROW_BUILD_START (R204): The planner starts building the next furrow. -/
  | furrowBuildStart (r : Radio) (coord : Bool) (mism fbMism : Fin 3)
  /-- FURROW_READY (R204): A furrow's PPDUs and precoders are ready. -/
  | furrowReady (r : Radio) (ns : Nat)
  /-- FURROW_LATE_WINDOW (R208): A 1 s window ends and FURROW_LATE is raised if fallbacks exceed LATE_ALARM. -/
  | furrowLateWindow (r : Radio)
  /-- LL_URGENT (R192): A low-latency queue or uplink TID becomes urgent after T_LL/2. -/
  | llUrgent (uplink : Bool) (q : Fin 8192)
  /-- LL_DEADLINE (R192): An uplink TID's deadline passes without an RU and counts LL_MISS. -/
  | llDeadline (uplink : Bool) (q : Fin 8192)
  /-- UL_HOLD_END (R203): A station's 200 ms uplink hold ends. -/
  | ulHoldEnd (sta : Fin 1024)
  /-- COORD_TXOP_START (R315): A planned coordinated TXOP start is reached and sent or skipped. -/
  | coordTxopStart (r : Radio) (d : NoData) (navPitch : Bool)
  /-- SOUNDING_FEEDBACK (R245): Sounding feedback arrives and is decompressed into an explicit record. -/
  | soundingFeedback (r : Radio) (sta : Fin 1024) (fb : Option CsiIn)
  /-- CSI_EXPIRED (R253): A CSI record passes its age. -/
  | csiExpired (r : Radio) (kind : Fin 3) (index : Nat)
  /-- RECIP_CAL_REQUEST (R248): 50 s or 60 s after the last calibration, reciprocity calibration becomes pending or stale. -/
  | recipCalRequest (r : Radio)
  /-- RECIP_CAL_START (R249): A pending reciprocity calibration starts at a quiet moment. -/
  | recipCalStart (r : Radio)
  /-- RECAL_FORCED (R249): A calibration pending 100 ms starts at the end of the exchange. -/
  | recalForced (r : Radio)
  /-- RECIP_CAL_END (R249): A reciprocity calibration ends, invalidating precoders of the old correction. -/
  | recipCalEnd (r : Radio) (loops : List (List Loopback))
  /-- GROUP_REBUILD (R254): Groups are rebuilt every GROUP_INTERVAL or when a quarter are invalid. -/
  | groupRebuild (r : Radio) (b : Fin 48)
  /-- SEEDER_EVALUATION (R263): A domain's periodic evaluation of one object, changing it or counting HELD. -/
  | seederEvaluation (e : Eval)
  /-- SEEDER_OVERLOAD (R271): A queue, cipher or ring target is overloaded and its objects are moved. -/
  | seederOverload (d : OverDom) (target : Fin 64) (rising : Bool) (load : List Nat) (objs : List (Nat × Bool × Nat))
  /-- FORCED_REPLACEMENT (R284): A fault or fence event forces re-placement bypassing hysteresis. -/
  | forcedReplacement (f : Forced)
  /-- SURVEY_DWELL (R270): A radio dwells 2 ms on another allowed channel. -/
  | surveyDwell (r : Radio) (centre bw prim : Nat)
  /-- SURVEY_SKIP (R270): No starting moment arose in SURVEY_INTERVAL and the dwell is skipped. -/
  | surveySkip (r : Radio)
  /-- STEER_RESPONSE (R278): A station answers a steering request and the result is logged. -/
  | steerResponse (sta : Fin 1024) (status : Byte)
  /-- STEER_TIMEOUT (R278): 5 s pass without a steering response. -/
  | steerTimeout (sta : Fin 1024)
  /-- BELAY_SEND (R299): The lead or a successor sends a launch-timed belay at T_k. -/
  | belaySend
  /-- BELAY (R300): A belay is received, checked and applied. -/
  | belay (f : KnFrame)
  /-- BELAY_WINDOW_CLOSE (R300): A belay window closes unsatisfied and counts BELAY_MISS. -/
  | belayWindowClose
  /-- JOIN_REQ (R294): The lead receives a join request and answers with JOIN_ACK. -/
  | joinReq (f : KnFrame)
  /-- JOIN_REQ_SEND (R294): A joining device sends JOIN_REQ at start and every 100 TU. -/
  | joinReqSend
  /-- JOIN_ACK (R294): A joining device receives JOIN_ACK and confirms, retries or stops. -/
  | joinAck (f : KnFrame)
  /-- JOIN_CONFIRM (R294): The lead receives JOIN_CONFIRM and writes the roster entry. -/
  | joinConfirm (f : KnFrame)
  /-- JOIN_TIMEOUT (R295): No accepting JOIN_ACK in 10 belay intervals and the join fails. -/
  | joinTimeout
  /-- ROPE_FORM (R295): With FORM and no belay heard in 3 intervals, the device becomes lead. -/
  | ropeForm
  /-- LEAVE (R297): A LEAVE is received and the lead removes the member. -/
  | leave (f : KnFrame)
  /-- ROSTER_REQ (R296): The lead receives a roster request and sends the full roster. -/
  | rosterReq (f : KnFrame)
  /-- ROSTER (R296): A member receives roster frames and applies them. -/
  | roster (f : KnFrame)
  /-- REPORT (R305): The lead receives a member report with coupling data. -/
  | report (f : KnFrame)
  /-- REPORT_SEND (R297): A member sends its REPORT every 1,024 TU. -/
  | reportSend (busyB busyC : Nat) (heard : List (List Byte × Int))
  /-- HELLO (R306): A HELLO is received from a direct-link neighbour. -/
  | hello (f : KnFrame)
  /-- HELLO_SEND (R286): A member sends HELLO on each Kennar port every 1,024 TU. -/
  | helloSend
  /-- CLIENTS (R307): A CLIENTS message updates the foreign list and serving candidates. -/
  | clients (f : KnFrame)
  /-- CLIENTS_SEND (R307): A member sends CLIENTS on change and every 1,024 TU. -/
  | clientsSend (busyB busyC : Nat)
  /-- MEMBER_TIMEOUT (R297): The lead removes a member silent for 5 report intervals. -/
  | memberTimeout (ix : Fin 1024)
  /-- T_REQ_SEND (R309): A time child sends T_REQ in its slot every 4 slots. -/
  | tReqSend
  /-- T_REQ (R309): A time parent stamps T_REQ and prepares the response. -/
  | tReq (f : KnFrame)
  /-- T_RESP_SEND (R309): The parent launches T_RESP at t3 or drops it as late. -/
  | tRespSend (onTime : Bool)
  /-- T_RESP (R310): A child computes offset and delay and the servo acts. -/
  | tResp (f : KnFrame)
  /-- TIME_EXCH_LOST (R309): No T_RESP within 10 ms; four in a row lose the parent. -/
  | timeExchLost
  /-- TIME_SERVO_STEP (R310): A large offset is stepped at the next slot boundary and the member unlocks. -/
  | timeServoStep
  /-- PROPOSAL_SEND (R312): A locked member sends its proposal for slot n+2. -/
  | proposalSend (demandB demandC : Nat) (serve : List (Fin 1024 × Radio))
  /-- PROPOSAL (R312): The anchor receives a proposal, counting it late after the cutoff. -/
  | proposal (f : KnFrame)
  /-- PROPOSAL_CUTOFF (R313): At slot start plus 3,072 us the anchor merges proposals. -/
  | proposalCutoff
  /-- PLAN_SEND (R313): The anchor sends the merged PLAN before slot n+1. -/
  | planSend
  /-- PLAN (R314): A member receives PLAN and forms its constraint set. -/
  | plan (f : KnFrame)
  /-- COORD_SLOT_START (R314): A coordination slot begins; missing plans count PLAN_MISSING. -/
  | coordSlotStart
  /-- KEY_PHASE_EXPIRY (R292): 8 belay intervals after a switch the old phase is no longer accepted. -/
  | keyPhaseExpiry
  /-- TB_CMD_SET (R325): TBn_CMD.SET loads a time base on the next tick, rejudging held launches. -/
  | tbCmdSet (n : Fin 4) (value : Word)
  /-- TB_CMD_ADJ (R325): TBn_CMD.ADJ adds a signed value on the next tick. -/
  | tbCmdAdj (n : Fin 4) (value : Word)
  /-- TB_INC_COMMIT (R324): A TBn_INC_HI write commits INC on the next tick or is refused. -/
  | tbIncCommit (n : Fin 4) (value : Word)
  /-- TB_DITHER_COMMIT (R324): A TBn_DITHER write commits dither on the next tick. -/
  | tbDitherCommit (n : Fin 4) (value : Word)
  /-- TB_TIME_READ (R322): A read of TBn_TIME_NS returns NS and fills the host snapshot. -/
  | tbTimeRead (n : Fin 4)
  /-- TB_CAPTURE_GO (R329): TB_CAPTURE.GO captures all four time bases from one tick. -/
  | tbCaptureGo (value : Word)
  /-- TB_SATURATE (R320): The seconds count reaches its maximum and SAT sets. -/
  | tbSaturate (n : Fin 4)
  /-- TB_MASTER_TIMEOUT (R328): A PTP time base loses its master and enters free-run. -/
  | tbMasterTimeout (n : Fin 4)
  /-- PPS_IN_EDGE (R330): A filtered PPS_IN edge is captured or ignored as early. -/
  | ppsInEdge
  /-- PPS_IN_LOST (R330): No accepted PPS_IN edge for 1.5 s. -/
  | ppsInLost
  /-- PPS_OUT_EDGE (R331): A seconds carry raises PPS_OUT. -/
  | ppsOutEdge
  /-- PPS_OUT_FALL (R331): PPS_OUT falls after its width. -/
  | ppsOutFall
  /-- LAUNCH_JUDGE (R337): A launch-timed frame at the head of its queue is judged future or late. -/
  | launchJudge (unit : Fin 5)
  /-- LAUNCH_INSTANT (R338): A held frame's launch instant arrives and it is sent or becomes late. -/
  | launchInstant (unit : Fin 5) (d : NoData)
  /-- ROUTER_CLASSIFY (R341): A frame is parsed, steered, looked up and sent to one egress target. -/
  | routerClassify (pipe : Fin 8) (mism : Fin 3) (bad : List (RtTab × Nat)) (rows : List (Fin 1024))
  /-- EXCEPTION_DELIVER (R363): Builmin delivers a queued exception to EXC_RING with its header. -/
  | exceptionDeliver
  /-- FRAGMENT_SLOW_PATH (R365): Builmin classifies and forwards fragments of a datagram. -/
  | fragmentSlowPath (bad : List (RtTab × Nat)) (rows : List (Fin 1024))
  /-- SLOW_FRAG_TIMEOUT (R365): Fragments without a first fragment in 2 s are dropped. -/
  | slowFragTimeout
  /-- FLOW_AGE_CHECK (R349): The once-per-second idle check removes aged flow entries. -/
  | flowAgeCheck
  /-- FDB_AGE (R352): A dynamic FDB entry idle for FDB_AGE is removed. -/
  | fdbAge (d : Fin 64) (mac : List Byte)
  /-- ETH_FRAME_RX (R376): A received Ethernet frame passes filter, size, FCS and buffer checks. -/
  | ethFrameRx (p : Fin 2) (bytes : List Byte) (fcsOk express : Bool) (frags : Nat) (err : Fin 3) (fec : Nat) (util : Fin 1001)
  /-- PAUSE_RX (R379): A PAUSE frame starts, replaces or ends a pause of preemptable traffic. -/
  | pauseRx (p : Fin 2) (q : BitVec 16)
  /-- PAUSE_END (R379): The pause time runs out and preemptable traffic resumes. -/
  | pauseEnd (p : Fin 2)
  /-- ETH_FRAME_TX (R380): A port starts sending a frame, preempting or waiting as required. -/
  | ethFrameTx (p : Fin 2) (frags : Nat)
  /-- LAUNCH_WIRE_HOLD (R382): At T minus HOLD_ADV the port clears the wire for a launch instant. -/
  | launchWireHold (p : Fin 2)
  /-- ETH_LINK_UP (R373): The PCS reaches lock with no fault and ETH_LINK is raised. -/
  | ethLinkUp (p : Fin 2) (speed fec addFrag : Fin 4)
  /-- ETH_LINK_DOWN (R373): The link condition is false for 1 ms; queued frames drop. -/
  | ethLinkDown (p : Fin 2) (cause : Fin 4)
  /-- PREEMPT_VERIFY (R380): A verify mPacket is sent every VERIFY_TIME after link up. -/
  | preemptVerify (p : Fin 2)
  /-- CAPS_SEND (R384): A port sends a fallow CAPS frame every 1 s. -/
  | capsSend (p : Fin 2)
  /-- CAPS (R384): A fallow CAPS frame is received. -/
  | caps (p : Fin 2) (flags : Byte) (serial : BitVec 64)
  /-- FALLOW_CAPS_TIMEOUT (R384): No CAPS in 3 s and the partner is no longer fallow-capable. -/
  | fallowCapsTimeout (p : Fin 2)
  /-- FALLOW_DOWN_TRIGGER (R385): 30 s below 10 % and the lower-serial partner requests a down step. -/
  | fallowDownTrigger (p : Fin 2)
  /-- FALLOW_UP_TRIGGER (R385): A 10 ms window above 60 % requests an up step. -/
  | fallowUpTrigger (p : Fin 2)
  /-- STEP_REQ (R385): A fallow step request is answered with ACK or NAK. -/
  | stepReq (p : Fin 2) (target : Fin 4) (seq : Word) (util : Fin 1001)
  /-- STEP_ACK (R385): A step acknowledge restarts AN at the target speed. -/
  | stepAck (p : Fin 2) (seq : Word)
  /-- STEP_NAK (R385): A step refusal is received. -/
  | stepNak (p : Fin 2) (seq : Word)
  /-- STEP_REQ_TIMEOUT (R385): A step request unanswered for 10 ms is dropped. -/
  | stepReqTimeout (p : Fin 2)
  /-- ETH_FALLOW (R385): A fallow speed step completes and ETH_FALLOW is raised. -/
  | ethFallow (p : Fin 2) (fec : Fin 4)
  /-- CIPHER_FRAME (R389): A core encrypts or decrypts and verifies one frame. -/
  | cipherFrame (core : Fin 160) (j : Nat) (mism : Fin 3) (ok : Bool)
  /-- KEY_HOLD_TIMEOUT (R403): An Ethernet frame held 100 ms for a locked key is dropped. -/
  | keyHoldTimeout (p : Fin 2)
  /-- SAE_CONTEXT_TIMEOUT (R398): An SAE context unused for 2 s is freed. -/
  | saeContextTimeout (ix : Fin 64)
  /-- DRAM_INIT_DONE (R411): Initialisation with check bits ends and DRAM_CONFIGURE completes. -/
  | dramInitDone (fail : Option (Fin 8 × Fin 2 × Fin 2))
  /-- DRAM_READ (R413): A read burst is checked, corrected or poisoned. -/
  | dramRead (c : Fin 2) (op : RdOp)
  /-- DRAM_WRITE (R423): A write burst is queued and issued. -/
  | dramWrite (c : Fin 2) (op : WrOp)
  /-- ALERT_FALL (R416): ALERT_n falls and the controller stops issuing. -/
  | alertFall (c : Fin 2) (crc : Bool)
  /-- ALERT_RISE (R416): ALERT_n rises and the retry buffer is replayed. -/
  | alertRise (c : Fin 2)
  /-- REF_DUE (R418): A REF falls due, possibly forcing a burst of 8. -/
  | refDue (c r : Fin 2)
  /-- REF_ISSUE (R418): An owed REF is issued when the rank is idle. -/
  | refIssue (c r : Fin 2)
  /-- REF_PULL_IN (R418): After 2 us idle a REF is issued ahead. -/
  | refPullIn (c r : Fin 2)
  /-- TEMP_READ (R419): The MPR temperature is read every 32 ms and hot mode set or cleared. -/
  | tempRead (c : Fin 2) (hot : Bool)
  /-- ZQ_CAL (R417): A ZQ short calibration falls due every 128 ms. -/
  | zqCal (c : Fin 2)
  /-- RETRAIN_DUE (R420): A channel falls due for periodic retraining. -/
  | retrainDue (c : Fin 2)
  /-- RETRAIN_START (R417): Retraining starts when foreground is quiet or at the 100 ms limit. -/
  | retrainStart (c : Fin 2) (last : List (Nat × Nat))
  /-- RETRAIN_DONE (R420): A retraining ends and the next interval starts. -/
  | retrainDone (c : Fin 2) (ok : Bool) (trained : List (Nat × Nat))
  /-- RTC_TIME0_READ (R431): A read of RTC_TIME0 latches a snapshot. -/
  | rtcTime0Read (presc : BitVec 15)
  /-- RTC_TIME2_READ (R431): A read of RTC_TIME2 releases the snapshot. -/
  | rtcTime2Read
  /-- RTC_SNAPSHOT_EXPIRY (R431): The snapshot is released at the 33rd crystal edge. -/
  | rtcSnapshotExpiry
  /-- RTC_COMMIT (R433): An RTC_COMMIT write checks the holding set and schedules the load or refuses it. -/
  | rtcCommit (value : Word)
  /-- RTC_COMMIT_LOAD (R433): The calendar loads at the next crystal edge and OSC_STOPPED clears. -/
  | rtcCommitLoad
  /-- RTC_UNLOCK (R426): A write to RTC_UNLOCK arms or completes the unlock sequence. -/
  | rtcUnlock (value : Word)
  /-- RTC_LOCK (R425): VDD_IO falls through 1.62 V and the RTC interface locks. -/
  | rtcLock
  /-- VDD_IO_GOOD (R424): VDD_IO rises through 1.66 V and the battery domain switches to it. -/
  | vddIoGood
  /-- BATTERY_POWER_UP (R427): The battery domain powers up and every RTC register resets. -/
  | batteryPowerUp
  /-- RTC_SECOND_TICK (R429): A second tick advances and carries the calendar. -/
  | rtcSecondTick
  /-- OSC_STOP (R436): No crystal edge for 250 us sets OSC_STOPPED. -/
  | oscStop (presc : BitVec 15)
  /-- OSC_RESUME (R436): Crystal edges return and counting resumes. -/
  | oscResume
  /-- GLEANER_ACCESS (R445): The Gleaner scrubs a word in a free access slot. -/
  | gleanerAccess (a : Fin 18) (word : Nat) (find : ScrubFind)
  /-- GLEANER_PASS_END (R444): A scrub pass ends and the next starts. -/
  | gleanerPassEnd (a : Fin 18)
  /-- GLEANER_ESCALATE (R446): A pass not ended after 60 min escalates to a 2 % share. -/
  | gleanerEscalate (a : Fin 18)
  /-- WEAK_REGION_SCRUB (R447): A weak region is scrubbed again every 60 s. -/
  | weakRegionScrub (ix : Fin 256) (word : Fin 512) (find : ScrubFind)
  /-- ARRAY_WRITEBACK (R442): A corrected array word is written back in the next free slot. -/
  | arrayWriteback (op : WordOp)
  /-- TERNARY_REPAIR (R443): A ternary row is rewritten from its shadow. -/
  | ternaryRepair (ix : Fin 1024) (shadowBad : Bool)
  /-- CANARY_SAMPLE (R17): The delay canaries are sampled every 1 ms. -/
  | canarySample (delays : List Nat)
  /-- STRESS_SAMPLE (R448): Each second adds equivalent stress. -/
  | stressSample (tj : Int)
  /-- MARGIN_REPLAN (R449): AGE_GUARD and Headland triggers are re-planned every 10 min. -/
  | marginReplan (d d0 : Nat)
  /-- GAIN_CAL (R449): A chain gain calibration updates ageing derating. -/
  | gainCal (r : Radio) (c : Fin 16) (gain : Int) (need : Nat)
  /-- CAIRN_READY (R451): Every 24 h of RUNNING CAIRN_READY is raised. -/
  | cairnReady
  /-- NAV_EXPIRY (R153): A NAV set by a Duration value runs out, so CCA on the primary may turn idle and AIFS counting can begin. -/
  | navExpiry (r : Radio) (intra : Bool)
  /-- LANE_WIPE_DONE (R234): The 12 µs wipe of a lane ends, so a pending HARROW_LEASE or HARROW_RELEASE can complete and the slot becomes usable. -/
  | laneWipeDone (l : Fin 16)
  /-- SURVEY_DWELL_END (R270): The 2 ms survey dwell on another allowed channel ends, the radio changes back to its channel and the busy measurement is recorded. -/
  | surveyDwellEnd (r : Radio) (busy : List (Nat × Fin 1001))
  /-- RATE_CHANGE (R421): A DRAM rate change ends after self-refresh exit, tDLLK and ZQ calibration; the channels resume requests and DRAM_SET_RATE completes. -/
  | rateChange
  /-- RESPOND_MPACKET (R380): A verify or respond mPacket from the link partner is received, answered, and on success makes frame preemption active. -/
  | respondMpacket (p : Fin 2) (respond : Bool)
  /-- TRNG_HEALTH_FAIL (R400): A continuous health test of the true random generator fails, so commands that need fresh randomness complete with HW_FAULT until a test passes. -/
  | trngHealthFail
  deriving DecidableEq, Repr

end Sys2Proof
end

