-- ==== Sys2Proof/Decode.lean ====
section
/-!
DEFINITION. The reader of command words. spec/opcode_table.json gives no row any bits: the block's commands are writes of its
registers, mailbox commands and events of its units, none of which is fetched as a word, so no word spells a command.
-/
namespace Sys2Proof

/-- The command a table word spells: none, for no row of the table has bits. -/
def decodeTableWord (_nbits _w : Nat) : Option Instr := none

end Sys2Proof
end

