-- ==== Sys2Proof/Config.lean ====
section
/-!
DEFINITION. What one chip fixes and what spec/ leaves open: opaque constants with no body, so that no proof can see a value.
Cryptographic primitives and numerical methods that spec/ names by reference are here too: the model says when each is
applied and to what, and nothing about its result.
-/
namespace Sys2Proof.Config

/-- The n-th free value of width w that the model draws (a random number, an undefined value). -/
opaque freeBits : (w : Nat) → Nat → BitVec w

/-- SHA-384 (spec/03_start_up.md R72, R75). -/
opaque sha384 : List Byte → List Byte

/-- ECDSA P-384 over SHA-384: public key, signature, message (R72, R75). -/
opaque ecdsaVerify : List Byte → List Byte → List Byte → Bool

/-- The fused hash of the firmware key (Table 3.11). -/
opaque fwKeyHash : List Byte

/-- The fused hash of the life-cycle key (Table 3.8). -/
opaque lcKeyHash : List Byte

/-! What IEEE 802.11 gives and spec/ names by reference: capabilities a station's 32-byte link block carries (Table 7.8 gives
no positions in it but the BSS), PPDU timing, and the order of elements in a beacon. -/

/-- The best format a station's link block allows, as a Table 5.1 code. -/
opaque linkFmt : List Byte → Nat
/-- Highest MCS, streams and bandwidth code of the link. -/
opaque linkMcs : List Byte → Nat
opaque linkNss : List Byte → Nat
opaque linkBw : List Byte → Nat
/-- Maximum MPDU and A-MPDU length in bytes. -/
opaque linkMpdu : List Byte → Nat
opaque linkAmpdu : List Byte → Nat
/-- Packet extension in ns (R132). -/
opaque linkPe : List Byte → Nat
/-- The station supports TRS control, MU-MIMO, beamforming feedback, BSS transition, TID-to-link negotiation. -/
opaque linkTrs : List Byte → Bool
opaque linkMu : List Byte → Bool
opaque linkBfee : List Byte → Bool
opaque linkBtm : List Byte → Bool
opaque linkT2l : List Byte → Bool
/-- Radios its link makes a non-STR pair with, bit per radio (R170). -/
opaque linkNstr : List Byte → Nat
/-- The station is an EMLSR client (R170). -/
opaque linkEmlsr : List Byte → Bool
/-- Its EMLSR padding and transition delays in ns (R170). -/
opaque linkEmlsrPad : List Byte → Nat
opaque linkEmlsrDelay : List Byte → Nat
/-- The station uses U-APSD for an access category (R176). -/
opaque linkUapsd : List Byte → Nat → Bool
/-- A Block Ack bitmap size the station supports (R162). -/
opaque linkBitmap : List Byte → Nat → Bool

/-- LDPC, DCM and STBC that the link takes, and the GI_LTF code it asks for (R116). -/
opaque linkLdpc : List Byte → Bool
opaque linkDcm : List Byte → Bool
opaque linkStbc : List Byte → Bool
opaque linkGi : List Byte → Nat
/-- Symbols of HE-SIG-B or EHT-SIG: format, bandwidth code, users. -/
opaque sigSymbols : Nat → Nat → Nat → Nat
/-- Subchannels that a beacon template's static puncturing leaves out, bit per subchannel (R115). -/
opaque staticPunct : List Byte → Nat
/-- Cyclic shifts of more than 8 chains, for which IEEE 802.11 gives none. -/
opaque csdWide : Nat → List Int
/-- The FCS of a WUR frame of IEEE 802.11ba: type, ID, TDC, body (R143). -/
opaque wurFcs : Nat → Nat → Nat → List Byte → BitVec 16
/-- Duration in ns of the responses a PPDU solicits: element code, bandwidth code, users. -/
opaque respNs : Nat → Nat → Nat → Nat
/-- Bytes of compressed feedback (R244): Ng, Nc, bandwidth code. -/
opaque feedbackBytes : Nat → Nat → Nat → Nat
/-- Compressed SU feedback that a station interface returns at an instant (R246). -/
opaque suFeedback : Nat → List Byte
/-- The place of an element ID in a beacon. -/
opaque elemRank : Nat → Nat
/-- The EDCA parameters a beacon body advertises, BK BE VI VO: AIFSN, ECWmin, ECWmax, TXOP limit in 32 us; none where it carries none. -/
opaque beaconEdca : List Byte → List (Nat × Nat × Nat × Nat)
/-- Where a beacon template carries the BSS parameters change count. -/
opaque changeCountAt : List Byte → Option Nat
/-- The nontransmitted BSSID profile of a member's template. -/
opaque nontxProfile : List Byte → List Byte
/-- The broadcast TWT element of a number of schedules. -/
opaque twtElement : Nat → List Byte

/-! Channel mathematics of spec/05_ofdm_phy.md and spec/10_beamforming.md. -/

/-- The inverse of a matrix that has none (log 90). -/
opaque singularInv : CxMat → CxMat
/-- The reciprocal of the square root of a positive number, as finely as the device works. -/
opaque rsqrt : Rat → Rat
/-- The P matrix of 6 LTF symbols, whose entries are powers of exp(-j pi / 3) (IEEE 802.11ax). -/
opaque pMatrix6 : CxMat
/-- The soft bits of a detected symbol before they are scaled: format, MCS, symbol (IEEE 802.11 constellations). -/
opaque demap : Nat → Nat → Cx → List Rat
/-- An LDPC code of IEEE 802.11, by number: its checks, each the variables it sums; and the decoder's input from the soft bits of a
codeword in tone order, with what is shortened, punctured or repeated put back. -/
opaque ldpcRows : Nat → List (List Nat)
opaque ldpcInput : Nat → List Rat → List Rat
/-- A converter's full scale in 0.5 dBm referred to its input, at a gain of 0 dB (R118). -/
opaque adcFullScale : Int

/-- The number of an amplitude in 0.01 dB and a phase in 0.01 degree (R247). -/
opaque polar : Int → Int → Cx
/-- The power ratio of a number of 0.25 dB steps. -/
opaque dbRatio : Int → Rat
/-- exp(-j 2 pi k / n), as finely as the device holds it (R239): n, k. -/
opaque rootOfUnity : Nat → Nat → Cx
/-- The first columns of the right singular vectors of a channel: matrix, how many (R258). -/
opaque rightSingular : CxMat → Nat → CxMat
/-- The strongest left singular directions of a channel as columns: matrix, how many (R259). -/
opaque leftSingular : CxMat → Nat → CxMat
/-- The first tone of an RU, from the channel's lowest: bandwidth code, size code, index (IEEE 802.11ax, 802.11be). -/
opaque ruFirstTone : Nat → Nat → Nat → Nat

/-- The power a level in dBm stands for, in some unit (R276 sums couplings). -/
opaque linPower : Int → Nat
/-- The body of a TID-To-Link Mapping Request (R267), and of a BSS Transition Management Request to a BSSID (R278). -/
opaque t2lRequest : List Nat → List Byte
opaque btmRequest : List Byte → List Byte

/-! The seed tables of VRCP and VRSQ (spec/09_harrow_cluster.md Table 9.7 bounds their relative error only). -/
opaque rcpFree : Nat → Nat
opaque rsqFree : Nat → Nat

/-! What spec/14_packet_router.md leaves open about a VLAN tag the device puts on: its TPID and its priority bits, given the tag it
replaces, if any. -/
opaque tagTpid : List Byte → Nat
opaque tagPri : List Byte → Nat

/-! Cryptography of spec/16_cipher_keys.md: keys and results that no path returns. -/
/-- MACsec: a protected frame's secured data and ICV, from key, PN and clear bytes; and the clear bytes again (R404). -/
opaque macsecSeal : List Byte → Nat → List Byte → List Byte
opaque macsecOpen : List Byte → Nat → List Byte → List Byte
/-- The identity public key, uncompressed (Table 16.7). -/
opaque identityKey : List Byte
/-- A public point lies on P-384 and is not the point at infinity (R395). -/
opaque onP384 : List Byte → Bool
/-- The x-coordinate of the identity private key times a public point (R395). -/
opaque identityEcdh : List Byte → List Byte
/-- HKDF-SHA-384: salt, IKM, info, length; and one block of AES-256 under a key (R395). -/
opaque hkdfSha384 : List Byte → List Byte → List Byte → Nat → List Byte
opaque aes256 : List Byte → List Byte → List Byte
/-- AES key wrap with padding (RFC 5649): the key a wrapped one holds, none where a check fails (R396). -/
opaque unwrapKey : List Byte → List Byte → Option (List Byte)
/-- SAE (R398): what COMMIT draws and returns; whether a peer's element is good; what CONFIRM derives and returns; what VERIFY yields:
the PMK and its PMKID, none where the peer's confirm is wrong. -/
opaque saeCommit : List Byte → List Byte → List Byte → List Byte → List Byte
opaque saePeerOk : Nat → List Byte → Bool
opaque saeConfirm : List Byte → List Byte → Nat → List Byte
opaque saeVerify : List Byte → List Byte → Option (List Byte × List Byte)
/-- The PTK of a 4-way handshake: KCK and KEK, and TK (R399). -/
opaque ptkKeys : Nat → List Byte → List Byte → List Byte × List Byte
/-- EAPOL-Key MIC, and wrapped Key Data (R399). -/
opaque eapolMic : Nat → List Byte → List Byte → List Byte
opaque wrapKeyData : List Byte → List Byte → List Byte

/-- The frames with which Builmin answers a peer-delay request (R327): IEEE 802.1AS gives their bytes, from the request and the stamps of
the PTP time base. -/
opaque pdelayResp : List Byte → Nat → List Byte
opaque pdelayFollowUp : List Byte → Nat → List Byte

/-- Where a byte address of a channel lies, which spec/17_dram.md leaves open: rank, bank group, bank, row, column. -/
opaque dramPlace : Nat → Nat × Nat × Nat × Nat × Nat

/-- TAG of a cairn record (R450): HMAC-SHA-384 over bytes 0 to 4,063, truncated to 32 bytes, under a device-unique key that no path can
read (log 70). -/
opaque cairnTag : List Byte → List Byte

end Sys2Proof.Config
end

