-- ==== Sys2Proof/Machine/State.lean ====
section
/-!
DEFINITION. The machine's state as plain data: every register, table, queue, counter, mode and pin that spec/ gives the
HX7340, with its reset value as the field's default, the queue of waiting commands, and the model's own fields (time in
ticks of the 500 MHz air-timing clock, the count of free values drawn, the log of what left the device). Where spec/ gives
no reset value the value is the model's and INVENTORY.md and notes/assumptions say so (DESIGN CHOICE or PRESUMED).
-/
namespace Sys2Proof.Machine

/-- Default routing (Table 2.19). -/
def routeReset : Vector Word 137 :=
  Vector.ofFn fun i => if i.val = 0 then 0x0100#32 else if i.val < 9 then BitVec.ofNat 32 (0x0100 + i.val)
    else BitVec.ofNat 32 (0x00141000 + 16 + (i.val - 9) % 64 % 48)
/-- The MSI-X table at reset: every vector masked. -/
def msixReset : Vector Word 256 := Vector.ofFn fun i => if i.val % 4 = 3 then 1#32 else 0#32

/-- Status codes (Table 2.12). -/
inductive Status where
  | ok | accepted | badOpcode | badLength | badParam | noResource | busy | wrongState | locked
  | fenceConflict | timeout | aborted | txLate | hwFault | authFail | keyExhausted
  deriving DecidableEq, Repr, Inhabited
/-- Where a taken command stands (R42): waiting for Builmin, started, or complete with its status and data. -/
inductive Phase where
  | queued | running | done (status : Status) (data : List Byte)
  deriving DecidableEq, Repr, Inhabited
/-- GLB_STATUS.FW_STATE (Table 2.5). -/
inductive FwState where
  | empty | verifying | rejected | starting | running | fault | bivouac
  deriving DecidableEq, Repr, Inhabited
/-- Service modes (Table 3.12). -/
inductive SvcMode where
  | startUp | service | test | recovery
  deriving DecidableEq, Repr, Inhabited

/-- One mailbox command from its doorbell to its completion (R41, R42). (02 R41) -/
structure CmdRec where
  /-- 32 bits (02 R39 R40, Table 2.10) -/
  handle : Word := 0
  /-- 16 bytes (02 Table 2.9) -/
  hdr : List Byte := []
  /-- 0-240 bytes (02 Table 2.9) -/
  params : List Byte := []
  /-- instant its doorbell was accepted (06 R144) -/
  at_ : Nat := 0
  /-- queued, running or done with status and data (02 R42) -/
  phase : Phase := .queued
  deriving DecidableEq, Repr, Inhabited

/-- One mailbox MBn (Table 2.8); its 256-byte MBX_CMD area lies in `bar`. (02 Table 2.8) -/
structure Mailbox where
  /-- 29 bits (02 R40) -/
  count : Nat := 0
  /-- 32 bits, MBX_STATUS (02 R39, Table 2.8) -/
  status : Word := 0
  /-- 4 bits, MBX_STATE.REFUSE (02 Table 2.11) -/
  refuse : Nat := 0
  /-- at most 256 with those waiting in the queues (02 R41 R42) -/
  cmds : List CmdRec := []
  deriving DecidableEq, Repr, Inhabited

/-- A completion that waits to be written to its queue (R47). (02 R47) -/
structure Completion where
  /-- 32 bits (02 Table 2.14) -/
  handle : Word := 0
  /-- 8 bits (02 Table 2.14) -/
  status : Status := .ok
  /-- completion data (02 Table 2.14) -/
  data : List Byte := []
  /-- 8 bytes, HOST_TAG (02 Table 2.14) -/
  tag : List Byte := []
  /-- the model's own: place in the order of completion of its mailbox (02 R42) -/
  order : Nat := 0
  /-- an ABORT_COMMAND's, outside that order (02 R42) -/
  ahead : Bool := false
  deriving DecidableEq, Repr, Inhabited

/-- One completion queue CQn (Table 2.13). (02 Table 2.13) -/
structure Cq where
  /-- 64 bits, CQ_BASE_HI and CQ_BASE_LO (02 Table 2.13) -/
  base : BitVec 64 := 0
  /-- 4 bits (02 Table 2.13) -/
  sizeLog : Nat := 0
  /-- 1 bit, CQ_CTRL.EN (02 Table 2.13) -/
  en : Bool := false
  /-- 16 bits (02 Table 2.13) -/
  head : BitVec 16 := 0
  /-- 16 bits (02 Table 2.13) -/
  tail : BitVec 16 := 0
  /-- 1 bit, CQ_STATUS.FULL (02 R47) -/
  full : Bool := false
  /-- 0-2,048 (02 R47 R48) -/
  waiting : List Completion := []
  deriving DecidableEq, Repr, Inhabited

/-- One event as raised (Table 2.16, without SEQ and phase). (02 Table 2.16) -/
structure Event where
  /-- 16 bits (02 Table 2.17) -/
  code : Nat := 0
  /-- 16 bits (02 Table 2.16) -/
  inst : Nat := 0
  /-- 2 bits (02 Table 2.17) -/
  sev : Nat := 0
  /-- 32 bits (02 Table 2.16, 13 R326) -/
  timeS : Nat := 0
  /-- 32 bits (02 Table 2.16) -/
  timeNs : Nat := 0
  /-- 16 bytes (02 Table 2.16) -/
  data : List Byte := []
  deriving DecidableEq, Repr, Inhabited

/-- What the device holds for the event ring, in the order raised: an event, or the mark of `n` dropped ones (R49). -/
inductive Held where
  | ev (e : Event) | lost (n : Nat)
  deriving DecidableEq, Repr, Inhabited

/-- The event ring (Table 2.15). (02 Table 2.15) -/
structure Evt where
  /-- 64 bits (02 Table 2.15) -/
  base : BitVec 64 := 0
  /-- 4 bits (02 Table 2.15) -/
  sizeLog : Nat := 0
  /-- 1 bit (02 Table 2.15) -/
  en : Bool := false
  /-- 2 bits (02 Table 2.15) -/
  minSev : Nat := 0
  /-- 16 bits (02 Table 2.15) -/
  head : BitVec 16 := 0
  /-- 16 bits (02 Table 2.15) -/
  tail : BitVec 16 := 0
  /-- 1 bit, W1C (02 Table 2.15) -/
  overflow : Bool := false
  /-- 32 bits, RC, saturating (02 Table 2.15) -/
  lost : Nat := 0
  /-- 32 bits, RC, saturating (02 Table 2.15) -/
  filtered : Nat := 0
  /-- 16 bits (02 Table 2.16, R49) -/
  seq : BitVec 16 := 0
  /-- up to 64 events and EVENTS_LOST marks (02 R49 R50) -/
  held : List Held := []
  deriving DecidableEq, Repr, Inhabited

/-- A write to host memory or an MSI-X message that the device has issued and that waits for the link (R32, R470). -/
inductive HostTx where
  | write (addr : Nat) (bytes : List Byte)
  | msg (vector : Nat)
  deriving DecidableEq, Repr, Inhabited

/-- The function's configuration space, as far as Table 2.1 names it. (02 R31) -/
structure Pcie where
  /-- 1 bit, PowerState: D3hot rather than D0 (02 Table 2.1) -/
  d3hot : Bool := false
  /-- 1 bit, ASPM L1 enabled (02 Table 2.1) -/
  aspmL1 : Bool := false
  /-- Max_Payload_Size: 128, 256 or 512 bytes (02 Table 2.1) -/
  mps : Fin 3 := 0
  /-- Max_Read_Request_Size: 128 to 4,096 bytes (02 Table 2.1) -/
  mrrs : Fin 6 := 2
  /-- 1 bit, ECRC generation enabled (02 Table 2.1) -/
  ecrcGen : Bool := false
  /-- 1 bit, ECRC checking enabled (02 Table 2.1) -/
  ecrcChk : Bool := false
  /-- 1 bit, Unsupported Request logged in AER (02 R34, Table 2.1) -/
  aerUr : Bool := false
  /-- 1 bit, MSI-X Function Mask (02 R52) -/
  funcMask : Bool := false
  deriving DecidableEq, Repr, Inhabited

/-- Mailboxes, queues, event ring and MSI-X. (02) -/
structure HostIf where
  /-- MB0-MB7 (02 Table 2.8) -/
  mbx : Vector Mailbox 8 := Vector.replicate 8 {}
  /-- CQ0-CQ7 (02 Table 2.13) -/
  cq : Vector Cq 8 := Vector.replicate 8 {}
  /-- the model's own: completions queued so far (02 R42) -/
  nextOrder : Nat := 0
  /-- event ring (02 Table 2.15) -/
  evt : Evt := {}
  /-- 137 x 32 bits, EVT_ROUTE (02 Table 2.18, reset Table 2.19) -/
  route : Vector Word 137 := routeReset
  /-- unsignalled entries per source (02 R52) -/
  unsig : Vector Nat 137 := Vector.replicate 137 0
  /-- 1 bit, MSI-X Enable of configuration space (02 R68 R470) -/
  msixEn : Bool := false
  /-- 64 entries of 4 words (02 Table 2.2) -/
  msixTbl : Vector Word 256 := msixReset
  /-- 64 bits (02 Table 2.2, R470) -/
  pba : BitVec 64 := 0
  /-- configuration space (02 R31) -/
  pcie : Pcie := {}
  /-- L0 with its rate and width, L1, or recovery (02 Table 2.1, R470) -/
  link : PcieLink := .l0 4 .x8
  /-- writes and messages issued and held for L0, in issue order (02 R32 R470) -/
  deferred : List HostTx := []
  deriving DecidableEq, Repr, Inhabited

/-- A frame inside the device, from its ingress to its last egress. (02 R53, 14 R340) -/
structure Frame where
  /-- the model's own name of the frame (02 R55) -/
  id : Nat := 0
  /-- the frame's bytes (02 R54) -/
  bytes : List Byte := []
  /-- 2 bits: 0 wireless, 1 Ethernet, 2 MP, 3 host ring (02 Table 2.23) -/
  src : Nat := 0
  /-- ingress port, radio or ring (02 Table 2.23) -/
  port : Nat := 0
  /-- 6 bits (02 Table 2.23) -/
  bss : Nat := 0
  /-- 10 bits, 0x3FF none (02 Table 2.23) -/
  sta : Nat := 0x3FF
  /-- 4 bits (02 Table 2.23) -/
  tid : Nat := 0
  /-- 1 bit (02 Table 2.23) -/
  unassoc : Bool := false
  /-- 1 bit, RAW_80211 (02 Table 2.23) -/
  raw : Bool := false
  /-- 32 bits, Toeplitz hash (02 Table 2.23, 14 R359) -/
  hash : Nat := 0
  /-- corrected stamp of TB0-TB3, S x 10^9 + NS (02 Table 2.23, 13 R332) -/
  stamps : List Nat := []
  /-- host transmit ring that awaits its completion (02 R55) -/
  ring : Option Nat := none
  /-- 1 bit (02 Table 2.22) -/
  tsReq : Bool := false
  /-- time base and LAUNCH (02 Table 2.22) -/
  launch : Option (Nat × Nat) := none
  /-- 1 bit (02 Table 2.22) -/
  lateSend : Bool := false
  /-- 2 bits (02 Table 2.22) -/
  destType : Nat := 0
  /-- 32 bits (02 Table 2.21) -/
  dest : Nat := 0
  /-- instant of arrival (07 R158) -/
  arrived : Nat := 0
  /-- TB2 ns of its enqueueing (08 R186) -/
  enq : Nat := 0
  /-- radio on which it stays after a change of mapping (07 R169) -/
  bound : Option Nat := none
  /-- packet numbers of the earlier fragments of a reassembled MSDU (07 R167) -/
  pns : List Nat := []
  /-- failed transmissions so far (07 R158) -/
  tries : Nat := 0
  /-- 12 bits, sequence number once it has one (07 R168) -/
  sn : Option Nat := none
  /-- 4 bits, fragment number (07 R160) -/
  frag : Nat := 0
  /-- packet number (16 R402) -/
  pn : Nat := 0
  /-- key ID of a protected frame (16 R401) -/
  keyId : Option Nat := none
  /-- key slot under which it is numbered (16 R401) -/
  slot : Option Nat := none
  /-- 6 bytes, destination (14 R342) -/
  da : List Byte := []
  /-- 6 bytes, source (14 R342) -/
  sa : List Byte := []
  /-- an 802.11 management frame (07 R183) -/
  mgmt : Bool := false
  /-- it holds a poisoned word (17 R413) -/
  poison : Bool := false
  /-- an express frame (15 R380) -/
  express : Bool := false
  /-- a streamed frame whose tag has failed (16 R408) -/
  authFail : Bool := false
  /-- why it is to leave the furrow that claims it: 0 lifetime, 1 station deleted, 2 flushed (08 R206) -/
  lost : Option Nat := none
  /-- outer VLAN ID it leaves with (14 R353) -/
  vlan : Option Nat := none
  deriving DecidableEq, Repr, Inhabited

/-- A host transmit frame fetched and not yet passed by CONS (R53, R55). (02 R53) -/
structure TxFrame where
  /-- the model's own name of the frame (02 R55) -/
  id : Nat := 0
  /-- 16 bits, index of its SOF descriptor (02 R53) -/
  first : BitVec 16 := 0
  /-- descriptors of the frame (02 R54) -/
  ndesc : Nat := 0
  /-- status code and STAMP once complete (02 R55) -/
  result : Option (Status × Nat) := none
  deriving DecidableEq, Repr, Inhabited

/-- A received frame in progress on a receive ring (R57). (02 R57) -/
structure RxPart where
  /-- the frame (02 R57) -/
  frame : Frame := {}
  /-- buffers filled so far: descriptor and bytes (02 R56) -/
  filled : List (List Byte × List Byte) := []
  /-- bytes not yet written (02 R57) -/
  left : List Byte := []
  deriving DecidableEq, Repr, Inhabited

/-- One host ring HTXn or HRXn (Table 2.20). (02 Table 2.20) -/
structure Ring where
  /-- 64 bits (02 Table 2.20) -/
  base : BitVec 64 := 0
  /-- 4 bits (02 Table 2.20) -/
  sizeLog : Nat := 0
  /-- 1 bit (02 Table 2.20) -/
  en : Bool := false
  /-- 1 bit (02 Table 2.20) -/
  hostStream : Bool := false
  /-- 2 bits (02 Table 2.20) -/
  stampTb : Fin 4 := 0
  /-- 16 bits (02 Table 2.20) -/
  prod : BitVec 16 := 0
  /-- 16 bits (02 Table 2.20) -/
  cons : BitVec 16 := 0
  /-- 1 bit, W1C (02 Table 2.20, R58) -/
  halted : Bool := false
  /-- 1 bit, RO (02 Table 2.20, R59) -/
  idle : Bool := false
  /-- 16 bits (02 Table 2.20) -/
  errIndex : BitVec 16 := 0
  /-- next descriptor to fetch (transmit) (02 R54 R58) -/
  fetched : BitVec 16 := 0
  /-- frames fetched, in ring order (02 R53 R55) -/
  inflight : List TxFrame := []
  /-- frame in progress (receive) (02 R57) -/
  cur : Option RxPart := none
  /-- 64 bits (02 Table 2.24) -/
  frames : Nat := 0
  /-- 64 bits (02 Table 2.24) -/
  bytes : Nat := 0
  /-- 64 bits, HRX_NO_BUF or TX_LATE (02 Table 2.24) -/
  ctrA : Nat := 0
  /-- 64 bits, HRX_DRY_DROP or BAD_PARAM frames (02 Table 2.24) -/
  ctrB : Nat := 0
  deriving DecidableEq, Repr, Inhabited

/-- The 128 host data rings. (02) -/
structure Rings where
  /-- HTX0-HTX63 (02 Table 2.20) -/
  htx : Vector Ring 64 := Vector.replicate 64 {}
  /-- HRX0-HRX63 (02 Table 2.20) -/
  hrx : Vector Ring 64 := Vector.replicate 64 {}
  /-- frames on their way to each receive ring, oldest first (02 R56) -/
  rxq : Vector (List Frame) 64 := Vector.replicate 64 []
  /-- the model's own supply of frame names (02 R55) -/
  nextId : Nat := 0
  deriving DecidableEq, Repr, Inhabited

/-- Global status (Tables 2.4, 2.6, 2.7). (02) -/
structure Glb where
  /-- 9 bits, GLB_RESET_CAUSE (02 Table 2.6, R36) -/
  resetCause : BitVec 9 := 1#9
  /-- 1 bit, 40 MHz reference absent (01 R19, 02 Table 2.4) -/
  refLost : Bool := false
  /-- 1 bit (01 R18, 02 Table 2.4) -/
  avsFault : Bool := false
  /-- the 1 s pause runs (01 R18) -/
  avsPause : Bool := false
  /-- 1 bit (02 Table 2.4) -/
  thermalWarn : Bool := false
  /-- 64 bits, GLB_SERIAL (02 Table 2.7) -/
  serial : BitVec 64 := 0
  deriving DecidableEq, Repr, Inhabited

/-- Start-up, reset, life cycle and bivouac. (03) -/
structure Life where
  /-- 1 bit, LC_STATUS.WIPE_BUSY (03 Table 3.6, R66) -/
  wipeBusy : Bool := true
  /-- the PERST_N pin (03 R63 R66) -/
  perstN : Bool := true
  /-- main supplies up (03 R61 R64) -/
  mainUp : Bool := true
  /-- VDD_AON up (03 R64) -/
  aonUp : Bool := true
  /-- 3 bits, GLB_STATUS.FW_STATE (02 Table 2.5) -/
  fwState : FwState := .empty
  /-- the MP has stopped and its watchdog is about to expire (17 Table 17.3, 19 Table 19.2) -/
  mpStopped : Bool := false
  /-- 2 bits, fused (03 R71, 02 Table 2.4) -/
  lcState : Nat := 2
  /-- 1 bit (03 Table 3.6, R69) -/
  thermalHold : Bool := false
  /-- 2 bits, LC_STATUS.MODE (03 Table 3.12) -/
  mode : SvcMode := .startUp
  /-- 1 bit (03 Table 3.6) -/
  tokenBusy : Bool := false
  /-- life-cycle state being programmed (03 R72) -/
  fuseTarget : Option Nat := none
  /-- 8 bits (03 Table 3.8) -/
  lcResult : Nat := 0
  /-- 64 bits, LC_CHALLENGE (03 Table 3.5) -/
  challenge : BitVec 64 := 0
  /-- 32 bits (03 Table 3.5) -/
  lcWdt : Word := 0
  /-- 8 bits (03 Table 3.11) -/
  fwlResult : Nat := 0
  /-- 32 bits, BUILD of the running image (03 Table 3.9) -/
  build : Word := 0
  /-- instant RUNNING was reached (03 Table 3.14) -/
  runningAt : Nat := 0
  /-- instant FAULT was reached (03 R70) -/
  faultAt : Nat := 0
  /-- some radio has left OFF since reset (03 R79) -/
  radioLeftOff : Bool := false
  /-- the link drop that follows loss of the reference is due (01 R19) -/
  refDrop : Bool := false
  /-- an internal reset's vector-0 message is due at the wipe's end (03 R68) -/
  msgVec0 : Bool := false
  /-- POWER_ENTER_BIVOUAC whose completion is to be written before the steps of R80 (03 R80) -/
  bivDone : Option Word := none
  /-- bivouac entry runs, BIVOUAC_N not yet low (03 R80) -/
  bivPrep : Bool := false
  /-- the wake sources are loaded into the always-on domain (03 R80) -/
  armed : Bool := false
  /-- 2 bits, wake sources chosen (03 Table 3.14) -/
  bivSources : Nat := 0
  /-- receiver mode in bivouac (03 Table 3.14, 06) -/
  bivRxMode : Nat := 0
  /-- BIVOUAC_N, false when driven low (03 R64 R80) -/
  bivouacN : Bool := true
  /-- bit per source whose wake waits for the fall of BIVOUAC_N (03 R82) -/
  wakePend : Nat := 0
  /-- bit per source that has driven WAKE_OUT since bivouac was entered (06 R142, 18 R439) -/
  wakeBy : Nat := 0
  /-- the WAKE_OUT pin (03 R81, 06 R142) -/
  wakeOut : Bool := false
  deriving DecidableEq, Repr, Inhabited

/-- VDD_CORE request and the shared Headland step 1. (01 R17 R27) -/
structure Power where
  /-- mV, what the canaries asked for at the last re-plan, without age (01 R17) -/
  canaryAsk : Nat := 800
  /-- mV, canary part (01 R17, 03 R62) -/
  canaryMv : Nat := 800
  /-- mV, Headland offset 0-80 (01 R27) -/
  hlOffset : Nat := 0
  /-- mV, VDD_CORE requested (01 R17, 03 R62) -/
  request : Nat := 800
  /-- mV, last AVSBus read-back (20 R458, 03 R62) -/
  readback : Nat := 800
  /-- an AVSBus write is unanswered (01 R18) -/
  writePend : Bool := false
  /-- instant of the last AVSBus write (01 R18) -/
  writeAt : Nat := 0
  /-- instant the last pause of an AVS fault began (01 R18) -/
  pauseAt : Nat := 0
  /-- instant of the last step 1 (01 Table 1.7) -/
  step1At : Option Nat := none
  deriving DecidableEq, Repr, Inhabited

/-- What a radio sends: class 3 for beacons, launch-timed frames, coordinated and response PPDUs (Table 4.14). -/
inductive TxKind where
  | edca | beacon | launch | coord | response | test | wur | control
  deriving DecidableEq, Repr, Inhabited

/-- What a response reports of one station and TID (a Block Ack record). (07 R157 R162) -/
structure BaPart where
  /-- 10 bits (07 R157) -/
  sta : Nat := 0x3FF
  /-- 4 bits (07 R162) -/
  tid : Nat := 0
  /-- an Ack, which names no sequence number (07 R157) -/
  all : Bool := false
  /-- 12 bits, starting sequence number (07 R162) -/
  start : Nat := 0
  /-- bitmap size in bits (07 R162) -/
  size : Nat := 64
  /-- sequence numbers reported (07 R157 R166) -/
  sns : List Nat := []
  deriving DecidableEq, Repr, Inhabited

/-- One user of a PPDU sent. (08 R204) -/
structure TxUser where
  /-- 10 bits, 0x3FF group (08 R204) -/
  sta : Nat := 0x3FF
  /-- 4 bits (08 R204) -/
  tid : Nat := 0
  /-- the MPDUs carried (08 R204) -/
  frames : List Frame := []
  /-- BlockAckReqs carried: TID and starting SN (07 R159) -/
  bars : List (Nat × Nat) := []
  /-- size code (Table 5.3) (05 Table 5.3) -/
  ruSize : Nat := 255
  /-- RU index (05 Table 5.3) -/
  ruIndex : Nat := 0
  /-- per stream (Table 5.2) (05 R116) -/
  mcs : Nat := 0
  /-- spatial streams (05 R117) -/
  nss : Nat := 1
  /-- LDPC, else BCC (05 R116) -/
  ldpc : Bool := false
  /-- dual-carrier modulation (05 R116) -/
  dcm : Bool := false
  /-- STBC (05 R116) -/
  stbc : Bool := false
  deriving DecidableEq, Repr, Inhabited

/-- The WUR frame a wake-up PPDU carries. (06 R143) -/
structure WurOut where
  /-- rate: 250 kb/s (06 R143) -/
  high : Bool := false
  /-- MHz, that of the primary 20 MHz (06 R143) -/
  centre : Nat := 0
  /-- 3 bits (06 R143) -/
  type : Nat := 0
  /-- Protected bit, always 0 (06 R143) -/
  prot : Bool := false
  /-- 12 bits (06 R143) -/
  id : Nat := 0
  /-- 12 bits (06 R143) -/
  tdc : Nat := 0
  /-- 0-32 bytes (06 R143) -/
  body : List Byte := []
  /-- FCS (06 R143) -/
  fcs : BitVec 16 := 0
  deriving DecidableEq, Repr, Inhabited

/-- A record a precoder was built from. (10 R253) -/
structure CsiUse where
  /-- 0 explicit, 1 reciprocity, 2 overheard (10 Table 10.7) -/
  kind : Nat := 0
  /-- station, of kinds 0 and 1 (10 R253) -/
  sta : Nat := 0
  /-- client address, of kind 2 (10 R251) -/
  addr : List Byte := []
  /-- TB2 ns of its capture (10 R253) -/
  cap : Nat := 0
  /-- ageing class (10 Table 10.3) -/
  cls : Nat := 1
  deriving DecidableEq, Repr, Inhabited

/-- A precoder or steering matrix in the datapath. (10 R255 R256 R258) -/
structure Precoder where
  /-- furrow element (10 R257) -/
  elem : Nat := 0
  /-- RU size code, 255 for a whole channel of another format (10 R257) -/
  size : Nat := 0
  /-- RU index (10 R257) -/
  index : Nat := 0
  /-- 4 or 16 (10 R257) -/
  ng : Nat := 4
  /-- active chains (10 R255) -/
  rows : Nat := 0
  /-- member streams (10 R255) -/
  cols : Nat := 0
  /-- per tone group: its scale, and 12-bit plus 12-bit values by row, then column (10 R256) -/
  tones : List (Rat × List (Int × Int)) := []
  /-- records it was built from (10 R253) -/
  uses : List CsiUse := []
  /-- end of the reciprocity calibration whose correction it holds (10 Table 10.4) -/
  cal : Option Nat := none
  /-- an event of Table 10.4 ended its validity (10 Table 10.4) -/
  struck : Bool := false
  deriving DecidableEq, Repr, Inhabited

/-- A User Info of a trigger. (08 R202) -/
structure TrigUser where
  /-- 11 bits (08 R202) -/
  aid : Nat := 0
  /-- size code (Table 5.3) (08 R202) -/
  ruSize : Nat := 255
  /-- RU index (08 R202) -/
  ruIndex : Nat := 0
  /-- UL MCS (08 R202) -/
  mcs : Nat := 0
  /-- first spatial stream (08 R202) -/
  stream : Nat := 0
  /-- spatial streams (08 R202) -/
  nss : Nat := 1
  /-- LDPC (08 R202) -/
  ldpc : Bool := true
  /-- dBm, UL target receive power (08 R202) -/
  target : Int := 0
  /-- preferred AC (08 R202) -/
  prefAc : Nat := 0
  /-- TID aggregation limit (08 R202) -/
  tidLimit : Nat := 0
  deriving DecidableEq, Repr, Inhabited

/-- What a Basic Trigger or a BSRP asks for. (08 R202) -/
structure Trigger where
  /-- Basic Trigger, else BSRP (08 R202) -/
  basic : Bool := true
  /-- bandwidth code (08 R202) -/
  bw : Nat := 0
  /-- UL Length (08 R202) -/
  length : Nat := 0
  /-- carrier sensing before the TB PPDU (08 R202) -/
  csRequired : Bool := true
  /-- random-access RUs (08 R201) -/
  raRu : Nat := 0
  /-- stations it names (08 R202) -/
  users : List TrigUser := []
  deriving DecidableEq, Repr, Inhabited

/-- A station a sounding sequence asks for feedback. (10 Table 10.2) -/
structure SoundUser where
  /-- 11 bits (10 Table 10.2) -/
  aid : Nat := 0
  /-- Nc asked for (10 R242 R244) -/
  nc : Nat := 1
  /-- Ng asked for (10 R244) -/
  ng : Nat := 4
  deriving DecidableEq, Repr, Inhabited

/-- A PPDU of a sounding sequence. (10 Table 10.2) -/
structure SoundPart where
  /-- 0 NDPA, 1 NDP, 2 BFRP trigger, 3 Beamforming Report Poll (10 Table 10.2) -/
  step : Nat := 0
  /-- MU type feedback, codebook (9, 7), else SU type, codebook (6, 4) (10 Table 10.2) -/
  mu : Bool := false
  /-- CQI too (10 Table 10.2) -/
  cqi : Bool := false
  /-- stations it names (10 Table 10.2) -/
  users : List SoundUser := []
  /-- space-time streams of the NDP (10 R239) -/
  dims : Nat := 0
  /-- by active chain and dimension, what the NDP passes through (10 R239) -/
  spread : List (List Cx) := []
  deriving DecidableEq, Repr, Inhabited

/-- A PPDU a radio sends, from its request to its end. (04 Table 4.14) -/
structure TxCur where
  /-- what it is (04 Table 4.14) -/
  kind : TxKind := .edca
  /-- BSS index (07 R171) -/
  bss : Nat := 0
  /-- winning access category (07 R150) -/
  ac : Nat := 0
  /-- its users (08 R204) -/
  users : List TxUser := []
  /-- what it triggers (08 R202) -/
  trig : Option Trigger := none
  /-- its part in a sounding sequence (10 R242) -/
  sound : Option SoundPart := none
  /-- furrow element (Table 8.3) (08 Table 8.3) -/
  code : Nat := 3
  /-- Table 5.1 code (05 R113) -/
  fmt : Nat := 1
  /-- bandwidth code (05 R113) -/
  bw : Nat := 0
  /-- GI_LTF (Table 5.9) (05 R116) -/
  gi : Nat := 0
  /-- data symbols (05 R132) -/
  nSym : Nat := 0
  /-- 16 bits, punctured subchannels (05 R115) -/
  punct : Nat := 0
  /-- packet extension in ns (05 R132) -/
  pe : Nat := 0
  /-- PSDU bytes of a non-HT or DSSS PPDU (05 R131) -/
  len : Nat := 0
  /-- L-SIG LENGTH (05 R132) -/
  lsig : Nat := 0
  /-- pre-FEC and post-FEC padding bits of each user (05 R132) -/
  pads : List (Nat × Nat) := []
  /-- 16 bits, chains that carry it (05 R132) -/
  chains : Nat := 0
  /-- the precoders or steering it passes through; none is direct mapping (10 R255 R258) -/
  steer : List Precoder := []
  /-- cyclic shifts of those chains, ns (05 R132) -/
  csd : List Int := []
  /-- PPDU duration in ns (05 R131) -/
  durNs : Nat := 0
  /-- its part before the data field in ns (05 R132, 04 R99) -/
  preNs : Nat := 0
  /-- ramp-up in 0.1 us (04 R94 R95) -/
  rampUp : Nat := 10
  /-- ramp shape (Table 4.8) (04 R94) -/
  shape : Nat := 1
  /-- content of a beacon, response or WUR PPDU (07 R173, 06 R143) -/
  body : List Byte := []
  /-- what a response acknowledges (07 R157) -/
  acks : List BaPart := []
  /-- it calls for a response (07 R146) -/
  expects : Bool := false
  /-- ended early (R15, R107) (04 R107) -/
  aborted : Bool := false
  /-- dBm EIRP per 20 MHz it is limited to (07 R148, 08 Table 8.6) -/
  cap : Option Int := none
  /-- an RTS, or for an EMLSR client an MU-RTS, comes before it (07 R155 R170) -/
  rts : Bool := false
  /-- instant its first sample reached the antenna (07 R170) -/
  startAt : Nat := 0
  /-- us, Duration of its frames (07 R154) -/
  dur : Nat := 0
  /-- ns that its element goes on after it, for a part of a sounding sequence (07 R154) -/
  rest : Option Nat := none
  /-- the WUR portion of a wake-up PPDU (06 R143) -/
  wur : Option WurOut := none
  deriving DecidableEq, Repr, Inhabited

/-- Radio states (Table 4.3). -/
inductive RState where
  | off | sleep | standby | rx | tx | cal
  deriving DecidableEq, Repr, Inhabited
/-- Chain states of Table 4.13, and fallow by ageing (19_longevity.md). -/
inductive ChainSt where
  | active | derated3 | derated6 | fallow | fallowAge
  deriving DecidableEq, Repr, Inhabited
/-- The cause that starts a synthesiser calibration, which names its counter (R89). -/
inductive CalCause where
  | command | firstUse | temp
  deriving DecidableEq, Repr, Inhabited
/-- Where a radio goes on to from STANDBY (R84, R89): a state, what calibration waits, or the pending temperature calibration. -/
inductive Goal where
  | state (st : RState) | calibrate | calTemp
  deriving DecidableEq, Repr, Inhabited

/-- A chain's tuner description (RADIO_SET_CHAIN). (04 Table 4.21) -/
structure Tuner where
  /-- 1 bit (04 Table 4.21) -/
  bus : Nat := 0
  /-- 1-15 (04 Table 4.21) -/
  usid : Nat := 1
  /-- 1-255 (04 Table 4.21) -/
  codeMax : Nat := 1
  /-- 16 bits (04 Table 4.21) -/
  reg1 : Nat := 0
  /-- 16 bits, 0xFFFF for none (04 Table 4.21) -/
  reg2 : Option Nat := none
  deriving DecidableEq, Repr, Inhabited

/-- A running tuner search (R100): the trial written, and the best codes so far. (04 R100) -/
structure TuneSearch where
  /-- 16, 4 or 1 (04 R100) -/
  step : Nat := 16
  /-- code2 is searched (04 R100) -/
  second : Bool := false
  /-- the trial is code - step (04 R100) -/
  minus : Bool := false
  /-- 8 bits (04 R100) -/
  code1 : Nat := 0
  /-- 8 bits (04 R100) -/
  code2 : Nat := 0
  /-- best value of the code searched (04 R100) -/
  best : Nat := 0
  /-- its return loss, 0.5 dB (04 R100) -/
  bestRl : Nat := 0
  deriving DecidableEq, Repr, Inhabited

/-- A chain's settings as RADIO_SET_CHAIN gives them, until a furrow boundary (R104). (04 R104) -/
structure ChainCfg where
  /-- host enable (04 R103) -/
  hostEn : Bool := true
  /-- 0-63, 0.5 dB (04 Table 4.21) -/
  backoff : Nat := 0
  /-- 6-30, 0.5 dB (04 R99) -/
  rlThresh : Nat := 12
  /-- descriptor (04 R100) -/
  tuner : Option Tuner := none
  deriving DecidableEq, Repr, Inhabited

/-- One RF chain. (04) -/
structure Chain where
  /-- host enable (04 R103) -/
  hostEn : Bool := true
  /-- 0-63, 0.5 dB (04 Table 4.21) -/
  backoff : Nat := 0
  /-- 6-30, 0.5 dB (04 R99) -/
  rlThresh : Nat := 12
  /-- descriptor (04 R100) -/
  tuner : Option Tuner := none
  /-- 8 bits (04 R100) -/
  code1 : Nat := 0
  /-- 8 bits (04 R100) -/
  code2 : Nat := 0
  /-- Table 4.13 state (04 R101) -/
  st : ChainSt := .active
  /-- last 16 measurements in 0.5 dB, newest first (04 R99) -/
  meas : List Nat := []
  /-- measurements since the mean was last applied (04 R101) -/
  fresh : Nat := 0
  /-- 32 bits, measurements since reset (04 Table 4.21) -/
  total : Nat := 0
  /-- running search (04 R100) -/
  search : Option TuneSearch := none
  /-- instant it was last derated (04 R102) -/
  deratedAt : Nat := 0
  /-- Table 4.13 is to be applied after the next 16 (04 R101 R102) -/
  judge : Bool := false
  /-- 0-12, 0.5 dB (19 Table 19.4) -/
  ageDerate : Nat := 0
  /-- the state it takes at the next furrow boundary (04 R104) -/
  stNext : Option ChainSt := none
  /-- the settings it takes at the next furrow boundary (04 R104) -/
  cfgNext : Option ChainCfg := none
  /-- the ageing derating it takes at the next furrow boundary (04 R104, 19 Table 19.4) -/
  ageNext : Option Nat := none
  /-- a search starts once no PPDU is on the air (04 R100 R102) -/
  searchDue : Bool := false
  deriving DecidableEq, Repr, Inhabited

/-- A RADIO_SET_CHANNEL or Seeder change that waits (R111, R112). (04 R112) -/
structure ChanReq where
  /-- the command, none for the Seeder (04 R112) -/
  handle : Option Word := none
  /-- bandwidth code (04 Table 4.20) -/
  bw : Nat := 0
  /-- primary index (04 Table 4.20) -/
  prim : Nat := 0
  /-- MHz (04 R111) -/
  centre : Nat := 0
  /-- FORCE_CAL (04 R89) -/
  force : Bool := false
  /-- waits for the announced instant (04 R112) -/
  announced : Bool := false
  /-- SWITCH_COUNT, in beacon intervals (04 R112, 07 R174) -/
  count : Nat := 0
  /-- the BSS whose TBTT is the switch instant, and its TSF then, us (07 R174) -/
  at_ : Option (Nat × Nat) := none
  deriving DecidableEq, Repr, Inhabited

/-- A running or waiting RADIO_CALIBRATE. (04 R89) -/
structure CalCmd where
  /-- 32 bits (04 R89) -/
  handle : Word := 0
  /-- 4 bits, segments still to calibrate (04 R89) -/
  segs : Nat := 0
  /-- FORCE (04 Table 4.21) -/
  force : Bool := false
  /-- the first calibration has begun (04 R473) -/
  started : Bool := false
  deriving DecidableEq, Repr, Inhabited

/-- A synthesiser calibration in progress. (04 R89) -/
structure Cal where
  /-- segment (04 R89) -/
  seg : Nat := 0
  /-- which counter it counts (04 R89) -/
  cause : CalCause := .command
  deriving DecidableEq, Repr, Inhabited

/-- A running PHY_TEST_TX. (05 R133) -/
structure TestTx where
  /-- 32 bits (05 R133) -/
  handle : Word := 0
  /-- PPDUs left (05 R133) -/
  left : Nat := 0
  /-- PPDUs sent (05 R133) -/
  sent : Nat := 0
  /-- format code (05 Table 5.12) -/
  fmt : Nat := 1
  /-- bandwidth code (05 Table 5.12) -/
  bw : Nat := 0
  /-- MCS as the command gives it (05 Table 5.12) -/
  mcs : Nat := 0
  /-- streams (05 Table 5.12) -/
  nss : Nat := 1
  /-- GI_LTF (05 Table 5.12) -/
  gi : Nat := 0
  /-- PSDU bytes (05 Table 5.12) -/
  bytes : Nat := 14
  /-- us (05 Table 5.12) -/
  gap : Nat := 20
  /-- instant the last PPDU ended (05 R133) -/
  endAt : Option Nat := none
  deriving DecidableEq, Repr, Inhabited

/-- Front end of one radio. (04) -/
structure RadioFe where
  /-- Table 4.3 (04 R472) -/
  state : RState := .off
  /-- target of the transition in progress (04 R84) -/
  trans : Option RState := none
  /-- return state (04 R472) -/
  ret : RState := .rx
  /-- bandwidth code (04 R472) -/
  bw : Nat := 0
  /-- primary index (04 R472) -/
  prim : Nat := 0
  /-- MHz (04 R472) -/
  centre : Nat := 0
  /-- calibration valid (04 R88) -/
  segValid : Vector Bool 4 := Vector.replicate 4 false
  /-- calibration temperature, 0.1 C (04 R88) -/
  segTemp : Vector Int 4 := Vector.replicate 4 0
  /-- calibrations of the segment (10 R251) -/
  segCount : Vector Nat 4 := Vector.replicate 4 0
  /-- sensor, 0.1 C (04 R88) -/
  temp : Int := 0
  /-- instant since which a temperature calibration is pending (04 R89 R92) -/
  calPending : Option Nat := none
  /-- calibration in progress (04 R89) -/
  cal : Option Cal := none
  /-- RADIO_CALIBRATE (04 R89) -/
  calCmd : Option CalCmd := none
  /-- further RADIO_CALIBRATE that wait behind it (04 R89) -/
  calWait : List CalCmd := []
  /-- the transition in progress locks the synthesiser (04 R89) -/
  locking : Bool := false
  /-- the 60 us power-up before a calibration runs (04 Table 4.4) -/
  powering : Bool := false
  /-- where it goes on to from STANDBY (04 R84 R89) -/
  goal : Option Goal := none
  /-- the RADIO_SET_STATE in progress has locked or calibrated (04 R89) -/
  relocked : Bool := false
  /-- RADIO_SET_STATE waiting: handle, target, return state (04 R87) -/
  stateReq : List (Word × RState × RState) := []
  /-- RADIO_SET_STATE whose transition runs (04 R84) -/
  stateRun : Option Word := none
  /-- channel change in progress: command, calibrations run, us to lock (04 R90) -/
  sw : Option (Option Word × Nat × Nat) := none
  /-- the PPDU being sent (04 Table 4.14) -/
  tx : Option TxCur := none
  /-- channel change waiting (04 R112) -/
  chanReq : Option ChanReq := none
  /-- the device holds a TXOP (04 R91) -/
  txopHeld : Bool := false
  /-- a SIFS response is owed (04 R85) -/
  owesResp : Bool := false
  /-- a response is awaited (04 R85, 07 R146) -/
  awaits : Bool := false
  /-- chains (04 R99) -/
  chains : Vector Chain 16 := Vector.replicate 16 {}
  /-- 8-byte entries, at most 256 (04 R97) -/
  femMap : List (List Byte) := []
  /-- 0.1 us (04 R94) -/
  rampUp : Nat := 10
  /-- 0.1 us (04 R94) -/
  rampDown : Nat := 10
  /-- Table 4.8 (04 R94) -/
  rampShape : Nat := 1
  /-- a request is withheld by a grant and counted (04 R107) -/
  withheld : Bool := false
  /-- PHY_TEST_TX that runs (05 R133) -/
  testTx : Option TestTx := none
  /-- the PHY_TEST_TX with count 0 that waits (05 R133) -/
  testStop : Option Word := none
  /-- COEXx_REQ after the filter (04 R105) -/
  req : Bool := false
  /-- COEXx_PRI after the filter (04 R105) -/
  pri : Bool := false
  /-- COEXx_GNT (04 R105) -/
  gnt : Bool := false
  /-- STUCK of the grant equation (04 R105 R108) -/
  hold : Bool := false
  /-- instant the REQ' now high rose, or its pins were enabled (04 R108) -/
  reqAt : Nat := 0
  /-- instants of REQ' rising edges in the last 1 ms (04 R109) -/
  rises : List Nat := []
  /-- counters (04 Table 4.22) -/
  ctr : Vector Nat 17 := Vector.replicate 17 0
  deriving DecidableEq, Repr, Inhabited

/-- Coexistence registers (Table 4.15). (04 Table 4.15) -/
structure Coex where
  /-- 32 bits, COEX_CTRL (04 Table 4.16) -/
  ctrl : Word := 0x0000EEE0#32
  /-- 32 bits, COEX_POLICY (04 Table 4.17) -/
  policy : Word := 0x00333333#32
  /-- 20 bits, COEX_MAX_HOLD (04 Table 4.15) -/
  maxHold : Nat := 0x2710
  /-- 16 bits, COEX_TOGGLE.LIMIT (04 Table 4.15) -/
  toggle : Nat := 0x3E8
  /-- 3 bits, COEX_STATUS.STUCK (04 Table 4.18) -/
  stuck : BitVec 3 := 0
  /-- 3 bits, COEX_STATUS.FAST (04 Table 4.18) -/
  fast : BitVec 3 := 0
  /-- 3 x 32 bits, RC (04 Table 4.15) -/
  grants : Vector Nat 3 := Vector.replicate 3 0
  deriving DecidableEq, Repr, Inhabited

/-- Headland of one radio. (01 R26) -/
structure RadioHl where
  /-- last 4,096 slacks, ns, newest first (01 R26) -/
  slacks : List Nat := []
  /-- responses since the last evaluation (01 R26) -/
  since : Nat := 0
  /-- evaluations made since reset (01 R26) -/
  evals : Nat := 0
  /-- P1 at the last evaluation, ns (01 R26) -/
  p1 : Option Nat := none
  /-- instant since which P1 has stayed above 3.0 us, counted again from each undo (01 R28) -/
  goodAt : Nat := 0
  /-- 1,024, 256 or 64 (01 Table 1.7) -/
  baLimit : Nat := 1024
  /-- Headland user limit (01 Table 1.7, 08 R198) -/
  userLimit : Nat := 0
  /-- instant of the last HL_PARTIAL event (01 R24) -/
  partialAt : Option Nat := none
  deriving DecidableEq, Repr, Inhabited

/-- Front ends at reset (R472). -/
def feReset : Vector RadioFe 3 :=
  #v[{ bw := 0, centre := 2412 }, { bw := 2, centre := 5210 }, { bw := 4, centre := 6105 }]
/-- Headland user limits at reset (Table 1.7, R198). -/
def hlReset : Vector RadioHl 3 := #v[{ userLimit := 18 }, { userLimit := 74 }, { userLimit := 148 }]

/-- A reception in progress, from the detection of its preamble. (05 R119) -/
structure RxCur where
  /-- Table 5.1 code (05 R114) -/
  fmt : Nat := 1
  /-- bandwidth code (05 R114) -/
  bw : Nat := 0
  /-- validated (05 R122) -/
  valid : Bool := false
  /-- a SIG check failed, search not resumed (05 R122) -/
  failed : Bool := false
  /-- reference power at the antenna, 0.5 dBm (05 R123) -/
  refPow : Int := 0
  /-- not decoded (R114, R115, R122, R148) (05 R114) -/
  skip : Bool := false
  /-- of a disabled format (05 R115) -/
  fmtOff : Bool := false
  /-- not supported (05 R114) -/
  unsup : Bool := false
  /-- the common field of HE-SIG-B or EHT-SIG failed (05 R122) -/
  late : Bool := false
  /-- CAPTURE_EN at its detection (05 Table 5.12) -/
  capture : Bool := true
  /-- FEM_RX_GAIN at its detection, 0.5 dB (05 R119) -/
  femGain : Nat := 0
  /-- LDPC_MAX_ITER at its detection (05 Table 5.12) -/
  ldpcMax : Nat := 8
  /-- gain of each chain, 0.5 dB, frozen (05 R118) -/
  gains : List Int := []
  /-- users its SIG fields name (05 R128) -/
  users : List UserSig := []
  /-- instant of the end its SIG fields give (05 R121) -/
  endAt : Nat := 0
  /-- MPDUs that passed FCS, until the PPDU ends (01 R14, 05 R124) -/
  got : List Mpdu := []
  /-- the user of each MPDU that failed FCS or size checks (05 Table 5.8) -/
  bad : List Nat := []
  /-- an MPDU failed its FCS (07 R145) -/
  fcsBad : Bool := false
  /-- detected inside the window of an awaited response (07 R146) -/
  inWin : Bool := false
  /-- WinStart and SNs accepted of the receive sessions as the PPDU began, by STA x 8 + TID (07 R166) -/
  ba : KMap (Nat × List Nat) := []
  /-- MPDUs whose FCS check has yet to finish after its end (01 R22) -/
  due : Nat := 0
  /-- what the PPDU means for the exchange is settled (07 R146) -/
  judged : Bool := false
  /-- corrected stamp of TB0-TB3, S x 10^9 + NS, at the receive stamp point (13 R332) -/
  stamps : List Nat := []
  /-- an inter-BSS PPDU ignored under spatial reuse (07 R148) -/
  obss : Bool := false
  deriving DecidableEq, Repr, Inhabited

/-- PHY of one radio. (05) -/
structure RadioPhy where
  /-- 1 bit (05 Table 5.12) -/
  captureEn : Bool := true
  /-- dBm (05 Table 5.12) -/
  pdThresh : Int := -82
  /-- 2-16 (05 Table 5.12) -/
  ldpcMax : Nat := 8
  /-- 0.5 dB (05 Table 5.12) -/
  femRxGain : Nat := 0
  /-- 11 bits, effective mask, formats of the radio only (05 R115) -/
  formats : Nat := 0x7FF
  /-- mask from the next furrow boundary (05 R115) -/
  fmtNext : Option Nat := none
  /-- reception in progress (05 R120) -/
  rx : Option RxCur := none
  /-- the PPDU that ended, while MPDU results of it are due (01 R22 R23) -/
  tail : Option RxCur := none
  /-- 64 bits, SEQ of the next report (05 R128) -/
  seq : Nat := 0
  /-- at most 1,024 reports of 64 bytes, newest first (05 R128) -/
  history : List (List Byte) := []
  /-- latest report per station (05 R128) -/
  latest : KMap (List Byte) := []
  /-- reduced iteration cap (05 R127) -/
  ldpcCut : Bool := false
  /-- counters (05 Table 5.13) -/
  ctr : Vector Nat 22 := Vector.replicate 22 0
  deriving DecidableEq, Repr, Inhabited

/-- PHYs at reset: the mask bits of formats a radio does not carry read 0 (Table 5.12). -/
def phyReset : Vector RadioPhy 3 := #v[{ formats := 0x7EF }, { formats := 0x7FE }, { formats := 0x7FE }]

/-- One wake match entry. (06 Table 6.2) -/
structure WurEntry where
  /-- 3 bits (06 Table 6.2) -/
  ctrl : Nat := 0
  /-- 8 bits (06 Table 6.2) -/
  types : Nat := 0
  /-- 12 bits (06 Table 6.2) -/
  id : Nat := 0
  /-- 12 bits (06 Table 6.2) -/
  idMask : Nat := 0
  /-- 12 bits (06 Table 6.2) -/
  tdc : Nat := 0
  /-- 12 bits (06 Table 6.2) -/
  tdcMask : Nat := 0
  deriving DecidableEq, Repr, Inhabited

/-- A WUR_SEND in progress on a BSS. (06 R144) -/
structure WurTx where
  /-- 32 bits (06 R144) -/
  handle : Word := 0
  /-- 1 bit (06 R143) -/
  rate : Nat := 0
  /-- 3 bits (06 R143) -/
  type : Nat := 0
  /-- 12 bits (06 R143) -/
  id : Nat := 0
  /-- 12 bits (06 R143) -/
  tdc : Nat := 0
  /-- 0-32 bytes (06 R143) -/
  body : List Byte := []
  /-- copies not yet due (06 R144) -/
  left : Nat := 0
  /-- instant T0, of the command's acceptance (06 R144) -/
  t0 : Nat := 0
  /-- TU (06 R144) -/
  interval : Nat := 0
  /-- number of the copy that falls due next (06 R144) -/
  next : Nat := 1
  /-- a copy is on the air (06 R144) -/
  onAir : Bool := false
  /-- a copy that is due is unsent (06 R144) -/
  waiting : Bool := false
  /-- copies sent (06 R144) -/
  sent : Nat := 0
  deriving DecidableEq, Repr, Inhabited

/-- Wake receiver. (06) -/
structure Wur where
  /-- mode running, 0-3 (06 Table 6.5) -/
  mode : Nat := 0
  /-- MHz (06 Table 6.5) -/
  channel : Nat := 2412
  /-- WU units (06 R136) -/
  period : Nat := 12
  /-- WU units (06 R136) -/
  on : Nat := 2
  /-- a duty-cycled window is open (06 R136) -/
  window : Bool := false
  /-- 64 x 16 bytes (06 R138 R139) -/
  table : Vector WurEntry 64 := Vector.replicate 64 {}
  /-- tables replaced in the last 40 ms, with the instant, oldest first (06 R139) -/
  olds : List (Nat × Vector WurEntry 64) := []
  /-- instant the mode took effect (06 R136) -/
  modeAt : Nat := 0
  /-- end of the last blanking that ended (06 R140) -/
  blankTill : Nat := 0
  /-- instant of the entry's last WUR_MATCH (06 R141) -/
  lastEvt : KMap Nat := []
  /-- sends by BSS (06 R144) -/
  tx : KMap WurTx := []
  /-- counters (06 Table 6.6) -/
  ctr : Vector Nat 7 := Vector.replicate 7 0
  deriving DecidableEq, Repr, Inhabited

/-- EDCA parameters of one access category. (07 Table 7.3) -/
structure Edca where
  /-- 4 bits (07 Table 7.3) -/
  aifsn : Nat := 2
  /-- 4 bits (07 Table 7.3) -/
  ecwMin : Nat := 4
  /-- 4 bits (07 Table 7.3) -/
  ecwMax : Nat := 10
  /-- 32 us units (07 Table 7.3) -/
  txop : Nat := 0
  deriving DecidableEq, Repr, Inhabited

/-- One EDCA function. (07 R150) -/
structure Backoff where
  /-- CW (07 R150 R151) -/
  cw : Nat := 15
  /-- backoff counter when drawn (07 R150) -/
  counter : Option Nat := none
  deriving DecidableEq, Repr, Inhabited

/-- A radio's own EDCA parameters at reset (Table 7.3), BK, BE, VI, VO. -/
def edcaOwn : Vector Edca 4 := #v[⟨7, 4, 10, 0⟩, ⟨3, 4, 6, 0⟩, ⟨1, 3, 4, 94⟩, ⟨1, 2, 3, 47⟩]
/-- The EDCA set a BSS advertises at reset (Table 7.3). -/
def edcaAdv : Vector Edca 4 := #v[⟨7, 4, 10, 0⟩, ⟨3, 4, 10, 0⟩, ⟨2, 3, 4, 94⟩, ⟨2, 2, 3, 47⟩]
/-- The EDCA functions at reset: CW is CWmin. -/
def boReset : Vector Backoff 4 := #v[⟨15, none⟩, ⟨15, none⟩, ⟨7, none⟩, ⟨3, none⟩]

/-- A beacon template (R173). (07 R173) -/
structure Template where
  /-- basic rate code, 0-11 (07 Table 7.8) -/
  rate : Nat := 0
  /-- beacon frame body (07 R173) -/
  body : List Byte := []
  /-- 16 bits (07 R173) -/
  timOffset : Nat := 0
  deriving DecidableEq, Repr, Inhabited

/-- One BSS. (07 Table 7.8) -/
structure Bss where
  /-- 1 bit (07 Table 7.8) -/
  en : Bool := false
  /-- 1 bit, BEACON_EN (07 R171) -/
  beacon : Bool := false
  /-- 1 bit, SHORT_SLOT (07 R145) -/
  shortSlot : Bool := true
  /-- 1 bit, transmits for a multiple-BSSID set (07 R175) -/
  transmits : Bool := false
  /-- transmitting BSS of its set (07 R175) -/
  setTx : Option Nat := none
  /-- 6 bytes (07 Table 7.8) -/
  bssid : List Byte := [0, 0, 0, 0, 0, 0]
  /-- 1-1,000 TU, BEACON_INT (07 R171) -/
  interval : Nat := 100
  /-- TU (07 R171) -/
  tbttOffset : Nat := 0
  /-- 1-255 (07 Table 7.8) -/
  dtim : Nat := 1
  /-- 16 bits, RTS_THRESHOLD (07 R155) -/
  rts : Nat := 65535
  /-- beacon template (07 R171 R173) -/
  template : Option Template := none
  /-- advertised parameters (07 Table 7.3) -/
  edca : Vector Edca 4 := edcaAdv
  /-- 8 bits, BSS parameters change count (07 R173) -/
  changes : Nat := 0
  /-- parameters of a MAC_SET_BSS that waits for the next TBTT (07 Table 7.8) -/
  setNext : Option (List Byte) := none
  /-- template that waits for the next TBTT (07 Table 7.8) -/
  tmplNext : Option Template := none
  /-- DTIM count of the next beacon (07 R173 R176) -/
  dtimCount : Nat := 0
  /-- group frames may follow the DTIM beacon (07 R176, 08 R196) -/
  dtimOpen : Bool := false
  /-- a beacon contends and is unsent (07 R172) -/
  bcnDue : Bool := false
  /-- TSF of the last TBTT beaconed (13 R336) -/
  lastTbtt : Option Nat := none
  /-- accept individual TWT (07 R177) -/
  twtInd : Bool := false
  /-- accept restricted TWT (07 R177) -/
  twtRestr : Bool := false
  /-- ppm, DRIFT (07 R178) -/
  drift : Nat := 40
  /-- us (07 Table 7.8) -/
  twtMinWake : Nat := 0
  /-- us (07 Table 7.8) -/
  twtMaxSp : Nat := 0
  /-- 0-8 broadcast schedules (07 R177) -/
  twtBcast : Nat := 0
  /-- source time base (13 R335) -/
  tsfTb : Nat := 2
  /-- 64 bits, OFFSET (13 R335) -/
  tsfOffset : BitVec 64 := 0
  /-- 64 bits, virtual time V_b (08 R189) -/
  shareV : Nat := 0
  /-- per mille, S_b (08 Table 8.2) -/
  share : Nat := 62
  /-- virtual times of the four group queues (08 R196) -/
  vGroup : Vector Nat 4 := Vector.replicate 4 0
  /-- channel-switch count its next beacon carries (07 R174) -/
  chNext : Option Nat := none
  /-- its group frames are held for want of a transmit key (16 R403) -/
  held : Bool := false
  /-- transmit group key: key ID and slot (16 R401) -/
  txKey : Option (Nat × Nat) := none
  /-- transmit IGTK: key ID and slot (16 R401) -/
  txIgtk : Option (Nat × Nat) := none
  /-- receive group key slots of a station interface by key ID (16 R401) -/
  rxKey : KMap Nat := []
  deriving DecidableEq, Repr, Inhabited

/-- Rate state of a station on one link. (08 R200) -/
structure Rate where
  /-- filtered EVM, 1/32 dB (08 R200) -/
  evm : Option Int := none
  /-- -4 to +2 (08 R200) -/
  offset : Int := 0
  /-- elements in a row with at most 2 % unacknowledged (08 R200) -/
  good : Nat := 0
  /-- downlink MCS last used (08 Table 8.11) -/
  mcs : Nat := 0
  /-- downlink NSS last used (08 Table 8.11) -/
  nss : Nat := 0
  /-- uplink MCS last used (08 Table 8.11) -/
  ulMcs : Nat := 0
  /-- uplink NSS last used (08 Table 8.11) -/
  ulNss : Nat := 0
  /-- 0.5 dBm at the antenna, mean of the chains of the last report (08 R202) -/
  rssi : Option Int := none
  /-- 0.25 dBm, noise floor of the last report (08 R202) -/
  noise : Option Int := none
  /-- sounding failures in a row (10 R245) -/
  sndFail : Nat := 0
  /-- instant until which it is not sounded (10 R245) -/
  sndHold : Nat := 0
  deriving DecidableEq, Repr, Inhabited

/-- A TWT service period. (07 R177 R179) -/
structure Sp where
  /-- BSS on whose TSF it lies (07 R177) -/
  bss : Nat := 0
  /-- TSF of its start, us (07 R177) -/
  start : Nat := 0
  /-- us (07 R177) -/
  len : Nat := 0
  /-- ns, G (07 R178) -/
  guard : Nat := 0
  deriving DecidableEq, Repr, Inhabited

/-- One station context. (08 R185) -/
structure Sta where
  /-- AP MLD, none for a single-link station (07 Table 7.8) -/
  mld : Option Nat := none
  /-- 3 bits, one per radio (07 Table 7.8) -/
  links : Nat := 0
  /-- 6 bytes (07 Table 7.8) -/
  addr : List Byte := []
  /-- 1-2,007 (07 Table 7.8) -/
  aid : Nat := 0
  /-- 32 bytes per link (07 Table 7.8) -/
  block : Vector (List Byte) 3 := Vector.replicate 3 []
  /-- in power save (07 R176) -/
  doze : Bool := false
  /-- state from the end of the present exchange (07 R176) -/
  dozeNext : Option Bool := none
  /-- TB2 seconds of the last contact (07 R178) -/
  contactS : Nat := 0
  /-- TB2 nanoseconds of the last contact (07 R178) -/
  contactNs : Nat := 0
  /-- its present service period (07 R179) -/
  sp : Option Sp := none
  /-- instant before which nothing is initiated to it after an exchange (07 R170) -/
  emlsrTill : Nat := 0
  /-- 1-255 (08 Table 8.2) -/
  weight : Nat := 16
  /-- 16-4,096 (08 R186) -/
  qlimit : Nat := 1024
  /-- T_LL per TID, 100 us (08 Table 8.2) -/
  tll : Vector Nat 8 := Vector.replicate 8 0
  /-- 64 bits, virtual time per AC (08 R189) -/
  v : Vector Nat 4 := Vector.replicate 4 0
  /-- rate state per link (08 R200) -/
  rate : Vector Rate 3 := Vector.replicate 3 {}
  /-- uplink demand per AC, none unknown (08 R201) -/
  demand : Vector (Option Nat) 4 := Vector.replicate 4 none
  /-- instant of the last report per AC (08 R201) -/
  demandAt : Vector Nat 4 := Vector.replicate 4 0
  /-- instant of its last uplink data (08 R201) -/
  lastData : Option Nat := none
  /-- triggered responses missed in a row (08 R203) -/
  ulFail : Nat := 0
  /-- no uplink RU until UL_HOLD_END (08 R203) -/
  ulHold : Bool := false
  /-- instant at which that hold ends (08 R203) -/
  ulHoldTill : Nat := 0
  /-- its next trigger is a BSRP (08 R203) -/
  ulPoll : Bool := false
  /-- TB2 ns of the last uplink RU per TID (08 R192) -/
  lastUlRu : Vector Nat 8 := Vector.replicate 8 0
  /-- 8 bits, urgent uplink TIDs (08 R192) -/
  ulUrgent : Nat := 0
  /-- 8 bits, uplink TIDs whose present deadline has passed and counted (08 R192) -/
  ulMissed : Nat := 0
  /-- link set the Seeder gives each TID, bit per radio (07 R169, 11 R266) -/
  link : Vector Nat 8 := Vector.replicate 8 0
  /-- instant of the last change of each TID's mapping (07 R169) -/
  mapAt : Vector Nat 8 := Vector.replicate 8 0
  /-- transmit key: key ID and slot (16 R401) -/
  txKey : Option (Nat × Nat) := none
  /-- receive key slots by key ID (16 R401) -/
  rxKey : KMap Nat := []
  /-- its new frames are held for want of a transmit key (16 R403) -/
  held : Bool := false
  /-- host streams by TID: HRX ring and STREAM_MIN (16 R407) -/
  stream : KMap (Nat × Nat) := []
  /-- instant of the last steering request (11 R278) -/
  steerAt : Option Nat := none
  /-- BSS it is asked to move to (11 R278) -/
  steerTo : Option Nat := none
  deriving DecidableEq, Repr, Inhabited

/-- Block Ack policy of a station's TID. (07 R161) -/
structure BaPol where
  /-- accept ADDBA Requests (07 R161) -/
  accept : Bool := true
  /-- 1-1,024, maximum buffer size (07 R161) -/
  max : Nat := 1024
  /-- ms, REORDER_TIMEOUT (07 R163) -/
  timeout : Nat := 10
  deriving DecidableEq, Repr, Inhabited

/-- A Block Ack receive session. (07 R161 R163) -/
structure BaSess where
  /-- buffer size W (07 R164) -/
  win : Nat := 64
  /-- 12 bits, WinStart (07 R164) -/
  start : Nat := 0
  /-- SNs accepted and not behind the window (07 R164) -/
  seen : List Nat := []
  /-- MPDUs held, by distance-independent SN (07 R163) -/
  held : KMap Frame := []
  /-- ms (07 R163) -/
  timeout : Nat := 10
  deriving DecidableEq, Repr, Inhabited

/-- A Block Ack transmit session. (07 R161) -/
structure TxBa where
  /-- the peer has granted it; false while it is asked (07 R161) -/
  agreed : Bool := false
  /-- buffer size the peer granted (07 R161) -/
  win : Nat := 64
  deriving DecidableEq, Repr, Inhabited

/-- A fragmented MSDU being reassembled. (07 R160) -/
structure Defrag where
  /-- 12 bits (07 R160) -/
  sn : Nat := 0
  /-- expected fragment number (07 R160) -/
  next : Nat := 1
  /-- what has arrived (07 R160) -/
  frame : Frame := {}
  deriving DecidableEq, Repr, Inhabited

/-- One AP MLD. (07 R168) -/
structure Mld where
  /-- BSS on A, B, C (07 Table 7.8) -/
  links : Vector (Option Nat) 3 := Vector.replicate 3 none
  /-- 6 bytes (07 Table 7.8) -/
  addr : List Byte := []
  deriving DecidableEq, Repr, Inhabited

/-- An individual TWT agreement. (07 R177) -/
structure Twt where
  /-- BSS index (07 R177) -/
  bss : Nat := 0
  /-- us (07 R177) -/
  interval : Nat := 0
  /-- us, service period (07 R177) -/
  len : Nat := 0
  /-- restricted TWT (07 R177) -/
  restricted : Bool := false
  /-- TSF of the next service period's start, us (07 R177) -/
  next : Nat := 0
  deriving DecidableEq, Repr, Inhabited

/-- Station-mode uplink of a radio. (07 R180) -/
structure Uplink where
  /-- BSS index (07 R180) -/
  bss : Nat := 0
  /-- STA of the upstream AP (07 R180) -/
  sta : Nat := 0
  /-- 6 bytes (07 R181) -/
  bssid : List Byte := []
  /-- 1-255 (07 R182) -/
  lossCount : Nat := 3
  /-- 1-50 ms (07 R181) -/
  bcnWait : Nat := 5
  /-- TU (07 R181) -/
  interval : Nat := 100
  /-- power save (07 Table 7.8) -/
  ps : Bool := false
  /-- run of misses (07 R181) -/
  misses : Nat := 0
  /-- TSF of the expected TBTT, us; none until a first beacon (07 R181) -/
  expect : Option Nat := none
  /-- EDCA parameters it advertises, BK BE VI VO (07 R180) -/
  edca : List Edca := []
  /-- link lost (07 R182) -/
  lost : Bool := false
  deriving DecidableEq, Repr, Inhabited

/-- What the PPDU being received has brought so far. (07 R157) -/
structure RxAgg where
  /-- stations of which an MPDU passed its FCS (07 R178) -/
  fcsOk : List Nat := []
  /-- response scoreboard: STA, TID, SN (01 R23) -/
  board : List (Nat × Nat × Nat) := []
  /-- response called for: 0 none, 1 Ack, 2 Block Ack, 3 CTS, 4 HE TB, 5 multi-STA Block Ack, 6 SU feedback (10 R246) (01 R25, 07 R157) -/
  resp : Nat := 0
  /-- to whom (07 R157) -/
  sta : Nat := 0x3FF
  /-- MPDUs of ours that it acknowledges: STA, TID, SN (07 R158) -/
  acked : List (Nat × Nat × Nat) := []
  /-- stations that answered our exchange (07 R146) -/
  answered : List Nat := []
  /-- BlockAckReqs: STA, TID, starting SN (07 R157 R163) -/
  bars : List (Nat × Nat × Nat) := []
  /-- stations whose TB PPDU validated (08 R203) -/
  tb : List Nat := []
  /-- bytes the RU of a trigger for us carries (07 R180) -/
  room : Nat := 0
  /-- us, Duration of the frame that calls for the response (07 R154) -/
  dur : Nat := 0
  /-- a CTS for us (07 R155) -/
  cts : Bool := false
  deriving DecidableEq, Repr, Inhabited

/-- MAC of one radio. (07) -/
structure RadioMac where
  /-- own parameters, BK BE VI VO (07 Table 7.3) -/
  edca : Vector Edca 4 := edcaOwn
  /-- own parameters that wait for the next backoff draw (07 Table 7.8) -/
  edcaNext : Vector (Option Edca) 4 := Vector.replicate 4 none
  /-- EDCA functions (07 R150) -/
  bo : Vector Backoff 4 := boReset
  /-- dBm (07 Table 7.2) -/
  edPri : Int := -62
  /-- dBm (07 Table 7.2) -/
  sdSec : Int := -72
  /-- dBm (07 Table 7.2) -/
  edSec : Int := -62
  /-- dBm (07 Table 7.2) -/
  obssPd : Int := -82
  /-- 16 bits, subchannels busy by energy (07 R147) -/
  energy : Nat := 0
  /-- instant since which each subchannel is idle by energy (07 R152) -/
  subAt : Vector Nat 16 := Vector.replicate 16 0
  /-- instant since which the primary is sensed idle in RX, none while it is not (07 R145 R150) -/
  idleAt : Option Nat := none
  /-- the last reception ended with an FCS failure (07 R145) -/
  eifs : Bool := false
  /-- basic NAV: the TXOP holder that set it (07 R153) -/
  navBasic : Option (List Byte) := none
  /-- intra-BSS NAV: the TXOP holder that set it (07 R153) -/
  navIntra : Option (List Byte) := none
  /-- the NAV (intra-BSS: true) an RTS set with no PPDU started since (07 R153) -/
  navRts : Option Bool := none
  /-- instant the basic NAV runs to (07 R153) -/
  navBasicEnd : Nat := 0
  /-- instant the intra-BSS NAV runs to (07 R153) -/
  navIntraEnd : Nat := 0
  /-- 1-31 (07 Table 7.4) -/
  retryLim : Vector Nat 4 := Vector.replicate 4 7
  /-- ms (07 Table 7.4) -/
  lifeMs : Vector Nat 4 := #v[1000, 500, 100, 50]
  /-- CF-End truncation (07 R154) -/
  cfEnd : Bool := true
  /-- the reception in progress (07 R157) -/
  agg : RxAgg := {}
  /-- the PPDU being received holds another access point's trigger (10 R251) -/
  trigSeen : Bool := false
  /-- such a trigger was validated in the last PPDU, and its TB PPDUs follow (10 R251) -/
  trigFor : Bool := false
  /-- slack at which the responder marked the response complete, ns (01 R26) -/
  respDone : Option Nat := none
  /-- instant of the commit point C that is due (01 R22) -/
  commit : Option Nat := none
  /-- basic rate code of the response owed (07 R157) -/
  respRate : Nat := 4
  /-- WinStart and SNs accepted of the receive sessions as the PPDU to be answered began (07 R166) -/
  stands : KMap (Nat × List Nat) := []
  /-- end of the window of the response awaited (07 R146) -/
  awaitTill : Nat := 0
  /-- PPDUs that wait for their launch instant, in order (01 R15) -/
  txNext : List TxCur := []
  /-- the PPDU whose response is awaited (07 R146) -/
  sent : Option TxCur := none
  /-- the PPDU that follows the RTS or MU-RTS being sent (07 R155 R170) -/
  afterRts : Option TxCur := none
  /-- ns of TB0-TB3 at the start of the PPDU being sent (13 R332) -/
  txStamps : List Nat := []
  /-- TXOP held: winning AC, limit in ns with 0 none, instant of its start (07 R154) -/
  txop : Option (Nat × Nat × Nat) := none
  /-- launch queue (13 R337) -/
  launchQ : List Frame := []
  /-- the head of the launch queue is judged future and held (13 R337) -/
  launchHeld : Bool := false
  /-- late frames sent at once as the medium allows (13 R337) -/
  lateQ : List Frame := []
  /-- station interface (07 R180) -/
  uplink : Option Uplink := none
  /-- dBm EIRP cap under spatial reuse, and the instant it ends (07 R148) -/
  obssCap : Option (Int × Nat) := none
  /-- dBm EIRP cap of the coordination slot (08 Table 8.6) -/
  txCap : Option Int := none
  /-- channel surveyed in a dwell (11 R270) -/
  survey : Option Nat := none
  /-- instant the last dwell began (11 R270) -/
  surveyAt : Nat := 0
  /-- instant the survey intervals count from (11 R270) -/
  surveyFrom : Nat := 0
  /-- survey intervals whose dwell was made or skipped (11 R270) -/
  surveyDone : Nat := 0
  /-- counters (07 Table 7.9) -/
  ctr : Vector Nat 26 := Vector.replicate 26 0
  deriving DecidableEq, Repr, Inhabited

/-- Medium access of the three radios. (07) -/
structure Mac where
  /-- radios A, B, C (07 R145) -/
  radio : Vector RadioMac 3 := Vector.replicate 3 {}
  /-- BSS 0-47 (07 Table 7.8) -/
  bss : Vector Bss 48 := Vector.replicate 48 {}
  /-- AP MLDs (07 R168) -/
  mld : Vector (Option Mld) 16 := Vector.replicate 16 none
  /-- station contexts in use, 0-1023 (08 R185) -/
  sta : KMap Sta := []
  /-- policy per TID for every station without its own (07 Table 7.8) -/
  baDef : Vector BaPol 8 := Vector.replicate 8 {}
  /-- policies by STA x 8 + TID (07 Table 7.8) -/
  baPol : KMap BaPol := []
  /-- receive sessions by STA x 8 + TID (07 R161) -/
  ba : KMap BaSess := []
  /-- last SN and fragment, by STA x 8 + TID, and 8,192 + STA (07 R165) -/
  dup : KMap (Nat × Nat) := []
  /-- by STA x 8 + TID (07 R160) -/
  defrag : KMap Defrag := []
  /-- 12 bits, next SN by STA x 8 + TID (07 R168) -/
  txSn : KMap Nat := []
  /-- transmit sessions by STA x 8 + TID (07 R161) -/
  txBa : KMap TxBa := []
  /-- BlockAckReq due by STA x 8 + TID: starting SN and failed tries (07 R159) -/
  bar : KMap (Nat × Nat) := []
  /-- by STA x 8 + index (07 R177) -/
  twt : KMap Twt := []
  /-- dozing stations that asked for delivery: ACs, and whether for one frame, by PS-Poll (07 R176) -/
  psReq : KMap (Nat × Bool) := []
  deriving DecidableEq, Repr, Inhabited

/-- The MAC at reset. -/
def macReset : Mac := {}

/-- One user of a furrow element. (08 Table 8.13) -/
structure FUser where
  /-- 10 bits (08 Table 8.13) -/
  sta : Nat := 0
  /-- 0-7 (08 Table 8.13) -/
  elem : Nat := 0
  /-- size code (08 Table 8.13) -/
  ruSize : Nat := 0
  /-- as in the quality report (08 Table 8.13) -/
  ruIndex : Nat := 0
  /-- Table 5.2 (08 Table 8.13) -/
  mcs : Nat := 0
  /-- 1-8 (08 Table 8.13) -/
  nss : Nat := 1
  /-- 1 bit (08 Table 8.13) -/
  uplink : Bool := false
  /-- 1 bit, MU-MIMO (08 Table 8.13) -/
  mu : Bool := false
  /-- 1 bit (08 Table 8.13) -/
  urgent : Bool := false
  /-- bytes planned (08 Table 8.13) -/
  bytes : Nat := 0
  /-- t_u in ns (08 R188) -/
  charge : Nat := 0
  /-- AC of the larger part of its data (08 R188) -/
  ac : Nat := 0
  /-- Harrow group whose precoder it uses (08 R199) -/
  group : Option Nat := none
  /-- LDPC, else BCC (05 R116) -/
  ldpc : Bool := true
  /-- dual-carrier modulation (05 R116) -/
  dcm : Bool := false
  /-- STBC (05 R116) -/
  stbc : Bool := false
  /-- MSDUs claimed, with their TID (08 R204) -/
  frames : List (Nat × Frame) := []
  /-- BlockAckReqs: TID and starting SN (07 R159) -/
  bars : List (Nat × Nat) := []
  /-- a dozing station served in its service period (08 R187) -/
  inSp : Bool := false
  /-- dBm, UL target receive power (08 R202) -/
  target : Int := 0
  /-- first spatial stream of an uplink user in its RU (08 R202) -/
  stream : Nat := 0
  /-- Ng of the feedback asked of a sounded user (10 R244) -/
  ng : Nat := 4
  deriving DecidableEq, Repr, Inhabited

/-- One furrow element. (08 Table 8.3) -/
structure Elem where
  /-- Table 8.3 (08 Table 8.3) -/
  code : Nat := 3
  /-- duration D (08 R188) -/
  durNs : Nat := 0
  /-- duration of the device's own PPDU (08 R197) -/
  ppduNs : Nat := 0
  /-- format of the device's own PPDU, Table 5.1 (05 R113) -/
  fmt : Nat := 1
  /-- its bandwidth code (05 R113) -/
  bw : Nat := 0
  /-- its GI_LTF, Table 5.9 (05 R116) -/
  gi : Nat := 0
  /-- its data symbols (08 R197) -/
  nSym : Nat := 0
  /-- its packet extension, ns (05 R132) -/
  pe : Nat := 0
  /-- 16 bits, subchannels it punctures (05 R115) -/
  punct : Nat := 0
  /-- bytes of a non-HT PPDU (05 R132) -/
  len : Nat := 0
  /-- an RTS and its CTS come before it (07 R155) -/
  rts : Bool := false
  /-- UL Length of the TB PPDUs it triggers (08 R202) -/
  tbLen : Nat := 0
  /-- the PPDUs of a sounding sequence (10 Table 10.2) -/
  parts : List TxCur := []
  /-- random-access RUs it offers (08 R201) -/
  raRu : Nat := 0
  deriving DecidableEq, Repr, Inhabited

/-- A furrow. (08 R194) -/
structure Furrow where
  /-- 64 bits (08 Table 8.12) -/
  number : Nat := 0
  /-- 0-3 (08 Table 8.12) -/
  planAc : Nat := 0
  /-- chosen BSS (08 Table 8.12) -/
  bss : Nat := 0
  /-- bandwidth code (08 Table 8.12) -/
  bw : Nat := 0
  /-- 1 bit (08 Table 8.12) -/
  coord : Bool := false
  /-- 1 bit (08 Table 8.12) -/
  fallback : Bool := false
  /-- 1 bit (08 Table 8.12) -/
  mu : Bool := false
  /-- 1 bit (08 Table 8.12) -/
  headland : Bool := false
  /-- ns (08 Table 8.12) -/
  dur : Nat := 0
  /-- ns (08 Table 8.12) -/
  build : Nat := 0
  /-- TB2 ns (08 Table 8.12) -/
  startNs : Nat := 0
  /-- TB2 seconds (08 Table 8.12) -/
  startS : Nat := 0
  /-- 1-8 elements in running order (08 R194) -/
  elems : List Elem := []
  /-- users of all elements (08 Table 8.12) -/
  users : List FUser := []
  /-- element in progress (08 R194) -/
  pos : Nat := 0
  /-- group queue of a GROUP furrow (08 R196) -/
  queue : Option Nat := none
  /-- chain set it was built for (08 R206) -/
  chains : Nat := 0
  /-- Ng 16 coefficients (10 R257) -/
  coarse : Bool := false
  /-- its precoders, in the bank that serves it (10 R257) -/
  pre : List Precoder := []
  /-- coordination slot of a coordinated furrow (08 R210) -/
  slot : Option Nat := none
  deriving DecidableEq, Repr, Inhabited

/-- Constraints of a coordination slot (Table 8.6). (08 Table 8.6) -/
structure Pitch where
  /-- slot number (12 R312) -/
  slot : Nat := 0
  /-- rope time of its start, ns (08 R209) -/
  start : Nat := 0
  /-- coordinated TXOPs: start in the slot and duration in ns, bandwidth code (08 Table 8.6) -/
  txops : List (Nat × Nat × Nat) := []
  /-- stations served by others (08 Table 8.6) -/
  exclude : List Nat := []
  /-- clients to null, with their streams (08 Table 8.6) -/
  nulls : List (List Byte × Nat) := []
  /-- stations its coordinated furrow may serve (12 R314) -/
  serve : List Nat := []
  /-- dBm EIRP per 20 MHz (08 Table 8.6) -/
  txCap : Option Int := none
  /-- 16 bits, subchannels not to use (08 Table 8.6) -/
  reserve : Nat := 0
  deriving DecidableEq, Repr, Inhabited

/-- Table 8.2: default AC weights BK, BE, VI, VO. -/
def acWeights : Vector Nat 4 := #v[1, 4, 8, 16]

/-- Furrow planner of one radio. (08) -/
structure RadioSched where
  /-- 1-255 (08 Table 8.2) -/
  acW : Vector Nat 4 := acWeights
  /-- host's user limit (08 R198) -/
  userLimit : Nat := 148
  /-- us, DL_PPDU_MAX (08 Table 8.11) -/
  dlMax : Nat := 5400
  /-- us, UL_PPDU_MAX (08 R202) -/
  ulMax : Nat := 2000
  /-- per mille (08 R193) -/
  llShare : Nat := 500
  /-- ms (08 R201) -/
  bsrMaxAge : Nat := 100
  /-- per mille (08 R208) -/
  lateAlarm : Nat := 20
  /-- tenths (08 R199) -/
  muGain : Nat := 12
  /-- 0.5 dB (08 R200) -/
  laMargin : Nat := 2
  /-- 0-8 (08 R201) -/
  raRu : Nat := 0
  /-- us (08 R194) -/
  muRts : Nat := 1000
  /-- 1 bit (08 Table 8.11) -/
  muMimo : Bool := true
  /-- 64 bits, number of the next furrow (08 Table 8.12) -/
  number : Nat := 0
  /-- furrow being built (08 R204) -/
  building : Option Furrow := none
  /-- ready furrow (08 R204) -/
  ready : Option Furrow := none
  /-- furrow on the air (08 R204) -/
  cur : Option Furrow := none
  /-- furrow last sent (08 Table 8.11) -/
  last : Option Furrow := none
  /-- the ready furrow was discarded and not rebuilt yet (08 R207) -/
  discarded : Bool := false
  /-- urgent airtime of the last 100 ms: instant and ns (08 R193) -/
  urgentUse : List (Nat × Nat) := []
  /-- urgent rank is lost (08 R193) -/
  overcap : Bool := false
  /-- where the round robin of BSSs with no share stands (08 R190) -/
  zeroNext : Nat := 0
  /-- TXOPs won in the present 1 s window (08 R208) -/
  won : Nat := 0
  /-- fallbacks in the present 1 s window (08 R208) -/
  fell : Nat := 0
  /-- instant of the last FURROW_LATE (08 R208) -/
  lateAt : Option Nat := none
  /-- start of the present 1 s window (08 R208) -/
  lateFrom : Nat := 0
  /-- constraints by slot, in order (08 R209) -/
  pitch : List Pitch := []
  /-- counters (08 Table 8.14) -/
  ctr : Vector Nat 21 := Vector.replicate 21 0
  deriving DecidableEq, Repr, Inhabited

/-- Planners at reset: the user limits of R198. -/
def schedReset : Vector RadioSched 3 := #v[{ userLimit := 18 }, { userLimit := 74 }, { userLimit := 148 }]

/-- Queues and planners. (08) -/
structure Sched where
  /-- radios A, B, C (08 R198) -/
  radio : Vector RadioSched 3 := schedReset
  /-- 8,192 per-TID queues, STA x 8 + TID (08 R185) -/
  q : KMap (List Frame) := []
  /-- 192 group queues, BSS x 4 + g (08 R185) -/
  gq : KMap (List Frame) := []
  /-- urgent per-TID queues, with the enqueue time of the newest MSDU that has passed half its target (08 R192) -/
  urgent : KMap Nat := []
  deriving DecidableEq, Repr, Inhabited

/-- One CSI record. (10 R250 R253) -/
structure Csi where
  /-- 0 explicit, 1 reciprocity, 2 overheard (10 Table 10.7) -/
  kind : Nat := 0
  /-- client address of an overheard record (10 R251) -/
  addr : List Byte := []
  /-- streams (10 R250) -/
  rank : Nat := 1
  /-- rows (10 Table 10.7) -/
  rows : Nat := 1
  /-- 0 STATIC, 1 SLOW, 2 FAST (10 Table 10.3) -/
  cls : Nat := 1
  /-- tone grouping of storage (10 Table 10.7) -/
  ng : Nat := 4
  /-- calibration count of the segment at capture (10 R251) -/
  segCount : Nat := 0
  /-- tone groups (10 Table 10.7) -/
  tones : Nat := 0
  /-- TB2 seconds of capture (10 R253) -/
  capS : Nat := 0
  /-- TB2 nanoseconds of capture (10 R253) -/
  capNs : Nat := 0
  /-- reported SNR, 0.25 dB (08 R200) -/
  snr : Int := 0
  /-- SNR of each stream, 0.25 dB (10 R255) -/
  snrs : List Int := []
  /-- 16 bits, chains of the rows of a reciprocity or overheard record (10 Table 10.4) -/
  chains : Nat := 0
  /-- 3 bytes per coefficient (10 Table 10.7) -/
  coef : List Byte := []
  /-- an event of Table 10.4 ended its validity (10 Table 10.4) -/
  struck : Bool := false
  /-- it passed its age and was counted (10 R253) -/
  aged : Bool := false
  deriving DecidableEq, Repr, Inhabited

/-- A Harrow group. (10 R254) -/
structure Group where
  /-- BSS (10 Table 10.7) -/
  bss : Nat := 0
  /-- station, MCS, NSS (10 R254) -/
  members : List (Nat × Nat × Nat) := []
  /-- predicted sum rate, 10 Mb/s (10 R254) -/
  rateSum : Nat := 0
  /-- built from reciprocity records (10 R253) -/
  recip : Bool := false
  /-- lies in the Q_S space (10 R240) -/
  qs : Bool := false
  /-- invalid by Table 10.4 (10 Table 10.4) -/
  struck : Bool := false
  deriving DecidableEq, Repr, Inhabited

/-- Beamforming of one radio. (10) -/
structure RadioBf where
  /-- 1 bit (10 R262) -/
  explicit : Bool := true
  /-- 1 bit (10 R262) -/
  reciprocity : Bool := true
  /-- 1-36 (10 R243) -/
  soundMax : Nat := 16
  /-- Ng 16 (10 R262) -/
  ng16 : Bool := false
  /-- ms (10 R243) -/
  soundLead : Nat := 5
  /-- ms (10 Table 10.3) -/
  ages : Vector Nat 3 := #v[200, 50, 10]
  /-- 1 bit (10 R255) -/
  rzf : Bool := true
  /-- sixteenths (10 R262) -/
  alpha : Nat := 16
  /-- 2-8 (10 R254) -/
  groupMax : Nat := 8
  /-- ms (10 R254) -/
  groupMs : Nat := 20
  /-- 0.01 dB and 0.01 degree, by segment and chain (10 R247) -/
  femRecip : Vector (Vector (Int × Int) 16) 4 := Vector.replicate 4 (Vector.replicate 16 (0, 0))
  /-- reciprocity calibration stale (10 R248) -/
  stale : Bool := true
  /-- a calibration is pending (10 R248) -/
  pending : Bool := false
  /-- instant since which it is pending (10 R249) -/
  pendAt : Nat := 0
  /-- a calibration runs (10 R249) -/
  running : Bool := false
  /-- instant it started (10 R249) -/
  startAt : Nat := 0
  /-- BF_RECALIBRATE with FORCE waits for the end of the exchange (10 Table 10.7) -/
  forced : Bool := false
  /-- BF_RECALIBRATE outstanding (10 Table 10.7) -/
  cmds : List Word := []
  /-- instant the last calibration ended (10 Table 10.7) -/
  endAt : Option Nat := none
  /-- at most 256 (10 R254) -/
  groups : KMap Group := []
  /-- by BSS, instant of the last rebuild (10 R254) -/
  groupAt : KMap Nat := []
  /-- stations sounded whose feedback is due, with the Ng and Nc asked for (10 R245) -/
  sounded : KMap (Nat × Nat) := []
  /-- TB2 seconds at the end of the last NDP (10 R245) -/
  ndpS : Nat := 0
  /-- TB2 nanoseconds at the end of the last NDP (10 R245) -/
  ndpNs : Nat := 0
  /-- corrections per chain and tone group of 4, empty before the first calibration (10 R247) -/
  corr : KMap (List Cx) := []
  /-- 16 bits, active chains its records and precoders are for (10 R239 R248) -/
  chainSet : Nat := 0xFFFF
  /-- counters (10 Table 10.8) -/
  ctr : Vector Nat 15 := Vector.replicate 15 0
  deriving DecidableEq, Repr, Inhabited

/-- Sounding at reset: SOUND_MAX is 4 on radio A (R262). -/
def bfReset : Vector RadioBf 3 := #v[{ soundMax := 4, chainSet := 0xFF }, {}, {}]

/-- CSI and precoding. (10) -/
structure Bf where
  /-- radios A, B, C (10 R262) -/
  radio : Vector RadioBf 3 := bfReset
  /-- by radio and STA (10 R253) -/
  explicit : Vector (KMap Csi) 3 := Vector.replicate 3 []
  /-- by radio and STA (10 R250) -/
  recip : Vector (KMap Csi) 3 := Vector.replicate 3 []
  /-- overheard records by radio, newest first (10 R251) -/
  overheard : Vector (List Csi) 3 := Vector.replicate 3 []
  /-- foreign list: client address and BSSID (10 R251) -/
  foreign : List (List Byte × List Byte) := []
  deriving DecidableEq, Repr, Inhabited

/-- One fence as written (Table 11.4). (11 R280) -/
structure Fence where
  /-- 0-6 (11 Table 11.4) -/
  kind : Nat := 0
  /-- parameter bytes from byte 0 (11 Table 11.4) -/
  bytes : List Byte := []
  deriving DecidableEq, Repr, Inhabited

/-- Placement of one object. (11 R263) -/
structure Placed where
  /-- 32 bits, as NEW of Table 11.6 (11 Table 11.6) -/
  value : Nat := 0xFFFFFFFF
  /-- instant of the last change (11 R263) -/
  last : Nat := 0
  /-- end of its hold (11 R263) -/
  till : Nat := 0
  /-- fence that decided (11 Table 11.6) -/
  fence : Nat := 0xFFFF
  /-- no placement its fences permit (11 R282) -/
  blocked : Bool := false
  deriving DecidableEq, Repr, Inhabited

/-- The Seeder. (11) -/
structure Seed where
  /-- ms (11 Table 11.1) -/
  linkHold : Nat := 500
  /-- s (11 Table 11.1) -/
  steerHold : Nat := 60
  /-- s (11 Table 11.1) -/
  chanHold : Nat := 600
  /-- per cent (11 R266) -/
  linkEnter : Nat := 60
  /-- per cent (11 R266) -/
  linkLeave : Nat := 40
  /-- per cent (11 R269) -/
  chanGain : Nat := 25
  /-- tenths (11 R277) -/
  steerGain : Nat := 15
  /-- MHz (11 R268) -/
  chanSep : Nat := 100
  /-- beacons (11 R269) -/
  csaCount : Nat := 5
  /-- 7 bits (11 Table 11.10) -/
  domains : Nat := 0x7F
  /-- s (11 R270) -/
  surveyInt : Nat := 30
  /-- s (11 Table 11.1) -/
  pitchHold : Nat := 300
  /-- 1,024 fences by number (11 R280) -/
  fences : KMap Fence := []
  /-- placements by domain x 2^32 + object (11 R263) -/
  place : KMap Placed := []
  /-- busy share per mille and instant by centre MHz of a 20 MHz subchannel (11 R269) -/
  busy : KMap (Nat × Nat) := []
  /-- busy share per mille of each radio over the last 1 s (11 R265) -/
  use3 : Vector Nat 3 := Vector.replicate 3 0
  /-- last traffic and conflict rates per mille and best set, by class + 256 x channel (11 R273) -/
  bankIn : KMap (Nat × Nat × Nat) := []
  /-- last lane set in proportion to queued steps, by job class (11 R274) -/
  laneIn : KMap Nat := []
  /-- instant since which a station's best candidate meets STEER_GAIN (11 R277) -/
  better : KMap Nat := []
  /-- instant of the first evaluation of an object, by domain x 2^32 + object (11 R263) -/
  evalAt : KMap Nat := []
  /-- coordinated mode was left and no PITCH evaluation has run since it resumed (11 R279) -/
  resumed : Bool := false
  /-- 20 bits, cipher groups closed until reset (11 R272) -/
  groupsOut : Nat := 0
  /-- at most 4,096 entries of 32 bytes, newest first (11 R283) -/
  log : List (List Byte) := []
  /-- 64 bits, SEQ of the next entry (11 R283) -/
  seq : Nat := 0
  /-- counters (11 Table 11.11) -/
  ctr : Vector Nat 12 := Vector.replicate 12 0
  deriving DecidableEq, Repr, Inhabited

/-- One key slot in use. (16 R392) -/
structure KeySlot where
  /-- Table 16.3 (16 Table 16.3) -/
  kind : Nat := 0
  /-- Table 16.1 (16 Table 16.1) -/
  suite : Nat := 0
  /-- 0-3, protection level (16 R390) -/
  level : Nat := 0
  /-- at most 32 bytes; a password token's bytes lie in its first slot (16 R392) -/
  key : List Byte := []
  /-- a further slot of a password token (16 R392) -/
  part : Bool := false
  /-- 64 bits, TX_PN (16 R402) -/
  txPn : Nat := 1
  /-- last PN accepted by TID, 8 for management frames (07 R167, 16 R402) -/
  rxPn : KMap Nat := []
  /-- 1 bit (16 Table 16.5) -/
  locked : Bool := false
  /-- 1 bit, PN_LOW raised (16 Table 16.5) -/
  lowTold : Bool := false
  deriving DecidableEq, Repr, Inhabited

/-- One SAE context. (16 R398) -/
structure SaeCtx where
  /-- 19 or 20 (16 R398) -/
  group : Nat := 19
  /-- own MAC (16 R398) -/
  own : List Byte := []
  /-- peer MAC (16 R398) -/
  peer : List Byte := []
  /-- password-token slot (16 R398) -/
  pt : Nat := 0
  /-- rand, mask and what CONFIRM derived (16 R398) -/
  secret : List Byte := []
  /-- own scalar and element (16 R398) -/
  commit : List Byte := []
  /-- CONFIRM is done (16 R398) -/
  confirmed : Bool := false
  /-- instant of its last use (16 R398) -/
  usedAt : Nat := 0
  deriving DecidableEq, Repr, Inhabited

/-- One MACsec association. (16 R404) -/
structure MacsecSa where
  /-- SAK slot (16 Table 16.7) -/
  slot : Nat := 0
  /-- lowest acceptable PN (RX) (16 Table 16.7) -/
  pn : Nat := 1
  /-- one above the highest PN accepted (RX) (16 R404) -/
  next : Nat := 1
  /-- 32 bits (16 Table 16.7) -/
  ssci : Nat := 0
  /-- 12 bytes (16 Table 16.7) -/
  salt : List Byte := []
  deriving DecidableEq, Repr, Inhabited

/-- MACsec of one port. (16 R404) -/
structure MacsecPort where
  /-- 1 bit (16 Table 16.7) -/
  en : Bool := false
  /-- 1 bit, replay protection (16 Table 16.7) -/
  replay : Bool := false
  /-- 32 bits (16 Table 16.7) -/
  window : Nat := 0
  /-- 8 bytes, transmit SCI (16 Table 16.7) -/
  sci : List Byte := [0, 0, 0, 0, 0, 0, 0, 0]
  /-- active transmit association (16 Table 16.7) -/
  an : Option Nat := none
  /-- transmit associations by AN (16 R404) -/
  tx : KMap MacsecSa := []
  /-- receive associations by channel x 4 + AN (16 R404) -/
  rx : KMap MacsecSa := []
  /-- SCI of the 16 receive channels (16 R404) -/
  rxSci : KMap (List Byte) := []
  /-- instant from which frames for the port are held for want of a key (16 R403) -/
  noKeyAt : Nat := 0
  deriving DecidableEq, Repr, Inhabited

/-- What the cipher engine does with a frame. -/
inductive JobKind where
  | txAir | rxAir | txWire | rxWire
  deriving DecidableEq, Repr, Inhabited

/-- A frame that waits for the cipher engine. (16 R389) -/
structure CipherJob where
  /-- direction and medium (16 R389) -/
  kind : JobKind := .txAir
  /-- radio, or port (16 R389) -/
  unit : Nat := 0
  /-- key slot, none where the frame names no association (16 R389) -/
  slot : Option Nat := none
  /-- the frame (16 R389) -/
  frame : Frame := {}
  /-- instant it came, frames for the wire (16 R403) -/
  at_ : Nat := 0
  deriving DecidableEq, Repr, Inhabited

/-- Cipher engine and key store. (16) -/
structure Sec where
  /-- 2,560 key slots, those not EMPTY (16 R392) -/
  slots : KMap KeySlot := []
  /-- a key session is open (16 R395) -/
  session : Bool := false
  /-- 32 bytes, key-encryption key (16 R395) -/
  kek : List Byte := []
  /-- 64 SAE contexts (16 R398) -/
  sae : KMap SaeCtx := []
  /-- E0, E1 (16 R404) -/
  port : Vector MacsecPort 2 := Vector.replicate 2 {}
  /-- frames that wait for a core, in order (16 R389) -/
  jobs : List CipherJob := []
  /-- SEC_DELETE_KEY that wait for frames in flight: handle, slot, held frames dropped (16 R394) -/
  deleting : List (Word × Nat × Nat) := []
  /-- the last health test of the random generator failed (16 R400) -/
  trngBad : Bool := false
  /-- counters (16 Table 16.8) -/
  ctr : Vector Nat 19 := Vector.replicate 19 0
  deriving DecidableEq, Repr, Inhabited

/-- Roles of a time base (Table 13.3). -/
inductive TbRole where
  | ptp | rope | localTb | spare
  deriving DecidableEq, Repr, Inhabited

/-- One time base, a 96-bit counter with its registers. (13 R319) -/
structure Tb where
  /-- 48 bits, S (13 R319) -/
  sec : Nat := 0
  /-- 32 bits, NS (13 R319) -/
  ns : Nat := 0
  /-- 16 bits, FRAC (13 R319) -/
  frac : Nat := 0
  /-- 48 bits, INC (13 R320) -/
  inc : Nat := 0x20000
  /-- DITHER.SIGN, subtract (13 Table 13.1) -/
  dSub : Bool := false
  /-- 24 bits, DITHER.PERIOD (13 Table 13.1) -/
  dPeriod : Nat := 0
  /-- ticks since the dither commit, below PERIOD (13 R324) -/
  dCount : Nat := 0
  /-- 2 bits, STATUS.ROLE; PTP, ROPE, LOCAL, SPARE for TB0-TB3 (13 Table 13.2) -/
  role : TbRole := .spare
  /-- 1 bit, STATUS.FW_OWNED (13 Table 13.2) -/
  fwOwned : Bool := false
  /-- 1 bit, STATUS.FREE_RUN (13 Table 13.2) -/
  freeRun : Bool := false
  /-- 1 bit, STATUS.SAT (13 Table 13.2) -/
  sat : Bool := false
  /-- 1 bit, STATUS.INC_INVALID (13 Table 13.2) -/
  incInv : Bool := false
  /-- 1 bit, STATUS.ADJ_INVALID (13 Table 13.2) -/
  adjInv : Bool := false
  /-- 1 bit, STATUS.SET_INVALID (13 Table 13.2) -/
  setInv : Bool := false
  /-- 48 bits, host snapshot of S (13 R322) -/
  snapS : Nat := 0
  /-- 16 bits, host snapshot of FRAC (13 R322) -/
  snapFrac : Nat := 0
  /-- TBn_INC_LO, staged (13 Table 13.1) -/
  incLo : Word := 0x00020000#32
  /-- TBn_INC_HI (13 Table 13.1) -/
  incHi : Word := 0
  /-- TBn_DITHER (13 Table 13.1) -/
  dither : Word := 0
  /-- TBn_SET_NS (13 Table 13.1) -/
  setNs : Word := 0
  /-- TBn_SET_S_LO (13 Table 13.1) -/
  setLo : Word := 0
  /-- TBn_SET_S_HI (13 Table 13.1) -/
  setHi : Word := 0
  /-- TBn_ADJ_NS (13 Table 13.1) -/
  adjNs : Word := 0
  /-- TBn_ADJ_S (13 Table 13.1) -/
  adjS : Word := 0
  /-- instant of the last committed INC, DITHER, SET or ADJ (13 R328) -/
  last : Option Nat := none
  /-- instant of its last TIME_SET_ROLE (13 R328) -/
  roleAt : Nat := 0
  /-- Builmin runs its PTP servo (13 R327) -/
  servo : Bool := false
  /-- 2 bits, Builmin's PTP ports (13 Table 13.8) -/
  ports : Nat := 0
  /-- ms, MASTER_TIMEOUT (13 Table 13.8) -/
  timeout : Nat := 0
  /-- 0-127, PTP domain (13 Table 13.8) -/
  domain : Nat := 0
  deriving DecidableEq, Repr, Inhabited

/-- The time bases at reset (Table 13.2). -/
def tbReset : Vector Tb 4 := #v[{ role := .ptp }, { role := .rope }, { role := .localTb }, { role := .spare }]

/-- PPS_OUT settings. (13 R331) -/
structure Pps where
  /-- enable (13 Table 13.8) -/
  en : Bool := false
  /-- time base (13 Table 13.8) -/
  tb : Nat := 0
  /-- us (13 Table 13.8) -/
  width : Nat := 100000
  /-- ns, PPS_OUT_DELAY (13 Table 13.8) -/
  delay : Int := 0
  deriving DecidableEq, Repr, Inhabited

/-- Time bases, PPS and stamps. (13) -/
structure TimeSt where
  /-- TB0-TB3 (13 R319) -/
  tb : Vector Tb 4 := tbReset
  /-- TB_CAPn: S, NS, FRAC (13 Table 13.5) -/
  cap : Vector (Nat × Nat × Nat) 4 := Vector.replicate 4 (0, 0, 0)
  /-- TB_PPSn: S, NS, FRAC (13 Table 13.5) -/
  ppsCap : Vector (Nat × Nat × Nat) 4 := Vector.replicate 4 (0, 0, 0)
  /-- 16 bits, CAP_COUNT (13 Table 13.5) -/
  capCount : Nat := 0
  /-- 16 bits, PPS_COUNT (13 Table 13.5) -/
  ppsCount : Nat := 0
  /-- 1 bit, LOST (13 Table 13.5) -/
  ppsLost : Bool := false
  /-- 1 bit, EARLY (13 Table 13.5) -/
  ppsEarly : Bool := false
  /-- PPS_OUT settings in force (13 R331) -/
  out : Pps := {}
  /-- settings that wait for the next edge (13 R331) -/
  outNext : Option Pps := none
  /-- counting has reached a rising-edge instant of the settings in force, and PPS_OUT has not used it (13 R331) -/
  rise : Bool := false
  /-- the same of the settings that wait (13 R331) -/
  riseNext : Bool := false
  /-- level of PPS_OUT (13 R331) -/
  ppsPin : Bool := false
  /-- instant of the last rising edge of PPS_OUT (13 R331) -/
  riseAt : Nat := 0
  /-- us, width of that pulse (13 R331) -/
  riseWidth : Nat := 100000
  /-- PPS_IN enable (13 Table 13.8) -/
  inEn : Bool := false
  /-- ns, PPS_IN_DELAY (13 Table 13.8) -/
  inDelay : Nat := 0
  /-- instant PPS_IN was last enabled (13 R330) -/
  inSince : Nat := 0
  /-- instant of the last accepted PPS_IN edge (13 R330) -/
  inLast : Option Nat := none
  /-- 2^-16 ns, INGRESS of E0, E1, radios A, B, C (13 R333) -/
  asymIn : Vector Int 5 := Vector.replicate 5 0
  /-- 2^-16 ns, EGRESS of E0, E1, radios A, B, C (13 R333) -/
  asymOut : Vector Int 5 := Vector.replicate 5 0
  /-- counters (13 Table 13.9) -/
  ctr : Vector Nat 13 := Vector.replicate 13 0
  deriving DecidableEq, Repr, Inhabited

/-- A token bucket (R362). A token is 500,000,000 parts: one tick of 2 ns refills RATE parts. (14 R362) -/
structure Bucket where
  /-- 0-1,000,000 per s (14 R362) -/
  rate : Nat := 20000
  /-- 1-65,535 (14 R362) -/
  burst : Nat := 256
  /-- parts held (14 R362) -/
  parts : Nat := 128000000000
  /-- instant of the last refill (14 R362) -/
  at_ : Nat := 0
  /-- 64 bits, exceptions passed (14 Table 14.14) -/
  passed : Nat := 0
  /-- 64 bits, exceptions dropped (14 Table 14.14) -/
  dropped : Nat := 0
  /-- drops since its last EXC_LIMITED (14 R364) -/
  since : Nat := 0
  /-- instant of its last EXC_LIMITED (14 R364) -/
  told : Option Nat := none
  deriving DecidableEq, Repr, Inhabited

/-- A flow-table entry (R348). (14 R348) -/
structure Flow where
  /-- 0-65,535 s, IDLE_TIMEOUT (14 R349) -/
  idle : Nat := 0
  /-- 48 bytes (14 Table 14.5) -/
  key : List Byte := []
  /-- 16 bytes (14 Table 14.6) -/
  result : List Byte := []
  /-- 64 bits (14 R348) -/
  packets : Nat := 0
  /-- 64 bits (14 R348) -/
  bytes : Nat := 0
  /-- instant of the last hit, or of the write (14 R349) -/
  hitAt : Nat := 0
  deriving DecidableEq, Repr, Inhabited

/-- A ternary rule (R347). (14 R347) -/
structure Rule where
  /-- 1 bit (14 R347) -/
  valid : Bool := false
  /-- 1 bit (14 R347) -/
  stage : Bool := false
  /-- 64 bytes (14 R347) -/
  value : List Byte := []
  /-- 64 bytes (14 R347) -/
  mask : List Byte := []
  /-- 16 bytes (14 Table 14.6) -/
  result : List Byte := []
  /-- 64 bits (14 R347) -/
  hits : Nat := 0
  deriving DecidableEq, Repr, Inhabited

/-- A prefix of a route table (R354). (14 R354) -/
structure Route where
  /-- IP version (14 R354) -/
  v6 : Bool := false
  /-- 0-15 (14 R354) -/
  table : Nat := 0
  /-- prefix length (14 R354) -/
  len : Nat := 0
  /-- 4 or 16 bytes (14 R354) -/
  prefix_ : List Byte := []
  /-- Table 14.8 (14 Table 14.8) -/
  kind : Nat := 0
  /-- egress domain or neighbour index (14 Table 14.14) -/
  arg : Nat := 0
  deriving DecidableEq, Repr, Inhabited

/-- A neighbour entry (R356). (14 R356) -/
structure Neigh where
  /-- 1 bit (14 R356) -/
  valid : Bool := false
  /-- 1 bit (14 R356) -/
  v6 : Bool := false
  /-- 0-63 (14 R356) -/
  domain : Nat := 0
  /-- 6 bytes (14 R356) -/
  mac : List Byte := []
  /-- 4 or 16 bytes (14 R356) -/
  addr : List Byte := []
  deriving DecidableEq, Repr, Inhabited

/-- A forwarding entry (R352). (14 R352) -/
structure Fdb where
  /-- 0-63 (14 R352) -/
  domain : Nat := 0
  /-- 6 bytes (14 R352) -/
  mac : List Byte := []
  /-- 0 station, 1 host, 2 learned (14 R352) -/
  kind : Nat := 0
  /-- 0 E0, 1 E1, 2 STA, 3 HRX ring, 4 MP (14 Table 14.14) -/
  target : Nat := 0
  /-- STA or ring (14 Table 14.14) -/
  index : Nat := 0
  /-- instant of the last frame from a learned address (14 R352) -/
  seen : Nat := 0
  deriving DecidableEq, Repr, Inhabited

/-- A bridge domain (R351). (14 R351) -/
structure Domain where
  /-- 1 bit (14 R351) -/
  en : Bool := false
  /-- 1 bit (14 R353) -/
  isolate : Bool := false
  /-- 1 bit (14 R355) -/
  missMp : Bool := false
  /-- 1 bit (14 R354) -/
  routing : Bool := false
  /-- 0-15 (14 R354) -/
  table : Nat := 0
  /-- 0-63 (14 R351) -/
  floodRing : Option Nat := none
  /-- 6 bytes, ROUTER_MAC (14 R354) -/
  mac : List Byte := [0, 0, 0, 0, 0, 0]
  /-- 576-9,198 (14 R357) -/
  mtu : Nat := 1500
  /-- VLAN of E0 and E1, 0 untagged (14 R351) -/
  vlan : Vector (Option Nat) 2 := Vector.replicate 2 none
  /-- 48 bits, BSS bitmap (14 R351) -/
  bss : Nat := 0
  /-- 64 bits, HTX ring bitmap (14 R351) -/
  htx : Nat := 0
  deriving DecidableEq, Repr, Inhabited

/-- A port pair (R358). (14 R358) -/
structure PortPair where
  /-- E0, E1 (14 R358) -/
  member : Vector Bool 2 := Vector.replicate 2 false
  /-- 0 or 1 (14 R358) -/
  primary : Nat := 0
  /-- VLAN per member (14 R358) -/
  vlan : Vector Nat 2 := Vector.replicate 2 0
  deriving DecidableEq, Repr, Inhabited

/-- Where a frame leaves the router. -/
inductive Egress where
  /-- Dropped, with the counter of Table 14.15 that tells why. -/
  | drop (ctr : Nat)
  /-- An Ethernet port, with the outer VLAN tag the frame leaves with, none for 0. -/
  | port (p vlan : Nat)
  | station (sta tid : Nat)
  | group (q tid : Nat)
  | ring (n hash : Nat)
  /-- An exception with its reason. -/
  | exc (reason : Nat)
  deriving DecidableEq, Repr, Inhabited

/-- The final decision of a first fragment, with its edits (R366). (14 R366) -/
structure FragDec where
  /-- egress targets (14 R366) -/
  out : List Egress := []
  /-- MIRROR_MP (14 Table 14.6) -/
  mirror : Bool := false
  /-- DECAP (14 Table 14.6) -/
  decap : Bool := false
  /-- SET_DSCP (14 Table 14.6) -/
  dscp : Option Nat := none
  /-- new destination and source of a routed frame (14 R357) -/
  macs : Option (List Byte × List Byte) := none
  deriving DecidableEq, Repr, Inhabited

/-- A first-fragment entry (R366). (14 R366) -/
structure FragEntry where
  /-- source, destination, identification, protocol (14 R366) -/
  key : List Byte := []
  /-- TB2 ns of its ingress (14 R366) -/
  stamp : Nat := 0
  /-- the decision (14 R366) -/
  dec : FragDec := {}
  deriving DecidableEq, Repr, Inhabited

/-- A datagram the slow path tracks (R365). (14 R365) -/
structure SlowDg where
  /-- source, destination, identification, protocol (14 R365) -/
  key : List Byte := []
  /-- instant of the earliest fragment (14 R365) -/
  at_ : Nat := 0
  /-- at most 64 fragments (14 R365) -/
  held : List Frame := []
  /-- decision of the first fragment (14 R365) -/
  dec : Option FragDec := none
  deriving DecidableEq, Repr, Inhabited

/-- A queued exception (R361). (14 R361) -/
structure Exc where
  /-- Table 14.11 (14 Table 14.11) -/
  reason : Nat := 0
  /-- Table 14.3 (14 Table 14.12) -/
  srcClass : Nat := 0
  /-- SOURCE word (14 Table 14.12) -/
  source : Nat := 0
  /-- the frame (14 R363) -/
  frame : Frame := {}
  deriving DecidableEq, Repr, Inhabited

/-- Port pairs at reset: pair 0 holds E0 alone, untagged (R358). -/
def pairsReset : Vector PortPair 8 := (Vector.replicate 8 {}).set 0 { member := #v[true, false] }
/-- Ring groups at reset: group 0 holds HRX0 (R358). -/
def groupsReset : Vector Nat 16 := (Vector.replicate 16 0).set 0 1

/-- The packet router. (14) -/
structure Router where
  /-- frames that wait for classification (14 R340) -/
  inq : List Frame := []
  /-- 16 bits, 0 off (14 Table 14.14) -/
  vxlan : Nat := 4789
  /-- 0-63 (14 R346) -/
  controlRing : Option Nat := some 0
  /-- 0-63 (14 R363) -/
  excRing : Option Nat := some 0
  /-- s (14 R352) -/
  fdbAge : Nat := 300
  /-- 1 bit (14 Table 14.14) -/
  gre : Bool := true
  /-- at most 16,384 by index (14 R348) -/
  flows : KMap Flow := []
  /-- T0-T1023, those ever written (14 R347) -/
  rules : KMap Rule := []
  /-- at most 4,096 IPv4 and 2,048 IPv6 prefixes (14 R354) -/
  routes : List Route := []
  /-- N0-N4095, those ever written (14 R356) -/
  neigh : KMap Neigh := []
  /-- at most 8,192 (14 R352) -/
  fdb : List Fdb := []
  /-- D0-D63 (14 R351) -/
  domain : Vector Domain 64 := Vector.replicate 64 {}
  /-- port pairs (14 R358) -/
  pair : Vector PortPair 8 := pairsReset
  /-- 64-bit ring bitmaps (14 R358) -/
  group : Vector Nat 16 := groupsReset
  /-- 40 bytes (14 R359) -/
  hashKey : List Byte := []
  /-- 16 bits each (14 R359) -/
  hashSet : Vector Nat 8 := Vector.replicate 8 0x000F
  /-- 16 bits each (14 R360) -/
  indir : Vector Nat 512 := Vector.replicate 512 0
  /-- total bucket (14 R362) -/
  total : Bucket := {}
  /-- reasons 0x01-0x0A (14 R362) -/
  reason : Vector Bucket 10 := Vector.replicate 10 {}
  /-- at most 256, oldest first (14 R366) -/
  frags : List FragEntry := []
  /-- at most 1,024, oldest first (14 R365) -/
  slow : List SlowDg := []
  /-- FRAGMENT exceptions that wait for the slow path (14 R363) -/
  fragIn : List Frame := []
  /-- other exceptions that wait for delivery (14 R363) -/
  excq : List Exc := []
  /-- counters (14 Table 14.15) -/
  ctr : Vector Nat 25 := Vector.replicate 25 0
  /-- instant of the last check of the flow table's idleness (14 R349) -/
  agedAt : Option Nat := none
  deriving DecidableEq, Repr, Inhabited

/-- Role in the rope (Table 12.14). -/
inductive RopeRole where
  | none | joining | member | lead
  deriving DecidableEq, Repr, Inhabited

/-- A roster entry (Table 12.6), by rope index. (12 R296) -/
structure Member where
  /-- 8 bits (12 Table 12.6) -/
  prio : Nat := 0
  /-- 1 bit, FLAGS[1] (12 Table 12.6) -/
  anchor : Bool := false
  /-- 1 bit, FLAGS[2] (12 Table 12.6) -/
  lead : Bool := false
  /-- 64 bits (12 Table 12.6) -/
  serial : Nat := 0
  /-- 32 bits (12 Table 12.6) -/
  epoch : Nat := 0
  /-- 16 bits (12 Table 12.6) -/
  pitch : Nat := 0xFFFF
  /-- 6 bytes (12 Table 12.6) -/
  addr : List Byte := []
  deriving DecidableEq, Repr, Inhabited

/-- Counter window of a sender (R290). (12 R290) -/
structure KnWin where
  /-- 32 bits (12 R290) -/
  epoch : Nat := 0
  /-- 64 bits, H (12 R290) -/
  high : Nat := 0
  /-- counters accepted in [H - 63, H] (12 R290) -/
  seen : List Nat := []
  deriving DecidableEq, Repr, Inhabited

/-- A member's last REPORT (Table 12.9). (12 R305) -/
structure MemberRep where
  /-- instant it arrived (12 R297) -/
  at_ : Nat := 0
  /-- 16 bits, free station contexts (12 Table 12.9) -/
  free : Nat := 0
  /-- per cent, radios B and C (12 Table 12.9) -/
  busy : Nat × Nat := (0, 0)
  /-- own BSSIDs (12 Table 12.9) -/
  own : List (List Byte) := []
  /-- heard BSSIDs and levels, dBm (12 Table 12.9) -/
  heard : List (List Byte × Int) := []
  /-- direct-link neighbours (12 Table 12.9) -/
  direct : List Nat := []
  /-- START_UP mode (12 Table 12.9) -/
  startUp : Bool := false
  deriving DecidableEq, Repr, Inhabited

/-- What a pitch member's CLIENTS say (Table 12.9). (12 R307) -/
structure PeerCli where
  /-- 16 bits, free station contexts (12 Table 12.9) -/
  free : Nat := 0
  /-- per cent, radios B and C (12 Table 12.9) -/
  busy : Nat × Nat := (0, 0)
  /-- its clients: address, STA, radio, and the instant it first announced each (12 Table 12.9) -/
  own : List (List Byte × Nat × Nat × Nat) := []
  /-- clients it hears: client ID and SNR, 0.25 dB (12 Table 12.9) -/
  heard : List (Nat × Int) := []
  deriving DecidableEq, Repr, Inhabited

/-- A radio of a PROPOSAL (Table 12.11). (12 Table 12.11) -/
structure PropRadio where
  /-- MHz (12 Table 12.11) -/
  centre : Nat := 0
  /-- bandwidth code (12 Table 12.11) -/
  bw : Nat := 0
  /-- primary index (12 Table 12.11) -/
  prim : Nat := 0
  /-- us, 0 none (12 Table 12.11) -/
  demand : Nat := 0
  /-- active chains (12 Table 12.11) -/
  chains : Nat := 0
  /-- change pending (12 Table 12.11) -/
  pending : Bool := false
  /-- 32 bits (12 Table 12.11) -/
  changeSlot : Nat := 0
  deriving DecidableEq, Repr, Inhabited

/-- A PROPOSAL the anchor holds (Table 12.11). (12 R312) -/
structure Proposal where
  /-- member index (12 Table 12.2) -/
  src : Nat := 0
  /-- 64 bits, target slot (12 Table 12.11) -/
  slot : Nat := 0
  /-- FLAGS[0] (12 Table 12.11) -/
  locked : Bool := false
  /-- FLAGS[2] (12 Table 12.11) -/
  startUp : Bool := false
  /-- ns (12 Table 12.11) -/
  e : Nat := 255
  /-- radios B and C (12 Table 12.11) -/
  radio : List PropRadio := []
  /-- client IDs to serve (12 Table 12.11) -/
  serve : List Nat := []
  /-- client IDs it failed to null (12 Table 12.11) -/
  missing : List Nat := []
  deriving DecidableEq, Repr, Inhabited

/-- A JOIN_ACK the lead issued (R294). (12 R294) -/
structure Issue where
  /-- 16 bytes, N_l (12 R294) -/
  nl : List Byte := []
  /-- instant of issue (12 R294) -/
  at_ : Nat := 0
  /-- what the roster entry will hold (12 R294) -/
  entry : Member := {}
  deriving DecidableEq, Repr, Inhabited

/-- A T_RESP that waits for t3 (R309). (12 R309) -/
structure Resp where
  /-- child (12 R309) -/
  dst : Nat := 0
  /-- port of the request (12 R309) -/
  port : Nat := 0
  /-- 32 bits (12 Table 12.9) -/
  seq : Nat := 0
  /-- 2^-16 ns of rope time (12 R309) -/
  t2 : Nat := 0
  /-- instant the request arrived (12 R309) -/
  at_ : Nat := 0
  deriving DecidableEq, Repr, Inhabited

/-- Rope coordination. (12) -/
structure Rope where
  /-- role (12 Table 12.14) -/
  role : RopeRole := .none
  /-- 16 bits, ROPE_ID (12 Table 12.14) -/
  id : Nat := 0
  /-- 0-1023, own rope index (12 Table 12.14) -/
  index : Nat := 0
  /-- key slot (12 Table 12.14) -/
  slot : Nat := 0
  /-- next key slot (12 R292) -/
  nextSlot : Option Nat := none
  /-- 8 bits (12 Table 12.14) -/
  prio : Nat := 0
  /-- 2 bits, Kennar ports (12 Table 12.14) -/
  ports : Nat := 0
  /-- TIME_SOURCE (12 R308) -/
  timeSource : Bool := false
  /-- FORM (12 R295) -/
  form : Bool := false
  /-- VLAN ID, 0 untagged (12 R286) -/
  vlan : Nat := 0
  /-- EtherType (12 R286) -/
  etype : Nat := 0x88B5
  /-- ns, E_MAX (12 Table 12.10) -/
  eMax : Nat := 40
  /-- dBm, 127 none, COORD_TX_CAP (12 R313) -/
  txCap : Int := 127
  /-- us, COORD_MAX (12 R313) -/
  coordMax : Nat := 3072
  /-- ms, BELAY_WAIT (12 R300) -/
  belayWait : Nat := 5
  /-- ROPE_JOIN that waits (12 R294) -/
  join : Option Word := none
  /-- instant the join began (12 R295) -/
  began : Nat := 0
  /-- instant of the last JOIN_REQ of the join (12 Table 12.3) -/
  joinReqAt : Option Nat := none
  /-- 16 bytes, N_m (12 R294) -/
  nm : List Byte := []
  /-- a belay has stepped the rope time base in this join (12 R291) -/
  stepped : Bool := false
  /-- a belay was heard since the join began (12 R295) -/
  heardBelay : Bool := false
  /-- an ACCEPTED JOIN_ACK arrived (12 R294) -/
  accepted : Bool := false
  /-- 32 bits, own epoch; a free value from every reset on (12 R289) -/
  epoch : Nat := 0
  /-- 64 bits, next frame counter (12 R289) -/
  counter : Nat := 1
  /-- KEY_PHASE it seals with (12 R292) -/
  phase : Bool := false
  /-- 64 bits, KEY_SWITCH_NUM, 0 none (12 R292) -/
  switchNum : Nat := 0
  /-- the phase before the switch is still accepted (12 R292) -/
  oldPhase : Bool := false
  /-- number of the belay of the last key switch (12 R292) -/
  switchedAt : Nat := 0
  /-- lead's index (12 Table 12.14) -/
  leadIdx : Nat := 0x3FF
  /-- lead's serial (12 R303) -/
  leadSerial : Nat := 0
  /-- lead's priority (12 R303) -/
  leadPrio : Nat := 0
  /-- 32 bits (12 R303) -/
  term : Nat := 0
  /-- 32 bits (12 R296) -/
  rosterVer : Nat := 0
  /-- entries in use by rope index (12 R296) -/
  roster : KMap Member := []
  /-- the full roster is held (12 R294) -/
  full : Bool := false
  /-- frames of a ROSTER set received so far (12 R296) -/
  rosterRx : KMap (List (List Byte)) := []
  /-- a ROSTER_REQ is due (12 R296) -/
  rosterAsk : Bool := false
  /-- lead: last 16 changes, version and entry, oldest first (12 R296) -/
  changes : List (Nat × List Byte) := []
  /-- lead: last 16 epochs recorded per index (12 R289) -/
  epochs : KMap (List Nat) := []
  /-- lead: latest JOIN_ACK per index (12 R294) -/
  issued : KMap Issue := []
  /-- last REPORT per index (12 R305) -/
  reports : KMap MemberRep := []
  /-- lead: instant a member joined or last reported (12 R297) -/
  seenAt : KMap Nat := []
  /-- ns, rope time less TB0 where TIME_SOURCE holds (12 R308) -/
  srcOffset : Int := 0
  /-- counter windows by sender index (12 R290) -/
  win : KMap KnWin := []
  /-- 64 derived keys: index, epoch, phase; newest first (12 R288) -/
  cache : List (Nat × Nat × Bool) := []
  /-- 64 bits, number of the last belay (12 R302) -/
  lastBelay : Nat := 0
  /-- successors in it (12 R302) -/
  succ : List Nat := []
  /-- number of the last belay whose window has closed (12 R300) -/
  winNum : Nat := 0
  /-- the window now open is satisfied (12 R300) -/
  inWindow : Bool := false
  /-- windows missed in a row (12 R300) -/
  misses : Nat := 0
  /-- windows in a row satisfied by one lead since belay loss (12 R304) -/
  good : Nat := 0
  /-- belay loss has been reached and not ended (12 R301) -/
  lost : Bool := false
  /-- the leaving lead handed the rope to this device (12 R297) -/
  handover : Bool := false
  /-- direct neighbours by index: port and instant (12 R306) -/
  hellos : KMap (Nat × Nat) := []
  /-- CLIENTS of pitch members by index (12 R307) -/
  clients : KMap PeerCli := []
  /-- instant of the last REPORT (12 Table 12.3) -/
  reportAt : Option Nat := none
  /-- instant of the last HELLO (12 Table 12.3) -/
  helloAt : Option Nat := none
  /-- instant and slot of the last CLIENTS (12 Table 12.3) -/
  clientsAt : Option (Nat × Nat) := none
  /-- clients it announced (12 Table 12.3) -/
  told : List (List Byte × Nat × Nat) := []
  /-- slot of the last T_REQ (12 R309) -/
  treqSlot : Option Nat := none
  /-- 32 bits, next T_REQ sequence (12 R309) -/
  treqSeq : Nat := 0
  /-- T_REQ outstanding: sequence, t1 in 2^-16 ns, instant (12 R309) -/
  treq : Option (Nat × Nat × Nat) := none
  /-- T_RESP that wait for t3 (12 R309) -/
  resp : List Resp := []
  /-- offset and delay in 2^-16 ns of the last 16 exchanges, newest first (12 R311) -/
  exch : List (Int × Int) := []
  /-- port of the last exchange (12 R311) -/
  exchPort : Nat := 0
  /-- instant of the last good exchange (12 R311) -/
  goodAt : Nat := 0
  /-- exchanges lost in a row (12 R311) -/
  lostRun : Nat := 0
  /-- exchanges the present rate change runs for (12 R310) -/
  servoLeft : Nat := 0
  /-- offset to be stepped at the next slot boundary, 2^-16 ns (12 R310) -/
  stepDue : Option Int := none
  /-- slot in which that was decided (12 R310) -/
  stepSlot : Nat := 0
  /-- slots a step keeps the member out of coordinated TXOPs (12 R310) -/
  quiet : Nat := 0
  /-- slot of the last PROPOSAL sent (12 R312) -/
  propSlot : Option Nat := none
  /-- anchor: proposals taken in time (12 R312) -/
  proposals : List Proposal := []
  /-- anchor: merged plans by slot, not yet sent (12 R313) -/
  merged : List (Nat × List Byte) := []
  /-- last planned slot (12 Table 12.14) -/
  planned : Nat := 0
  /-- members with a coordinated TXOP in the last plan (12 Table 12.14) -/
  partOf : List Nat := []
  /-- slots a PLAN has been accepted for (12 R314) -/
  planSlots : List Nat := []
  /-- own serve list by proposed slot (12 R312) -/
  serve : KMap (List Nat) := []
  /-- client IDs not nulled in the last coordinated TXOP (12 Table 12.11) -/
  nullMiss : List Nat := []
  /-- slot of the last coordinated TXOP skipped (12 Table 12.11) -/
  skipAt : Option Nat := none
  /-- coordination slot that runs (12 R312) -/
  nowSlot : Nat := 0
  /-- counters (12 Table 12.15) -/
  ctr : Vector Nat 24 := Vector.replicate 24 0
  deriving DecidableEq, Repr, Inhabited

/-- A lane pointer (Table 9.3). (09 Table 9.3) -/
structure Ptr where
  /-- 14 bits (09 Table 9.3) -/
  base : Nat := 0
  /-- 15 bits (09 Table 9.3) -/
  len : Nat := 16384
  /-- 14 bits, signed (09 Table 9.3) -/
  step : Int := 8
  /-- 2 bits: 0 linear, 1 circular, 2 bit-reversed, 3 reserved (09 Table 9.3) -/
  mode : Nat := 0
  /-- 2 bits: 0 X, 1 Y, 2 C, 3 reserved; at job start X for P0-P2, Y for P3-P5, C for P6-P7 (09 Table 9.3) -/
  mem : Nat := 0
  /-- 14 bits (09 Table 9.3) -/
  addr : Nat := 0
  deriving DecidableEq, Repr, Inhabited

/-- An active hardware loop (R216). (09 R216) -/
structure LoopLv where
  /-- first index of the body (09 R216) -/
  start : Nat := 0
  /-- last index of the body (09 R216) -/
  last : Nat := 0
  /-- iterations left, this one counted; 32 bits (09 R216) -/
  left : Nat := 0
  /-- a later iteration runs, fetched from the loop cache (09 R216) -/
  again : Bool := false
  deriving DecidableEq, Repr, Inhabited

/-- Eight complex elements, element 0 first: real part in bits 15:0, imaginary part in bits 31:16 (R213). -/
abbrev Vec8 := Vector (BitVec 32) 8

/-- Eight complex accumulators of 40 + 40 bits. -/
abbrev Acc8 := Vector (BitVec 40 × BitVec 40) 8

/-- The pointers at job start (Table 9.3). -/
def ptrReset : Vector Ptr 8 :=
  #v[{ mem := 0 }, { mem := 0 }, { mem := 0 }, { mem := 1 }, { mem := 1 }, { mem := 1 }, { mem := 2 }, { mem := 2 }]

/-- The register file of a lane with one of its two banks in place (Table 9.1). (09 Table 9.1) -/
structure LaneFile where
  /-- V0-V31, 8 elements of 32 bits (09 Table 9.1) -/
  v : Vector Vec8 32 := Vector.replicate 32 (Vector.replicate 8 0)
  /-- ACC0-ACC3 (09 Table 9.1) -/
  acc : Vector Acc8 4 := Vector.replicate 4 (Vector.replicate 8 (0, 0))
  /-- S0-S15, 32 bits (09 Table 9.1) -/
  s : Vector Word 16 := Vector.replicate 16 0
  /-- P0-P7 (09 Table 9.1) -/
  p : Vector Ptr 8 := ptrReset
  /-- at most two active loops, innermost first (09 Table 9.1) -/
  loops : List LoopLv := []
  deriving DecidableEq, Repr, Inhabited

/-- The other bank of the shadowed registers (Table 9.1). (09 R225) -/
structure Shadow where
  /-- V24-V31 (09 Table 9.1) -/
  v : Vector Vec8 8 := Vector.replicate 8 (Vector.replicate 8 0)
  /-- ACC3 (09 Table 9.1) -/
  acc : Acc8 := Vector.replicate 8 (0, 0)
  /-- S8-S15 (09 Table 9.1) -/
  s : Vector Word 8 := Vector.replicate 8 0
  /-- P4-P7 (09 Table 9.1) -/
  p : Vector Ptr 4 := #v[{ mem := 1 }, { mem := 1 }, { mem := 2 }, { mem := 2 }]
  /-- loop stack (09 Table 9.1) -/
  loops : List LoopLv := []
  deriving DecidableEq, Repr, Inhabited

/-- A segment or a DMA transfer (Table 9.10). (09 Table 9.10) -/
structure Seg where
  /-- 8 bits (09 Table 9.10) -/
  target : Nat := 0
  /-- 8 bits (09 Table 9.10) -/
  mem : Nat := 0
  /-- 16 bits (09 Table 9.10) -/
  elem : Nat := 0
  /-- 32 bits (09 Table 9.10) -/
  len : Nat := 0
  /-- 64 bits (09 Table 9.10) -/
  off : Nat := 0
  /-- out of the lane (09 Table 9.10) -/
  out : Bool := false
  /-- raises source 0 (09 Table 9.10) -/
  irq : Bool := false
  deriving DecidableEq, Repr, Inhabited

/-- A host job (Table 9.9). (09 R230) -/
structure Job where
  /-- the command's handle (09 R236) -/
  handle : Word := 0
  /-- 0-3 (09 Table 9.9) -/
  lease : Nat := 0
  /-- 0-3 (09 Table 9.9) -/
  slot : Nat := 0
  /-- WIPE (09 Table 9.9) -/
  wipe : Bool := false
  /-- FALLBACK_OK (09 Table 9.9) -/
  fallOk : Bool := false
  /-- PROG_BASE (09 Table 9.9) -/
  prog : Nat := 0
  /-- ENTRY (09 Table 9.9) -/
  entry : Nat := 0
  /-- IVEC of sources 0-3 (09 Table 9.9) -/
  ivec : List Nat := []
  /-- STEP_BUDGET, 32 bits (09 Table 9.9) -/
  budget : Nat := 0
  /-- S_INIT of S0-S3 (09 Table 9.9) -/
  init : List Nat := []
  /-- inbound segments (09 Table 9.9) -/
  inSegs : List Seg := []
  /-- outbound segments (09 Table 9.9) -/
  outSegs : List Seg := []
  /-- runs in fall-back mode (09 Table 9.12) -/
  fb : Bool := false
  deriving DecidableEq, Repr, Inhabited

/-- What a lane does with its job (R230): nothing; its program runs; its outbound segments run; it has ended with a fault of
Table 9.11 and waits for its transfers. -/
inductive LanePhase where
  | idle | program | outbound | ended (fault : Nat)
  deriving DecidableEq, Repr, Inhabited

/-- One Harrow lane. (09 R213) -/
structure Lane where
  /-- X, Y and C, 64 KiB each, by byte (09 R214) -/
  mem : Vector Mem 3 := Vector.replicate 3 []
  /-- fenced memories (09 R228) -/
  memFenced : Vector Bool 3 := Vector.replicate 3 false
  /-- the loop cache is fenced (09 R228) -/
  cacheFenced : Bool := false
  /-- fenced whole (09 R227) -/
  whole : Bool := false
  /-- fall-back mode (09 R217) -/
  fallback : Bool := false
  /-- live registers (09 Table 9.1) -/
  f : LaneFile := {}
  /-- shadow bank (09 R225) -/
  shadow : Shadow := {}
  /-- EXPR, 4 bits (09 Table 9.1) -/
  expr : Nat := 15
  /-- IBASE (09 Table 9.1) -/
  ibase : Word := 0
  /-- MAXV and MAXI (09 Table 9.1) -/
  maxv : Option (Word × Word) := none
  /-- MINV and MINI (09 Table 9.1) -/
  minv : Option (Word × Word) := none
  /-- SAT (09 Table 9.1) -/
  sat : Bool := false
  /-- AOV (09 Table 9.1) -/
  aov : Bool := false
  /-- index of the next instruction (09 R230) -/
  pc : Nat := 0
  /-- index the handler returns to (09 R225) -/
  saved : Nat := 0
  /-- a handler runs (09 R226) -/
  handler : Bool := false
  /-- 4 bits, pending interrupt sources (09 R225) -/
  pend : Nat := 0
  /-- step count at which TSET raises source 1 (09 Table 9.7) -/
  timer : Option Nat := none
  /-- counted steps of the job (09 R215) -/
  steps : Nat := 0
  /-- channel XWAIT holds issue for (09 R215) -/
  wait : Option Nat := none
  /-- running transfers (09 R231) -/
  chan : Vector (Option Seg) 4 := Vector.replicate 4 none
  /-- first index of the four instructions last fetched (09 R214) -/
  group : Option Nat := none
  /-- loop cache, 64-bit words by index (09 R216) -/
  cache : KMap Nat := []
  /-- what the lane does (09 R230) -/
  phase : LanePhase := .idle
  /-- the host job it runs (09 R236) -/
  job : Option Job := none
  /-- class of the Builmin job it runs, 0-4 (11 R274) -/
  bjob : Option Nat := none
  /-- owner of the last job: 0 Builmin, 1-4 lease 0-3 (09 R230) -/
  owner : Nat := 0
  /-- leased slot it holds, 4 x lease + slot (11 R275) -/
  slot : Option Nat := none
  /-- a lease or release waits for its wipe (09 R234) -/
  wiping : Bool := false
  /-- instant of the last canary measurement (09 R237) -/
  canaryAt : Nat := 0
  deriving DecidableEq, Repr, Inhabited

/-- A lease of slots (R234). (09 R234) -/
structure Lease where
  /-- CSI_READ (09 Table 9.14) -/
  csi : Bool := false
  /-- DRAM scratch window, MiB (09 Table 9.14) -/
  scratchMiB : Nat := 0
  /-- contents of the scratch window (09 R233) -/
  scratch : Mem := []
  /-- base and length of host windows 0-3 (09 Table 9.14) -/
  windows : List (Nat × Nat) := []
  /-- lane of each slot, none when withdrawn (09 R235) -/
  slots : List (Option Nat) := []
  /-- queued jobs, oldest first; at most 16 (09 R236) -/
  queue : List Job := []
  /-- HARROW_LEASE that waits for the wipes (09 R234) -/
  grant : Option Word := none
  /-- HARROW_RELEASE that waits for the wipes (09 Table 9.14) -/
  drop : Option Word := none
  deriving DecidableEq, Repr, Inhabited

/-- The Harrow cluster. (09) -/
structure Harrow where
  /-- L0-L15 (09 R213) -/
  lane : Vector Lane 16 := Vector.replicate 16 {}
  /-- leases 0-3 (09 R234) -/
  lease : KMap Lease := []
  /-- counters (09 Table 9.15) -/
  ctr : Vector Nat 12 := Vector.replicate 12 0
  deriving DecidableEq, Repr, Inhabited

/-- An address filter entry in use (R374). (15 R374) -/
structure Filt where
  /-- 6 bytes (15 R374) -/
  addr : List Byte := []
  /-- 1 bit (15 R374) -/
  valid : Bool := true
  /-- owner: 0 the host, 1 rope group, 2 pitch group, 3 link neighbour (12 R286) -/
  rope : Nat := 0
  deriving DecidableEq, Repr, Inhabited

/-- One Ethernet port. (15) -/
structure Port where
  /-- 0 disabled, 1 AN, 2-4 fixed 10, 25, 50 Gb/s (15 Table 15.8) -/
  mode : Nat := 0
  /-- 3 bits, speeds advertised (15 Table 15.8) -/
  anSpeeds : Nat := 7
  /-- FEC code, 0xFF the speed's default (15 Table 15.8) -/
  fecCfg : Nat := 0xFF
  /-- 1,518-9,216, MAX_FRAME (15 R376) -/
  maxFrame : Nat := 1518
  /-- 1 bit, BCAST_EN (15 R374) -/
  bcast : Bool := false
  /-- 1 bit, PROMISC (15 R374) -/
  promisc : Bool := false
  /-- 1 bit, PAUSE_EN (15 R379) -/
  pauseEn : Bool := true
  /-- 1 bit, PREEMPT_EN (15 R380) -/
  preemptEn : Bool := true
  /-- 1-128 ms, VERIFY_TIME (15 R380) -/
  verifyTime : Nat := 10
  /-- 6 bytes, port address and filter entry 0 (15 R374, Table 15.8) -/
  mac : List Byte := [0, 0, 0, 0, 0, 0]
  /-- filter entries 1-15 in use (15 R374) -/
  filter : KMap Filt := []
  /-- link up (15 R373) -/
  up : Bool := false
  /-- speed code (15 Table 15.2) -/
  speed : Nat := 0
  /-- FEC code (15 Table 15.2) -/
  fec : Nat := 0
  /-- AN complete (15 Table 15.8) -/
  anDone : Bool := false
  /-- instant of the last link up (15 Table 15.8) -/
  upAt : Nat := 0
  /-- preemption is active (15 R380) -/
  preempt : Bool := false
  /-- verify mPackets sent since link up (15 R380) -/
  verifies : Nat := 0
  /-- instant of the last verify mPacket (15 R380) -/
  verifyAt : Nat := 0
  /-- verification has succeeded or failed since link up (15 R380) -/
  verifyDone : Bool := false
  /-- 0-3, the partner's addFragSize (15 R381) -/
  addFrag : Nat := 0
  /-- pause in force: instant it began and its length in ns (15 R379) -/
  pause : Option (Nat × Nat) := none
  /-- egress queue, preemptable frames (15 R380) -/
  txQ : List Frame := []
  /-- egress queue, express frames (15 R380) -/
  expQ : List Frame := []
  /-- launch queue (13 R337, 15 R382) -/
  launchQ : List Frame := []
  /-- the head of the launch queue is judged future and held (13 R337) -/
  launchHeld : Bool := false
  /-- late frames that take the wire at the next frame boundary (13 R337) -/
  lateQ : List Frame := []
  /-- frames whose launch instant has come (13 R338) -/
  dueQ : List Frame := []
  /-- preemptable traffic is held for a launch instant (15 R382) -/
  wireHold : Bool := false
  /-- 0.01 ns at which the last launch frame and its IPG end (15 R383) -/
  wireFree : Nat := 0
  /-- 0.01 ns at which the frames on the wire and their IPG end (15 R380, R381) -/
  wireBusy : Nat := 0
  /-- the same of the last express frame (15 R380, R381) -/
  expBusy : Nat := 0
  /-- 1 bit, stepping enabled (15 R384) -/
  fallow : Bool := false
  /-- instant of the partner's last CAPS with bit 0 set (15 R384) -/
  capsAt : Option Nat := none
  /-- instant of the last CAPS sent (15 R384) -/
  capsSent : Option Nat := none
  /-- 64 bits, the partner's serial (15 R385) -/
  peer : Nat := 0
  /-- 32 bits, next request number (15 Table 15.7) -/
  fseq : Nat := 0
  /-- STEP_REQ unanswered: number and target (15 R385) -/
  freq : Option (Nat × Nat) := none
  /-- instant of the last STEP_REQ sent (15 R385) -/
  freqAt : Nat := 0
  /-- instant from which a down step's 30 s count (15 R385) -/
  calmFrom : Nat := 0
  /-- fallow step in progress: old and target speed (15 R385) -/
  stepping : Option (Nat × Nat) := none
  /-- stepping stays enabled after the step in progress (15 Table 15.8) -/
  keepFallow : Bool := true
  /-- stepping was turned off below 50 Gb/s: the port steps up (15 Table 15.8) -/
  upDue : Bool := false
  /-- counters (15 Table 15.9) -/
  ctr : Vector Nat 24 := Vector.replicate 24 0
  deriving DecidableEq, Repr, Inhabited

/-- A retraining: periodic, in full by DRAM_RETRAIN, in full after three failed replays. -/
inductive Training where
  | periodic | full | replay
  deriving DecidableEq, Repr, Inhabited

/-- A request that waits on a channel. (17 R422) -/
structure DramReq where
  /-- a write (17 R422) -/
  write : Bool := false
  /-- byte address of its 64-byte burst (17 R413) -/
  addr : Nat := 0
  /-- what it is for (17 Table 17.6) -/
  use : DramFor := .mp
  /-- 64 bytes of a write (17 R423) -/
  data : List Byte := []
  /-- instant of its arrival (17 R422) -/
  at_ : Nat := 0
  deriving DecidableEq, Repr, Inhabited

/-- A DRAM_RETRAIN that waits. (17 Table 17.8) -/
structure TrainReq where
  /-- its handle (17 Table 17.8) -/
  handle : Word := 0
  /-- FORCE (17 Table 17.8) -/
  force : Bool := false
  /-- FULL (17 Table 17.8) -/
  full : Bool := false
  deriving DecidableEq, Repr, Inhabited

/-- One DDR4 channel. (17) -/
structure Chan where
  /-- 0 unconfigured, 1 initialising, 2 ready, 3 FAILED (17 Table 17.8) -/
  state : Nat := 0
  /-- rate code (17 Table 17.7) -/
  rate : Nat := 0
  /-- policy: CLASS, READ_FIRST (17 R422) -/
  readFirst : Bool := false
  /-- ns (17 R422) -/
  ageLimit : Nat := 4000
  /-- 24-63 (17 R422) -/
  wqHigh : Nat := 48
  /-- 0 to WQ_HIGH - 8 (17 R422) -/
  wqLow : Nat := 16
  /-- the write queue drains to WQ_LOW (17 R422) -/
  draining : Bool := false
  /-- requests that wait, oldest first; at most 64 writes (17 R422 R423) -/
  reqs : List DramReq := []
  /-- open row by rank x 16 + bank group x 4 + bank (17 R422) -/
  rows : KMap Nat := []
  /-- instant at which a request of class 0 was last queued (17 Table 17.4) -/
  lastClass0 : Option Nat := none
  /-- retry buffer, at most 64: instants of issue of the commands not retired, oldest first (17 R415) -/
  retry : List Nat := []
  /-- ALERT_n is low (17 R416) -/
  alertLow : Bool := false
  /-- a replay runs (17 R416) -/
  replaying : Bool := false
  /-- the replay is the one after a full retraining (17 R416) -/
  lastTry : Bool := false
  /-- failed replays in a row (17 R416) -/
  fails : Nat := 0
  /-- REFs owed per rank, 0-8 (17 R418) -/
  owed : Vector Nat 2 := Vector.replicate 2 0
  /-- REFs ahead per rank, 0-8 (17 R418) -/
  ahead : Vector Nat 2 := Vector.replicate 2 0
  /-- instant a rank's last REF fell due (17 R418) -/
  refAt : KMap Nat := []
  /-- instant a rank's last refresh ends (17 R418) -/
  refEnd : KMap Nat := []
  /-- instant a rank last served a request (17 R418) -/
  usedAt : KMap Nat := []
  /-- instant of the last temperature read (17 R419) -/
  tempAt : Option Nat := none
  /-- instant of the last ZQ short calibration (17 Table 17.4) -/
  zqAt : Option Nat := none
  /-- runs hot (17 R419) -/
  hot : Bool := false
  /-- reads in a row with every rank at or below 85 degC (17 R419) -/
  cool : Nat := 0
  /-- instant up to which HOT_MS counts (17 R419) -/
  hotAt : Nat := 0
  /-- instant at which a periodic retraining fell due (17 R420) -/
  due : Option Nat := none
  /-- retraining that runs (17 R420) -/
  training : Option Training := none
  /-- DRAM_RETRAIN that it serves (17 Table 17.8) -/
  trainOf : Option Word := none
  /-- DRAM_RETRAIN that wait (17 R420) -/
  trainReqs : List TrainReq := []
  /-- s, retraining interval (19 Table 19.4) -/
  interval : Nat := 900
  /-- instant from which the interval counts (17 R420) -/
  trainedAt : Nat := 0
  /-- retrainings in a row that each lost less than 5 % (19 Table 19.4) -/
  lowLoss : Nat := 0
  /-- contents by byte address (17 R411) -/
  mem : Mem := []
  /-- poisoned bursts by address, with the second device found (17 R413) -/
  poison : KMap Nat := []
  /-- the model's own: the last burst read (17 R423) -/
  answer : List Byte := []
  /-- last 16 error records of 16 bytes, newest first (17 Table 17.8) -/
  errors : List (List Byte) := []
  /-- counters (17 Table 17.9) -/
  ctr : Vector Nat 21 := Vector.replicate 21 0
  deriving DecidableEq, Repr, Inhabited

/-- DDR4 controller. (17) -/
structure Dram where
  /-- DRAM_CONFIGURE has completed with OK (03 R78, 17 R411) -/
  ready : Bool := false
  /-- DRAM_CONFIGURE that runs (17 R411) -/
  job : Option Word := none
  /-- parameters of the last accepted DRAM_CONFIGURE (17 Table 17.8) -/
  cfg : List Byte := []
  /-- MiB, SCRATCH area of both channels (17 R412) -/
  scratch : Nat := 0
  /-- MiB, PKT per channel (17 R412) -/
  pkt : Nat := 0
  /-- DRAM_SET_RATE that wait: handle and 0 primary or 1 alternate (17 R421) -/
  rateReqs : List (Word × Nat) := []
  /-- M0, M1 (17) -/
  chan : Vector Chan 2 := Vector.replicate 2 {}
  deriving DecidableEq, Repr, Inhabited

/-- A calendar time. (18 R428) -/
structure RtcTime where
  /-- 9 bits, offset from 2000 (18 Table 18.2) -/
  year : Nat := 0
  /-- 4 bits, 1-12 (18 Table 18.2) -/
  month : Nat := 1
  /-- 5 bits, 1-31 (18 Table 18.2) -/
  day : Nat := 1
  /-- 5 bits (18 Table 18.2) -/
  hour : Nat := 0
  /-- 6 bits (18 Table 18.2) -/
  minute : Nat := 0
  /-- 6 bits (18 Table 18.2) -/
  second : Nat := 0
  deriving DecidableEq, Repr, Inhabited

/-- The battery domain: reset values are those of a battery-domain power-up (R427). (18 Table 18.1) -/
structure Rtc where
  /-- RTC_TIME0, TIME1 and TIME2 (18 Table 18.2) -/
  time : RtcTime := {}
  /-- 15 bits, PRESCALER last seen (18 Table 18.2) -/
  presc : Nat := 0
  /-- read snapshot: TIME1 and TIME2 (18 R431) -/
  snap : Option (Word × Word) := none
  /-- RTC_HOLD_DATE (18 Table 18.1) -/
  holdDate : Word := 0x101#32
  /-- RTC_HOLD_TIME (18 Table 18.1) -/
  holdTime : Word := 0
  /-- checked set waiting for its crystal edge (18 R433) -/
  commit : Option RtcTime := none
  /-- 3 bits, RTC_CTRL.SQW_SEL (18 Table 18.4) -/
  sqwSel : Nat := 0
  /-- SQW_SEL has changed since the last second tick or commit load (18 R437) -/
  sqwNew : Bool := false
  /-- 1 bit, RTC_CTRL.ALARM_EN (18 Table 18.4) -/
  alarmEn : Bool := false
  /-- RTC_ALARM (18 Table 18.1) -/
  alarm : Word := 0
  /-- 1 bit, RTC_STATUS.ALARM (18 Table 18.3) -/
  alarmHit : Bool := false
  /-- 1 bit (18 Table 18.3) -/
  yearWrap : Bool := false
  /-- 1 bit (18 Table 18.3) -/
  dateInvalid : Bool := false
  /-- 1 bit (18 Table 18.3) -/
  oscStopped : Bool := true
  /-- 1 bit, live (18 Table 18.3) -/
  oscRunning : Bool := false
  /-- 1 bit (18 Table 18.3) -/
  locked : Bool := true
  /-- RTC_WAKE.WUR (18 Table 18.1) -/
  wakeWur : Bool := false
  /-- RTC_WAKE.ALARM (18 Table 18.1) -/
  wakeAlarm : Bool := false
  /-- first write of the unlock sequence accepted (18 R426) -/
  armed : Bool := false
  /-- instant VDD_IO last became good, none while it is not (18 R424) -/
  vddGoodAt : Option Nat := some 0
  /-- 64 backup bytes (18 R440) -/
  backup : Vector Byte 64 := Vector.replicate 64 0
  deriving DecidableEq, Repr, Inhabited

/-- A Gleaner pass over one array or channel (R444, R446). (19 R444) -/
structure GleanPass where
  /-- the pass took a 2 % share (19 R446) -/
  escalated : Bool := false
  /-- instant the pass started (19 R444) -/
  began : Nat := 0
  deriving DecidableEq, Repr, Inhabited

/-- A weak region (R447). (19 R447) -/
structure WeakRegion where
  /-- 8 bits, Table 19.2 code (19 Table 19.5) -/
  array : Nat := 0
  /-- 16 bits, 4 KiB region (19 Table 19.5) -/
  region : Nat := 0
  /-- corrected errors in 24 h, saturating at 255 (19 Table 19.5) -/
  errs : Nat := 0
  deriving DecidableEq, Repr, Inhabited

/-- Error codes, ageing and the cairn record. (19) -/
structure Rel where
  /-- a cairn record was accepted (19 R450, 03 R79) -/
  restored : Bool := false
  /-- 64 bits (19 Table 19.5) -/
  exportSeq : Nat := 0
  /-- 64 bits, s, restored (19 Table 19.5) -/
  lifeS : Nat := 0
  /-- powered seconds of this boot (19 R451) -/
  bootS : Nat := 0
  /-- restored stress, equivalent seconds (19 Table 19.5) -/
  stress : Nat := 0
  /-- instant of the last stress sample (19 Table 19.3) -/
  stressAt : Option Nat := none
  /-- instant of the last re-plan of AGE_GUARD and the Headland triggers (19 R449) -/
  replanAt : Option Nat := none
  /-- instant of the last canary sample (19 Table 19.3) -/
  sampleAt : Option Nat := none
  /-- instant of each chain's last gain calibration (19 Table 19.4) -/
  gainAt : KMap Nat := []
  /-- CAIRN_READY raised since RUNNING (19 R451) -/
  cairnsTold : Nat := 0
  /-- this boot's stress, 10^-6 equivalent seconds (19 R448) -/
  bootStress : Nat := 0
  /-- restored stress of each canary's region (19 Table 19.5) -/
  region : Vector Nat 64 := Vector.replicate 64 0
  /-- last delay of each canary at nominal, ps (19 Table 19.3) -/
  canaryPs : Vector Nat 64 := Vector.replicate 64 0
  /-- mV (19 Table 19.4) -/
  ageGuard : Nat := 22
  /-- ns, Headland trigger T1 (19 Table 19.4) -/
  t1 : Nat := 2000
  /-- ns, Headland trigger T2 (19 Table 19.4) -/
  t2 : Nat := 1000
  /-- s, gain calibration interval (19 Table 19.4) -/
  gainInt : Nat := 600
  /-- reference gain, 0.01 dB (19 Table 19.5) -/
  chainGain : Vector Int 40 := Vector.replicate 40 0
  /-- tuning word and drift per radio and segment (19 Table 19.3) -/
  synthWord : Vector (Nat × Nat) 9 := Vector.replicate 9 (0, 0)
  /-- trained and last margins per rank, ps (19 Table 19.5) -/
  eye : Vector (List Nat) 4 := Vector.replicate 4 []
  /-- at most 256 (19 R447) -/
  weak : List WeakRegion := []
  /-- corrected errors of the last 24 h: array, region, instant (19 R447) -/
  errs : List (Nat × Nat × Nat) := []
  /-- Table 19.2 arrays and channels (19 R444) -/
  passes : Vector GleanPass 18 := Vector.replicate 18 {}
  /-- corrected words that wait for a free slot: array, word (19 R442) -/
  writeback : List (Nat × Nat) := []
  /-- ternary rows that wait for the rewrite from their shadow (19 R443) -/
  badRows : List Nat := []
  /-- fenced parts, Table 19.1 codes (19 R441) -/
  fenced : List Nat := []
  /-- counters (19 Table 19.8) -/
  ctr : Vector Nat 11 := Vector.replicate 11 0
  deriving DecidableEq, Repr, Inhabited

/-- RFFE command frames (Table 4.11). -/
inductive RffeCmd where
  | reg0Write | regWrite | extWrite | extWriteLong | maskedWrite | regRead | extRead | extReadLong
  deriving DecidableEq, Repr, Inhabited
/-- What leaves the device, as the log `State.out` keeps it, newest first. -/
inductive Output where
  /-- A write to host memory (R32). -/
  | hostWrite (addr : Nat) (bytes : List Byte)
  /-- An MSI-X message: its vector, and the address and data its table entry holds. -/
  | msix (vector addr data : Nat)
  /-- An AVSBus voltage write with commit and its read-back (R458). -/
  | avs (millivolt : Nat)
  /-- An RFFE command on a radio's bus (Table 4.11); `data` is 0 for a read and `mask` 0xFF for an unmasked write. -/
  | rffe (radio bus usid : Nat) (cmd : RffeCmd) (addr data mask : Nat)
  /-- A PPDU at a radio's antenna pins, from its first sample. -/
  | air (radio : Nat) (p : TxCur)
  /-- Its last sample: the ramp-down that begins there, in 0.1 us, and the shape (R94, R95). -/
  | airEnd (radio rampDown shape : Nat)
  /-- A Kennar frame leaves on the ports of a bitmap (Table 12.2): type, destination index (0x3FF a group) and scope, counter,
  and its payload before sealing. -/
  | kennar (ports type dst scope counter : Nat) (payload : List Byte)
  /-- An Ethernet frame leaves on a port, FCS not shown (R377). -/
  | eth (port : Nat) (bytes : List Byte)
  /-- A fallow frame leaves on a port (Table 15.7): TYPE, FLAGS, TARGET, SEQ. -/
  | fallow (port type flags target seq : Nat)
  /-- A verify mPacket leaves on a port; a respond mPacket with `respond` (R380). -/
  | mpacket (port : Nat) (respond : Bool)
  deriving DecidableEq, Repr

/-- The whole device. (00 R12) -/
structure State where
  /-- the model's own: the queue of waiting commands (00 R9) -/
  pending : List Instr := []
  /-- the model's own: ticks of 2 ns (01 Table 1.3) -/
  now : Nat := 0
  /-- the model's own: free values drawn so far (03 Table 3.5) -/
  free : Nat := 0
  /-- the model's own: what left the device, newest first (02 R32) -/
  out : List Output := []
  /-- global registers (02 Table 2.4) -/
  glb : Glb := {}
  /-- host interface (02 R31) -/
  host : HostIf := {}
  /-- host data rings (02 R53) -/
  rings : Rings := {}
  /-- start-up and life cycle (03 R65) -/
  life : Life := {}
  /-- VDD_CORE request (01 R17) -/
  power : Power := {}
  /-- radios A, B, C: front end (04 R472) -/
  fe : Vector RadioFe 3 := feReset
  /-- Headland of each radio (01 R26) -/
  hl : Vector RadioHl 3 := hlReset
  /-- coexistence registers (04 Table 4.15) -/
  coex : Coex := {}
  /-- PHY of each radio (05 R119) -/
  phy : Vector RadioPhy 3 := phyReset
  /-- medium access (07 R145) -/
  mac : Mac := {}
  /-- queues and planners (08 R185) -/
  sched : Sched := {}
  /-- CSI and precoding (10 R239) -/
  bf : Bf := {}
  /-- rope coordination (12 R285) -/
  rope : Rope := {}
  /-- E0, E1 (15) -/
  eth : Vector Port 2 := Vector.replicate 2 {}
  /-- Harrow cluster (09 R213) -/
  harrow : Harrow := {}
  /-- Seeder (11 R263) -/
  seed : Seed := {}
  /-- packet router (14) -/
  router : Router := {}
  /-- cipher engine and key store (16 R392) -/
  sec : Sec := {}
  /-- DDR4 controller (17 R411) -/
  dram : Dram := {}
  /-- wake receiver (06 R134) -/
  wur : Wur := {}
  /-- battery domain (18 R427) -/
  rtc : Rtc := {}
  /-- error codes and ageing (19 R441) -/
  rel : Rel := {}
  /-- time bases (13 R320) -/
  time : TimeSt := {}
  /-- MBX_CMD areas and LC_TOKEN, by BAR0 offset (02 Table 2.8, 03 Table 3.5) -/
  bar : Mem := []
  /-- MP RAM behind the FWL window (03 Table 3.9) -/
  mpRam : Mem := []
  deriving DecidableEq, Repr, Inhabited

/-- Why a run stops. No command of the table ends in a fault; the constructor stands for the one access the spec forbids
and no row makes (a host access of a size R34 drops), so that the type is not empty. Raised by nothing: safe. -/
inductive Fault where
  | badAccess
  deriving DecidableEq, Repr

/-- Why a command has no effect by name. -/
inductive Refusal where
  /-- The command has no meaning in this model yet; raised only by an arm of Dispatch.lean. Safe: nothing can be proved of it. -/
  | notModelled (mnemonic : String)
  deriving DecidableEq, Repr

/-- The machine right after reset: a power-on reset whose wipe is in progress (R65, R66), with nothing commanded. -/
def State.reset : State := {}

end Sys2Proof.Machine
end

