-- ==== Sys2Proof/Machine/Bytes.lean ====
section
/-!
DEFINITION. Bytes, bit fields, sparse tables, the sparse byte memory and indexed registers: the plain helpers that every
family uses. Multi-byte fields are little-endian in registers, descriptors, parameters and completion data (R2, R10), and
big-endian on the wire (R2).
-/
namespace Sys2Proof.Machine
open Sys2Proof

/-- The low byte of a number. -/
def byte (n : Nat) : Byte := BitVec.ofNat 8 n

/-- `k` bytes of `n`, least significant first. -/
def le : (k : Nat) → (n : Nat) → List Byte
  | 0, _ => []
  | k + 1, n => byte n :: le k (n / 256)

/-- `k` bytes of `n`, most significant first. -/
def be (k n : Nat) : List Byte := (le k n).reverse

/-- The number a little-endian byte list spells. -/
def leNat : List Byte → Nat
  | [] => 0
  | b :: r => b.toNat + 256 * leNat r

/-- The number a big-endian byte list spells. -/
def beNat (l : List Byte) : Nat := leNat l.reverse

/-- `n` bytes of `p` from offset `i`, missing bytes read as 0. -/
def slice (p : List Byte) (i n : Nat) : List Byte := (List.range n).map fun k => p.getD (i + k) 0

def u8 (p : List Byte) (i : Nat) : Nat := (p.getD i 0).toNat
def u16 (p : List Byte) (i : Nat) : Nat := leNat (slice p i 2)
def u32 (p : List Byte) (i : Nat) : Nat := leNat (slice p i 4)
def u64 (p : List Byte) (i : Nat) : Nat := leNat (slice p i 8)
def be16 (p : List Byte) (i : Nat) : Nat := beNat (slice p i 2)
def be32 (p : List Byte) (i : Nat) : Nat := beNat (slice p i 4)
def be64 (p : List Byte) (i : Nat) : Nat := beNat (slice p i 8)

/-- Two's complement reading of a `w`-bit number. -/
def sgn (w n : Nat) : Int := if n % 2 ^ w < 2 ^ (w - 1) then (n % 2 ^ w : Nat) else ((n % 2 ^ w : Nat) : Int) - (2 ^ w : Nat)

/-- The `w`-bit two's complement number of an integer. -/
def uns (w : Nat) (i : Int) : Nat := (i % ((2 ^ w : Nat) : Int)).toNat

def i8 (p : List Byte) (i : Nat) : Int := sgn 8 (u8 p i)
def i16 (p : List Byte) (i : Nat) : Int := sgn 16 (u16 p i)
def bei16 (p : List Byte) (i : Nat) : Int := sgn 16 (be16 p i)
def i32 (p : List Byte) (i : Nat) : Int := sgn 32 (u32 p i)

/-- Bits [lo+len-1 : lo] of a number. -/
def bits (n lo len : Nat) : Nat := n / 2 ^ lo % 2 ^ len

/-- Bit `i` of a number. -/
def bit (n i : Nat) : Bool := n / 2 ^ i % 2 == 1

/-- A truth value as a bit at place `i`. -/
def put (b : Bool) (i : Nat) : Nat := if b then 2 ^ i else 0

/-- A bit mask of a list of truth values, the first at place 0. -/
def maskOf : List Bool → Nat
  | [] => 0
  | b :: r => (if b then 1 else 0) + 2 * maskOf r

/-- The number of set bits among the low `w`. -/
def popCount (w n : Nat) : Nat := ((List.range w).filter fun i => bit n i).length

/-- The `n` bytes from offset `i` are all zero (reserved bytes, R3). -/
def zeros (p : List Byte) (i n : Nat) : Bool := (slice p i n).all (· == 0)

/-- A list cut or filled with zeros to `n` bytes. -/
def pad (n : Nat) (l : List Byte) : List Byte := slice l 0 n

/-- An integer cut to a range. -/
def clampI (lo hi x : Int) : Int := if x < lo then lo else if hi < x then hi else x

/-- Division rounding up. -/
def ceilDiv (a b : Nat) : Nat := (a + b - 1) / b

/-! Sparse tables: keys strictly rising. -/

/-- The value a key has. -/
def kget {α : Type} : KMap α → Nat → Option α
  | [], _ => none
  | (k, v) :: r, i => if i = k then some v else kget r i

/-- A key is present. -/
def khas {α : Type} (m : KMap α) (i : Nat) : Bool := (kget m i).isSome

/-- Sets the value of a key. -/
def kset {α : Type} : KMap α → Nat → α → KMap α
  | [], i, a => [(i, a)]
  | (k, v) :: r, i, a =>
    if i < k then (i, a) :: (k, v) :: r
    else if i = k then (i, a) :: r
    else (k, v) :: kset r i a

/-- Removes a key. -/
def kdel {α : Type} (m : KMap α) (i : Nat) : KMap α := m.filter fun p => p.1 != i

/-- Changes the value of a key that is present. -/
def kmod {α : Type} (m : KMap α) (i : Nat) (f : α → α) : KMap α := m.map fun p => if p.1 = i then (p.1, f p.2) else p

/-- The keys present. -/
def kkeys {α : Type} (m : KMap α) : List Nat := m.map (·.1)

/-- The lowest key below `n` that is absent. -/
def kfree {α : Type} (m : KMap α) (n : Nat) : Option Nat := (List.range n).find? fun i => !khas m i

/-! The sparse byte memory: an unlisted byte reads 0, and no zero byte is listed. -/

/-- One byte. -/
def memByte (m : Mem) (a : Nat) : Byte := (kget m a).getD 0

/-- Stores one byte, keeping the canonical form. -/
def memSet (m : Mem) (a : Nat) (b : Byte) : Mem := if b = 0 then kdel m a else kset m a b

/-- `n` bytes from `a`. -/
def memRead (m : Mem) (a n : Nat) : List Byte := (List.range n).map fun i => memByte m (a + i)

/-- Stores bytes from `a`. -/
def memWrite (m : Mem) (a : Nat) : List Byte → Mem
  | [] => m
  | b :: r => memWrite (memSet m a b) (a + 1) r

/-- The keys of a table strictly rise. -/
def ksorted {α : Type} : KMap α → Bool
  | [] => true
  | [_] => true
  | (a, _) :: (b, v) :: r => a < b && ksorted ((b, v) :: r)

/-- The canonical form of a sparse byte memory. -/
def memWf (m : Mem) : Bool := ksorted m && m.all fun p => p.2 != 0

/-! Indexed registers. -/

/-- Register `i` of a bank, its reset default outside the bank. -/
def vget {α : Type} [Inhabited α] {n : Nat} (v : Vector α n) (i : Nat) : α := (v[i]?).getD default

/-- Writes register `i`; outside the bank nothing. -/
def vset {α : Type} {n : Nat} (v : Vector α n) (i : Nat) (a : α) : Vector α n := v.setIfInBounds i a

/-- Changes register `i`; outside the bank nothing. -/
def vmod {α : Type} [Inhabited α] {n : Nat} (v : Vector α n) (i : Nat) (f : α → α) : Vector α n := vset v i (f (vget v i))

/-- Adds to counter `i`. -/
def vadd {n : Nat} (v : Vector Nat n) (i k : Nat) : Vector Nat n := vmod v i (· + k)

/-- Counters as completion data, 8 bytes each in table order. -/
def ctrBytes {n : Nat} (v : Vector Nat n) : List Byte := v.toList.flatMap (le 8)

/-- A radio's number: 0 A, 1 B, 2 C. -/
def rnum (r : Radio) : Nat := match r with | .a => 0 | .b => 1 | .c => 2

end Sys2Proof.Machine
end

