-- ==== Sys2Proof/Machine/Ops.lean ====
section
/-!
DEFINITION. The operations every family shares: what leaves the device, free values, MSI-X messages (R52, R470), ring
entries (R46), events (R49 to R51) and completions (R42, R47).
-/
namespace Sys2Proof.Machine
open Sys2Proof

/-- Something leaves the device. -/
def emit (o : Output) (s : State) : State := { s with out := o :: s.out }

/-- Draws a free value of `w` bits: nothing constrains it. -/
def draw (w : Nat) (s : State) : BitVec w × State := (Config.freeBits w s.free, { s with free := s.free + 1 })

/-- The device works: no wipe runs, PERST_N is high and the supplies are up (R65, R66, R64). -/
def live (s : State) : Bool := !s.life.wipeBusy && s.life.perstN && s.life.mainUp && s.life.aonUp

/-- Builmin runs (Table 2.5), and the MP has not stopped (Table 17.3). -/
def running (s : State) : Bool := live s && s.life.fwState == .running && !s.life.mpStopped

/-- A step that only the working device takes; elsewhere it does not arise and changes nothing. -/
def whenLive (s : State) (f : State → State) : Host.Outcome State Fault Refusal := .next (if live s then f s else s)

/-- A step that Builmin takes. -/
def whenRunning (s : State) (f : State → State) : Host.Outcome State Fault Refusal := .next (if running s then f s else s)

/-! MSI-X. -/

/-- The vector is masked: bit 0 of the fourth word of its table entry, or the Function Mask (PCI Express base specification). -/
def vecMasked (s : State) (v : Nat) : Bool := s.host.pcie.funcMask || (vget s.host.msixTbl (4 * v + 3)).getLsbD 0

/-- Writes and messages leave the endpoint: the link is in L0 and the function in D0. -/
def endpointUp (s : State) : Bool := (match s.host.link with | .l0 _ _ => true | _ => false) && !s.host.pcie.d3hot

/-- What cannot leave now waits in issue order, and makes the endpoint leave L1 (R470). -/
def deferTx (x : HostTx) (s : State) : State :=
  { s with host := { s.host with
      deferred := s.host.deferred ++ [x]
      link := match s.host.link with | .l1 => if s.host.pcie.d3hot then .l1 else .recovery | k => k } }

/-- A write to host memory, in the order the device issues it (R32). -/
def hostWrite (addr : Nat) (b : List Byte) (s : State) : State :=
  if endpointUp s then emit (.hostWrite addr b) s else deferTx (.write addr b) s

/-- The message of a vector leaves: the address and data its table entry holds. -/
def msixOut (v : Nat) (s : State) : State :=
  emit (.msix v ((vget s.host.msixTbl (4 * v)).toNat + 2 ^ 32 * (vget s.host.msixTbl (4 * v + 1)).toNat)
    (vget s.host.msixTbl (4 * v + 2)).toNat) s

/-- A message falls due on a vector (R52, R470): none with MSI-X disabled; pending while the vector is masked; held in
issue order while the link is not in L0. -/
def sendMsix (v : Nat) (s : State) : State :=
  if !s.host.msixEn then s
  else if vecMasked s v then { s with host := { s.host with pba := s.host.pba ||| (1#64 <<< v) } }
  else if endpointUp s then msixOut v s
  else deferTx (.msg v) s

/-- One thing that waited leaves, or waits again. -/
def retryTx (s : State) (x : HostTx) : State :=
  match x with
  | .write a b => hostWrite a b s
  | .msg v => sendMsix v s

/-- What waited for the link leaves in issue order (R470). -/
def flushTx (s : State) : State :=
  if endpointUp s then s.host.deferred.foldl retryTx { s with host := { s.host with deferred := [] } } else s

/-- EVT_ROUTE fields of a source (Table 2.18). -/
def routeVector (s : State) (src : Nat) : Nat := bits (vget s.host.route src).toNat 0 6
def routeCount (s : State) (src : Nat) : Nat := bits (vget s.host.route src).toNat 8 8
def routeTime (s : State) (src : Nat) : Nat := bits (vget s.host.route src).toNat 16 12

/-- The entries of a source that no message has announced become none. -/
def clearUnsig (src : Nat) (s : State) : State := { s with host := { s.host with unsig := vset s.host.unsig src 0 } }

/-- One more entry of a source has been written: the COAL_COUNT-th unsignalled one sends the message (R52). -/
def signalEntry (src : Nat) (s : State) : State :=
  if routeCount s src ≠ 0 ∧ vget s.host.unsig src + 1 ≥ routeCount s src then
    sendMsix (routeVector s src) (clearUnsig src s)
  else { s with host := { s.host with unsig := vadd s.host.unsig src 1 } }

/-! Ring entries in host memory. -/

/-- The phase bit of the entry written when the tail counts `tail` entries since enable: 1 on the first pass (R46). -/
def phaseOf (tail : BitVec 16) (sizeLog : Nat) : Bool := tail.toNat / 2 ^ sizeLog % 2 == 0

/-- Where the entry goes. -/
def entryAddr (base : BitVec 64) (tail : BitVec 16) (sizeLog : Nat) : Nat := base.toNat + 32 * (tail.toNat % 2 ^ sizeLog)

/-- Writes a 32-byte entry, all but the word that holds the phase, and then that word (R46). -/
def writeEntry (addr : Nat) (e : List Byte) (s : State) : State :=
  hostWrite (addr + 4) (slice e 4 4) (hostWrite (addr + 8) (slice e 8 24) (hostWrite addr (slice e 0 4) s))

/-- Unread entries of a ring. -/
def unread (head tail : BitVec 16) : Nat := (tail - head).toNat

/-! Events. -/

/-- A 32-bit saturating count one up. -/
def sat32 (n : Nat) : Nat := if n + 1 ≥ 2 ^ 32 then 2 ^ 32 - 1 else n + 1

/-- The code of an event (Table 2.17). -/
def evCode : EvName → Nat
  | .fwReady => 0x0001 | .fwFault => 0x0002 | .eventsLost => 0x0003 | .cqFull => 0x0004 | .refLost => 0x0005
  | .avsFault => 0x0006 | .thermalWarn => 0x0007 | .hringError => 0x0008
  | .synCal => 0x0101 | .chainMismatch => 0x0102 | .chainDerated => 0x0103 | .chainFallow => 0x0104 | .coexStuck => 0x0105
  | .hlPartial => 0x0301 | .hlStep => 0x0302 | .beaconLost => 0x0303 | .furrowLate => 0x0401
  | .laneFenced => 0x0501 | .jobBudget => 0x0502 | .plogWrap => 0x0601
  | .belayLost => 0x0701 | .leadTakeover => 0x0702 | .ropeRejoined => 0x0703
  | .tbFreeRun => 0x0801 | .ppsInLost => 0x0802 | .excLimited => 0x0901 | .ethLink => 0x0A01 | .ethFallow => 0x0A02
  | .pnLow => 0x0B01 | .keyExhausted => 0x0B02 | .dramRetrain => 0x0C01 | .dramUncorr => 0x0C02
  | .residueFence => 0x0D01 | .arrayUncorr => 0x0D02 | .gleanerEsc => 0x0D03 | .cairnReady => 0x0D04
  | .rtcAlarm => 0x0E01 | .wurMatch => 0x0E81

/-- The severity of an event (Table 2.17): 0 info, 1 warning, 2 error, 3 fatal. -/
def evSev : EvName → Nat
  | .fwReady | .synCal | .plogWrap | .ropeRejoined | .ethLink | .ethFallow | .cairnReady | .rtcAlarm | .wurMatch => 0
  | .fwFault | .refLost => 3
  | .avsFault | .hringError | .chainFallow | .coexStuck | .beaconLost | .laneFenced | .belayLost | .keyExhausted
  | .dramRetrain | .dramUncorr | .residueFence | .arrayUncorr => 2
  | .eventsLost | .cqFull | .thermalWarn | .chainMismatch | .chainDerated | .hlPartial | .hlStep | .furrowLate
  | .jobBudget | .leadTakeover | .tbFreeRun | .ppsInLost | .excLimited | .pnLow | .gleanerEsc => 1

/-- Changes the event ring's registers. -/
def withEvt (f : Evt → Evt) (s : State) : State := { s with host := { s.host with evt := f s.host.evt } }

/-- The event as raised now: its time is TB2's. -/
def mkEvent (n : EvName) (inst : Nat) (data : List Byte) (s : State) : Event :=
  { code := evCode n, inst := inst % 2 ^ 16, sev := evSev n, timeS := (vget s.time.tb 2).sec % 2 ^ 32,
    timeNs := (vget s.time.tb 2).ns, data := pad 16 data }

/-- The 32 bytes of an event entry (Table 2.16). -/
def eventBytes (e : Event) (seq : BitVec 16) (phase : Bool) : List Byte :=
  le 2 e.code ++ le 2 e.inst ++ [byte (put phase 7 + e.sev), 0] ++ le 2 seq.toNat ++ le 4 e.timeS ++ le 4 e.timeNs ++ e.data

/-- The event ring has room for an entry. -/
def evtRoom (s : State) : Bool :=
  s.host.evt.en && unread s.host.evt.head s.host.evt.tail < 2 ^ s.host.evt.sizeLog

/-- Writes one held thing at the tail: SEQ is assigned here, and the source's count of unsignalled entries grows. An EVENTS_LOST entry
carries the time at which it is written and INSTANCE 0 (DESIGN CHOICE, log 80: R49 gives neither). -/
def writeHeld (h : Held) (s : State) : State :=
  let v := s.host.evt
  let e := match h with
    | .ev e => e
    | .lost n => mkEvent .eventsLost 0 (le 4 n) s
  let t := writeEntry (entryAddr v.base v.tail v.sizeLog) (eventBytes e v.seq (phaseOf v.tail v.sizeLog)) s
  signalEntry 0 (withEvt (fun w => { w with tail := w.tail + 1, seq := w.seq + 1 }) t)

/-- A held event is below MIN_SEV as it is to be written (Table 2.15; DEDUCED, log 80: R49 speaks of the raise only). -/
def heldFiltered (h : Held) (s : State) : Bool :=
  match h with
  | .ev e => e.sev < s.host.evt.minSev
  | .lost _ => false

/-- Writes held events in order while the ring has room (R49); one below MIN_SEV is counted and not written. -/
def flushList : List Held → State → List Held × State
  | [], s => ([], s)
  | h :: r, s =>
    if heldFiltered h s then flushList r (withEvt (fun w => { w with filtered := sat32 w.filtered }) s)
    else if evtRoom s then flushList r (writeHeld h s)
    else (h :: r, s)

def flushHeld (s : State) : State :=
  let p := flushList s.host.evt.held s
  withEvt (fun w => { w with held := p.1 }) p.2

/-- One more dropped event is reported by the mark that stands last. -/
def addLost : List Held → List Held
  | [] => [.lost 1]
  | [.lost n] => [.lost (n + 1)]
  | h :: r => h :: addLost r

/-- Events held, marks not counted. -/
def heldEvents (l : List Held) : Nat := (l.filter fun h => match h with | .ev _ => true | .lost _ => false).length

/-- Drops a new event (R49): EVT_LOST, OVERFLOW, and the mark. -/
def dropEvent (s : State) : State :=
  withEvt (fun w => { w with lost := sat32 w.lost, overflow := true, held := addLost w.held }) s

/-- Puts an event that no filter stopped into the ring, or holds it, or drops it (R49, R50). -/
def offerEvent (e : Event) (s : State) : State :=
  if s.host.evt.en then
    let t := flushHeld s
    if t.host.evt.held.isEmpty && evtRoom t then writeHeld (.ev e) t else dropEvent t
  else if heldEvents s.host.evt.held ≥ 64 then dropEvent s
  else withEvt (fun w => { w with held := w.held ++ [.ev e] }) s

/-- A unit raises an event (R49, R51). -/
def raise (n : EvName) (inst : Nat) (data : List Byte) (s : State) : State :=
  if n ≠ .eventsLost ∧ evSev n < s.host.evt.minSev then
    withEvt (fun w => { w with filtered := sat32 w.filtered }) s
  else offerEvent (mkEvent n inst data s) s

/-! Commands and completions. -/

/-- Status codes (Table 2.12). -/
def statusCode : Status → Nat
  | .ok => 0x00 | .accepted => 0x01 | .badOpcode => 0x10 | .badLength => 0x11 | .badParam => 0x12 | .noResource => 0x20
  | .busy => 0x21 | .wrongState => 0x30 | .locked => 0x31 | .fenceConflict => 0x32 | .timeout => 0x40 | .aborted => 0x41
  | .txLate => 0x42 | .hwFault => 0x50 | .authFail => 0x60 | .keyExhausted => 0x61

/-- The mailbox a handle names (Table 2.10). -/
def handleMbx (h : Word) : Nat := h.toNat / 2 ^ 29

/-- Header fields (Table 2.9). -/
def hdrOpcode (r : CmdRec) : Nat := u16 r.hdr 0
def hdrLength (r : CmdRec) : Nat := u16 r.hdr 2
def hdrFlags (r : CmdRec) : Nat := u8 r.hdr 4
def hdrCq (r : CmdRec) : Nat := u8 r.hdr 5
def hdrIndirect (r : CmdRec) : Bool := bit (hdrFlags r) 0

/-- Changes one mailbox. -/
def withMbx (m : Nat) (f : Mailbox → Mailbox) (s : State) : State :=
  { s with host := { s.host with mbx := vmod s.host.mbx m f } }

/-- Changes one completion queue. -/
def withCq (q : Nat) (f : Cq → Cq) (s : State) : State := { s with host := { s.host with cq := vmod s.host.cq q f } }

/-- The completion entry of a command that ends. -/
def mkCompletion (r : CmdRec) (st : Status) (data : List Byte) : Completion :=
  { handle := r.handle, status := st, data := data, tag := slice r.hdr 8 8 }

/-- A completion joins those that its queue is to be written (R47), in the order of completion. -/
def queueCompletion (q : Nat) (c : Completion) (s : State) : State :=
  let t := withCq q (fun w => { w with waiting := w.waiting ++ [{ c with order := s.host.nextOrder }] }) s
  { t with host := { t.host with nextOrder := t.host.nextOrder + 1 } }

/-- Completion data longer than 16 bytes goes to the INDIRECT buffer from offset 0 (R37). -/
def writeData (r : CmdRec) (data : List Byte) (s : State) : State :=
  if data.length > 16 ∧ hdrIndirect r then hostWrite (u64 r.params 0) data s else s

/-- Moves the complete commands at the front of a mailbox to their queues: completion in handle order (R42). -/
def releaseList : List CmdRec → State → List CmdRec × State
  | [], s => ([], s)
  | r :: rest, s =>
    match r.phase with
    | .done st data => releaseList rest (queueCompletion (hdrCq r) (mkCompletion r st data) s)
    | _ => (r :: rest, s)

def release (m : Nat) (s : State) : State :=
  let p := releaseList (vget s.host.mbx m).cmds s
  withMbx m (fun b => { b with cmds := p.1 }) p.2

/-- Sets where a command stands. -/
def setPhase (h : Word) (ph : Phase) (s : State) : State :=
  withMbx (handleMbx h) (fun b => { b with cmds := b.cmds.map fun r => if r.handle = h then { r with phase := ph } else r }) s

/-- The record of an outstanding command that has not completed. -/
def findCmd (h : Word) (s : State) : Option CmdRec := (vget s.host.mbx (handleMbx h)).cmds.find? (·.handle = h)

/-- A command ends with a status and data; its completion leaves when those before it have (R42). -/
def finish (h : Word) (st : Status) (data : List Byte) (s : State) : State :=
  match findCmd h s with
  | none => s
  | some r => release (handleMbx h) (setPhase h (.done st data) (writeData r data s))

/-- Ends a command if one waits. -/
def finishOpt (h : Option Word) (st : Status) (data : List Byte) (s : State) : State :=
  match h with
  | none => s
  | some h => finish h st data s

/-- Commands of a mailbox taken and not yet completed (R41, Table 2.11). -/
def outstanding (m : Nat) (s : State) : Nat :=
  (vget s.host.mbx m).cmds.length +
    (s.host.cq.toList.map fun q => (q.waiting.filter fun c => handleMbx c.handle == m).length).sum

/-- The bytes of a completion entry (Table 2.14). -/
def completionBytes (c : Completion) (phase : Bool) : List Byte :=
  le 4 c.handle.toNat ++ [byte (statusCode c.status), byte (put phase 7)] ++ le 2 c.data.length ++ pad 8 c.tag ++ pad 16 c.data

/-- The queue is enabled and not every entry is unread. -/
def cqRoom (q : Cq) : Bool := q.en && unread q.head q.tail < 2 ^ q.sizeLog

/-- Writes one completion at the tail of an enabled queue with room (R46). -/
def writeCompletion (n : Nat) (c : Completion) (s : State) : State :=
  let q := vget s.host.cq n
  let t := writeEntry (entryAddr q.base q.tail q.sizeLog) (completionBytes c (phaseOf q.tail q.sizeLog)) s
  signalEntry (1 + n) (withCq n (fun w => { w with tail := w.tail + 1 }) t)

/-- A completion's turn has come: none of its mailbox that ended earlier still waits on any queue (R42). -/
def cqTurn (s : State) (c : Completion) : Bool :=
  c.ahead || s.host.cq.toList.all fun q => q.waiting.all fun d =>
    d.ahead || handleMbx d.handle != handleMbx c.handle || c.order ≤ d.order

/-- Writes the first waiting completion whose turn has come, where the queue has room; FULL stays only while a completion
waits (R47). -/
def writeNext (n : Nat) (s : State) : State :=
  let q := vget s.host.cq n
  if !cqRoom q then s
  else
    match q.waiting.find? (cqTurn s) with
    | none => s
    | some c =>
      withCq n (fun w => { w with waiting := w.waiting.erase c, full := w.full && !(w.waiting.erase c).isEmpty })
        (writeCompletion n c s)

/-- Writes waiting completions in order while the queue has room. -/
def drainCq (n : Nat) (s : State) : State :=
  (List.range (vget s.host.cq n).waiting.length).foldl (fun t _ => writeNext n t) s

/-- A completion of an enabled queue first has to wait for space: FULL, and CQ_FULL once an episode (R47). -/
def noteFull (n : Nat) (s : State) : State :=
  let q := vget s.host.cq n
  if q.en && !q.full && !q.waiting.isEmpty && !cqRoom q then raise .cqFull n [] (withCq n (fun w => { w with full := true }) s) else s

/-- Every outstanding command of every mailbox ends with one status and no data, in handle order per mailbox; what was
already built and waits is replaced when `replace` holds (R44, R471). -/
def endMailbox (st : Status) (m : Nat) (s : State) : State :=
  let b := vget s.host.mbx m
  let t := b.cmds.foldl (fun u r => queueCompletion (hdrCq r) (mkCompletion r st []) u) s
  withMbx m (fun b => { b with cmds := [] }) t

/-- The place of a handle among the outstanding ones of its mailbox: the older, the lower (R40). -/
def handleRank (h : Word) (s : State) : Nat :=
  let c := (vget s.host.mbx (handleMbx h)).count
  2 ^ 29 - (c + (2 ^ 29 - 1) - h.toNat % 2 ^ 29) % (2 ^ 29 - 1)

/-- Every completion that waits is replaced by one of this status and no data, to be written in handle order per mailbox: an
ABORT_COMMAND's loses its place ahead (R44). -/
def rewriteWaiting (st : Status) (s : State) : State :=
  { s with host := { s.host with cq := s.host.cq.map fun q =>
      { q with waiting := q.waiting.map fun c => { c with status := st, data := [], ahead := false, order := handleRank c.handle s } } } }

/-! Vector-0 message of an internal reset, and sub-state updates. -/

def withGlb (f : Glb → Glb) (s : State) : State := { s with glb := f s.glb }
def withLife (f : Life → Life) (s : State) : State := { s with life := f s.life }
def withPower (f : Power → Power) (s : State) : State := { s with power := f s.power }
def withPcie (f : Pcie → Pcie) (s : State) : State := { s with host := { s.host with pcie := f s.host.pcie } }
def withHost (f : HostIf → HostIf) (s : State) : State := { s with host := f s.host }
def withHtx (n : Nat) (f : Ring → Ring) (s : State) : State := { s with rings := { s.rings with htx := vmod s.rings.htx n f } }
def withHrx (n : Nat) (f : Ring → Ring) (s : State) : State := { s with rings := { s.rings with hrx := vmod s.rings.hrx n f } }

end Sys2Proof.Machine
end

