-- ==== Sys2Proof/Machine/Queues.lean ====
section
/-!
DEFINITION. Completion of host transmit frames (R53, R55), the per-TID and group queues (R185, R186), drops, and the frames a
discarded furrow returns (R204, R206).
-/
namespace Sys2Proof.Machine
open Sys2Proof

/-! Host transmit frames. -/

/-- Address of a descriptor of a host ring. -/
def descAddr (g : Ring) (i : BitVec 16) : Nat := g.base.toNat + 32 * (i.toNat % 2 ^ g.sizeLog)

/-- Writes STATUS and STAMP of one transmit descriptor. -/
def writeTxStatus (n : Nat) (st : Status) (stamp : Nat) (i : BitVec 16) (s : State) : State :=
  signalEntry (9 + n) (hostWrite (descAddr (vget s.rings.htx n) i + 24)
    (le 4 (2 ^ 31 + 2 ^ 16 * statusCode st) ++ le 4 stamp) s)

/-- The descriptors of the complete frames at the front of a ring. -/
def donePrefix : List TxFrame → Nat × List TxFrame
  | [] => (0, [])
  | f :: r => if f.result.isSome then let p := donePrefix r; (f.ndesc + p.1, p.2) else (0, f :: r)

/-- CONS passes the complete frames (R53). -/
def advanceCons (n : Nat) (s : State) : State :=
  withHtx n (fun g => let p := donePrefix g.inflight
                      { g with inflight := p.2, cons := g.cons + BitVec.ofNat 16 p.1 }) s

/-- A fetched frame of ring `n` completes once with a status and a stamp (R55): the counts of Table 2.24, the descriptors'
STATUS words, and CONS. -/
def completeTx (n id : Nat) (st : Status) (stamp : Nat) (s : State) : State :=
  match (vget s.rings.htx n).inflight.find? (·.id == id) with
  | none => s
  | some f =>
    if f.result.isSome then s
    else
      let s1 := (List.range f.ndesc).foldl (fun t k => writeTxStatus n st stamp (f.first + BitVec.ofNat 16 k) t) s
      let s2 := withHtx n (fun g => { g with
        ctrA := g.ctrA + (if st = .txLate then 1 else 0)
        ctrB := g.ctrB + (if st = .badParam then 1 else 0)
        inflight := g.inflight.map fun x => if x.id == id then { x with result := some (st, stamp) } else x }) s1
      advanceCons n s2

/-- The stamp a host frame carries: nanoseconds of its ring's STAMP_TB, on the launch scale (R321), 0 without TS_REQ. -/
def txStamp (f : Frame) (stamps : List Nat) (s : State) : Nat :=
  match f.ring with
  | some n => if f.tsReq then stamps.getD (vget s.rings.htx n).stampTb.val 0 else 0
  | none => 0

/-- A frame leaves the device or is dropped: a host frame with LAUNCH_EN or TS_REQ completes (R55). -/
def frameDone (f : Frame) (st : Status) (stamps : List Nat) (s : State) : State :=
  match f.ring with
  | some n => completeTx n f.id st (txStamp f stamps s) s
  | none => s

/-- Drops a list of frames with one status. -/
def dropAll (st : Status) (l : List Frame) (s : State) : State := l.foldl (fun t f => frameDone f st [] t) s

/-! Sub-state updates. -/

/-- A time base's count in nanoseconds. -/
def tbTotal (n : Nat) (s : State) : Nat := (vget s.time.tb n).sec * 10 ^ 9 + (vget s.time.tb n).ns

def withMac (f : Mac → Mac) (s : State) : State := { s with mac := f s.mac }
def withRm (r : Nat) (f : RadioMac → RadioMac) (s : State) : State := { s with mac := { s.mac with radio := vmod s.mac.radio r f } }
def withBss (b : Nat) (f : Bss → Bss) (s : State) : State := { s with mac := { s.mac with bss := vmod s.mac.bss b f } }
def withSta (n : Nat) (f : Sta → Sta) (s : State) : State := { s with mac := { s.mac with sta := kmod s.mac.sta n f } }
def withSched (f : Sched → Sched) (s : State) : State := { s with sched := f s.sched }
def withRs (r : Nat) (f : RadioSched → RadioSched) (s : State) : State :=
  { s with sched := { s.sched with radio := vmod s.sched.radio r f } }

/-- Adds to a counter of Table 7.9. -/
def macCount (r i k : Nat) (s : State) : State := withRm r (fun m => { m with ctr := vadd m.ctr i k }) s

/-- Adds to a counter of Table 8.14. -/
def schedCount (r i k : Nat) (s : State) : State := withRs r (fun m => { m with ctr := vadd m.ctr i k }) s

/-! Queues. -/

/-- Table 8.1: the access category of a TID, 0 BK, 1 BE, 2 VI, 3 VO. -/
def acOfTid (t : Nat) : Nat := match t with | 1 | 2 => 0 | 0 | 3 => 1 | 4 | 5 => 2 | _ => 3

/-- TIDs of an access category, the higher first. -/
def tidsOfAc (a : Nat) : List Nat := match a with | 0 => [2, 1] | 1 => [3, 0] | 2 => [5, 4] | _ => [7, 6]

/-- The radio of a BSS index. -/
def bssRadio (b : Nat) : Nat := b / 16

/-- A station has two or more links: an object of the LINK domain (Table 11.1). -/
def multiLink (x : Sta) : Bool := x.mld.isSome && popCount 3 x.links ≥ 2

/-- The Seeder maps the TID to the link on a radio (R187, R266). -/
def tidOnLink (x : Sta) (tid r : Nat) : Bool := bit x.links r && (!multiLink x || bit (vget x.link tid) r)

/-- The first radio a station has a link on that its TID is mapped to. -/
def staRadio (x : Sta) (tid : Nat) : Nat :=
  match (List.range 3).find? (tidOnLink x tid) with
  | some r => r
  | none => ((List.range 3).find? fun r => bit x.links r).getD 0

/-- The BSS of a station's link on a radio: the first byte of the link's block (Table 7.8). -/
def linkBss (x : Sta) (r : Nat) : Nat := u8 (vget x.block r) 0

def tidQueue (q : Nat) (s : State) : List Frame := (kget s.sched.q q).getD []
def groupQueue (q : Nat) (s : State) : List Frame := (kget s.sched.gq q).getD []

/-- Sets a queue; an empty one is not listed. -/
def setTidQueue (q : Nat) (l : List Frame) (s : State) : State :=
  withSched (fun x => { x with q := if l.isEmpty then kdel x.q q else kset x.q q l }) s
def setGroupQueue (q : Nat) (l : List Frame) (s : State) : State :=
  withSched (fun x => { x with gq := if l.isEmpty then kdel x.gq q else kset x.gq q l }) s

/-- A station has traffic of an access category queued. -/
def acQueued (n a : Nat) (s : State) : Bool := (tidsOfAc a).any fun t => khas s.sched.q (8 * n + t)

/-- The lowest of a list, if any. -/
def minOf (l : List Nat) : Option Nat := l.foldl (fun m x => match m with | none => some x | some y => some (min x y)) none

/-- Stations of a BSS. -/
def staOfBss (b : Nat) (s : State) : List (Nat × Sta) :=
  s.mac.sta.filter fun p => bit p.2.links (bssRadio b) && linkBss p.2 (bssRadio b) == b

/-- A downlink MSDU of a low-latency TID was late or lost (R192). -/
def llMiss (r : Nat) (n tid : Nat) (s : State) : State :=
  match kget s.mac.sta n with
  | some x => if vget x.tll tid > 0 then schedCount r 13 1 s else s
  | none => s

/-- An MPDU of an agreement that has a sequence number is dropped: a BlockAckReq is to move the recipient's window (R159). -/
def barDue (q : Nat) (f : Frame) (s : State) : State :=
  match f.sn with
  | none => s
  | some sn => if (kget s.mac.txBa q).any (·.agreed) then withMac (fun m => { m with bar := kset m.bar q ((sn + 1) % 4096, 0) }) s else s

/-! Contention windows (R151). -/

/-- EDCA parameters of a function: the radio's own, or those its upstream access point advertises while frames of the AC wait for it
(R149, R180; DESIGN CHOICE, log 91). -/
def acEdca (r a : Nat) (s : State) : Edca :=
  let m := vget s.mac.radio r
  match m.uplink with
  | some u => if !u.lost && acQueued u.sta a s then (u.edca[a]?).getD (vget m.edca a) else vget m.edca a
  | none => vget m.edca a

def cwMin (e : Edca) : Nat := 2 ^ e.ecwMin - 1
def cwMax (e : Edca) : Nat := 2 ^ e.ecwMax - 1

/-- CW of an AC returns to CWmin, as it does when frames are dropped at their retry limit or lifetime (R151). -/
def cwLow (r a : Nat) (s : State) : State :=
  withRm r (fun m => { m with bo := vmod m.bo a fun b => { b with cw := cwMin (acEdca r a s) } }) s

/-! Drops. -/

/-- A downlink MSDU of a station's TID is dropped: late for its target (R192), its recipient's window to be moved (R159), its host frame
complete. -/
def dropMsdu (r n tid : Nat) (st : Status) (f : Frame) (s : State) : State := frameDone f st [] (barDue (8 * n + tid) f (llMiss r n tid s))

/-- It is dropped at its retry limit (R158). -/
def retryDrop (r n tid : Nat) (f : Frame) (s : State) : State :=
  dropMsdu r n tid .timeout f (cwLow r (acOfTid tid) (macCount r 2 1 s))

/-- It is dropped at its lifetime: TX_LIFETIME_DROP, or PS_EXPIRED for a dozing station (R158). -/
def lifeDrop (r n tid : Nat) (f : Frame) (s : State) : State :=
  let dozing := match kget s.mac.sta n with | some x => x.doze | none => false
  dropMsdu r n tid .timeout f (cwLow r (acOfTid tid) (macCount r (if dozing then 19 else 3) 1 s))

/-- A claimed MSDU that has left its furrow (R206) is dropped and counted as R158, R182 or R186 state: its lifetime ended, its station
was deleted, it was flushed, or the uplink was lost. -/
def dropLost (r n : Nat) (p : Nat × Frame) (s : State) : State :=
  match p.2.lost with
  | some 0 => lifeDrop r n p.1 p.2 s
  | some 1 => dropMsdu r n p.1 .wrongState p.2 (schedCount 0 18 1 s)
  | some 3 => dropMsdu r n p.1 .aborted p.2 (macCount r 24 1 s)
  | _ => dropMsdu r n p.1 .aborted p.2 (schedCount r 17 1 s)

/-- MSDUs go back to the head of the queue they were claimed from (R204); one that has left the furrow is dropped. -/
def unclaim (r : Nat) (queue : Option Nat) (u : FUser) (s : State) : State :=
  u.frames.foldr (fun p t =>
    if p.2.lost.isSome then dropLost r u.sta p t
    else
      match queue with
      | some q => setGroupQueue q (p.2 :: groupQueue q t) t
      | none => setTidQueue (8 * u.sta + p.1) (p.2 :: tidQueue (8 * u.sta + p.1) t) t) s

def unclaimFurrow (r : Nat) (f : Furrow) (s : State) : State := f.users.foldl (fun t u => unclaim r f.queue u t) s

/-- The ready furrow of a radio is discarded (R206): FURROW_DISCARD, and its MSDUs return to the heads of their queues. A
furrow being built starts over. -/
def furrowDrop (r : Nat) (s : State) : State :=
  let k := vget s.sched.radio r
  let s1 := match k.building with
    | some f => withRs r (fun k => { k with building := none }) (unclaimFurrow r f s)
    | none => s
  match k.ready with
  | some f => schedCount r 6 1 (withRs r (fun k => { k with ready := none, discarded := true }) (unclaimFurrow r f s1))
  | none => s1

/-- Marks every MSDU of some TIDs of a station that a furrow claims. -/
def markLeft (n tids why : Nat) (f : Furrow) : Furrow :=
  { f with users := f.users.map fun u =>
      if u.sta = n && f.queue.isNone then
        { u with frames := u.frames.map fun p => if bit tids p.1 && p.2.lost.isNone then (p.1, { p.2 with lost := some why }) else p }
      else u }

/-- A user has left a furrow through MAC_DEL_STA, SCHED_FLUSH_QUEUE or the loss of its uplink (R206, R182). -/
def userLeft (u : FUser) : Bool := !u.uplink && !u.frames.isEmpty && u.frames.all fun p => p.2.lost.any (· ≥ 1)

/-- A station's MSDUs leave the furrows that claim them: a ready furrow that every user has left is discarded. -/
def leaveFurrows (n tids why : Nat) (s : State) : State :=
  (List.range 3).foldl (fun t r =>
    let u := withRs r (fun k => { k with building := k.building.map (markLeft n tids why), ready := k.ready.map (markLeft n tids why) }) t
    match (vget u.sched.radio r).ready with
    | some f => if !f.users.isEmpty && f.users.all userLeft then furrowDrop r u else u
    | none => u) s

end Sys2Proof.Machine
end

