-- ==== Sys2Proof/Machine/SeedBase.lean ====
section
/-!
DEFINITION. The placement log (R283) and the placement of one object (R263), which many units read and write.
-/
namespace Sys2Proof.Machine
open Sys2Proof

def withSeed (f : Seed → Seed) (s : State) : State := { s with seed := f s.seed }

/-- Adds to a counter of Table 11.11. -/
def seedCount (i k : Nat) (s : State) : State := withSeed (fun x => { x with ctr := vadd x.ctr i k }) s

/-- One entry of the placement log (Table 11.6); the oldest of 4,096 is overwritten, and every 4,096th overwrite is told (R283). -/
def logEntry (domain reason fence object old new : Nat) (s : State) : State :=
  let b := vget s.time.tb 2
  let e := le 8 s.seed.seq ++ le 4 b.ns ++ le 4 b.sec ++ [byte domain, byte reason] ++ le 2 fence ++ le 4 object ++ le 4 old ++ le 4 new
  let full := s.seed.log.length ≥ 4096
  let t := withSeed (fun x => { x with log := (e :: x.log).take 4096, seq := x.seq + 1 }) s
  if full then
    let u := seedCount 6 1 t
    if vget u.seed.ctr 6 % 4096 = 0 then raise .plogWrap 0 [] u else u
  else t

/-- A host limit was clipped (R29): kind 0 the user limit, 1 the maximum buffer size. -/
def logClip (kind r sta old new : Nat) (s : State) : State :=
  seedCount 11 1 (logEntry 9 0x07 0xFFFF (2 ^ 30 * kind + 2 ^ 24 * r + sta) old new s)

/-- The key of an object among the placements. -/
def placeKey (domain object : Nat) : Nat := domain * 2 ^ 32 + object

/-- The evaluation period of a domain in ticks of 2 ns, 0 where overloads alone evaluate it (Table 11.1). -/
def evalPeriod (domain : Nat) : Nat :=
  match domain with
  | 0 => 125000000
  | 1 | 7 => 5000000000
  | 5 | 8 => 500000000
  | 6 => 50000000
  | _ => 0

/-- An evaluation of an object falls due: its first, or one on the grid counted from its first (R263). -/
def evalDue (domain object : Nat) (s : State) : Bool :=
  match kget s.seed.evalAt (placeKey domain object) with
  | some t => (s.now - t) % evalPeriod domain == 0
  | none => true

/-- One evaluation of an object: a placement decision, the first of which starts the object's grid (R263). -/
def decideOn (domain object : Nat) (s : State) : State :=
  seedCount 0 1 (if evalPeriod domain = 0 || khas s.seed.evalAt (placeKey domain object) then s
    else withSeed (fun x => { x with evalAt := kset x.evalAt (placeKey domain object) s.now }) s)

def placeOf (domain object : Nat) (s : State) : Option Placed := kget s.seed.place (placeKey domain object)

/-- Its placement, as NEW of Table 11.6. -/
def placedAt (domain object : Nat) (s : State) : Nat :=
  match placeOf domain object s with | some p => p.value | none => 0xFFFFFFFF

/-- The optimisation hold of a domain, in ticks of 2 ns (Table 11.1). -/
def holdTicks (domain : Nat) (s : State) : Nat :=
  match domain with
  | 0 => s.seed.linkHold * 500000
  | 1 => s.seed.chanHold * 500000000
  | 3 => 50000000
  | 5 => 30000000000
  | 7 => s.seed.pitchHold * 500000000
  | 8 => s.seed.steerHold * 500000000
  | _ => 500000000

/-- An optimisation change is held back (R263). -/
def inHold (domain object : Nat) (s : State) : Bool :=
  match placeOf domain object s with | some p => s.now < p.till | none => false

/-- Stores a placement and restarts its hold; no log entry. -/
def setPlace (domain object fence value : Nat) (s : State) : State :=
  let p : Placed := { value := value, last := s.now, till := s.now + holdTicks domain s, fence := fence, blocked := false }
  withSeed (fun x => { x with place := kset x.place (placeKey domain object) p }) s

/-- Changes a placement: logged, counted, and forced changes counted too (R283, Table 11.11). -/
def place (domain reason fence object value : Nat) (forced : Bool) (s : State) : State :=
  seedCount 3 (if forced then 1 else 0) (seedCount 1 1
    (setPlace domain object fence value (logEntry domain reason fence object (placedAt domain object s) value s)))

/-- An object goes: its placement is removed and logged (R283). -/
def unplace (domain object : Nat) (s : State) : State :=
  match placeOf domain object s with
  | none => s
  | some p =>
    seedCount 3 1 (seedCount 1 1 (withSeed (fun x => { x with place := kdel x.place (placeKey domain object), evalAt := kdel x.evalAt (placeKey domain object) })
      (logEntry domain 0x08 0xFFFF object p.value 0xFFFFFFFF s)))

/-- An object has no placement its fences permit (R282): counted and logged once, until that changes. -/
def blockPlace (domain fence object : Nat) (s : State) : State :=
  let p := (placeOf domain object s).getD {}
  if p.blocked then s
  else
    seedCount 5 1 (withSeed (fun x => { x with
        place := kset x.place (placeKey domain object) { p with blocked := true, fence := fence } })
      (logEntry domain 0x04 fence object p.value p.value s))

/-- The placement key of a station's TID in the LINK domain. -/
def linkKey (n tid : Nat) : Nat := n + 2 ^ 16 * tid

/-- MPDUs of a TID that a furrow of radio `r` holds stay on that radio when the TID's mapping leaves it (R169, R206). -/
def bindFurrow (n tid r : Nat) (f : Furrow) : Furrow :=
  { f with users := f.users.map fun u =>
      if u.sta = n && f.queue.isNone then
        { u with frames := u.frames.map fun p => if p.1 = tid then (p.1, { p.2 with bound := some ((p.2.bound).getD r) }) else p }
      else u }

/-- A TID's mapping changes (R169): it applies to MPDUs queued from now on. -/
def setLink (n tid new : Nat) (s : State) : State :=
  let t := withSta n (fun x => { x with link := vset x.link tid new, mapAt := vset x.mapAt tid s.now }) s
  (List.range 3).foldl (fun u r =>
    if bit new r then u
    else withRs r (fun k => { k with building := k.building.map (bindFurrow n tid r), ready := k.ready.map (bindFurrow n tid r)
                                     cur := k.cur.map (bindFurrow n tid r) }) u) t

/-- Changes link sets of a station's TIDs, given as (TID, new set): TIDs that change alike share one log entry (R283). -/
def placeLinks (reason fence n : Nat) (forced : Bool) (l : List (Nat × Nat)) (s : State) : State :=
  let ch := l.map fun p => (placedAt 0 (linkKey n p.1) s, p.2)
  ch.eraseDups.foldl (fun t oc =>
    let tids := l.filter fun p => placedAt 0 (linkKey n p.1) s == oc.1 && p.2 == oc.2
    let u := tids.foldl (fun v p => setLink n p.1 p.2 (setPlace 0 (linkKey n p.1) fence p.2 v)) t
    seedCount 3 (if forced then 1 else 0) (seedCount 1 1
      (logEntry 0 reason fence (n + 2 ^ 16 * (tids.map fun p => 2 ^ p.1).sum) oc.1 oc.2 u))) s

/-- Every placement of a station goes (R283): its link sets, and its serving device. -/
def unplaceSta (n : Nat) (s : State) : State :=
  let held := (List.range 8).filter fun t => (placeOf 0 (linkKey n t) s).isSome
  let vals := (held.map fun t => placedAt 0 (linkKey n t) s).eraseDups
  let t := vals.foldl (fun t v =>
    let tids := held.filter fun i => placedAt 0 (linkKey n i) s == v
    seedCount 3 1 (seedCount 1 1 (logEntry 0 0x08 0xFFFF (n + 2 ^ 16 * (tids.map fun i => 2 ^ i).sum) v 0xFFFFFFFF t))) s
  let keys := held.map fun i => placeKey 0 (linkKey n i)
  unplace 8 n (withSeed (fun x => { x with evalAt := kdel (kdel x.evalAt (placeKey 0 n)) (placeKey 8 n)
                                           place := x.place.filter fun p => !keys.contains p.1 }) t)

end Sys2Proof.Machine
end

