-- ==== Sys2Proof/Machine/HarrowBase.lean ====
section
/-!
DEFINITION. What other units ask of Harrow: its lanes, leases and queued jobs, where the Seeder puts leased slots and job
classes (R234, R235, R274, R275), fencing a lane or a memory (R217, R227, R228), and the fence of a residue-checked part (R441).
-/
namespace Sys2Proof.Machine
open Sys2Proof

/-! The count of fenced parts (Table 19.1). -/

def withRel (f : Rel → Rel) (s : State) : State := { s with rel := f s.rel }

def relCount (i k : Nat) (s : State) : State := withRel (fun x => { x with ctr := vadd x.ctr i k }) s

/-- The unit of a Table 19.1 code, by the first code of its range. -/
def unitOf (code : Nat) : Nat :=
  if code < 0x10 then 0 else if code < 0x18 then 0x10 else if code < 0x1B then 0x18 else if code < 0x1E then 0x1B
  else if code < 0x20 then code else 0x20

def partFenced (code : Nat) (s : State) : Bool := s.rel.fenced.contains code

/-- A part is fenced until reset: RESIDUE_FENCE with the number of parts of its unit now fenced (R441). -/
def fencePart (code : Nat) (s : State) : State :=
  if partFenced code s then s
  else
    let t := relCount 1 1 (withRel (fun x => { x with fenced := x.fenced ++ [code] }) s)
    raise .residueFence code [byte (t.rel.fenced.filter fun c => unitOf c == unitOf code).length] t

/-- An uncorrectable word of an on-chip array (R442). -/
def arrayUncorr (code word : Nat) (s : State) : State := raise .arrayUncorr code (le 4 word) (relCount 3 1 s)

/-- A part's residue check (R441): `mism` 1, a mismatch that its retry clears; 2, one that the retry repeats. -/
def residue (code mism : Nat) (s : State) : State :=
  if mism = 0 || partFenced code s then s
  else let t := relCount 0 1 s
    if mism = 1 then t else fencePart code t

/-! Lanes and leases. -/

def withHarrow (f : Harrow → Harrow) (s : State) : State := { s with harrow := f s.harrow }
def withLane (l : Nat) (f : Lane → Lane) (s : State) : State := withHarrow (fun h => { h with lane := vmod h.lane l f }) s
def withLease (k : Nat) (f : Lease → Lease) (s : State) : State := withHarrow (fun h => { h with lease := kmod h.lease k f }) s
def hcount (i k : Nat) (s : State) : State := withHarrow (fun h => { h with ctr := vadd h.ctr i k }) s
def lane (l : Nat) (s : State) : Lane := vget s.harrow.lane l

/-- Lanes of the RESERVE_LANE fences, as a bitmap. -/
def reservedLanes (s : State) : Nat :=
  s.seed.fences.foldl (fun n p => if p.2.kind = 5 then n ||| u16 p.2.bytes 4 else n) 0

/-- Builmin may use the lane (R274): not fenced whole, not reserved, no leased slot. -/
def laneOwn (l : Nat) (s : State) : Bool := !(lane l s).whole && (lane l s).slot.isNone && !bit (reservedLanes s) l

/-- Unfenced lanes that remain outside reservations and leases. -/
def lanesLeft (s : State) : Nat := ((List.range 16).filter fun l => laneOwn l s).length

/-- Slots all leases hold. -/
def slotsHeld (s : State) : Nat := (s.harrow.lease.map fun p => (p.2.slots.filter (·.isSome)).length).sum

/-- A lane does nothing. -/
def laneIdle (l : Nat) (s : State) : Bool := (lane l s).job.isNone && (lane l s).bjob.isNone

/-- The lanes a leased slot may go to, best first: idle reserved lanes, then the other unfenced lanes, highest index first
(R275). -/
def slotLanes (s : State) : List Nat :=
  let free := (List.range 16).reverse.filter fun l => !(lane l s).whole && (lane l s).slot.isNone
  let res := free.filter fun l => bit (reservedLanes s) l && laneIdle l s
  res ++ free.filter fun l => !res.contains l

/-- OBJECT of a leased slot in the LANE domain (Table 11.6). -/
def slotObject (k n : Nat) : Nat := 0x10 + 4 * k + n

/-- Slot `n` of lease `k` is placed on a lane. -/
def placeSlot (reason k n l : Nat) (forced : Bool) (s : State) : State :=
  let waits := ((kget s.harrow.lease k).map (·.grant.isSome)).getD false
  withLane l (fun x => { x with slot := some (4 * k + n), wiping := waits })
    (withLease k (fun e => { e with slots := e.slots.set n (some l) })
      (place 6 reason 0xFFFF (slotObject k n) (2 ^ l) forced s))

/-- Job-class lane sets drop lanes that no set may hold; a set left empty takes every lane Builmin may use (R274). -/
def fixSets (reason fence : Nat) (forced : Bool) (s : State) : State :=
  (List.range 5).foldl (fun t c =>
    match placeOf 6 c t with
    | none => t
    | some p =>
      let own := maskOf ((List.range 16).map fun l => laneOwn l t)
      let v := if p.value &&& own = 0 then own else p.value &&& own
      if v = p.value then t else place 6 reason fence c v forced t) s

/-- Jobs of a slot that cannot run any more complete with NO_RESOURCE (R235). -/
def dropJobs (k : Nat) (which : Job → Bool) (st : Status) (s : State) : State :=
  match kget s.harrow.lease k with
  | none => s
  | some e =>
    (e.queue.filter which).foldl (fun t j => finish j.handle st [] t)
      (withLease k (fun x => { x with queue := x.queue.filter fun j => !which j }) s)

/-- A slot moves to another unfenced lane if 8 lanes remain for Builmin (R235); `ok` says which lanes serve. None: no lane. -/
def moveSlot (k n : Nat) (ok : Lane → Bool) (s : State) : Option State :=
  match (slotLanes s).find? fun l => ok (lane l s) with
  | none => none
  | some l =>
    let t := match (kget s.harrow.lease k).bind fun e => (e.slots[n]?).getD none with
      | some o => withLane o (fun x => { x with slot := none, wiping := false }) s
      | none => s
    let u := placeSlot 5 k n l true t
    if lanesLeft u < 8 then none else some u

/-- A lease's data: number, slots, and the lane of each slot (Table 9.14). -/
def leaseData (k : Nat) (e : Lease) : List Byte :=
  [byte k, byte e.slots.length] ++ (List.range 4).map (fun n => match (e.slots[n]?).getD none with | some l => byte l | none => 0xFF) ++ [0, 0]

/-- A lease whose lanes are all wiped is granted, or gone (R234). -/
def settleLease (k : Nat) (s : State) : State :=
  match kget s.harrow.lease k with
  | none => s
  | some e =>
    if e.slots.any fun o => match o with | some l => (lane l s).wiping | none => false then s
    else
      match e.grant, e.drop with
      | some h, _ => finish h .ok (leaseData k e) (withLease k (fun x => { x with grant := none }) s)
      | none, some h =>
        let t := (List.range e.slots.length).foldl (fun t n =>
          let u := match (e.slots[n]?).getD none with | some l => withLane l (fun x => { x with slot := none }) t | none => t
          unplace 6 (slotObject k n) u) s
        finish h .ok [] (withHarrow (fun x => { x with lease := kdel x.lease k }) t)
      | none, none => s

/-- A slot whose lane is fenced whole moves, or is withdrawn and its queued jobs complete with NO_RESOURCE (R235). -/
def leaveWhole (l : Nat) (s : State) : State :=
  match (lane l s).slot with
  | none => s
  | some q =>
    let going := ((kget s.harrow.lease (q / 4)).map (·.drop.isSome)).getD false
    let t := match if going then none else moveSlot (q / 4) (q % 4) (fun _ => true) s with
      | some t => t
      | none =>
        dropJobs (q / 4) (·.slot == q % 4) .noResource
          (unplace 6 (slotObject (q / 4) (q % 4)) (withLane l (fun x => { x with slot := none, wiping := false })
            (withLease (q / 4) (fun e => { e with slots := e.slots.set (q % 4) none }) s)))
    settleLease (q / 4) t

/-- A slot whose lane is in fall-back mode and whose queue holds a job without FALLBACK_OK moves to a lane in normal mode, or
those jobs complete with NO_RESOURCE (R235). -/
def leaveFallback (l : Nat) (s : State) : State :=
  match (lane l s).slot with
  | none => s
  | some q =>
    let bad := fun j : Job => j.slot == q % 4 && !j.fallOk
    if !((kget s.harrow.lease (q / 4)).map (·.queue.any bad)).getD false then s
    else
      match moveSlot (q / 4) (q % 4) (fun x => !x.fallback) s with
      | some t => t
      | none => dropJobs (q / 4) bad .noResource s

/-- LANE_FENCED: the cause, and the lane's mode afterwards (R228). -/
def raiseFenced (l cause : Nat) (s : State) : State :=
  let x := lane l s
  raise .laneFenced l [byte cause, byte (if x.whole then 2 else if x.fallback then 1 else 0)] s

/-- The lane's job ends with a fault; faults 1 to 3 have counters (Table 9.15). -/
def endJob (l fault : Nat) (s : State) : State :=
  hcount (match fault with | 3 => 3 | 1 => 4 | _ => 5) (if fault = 1 ∨ fault = 2 ∨ fault = 3 then 1 else 0)
    (withLane l (fun x => { x with phase := .ended fault, job := x.job.map fun j => { j with outSegs := [] } }) s)

/-- A lane is fenced whole: it takes no further jobs until reset, and the Seeder re-places (R227, R229, R235, R284). -/
def fenceWhole (l : Nat) (s : State) : State :=
  if (lane l s).whole then s
  else fixSets 5 0xFFFF true (leaveWhole l (hcount 7 1 (withLane l (fun x => { x with whole := true, fallback := false }) s)))

/-- The lane runs its later jobs in fall-back mode (R217). -/
def enterFallback (l : Nat) (s : State) : State :=
  if (lane l s).fallback || (lane l s).whole then s
  else leaveFallback l (withLane l (fun x => { x with fallback := true }) s)

/-- An uncorrectable error in a memory (R228, R442): 0 X, 1 Y, 2 C. The running job ends with fault 5. -/
def memoryError (l b w : Nat) (s : State) : State :=
  let s := arrayUncorr 7 w s
  let s := if (lane l s).job.isSome || (lane l s).bjob.isSome then endJob l 5 s else s
  let t := if vget (lane l s).memFenced b then s
    else hcount 8 1 (withLane l (fun x => { x with memFenced := vset x.memFenced b true }) s)
  let u := if (lane l t).memFenced.toList.all id then fenceWhole l t else enterFallback l t
  raiseFenced l (1 + b) u

/-- An uncorrectable error in the loop cache (R228, R442): the job goes on from C; fall-back mode when it ends. -/
def cacheError (l w : Nat) (s : State) : State :=
  let s := arrayUncorr 7 w s
  if (lane l s).cacheFenced then s
  else
    let t := hcount 8 1 (withLane l (fun x => { x with cacheFenced := true, cache := [] }) s)
    raiseFenced l 4 (if laneIdle l t then enterFallback l t else t)

/-- A second mismatch of a lane's residues (R227, R441): the lane is fenced whole and its job ends with fault 4. -/
def residueError (l : Nat) (s : State) : State :=
  let s := if (lane l s).job.isSome || (lane l s).bjob.isSome then endJob l 4 s else s
  raiseFenced l 0 (fencePart l (fenceWhole l s))

/-! Queued jobs. -/

/-- A job command waits in a lease's queue. -/
def jobQueued (h : Word) (s : State) : Bool := s.harrow.lease.any fun p => p.2.queue.any fun j => j.handle == h

/-- Takes a job out of its queue. -/
def unqueueJob (h : Word) (s : State) : State :=
  withHarrow (fun x => { x with lease := x.lease.map fun p => (p.1, { p.2 with queue := p.2.queue.filter fun j => j.handle != h }) }) s

end Sys2Proof.Machine
end

