-- ==== Sys2Proof/Machine/Linear.lean ====
section
/-!
DEFINITION. Exact complex matrices: what spec/05_ofdm_phy.md R125, R126 and spec/10_beamforming.md R252 to R258 compute with.
A matrix is a list of rows; a place outside it reads 0.
-/
namespace Sys2Proof.Machine
open Sys2Proof

def cxAdd (a b : Cx) : Cx := (a.1 + b.1, a.2 + b.2)
def cxSub (a b : Cx) : Cx := (a.1 - b.1, a.2 - b.2)
def cxMul (a b : Cx) : Cx := (a.1 * b.1 - a.2 * b.2, a.1 * b.2 + a.2 * b.1)
def cxConj (a : Cx) : Cx := (a.1, -a.2)

/-- The squared magnitude. -/
def cxNorm (a : Cx) : Rat := a.1 * a.1 + a.2 * a.2
def cxScale (k : Rat) (a : Cx) : Cx := (k * a.1, k * a.2)

/-- The reciprocal of a number other than 0. -/
def cxInv (a : Cx) : Cx := cxScale (1 / cxNorm a) (cxConj a)
def cxSum (l : List Cx) : Cx := l.foldl cxAdd (0, 0)

/-- A number with whole parts. -/
def cxOf (p : Int × Int) : Cx := ((p.1 : Rat), (p.2 : Rat))

def ratSum (l : List Rat) : Rat := l.foldl (· + ·) 0

/-- The mean of a list that is not empty. -/
def ratMean (l : List Rat) : Rat := ratSum l / (l.length : Rat)

def matAt (m : CxMat) (i j : Nat) : Cx := (m.getD i []).getD j (0, 0)
def matCols (m : CxMat) : Nat := (m.headD []).length

/-- The n x k matrix of a function of row and column. -/
def matOf (n k : Nat) (f : Nat → Nat → Cx) : CxMat := (List.range n).map fun i => (List.range k).map (f i)

def matMul (a b : CxMat) : CxMat :=
  matOf a.length (matCols b) fun i j => cxSum ((List.range b.length).map fun t => cxMul (matAt a i t) (matAt b t j))
def matAdd (a b : CxMat) : CxMat := matOf a.length (matCols a) fun i j => cxAdd (matAt a i j) (matAt b i j)
def matScale (k : Rat) (a : CxMat) : CxMat := a.map fun r => r.map (cxScale k)
def matTrans (a : CxMat) : CxMat := matOf (matCols a) a.length fun i j => matAt a j i

/-- The conjugate transpose. -/
def matAdj (a : CxMat) : CxMat := matOf (matCols a) a.length fun i j => cxConj (matAt a j i)

/-- The diagonal matrix of a function. -/
def matDiag (n : Nat) (f : Nat → Rat) : CxMat := matOf n n fun i j => if i = j then (f i, 0) else (0, 0)

/-- A row less `k` times another. -/
def rowLess (k : Cx) (a b : List Cx) : List Cx := List.zipWith (fun x y => cxSub x (cxMul k y)) a b

/-- One step of Gauss-Jordan elimination on column `c`: none where no row from `c` on has a pivot. -/
def gaussStep (c : Nat) (m : CxMat) : Option CxMat :=
  match (List.range m.length).find? fun i => c ≤ i && matAt m i c != (0, 0) with
  | none => none
  | some i =>
    let top := m.getD i []
    let piv := top.map (cxMul (cxInv (top.getD c (0, 0))))
    let swapped := (m.set i (m.getD c [])).set c piv
    some ((List.range m.length).map fun j =>
      let row := swapped.getD j []
      if j = c then row else rowLess (row.getD c (0, 0)) row piv)

/-- The square root of a number of at least 0, through its reciprocal root. -/
def ratRoot (x : Rat) : Rat := if x ≤ 0 then 0 else x * Config.rsqrt x

/-- The nearest whole number, halves up. -/
def ratNear (x : Rat) : Int := (x + 1 / 2).floor

/-- The largest magnitude among the parts of a list's numbers. -/
def cxPeak (l : List Cx) : Rat := l.foldl (fun m x => max m (max x.1.abs x.2.abs)) 0

/-- Numbers in 12-bit plus 12-bit values under one scale, the largest part at 2,047 (R250, R256; DESIGN CHOICE, log 92). -/
def quantise (l : List Cx) : Rat × List (Int × Int) :=
  let k := cxPeak l / 2047
  (k, l.map fun x => if k = 0 then (0, 0) else (ratNear (x.1 / k), ratNear (x.2 / k)))

/-- A 12-bit plus 12-bit complex coefficient of 3 bytes. -/
def coefAt (c : List Byte) (i : Nat) : Int × Int :=
  let w := leNat (slice c (3 * i) 3)
  (sgn 12 (w % 4096), sgn 12 (w / 4096))

/-- A coefficient's 3 bytes. -/
def coefBytes (c : Int × Int) : List Byte := le 3 (uns 12 c.1 + 4096 * uns 12 c.2)

/-- The inverse of a square matrix; where it is singular, what the formula leaves open (log 90). -/
def matInv (a : CxMat) : CxMat :=
  let n := a.length
  let wide := (List.range n).map fun i => a.getD i [] ++ ((matDiag n fun _ => 1).getD i [])
  match (List.range n).foldl (fun m c => m.bind (gaussStep c)) (some wide) with
  | some m => m.map (List.drop n)
  | none => Config.singularInv a

end Sys2Proof.Machine
end

