-- ==== Sys2Proof/Machine/Demod.lean ====
section
/-!
DEFINITION. From received samples to decoded bits (spec/05_ofdm_phy.md R125 to R127): channel estimates, noise, the MMSE detector, soft
bits and layered min-sum decoding, in exact arithmetic.
-/
namespace Sys2Proof.Machine
open Sys2Proof

/-! Channel and noise (R125). -/

/-- A real matrix of whole numbers. -/
def signMat (l : List (List Int)) : CxMat := l.map fun r => r.map fun (x : Int) => ((x : Rat), (0 : Rat))

/-- The P matrix of a number of LTF symbols (IEEE 802.11): streams in rows, symbols in columns. -/
def pMatrix (n : Nat) : CxMat :=
  let p4 : List (List Int) := [[1, -1, 1, 1], [1, 1, -1, 1], [1, 1, 1, -1], [-1, 1, 1, 1]]
  match n with
  | 1 => signMat [[1]]
  | 2 => signMat [[1, -1], [1, 1]]
  | 4 => signMat p4
  | 8 => signMat (p4.map (fun r => r ++ r) ++ p4.map fun r => r ++ r.map (- ·))
  | _ => Config.pMatrix6

/-- The estimate of one tone: chains in rows, streams in columns. `ltf` holds each chain's samples of the LTF symbols. -/
def chanEst (streams : Nat) (ltf : List (List (Int × Int))) : CxMat :=
  let y : CxMat := ltf.map fun c => c.map cxOf
  (matMul y (matInv (pMatrix (matCols y)))).map (List.take streams)

/-- The noise variance of a chain: half the mean squared difference of its two L-LTF symbols over the tones (DEDUCED, log 90). -/
def chainNoise (l : List ((Int × Int) × (Int × Int))) : Rat := ratMean (l.map fun p => cxNorm (cxSub (cxOf p.1) (cxOf p.2))) / 2

/-- The mean noise variance of the receiving chains (R126). -/
def noiseVar (lltf : List (List ((Int × Int) × (Int × Int)))) : Rat := ratMean (lltf.map chainNoise)

/-- The LTF samples a symbol's estimate rests on: the preamble's, or the last midamble's before it, one in every `mid` symbols. -/
def ltfFor (mid sym : Nat) (t : ToneObs) : List (List (Int × Int)) :=
  if mid = 0 then t.ltfs.headD [] else t.ltfs.getD (min (sym / mid) (t.ltfs.length - 1)) []

/-- The rotation the pilots of a symbol show, of magnitude 1: common phase, and with it what residual frequency offset has turned
since the estimate. -/
def pilotTurn (streams mid sym : Nat) (pilots : List PilotObs) : Cx :=
  let z := cxSum ((pilots.filter fun p => p.tone.sym == sym).map fun p =>
    let h := chanEst streams (ltfFor mid sym p.tone)
    cxSum (List.zipWith (fun y row => cxMul (cxOf y) (cxConj (cxScale (p.sign : Rat) (cxSum row)))) p.tone.y h))
  if cxNorm z = 0 then (1, 0) else cxScale (Config.rsqrt (cxNorm z)) z

/-! Detection (R126). -/

/-- The inverse of H* H + noise I, which the detector and its SINR share. -/
def mmseCore (noise : Rat) (h : CxMat) : CxMat := matInv (matAdd (matMul (matAdj h) h) (matDiag (matCols h) fun _ => noise))

/-- W = (H* H + noise I)^-1 H*. -/
def mmse (noise : Rat) (h : CxMat) : CxMat := matMul (mmseCore noise h) (matAdj h)

/-- Post-detection SINR of a stream: 1 / (noise times its diagonal entry) - 1. -/
def sinrOf (noise : Rat) (h : CxMat) (stream : Nat) : Rat := 1 / (noise * (matAt (mmseCore noise h) stream stream).1) - 1

/-- Soft bits of one data tone. -/
def toneSoft (w : LdpcWord) (noise : Rat) (t : ToneObs) : List Rat :=
  let h := chanEst w.streams (ltfFor w.mid t.sym t)
  let turn := cxConj (pilotTurn w.streams w.mid t.sym w.pilots)
  let y : CxMat := t.y.map fun p => [cxMul turn (cxOf p)]
  let x := matAt (matMul (mmse noise h) y) w.stream 0
  (Config.demap w.fmt w.mcs x).map (sinrOf noise h w.stream * ·)

/-- Soft bits of a codeword in tone order. -/
def wordSoft (w : LdpcWord) : List Rat := w.tones.flatMap (toneSoft w (noiseVar w.lltf))

/-! Layered min-sum (R127). -/

/-- What a check tells one variable from the others': the product of their signs times the least of their magnitudes. -/
def checkOut (l : List Rat) : Rat :=
  let mag := match l.map Rat.abs with | [] => 0 | a :: r => r.foldl min a
  if (l.filter (· < 0)).length % 2 = 0 then mag else -mag

/-- One layer: a check takes its old messages off its variables, and adds the new ones. -/
def ldpcLayer (row : List Nat) (old llr : List Rat) : List Rat × List Rat :=
  let q := (List.range row.length).map fun i => llr.getD (row.getD i 0) 0 - old.getD i 0
  let new := (List.range row.length).map fun i => checkOut (q.eraseIdx i)
  (new, (List.range row.length).foldl (fun l i => l.set (row.getD i 0) (q.getD i 0 + new.getD i 0)) llr)

/-- One iteration: every layer in order. -/
def ldpcSweep : List (List Nat) → List (List Rat) → List Rat → List (List Rat) × List Rat
  | [], _, llr => ([], llr)
  | row :: rows, old, llr =>
    let p := ldpcLayer row (old.headD []) llr
    let q := ldpcSweep rows (old.drop 1) p.2
    (p.1 :: q.1, q.2)

/-- Every parity check passes on the hard decisions. -/
def parityMet (rows : List (List Nat)) (llr : List Rat) : Bool :=
  rows.all fun row => (row.filter fun i => llr.getD i 0 < 0).length % 2 = 0

/-- Decodes in at most `fuel` iterations, and stops early once all checks pass: the posteriors, and whether they do. -/
def ldpcRun (rows : List (List Nat)) : (fuel : Nat) → List (List Rat) → List Rat → List Rat × Bool
  | 0, _, llr => (llr, parityMet rows llr)
  | n + 1, old, llr =>
    let p := ldpcSweep rows old llr
    if parityMet rows p.2 then (p.2, true) else ldpcRun rows n p.1 p.2

/-- A codeword decoded under an iteration cap: whether its parity is met. -/
def ldpcMet (cap : Nat) (w : LdpcWord) : Bool := (ldpcRun (Config.ldpcRows w.code) cap [] (Config.ldpcInput w.code (wordSoft w))).2

end Sys2Proof.Machine
end

