-- ==== Sys2Proof/Machine/Headland.lean ====
section
/-!
DEFINITION. VDD_CORE requests over AVSBus (R17, R18, R458) and the Headland (R26 to R30).
-/
namespace Sys2Proof.Machine
open Sys2Proof

/-- The VDD_CORE request: canary part plus Headland offset, at most 880 mV (R17, R30). -/
def planRequest (s : State) : State :=
  withPower (fun p => { p with request := min 880 (p.canaryMv + p.hlOffset) }) s

/-- A request is made: a voltage write with commit (R458); none in the 1 s pause of an AVS fault (R18). -/
def avsRequest (s : State) : State :=
  let t := planRequest s
  if t.glb.avsPause then t else emit (.avs t.power.request) (withPower (fun p => { p with writePend := true, writeAt := s.now }) t)

/-- CANARY_REPLAN (R17, Table 19.4): the canaries ask for `canary` mV; AGE_GUARD is added, within 620 to 880 mV. -/
def canaryReplan (canary : Nat) (s : State) : State :=
  avsRequest (withPower (fun p => { p with canaryAsk := canary, canaryMv := max 620 (min 880 (canary + s.rel.ageGuard)) }) s)

def execCanaryReplan (canary : Nat) (s : State) : Host.Outcome State Fault Refusal := whenRunning s (canaryReplan canary)

/-- AVS_FAULT (R18): a write unanswered for 1 ms starts a 1 s pause, and raises AVS_FAULT at the start of a fault only. -/
def avsFault (s : State) : State :=
  if !s.power.writePend || s.now < s.power.writeAt + 500000 then s
  else
    let t := withPower (fun p => { p with writePend := false, pauseAt := s.power.writeAt + 500000 }) (withGlb (fun g => { g with avsFault := true, avsPause := true }) s)
    if s.glb.avsFault then t else raise .avsFault 0 [] t

def execAvsFault (s : State) : Host.Outcome State Fault Refusal := whenLive s avsFault

/-- AVS_PAUSE_END (R18): 1 s after the pause began, which is the end of the unanswered 1 ms. -/
def avsPauseEnd (s : State) : State :=
  if s.now < s.power.pauseAt + 500000000 then s else withGlb (fun g => { g with avsPause := false }) s

def execAvsPauseEnd (s : State) : Host.Outcome State Fault Refusal := whenLive s avsPauseEnd

/-- AVS_ACK (R18, R458): the write is acknowledged and the voltage read back; a fault ends. -/
def avsAck (readback : Nat) (s : State) : State :=
  if !s.power.writePend then s
  else withPower (fun p => { p with writePend := false, readback := readback }) (withGlb (fun g => { g with avsFault := false }) s)

def execAvsAck (readback : Nat) (s : State) : Host.Outcome State Fault Refusal := whenLive s (avsAck readback)

/-- What is done once per `period` ticks is due: it was last done at `last`, or not yet. -/
def periodDue (last : Option Nat) (period now : Nat) : Bool := match last with | some t => t + period ≤ now | none => true

/-- CANARY_SAMPLE (Table 19.3): the 64 delay canaries are read, every 1 ms. -/
def canarySample (delays : List Nat) (s : State) : State :=
  if !periodDue s.rel.sampleAt 500000 s.now then s
  else { s with rel := { s.rel with
    canaryPs := Vector.ofFn fun i => delays.getD i.val (vget s.rel.canaryPs i.val), sampleAt := some s.now } }

def execCanarySample (delays : List Nat) (s : State) : Host.Outcome State Fault Refusal := whenLive s (canarySample delays)

/-! The Headland. -/

def withHl (r : Nat) (f : RadioHl → RadioHl) (s : State) : State := { s with hl := vmod s.hl r f }

/-- Insertion into a rising list, and the sorted list. -/
def insertNat (a : Nat) : List Nat → List Nat
  | [] => [a]
  | b :: r => if a ≤ b then a :: b :: r else b :: insertNat a r

def sortNat (l : List Nat) : List Nat := l.foldr insertNat []

/-- P1 (R26): the k-th smallest of the n slacks held, k = ceil(41 n / 4096); none before the first response. -/
def p1Of (l : List Nat) : Option Nat :=
  if l.isEmpty then none else (sortNat l)[ceilDiv (41 * l.length) 4096 - 1]?

/-- The next lower Headland user limit (Table 1.7, step 3). -/
def userNext (r n : Nat) : Nat :=
  match r, n with
  | 0, 18 => 9 | 0, 9 => 4 | 1, 74 => 37 | 1, 37 => 18 | 2, 148 => 74 | 2, 74 => 37
  | _, n => n

/-- The next higher one. -/
def userPrev (r n : Nat) : Nat :=
  match r, n with
  | 0, 9 => 18 | 0, 4 => 9 | 1, 37 => 74 | 1, 18 => 37 | 2, 74 => 148 | 2, 37 => 74
  | _, n => n

/-- The user limit at reset. -/
def userTop (r : Nat) : Nat := match r with | 0 => 18 | 1 => 74 | _ => 148

/-- Step 2's limits. -/
def baNext (n : Nat) : Nat := if n > 256 then 256 else 64
def baPrev (n : Nat) : Nat := if n < 256 then 256 else 1024

/-- HL_STEP (R28). -/
def raiseStep (inst step undo value by_ : Nat) (s : State) : State :=
  raise .hlStep inst ([byte step, byte undo] ++ le 2 value ++ [byte by_]) s

/-- Step 1 is exhausted (Table 1.7). -/
def step1Done (s : State) : Bool := s.power.hlOffset ≥ 80 || s.power.request ≥ 880 || s.glb.avsFault

/-- Bytes of the smallest A-MPDU subframe an uplink RU could be filled with: a QoS Null's 30 bytes and its delimiter, in units of 4
(IEEE 802.11). R27 gives no size: with it a UL Length allows no more MPDUs than the limit, whatever their size (DESIGN CHOICE, log 90). -/
def leastSubframe : Nat := 36

/-- The most bytes a triggered user may be given (R27 step 2): none is no limit. -/
def ulCap (h : RadioHl) : Option Nat := if h.baLimit < 1024 then some (h.baLimit * leastSubframe) else none

/-- A furrow exceeds the Headland limits of its radio (R29): the users of a DL_MU element or a trigger (R198), or the size of an uplink A-MPDU. -/
def overLimits (h : RadioHl) (f : Furrow) : Bool :=
  (List.range 8).any (fun i => (match f.elems[i]? with | some e => e.code == 2 || (4 ≤ e.code && e.code ≤ 6) | none => false) &&
      (f.users.filter (·.elem == i)).length > h.userLimit) ||
    (match ulCap h with | some n => f.users.any fun u => u.uplink && u.bytes > n | none => false)

/-- A ready furrow that exceeds a limit a step lowered is discarded (R206). -/
def hlDiscard (r : Nat) (s : State) : State :=
  match (vget s.sched.radio r).ready with
  | some f => if overLimits (vget s.hl r) f then furrowDrop r s else s
  | none => s

/-- One trigger on a radio (R27): at most one increment of the first step that is not exhausted. `p1` is the value of an
evaluation that falls on this response, `part` that the response was partial. -/
def hlTrigger (r : Nat) (p1 : Option Nat) (part : Bool) (s : State) : State :=
  let below (t : Nat) : Bool := part || (match p1 with | some p => p < t | none => false)
  let h := vget s.hl r
  if !step1Done s then
    let due := match s.power.step1At with | some t => s.now - t ≥ 500000 | none => true
    if below s.rel.t1 && due then
      let t := withPower (fun p => { p with hlOffset := min 80 (p.hlOffset + 10), step1At := some s.now }) s
      raiseStep 3 1 0 t.power.hlOffset r (avsRequest t)
    else s
  else if h.baLimit > 64 then
    if below s.rel.t2 then raiseStep r 2 0 (baNext h.baLimit) 0xFF (hlDiscard r (withHl r (fun h => { h with baLimit := baNext h.baLimit }) s)) else s
  else if userNext r h.userLimit ≠ h.userLimit then
    if below s.rel.t2 then
      raiseStep r 3 0 (userNext r h.userLimit) 0xFF (hlDiscard r (withHl r (fun h => { h with userLimit := userNext r h.userLimit }) s))
    else s
  else s

/-- P1 is above 3.0 us (R28). -/
def p1Above (p : Option Nat) : Bool := match p with | some p => p > 3000 | none => false

/-- Evaluates P1 of a radio: both counts restart (R26), and the 30 s of R28 where P1 was not above 3.0 us before. -/
def evalP1 (r : Nat) (s : State) : State :=
  withHl r (fun h => { h with
    p1 := p1Of h.slacks, since := 0, evals := h.evals + 1
    goodAt := if h.p1.isNone || p1Above h.p1 && p1Above (p1Of h.slacks) then h.goodAt else s.now }) s

/-- A response of a radio with its slack (R26): the first one and every 256th evaluate P1. -/
def hlResponse (r slack : Nat) (part : Bool) (s : State) : State :=
  let t := withHl r (fun h => { h with slacks := (slack :: h.slacks).take 4096, since := h.since + 1 }) s
  let h := vget t.hl r
  if h.evals = 0 ∨ h.since ≥ 256 then
    let u := evalP1 r t
    hlTrigger r (vget u.hl r).p1 part u
  else if part then hlTrigger r none true t else t

/-- HL_EVALUATE (R26): 10 ms after the last evaluation; a radio with no response has no P1. -/
def hlEvaluate (r : Nat) (s : State) : State :=
  if (vget s.hl r).evals = 0 then s
  else
    let u := evalP1 r s
    hlTrigger r (vget u.hl r).p1 false u

def execHlEvaluate (r : Radio) (s : State) : Host.Outcome State Fault Refusal := whenLive s (hlEvaluate (rnum r))

/-- 30 s have passed since P1 of the radio rose above 3.0 us or a step was undone (R28). -/
def goodLong (s : State) (r : Nat) : Bool := (vget s.hl r).goodAt + 15000000000 ≤ s.now

/-- P1 of the radio has stayed above 3.0 us for 30 s (R28). -/
def p1Good (s : State) (r : Nat) : Bool := p1Above (vget s.hl r).p1 && goodLong s r

/-- So it has for the undo of step 1, for which a radio without P1 counts as above 3.0 us (R26). -/
def p1Good1 (s : State) (r : Nat) : Bool := ((vget s.hl r).p1.isNone || p1Above (vget s.hl r).p1) && goodLong s r

/-- Steps 2 and 3 are undone on a radio. -/
def hlClear (s : State) (r : Nat) : Bool := (vget s.hl r).baLimit ≥ 1024 && (vget s.hl r).userLimit ≥ userTop r

/-- HL_UNDO (R28): P1 has stayed above 3.0 us for 30 s, and one increment of the last step taken is undone: step 3 or 2 of the radio,
or, with both undone everywhere, step 1, for which the condition holds on every radio. The 30 s then count again. -/
def hlUndo (r : Nat) (s : State) : State :=
  let h := vget s.hl r
  if !hlClear s r then
    if !p1Good s r then s
    else if h.userLimit < userTop r then
      raiseStep r 3 1 (userPrev r h.userLimit) 0xFF (withHl r (fun h => { h with userLimit := userPrev r h.userLimit, goodAt := s.now }) s)
    else raiseStep r 2 1 (baPrev h.baLimit) 0xFF (withHl r (fun h => { h with baLimit := baPrev h.baLimit, goodAt := s.now }) s)
  else if s.power.hlOffset > 0 ∧ (List.range 3).all (fun q => p1Good1 s q && hlClear s q) = true then
    let t := withPower (fun p => { p with hlOffset := p.hlOffset - 5 }) { s with hl := s.hl.map fun h => { h with goodAt := s.now } }
    raiseStep 3 1 1 t.power.hlOffset 0xFF (avsRequest t)
  else s

def execHlUndo (r : Radio) (s : State) : Host.Outcome State Fault Refusal := whenLive s (hlUndo (rnum r))

end Sys2Proof.Machine
end

