-- ==== Sys2Proof/Machine/BfBase.lean ====
section
/-!
DEFINITION. Radio geometry (Tables 4.1, 4.5, 4.20), active chains (R104, R239), and what ends the validity of channel records,
precoders and reciprocity calibration (R248, R253, Table 10.4).
-/
namespace Sys2Proof.Machine
open Sys2Proof

def withFe (r : Nat) (f : RadioFe → RadioFe) (s : State) : State := { s with fe := vmod s.fe r f }

/-- Adds 1 to a counter of Table 4.22. -/
def feCount (r i : Nat) (s : State) : State := withFe r (fun e => { e with ctr := vadd e.ctr i 1 }) s

/-- Chains of a radio (Table 4.1). -/
def chainCount (r : Nat) : Nat := if r = 0 then 8 else 16

/-- Bandwidth in MHz (Table 4.20). -/
def bwMhz (bw : Nat) : Nat := 20 * 2 ^ bw

/-- The calibration segment of a centre frequency (Table 4.5). -/
def segOf (r centre : Nat) : Nat :=
  if r = 0 then 0 else if centre < 5490 then 0 else if centre < 5925 then 1 else if centre < 6525 then 2 else 3

/-- Segments of a radio. -/
def segCountOf (r : Nat) : Nat := if r = 0 then 1 else 4

/-- The segment in use. -/
def segUse (r : Nat) (e : RadioFe) : Nat := segOf r e.centre

/-- The chain is counted out (R101, R103, R449). -/
def chainOut (c : Chain) : Bool := !c.hostEn || c.st == .fallow || c.st == .fallowAge

/-- Chains that are not fallow (R104). -/
def liveChains (r : Nat) (s : State) : Nat :=
  (((vget s.fe r).chains.toList.take (chainCount r)).filter fun c => !chainOut c).length

/-- Every chain of the radio counted out, or its fallback engine fenced (Table 19.1). -/
def radioOut (r : Nat) (s : State) : Bool := liveChains r s == 0 || s.rel.fenced.contains (0x1B + r)

/-- Mismatch derating in 0.5 dB units (Table 4.13), and with the ageing derating (R103). -/
def mismatchDb (c : Chain) : Nat := match c.st with | .derated3 => 6 | .derated6 => 12 | _ => 0
def totalDerate (c : Chain) : Nat := mismatchDb c + c.ageDerate

/-- The set of active chains, bit per chain. -/
def chainMask (r : Nat) (s : State) : Nat := maskOf (((vget s.fe r).chains.toList.take (chainCount r)).map fun c => !chainOut c)

/-- The lowest-numbered member of a bit set of 16: the reference chain (R247). -/
def lowestBit (m : Nat) : Option Nat := (List.range 16).find? (bit m)

/-- A stamp of a time base at a unit with a correction in 2^-16 ns, in 2^-16 ns (R332, R333). -/
def stamp16 (n : Nat) (corr : Int) (s : State) : Int := (tbTotal n s * 65536 + (vget s.time.tb n).frac : Nat) + corr

/-- The time base that holds a role. -/
def tbOfRole (r : TbRole) (s : State) : Option Nat := (List.range 4).find? fun n => (vget s.time.tb n).role == r

/-- Rope time in ns: the time base in the ROPE role, TB1 by default (R308). -/
def ropeNs (s : State) : Nat := tbTotal ((tbOfRole .rope s).getD 1) s

/-- A belay interval and a coordination slot in ns. -/
def belayNs : Nat := 102400000
def slotNs : Nat := 4096000

/-- The coordination slot of this instant (R312). -/
def slotNow (s : State) : Nat := ropeNs s / slotNs

/-- Joined: a member or the lead. -/
def joined (s : State) : Bool := s.rope.role == .member || s.rope.role == .lead

/-- A member's roster entry and its pitch, 0xFFFF for none. -/
def memberOf (i : Nat) (s : State) : Option Member := kget s.rope.roster i
def pitchOf (i : Nat) (s : State) : Nat := match memberOf i s with | some m => m.pitch | none => 0xFFFF
def myPitch (s : State) : Nat := pitchOf s.rope.index s

/-- Coordinated mode (R285). -/
def coordMode (s : State) : Bool := joined s && myPitch s != 0xFFFF && !s.rope.lost

/-! TSF (R335). -/

/-- The BSS whose TSF a BSS uses: a member of a multiple-BSSID set shares the transmitting BSS's. -/
def tsfBss (b : Nat) (s : State) : Nat := ((vget s.mac.bss b).setTx).getD b

/-- TSF of a BSS in microseconds. -/
def tsfOf (b : Nat) (s : State) : Nat :=
  let x := vget s.mac.bss (tsfBss b s)
  (tbTotal x.tsfTb s / 1000 + x.tsfOffset.toNat) % 2 ^ 64

/-- The same in nanoseconds. -/
def tsfNs (b : Nat) (s : State) : Nat :=
  let x := vget s.mac.bss (tsfBss b s)
  (tbTotal x.tsfTb s + 1000 * x.tsfOffset.toNat) % (1000 * 2 ^ 64)

/-- Corrected stamps of the four time bases, S x 10^9 + NS: units 0, 1 are E0, E1 and 2 to 4 radios A to C. -/
def stampIn (unit : Nat) (s : State) : List Nat :=
  (List.range 4).map fun n => (stamp16 n (-(vget s.time.asymIn unit)) s / 65536).toNat
def stampOut (unit : Nat) (s : State) : List Nat :=
  (List.range 4).map fun n => (stamp16 n (vget s.time.asymOut unit) s / 65536).toNat

def withBf (f : Bf → Bf) (s : State) : State := { s with bf := f s.bf }
def withRb (r : Nat) (f : RadioBf → RadioBf) (s : State) : State := { s with bf := { s.bf with radio := vmod s.bf.radio r f } }

/-- Adds to a counter of Table 10.8. -/
def bfCount (r i k : Nat) (s : State) : State := withRb r (fun b => { b with ctr := vadd b.ctr i k }) s

/-- The record's age limit in ns (R253). -/
def csiAge (r : Nat) (c : Csi) (s : State) : Nat := vget (vget s.bf.radio r).ages c.cls * 10 ^ 6

/-- A record is valid at an instant of TB2, in [capture, capture + age), unless struck (R253). -/
def csiValidAt (r : Nat) (c : Csi) (t : Nat) (s : State) : Bool :=
  !c.struck && c.capS * 10 ^ 9 + c.capNs ≤ t && t < c.capS * 10 ^ 9 + c.capNs + csiAge r c s

def csiValid (r : Nat) (c : Csi) (s : State) : Bool := csiValidAt r c (tbTotal 2 s) s

/-- A station's reciprocity record that is valid `ahead` ns from now, or its explicit record that is (R241, R253). -/
def csiForAt (r n rank ahead : Nat) (s : State) : Option Csi :=
  let ok (c : Csi) : Bool := csiValidAt r c (tbTotal 2 s + ahead) s
  match (kget (vget s.bf.recip r) n).filter fun c => ok c && !(vget s.bf.radio r).stale && rank ≤ c.rank with
  | some c => some c
  | none => (kget (vget s.bf.explicit r) n).filter ok

/-- Such a record now. -/
def csiFor (r n rank : Nat) (s : State) : Option Csi := csiForAt r n rank 0 s

/-- Strikes records. -/
def strikeMap (m : KMap Csi) : KMap Csi := m.map fun p => (p.1, { p.2 with struck := true })

def strikeGroups (r : Nat) (p : Group → Bool) (s : State) : State :=
  withRb r (fun b => { b with groups := b.groups.map fun g => if p g.2 then (g.1, { g.2 with struck := true }) else g }) s

/-- A calibration becomes pending, or stays so (R248). -/
def pendRecip (s : State) (b : RadioBf) : RadioBf :=
  { b with pending := b.reciprocity, pendAt := if b.pending then b.pendAt else s.now }

/-- Reciprocity calibration becomes stale and pending (R248): what was built from reciprocity records is invalid. -/
def recipStale (r : Nat) (s : State) : State :=
  strikeGroups r (·.recip) (withRb r (fun b => pendRecip s { b with stale := true }) s)

/-- The precoders of the radio's furrows end (Table 10.4, rows 1 and 2). -/
def strikePre (r : Nat) (s : State) : State :=
  let dead (o : Option Furrow) : Option Furrow := o.map fun f => { f with pre := f.pre.map fun p => { p with struck := true } }
  withRs r (fun k => { k with building := dead k.building, ready := dead k.ready }) s

/-- The rows of chains that are not in a set leave a record (Table 10.4). -/
def dropRows (mask : Nat) (c : Csi) : Csi :=
  let own := (List.range 16).filter (bit c.chains)
  let kept := (List.range own.length).filter fun i => bit mask (own.getD i 0)
  if kept.length = own.length then c
  else
    { c with
      rows := kept.length, chains := Nat.land c.chains mask
      coef := (List.range c.tones).flatMap fun g => kept.flatMap fun i => slice c.coef (3 * c.rank * (g * c.rows + i)) (3 * c.rank) }

/-- Every record, precoder and group of the radio ends (Table 10.4, rows 1 and 2). -/
def strikeAll (r : Nat) (s : State) : State :=
  recipStale r (strikePre r (strikeGroups r (fun _ => true) (withBf (fun b => { b with
    explicit := vmod b.explicit r strikeMap, recip := vmod b.recip r strikeMap
    overheard := vmod b.overheard r fun l => l.map fun c => { c with struck := true } }) s)))

/-- A channel change (Table 10.4, R248). -/
def bfChannel (r : Nat) (s : State) : State := strikeAll r s

/-- The active chain set changed (Table 10.4, R239): reciprocity and overheard records lose their fallow rows, explicit records and precoders end; a chain becoming active or a new
reference chain makes calibration stale (R248). -/
def bfChains (r : Nat) (s : State) : State :=
  let old := (vget s.bf.radio r).chainSet
  let new := chainMask r s
  if new = old then s
  else
    let t := strikeGroups r (fun _ => true) (withBf (fun b => { b with
        explicit := vmod b.explicit r strikeMap, recip := vmod b.recip r fun m => m.map fun p => (p.1, dropRows new p.2)
        overheard := vmod b.overheard r fun l => l.map (dropRows new) })
      (withRb r (fun b => { b with chainSet := new }) s))
    if (List.range 16).any (fun i => bit new i && !bit old i) || lowestBit new != lowestBit old then recipStale r t else t

/-- The chain set of a radio changed (R104, R206). -/
def furrowDiscard (r : Nat) (s : State) : State := bfChains r (furrowDrop r s)

/-- A segment of the radio in use was calibrated (Table 10.4, R248). -/
def recipRepeat (r : Nat) (s : State) : State := strikeAll r s

/-- The radio goes to OFF: the BF_RECALIBRATE that wait end (R473). -/
def recipOff (r : Nat) (s : State) : State :=
  (vget s.bf.radio r).cmds.foldl (fun t h => finish h .aborted [] t)
    (withRb r (fun b => { b with cmds := [], running := false, forced := false }) s)

end Sys2Proof.Machine
end

