-- ==== Sys2Proof/Machine/Candidates.lean ====
section
/-!
DEFINITION. Which traffic is eligible on a radio (R187 with R169, R170, R176, R179, R201), the activity of flows and BSSs (R189), and the
queues' tails (R186).
-/
namespace Sys2Proof.Machine
open Sys2Proof

/-! Power save (R176, R179). -/

/-- A span of `dur` ns from now lies wholly inside the delivery window [S + G, E - G) of a service period. -/
def inWindowSp (p : Sp) (dur : Nat) (s : State) : Bool :=
  1000 * p.start + p.guard ≤ tsfNs p.bss s && tsfNs p.bss s + dur + p.guard ≤ 1000 * (p.start + p.len) &&
    tsfNs p.bss s + p.guard < 1000 * (p.start + p.len)

/-- It does for the station's present service period. -/
def inDelivery (x : Sta) (dur : Nat) (s : State) : Bool := x.sp.any fun p => inWindowSp p dur s

/-- Now lies in the listen window [S - G, E + G) of the station's present service period. -/
def inListen (x : Sta) (s : State) : Bool :=
  x.sp.any fun p => 1000 * p.start ≤ tsfNs p.bss s + p.guard && tsfNs p.bss s < 1000 * (p.start + p.len) + p.guard

/-- A TID may be sent to the station: it is awake, in its delivery window, or has asked for delivery of the AC. -/
def mayDeliver (n tid : Nat) (x : Sta) (s : State) : Bool :=
  !x.doze || inDelivery x 0 s || (kget s.mac.psReq n).any fun p => bit p.1 (acOfTid tid)

/-- The station stands for an upstream access point whose link is lost (R182). -/
def uplinkLost (n : Nat) (s : State) : Bool :=
  (List.range 3).any fun r => match (vget s.mac.radio r).uplink with | some u => u.sta == n && u.lost | none => false

/-! Links (R169). -/

/-- Frames of a station's TID that a furrow holds. -/
def furrowTid (n tid : Nat) (f : Option Furrow) : List Frame :=
  match f with
  | some f => if f.queue.isSome then [] else
      ((f.users.filter fun u => u.sta == n).flatMap fun u => u.frames.filter fun p => p.1 == tid).map (·.2)
  | none => []

/-- The radio on which a TID stays after a change of mapping, for MPDUs that were in a furrow then. -/
def stayOn (n tid : Nat) (s : State) : Option Nat :=
  (tidQueue (8 * n + tid) s ++ (List.range 3).flatMap fun r =>
    let k := vget s.sched.radio r
    furrowTid n tid k.building ++ furrowTid n tid k.ready ++ furrowTid n tid k.cur).findSome? (·.bound)

/-- A TID is served on a radio: on the old link until the last MPDU bound to it is done, then where the Seeder maps it. -/
def linkServes (n tid : Nat) (x : Sta) (r : Nat) (s : State) : Bool :=
  match stayOn n tid s with
  | some q => bit x.links r && q == r
  | none => tidOnLink x tid r

/-- An MPDU may be claimed on a radio: not one queued after a change of mapping on the link the TID has left. -/
def frameServes (tid : Nat) (x : Sta) (r : Nat) (f : Frame) : Bool := tidOnLink x tid r || f.bound == some r || f.arrived < vget x.mapAt tid

/-! Hold-off (R170). -/

/-- A radio's present exchange is with the station: a furrow of it serves it, or a PPDU for it is on the air or awaits its response. -/
def exchangesWith (n q : Nat) (s : State) : Bool :=
  ((vget s.sched.radio q).cur.any fun f => f.queue.isNone && f.users.any fun u => u.sta == n) ||
    ((vget s.fe q).tx.any fun x => x.users.any fun u => u.sta == n) || ((vget s.mac.radio q).sent.any fun x => x.users.any fun u => u.sta == n)

/-- The other radios whose present exchange is with the station. -/
def servedElsewhere (n r : Nat) (s : State) : Nat := maskOf ((List.range 3).map fun q => q != r && exchangesWith n q s)

/-- End of the PPDU that another radio sends to the station, the last of several. -/
def otherEnd (n r : Nat) (s : State) : Option Nat :=
  ((List.range 3).filterMap fun q =>
    if q = r then none else (vget s.fe q).tx.bind fun x => if x.users.any (fun u => u.sta == n) && !x.aborted then some (x.startAt + x.durNs / 2) else none).foldl
      (fun m t => some (match m with | some v => max v t | none => t)) none

/-- Not held off under R170: no PPDU for it on a link of a non-STR pair, and for an EMLSR client on no link, nor before its transition delay
has passed. `pad`: a PPDU that can be padded to end with the other one is allowed. -/
def notHeldOff (n r : Nat) (pad : Bool) (x : Sta) (s : State) : Bool :=
  let b := vget x.block r
  let q := servedElsewhere n r s
  (q == 0 && x.emlsrTill ≤ s.now) ||
    ((!Config.linkEmlsr b) && (q == 0 || Nat.land q (Config.linkNstr b) == 0 || (pad && (otherEnd n r s).isSome)))

/-! Candidates (R187). -/

/-- Constraints that hold now: the first slot still listed of the radio (R209). -/
def pitchNow (r : Nat) (s : State) : Option Pitch := (vget s.sched.radio r).pitch.head?

/-- The station's traffic on a radio may be served but for what holds it off for a while (R170, pitch constraints). -/
def eligible (r n : Nat) (x : Sta) (s : State) : Bool := bit x.links r && (vget s.mac.bss (linkBss x r)).en && !x.held && !uplinkLost n s

/-- The station may be served on the radio. -/
def staCandidate (r n : Nat) (pad : Bool) (x : Sta) (s : State) : Bool :=
  eligible r n x s && (match pitchNow r s with | some p => !p.exclude.contains n | none => true) && notHeldOff n r pad x s

/-- TIDs with queued traffic, or with a BlockAckReq due, that the radio may serve but for a hold-off. -/
def readyTids (r n : Nat) (x : Sta) (s : State) : List Nat :=
  (List.range 8).filter fun t => (khas s.sched.q (8 * n + t) || khas s.mac.bar (8 * n + t)) && linkServes n t x r s && mayDeliver n t x s

/-- Its TIDs with eligible queued traffic. -/
def dlTids (r n : Nat) (x : Sta) (s : State) : List Nat := if staCandidate r n true x s then readyTids r n x s else []

/-- The last report of an AC's queue is younger than BSR_MAX_AGE (R201). -/
def demandKnown (r : Nat) (x : Sta) (s : State) (a : Nat) : Bool :=
  (vget x.demand a).isSome && decide (s.now < vget x.demandAt a + (vget s.sched.radio r).bsrMaxAge * 500000)

/-- Uplink demand of an AC that a trigger may serve but for a hold-off of R170. -/
def readyUl (r n : Nat) (x : Sta) (s : State) (a : Nat) : Nat :=
  if !x.ulHold && demandKnown r x s a && ((tidsOfAc a).any fun t => tidOnLink x t r) && (!x.doze || inDelivery x 0 s) then (vget x.demand a).getD 0 else 0

/-- Uplink demand of an AC that a trigger may serve: the rules of R187 with demand in place of queues. -/
def ulDemand (r n : Nat) (x : Sta) (s : State) (a : Nat) : Nat := if staCandidate r n false x s then readyUl r n x s a else 0

/-! Activity (R189). -/

/-- A flow has eligible traffic on a radio. -/
def flowOn (r n a : Nat) (x : Sta) (s : State) : Bool :=
  eligible r n x s && ((readyTids r n x s).any (fun t => acOfTid t == a) || readyUl r n x s a > 0)

/-- A flow is active. -/
def flowActive (n a : Nat) (s : State) : Bool :=
  match kget s.mac.sta n with | some x => (List.range 3).any fun r => flowOn r n a x s | none => false

/-- A group queue competes as a flow of its BSS (R196). -/
def groupOn (b g : Nat) (s : State) : Bool := !(vget s.mac.bss b).held && khas s.sched.gq (4 * b + g)

/-- Virtual times of the active flows of a BSS, its group queues among them. -/
def activeV (b : Nat) (s : State) : List Nat :=
  ((List.range 4).filterMap fun g => if groupOn b g s then some (vget (vget s.mac.bss b).vGroup g) else none) ++
  (staOfBss b s).flatMap fun p => (List.range 4).filterMap fun a => if flowOn (bssRadio b) p.1 a p.2 s then some (vget p.2.v a) else none

/-- A BSS has eligible traffic. -/
def bssActive (b : Nat) (s : State) : Bool := !(activeV b s).isEmpty

/-- A BSS that was inactive in `s` and is active in `t`: V_b rises to the lowest V_b of the radio's BSSs active in `s`. -/
def raiseBss (b : Nat) (s t : State) : State :=
  if bssActive b s || !bssActive b t then t
  else
    match minOf ((List.range 16).filterMap fun i =>
        let c := 16 * bssRadio b + i
        if bssActive c s then some (vget s.mac.bss c).shareV else none) with
    | some m => withBss b (fun x => { x with shareV := max x.shareV m }) t
    | none => t

/-- A flow that was inactive in `s` and is active in `t`: its V rises to the lowest V of the flows of its BSSs active in `s`. -/
def raiseFlow (n a : Nat) (s t : State) : State :=
  match kget t.mac.sta n with
  | none => t
  | some x =>
    if flowActive n a s || !flowActive n a t then t
    else
      match minOf (((List.range 3).filter fun r => flowOn r n a x t).flatMap fun r => activeV (linkBss x r) s) with
      | some m => withSta n (fun y => { y with v := vmod y.v a (max m) }) t
      | none => t

/-- A group queue that was inactive in `s` and is active in `t`: its virtual time rises as a flow's does (R196). -/
def raiseGroup (b g : Nat) (s t : State) : State :=
  if groupOn b g s || !groupOn b g t then t
  else match minOf (activeV b s) with
    | some m => withBss b (fun x => { x with vGroup := vmod x.vGroup g (max m) }) t
    | none => t

/-- A change to a station, from `s` to `t`, makes flows and BSSs active (R189). -/
def raiseSta (n : Nat) (s t : State) : State :=
  match kget t.mac.sta n with
  | none => t
  | some x =>
    (List.range 4).foldl (fun u a => raiseFlow n a s u)
      ((List.range 3).foldl (fun u r => if bit x.links r then raiseBss (linkBss x r) s u else u) t)

/-! The queues' tails (R186). -/

/-- Puts an MSDU at the end of a per-TID queue: refused for a station not in use, and at a full queue. -/
def putTid (n t : Nat) (f : Frame) (s : State) : State :=
  match kget s.mac.sta n with
  | none => frameDone f .wrongState [] (schedCount 0 18 1 s)
  | some x =>
    let r := staRadio x t
    let q := 8 * n + t
    if (tidQueue q s).length ≥ x.qlimit then dropMsdu r n t .noResource f (schedCount r 17 1 s)
    else raiseSta n s (setTidQueue q (tidQueue q s ++ [{ f with sta := n, tid := t, arrived := s.now, enq := tbTotal 2 s }]) s)

/-- An action frame of Builmin's joins the station's queue of TID 7. -/
def sendAction (n : Nat) (body : List Byte) (s : State) : State := putTid n 7 { bytes := body, src := 2, mgmt := true, raw := true } s

/-- Builmin asks the peer of a per-TID queue for a transmit session with its first MSDU (R161; when is the model's choice, log 91). -/
def askBa (q : Nat) (s : State) : State :=
  if khas s.mac.txBa q then s
  else
    sendAction (q / 8) ([3, 0, byte (q % 8)] ++ be 2 (2 + 4 * (q % 8)) ++ be 2 0 ++ be 2 (16 * (kget s.mac.txSn q).getD 0))
      (withMac (fun m => { m with txBa := kset m.txBa q {} }) s)

/-- An MSDU for a station's TID (R186). -/
def enqueueTid (n t : Nat) (f : Frame) (s : State) : State :=
  let u := putTid n t f s
  if khas s.mac.sta n then askBa (8 * n + t) u else u

/-- Puts an MSDU at the end of a group queue, BSS x 4 + g (R186). -/
def enqueueGroup (q : Nat) (f : Frame) (s : State) : State :=
  if (groupQueue q s).length ≥ 256 then frameDone f .noResource [] (schedCount (bssRadio (q / 4)) 17 1 s)
  else
    raiseBss (q / 4) s <| raiseGroup (q / 4) (q % 4) s
      (setGroupQueue q (groupQueue q s ++ [{ f with bss := q / 4, arrived := s.now, enq := tbTotal 2 s }]) s)

end Sys2Proof.Machine
end

