-- ==== Sys2Proof/Machine/Exchange.lean ====
section
/-!
DEFINITION. How a frame exchange ends: airtime charges (R188, R189), what each MPDU's outcome does (R158, R159, R192), the next
element of the furrow (R194, R170), the end of the TXOP (R151, R154), and a failed exchange (R146).
-/
namespace Sys2Proof.Machine
open Sys2Proof

/-- Data subcarriers of an RU or MRU (Table 5.3). -/
def ruSub (code : Nat) : Nat :=
  [24, 48, 102, 234, 468, 980, 1960, 3920, 72, 126, 702, 1448, 1682, 2428, 2940, 3408].getD code 0

/-- Mb/s of the basic rate codes 0-7, and 0.1 Mb/s of 8-11 (Table 7.8). -/
def ofdmRate (code : Nat) : Nat := [6, 9, 12, 18, 24, 36, 48, 54].getD code 6
def dsssRate (code : Nat) : Nat := [10, 20, 55, 110].getD (code - 8) 10

/-- Duration in ns of a non-HT, DSSS or CCK PPDU of `n` bytes at a basic rate (IEEE 802.11-2020). -/
def basicNs (r rate n : Nat) : Nat :=
  if rate ≤ 7 then 1000 * (20 + 4 * ceilDiv (16 + 8 * n + 6) (4 * ofdmRate rate) + (if r = 0 then 6 else 0))
  else 1000 * (192 + ceilDiv (8 * n * 10) (dsssRate rate))

/-- The format of a PPDU at a basic rate: DSSS or CCK, or non-HT OFDM (Table 5.1). -/
def rateFmt (rate : Nat) : Nat := if rate ≥ 8 then 0 else 1

/-- SIFS in ns (Table 7.1). -/
def sifsNs (r : Nat) : Nat := if r = 0 then 10000 else 16000

/-- Radio A uses the long slot while an enabled BSS of it has SHORT_SLOT at 0 (R145). -/
def longSlot (s : State) : Bool := (List.range 16).any fun b => (vget s.mac.bss b).en && !(vget s.mac.bss b).shortSlot

/-- Slot, PIFS and AIFS in ns (Table 7.1). -/
def backoffNs (r : Nat) (s : State) : Nat := if r = 0 ∧ longSlot s then 20000 else 9000
def pifsNs (r : Nat) (s : State) : Nat := sifsNs r + backoffNs r s
def aifsNs (r aifsn : Nat) (s : State) : Nat := sifsNs r + aifsn * backoffNs r s

/-- EIFS in ns for an AIFSN: that of Table 7.1, for AIFSN 2, less AIFS(2) and with AIFS (R145). -/
def eifsNs (r aifsn : Nat) (s : State) : Nat :=
  (if r ≠ 0 then 94000 else if longSlot s then 364000 else 82000) - aifsNs r 2 s + aifsNs r aifsn s

/-- Time an RTS, its CTS and two SIFS take at 6 Mb/s, before the PPDU they protect (R155). -/
def rtsHead (r : Nat) : Nat := basicNs r 0 20 + sifsNs r + basicNs r 0 14 + sifsNs r

/-- Adds to a virtual time (R189). -/
def vCharge (t w : Nat) : Nat := t * 1024 / w

/-- N_p of an element: the data subcarriers of its RUs, each RU once. -/
def elemSub (us : List FUser) : Nat := ((us.map fun u => (u.ruSize, u.ruIndex)).eraseDups.map fun p => ruSub p.1).sum

/-- t_u of a user (R188): its share of an OFDMA element, an equal part of an element whose users hold no RU, or the whole. -/
def userCharge (e : Elem) (us : List FUser) (u : FUser) : Nat :=
  if e.code = 0 ∨ e.code = 1 ∨ e.code = 5 ∨ e.code = 6 then e.durNs / max 1 us.length
  else if e.code = 2 ∨ e.code = 4 then
    let k := (us.filter fun x => x.ruSize == u.ruSize && x.ruIndex == u.ruIndex).length
    e.durNs * ruSub u.ruSize / (k * elemSub us)
  else e.durNs

/-- Charges one user: its flow of the AC whose data formed the larger part, or the group queue; urgent airtime is kept for
R193. -/
def chargeUser (r : Nat) (queue : Option Nat) (u : FUser) (t : Nat) (s : State) : State :=
  let wac := vget (vget s.sched.radio r).acW u.ac
  let s1 := match queue with
    | some q => withBss (q / 4) (fun b => { b with vGroup := vadd b.vGroup (q % 4) (vCharge t (wac * 16)) }) s
    | none => withSta u.sta (fun x => { x with v := vadd x.v u.ac (vCharge t (wac * x.weight)) }) s
  if u.urgent then withRs r (fun k => { k with urgentUse := (s.now, t) :: k.urgentUse.filter fun p => s.now < p.1 + 50000000 }) s1 else s1

/-- One MPDU's exchange ended without acknowledgement (R158). -/
def retryFrame (r n : Nat) (p : Nat × Frame) (s : State) : State :=
  let g := { p.2 with tries := p.2.tries + 1 }
  let q := 8 * n + p.1
  if g.tries > vget (vget s.mac.radio r).retryLim (acOfTid p.1) then retryDrop r n p.1 g s
  else if !khas s.mac.sta n then frameDone g .wrongState [] (schedCount 0 18 1 s)
  else setTidQueue q (g :: tidQueue q s) s

/-- An MPDU was acknowledged: LL_MISS after its deadline (R192). -/
def ackedFrame (r n : Nat) (p : Nat × Frame) (s : State) : State :=
  match kget s.mac.sta n with
  | some x =>
    let t := vget x.tll p.1
    frameDone p.2 .ok (vget s.mac.radio r).txStamps (if t > 0 ∧ tbTotal 2 s > p.2.enq + t * 100000 then schedCount r 13 1 s else s)
  | none => frameDone p.2 .ok (vget s.mac.radio r).txStamps s

/-- The MPDU is among those the response acknowledges. -/
def isAcked (acked : List (Nat × Nat × Nat)) (n : Nat) (p : Nat × Frame) : Bool :=
  match p.2.sn with | some k => acked.contains (n, p.1, k) | none => false

/-- The rate offset after an element that served a user (R200): `bad` of `all` MPDUs unacknowledged. -/
def stepOffset (bad all : Nat) (x : Rate) : Rate :=
  if all = 0 then x
  else if 10 * bad > all then { x with offset := max (-4) (x.offset - 1), good := 0 }
  else if 50 * bad ≤ all then
    if x.good + 1 ≥ 4 then { x with offset := min 2 (x.offset + 1), good := 0 } else { x with good := x.good + 1 }
  else { x with good := 0 }

/-- A downlink user's element ended. -/
def dlOutcome (r : Nat) (acked : List (Nat × Nat × Nat)) (u : FUser) (s : State) : State :=
  let bad := u.frames.filter fun p => !isAcked acked u.sta p
  let good := u.frames.filter (isAcked acked u.sta)
  let s1 := good.foldl (fun t p => ackedFrame r u.sta p t) s
  let s2 := bad.foldr (fun p t => retryFrame r u.sta p t) s1
  withSta u.sta (fun x => { x with rate := vmod x.rate r (stepOffset bad.length u.frames.length) }) s2

/-- A triggered user's TB PPDU validated, or not (R203). -/
def ulOutcome (r : Nat) (tb : List Nat) (u : FUser) (s : State) : State :=
  if tb.contains u.sta then withSta u.sta (fun x => { x with ulFail := 0 }) s
  else
    schedCount r 12 1 (withSta u.sta (fun x =>
      if x.ulFail + 1 ≥ 3 then { x with ulFail := 0, ulHold := true, ulHoldTill := s.now + 100000000, ulPoll := true } else { x with ulFail := x.ulFail + 1 }) s)

/-- The BlockAckReqs of a user were answered, or their exchange failed (R159): one is dropped at its retry limit. A later drop of the TID
asks for another one. -/
def barOutcome (r : Nat) (answered : List Nat) (u : FUser) (s : State) : State :=
  u.bars.foldl (fun t p =>
    let q := 8 * u.sta + p.1
    match kget t.mac.bar q with
    | none => t
    | some (sn, n) =>
      if sn ≠ p.2 then t
      else if answered.contains u.sta ∨ n + 1 > vget (vget t.mac.radio r).retryLim (acOfTid p.1) then withMac (fun m => { m with bar := kdel m.bar q }) t
      else withMac (fun m => { m with bar := kset m.bar q (sn, n + 1) }) t) s

/-! Contention windows (R150, R151). -/

def cwReset (r a : Nat) (s : State) : State :=
  withRm r (fun m => { m with bo := vmod m.bo a fun b => { b with cw := cwMin (acEdca r a s), counter := none } }) s

/-- The parameters of a MAC_SET_EDCA hold from the next draw (Table 7.8), where CW starts at the new CWmin (DESIGN CHOICE, log 91). -/
def adoptEdca (r a : Nat) (s : State) : State :=
  withRm r (fun m => match vget m.edcaNext a with
    | some e => { m with edca := vset m.edca a e, edcaNext := vset m.edcaNext a none, bo := vmod m.bo a fun b => { b with cw := cwMin e } }
    | none => m) s

/-- A counter uniform from [0, CW] (R150): the value drawn is free. -/
def drawCounter (r a : Nat) (s : State) : State :=
  let p := draw 16 (adoptEdca r a s)
  withRm r (fun m => { m with bo := vmod m.bo a fun b => { b with counter := some (p.1.toNat % (b.cw + 1)) } }) p.2

/-- A failed exchange doubles CW and draws a new counter (R151). -/
def cwFail (r a : Nat) (s : State) : State :=
  drawCounter r a (withRm r (fun m => { m with bo := vmod m.bo a fun b => { b with cw := min (2 * b.cw + 1) (cwMax (acEdca r a s)) } }) s)

/-- V_b of the furrow's BSS, or of the members of its set; a GROUP furrow is charged to the BSS of its queue (R189, R190). -/
def chargeBss (f : Furrow) (s : State) : State :=
  let b := vget s.mac.bss f.bss
  let one (i d : Nat) (t : State) : State :=
    withBss i (fun x => if x.share > 0 then { x with shareV := x.shareV + d * 1024 / x.share } else x) t
  let whole := ((f.elems.take f.pos).map (·.durNs)).sum
  if let some q := f.queue then one (q / 4) whole s
  else if b.transmits then
    (List.range 16).foldl (fun t i =>
      let c := 16 * bssRadio f.bss + i
      let own := f.users.filter fun u => match kget s.mac.sta u.sta with | some x => linkBss x (bssRadio c) == c | none => false
      let d := (own.map (·.charge)).sum
      if d = 0 then t else one c d t) s
  else one f.bss whole s

/-- EMLSR clients of an exchange that ended rest for their transition delay (R170). -/
def emlsrRest (r : Nat) (stas : List Nat) (s : State) : State :=
  stas.foldl (fun t n => withSta n (fun x =>
    if Config.linkEmlsr (vget x.block r) then { x with emlsrTill := s.now + ceilDiv (Config.linkEmlsrDelay (vget x.block r)) 2 } else x) t) s

/-- Time left of the TXOP in ns; 0 without a limit. -/
def txopLeft (r : Nat) (s : State) : Nat :=
  match (vget s.mac.radio r).txop with | some (_, limit, at_) => limit - 2 * (s.now - at_) | none => 0

/-- The CF-End that truncates a TXOP (R154). -/
def cfEndPpdu (r bss : Nat) (s : State) : TxCur :=
  let rate := match (vget s.mac.bss bss).template with | some t => t.rate | none => 0
  { kind := .control, bss := bss, fmt := rateFmt rate, len := 20, durNs := basicNs r rate 20, preNs := 20000 }

/-- The TXOP ends: charges, the contention window of the winning AC, at CWmin again where frames of it were dropped (R151), and the
furrow sent last. Where a CF-End fits (R154) it goes before the medium is left. -/
def txopEnd (r : Nat) (failed dropped : Bool) (s : State) : State :=
  let m := vget s.mac.radio r
  let s1 := match (vget s.sched.radio r).cur with
    | some f =>
      -- What an MU_BAR element was still to acknowledge is not acknowledged.
      let open_ := f.users.filter fun u => u.elem < f.pos && !u.uplink && f.queue.isNone
      chargeBss f (withRs r (fun k => { k with cur := none, last := some f })
        (open_.foldr (fun u t => u.frames.foldr (fun p v => retryFrame r u.sta p v) t) s))
    | none => s
  let s1 := match (vget s.sched.radio r).cur with | some f => emlsrRest r ((f.users.filter fun _ => f.queue.isNone).map (·.sta)) s1 | none => s1
  let s2 := match m.txop with
    | some (a, _, _) =>
      let cf := cfEndPpdu r (match (vget s.sched.radio r).cur with | some f => f.bss | none => 16 * r) s
      let t := if failed then (if dropped then drawCounter r a (cwReset r a s1) else cwFail r a s1) else cwReset r a s1
      if m.cfEnd && txopLeft r s ≥ cf.durNs + sifsNs r then withRm r (fun m => { m with txNext := m.txNext ++ [cf] }) t else t
    | none => s1
  let ending := (vget s2.mac.radio r).txNext.any fun x => x.kind == .control
  withFe r (fun e => { e with txopHeld := ending, awaits := false }) (withRm r (fun m => { m with txop := none, sent := none, afterRts := none }) s2)

/-- A DL_MU user whose acknowledgement the MU_BAR element that follows solicits (Table 8.3). -/
def ackedLater (f : Furrow) (u : FUser) : Bool :=
  match f.elems[u.elem + 1]? with
  | some e => e.code == 6 && f.users.any fun v => v.elem == u.elem + 1 && v.sta == u.sta
  | none => false

/-- The PPDU of an element calls for a response. -/
def elemExpects (f : Furrow) (code : Nat) (us : List FUser) : Bool := code != 7 && (us.isEmpty || !(us.all (ackedLater f)))

/-- What a Basic Trigger or a BSRP asks of the uplink users of its element (R201, R202). The aggregation limit of a user's RU is not R202's: 7
TIDs, the largest the field holds, within Headland step 2's limit (DESIGN CHOICE, log 91). -/
def triggerOf (r : Nat) (f : Furrow) (e : Elem) (us : List FUser) (s : State) : Option Trigger :=
  let aid (n : Nat) : Nat := match kget s.mac.sta n with | some x => x.aid | none => 0
  if e.code = 4 then
    some { bw := e.bw, length := e.tbLen, csRequired := true
           users := us.map fun u => { aid := aid u.sta, ruSize := u.ruSize, ruIndex := u.ruIndex, mcs := u.mcs, stream := u.stream, nss := u.nss, ldpc := u.ldpc
                                      target := u.target, prefAc := f.planAc, tidLimit := min 7 (vget s.hl r).baLimit } }
  else if e.code = 5 then
    some { basic := false, bw := e.bw, raRu := e.raRu, users := us.map fun u => { aid := aid u.sta, prefAc := f.planAc } }
  else none

/-- The PPDU of the furrow's element in progress. -/
def elemPpdu (r : Nat) (f : Furrow) (e : Elem) (s : State) : TxCur :=
  let us := f.users.filter fun u => u.elem == f.pos && !u.uplink
  { kind := if f.coord then .coord else .edca, bss := f.bss, ac := f.planAc, code := e.code, durNs := e.ppduNs
    fmt := e.fmt, bw := e.bw, gi := e.gi, nSym := e.nSym, pe := e.pe, punct := e.punct, len := e.len
    users := us.map fun u => { sta := if f.queue.isSome then 0x3FF else u.sta, tid := (u.frames.head?.map (·.1)).getD 0, frames := u.frames.map (·.2)
                               bars := u.bars, ruSize := u.ruSize, ruIndex := u.ruIndex, mcs := u.mcs, nss := u.nss, ldpc := u.ldpc, dcm := u.dcm, stbc := u.stbc }
    trig := triggerOf r f e (f.users.filter fun u => u.elem == f.pos && u.uplink) s, expects := elemExpects f e.code us, rts := e.rts, steer := f.pre.filter fun p => p.elem == f.pos }

/-- The PPDUs of the element in progress: its one, or a sounding sequence (Table 10.2) for the stations still in the furrow. -/
def elemPpdus (r : Nat) (f : Furrow) (e : Elem) (s : State) : List TxCur :=
  if e.parts.isEmpty then [elemPpdu r f e s]
  else (e.parts.map fun x => { x with kind := if f.coord then .coord else .edca, bss := f.bss, ac := f.planAc, users := x.users.filter fun u => f.users.any fun v => v.elem == f.pos && v.sta == u.sta }).filter fun x => !x.users.isEmpty

/-- PPDUs of a furrow. -/
def kindFurrow : TxKind → Bool
  | .edca | .coord => true
  | .beacon | .launch | .response | .test | .wur | .control => false

/-- A user of an element about to start is held off (R170): it may be served only where another radio's PPDU for it leaves room for this
one to end with it. -/
def heldOut (r : Nat) (f : Furrow) (e : Elem) (u : FUser) (s : State) : Bool :=
  match (if f.queue.isSome then none else kget s.mac.sta u.sta) with
  | none => false
  | some x =>
    let head := (if f.pos = 0 then 0 else sifsNs r) + (if e.rts then rtsHead r else 0)
    let room := match otherEnd u.sta r s with | some t => decide (s.now + (head + e.ppduNs) / 2 ≤ t) | none => false
    !(notHeldOff u.sta r (!u.uplink && room) x s)

/-- A downlink user's BlockAckReqs that are due go first: the MPDUs of their TIDs return to the queue (R159). -/
def takeBars (r : Nat) (u : FUser) (s : State) : FUser × State :=
  let tids := if u.uplink then [] else (List.range 8).filter fun t => khas s.mac.bar (8 * u.sta + t)
  ({ u with bars := tids.filterMap fun t => (kget s.mac.bar (8 * u.sta + t)).map fun p => (t, p.1)
            frames := u.frames.filter fun p => !tids.contains p.1 },
   unclaim r none { u with frames := u.frames.filter fun p => tids.contains p.1 } s)

/-- Requests the PPDU of the element in progress; an element whose every user is held off is passed over. -/
def startElement (r : Nat) : (fuel : Nat) → State → State
  | 0, s => txopEnd r false false s
  | k + 1, s =>
    match (vget s.sched.radio r).cur with
    | none => s
    | some f =>
      match f.elems[f.pos]? with
      | none => txopEnd r false false s
      | some e =>
        let mine := f.users.filter (·.elem == f.pos)
        let out := mine.filter fun u => heldOut r f e u s
        let s1 := out.foldr (fun u t => unclaim r f.queue u t) s
        let stay := f.users.filter fun u => !(u.elem == f.pos && out.any (·.sta == u.sta))
        if !out.isEmpty && out.length == mine.length then startElement r k (withRs r (fun k => { k with cur := some { f with users := stay, pos := f.pos + 1, elems := f.elems.set f.pos { e with durNs := 0 } } }) s1)
        else
          let bars := (e.code == 2 || e.code == 3) && f.queue.isNone
          let p := stay.foldl (fun (a : List FUser × State) u =>
            let q := if bars && u.elem == f.pos then takeBars r u a.2 else (u, a.2)
            (a.1 ++ [q.1], q.2)) ([], s1)
          let g := { f with users := p.1 }
          withRm r (fun m => { m with txNext := m.txNext ++ elemPpdus r g e p.2 }) (withRs r (fun k => { k with cur := some g }) p.2)

/-- MPDUs of the winning AC that an element's outcome drops at their retry limit (R151). -/
def dropsAc (r a : Nat) (acked : List (Nat × Nat × Nat)) (us : List FUser) (s : State) : Bool :=
  us.any fun u => u.frames.any fun p => acOfTid p.1 == a && !isAcked acked u.sta p && p.2.tries + 1 > vget (vget s.mac.radio r).retryLim a

/-- PPDUs of the element in progress that have yet to be sent. -/
def partsLeft (r : Nat) (s : State) : Bool := (vget s.mac.radio r).txNext.any fun x => kindFurrow x.kind

/-- The element in progress ended, `ok` when its exchange succeeded: every user is charged and its MPDUs have their outcome;
the next element follows, or the TXOP ends. After a part of a sounding sequence its next part follows; a failed part ends it. -/
def elementDone (r : Nat) (ok : Bool) (s : State) : State :=
  if ok && partsLeft r s then withRm r (fun m => { m with agg := {}, sent := none, afterRts := none }) (withFe r (fun e => { e with awaits := false }) s)
  else
  let s := withRm r (fun m => { m with txNext := m.txNext.filter fun x => !kindFurrow x.kind }) s
  match (vget s.sched.radio r).cur with
  | none => txopEnd r (!ok) false s
  | some f =>
    match f.elems[f.pos]? with
    | none => txopEnd r (!ok) false s
    | some e =>
      let g := (vget s.mac.radio r).agg
      let us := f.users.filter (·.elem == f.pos)
      let s1 := us.foldl (fun t u => chargeUser r f.queue u (userCharge e us u) t) s
      -- What an MU_BAR element is to acknowledge has its outcome there.
      let later (u : FUser) : Bool := ok && ackedLater f u
      let ended := us.filter (fun u => !later u) ++ if e.code = 6 then f.users.filter fun u => u.elem + 1 == f.pos && ackedLater f u else []
      let s2 := ended.foldl (fun t u =>
        if u.uplink then ulOutcome r g.tb u t
        else if f.queue.isSome then u.frames.foldl (fun t p => frameDone p.2 .ok (vget s.mac.radio r).txStamps t) t
        else barOutcome r (if ok then g.answered else []) u (dlOutcome r (if ok then g.acked else []) u t)) s1
      let f1 := { f with pos := f.pos + 1, users := f.users.map fun u => if u.elem == f.pos then { u with charge := userCharge e us u, frames := if later u then u.frames else [], bars := if later u then u.bars else [] }
        else if u.elem < f.pos then { u with frames := [], bars := [] } else u }
      let s3 := withRs r (fun k => { k with cur := some f1 }) s2
      let s4 := withRm r (fun m => { m with agg := {}, sent := none, afterRts := none }) (withFe r (fun e => { e with awaits := false }) s3)
      if ok && f1.pos < f1.elems.length then startElement r 8 s4
      else
        let a := match (vget s.mac.radio r).txop with | some p => p.1 | none => f.planAc
        -- What later elements claimed goes back to its queues.
        txopEnd r (!ok) (f.queue.isNone && dropsAc r a (if ok then g.acked else []) (ended.filter fun u => !u.uplink) s)
          (f1.users.foldr (fun u t => if u.elem ≥ f1.pos then unclaim r f1.queue u t else t) s4)

/-- A TXOP is given up between exchanges (R92, R249): what later elements claimed goes back, and no CF-End is sent. -/
def giveUpTxop (r : Nat) (s : State) : State :=
  if !(vget s.fe r).txopHeld then s
  else
    let t := match (vget s.sched.radio r).cur with
      | some f => f.users.foldr (fun u t => if u.elem ≥ f.pos then unclaim r f.queue u t else t) s
      | none => s
    txopEnd r false false (withRm r (fun m => { m with
      txNext := m.txNext.filter fun x => !(x.kind == .edca || x.kind == .coord || x.kind == .wur || x.kind == .control), txop := m.txop.map fun p => (p.1, 0, p.2.2) }) t)

/-- The exchange in progress fails (R146, R151). -/
def exchangeFail (r : Nat) (s : State) : State :=
  let m := vget s.mac.radio r
  let t := macCount r 4 1 s
  match m.sent with
  | some x =>
    if kindFurrow x.kind then elementDone r false t
    else
      let u := withFe r (fun e => { e with awaits := false }) (withRm r (fun m => { m with sent := none, agg := {} }) t)
      -- MPDUs of a TB PPDU and of a launch-timed frame return to their queues (R158).
      let y := m.afterRts.getD x
      let v := withRm r (fun m => { m with afterRts := none }) u
      if y.kind = .response ∨ y.kind = .launch then
        emlsrRest r (y.users.map (·.sta)) (y.users.foldr (fun q v => q.frames.foldr (fun f w => retryFrame r q.sta (f.tid, f) w) v) v)
      else v
  | none => withFe r (fun e => { e with awaits := false }) t

/-- A reception is abandoned (R124): no response is owed for it, and an exchange that awaited it fails. -/
def rxAbandoned (r : Nat) (s : State) : State :=
  let t := withFe r (fun e => { e with owesResp := false }) (withRm r (fun m => { m with commit := none, respDone := none, agg := {} }) s)
  if (vget s.fe r).awaits then exchangeFail r t else t

/-- The exchange fails while the PPDU that ended calls for a response, which is still owed (R146, R157). -/
def failOwing (r : Nat) (s : State) : State :=
  let g := (vget s.mac.radio r).agg
  withRm r (fun m => { m with agg := g }) (exchangeFail r (withRm r (fun m => { m with agg := {} }) s))

end Sys2Proof.Machine
end

