-- ==== Sys2Proof/Machine/RuPlan.lean ====
section
/-!
DEFINITION. Resource units of an OFDMA element: slots, positions, upgrade passes and placement (R197, Table 8.4, Table 5.3).
A PPDU's 26-tone slots are numbered from the lowest frequency: 9 to each 20 MHz, and one in the centre of each 80 MHz.
-/
namespace Sys2Proof.Machine
open Sys2Proof

/-- Slots of a single RU by size code, 26 to 4 x 996 (Table 8.4). -/
def ruSlots (code : Nat) : Nat := [1, 2, 4, 9, 18, 37, 74, 148].getD code 148

/-- Slot capacity of a bandwidth (Table 8.4). -/
def bwSlots (bw : Nat) : Nat := [9, 18, 37, 74, 148].getD bw 148

/-- A run of `n` slots from slot `i`, as a set. -/
def slotRun (i n : Nat) : Nat := (2 ^ n - 1) * 2 ^ i

/-- First slot of a 20 MHz subchannel. -/
def subStart (sub : Nat) : Nat := 37 * (sub / 4) + [0, 9, 19, 28].getD (sub % 4) 0

/-- The slots that punctured subchannels remove. -/
def puncSlots (bw mask : Nat) : Nat :=
  ((List.range (2 ^ bw)).map fun i => if bit mask i then slotRun (subStart i) 9 else 0).foldl Nat.lor 0

/-- Positions of an RU size in a bandwidth, lowest frequency first. -/
def ruPositions (bw code : Nat) : List Nat :=
  let subs := List.range (2 ^ bw)
  match code with
  | 0 => (List.range (bwSlots bw)).map fun i => slotRun i 1
  | 1 => subs.flatMap fun u => [0, 2, 5, 7].map fun k => slotRun (subStart u + k) 2
  | 2 => subs.flatMap fun u => [0, 5].map fun k => slotRun (subStart u + k) 4
  | 3 => subs.map fun u => slotRun (subStart u) 9
  | 4 => if bw = 0 then [] else (List.range (2 ^ (bw - 1))).map fun h => slotRun (subStart (2 * h)) 18
  | 5 => if bw < 2 then [] else (List.range (2 ^ (bw - 2))).map fun q => slotRun (37 * q) 37
  | 6 => if bw < 3 then [] else (List.range (2 ^ (bw - 3))).map fun q => slotRun (74 * q) 74
  | 7 => if bw < 4 then [] else [slotRun 0 148]
  | _ => []

/-- The MRU that puncturing leaves of a wide RU: its size code by the 20 MHz subchannels lost (Table 5.3, R197). -/
def mruCode (code lost : Nat) : Option Nat :=
  match code, lost with
  | 5, 1 => some 10
  | 6, 1 => some 12 | 6, 2 => some 11
  | 7, 2 => some 15 | 7, 4 => some 14 | 7, 6 => some 13
  | _, _ => none

/-- A placed RU: its size code, index and slots. -/
structure RuPlace where
  code : Nat
  index : Nat
  slots : Nat
  deriving DecidableEq, Repr, Inhabited

/-- The first free position of a size; where puncturing leaves no single RU of it, an MRU. -/
def ruFind (bw code punc used : Nat) : Option RuPlace :=
  let ps := ruPositions bw code
  match ps.findIdx? fun p => Nat.land p used == 0 with
  | some i => some { code := code, index := i, slots := ps.getD i 0 }
  | none =>
    if ps.any fun p => Nat.land p punc == 0 then none
    else
      ps.findSome? fun p =>
        let rest := p - Nat.land p punc
        match mruCode code (popCount 16 (maskOf ((List.range 16).map fun u => Nat.land (slotRun (subStart u) 9) (Nat.land p punc) != 0))) with
        | some m => if Nat.land rest used = 0 ∧ rest ≠ 0 then some { code := m, index := (ps.idxOf p), slots := rest } else none
        | none => none

/-- Users with their sizes, the largest first and otherwise in rank order (R197 step 5). -/
def bySize (l : List (Nat × Nat)) : List (Nat × Nat) :=
  [7, 6, 5, 4, 3, 2, 1, 0].flatMap fun c => l.filter fun p => p.2 == c

/-- Places every user's RU; none where one finds no position. -/
def placeAll (bw punc : Nat) : List (Nat × Nat) → Nat → Option (List (Nat × RuPlace))
  | [], _ => some []
  | (u, c) :: r, used =>
    match ruFind bw c punc used with
    | none => none
    | some p =>
      match placeAll bw punc r (Nat.lor used p.slots) with
      | none => none
      | some l => some ((u, p) :: l)

/-- Placement of users' sizes, by user number. -/
def placeUsers (bw punc : Nat) (sizes : List Nat) : Option (List (Nat × RuPlace)) :=
  placeAll bw punc (bySize ((List.range sizes.length).zip sizes)) (puncSlots bw punc)

/-- Data bits per subcarrier times 12, by MCS (Table 5.2). -/
def mcsBits (m : Nat) : Nat := [6, 12, 18, 24, 36, 48, 54, 60, 72, 80, 90, 100, 108, 120].getD m 6

/-- Bytes an RU carries in a number of symbols. -/
def ruBytes (code mcs nss nsym : Nat) : Nat := ruSub code * mcsBits mcs * nss * nsym / 96

/-- A user to be given an RU of at most a size code. -/
structure RuUser where
  sta : Nat
  need : Nat
  mcs : Nat
  nss : Nat
  cap : Nat
  deriving DecidableEq, Repr, Inhabited

/-- One upgrade of user `i`, if its demand exceeds its RU and slots and positions allow (R197 step 4). -/
def upgradeOne (bw punc nsym : Nat) (us : List RuUser) (sizes : List Nat) (i : Nat) : List Nat :=
  let u := us.getD i default
  let c := sizes.getD i 0
  if c ≥ min 7 u.cap ∨ u.need ≤ ruBytes c u.mcs u.nss nsym then sizes
  else
    let next := sizes.set i (c + 1)
    if ((next.map ruSlots).sum ≤ bwSlots bw - 9 * popCount 16 punc) && (placeUsers bw punc next).isSome then next else sizes

/-- Upgrade passes until one makes no upgrade: at most 7 upgrades a user. -/
def upgradePasses (bw punc nsym : Nat) (us : List RuUser) : (fuel : Nat) → List Nat → List Nat
  | 0, sizes => sizes
  | n + 1, sizes =>
    let next := (List.range us.length).foldl (upgradeOne bw punc nsym us) sizes
    if next = sizes then sizes else upgradePasses bw punc nsym us n next

/-! Shared RUs (R199, R202). -/

/-- An RU under plan: its own user and size code, the Harrow group whose precoder it uses, and the users that share it. -/
structure RuShare where
  user : RuUser
  size : Nat
  group : Option Nat
  more : List RuUser
  tried : Bool
  deriving DecidableEq, Repr, Inhabited

/-- Further upgrade passes over the RUs. -/
def upgradeShares (bw punc nsym : Nat) (l : List RuShare) : List RuShare :=
  (l.zip (upgradePasses bw punc nsym (l.map (·.user)) (8 * l.length + 1) (l.map (·.size)))).map fun p => { p.1 with size := p.2 }

/-- The RUs where they are placed, the largest first. -/
def placeShares (bw punc : Nat) (l : List RuShare) : List (RuShare × RuPlace) :=
  ((placeUsers bw punc (l.map (·.size))).getD []).filterMap fun p => (l[p.1]?).map fun x => (x, p.2)

/-- Users that an RU may be shared with: the group that steers them, its user's rates in it, and the others. -/
abbrev Joiner : Type := List RuShare → RuShare → Option (Option Nat × RuUser × List RuUser)

/-- Each RU of 242 tones or more, in order of size and index, is offered once to be shared (R199); users who join give up RUs of their own, and
the freed slots enter further upgrade passes. -/
def sharePasses (join : Joiner) (bw punc nsym : Nat) : (fuel : Nat) → List RuShare → List RuShare
  | 0, l => l
  | k + 1, l =>
    match (placeShares bw punc l).find? fun p => p.1.size ≥ 3 && !p.1.tried with
    | none => l
    | some (x, _) =>
      let mark (f : RuShare → RuShare) : List RuShare := l.map fun y => if y.user.sta = x.user.sta then f { y with tried := true } else y
      match join l x with
      | none => sharePasses join bw punc nsym k (mark id)
      | some (g, u, more) =>
        let kept := (mark fun y => { y with group := g, user := u, more := more }).filter fun y => !(more.any fun v => v.sta == y.user.sta)
        sharePasses join bw punc nsym k (upgradeShares bw punc nsym kept)

/-- A user where it is placed. -/
structure PlacedUser where
  user : RuUser
  place : RuPlace
  shared : Bool
  group : Option Nat
  deriving DecidableEq, Repr, Inhabited

/-- The users of the RUs. -/
def placedUsers (bw punc : Nat) (l : List RuShare) : List PlacedUser :=
  (placeShares bw punc l).flatMap fun p =>
    (p.1.user :: p.1.more).map fun u => { user := u, place := p.2, shared := !p.1.more.isEmpty, group := p.1.group }

/-- The smallest number of symbols that carries every user's data, at most `nsym` (R197 step 7). -/
def trimSymbols (nsym : Nat) (l : List PlacedUser) : Nat :=
  ((List.range nsym).find? fun n => l.all fun p => p.user.need ≤ ruBytes p.place.code p.user.mcs p.user.nss n).getD nsym

end Sys2Proof.Machine
end

