-- ==== Sys2Proof/Machine/PpduTime.lean ====
section
/-!
DEFINITION. What a PPDU's format makes of its users (spec/05_ofdm_phy.md R113 to R117, R131, R132): which format a link takes, symbols and
durations, L-SIG LENGTH, padding, and cyclic shifts. The formulas are IEEE 802.11's, which R113 and R132 name (PRESUMED, log 90).
-/
namespace Sys2Proof.Machine
open Sys2Proof

/-- A 6 GHz channel: its lower edge is at or above 5,925 MHz. -/
def sixGhz (r : Nat) (e : RadioFe) : Bool := r != 0 && e.centre ≥ 5925 + bwMhz e.bw / 2

/-- Table 5.1: a radio carries a format at a bandwidth on its channel. -/
def formatCarried (r : Nat) (e : RadioFe) (fmt bw : Nat) : Bool :=
  let wide := if r = 2 ∧ sixGhz r e then 4 else if r = 0 then 1 else 3
  bw ≤ min e.bw wide &&
    (match fmt with
     | 0 => r == 0 && bw == 0
     | 1 => bw == 0
     | 2 => 1 ≤ bw
     | 3 => bw ≤ 1 && (r == 0 || !sixGhz r e)
     | 4 => bw ≤ 3 && r != 0 && !sixGhz r e
     | 5 | 7 | 8 => bw ≤ 3
     | 6 => bw == 0
     | 9 | 10 => true
     | _ => false)

/-- The radio may send the format at the bandwidth: Table 5.1 gives it and PHY_SET_FORMATS enables it (R113, R115). -/
def maySend (r fmt bw : Nat) (s : State) : Bool := formatCarried r (vget s.fe r) fmt bw && bit (vget s.phy r).formats fmt

/-- Formats of a single-user PPDU, best first, that a station of a best format understands. -/
def fmtLadder (best : Nat) : List Nat :=
  if best ≥ 9 then [9, 5, 4, 3] else if best ≥ 5 then [5, 4, 3] else if best = 4 then [4, 3] else if best = 3 then [3] else []

/-- The format and bandwidth of a single-user PPDU to a link, at most `bw` wide: the best enabled format, at the widest bandwidth Table 5.1
gives it; else non-HT OFDM at 20 MHz. -/
def linkForm (r bw : Nat) (blk : List Byte) (s : State) : Nat × Nat :=
  let wide (f : Nat) : Option Nat := (List.range (min bw (Config.linkBw blk) + 1)).reverse.find? fun w => maySend r f w s
  ((fmtLadder (Config.linkFmt blk)).findSome? fun f => (wide f).map fun w => (f, w)).getD (1, 0)

/-- Highest MCS per stream of a format (Table 5.2). -/
def fmtMcs (fmt : Nat) : Nat := if fmt ≤ 3 then 7 else if fmt = 4 then 9 else if fmt ≤ 8 then 11 else 13

/-- Most streams per user of a format (Table 5.4). -/
def fmtNss (fmt : Nat) : Nat := if fmt ≤ 2 then 1 else if fmt = 3 then 4 else 8

/-- BCC is used where the receiver supports nothing else (R116). -/
def usesLdpc (fmt : Nat) (blk : List Byte) : Bool := fmt ≥ 3 && Config.linkLdpc blk

/-- The widest RU a link takes, as a size code: BCC is limited to 242 tones in HE and EHT (R116). -/
def ruCap (fmt : Nat) (blk : List Byte) : Nat := if fmt ≥ 5 ∧ !usesLdpc fmt blk then 3 else 7

/-- MCS within the format, the link, and what BCC allows. -/
def mcsTop (fmt : Nat) (blk : List Byte) : Nat :=
  min (Config.linkMcs blk) (if fmt ≥ 5 ∧ !usesLdpc fmt blk then min 9 (fmtMcs fmt) else fmtMcs fmt)

/-- Streams within the format, the link, what BCC allows, and the active chains (R116, R117). -/
def nssTop (r fmt : Nat) (blk : List Byte) (s : State) : Nat :=
  let n := min (fmtNss fmt) (if fmt ≥ 5 ∧ !usesLdpc fmt blk then 4 else 8)
  min (min n (max 1 (Config.linkNss blk))) (max 1 (liveChains r s))

/-- One user of a PPDU as its modulation sees it; its MCS is per stream. -/
structure ModUser where
  ruSize : Nat
  ruIndex : Nat
  mcs : Nat
  nss : Nat
  ldpc : Bool
  dcm : Bool
  stbc : Bool
  bytes : Nat
  deriving DecidableEq, Repr, Inhabited

/-- DCM and STBC for a link at a format, MCS and stream count: where the standard allows them and the link asks for them (R116). -/
def useDcm (fmt mcs nss : Nat) (blk : List Byte) : Bool :=
  (5 ≤ fmt && fmt ≤ 8) && [0, 1, 3, 4].contains mcs && nss ≤ 2 && Config.linkDcm blk
def useStbc (r fmt nss : Nat) (dcm : Bool) (blk : List Byte) (s : State) : Bool :=
  (3 ≤ fmt && fmt ≤ 8) && nss == 1 && !dcm && liveChains r s ≥ 2 && Config.linkStbc blk

/-- The modulation of one user of a link. -/
def linkMod (r fmt ruSize ruIndex mcs nss bytes : Nat) (blk : List Byte) (s : State) : ModUser :=
  let dcm := useDcm fmt mcs nss blk
  { ruSize := ruSize, ruIndex := ruIndex, mcs := mcs, nss := nss, ldpc := usesLdpc fmt blk, dcm := dcm
    stbc := useStbc r fmt nss dcm blk s, bytes := bytes }

/-- GI_LTF of a single-user PPDU (Table 5.9): what the link asks for, within the format. -/
def linkGiOf (fmt : Nat) (blk : List Byte) : Nat :=
  let g := Config.linkGi blk
  if fmt ≤ 2 then 0 else if fmt ≤ 4 then min g 1 else if 2 ≤ g ∧ g ≤ 7 then g else 4

/-- GI_LTF of a multi-user downlink PPDU: 2x LTF, 0.8 us; and of the TB PPDUs it triggers: 2x LTF, 1.6 us (DEDUCED from the symbols of
13.6 us and 14.4 us of spec/08_scheduled_access.md, log 90). -/
def muGi : Nat := 4
def tbGi : Nat := 5

/-- Guard interval and LTF length in ns of a GI_LTF code (Table 5.9). -/
def giNs (g : Nat) : Nat := [800, 400, 800, 1600, 800, 1600, 800, 3200].getD g 800
def ltfNs (g : Nat) : Nat := [0, 0, 3200, 3200, 6400, 6400, 12800, 12800].getD g 6400 + giNs g

/-- A data symbol in ns: 4 us with its guard interval, or 12.8 us and the guard interval. -/
def symNs (fmt gi : Nat) : Nat := if fmt ≤ 2 then 4000 else if fmt ≤ 4 then 3200 + giNs gi else 12800 + giNs gi

/-- LTF symbols for a number of streams. -/
def ltfCount (n : Nat) : Nat := if n ≤ 2 then max 1 n else 2 * ceilDiv n 2

/-- The most space-time streams in one RU. -/
def mostStreams (us : List ModUser) : Nat :=
  us.foldl (fun m u => max m ((us.filter fun v => v.ruSize == u.ruSize && v.ruIndex == u.ruIndex).map fun v => if v.stbc then 2 * v.nss else v.nss).sum) 1

/-- The preamble in ns, up to the data field. -/
def preNs (fmt bw gi : Nat) (us : List ModUser) : Nat :=
  let n := ltfCount (mostStreams us)
  match fmt with
  | 0 => 192000
  | 1 | 2 => 20000
  | 3 => 32000 + 4000 * n
  | 4 => 36000 + 4000 * n
  | 5 => 36000 + n * ltfNs gi
  | 6 => 44000 + n * ltfNs gi
  | 8 | 10 => 40000 + n * ltfNs gi
  | _ => 36000 + 4000 * Config.sigSymbols fmt bw us.length + n * ltfNs gi

/-- Data subcarriers: of the whole bandwidth in non-HT, HT and VHT, else of the RU (Table 5.3). -/
def dataSub (fmt bw ru : Nat) : Nat := if fmt ≤ 2 then 48 else if fmt ≤ 4 then [52, 108, 234, 468].getD bw 468 else ruSub ru

/-- Data bits per symbol times 12. HT-MCS 32 carries 24 bits. -/
def dbps12 (fmt bw : Nat) (u : ModUser) : Nat :=
  if fmt ≤ 2 then 12 * [24, 36, 48, 72, 96, 144, 192, 216].getD u.mcs 216
  else if fmt = 3 ∧ u.mcs = 32 then 288
  else dataSub fmt bw u.ruSize * mcsBits u.mcs * u.nss / (if u.dcm then 2 else 1)

/-- Subcarriers of a quarter of the last HE or EHT symbol, by size code. -/
def shortSub (ru : Nat) : Nat := [6, 12, 24, 60, 120, 240, 492, 984, 18, 30, 180, 360, 420, 612, 732, 852].getD ru 984

/-- Bits a user sends before padding: service, data, and the BCC tail. -/
def dataBits (fmt : Nat) (u : ModUser) : Nat := 8 * u.bytes + 16 + (if u.ldpc then 0 else 6)

/-- Symbols a user needs. -/
def symbolsOf (fmt bw : Nat) (u : ModUser) : Nat :=
  let m := if u.stbc then 2 else 1
  m * ceilDiv (12 * dataBits fmt u) (max 1 (m * dbps12 fmt bw u))

/-- Symbols of a PPDU that carries every user. -/
def symbolsFor (fmt bw : Nat) (us : List ModUser) : Nat := us.foldl (fun m u => max m (symbolsOf fmt bw u)) 1

/-- Pre-FEC and post-FEC padding bits of a user in `n` symbols: HE and EHT pad to a quarter of the last symbol before coding and to its
end after it; the other formats before coding alone. -/
def padOf (fmt bw n : Nat) (u : ModUser) : Nat × Nat :=
  let per := dbps12 fmt bw u / 12
  let all := n * per - dataBits fmt u
  if fmt < 5 then (all, 0)
  else
    let quarter := max 1 (shortSub u.ruSize * mcsBits u.mcs * u.nss / 12 / (if u.dcm then 2 else 1))
    let used := dataBits fmt u - (n - 1) * per
    let fill := if ceilDiv used quarter ≥ 4 then per else ceilDiv used quarter * quarter
    (min all (fill - used), all - min all (fill - used))

/-- Signal extension in ns of a radio's OFDM PPDU (Table 1.6). -/
def extNs (r fmt : Nat) : Nat := if r = 0 ∧ fmt ≠ 0 then 6000 else 0

/-- The duration in ns of a PPDU of `n` symbols. -/
def ppduNs (r fmt bw gi n pe : Nat) (us : List ModUser) : Nat := preNs fmt bw gi us + n * symNs fmt gi + pe + extNs r fmt

/-- Symbols that fit `td` ns. -/
def symbolsIn (r fmt bw gi td pe : Nat) (us : List ModUser) : Nat := (td - preNs fmt bw gi us - pe - extNs r fmt) / symNs fmt gi

/-- Bytes one user carries in `n` symbols. -/
def bytesIn (fmt bw n : Nat) (u : ModUser) : Nat := (n * dbps12 fmt bw u / 12 - 22) / 8

/-- A TB PPDU that carries a Block Ack or a buffer report: one stream and 2 data symbols, as in spec/08_scheduled_access.md's worked
furrow (DEDUCED, log 91). -/
def tbAckNs (r : Nat) : Nat := preNs 10 0 tbGi [] + 2 * symNs 10 tbGi + extNs r 10

/-- The responses that an element's PPDU solicits from `n` users, in ns: TB PPDUs after a DL_MU, BSRP or MU_BAR; a compressed Block Ack at 24
Mb/s after a DL_SU; the device's own multi-STA Block Ack at 24 Mb/s after the TB PPDUs of a BASIC_TRIGGER (Table 8.3; rates and sizes are IEEE
802.11's, PRESUMED, log 91). -/
def respNs (r code n : Nat) : Nat :=
  match code with
  | 3 => basicNs r 4 32
  | 4 => basicNs r 4 (22 + 12 * n)
  | _ => tbAckNs r

/-- L-SIG LENGTH of a HT, VHT, HE or EHT PPDU of `ns` ns: spoofed, so that its end at 6 Mb/s covers the PPDU (R132). -/
def spoofLength (r fmt ns : Nat) : Nat :=
  let m := if fmt = 5 ∨ fmt = 8 then 2 else if fmt = 6 ∨ fmt = 7 then 1 else 0
  3 * ceilDiv (ns - extNs r fmt - 20000) 4000 - 3 - m

/-- Cyclic shifts in ns of the pre-beamforming fields for a number of active chains (IEEE 802.11, up to 8). -/
def csdOf (n : Nat) : List Int :=
  match n with
  | 0 => []
  | 1 => [0]
  | 2 => [0, -200]
  | 3 => [0, -100, -200]
  | 4 => [0, -50, -100, -150]
  | 5 => [0, -175, -25, -50, -75]
  | 6 => [0, -200, -25, -150, -175, -125]
  | 7 => [0, -200, -150, -25, -175, -75, -50]
  | 8 => [0, -175, -150, -125, -25, -100, -50, -200]
  | _ => Config.csdWide n

/-- The largest PSDU of a format (Table 5.11), and the largest MPDU. -/
def psduLimit (fmt : Nat) : Nat :=
  if fmt ≤ 2 then 4095 else if fmt = 3 then 65535 else if fmt = 4 then 4692480 else if fmt ≤ 8 then 6500631 else 15523198
def mpduLimit (fmt : Nat) : Nat := if fmt ≤ 3 then 4095 else 11454

/-! Puncturing (R115, R152). -/

/-- Subchannels of the radio's channel that the static puncturing of its enabled BSSs leaves out. -/
def staticPunct (r : Nat) (s : State) : Nat :=
  ((List.range 16).map fun i =>
    let x := vget s.mac.bss (16 * r + i)
    if x.en then (match x.template with | some t => Config.staticPunct t.body | none => 0) else 0).foldl Nat.lor 0 % 2 ^ (2 ^ (vget s.fe r).bw)

/-- Subchannels of the `w`-wide block that holds the primary, as a set. -/
def primaryBlock (r w : Nat) (s : State) : Nat := (2 ^ (2 ^ w) - 1) * 2 ^ ((vget s.fe r).prim / 2 ^ w * 2 ^ w)

/-- A set of the channel's subchannels as those of the `w`-wide block that holds the primary. -/
def inBlock (r w mask : Nat) (s : State) : Nat := Nat.land mask (primaryBlock r w s) / 2 ^ ((vget s.fe r).prim / 2 ^ w * 2 ^ w)

/-- The width and size code of a single-user PPDU of at most `w`: EHT takes an MRU where subchannels are punctured, and any other format a
block without one. -/
def suShape (r fmt w punc : Nat) (s : State) : Nat × Nat :=
  let lost (v : Nat) : Nat := popCount 16 (Nat.land punc (primaryBlock r v s))
  let v := ((List.range (w + 1)).reverse.find? fun v => lost v == 0 || (fmt == 9 && v ≥ 2 && (mruCode (3 + v) (lost v)).isSome)).getD 0
  (v, if fmt < 5 then 255 else if lost v = 0 then 3 + v else (mruCode (3 + v) (lost v)).getD (3 + v))

end Sys2Proof.Machine
end

