-- ==== Sys2Proof/Machine/Hooks.lean ====
section
/-!
DEFINITION. What the radio and PHY chapters ask of the MAC and the Seeder: beaconing (R112), an enabled BSS, and the fences of
a channel (R111, R268).
-/
namespace Sys2Proof.Machine
open Sys2Proof

/-- Some BSS of the radio is beaconing (R112). -/
def bssBeacons (b : Nat) (s : State) : Bool :=
  (vget s.mac.bss b).en && (vget s.mac.bss b).beacon && (vget s.mac.bss b).template.isSome && s.life.mode != .startUp

def beaconing (r : Nat) (s : State) : Bool := (List.range 16).any fun i => bssBeacons (16 * r + i) s

def bssEnabled (b : Nat) (s : State) : Bool := (vget s.mac.bss b).en

/-- An entry of an ALLOWED_CHANNELS fence permits a channel (Table 11.4). -/
def entryAllows (p : List Byte) (centre bw prim : Nat) : Bool :=
  u16 p 0 == centre && u8 p 2 == bw && (u8 p 3 == 0xFF || u8 p 3 == prim)

/-- The ALLOWED_CHANNELS fence of a radio, with its number. -/
def channelFence (r : Nat) (s : State) : Option (Nat × Fence) := s.seed.fences.find? fun p => p.2.kind == 2 && u8 p.2.bytes 4 == r

/-- Entries of an ALLOWED_CHANNELS fence. -/
def fenceChannels (f : Fence) : List (List Byte) := (List.range (u8 f.bytes 5)).map fun i => slice f.bytes (8 + 4 * i) 4

/-- The radio's ALLOWED_CHANNELS fence permits a channel; none where it has no such fence. -/
def fenceAllows (r centre bw prim : Nat) (s : State) : Option Bool :=
  (channelFence r s).map fun f => (fenceChannels f.2).any fun e => entryAllows e centre bw prim

end Sys2Proof.Machine
end

