-- ==== Sys2Proof/Machine/Operands.lean ====
section
/-!
DEFINITION. Mailbox commands: how Builmin takes the next command of a mailbox, what it checks in which order (R45), where
the parameters and the completion data lie (R37), and what a command's end is.
-/
namespace Sys2Proof.Machine
open Sys2Proof

/-- What Builmin holds of the command it starts: its mailbox, handle, parameters, and the length of its host buffer. -/
structure Cmd where
  mbx : Nat
  handle : Word
  params : List Byte
  blen : Nat
  at_ : Nat
  deriving DecidableEq, Repr

/-- A row of a command table: opcode, INDIRECT required, LENGTH (none: it depends on a value that is out of range),
the largest completion data for the parameters given, and the range check of step 3. -/
structure Form where
  opcode : Nat
  indirect : Bool
  length : List Byte → Option Nat
  data : List Byte → Nat
  ok : List Byte → Bool

/-- How a command that passed step 3 goes on: it fails with no change (steps 4 and 5), completes, completes ahead of the
commands before it (ABORT_COMMAND, R42), or stays outstanding. -/
inductive Effect where
  | fail (st : Status)
  | complete (st : Status) (data : List Byte) (s : State)
  | ahead (st : Status) (data : List Byte) (s : State)
  | hold (s : State)
  deriving Repr

/-- An inline command of fixed LENGTH. -/
def inlineForm (op len data : Nat) (ok : List Byte → Bool) : Form :=
  { opcode := op, indirect := false, length := fun _ => some len, data := fun _ => data, ok := ok }

/-- An INDIRECT command whose parameters and data have fixed sizes. -/
def indirectForm (op len data : Nat) (ok : List Byte → Bool) : Form :=
  { opcode := op, indirect := true, length := fun _ => some len, data := fun _ => data, ok := ok }

/-- The opcodes of Table 2.24 and the command tables of the other chapters (R11). -/
def opcodeDefined (op : Nat) : Bool :=
  let lo := op % 256
  match op / 256 with
  | 0 => lo ≤ 0x03 | 1 => lo ≤ 0x0A | 2 => lo ≤ 0x06 | 3 => lo ≤ 0x0C | 4 => lo ≤ 0x07
  | 5 => lo ≤ 0x05 || (0x80 ≤ lo && lo ≤ 0x88) | 6 => lo ≤ 0x08 | 7 => lo ≤ 0x06 | 8 => lo ≤ 0x06 | 9 => lo ≤ 0x10
  | 10 => lo ≤ 0x04 | 11 => lo ≤ 0x0C | 12 => lo ≤ 0x06 | 13 => lo ≤ 0x03
  | 14 => lo == 0x00 || lo == 0x02 || lo == 0x04 || (0x80 ≤ lo && lo ≤ 0x84)
  | _ => false

/-- The command Builmin starts next in a mailbox: a queued ABORT_COMMAND, else the first queued one (R42). -/
def nextCmd (l : List CmdRec) : Option CmdRec :=
  match l.find? fun r => r.phase == .queued && hdrOpcode r == 2 with
  | some r => some r
  | none => l.find? (·.phase == .queued)

/-- The parameters: the inline bytes, or the start of the host buffer, of which `buf` is what Builmin reads (R37). -/
def cmdParams (f : Form) (r : CmdRec) (buf : List Byte) : List Byte :=
  if f.indirect then buf.take (u32 r.params 8) else r.params.take (hdrLength r)

/-- The R78 gate: radio, PHY, MAC, scheduler, Harrow, sounding, Seeder, rope and router ranges. -/
def needsDram (op : Nat) : Bool := (0x0100 ≤ op && op < 0x0800) || (0x0900 ≤ op && op < 0x0A00)

/-- Step 2 of R45. -/
def lengthOk (f : Form) (r : CmdRec) (ps : List Byte) : Bool :=
  if f.indirect then
    hdrIndirect r && hdrLength r == 16 &&
      (match f.length ps with
       | some n => n ≤ u32 r.params 8 && f.data ps ≤ u32 r.params 8
       | none => true)
  else
    !hdrIndirect r && f.data ps ≤ 16 &&
      (match f.length ps with
       | some n => hdrLength r == n
       | none => true)

/-- Step 3 of R45: header reserved bits, INDIRECT bytes, and the command's own ranges. -/
def paramOk (f : Form) (r : CmdRec) (ps : List Byte) : Bool :=
  bits (hdrFlags r) 1 7 == 0 && zeros r.hdr 6 2 &&
    (!f.indirect || (zeros r.params 12 4 && u32 r.params 0 % 8 == 0 && 1 ≤ u32 r.params 8 && u32 r.params 8 ≤ 65536)) && f.ok ps

/-- Steps 1 to 3 of R45 and the R78 gate of step 4: the status of the first failure. -/
def cmdCheck (f : Form) (r : CmdRec) (ps : List Byte) (s : State) : Option Status :=
  if !lengthOk f r ps then some .badLength
  else if !paramOk f r ps then some .badParam
  else if needsDram f.opcode && !s.dram.ready then some .wrongState
  else none

/-- ABORT_COMMAND's own completion leaves ahead of the others (R42). -/
def finishAhead (r : CmdRec) (st : Status) (data : List Byte) (s : State) : State :=
  queueCompletion (hdrCq r) { mkCompletion r st data with ahead := true }
    (withMbx (handleMbx r.handle) (fun b => { b with cmds := b.cmds.filter (·.handle != r.handle) }) s)

/-- Builmin starts the next command of mailbox `m`, if it is one of this form: it checks it (R45) and runs it. Where the
next command is another one, or none waits, or Builmin does not run, this step does not arise and changes nothing. -/
def command (f : Form) (m : Nat) (buf : List Byte) (s : State) (run : Cmd → State → Effect) : Host.Outcome State Fault Refusal :=
  if !running s then .next s
  else
    match nextCmd (vget s.host.mbx m).cmds with
    | none => .next s
    | some r =>
      if hdrOpcode r ≠ f.opcode then .next s
      else
        let ps := cmdParams f r buf
        match cmdCheck f r ps s with
        | some st => .next (finish r.handle st [] s)
        | none =>
          match run { mbx := m, handle := r.handle, params := ps, blen := if f.indirect then u32 r.params 8 else 16, at_ := r.at_ }
              (setPhase r.handle .running s) with
          | .fail st => .next (finish r.handle st [] s)
          | .complete st data t => .next (finish r.handle st data t)
          | .ahead st data t => .next (finishAhead r st data t)
          | .hold t => .next t

/-- A command that only reads: it completes with OK and data. -/
def answer (data : List Byte) (s : State) : Effect := .complete .ok data s

/-- A command that completes with OK and no data. -/
def okay (s : State) : Effect := .complete .ok [] s

end Sys2Proof.Machine
end

