-- ==== Sys2Proof/Machine/Radio.lean ====
section
/-!
DEFINITION. Radios, synthesisers and front-end control (spec/04_radio_front_end.md).
-/
namespace Sys2Proof.Machine
open Sys2Proof

def withChain (r c : Nat) (f : Chain → Chain) (s : State) : State := withFe r (fun e => { e with chains := vmod e.chains c f }) s

/-- The tuning range in MHz and the widest bandwidth code (Table 4.1, Table 4.20). -/
def tuneLo (r : Nat) : Nat := if r = 0 then 2400 else 4900
def tuneHi (r : Nat) : Nat := if r = 0 then 2500 else 7125
def maxBw (r : Nat) : Nat := match r with | 0 => 1 | 1 => 3 | _ => 4

/-- Codes of Table 4.3. -/
def stateCode : RState → Nat
  | .off => 0 | .sleep => 1 | .standby => 2 | .rx => 3 | .tx => 4 | .cal => 5

def stateOfCode : Nat → RState
  | 0 => .off | 1 => .sleep | 2 => .standby | _ => .rx

/-- The state reported (R84): CAL throughout a calibration, else the state last reached. -/
def reportState (r : Nat) (s : State) : RState :=
  if (vget s.fe r).cal.isSome || (vget s.bf.radio r).running then .cal else (vget s.fe r).state

/-- A frame exchange is in progress (R87): a PPDU sent or received, or a response owed or awaited. -/
def inExchange (r : Nat) (s : State) : Bool :=
  let e := vget s.fe r
  e.tx.isSome || (vget s.phy r).rx.isSome || e.owesResp || e.awaits

/-- A PPDU of class 3 (Table 4.14). -/
def kindProtected : TxKind → Bool
  | .beacon | .launch | .coord | .response => true
  | .edca | .test | .wur | .control => false

/-- The activity class (Table 4.14). -/
def radioClass (r : Nat) (s : State) : Nat :=
  let e := vget s.fe r
  match e.tx with
  | some t => if kindProtected t.kind then 3 else 2
  | none => if e.owesResp then 3 else if (vget s.phy r).rx.isSome then 1 else 0

/-! Coexistence. -/

def coexEn (r : Nat) (s : State) : Bool := s.coex.ctrl.getLsbD r

/-- POLICY[PRI' x 4 + CLASS] (Table 4.17). -/
def coexPolicy (r : Nat) (s : State) : Bool :=
  s.coex.policy.getLsbD (8 * r + (if (vget s.fe r).pri then 4 else 0) + radioClass r s)

/-- The grant equation (R105). -/
def gntNow (r : Nat) (s : State) : Bool :=
  coexEn r s && (vget s.fe r).req && coexPolicy r s && !(vget s.fe r).hold

/-- WLANx_ACT (R110). -/
def wlanAct (r : Nat) (s : State) : Bool := coexEn r s && s.coex.ctrl.getLsbD (4 + 4 * r + radioClass r s)

/-- GNT follows its inputs (R105): a rising edge counts, and ends a PPDU of class 2 (R107). -/
def grantUpdate (r : Nat) (s : State) : State :=
  let g := gntNow r s
  let e := vget s.fe r
  if g && !e.gnt then
    let t := feCount r 8 (withFe r (fun e => { e with gnt := true })
      { s with coex := { s.coex with grants := vmod s.coex.grants r sat32 } })
    match e.tx with
    | some x =>
      if kindProtected x.kind || x.aborted then t
      else feCount r 9 (withFe r (fun e => { e with tx := some { x with aborted := true } }) t)
    | none => t
  else withFe r (fun e => { e with gnt := g }) s

/-! The medium (R145, R147). -/

/-- The primary 20 MHz is busy (R147): a preamble detected, power at ED_PRI, or the NAV. -/
def ccaBusy (r : Nat) (s : State) : Bool :=
  let m := vget s.mac.radio r
  (match (vget s.phy r).rx with | some x => !x.obss | none => false) || bit m.energy (vget s.fe r).prim || m.navBasic.isSome || m.navIntra.isSome

/-- The radio is in RX and senses the medium. -/
def senses (r : Nat) (s : State) : Bool :=
  let e := vget s.fe r
  e.state == .rx && e.trans.isNone && e.tx.isNone && e.cal.isNone && e.sw.isNone && !(vget s.bf.radio r).running

/-- Since when the primary is sensed idle. -/
def idleUpdate (r : Nat) (s : State) : State :=
  let quiet := senses r s && !ccaBusy r s
  withRm r (fun m => { m with idleAt := if quiet then some (m.idleAt.getD s.now) else none }) s

/-- It has been for `ns` ns. -/
def idleFor (r ns : Nat) (s : State) : Bool := match (vget s.mac.radio r).idleAt with | some t => 2 * (s.now - t) ≥ ns | none => false

/-- What follows every change of a radio's activity: its grant, and whether the medium is idle. -/
def coexUpdate (r : Nat) (s : State) : State := idleUpdate r (grantUpdate r s)

/-- Every radio's grant follows a change of the policy or of activity. -/
def coexAll (s : State) : State := coexUpdate 2 (coexUpdate 1 (coexUpdate 0 s))

/-- Number of rising edges in the last millisecond (half-open window). -/
def risesIn (now : Nat) (l : List Nat) : List Nat := l.filter fun t => now < t + 500000

/-- COEX_REQ_CHANGE (R105, R107 to R109): a low level ends a stuck hold; a rise of an enabled radio's pin counts toward LIMIT.
COEX_FAST counts at every rise beyond LIMIT: R109 does not say whether once per window (DESIGN CHOICE, log 89). -/
def coexReq (r : Nat) (level : Bool) (s : State) : State :=
  let e := vget s.fe r
  if level = e.req then s
  else if !level then coexUpdate r (withFe r (fun e => { e with req := false, hold := false }) s)
  else if !coexEn r s then withFe r (fun e => { e with req := true, reqAt := s.now }) s
  else
    let rs := s.now :: risesIn s.now e.rises
    let t := withFe r (fun e => { e with req := true, reqAt := s.now, rises := rs }) s
    let u := if s.coex.toggle ≠ 0 ∧ rs.length > s.coex.toggle then
        feCount r 12 { t with coex := { t.coex with fast := t.coex.fast ||| (1#3 <<< r) } }
      else t
    coexUpdate r u

def execCoexReqChange (r : Radio) (level : Bool) (s : State) : Host.Outcome State Fault Refusal :=
  whenLive s (coexReq (rnum r) level)

def execCoexPriChange (r : Radio) (level : Bool) (s : State) : Host.Outcome State Fault Refusal :=
  whenLive s fun s => coexUpdate (rnum r) (withFe (rnum r) (fun e => { e with pri := level }) s)

/-- COEX_STUCK (R108): REQ' has stayed high for COEX_MAX_HOLD. -/
def coexStuck (r : Nat) (s : State) : State :=
  let e := vget s.fe r
  if !e.req || e.hold || !coexEn r s || s.now < e.reqAt + 500 * s.coex.maxHold then s
  else
    let t := withFe r (fun e => { e with hold := true })
      { s with coex := { s.coex with stuck := s.coex.stuck ||| (1#3 <<< r) } }
    raise .coexStuck r [] (feCount r 11 (coexUpdate r t))

def execCoexStuck (r : Radio) (s : State) : Host.Outcome State Fault Refusal := whenLive s (coexStuck (rnum r))

def execCoexGrantsRead (r : Radio) (s : State) : Host.Outcome State Fault Refusal :=
  whenLive s fun s => { s with coex := { s.coex with grants := vset s.coex.grants (rnum r) 0 } }

/-! Front-end maps. -/

/-- The map entries of one event (Table 4.12), in map order. -/
def femEntries (ev : Nat) (e : RadioFe) : List (List Byte) := e.femMap.filter fun b => u8 b 0 == ev

/-- The shortest command that reaches a register (Table 4.11, Table 4.12): Register 0 Write carries 7 data bits, Register Write
a 5-bit address, Extended Register Write an 8-bit one. -/
def writeCmd (addr data mask : Nat) : RffeCmd :=
  if mask ≠ 0xFF then .maskedWrite
  else if addr = 0 ∧ data < 128 then .reg0Write
  else if addr < 32 then .regWrite
  else if addr < 256 then .extWrite
  else .extWriteLong

def readCmd (addr : Nat) : RffeCmd := if addr < 32 then .regRead else if addr < 256 then .extRead else .extReadLong

/-- One RFFE write on a bus of a radio. -/
def rffeWrite (r bus usid addr data mask : Nat) (s : State) : State :=
  emit (.rffe r bus usid (writeCmd addr data mask) addr data mask) s

/-- The write of a map entry. -/
def femWrite (r : Nat) (b : List Byte) (s : State) : State :=
  rffeWrite r (bits (u8 b 1) 0 1) (u8 b 2) (u16 b 4) (u8 b 6) (u8 b 7) s

/-- The trigger that applies an event's staged writes (R98, Tables 4.9, 4.10): triggers 0 to 2 of PM_TRIG, to the broadcast USID,
on each bus that holds entries of the event (DESIGN CHOICE, log 89). -/
def femTrigger (r ev : Nat) (s : State) : State :=
  [0, 1].foldl (fun t bus =>
    if (femEntries ev (vget t.fe r)).any fun b => bits (u8 b 1) 0 1 == bus then rffeWrite r bus 0 0x1C 0x07 0xFF t else t) s

def femIssue (r ev : Nat) (s : State) : State := (femEntries ev (vget s.fe r)).foldl (fun t b => femWrite r b t) s

/-- The writes of a state entry (R98). -/
def femEnter (r : Nat) (st : RState) (s : State) : State :=
  match st with
  | .rx => femIssue r 0 s
  | .standby => femIssue r 0 (femIssue r 2 s)
  | .tx => femIssue r 1 s
  | .sleep => femIssue r 3 s
  | .off => femIssue r 4 s
  | .cal => s

/-- The SEGMENT entries of a segment (R98). -/
def femSegment (r seg : Nat) (s : State) : State :=
  ((femEntries 5 (vget s.fe r)).filter fun b => bits (u8 b 1) 2 4 == seg).foldl (fun t b => femWrite r b t) s

/-- RADIO_SET_FEM_MAP's rules (Table 4.12, R97). -/
def femEntryOk (r : Nat) (b : List Byte) : Bool :=
  let ev := u8 b 0
  let c := u8 b 1
  ev ≤ 5 && bits c 6 2 == 0 && (if ev == 5 then bits c 2 4 < segCountOf r else bits c 2 4 == 0) &&
    (1 ≤ u8 b 2 && u8 b 2 ≤ 15) && u8 b 3 == 0 && (bit c 1 == (ev ≤ 1))

def femEventOk (l : List (List Byte)) (ev bus : Nat) : Bool :=
  (l.filter fun b => u8 b 0 == ev && bits (u8 b 1) 0 1 == bus).length ≤ if ev ≤ 1 then 8 else 32

def femList (p : List Byte) : List (List Byte) := (List.range (u16 p 2)).map fun i => slice p (4 + 8 * i) 8

def femMapOk (p : List Byte) : Bool :=
  u16 p 2 ≤ 256 && (femList p).all (femEntryOk (u8 p 0)) &&
    (List.range 6).all fun ev => femEventOk (femList p) ev 0 && femEventOk (femList p) ev 1

/-! Chains. -/

/-- The sum of the last 16 measurements; the mean is compared as 16 times its value. -/
def measSum (c : Chain) : Nat := c.meas.sum

/-- Table 4.13: T, T - 3 dB and T - 6 dB in 0.5 dB units, against the mean of 16. -/
def judgeState (c : Chain) : ChainSt :=
  let m := measSum c
  if m ≥ 16 * c.rlThresh then .active
  else if m + 16 * 6 ≥ 16 * c.rlThresh then .derated3
  else if m + 16 * 12 ≥ 16 * c.rlThresh then .derated6
  else .fallow

/-- A chain's INSTANCE (R99): 16 times the radio plus the chain, an encoding the spec does not give (DESIGN CHOICE, log 89). -/
def chainInst (r c : Nat) : Nat := 16 * r + c

/-- Where a radio may go: one with every chain counted out, or its fallback engine fenced, stays in STANDBY (R104, Table 19.1). -/
def mayGo (r : Nat) (t : RState) (s : State) : RState := if radioOut r s && (t == .rx || t == .tx) then .standby else t

/-- A radio goes to its configured return state (R85, R89). -/
def toReturn (r : Nat) (s : State) : State :=
  let t := mayGo r (vget s.fe r).ret s
  withFe r (fun e => if e.state = t then { e with trans := none } else { e with trans := some t, locking := false }) s

/-- The radio is in RX searching, STANDBY or SLEEP, owes no response, and neither calibrates nor moves. -/
def quietRadio (r : Nat) (s : State) : Bool :=
  let e := vget s.fe r
  (e.state == .rx || e.state == .standby || e.state == .sleep) && !inExchange r s && e.cal.isNone && e.trans.isNone &&
    e.sw.isNone && e.stateRun.isNone && !(vget s.bf.radio r).running

/-- A BSS sends its own beacons (R171, R175): not a nontransmitting member of a set, nor the BSS of a station interface. -/
def ownBeacons (b : Nat) (s : State) : Bool :=
  let x := vget s.mac.bss b
  let up := match (vget s.mac.radio (bssRadio b)).uplink with | some u => u.bss == b | none => false
  bssBeacons b s && !up && !(x.setTx.isSome && !x.transmits)

/-- Microseconds to the next TBTT of a BSS, 0 at one (R335). -/
def tbttIn (b : Nat) (s : State) : Nat :=
  let x := vget s.mac.bss b
  let per := x.interval * 1024
  (per - (tsfOf b s + per - x.tbttOffset * 1024 % per) % per) % per

/-- An announced switch of `count` beacon intervals (R112, R174): the lowest BSS of the radio that beacons, and its TSF at the TBTT where its
beacon would carry a count of 0; none where nothing announces it. -/
def announceAt (r count : Nat) (s : State) : Option (Nat × Nat) :=
  if count = 0 then none
  else
    (((List.range 16).map (16 * r + ·)).find? fun b => ownBeacons b s).map fun b =>
      let per := (vget s.mac.bss b).interval * 1024
      (b, tsfOf b s + (if tbttIn b s = 0 then per else tbttIn b s) + count * per)

/-- Nanoseconds until the switch instant. -/
def switchIn (q : ChanReq) (s : State) : Nat := match q.at_ with | some (b, t) => 1000 * t - tsfNs b s | none => 0

/-- The slot a channel change that waits falls in: the last boundary at or before the TBTT that R174 names (R317). -/
def changeSlot (q : ChanReq) (s : State) : Nat := (ropeNs s + switchIn q s) / slotNs

/-- The switch instant of a change that waits has come: its TBTT, or in coordinated mode the slot boundary at or before it (R174,
R317); a change that is not announced has none. -/
def switchDue (q : ChanReq) (s : State) : Bool :=
  match q.at_ with
  | some (b, t) => decide (t ≤ tsfOf b s) || (coordMode s && changeSlot q s ≤ slotNow s)
  | none => true

/-- A launch-timed frame, a coordinated TXOP start or a TBTT of the radio falls in the next `ns` nanoseconds. -/
def dueWithin (ns r : Nat) (s : State) : Bool :=
  (vget s.mac.radio r).launchQ.any (fun f => match f.launch with
    | some (n, v) => (v + 2 ^ 32 - tbTotal n s % 2 ^ 32) % 2 ^ 32 < ns
    | none => false) ||
  (vget s.sched.radio r).pitch.any (fun p => p.txops.any fun x => ropeNs s ≤ p.start + x.1 && p.start + x.1 < ropeNs s + ns) ||
  (List.range 16).any fun i => ownBeacons (16 * r + i) s && tbttIn (16 * r + i) s * 1000 < ns

/-- The third condition of R91 fails: one of them falls in the next 200 us. -/
def dueSoon (r : Nat) (s : State) : Bool := dueWithin 200000 r s

/-- R91: every condition for the start of a pending calibration. -/
def calMayStart (r : Nat) (s : State) : Bool := quietRadio r s && !(vget s.fe r).txopHeld && !dueSoon r s

/-- A radio's chain set has changed: a furrow that depends on the old one is discarded, and a radio that loses its last chain, or
gains one again, goes to its place (R104). -/
def chainsChanged (r : Nat) (was : Bool) (s : State) : State :=
  let t := furrowDiscard r s
  if was == radioOut r t || !quietRadio r t || (vget t.fe r).txopHeld then t else toReturn r t

/-- A chain takes its next state: a state of mismatch raises the event of R101; one restored is judged after 16 measurements. -/
def takeState (r c : Nat) (st : ChainSt) (s : State) : State :=
  let old := vget (vget s.fe r).chains c
  let derated := st == .derated3 || st == .derated6
  let t := withChain r c (fun k => { k with
      st := st, stNext := none
      judge := k.judge || (k.st == .fallow && derated)
      fresh := if k.st == .fallow && derated then 0 else k.fresh
      meas := if k.st == .fallow && derated then [] else k.meas
      search := if st == .fallow || st == .fallowAge then none else k.search
      deratedAt := if derated then s.now else k.deratedAt }) s
  if old.st = st then t
  else if derated then raise .chainDerated (chainInst r c) [] t
  else if st = .fallow ∨ st = .fallowAge then raise .chainFallow (chainInst r c) [] t
  else t

/-- A chain takes what waits for a furrow boundary. -/
def takeChain (r c : Nat) (s : State) : State :=
  let s1 := withChain r c (fun k => match k.cfgNext with
    | some g => { k with
        hostEn := g.hostEn, backoff := g.backoff, rlThresh := g.rlThresh, tuner := g.tuner, cfgNext := none
        search := if g.hostEn && k.tuner == g.tuner then k.search else none }
    | none => k) s
  let s2 := withChain r c (fun k => match k.ageNext with | some d => { k with ageDerate := d, ageNext := none } | none => k) s1
  match (vget (vget s2.fe r).chains c).stNext with
  | some st => takeState r c st s2
  | none => s2

/-- Something of a chain waits for a furrow boundary. -/
def chainWaits (k : Chain) : Bool := k.stNext.isSome || k.cfgNext.isSome || k.ageNext.isSome

/-- Changes to chains take effect at a furrow boundary (R104): no TXOP is held and no PPDU is in progress. -/
def chainBoundary (r : Nat) (s : State) : State :=
  let e := vget s.fe r
  if e.txopHeld || e.tx.isSome || (vget s.phy r).rx.isSome || !(e.chains.toList.any chainWaits) then s
  else
    let t := (List.range 16).foldl (fun t c => takeChain r c t) s
    if chainMask r t = chainMask r s then t else chainsChanged r (radioOut r s) t

/-- A chain's state changes (R101): at the next furrow boundary. -/
def setChainState (r c : Nat) (st : ChainSt) (s : State) : State :=
  chainBoundary r (withChain r c (fun k => { k with stNext := if k.stNext = some .fallowAge then k.stNext else some st, judge := false }) s)

/-- The codes a trial stands for: one code moved by the step, clipped to the range (R100). -/
def trialCode (q : TuneSearch) (codeMax : Nat) : Nat :=
  let c := if q.second then q.code2 else q.code1
  if q.minus then c - q.step else min codeMax (c + q.step)

/-- Writes one tuner code. -/
def writeCode (r : Nat) (t : Tuner) (second : Bool) (v : Nat) (s : State) : State :=
  rffeWrite r t.bus t.usid (if second then t.reg2.getD 0 else t.reg1) v 0xFF s

/-- The search goes to its next trial, or ends (none) after step 1 (R100). -/
def nextTrial (t : Tuner) (q : TuneSearch) : Option TuneSearch :=
  if !q.minus then some { q with minus := true }
  else
    let q1 := if q.second then { q with code2 := q.best, minus := false } else { q with code1 := q.best, minus := false }
    if !q.second && t.reg2.isSome then some { q1 with second := true, best := q1.code2 }
    else if q.step ≤ 1 then none
    else some { q1 with second := false, step := q.step / 4, best := q1.code1 }

/-- The codes a finished search leaves. -/
def endCodes (q : TuneSearch) : Nat × Nat := if q.second then (q.code1, q.best) else (q.best, q.code2)

/-- Starts the search of a chain with a tuner; a chain without one goes to Table 4.13 at once (R100, R101). The pseudocode gives
rl(best) no value before the first trial: it is the floor of the mean of the last 16 measurements (DESIGN CHOICE, log 89). -/
def startSearch (r c : Nat) (s : State) : State :=
  let k := vget (vget s.fe r).chains c
  match k.tuner with
  | none => withChain r c (fun k => { k with judge := true, fresh := 0, search := none }) s
  | some t =>
    let q : TuneSearch := { code1 := k.code1, code2 := k.code2, best := k.code1, bestRl := measSum k / 16 }
    feCount r 16 (writeCode r t false (trialCode q t.codeMax)
      (withChain r c (fun k => { k with search := some q, judge := false, fresh := 0 }) s))

/-- One trial measured `rl` (R100). -/
def searchStep (r c rl : Nat) (t : Tuner) (q : TuneSearch) (s : State) : State :=
  let q1 := if rl > q.bestRl then { q with best := trialCode q t.codeMax, bestRl := rl } else q
  match nextTrial t q1 with
  | some q2 => writeCode r t q2.second (trialCode q2 t.codeMax) (withChain r c (fun k => { k with search := some q2 }) s)
  | none =>
    let e := endCodes q1
    let u := writeCode r t false e.1 (withChain r c (fun k =>
      { k with search := none, code1 := e.1, code2 := e.2, judge := true, fresh := 0 }) s)
    if t.reg2.isSome then writeCode r t true e.2 u else u

/-- One return-loss measurement of a chain, in 0.5 dB (R99 to R103). -/
def measureChain (r c rl : Nat) (s : State) : State :=
  let k := vget (vget s.fe r).chains c
  if c ≥ chainCount r ∨ chainOut k = true then s
  else
    let s1 := withChain r c (fun k => { k with total := (k.total + 1) % 2 ^ 32, fresh := k.fresh + 1,
                                                meas := (rl :: k.meas).take 16 }) s
    let k1 := vget (vget s1.fe r).chains c
    match k.search, k.tuner with
    | some q, some t => searchStep r c rl t q s1
    | _, _ =>
      if k1.judge then
        if k1.fresh ≥ 16 then setChainState r c (judgeState k1) s1 else s1
      else if k1.st = .active ∧ k1.meas.length ≥ 16 ∧ measSum k1 < 16 * k1.rlThresh then
        startSearch r c (feCount r 15 (raise .chainMismatch (chainInst r c) [] s1))
      else s1

/-- Searches that wait start once no PPDU is on the air (R100). -/
def startDue (r : Nat) (s : State) : State :=
  let e := vget s.fe r
  if e.tx.isSome || (vget s.phy r).rx.isSome || !(e.chains.toList.any (·.searchDue)) then s
  else (List.range 16).foldl (fun t c =>
    if (vget (vget t.fe r).chains c).searchDue then startSearch r c (withChain r c (fun k => { k with searchDue := false }) t) else t) s

/-- DERATE_RESEARCH (R102): 60 s after it was derated a chain is searched again, at the next gap between PPDUs. -/
def derateResearch (r c : Nat) (s : State) : State :=
  let k := vget (vget s.fe r).chains c
  if chainOut k = true ∨ k.search.isSome = true ∨ k.judge = true ∨ ¬(k.st = .derated3 ∨ k.st = .derated6) ∨
      s.now < k.deratedAt + 30000000000 then s
  else startDue r (withChain r c (fun k => { k with searchDue := true }) s)

def execDerateResearch (r : Radio) (c : Fin 16) (s : State) : Host.Outcome State Fault Refusal :=
  whenLive s (derateResearch (rnum r) c)

/-! Calibration and state changes. -/

/-- Starts a calibration: it counts by its cause (R89). -/
def startCal (r seg : Nat) (cause : CalCause) (s : State) : State :=
  let i := match cause with | .temp => 3 | .command => 4 | .firstUse => 5
  feCount r i (withFe r (fun e => { e with cal := some { seg := seg, cause := cause }, trans := none, powering := false }) s)

/-- Locks on the segment in use, into STANDBY: a stale segment is calibrated, from OFF after the 60 us power-up (R89, Table 4.4). -/
def startLock (r : Nat) (s : State) : State :=
  let e := vget s.fe r
  if vget e.segValid (segUse r e) then withFe r (fun e => { e with trans := some .standby, locking := true }) s
  else if e.state = .off then withFe r (fun e => { e with trans := some .standby, powering := true }) s
  else startCal r (segUse r e) .firstUse s

/-- A move to a state by Table 4.4; one the table does not list runs through STANDBY (R84). -/
def goTo (r : Nat) (target : RState) (s : State) : State :=
  let e := vget s.fe r
  if target ≠ .off ∧ (e.state = .off ∨ e.state = .sleep) then
    startLock r (withFe r (fun e => { e with goal := if target = .standby then none else some (.state target) }) s)
  else withFe r (fun e => { e with trans := some target, locking := false }) s

/-- A radio leaves OFF: CAIRN_RESTORE is refused from now on (R79). -/
def leaveOff (r : Nat) (s : State) : State :=
  if (vget s.fe r).state = .off then withLife (fun l => { l with radioLeftOff := true }) s else s

/-- Completion data of RADIO_SET_CHANNEL. -/
def chanData (r : Nat) (e : RadioFe) (cals us : Nat) : List Byte := [byte (segUse r e), byte cals] ++ le 2 us

/-- The channel of a request becomes the radio's. -/
def storeChannel (r : Nat) (q : ChanReq) (s : State) : State :=
  bfChannel r (withFe r (fun e => { e with bw := q.bw, prim := q.prim, centre := q.centre }) s)

/-- The waiting commands of a radio that goes to OFF end (R473). -/
def offEnds (r : Nat) (s : State) : State :=
  let e := vget s.fe r
  -- RADIO_SET_CHANNEL stores the channel and completes with OK.
  let s1 := match e.chanReq with
    | some q =>
      let t := withFe r (fun e => { e with chanReq := none }) (storeChannel r q s)
      finishOpt q.handle .ok (chanData r (vget t.fe r) 0 0) t
    | none => s
  let s2 := match e.sw with
    | some (h, _, _) => finishOpt h .ok (chanData r (vget s1.fe r) 0 0) (withFe r (fun e => { e with sw := none }) s1)
    | none => s1
  -- RADIO_SET_STATE: OK where its target is OFF, else ABORTED.
  let s3 := e.stateReq.foldl (fun t q => finish q.1 (if q.2.1 = .off then .ok else .aborted) [] t)
    (withFe r (fun e => { e with stateReq := [] }) s2)
  -- RADIO_CALIBRATE: OK only where every named segment was calibrated.
  let s4 := (e.calCmd.toList ++ e.calWait).foldl
    (fun t c => finish c.handle (if c.started ∧ c.segs = 0 then .ok else .aborted) [] t)
    (withFe r (fun e => { e with calCmd := none, calWait := [] }) s3)
  -- PHY_TEST_TX and the one that stops it; BF_RECALIBRATE.
  let s5 := match e.testTx with
    | some x => finish x.handle .aborted (le 4 x.sent) (withFe r (fun e => { e with testTx := none }) s4)
    | none => s4
  let s6 := match e.testStop with
    | some h => finish h .ok (le 4 0) (withFe r (fun e => { e with testStop := none }) s5)
    | none => s5
  recipOff r s6

/-- RADIO_STATE_APPLY (R87): the first waiting change starts once no exchange, calibration or transition runs; a TXOP is given up. -/
def stateApply (r : Nat) (s : State) : State :=
  let e := vget s.fe r
  match e.stateReq with
  | [] => s
  | (h, want, ret) :: rest =>
    let target := mayGo r want s
    if inExchange r s || e.cal.isSome || e.trans.isSome || e.stateRun.isSome || e.sw.isSome || (vget s.bf.radio r).running then s
    else
      let s1 := withFe r (fun e => { e with stateReq := rest, ret := ret, goal := none, relocked := false }) s
      if target = .off then
        let s2 := offEnds r (giveUpTxop r s1)
        if e.state = .off then finish h .ok [] s2
        else goTo r .off (withFe r (fun e => { e with stateRun := some h, calPending := none }) s2)
      else if target = e.state then finish h .ok [] s1
      else goTo r target (withFe r (fun e => { e with stateRun := some h }) (leaveOff r (giveUpTxop r s1)))

def execRadioStateApply (r : Radio) (s : State) : Host.Outcome State Fault Refusal := whenRunning s (stateApply (rnum r))

/-- RADIO_CALIBRATE and its relock are over. -/
def calCmdEnd (r : Nat) (s : State) : State :=
  match (vget s.fe r).calCmd with
  | some c =>
    if c.started ∧ c.segs = 0 then
      finish c.handle .ok [] (withFe r (fun e => { e with calCmd := e.calWait.head?, calWait := e.calWait.tail }) s)
    else s
  | none => s

/-- The lock of a channel change, of RADIO_CALIBRATE or of a start is reached: waiting commands complete. -/
def lockDone (r : Nat) (s : State) : State :=
  let s1 := match (vget s.fe r).sw with
    | some (h, cals, us) =>
      finishOpt h .ok (chanData r (vget s.fe r) cals us) (withFe r (fun e => { e with sw := none }) s)
    | none => s
  calCmdEnd r (withFe r (fun e => { e with relocked := e.relocked || e.stateRun.isSome }) s1)

/-- RADIO_AUTO_WAKE (R86): a radio whose return state is STANDBY or SLEEP leaves it by itself, to RX or TX; in START_UP
never to TX (R87). -/
def autoWake (r : Nat) (tx : Bool) (s : State) : State :=
  let e := vget s.fe r
  if (e.state ≠ .standby ∧ e.state ≠ .sleep) ∨ e.trans.isSome = true ∨ e.cal.isSome = true ∨ radioOut r s = true then s
  else goTo r (if tx && s.life.mode != .startUp then .tx else .rx) s

def execRadioAutoWake (r : Radio) (tx : Bool) (s : State) : Host.Outcome State Fault Refusal :=
  whenLive s (autoWake (rnum r) tx)

/-- SYN_TEMP_SAMPLE (R88): 12.0 degrees off its calibration temperature a segment is stale; the one in use of a radio that
is not OFF has a calibration pending. -/
def tempSample (r : Nat) (temp : Int) (s : State) : State :=
  let e := vget s.fe r
  let stale (i : Nat) : Bool := (vget e.segTemp i - temp).natAbs ≥ 120
  let v := Vector.ofFn fun (i : Fin 4) => e.segValid[i] && !stale i.val
  let pend := vget e.segValid (segUse r e) && stale (segUse r e) && e.state != .off
  withFe r (fun e => { e with temp := temp, segValid := v, calPending := if pend then some s.now else e.calPending }) s

def execSynTempSample (r : Radio) (temp : Int) (s : State) : Host.Outcome State Fault Refusal :=
  whenLive s (tempSample (rnum r) temp)

/-- The next segment of a RADIO_CALIBRATE: the named ones in ascending order, the one in use last (R89). -/
def nextSeg (r : Nat) (e : RadioFe) (segs : Nat) : Option Nat :=
  let use := segUse r e
  match (List.range 4).find? fun i => bit segs i && i != use with
  | some i => some i
  | none => if bit segs use then some use else none

/-- The pending temperature calibration starts. -/
def calTemp (r : Nat) (s : State) : State := startCal r (segUse r (vget s.fe r)) .temp s

/-- Starts or goes on with what calibration waits: the host's command, else the pending one; from RX through STANDBY. -/
def calBegin (r : Nat) (s : State) : State :=
  let e := vget s.fe r
  if e.state = .rx then
    if e.calCmd.isSome ∨ e.calPending.isSome then
      withFe r (fun e => { e with trans := some .standby, locking := false, goal := some .calibrate }) s
    else s
  else
    match e.calCmd with
    | some c =>
      if e.state = .sleep then
        -- R89 step 1: to STANDBY first, by Table 4.4.
        let t := withFe r (fun e => { e with calCmd := some { c with started := true } }) s
        if e.calPending.isSome then calTemp r t else startLock r t
      else
        match nextSeg r e c.segs with
        | some i =>
          startCal r i .command (withFe r (fun e => { e with calCmd := some { c with segs := c.segs - 2 ^ i, started := true } }) s)
        | none => s
    | none => if e.calPending.isSome then calTemp r s else s

/-- A RADIO_CALIBRATE under way has named segments left. -/
def calMore (s : State) (r : Nat) : Bool :=
  match (vget s.fe r).calCmd with
  | some c => c.started && c.segs != 0
  | none => false

/-- A RADIO_SET_STATE to OFF waits: it comes before what else the radio would go on with (R473). -/
def offWaits (r : Nat) (s : State) : Bool := (vget s.fe r).stateReq.any fun q => q.2.1 == .off

/-- In STANDBY after a lock, a calibration or a step of a longer move: on to the goal, to the segments left, or to the return
state (R84, R89). -/
def onward (r : Nat) (s : State) : State :=
  let t := withFe r (fun e => { e with goal := none }) s
  match (vget s.fe r).goal with
  | some (.state st) => goTo r (mayGo r st t) t
  | some .calibrate => calBegin r t
  | some .calTemp => calTemp r t
  | none => if offWaits r s then t else if calMore s r then calBegin r t else toReturn r t

/-- The state of a transition is reached: the command of it completes, and the radio goes on. -/
def arrived (r : Nat) (locked : Bool) (s : State) : State :=
  let e := vget s.fe r
  if e.goal.isSome then onward r s
  else match e.stateRun with
    | some h =>
      let t := finish h .ok [] (withFe r (fun e => { e with stateRun := none, relocked := false }) s)
      if e.relocked then onward r t else t
    | none => if locked then onward r s else s

/-- RADIO_TRANSITION_END (R84): the state of the transition is reached at its Table 4.4 time. A move into TX for a PPDU that has
not come turns to RX, where the medium is sensed. -/
def transitionEnd (r : Nat) (s : State) : State :=
  let e := vget s.fe r
  match e.trans with
  | none => s
  | some want =>
    if e.powering then startCal r (segUse r e) .firstUse s
    else if want = .tx then
      if (vget s.mac.radio r).txNext.isEmpty then withFe r (fun e => { e with trans := some .rx }) s else s
    else coexUpdate r <|
      let t := mayGo r want s
      let s1 := femEnter r t (withFe r (fun e => { e with state := t, trans := none, locking := false }) s)
      let s2 := if e.locking then lockDone r s1 else s1
      arrived r (e.locking && t == .standby) (if t = .off then offEnds r s2 else s2)

def execRadioTransitionEnd (r : Radio) (s : State) : Host.Outcome State Fault Refusal := whenLive s (transitionEnd (rnum r))

/-- CAL_PENDING_START (R91). -/
def execCalPendingStart (r : Radio) (s : State) : Host.Outcome State Fault Refusal :=
  whenLive s fun s => if calMayStart (rnum r) s then calBegin (rnum r) s else s

/-- CAL_FORCED (R92): pending 20 ms, or a RADIO_CALIBRATE with FORCE; the TXOP held is given up. -/
def calForced (r : Nat) (s : State) : State :=
  let e := vget s.fe r
  if !quietRadio r s then s
  else
    let cmd := match e.calCmd with | some c => c.force | none => false
    let old := match e.calPending with | some t => decide (t + 10000000 ≤ s.now) | none => false
    if cmd then calBegin r (giveUpTxop r s)
    else if old then
      let t := feCount r 6 (giveUpTxop r s)
      if e.state = .rx then withFe r (fun e => { e with trans := some .standby, locking := false, goal := some .calTemp }) t
      else calTemp r t
    else s

def execCalForced (r : Radio) (s : State) : Host.Outcome State Fault Refusal := whenLive s (calForced (rnum r))

/-- What follows a calibration: the settling of a channel change; the next named segment; the relock of a RADIO_CALIBRATE that did
not name the segment in use (R89); else the way on from STANDBY. -/
def calFollow (r : Nat) (c : Cal) (s : State) : State :=
  let e := vget s.fe r
  if e.sw.isSome then withFe r (fun e => { e with trans := some .standby, locking := true }) s
  else
    let t := withFe r (fun e => { e with state := .standby, relocked := e.relocked || e.stateRun.isSome }) s
    match e.calCmd, c.cause with
    | some k, .command =>
      if k.segs ≠ 0 ∧ offWaits r s = false then calBegin r t
      else if k.segs = 0 ∧ c.seg = segUse r e then arrived r true (calCmdEnd r (femEnter r .standby t))
      else if offWaits r s then femEnter r .standby t
      else startLock r t
    | _, _ => arrived r true (calCmdEnd r (femEnter r .standby t))

/-- The tuning word and drift that a calibration of a segment finds join the history (Table 19.3): what it finds is free. Slots are A0, B0
to B3, C0 to C3. -/
def noteTuning (r seg : Nat) (s : State) : State :=
  let d := draw 64 s
  let w := d.1.toNat
  { d.2 with rel := { d.2.rel with
    synthWord := vset d.2.rel.synthWord (if r = 0 then 0 else 4 * r - 3 + seg) (w % 2 ^ 32, w / 2 ^ 32) } }

/-- SYN_CAL_END (R88 to R90): the segment is valid at the present temperature, and only a CAL_TEMP calibration raises SYN_CAL. -/
def calEnd (r : Nat) (s : State) : State :=
  let e := vget s.fe r
  match e.cal with
  | none => s
  | some c =>
    let s1 := withFe r (fun e => { e with
      segValid := vset e.segValid c.seg true, segTemp := vset e.segTemp c.seg e.temp, segCount := vadd e.segCount c.seg 1, cal := none,
      calPending := if c.seg = segUse r e then none else e.calPending }) s
    let s2 := noteTuning r c.seg (if c.cause = .temp then raise .synCal r [] s1 else s1)
    calFollow r c (if c.seg = segUse r e then recipRepeat r s2 else s2)

def execSynCalEnd (r : Radio) (s : State) : Host.Outcome State Fault Refusal := whenLive s (calEnd (rnum r))

/-- Microseconds a change takes to lock (R90): 38, or 218 with a calibration, and the bus time of SEGMENT entries beyond
16 on a bus, which the board's bus rate determines (`extra`). -/
def switchUs (cal : Bool) (extra : Nat) : Nat := (if cal then 218 else 38) + extra

/-- CHANNEL_SWITCH (R90, R111, R112): at the end of a frame exchange the radio leaves its channel, and any TXOP, for the one
requested. -/
def channelSwitch (r extra : Nat) (s0 : State) : State :=
  let e := vget s0.fe r
  match e.chanReq with
  | none => s0
  | some q =>
    if inExchange r s0 || e.cal.isSome || e.trans.isSome || e.sw.isSome || !switchDue q s0 || e.state == .off || (vget s0.bf.radio r).running then s0
    else
      let s := giveUpTxop r s0
      let oldSeg := segUse r e
      let s1 := withFe r (fun e => { e with chanReq := none, calPending := none }) (storeChannel r q s)
      let seg := segOf r q.centre
      let beyond := (femEntries 5 e).filter fun b => bits (u8 b 1) 2 4 == seg
      let long := (beyond.filter fun b => bits (u8 b 1) 0 1 == 0).length > 16 || (beyond.filter fun b => bits (u8 b 1) 0 1 == 1).length > 16
      let s2 := if seg ≠ oldSeg then femSegment r seg s1 else s1
      let cal := q.force || !vget e.segValid seg
      let s3 := withFe r (fun e => { e with sw := some (q.handle, if cal then 1 else 0, switchUs cal (if long then extra else 0)) }) s2
      furrowDiscard r (if cal then startCal r seg (if q.force then .command else .firstUse) s3
        else withFe r (fun e => { e with trans := some .standby, locking := true }) s3)

def execChannelSwitch (r : Radio) (extra : Nat) (s : State) : Host.Outcome State Fault Refusal :=
  whenLive s (channelSwitch (rnum r) extra)

/-! Radio commands (Table 4.21). -/

/-- RADIO_GET_STATE's data. -/
def radioStateData (r : Nat) (s : State) : List Byte :=
  let e := vget s.fe r
  let cs := e.chains.toList.take (chainCount r)
  [byte (stateCode (reportState r s)), byte (stateCode e.ret), byte e.bw, byte e.prim] ++ le 2 e.centre ++
    [byte (segUse r e), byte (maskOf ((List.range (segCountOf r)).map fun i => !vget e.segValid i))] ++ le 2 (uns 16 e.temp) ++
    le 2 (maskOf (cs.map chainOut)) ++ le 2 (maskOf (cs.map fun c => totalDerate c != 0)) ++ [byte (radioClass r s), 0]

def radioGetStateForm : Form := inlineForm 0x0100 4 16 fun p => u8 p 0 ≤ 2 && zeros p 1 3

def radioGetStateRun : Cmd → State → Effect := fun c s => answer (radioStateData (u8 c.params 0) s) s

def execRadioGetState (m : Fin 8) (buf : List Byte) (s : State) : Host.Outcome State Fault Refusal :=
  command radioGetStateForm m buf s radioGetStateRun

/-- RADIO_SET_STATE: it waits for RADIO_STATE_APPLY. -/
def setStateRun (c : Cmd) (s : State) : Effect :=
  let r := u8 c.params 0
  .hold (withFe r (fun e => { e with stateReq := e.stateReq ++ [(c.handle, stateOfCode (u8 c.params 1), stateOfCode (u8 c.params 2))] }) s)

def radioSetStateForm : Form := inlineForm 0x0101 4 0 fun p => u8 p 0 ≤ 2 && u8 p 1 ≤ 3 && (1 ≤ u8 p 2 && u8 p 2 ≤ 3) && u8 p 3 == 0

def execRadioSetState (m : Fin 8) (buf : List Byte) (s : State) : Host.Outcome State Fault Refusal :=
  command radioSetStateForm m buf s setStateRun

/-- A channel lies in the radio's range (R111, Table 4.20). -/
def channelOk (r bw prim centre : Nat) : Bool :=
  bw ≤ maxBw r && prim < 2 ^ bw && tuneLo r + bwMhz bw / 2 ≤ centre && centre + bwMhz bw / 2 ≤ tuneHi r

/-- Table 4.19: who may set the channel. -/
def channelGate (r bw prim centre : Nat) (s : State) : Option Status :=
  if r = 0 then none
  else
    match s.life.mode with
    | .startUp => none
    | .service | .recovery => some .wrongState
    | .test => if fenceAllows r centre bw prim s = some false then some .fenceConflict else none

/-- RADIO_SET_CHANNEL (R111, R112, R473): stored at once while the radio is OFF; else it waits for its announcement and for
the switch; BUSY while one is outstanding. -/
def setChannelRun (c : Cmd) (s : State) : Effect :=
  let p := c.params
  let r := u8 p 0
  let e := vget s.fe r
  match channelGate r (u8 p 1) (u8 p 2) (u16 p 4) s with
  | some st => .fail st
  | none =>
    if e.chanReq.isSome || e.sw.isSome then .fail .busy
    else
      let at_ := announceAt r (u8 p 3) s
      let q : ChanReq := { handle := some c.handle, bw := u8 p 1, prim := u8 p 2, centre := u16 p 4, force := bit (u8 p 6) 0,
                           announced := at_.isSome, count := u8 p 3, at_ := at_ }
      if e.state = .off ∧ e.trans.isNone ∧ e.cal.isNone then
        let t := storeChannel r q s
        .complete .ok (chanData r (vget t.fe r) 0 0) t
      else .hold (withFe r (fun e => { e with chanReq := some q }) s)

def radioSetChannelForm : Form :=
  inlineForm 0x0102 8 4 fun p => u8 p 0 ≤ 2 && channelOk (u8 p 0) (u8 p 1) (u8 p 2) (u16 p 4) && bits (u8 p 6) 1 7 == 0 && u8 p 7 == 0

def execRadioSetChannel (m : Fin 8) (buf : List Byte) (s : State) : Host.Outcome State Fault Refusal :=
  command radioSetChannelForm m buf s setChannelRun

/-- RADIO_CALIBRATE (R89): it waits for a quiet moment, or with FORCE for the end of the exchange; a further one of the
radio waits behind it. -/
def calibrateRun (c : Cmd) (s : State) : Effect :=
  let r := u8 c.params 0
  let e := vget s.fe r
  if e.state = .off ∧ e.trans.isNone ∧ e.cal.isNone then .fail .wrongState
  else
    let q : CalCmd := { handle := c.handle, segs := bits (u8 c.params 1) 0 4, force := bit (u8 c.params 2) 0, started := false }
    .hold (withFe r (fun e => if e.calCmd.isSome then { e with calWait := e.calWait ++ [q] } else { e with calCmd := some q }) s)

def radioCalibrateForm : Form :=
  inlineForm 0x0103 4 0 fun p => u8 p 0 ≤ 2 && 0 < u8 p 1 && u8 p 1 < 2 ^ segCountOf (u8 p 0) && u8 p 2 ≤ 1 && u8 p 3 == 0

def execRadioCalibrate (m : Fin 8) (buf : List Byte) (s : State) : Host.Outcome State Fault Refusal :=
  command radioCalibrateForm m buf s calibrateRun

def radioSetFemMapForm : Form :=
  { opcode := 0x0104, indirect := true, length := fun p => if u16 p 2 ≤ 256 then some (4 + 8 * u16 p 2) else none,
    data := fun _ => 0, ok := fun p => u8 p 0 ≤ 2 && u8 p 1 == 0 && femMapOk p }

def radioSetFemMapRun : Cmd → State → Effect := fun c s =>
    let r := u8 c.params 0
    if (vget s.fe r).state ≠ .off ∨ (vget s.fe r).trans.isSome ∨ (vget s.fe r).cal.isSome then .fail .wrongState
    else okay (withFe r (fun e => { e with femMap := femList c.params }) s)

def execRadioSetFemMap (m : Fin 8) (buf : List Byte) (s : State) : Host.Outcome State Fault Refusal :=
  command radioSetFemMapForm m buf s radioSetFemMapRun

def radioSetRampForm : Form :=
  inlineForm 0x0105 4 0 fun p => u8 p 0 ≤ 2 && (5 ≤ u8 p 1 && u8 p 1 ≤ 20) && (5 ≤ u8 p 2 && u8 p 2 ≤ 20) && u8 p 3 ≤ 1

def radioSetRampRun : Cmd → State → Effect := fun c s => okay (withFe (u8 c.params 0) (fun e =>
      { e with rampUp := u8 c.params 1, rampDown := u8 c.params 2, rampShape := u8 c.params 3 }) s)

def execRadioSetRamp (m : Fin 8) (buf : List Byte) (s : State) : Host.Outcome State Fault Refusal :=
  command radioSetRampForm m buf s radioSetRampRun

/-- RADIO_SET_CHAIN's ranges: the tuner fields count only where a tuner is present. -/
def chainParamOk (p : List Byte) : Bool :=
  u8 p 0 ≤ 2 && u8 p 1 < chainCount (u8 p 0) && u8 p 2 ≤ 1 && u8 p 3 ≤ 63 && (6 ≤ u8 p 4 && u8 p 4 ≤ 30) && u8 p 5 ≤ 3 &&
    (!bit (u8 p 5) 0 || ((1 ≤ u8 p 6 && u8 p 6 ≤ 15) && 1 ≤ u8 p 7))

/-- RADIO_SET_CHAIN (R103): it takes effect at the next furrow boundary (R104). -/
def setChainRun (c : Cmd) (s : State) : Effect :=
  let p := c.params
  let r := u8 p 0
  let k := u8 p 1
  let tuner : Option Tuner := if bit (u8 p 5) 0 then
      some { bus := bits (u8 p 5) 1 1, usid := u8 p 6, codeMax := u8 p 7, reg1 := u16 p 8,
             reg2 := if u16 p 10 = 0xFFFF then none else some (u16 p 10) }
    else none
  okay (chainBoundary r (withChain r k (fun h => { h with
    cfgNext := some { hostEn := bit (u8 p 2) 0, backoff := u8 p 3, rlThresh := u8 p 4, tuner := tuner } }) s))

def radioSetChainForm : Form := inlineForm 0x0106 12 0 chainParamOk

def execRadioSetChain (m : Fin 8) (buf : List Byte) (s : State) : Host.Outcome State Fault Refusal :=
  command radioSetChainForm m buf s setChainRun

def chainIdOk (p : List Byte) : Bool := u8 p 0 ≤ 2 && u8 p 1 < chainCount (u8 p 0) && zeros p 2 2

/-- RADIO_RESTORE_CHAIN (R102, R449): only a chain fallow by mismatch; it returns as derated 6 dB and is judged again. -/
def radioRestoreChainForm : Form := inlineForm 0x0107 4 0 chainIdOk

def radioRestoreChainRun : Cmd → State → Effect := fun c s =>
    let r := u8 c.params 0
    let k := u8 c.params 1
    if (vget (vget s.fe r).chains k).st ≠ .fallow then .fail .wrongState
    else okay (setChainState r k .derated6 s)

def execRadioRestoreChain (m : Fin 8) (buf : List Byte) (s : State) : Host.Outcome State Fault Refusal :=
  command radioRestoreChainForm m buf s radioRestoreChainRun

/-- RADIO_GET_CHAIN's data. -/
def chainData (c : Chain) : List Byte :=
  let st := if !c.hostEn then 3 else if c.st = .fallow ∨ c.st = .fallowAge then 2 else if totalDerate c ≠ 0 then 1 else 0
  [byte st, byte (totalDerate c), if c.meas.length < 16 then 0xFF else byte (measSum c / 16), byte c.code1, byte c.code2, 0, 0, 0] ++
    le 4 c.total ++ le 4 0

def radioGetChainForm : Form := inlineForm 0x0108 4 16 chainIdOk

def radioGetChainRun : Cmd → State → Effect := fun c s =>
    answer (chainData (vget (vget s.fe (u8 c.params 0)).chains (u8 c.params 1))) s

def execRadioGetChain (m : Fin 8) (buf : List Byte) (s : State) : Host.Outcome State Fault Refusal :=
  command radioGetChainForm m buf s radioGetChainRun

def radioGetCountersForm : Form := indirectForm 0x0109 4 136 fun p => u8 p 0 ≤ 2 && zeros p 1 3

def radioGetCountersRun : Cmd → State → Effect := fun c s =>
    answer (ctrBytes (vget s.fe (u8 c.params 0)).ctr) s

def execRadioGetCounters (m : Fin 8) (buf : List Byte) (s : State) : Host.Outcome State Fault Refusal :=
  command radioGetCountersForm m buf s radioGetCountersRun

/-- RADIO_RFFE_TRANSFER (R96): a write leaves on the bus; a read answers what the slave drives, after one retry where the first
answer had a parity error (`retry`); one that fails again is a TIMEOUT and counts RFFE_ERR. -/
def rffeRun (rd : RffeAnswer) (c : Cmd) (s : State) : Effect :=
  let p := c.params
  let r := u8 p 0
  let e := vget s.fe r
  if (e.state ≠ .off ∧ e.state ≠ .standby) ∨ e.trans.isSome = true ∨ e.cal.isSome = true then .fail .wrongState
  else if bit (u8 p 3) 0 then
    let ask (t : State) : State := emit (.rffe r (u8 p 1) (u8 p 2) (readCmd (u16 p 4)) (u16 p 4) 0 0xFF) t
    match rd with
    | .first b => .complete .ok [b] (ask s)
    | .second b => .complete .ok [b] (ask (ask s))
    | .silent => .complete .timeout [] (feCount r 14 (ask (ask s)))
  else .complete .ok [0] (rffeWrite r (u8 p 1) (u8 p 2) (u16 p 4) (u8 p 6) (if bit (u8 p 3) 1 then u8 p 7 else 0xFF) s)

def radioRffeTransferForm : Form := inlineForm 0x010A 8 1 fun p => u8 p 0 ≤ 2 && u8 p 1 ≤ 1 && (1 ≤ u8 p 2 && u8 p 2 ≤ 15) && u8 p 3 ≤ 3

def execRadioRffeTransfer (m : Fin 8) (buf : List Byte) (rd : RffeAnswer) (s : State) : Host.Outcome State Fault Refusal :=
  command radioRffeTransferForm m buf s (rffeRun rd)

/-! Control lines (Table 4.2, R83). -/

/-- PAEN, LNAEN and TRSW of a chain: low outside RX and TX, in reset, and on a fallow chain. -/
def controlLines (r c : Nat) (s : State) : Bool × Bool × Bool :=
  let e := vget s.fe r
  let up := live s && c < chainCount r && !chainOut (vget e.chains c)
  let tx := up && e.tx.isSome
  let rx := up && e.state == .rx && !tx
  (tx, rx, tx)

end Sys2Proof.Machine
end

