-- ==== Sys2Proof/Machine/Phy.lean ====
section
/-!
DEFINITION. OFDM reception up to the data field, quality reports, and the PHY commands (spec/05_ofdm_phy.md).
-/
namespace Sys2Proof.Machine
open Sys2Proof

def withPhy (r : Nat) (f : RadioPhy → RadioPhy) (s : State) : State := { s with phy := vmod s.phy r f }

/-- Adds to a counter of Table 5.13. -/
def phyCount (r i k : Nat) (s : State) : State := withPhy r (fun p => { p with ctr := vadd p.ctr i k }) s

def withRx (r : Nat) (f : RxCur → RxCur) (s : State) : State := withPhy r (fun p => { p with rx := p.rx.map f }) s

/-- The formats Table 5.1 gives a radio. -/
def radioFormats (r : Nat) : Nat := if r = 0 then 0x7EF else 0x7FE

/-- The receive search runs (R119): in RX, with nothing received or sent and no response owed. -/
def searching (r : Nat) (s : State) : Bool :=
  let e := vget s.fe r
  e.state == .rx && e.tx.isNone && e.cal.isNone && e.trans.isNone && (vget s.phy r).rx.isNone && !e.owesResp &&
    !(vget s.bf.radio r).running


/-! Who a frame is from. -/

/-- The upstream access point's station interface. -/
def upstreamOf (r : Nat) (ta : List Byte) (s : State) : Option Uplink := (vget s.mac.radio r).uplink.filter fun u => u.bssid == ta

/-- The associated station that sent a frame. -/
def senderOf (r : Nat) (ta : List Byte) (s : State) : Option Nat :=
  match upstreamOf r ta s with
  | some u => some u.sta
  | none => (s.mac.sta.find? fun p => bit p.2.links r && p.2.addr == ta).map (·.1)

/-! Detection and AGC (R118 to R120). -/

/-- Power at the antenna in 0.5 dBm of a power at the pins: the external front-end gain is taken off (R119). -/
def atAntenna (femGain : Nat) (pins : Int) : Int := pins - femGain

/-- The gain, in 0.5 dB, that leaves a chain's level 12 dB below ADC full scale (R118). -/
def agcGain (pins : Int) : Int := Config.adcFullScale - 24 - pins

/-- WinStart and the numbers accepted of every receive session (R166). -/
def baStands (s : State) : KMap (Nat × List Nat) := s.mac.ba.map fun p => (p.1, (p.2.start, p.2.seen))

/-- A reception begins: the gains settle on the new preamble and freeze, and its power is the reference (R118, R123). `power` is that of
the primary 20 MHz and `levels` those of the chains, in 0.5 dBm at the pins. -/
def beginRx (r : Nat) (power : Int) (levels : List Int) (dsss : Bool) (s : State) : State :=
  let m := vget s.mac.radio r
  withPhy r (fun p => { p with rx := some {
    fmt := if dsss then 0 else 1, refPow := atAntenna p.femRxGain power, capture := p.captureEn, femGain := p.femRxGain
    ldpcMax := p.ldpcMax, gains := levels.map agcGain, stamps := stampIn (2 + r) s, ba := baStands s
    inWin := (vget s.fe r).awaits && decide (s.now < m.awaitTill) } }) (withRm r (fun m => { m with navRts := none }) s)

/-- PREAMBLE_DETECT (R119, R120): at or above PD_THRESH; a DSSS preamble only where the format is on. -/
def preambleDetect (r : Nat) (power : Int) (levels : List Int) (dsss : Bool) (s : State) : State :=
  let p := vget s.phy r
  if !searching r s || atAntenna p.femRxGain power < 2 * p.pdThresh || (dsss && !bit p.formats 0) then s
  else coexUpdate r (phyCount r 0 1 (beginRx r power levels dsss s))

def execPreambleDetect (r : Radio) (power : RxLevels) (dsss : Bool) (s : State) : Host.Outcome State Fault Refusal :=
  whenLive s (preambleDetect (rnum r) power.primary power.chains dsss)

/-! SIG validation (R114 to R117, R122). -/

/-- L-SIG LENGTH modulo 3 of a format that RL-SIG marks (IEEE 802.11ax and 802.11be: 1 for HE SU and TB, 2 for HE ER SU and MU, 0 for
EHT; PRESUMED, log 90). -/
def lengthMod (fmt : Nat) : Nat := if fmt = 5 ∨ fmt = 8 then 1 else if fmt = 6 ∨ fmt = 7 then 2 else 0

/-- Every SIG check of the format passes (Table 5.5). -/
def sigPass (g : SigInfo) : Bool :=
  if g.fmt = 0 then g.crc
  else
    g.lltf && g.parity && g.rate && (1 ≤ g.length && g.length ≤ 4095) &&
      (g.fmt ≤ 2 || (g.crc && (g.fmt ≤ 4 || (g.rl && g.length % 3 == lengthMod g.fmt))))

/-- Not supported as a whole (R114, Table 5.11): of another primary, of a format or width the radio does not carry, excluded by the
standard, or an HT NDP. -/
def sigUnsup (r : Nat) (g : SigInfo) (e : RadioFe) : Bool :=
  !g.primary || g.excluded || !formatCarried r e g.fmt g.bw || (g.fmt == 3 && g.htLength == 0)

/-- Space-time streams in a user's RU (R117). -/
def ruStreams (us : List UserSig) (u : UserSig) : Nat :=
  ((us.filter fun v => v.ruSize == u.ruSize && v.ruIndex == u.ruIndex).map fun v => if v.stbc then 2 * v.nss else v.nss).sum

/-- EHT-MCS 14 or 15 (R116). -/
def mcsUnsup (fmt : Nat) (u : UserSig) : Bool := fmt ≥ 9 && u.mcs ≥ 14

/-- A user whose data is not decoded (R116, R117). -/
def userUnsup (r fmt : Nat) (us : List UserSig) (u : UserSig) (s : State) : Bool := mcsUnsup fmt u || ruStreams us u > liveChains r s

/-- SIG_VALIDATE up to what the MAC adds. -/
def sigValidate (r : Nat) (g : SigInfo) (s : State) : State :=
  match (vget s.phy r).rx with
  | none => s
  | some x =>
    if x.valid || x.failed then s
    else if !sigPass g then phyCount r 1 1 (withRx r (fun x => { x with failed := true, gains := [] }) s)
    else
      let unsup := sigUnsup r g (vget s.fe r)
      let off := !unsup && !bit (vget s.phy r).formats g.fmt
      let taken := !unsup && !off
      let late := taken && g.late
      let beyond := taken && g.users.any fun u => ruStreams g.users u > liveChains r s
      let bad := if taken then (g.users.filter (mcsUnsup g.fmt)).length else 0
      let t := withRx r (fun x => { x with
        valid := true, fmt := g.fmt, bw := g.bw, skip := !taken || late, unsup := unsup, fmtOff := off, late := late
        users := g.users, endAt := s.now + g.endNs / 2 }) s
      phyCount r 5 (if late then 1 else 0)
        (phyCount r 6 ((if unsup || beyond then 1 else 0) + bad)
          (phyCount r 7 (if off then 1 else 0) (phyCount r 4 1 t)))

/-- SEARCH_RESUME (R122, R120): within 4.0 us of a SIG failure the search resumes and CCA is idle again. -/
def searchResume (r : Nat) (s : State) : State :=
  match (vget s.phy r).rx with
  | some x => if x.failed then coexUpdate r (withPhy r (fun p => { p with rx := none }) s) else s
  | none => s

def execSearchResume (r : Radio) (s : State) : Host.Outcome State Fault Refusal := whenLive s (searchResume (rnum r))

/-! Quality reports (Table 5.8). -/

/-- Rounds a quotient half to even. -/
def roundHalfEven (a : Int) (b : Nat) : Int :=
  let q := a / (b : Int)
  let m := 2 * (a - q * b)
  if m < b then q else if m > b then q + 1 else if q % 2 = 0 then q else q + 1

/-- Required EVM in dB (Table 5.10): DSSS and CCK, non-HT, else by MCS (HT by the index modulo 8). -/
def evmReq (fmt mcs : Nat) : Int :=
  match fmt with
  | 0 => -9
  | 1 | 2 => [-5, -8, -10, -13, -16, -19, -22, -25].getD mcs (-25)
  | 3 => [-5, -10, -13, -16, -19, -22, -25, -27].getD (if mcs = 32 then 0 else mcs % 8) (-27)
  | _ => [-5, -10, -13, -16, -19, -22, -25, -27, -30, -32, -35, -35, -38, -38].getD mcs (-38)

/-- The highest of the streams' EVM. -/
def worstEvm (l : List Int) : Int := l.foldl max (l.headD 0)

/-- LQI (R129): EVM in 1/32 dB, so 8 times the margin is a quarter of it. -/
def lqiOf (fmt mcs : Nat) (m : UserMeas) : Nat :=
  if !m.decoded then 0
  else (clampI 1 255 (128 + roundHalfEven (32 * evmReq fmt mcs - worstEvm m.evm) 4)).toNat

/-- The EVM bytes: 0.5 dB units, 0x7F for an absent stream. -/
def evmBytes (l : List Int) : List Byte :=
  (List.range 8).map fun i => match l[i]? with | some v => byte (uns 8 (roundHalfEven v 16)) | none => 0x7F

/-- RSSI of a chain in dBm at the antenna, rounded half to even (log 90); -128 for a chain not receiving. -/
def rssiByte (femGain : Nat) (l : List (Option Int)) (i : Nat) : Byte :=
  match (l[i]?).join with | some p => byte (uns 8 (roundHalfEven (atAntenna femGain p) 2)) | none => 0x80

/-- The user's data is not decoded (FLAGS UNSUP). -/
def flagUnsup (r : Nat) (x : RxCur) (u : UserSig) (s : State) : Bool := x.unsup || (!x.fmtOff && userUnsup r x.fmt x.users u s)

/-- One report. -/
def reportBytes (r : Nat) (x : RxCur) (seq : Nat) (restarted unsup : Bool) (u : UserSig) (m : UserMeas) : List Byte :=
  le 8 seq ++ le 4 (x.stamps.getD 2 0 % 10 ^ 9) ++ le 4 (x.stamps.getD 2 0 / 10 ^ 9) ++
    le 2 (match m.sta with | some n => n % 1024 | none => 0x83FF) ++
    [byte x.fmt, byte x.bw, byte u.ruSize, byte (if u.ruSize = 255 then 0 else u.ruIndex), byte u.mcs, byte u.nss, byte u.giLtf,
     byte (put u.ldpc 0 + put u.dcm 1 + put u.stbc 2 + put u.beamformed 3 + put restarted 4 + put x.fmtOff 5 + put unsup 6)] ++
    le 2 (uns 16 m.cfo) ++
    ((List.range 16).map fun i => if r = 0 ∧ i ≥ 8 then (0x80 : Byte) else rssiByte x.femGain m.rssi i) ++
    le 2 (uns 16 m.snr) ++ evmBytes m.evm ++ [byte (lqiOf x.fmt u.mcs m), 0] ++
    le 2 (min 0xFFFF m.mpduOk) ++ le 2 (min 0xFFFF m.mpduBad) ++ le 4 m.bytes

/-- Writes one report (R128). Data that is not decoded has no decoded symbol. -/
def writeReport (r : Nat) (x : RxCur) (restarted : Bool) (s : State) (um : UserSig × UserMeas) : State :=
  let p := vget s.phy r
  let unsup := flagUnsup r x um.1 s
  let m := { um.2 with decoded := um.2.decoded && !unsup && !x.fmtOff && !x.late }
  let b := reportBytes r x p.seq restarted unsup um.1 m
  let t := withPhy r (fun p => { p with
    seq := p.seq + 1, history := (b :: p.history).take 1024
    latest := match m.sta with | some n => kset p.latest n b | none => p.latest }) s
  phyCount r 21 (if p.history.length ≥ 1024 then 1 else 0) (phyCount r 8 (if unsup || x.fmtOff then 0 else 1) t)

/-- The users a validated PPDU reports: all but one whose user field failed, and none of a PPDU that spatial reuse ignores (R148) or
whose reports its failed common field has already given (R122). -/
def reportUsers (x : RxCur) : List (Nat × UserSig) :=
  if x.valid && !x.obss && !x.late then ((List.range x.users.length).zip x.users).filter fun p => !p.2.bad else []

/-- The reports of a PPDU from what was measured of each user. -/
def writeReports (r : Nat) (x : RxCur) (restarted : Bool) (ms : List UserMeas) (s : State) : State :=
  ((reportUsers x).filterMap fun p => (ms[p.1]?).map fun m => (p.2, m)).foldl (writeReport r x restarted) s

/-- What was measured of a user whose PPDU is abandoned with no measurement given: the MPDUs it brought count, levels follow from the
gains, and CFO, SNR, EVM and bytes are free (log 90). -/
def abandonedMeas (r : Nat) (x : RxCur) (i : Nat) (u : UserSig) (s : State) : UserMeas × State :=
  let ok := x.got.filter fun m => m.user == i
  let bad := (x.bad.filter (· == i)).length
  let d := draw 32 s
  let e := (List.range u.nss).foldl (fun (p : List Int × State) _ => let q := draw 11 p.2; (p.1 ++ [q.1.toInt], q.2)) ([], d.2)
  let c := draw 16 e.2
  let n := draw 16 c.2
  let h := draw 1 n.2
  ({ sta := ok.head?.bind fun m => senderOf r m.ta s, decoded := !ok.isEmpty || bad != 0 || h.1 == 1#1, cfo := c.1.toInt
     rssi := x.gains.map fun g => some (Config.adcFullScale - 24 - g), snr := n.1.toInt, evm := e.1
     mpduOk := ok.length, mpduBad := bad, bytes := d.1.toNat }, h.2)

/-- The reports of a PPDU abandoned without measurements (R128). -/
def abandonReports (r : Nat) (x : RxCur) (s : State) : State :=
  (reportUsers x).foldl (fun t p => let a := abandonedMeas r x p.1 p.2 t; writeReport r x false a.2 (p.2, a.1)) s

/-- The reports of the users of a PPDU whose common field failed: abandoned before a data symbol (R122, R129). -/
def lateReports (r : Nat) (s : State) : State :=
  match (vget s.phy r).rx with
  | some x => if x.late then (reportUsers { x with late := false }).foldl (fun t p =>
      let a := abandonedMeas r x p.1 p.2 t
      writeReport r x false a.2 (p.2, { a.1 with evm := [] })) s else s
  | none => s

/-! Decoding (R127). -/

/-- LDPC_DECODE (R127): the cap drops to 4 above 64 waiting codewords and returns below 16; layered min-sum decoding under it. -/
def ldpcDecode (r : Nat) (w : LdpcWord) (waiting : Nat) (s : State) : State :=
  let p := vget s.phy r
  let cut := if waiting > 64 then true else if waiting < 16 then false else p.ldpcCut
  let iter := match p.rx, p.tail with | some x, _ => x.ldpcMax | none, some x => x.ldpcMax | none, none => p.ldpcMax
  phyCount r 15 1 (phyCount r 16 (if ldpcMet (if cut then 4 else iter) w then 0 else 1) (phyCount r 17 (if cut then 1 else 0)
    (withPhy r (fun p => { p with ldpcCut := cut }) s)))

def execLdpcDecode (r : Radio) (w : LdpcWord) (waiting : Nat) (s : State) : Host.Outcome State Fault Refusal :=
  whenLive s (ldpcDecode (rnum r) w waiting)

/-- A new format mask takes effect at a furrow boundary (R115). -/
def applyFormats (r : Nat) (s : State) : State :=
  withPhy r (fun p => match p.fmtNext with | some f => { p with formats := f, fmtNext := none } | none => p) s

/-! PHY commands (Table 5.12). -/

def phySetRxForm : Form :=
  inlineForm 0x0200 8 0 fun p => u8 p 0 ≤ 2 && u8 p 1 ≤ 1 && (-96 ≤ i8 p 2 && i8 p 2 ≤ -62) && (2 ≤ u8 p 3 && u8 p 3 ≤ 16) && u8 p 4 ≤ 80 && zeros p 5 3

def phySetRxRun : Cmd → State → Effect := fun c s =>
    let p := c.params
    okay (withPhy (u8 p 0) (fun y => { y with
      captureEn := bit (u8 p 1) 0, pdThresh := i8 p 2, ldpcMax := u8 p 3, femRxGain := u8 p 4 }) s)

def execPhySetRx (m : Fin 8) (buf : List Byte) (s : State) : Host.Outcome State Fault Refusal :=
  command phySetRxForm m buf s phySetRxRun

/-- PHY_SET_FORMATS (R115): non-HT OFDM cannot be disabled; bits of formats the radio does not carry are ignored. -/
def phySetFormatsForm : Form := inlineForm 0x0201 4 0 fun p => u8 p 0 ≤ 2 && u8 p 1 == 0 && u16 p 2 < 0x800 && bit (u16 p 2) 1

def phySetFormatsRun : Cmd → State → Effect := fun c s =>
    okay (withPhy (u8 c.params 0) (fun y => { y with
      fmtNext := some (Nat.land (u16 c.params 2) (radioFormats (u8 c.params 0))) }) s)

def execPhySetFormats (m : Fin 8) (buf : List Byte) (s : State) : Host.Outcome State Fault Refusal :=
  command phySetFormatsForm m buf s phySetFormatsRun

def phyConfigData (p : RadioPhy) : List Byte :=
  [byte (put p.captureEn 0), byte (uns 8 p.pdThresh), byte p.ldpcMax, byte p.femRxGain] ++ le 2 p.formats ++ le 2 0 ++ le 8 p.seq

def phyGetConfigForm : Form := inlineForm 0x0202 4 16 fun p => u8 p 0 ≤ 2 && zeros p 1 3

def phyGetConfigRun : Cmd → State → Effect := fun c s =>
    answer (phyConfigData (vget s.phy (u8 c.params 0))) s

def execPhyGetConfig (m : Fin 8) (buf : List Byte) (s : State) : Host.Outcome State Fault Refusal :=
  command phyGetConfigForm m buf s phyGetConfigRun

def phyGetReportForm : Form := indirectForm 0x0203 4 64 fun p => u8 p 0 ≤ 2 && u8 p 1 == 0 && u16 p 2 ≤ 1023

def phyGetReportRun : Cmd → State → Effect := fun c s =>
    answer ((kget (vget s.phy (u8 c.params 0)).latest (u16 c.params 2)).getD []) s

def execPhyGetReport (m : Fin 8) (buf : List Byte) (s : State) : Host.Outcome State Fault Refusal :=
  command phyGetReportForm m buf s phyGetReportRun

/-- Consecutive reports from the later of the SEQ wanted and the oldest held (Table 5.12). -/
def historyFrom (p : RadioPhy) (first count : Nat) : List Byte :=
  let old := p.history.reverse
  let start := p.seq - old.length
  ((old.drop (max first start - start)).take count).flatten

def phyReadHistoryForm : Form :=
  { opcode := 0x0204, indirect := true, length := fun _ => some 16, data := fun p => 64 * u16 p 2,
    ok := fun p => u8 p 0 ≤ 2 && u8 p 1 == 0 && (1 ≤ u16 p 2 && u16 p 2 ≤ 1024) && zeros p 12 4 }

def phyReadHistoryRun : Cmd → State → Effect := fun c s =>
    answer (historyFrom (vget s.phy (u8 c.params 0)) (u64 c.params 4) (u16 c.params 2)) s

def execPhyReadHistory (m : Fin 8) (buf : List Byte) (s : State) : Host.Outcome State Fault Refusal :=
  command phyReadHistoryForm m buf s phyReadHistoryRun

def phyGetCountersForm : Form := indirectForm 0x0205 4 176 fun p => u8 p 0 ≤ 2 && zeros p 1 3

def phyGetCountersRun : Cmd → State → Effect := fun c s =>
    answer (ctrBytes (vget s.phy (u8 c.params 0)).ctr) s

def execPhyGetCounters (m : Fin 8) (buf : List Byte) (s : State) : Host.Outcome State Fault Refusal :=
  command phyGetCountersForm m buf s phyGetCountersRun

/-- The modulation of a test PPDU lies in Tables 5.2 and 5.4 and R116. -/
def testModOk (fmt bw mcs nss gi : Nat) : Bool :=
  match fmt with
  | 0 => mcs ≤ 3 && nss == 1 && gi == 0
  | 1 | 2 => mcs ≤ 7 && nss == 1 && gi == 0
  | 3 => gi ≤ 1 && (if mcs = 32 then nss == 1 && bw == 1 else mcs ≤ 31 && nss == mcs / 8 + 1)
  | 4 => gi ≤ 1 && mcs ≤ 9 && 1 ≤ nss && nss ≤ 8
  | 5 | 6 | 7 => 2 ≤ gi && gi ≤ 7 && mcs ≤ 11 && 1 ≤ nss && nss ≤ 8
  | 9 => 2 ≤ gi && gi ≤ 7 && mcs ≤ 13 && 1 ≤ nss && nss ≤ 8
  | _ => false

/-- PHY_TEST_TX's ranges that no state decides. -/
def testParamOk (p : List Byte) : Bool :=
  u8 p 0 ≤ 2 && (u8 p 1 ≤ 7 || u8 p 1 == 9) && u8 p 2 ≤ 4 && testModOk (u8 p 1) (u8 p 2) (u8 p 3) (u8 p 4) (u8 p 5) &&
    14 ≤ u16 p 8 && u16 p 8 ≤ (if u8 p 1 ≤ 2 then 4095 else 11454) && 20 ≤ u16 p 10

/-- A test PPDU is on the air. -/
def testNow (e : RadioFe) : Bool := match e.tx with | some x => x.kind == .test | none => false

/-- What PHY_TEST_TX starts. -/
def testOf (c : Cmd) : TestTx :=
  let p := c.params
  { handle := c.handle, left := u16 p 6, fmt := u8 p 1, bw := u8 p 2, mcs := u8 p 3, nss := u8 p 4, gi := u8 p 5, bytes := u16 p 8
    gap := u16 p 10 }

/-- PHY_TEST_TX (R133). -/
def testTxRun (c : Cmd) (s : State) : Effect :=
  let p := c.params
  let r := u8 p 0
  let e := vget s.fe r
  if !formatCarried r e (u8 p 1) (u8 p 2) then .fail .badParam
  else if s.life.mode ≠ .test ∨ ¬(e.state = .rx ∨ e.state = .standby ∨ e.testTx.isSome) then .fail .wrongState
  else if u16 p 6 = 0 then
    match e.testTx with
    | none => .complete .ok (le 4 0) s
    | some x =>
      if testNow e then .hold (withFe r (fun e => { e with testStop := some c.handle }) s)
      else .complete .ok (le 4 x.sent) (finish x.handle .aborted (le 4 x.sent) (withFe r (fun e => { e with testTx := none }) s))
  else if e.testTx.isSome then .fail .busy
  else .hold (withFe r (fun e => { e with testTx := some (testOf c) }) s)

def phyTestTxForm : Form := inlineForm 0x0206 12 4 testParamOk

def execPhyTestTx (m : Fin 8) (buf : List Byte) (s : State) : Host.Outcome State Fault Refusal :=
  command phyTestTxForm m buf s testTxRun

/-- A test PPDU has ended (R133): the test goes on, ends, or stops. -/
def testTxEnd (r : Nat) (s : State) : State :=
  let e := vget s.fe r
  match e.testTx with
  | none => s
  | some x =>
    let t := phyCount r 20 1 s
    let n := le 4 (x.sent + 1)
    match e.testStop with
    | some h2 => finish h2 .ok n (finish x.handle .aborted n (withFe r (fun e => { e with testTx := none, testStop := none }) t))
    | none =>
      if x.left ≤ 1 then finish x.handle .ok n (withFe r (fun e => { e with testTx := none }) t)
      else withFe r (fun e => { e with testTx := some { x with left := x.left - 1, sent := x.sent + 1, endAt := some s.now } }) t

/-! Test PPDUs (R133). -/

/-- `n` bits of a PN9 sequence, x^9 + x^5 + 1, from a register: the register after them and their value, first bit lowest. -/
def pn9Bits : (n reg : Nat) → Nat × Nat
  | 0, reg => (reg, 0)
  | n + 1, reg =>
    let p := pn9Bits n (reg / 2 + 256 * ((reg % 2 + reg / 16 % 2) % 2))
    (p.1, reg % 2 + 2 * p.2)

/-- Bytes of a PN9 sequence. -/
def pn9 : (n reg : Nat) → List Byte
  | 0, _ => []
  | n + 1, reg => let p := pn9Bits 8 reg; byte p.2 :: pn9 n p.1

/-- The next PPDU of a test: to the broadcast address, its PSDU a PN9 sequence that starts with every bit of the register set (DESIGN CHOICE,
log 90). -/
def testPpdu (r : Nat) (x : TestTx) : TxCur :=
  let ht := x.fmt = 3 ∧ x.mcs ≠ 32
  let u : ModUser := { ruSize := if x.fmt ≥ 5 then 3 + x.bw else 255, ruIndex := 0, mcs := if ht then x.mcs % 8 else x.mcs, nss := x.nss
                       ldpc := x.fmt ≥ 3, dcm := false, stbc := false, bytes := x.bytes }
  let n := symbolsOf x.fmt x.bw u
  let rate := if x.fmt = 0 then 8 + x.mcs else x.mcs
  { kind := .test, fmt := x.fmt, bw := x.bw, gi := x.gi, nSym := n, len := x.bytes, body := pn9 x.bytes 511
    durNs := if x.fmt ≤ 2 then basicNs r rate x.bytes else ppduNs r x.fmt x.bw x.gi n 0 [u], preNs := preNs x.fmt x.bw x.gi [u]
    users := [{ sta := 0x3FF, ruSize := u.ruSize, mcs := u.mcs, nss := u.nss, ldpc := u.ldpc }] }

end Sys2Proof.Machine
end

