-- ==== Sys2Proof/Machine/Rtc.lean ====
section
/-!
DEFINITION. The real-time clock and the battery domain (spec/18_rtc_backup.md), and WAKE_OUT (R81, R82, R142, R438).
-/
namespace Sys2Proof.Machine
open Sys2Proof

def withRtc (f : Rtc → Rtc) (s : State) : State := { s with rtc := f s.rtc }

/-- R428. -/
def leapYear (y : Nat) : Bool := y % 4 == 0 && (y % 100 != 0 || y % 400 == 0)

def monthDays (y m : Nat) : Nat :=
  match m with
  | 2 => if leapYear y then 29 else 28
  | 4 | 6 | 9 | 11 => 30
  | _ => 31

/-- Days from 2000-01-01 to a date of the calendar (year as an offset from 2000). -/
def daysSince (t : RtcTime) : Nat :=
  365 * t.year + (t.year + 3) / 4 - (t.year + 99) / 100 + (t.year + 399) / 400 +
    ((List.range (t.month - 1)).map fun i => monthDays t.year (i + 1)).sum + (t.day - 1)

/-- WEEKDAY, 1 Monday to 7 Sunday; 2000-01-01 is a Saturday (R427, R429). -/
def weekday (t : RtcTime) : Nat := (daysSince t + 5) % 7 + 1

/-- One second later, carried through all fields (R429); 2399 is followed by 2000 (R430). -/
def nextSecond (t : RtcTime) : RtcTime :=
  if t.second < 59 then { t with second := t.second + 1 }
  else
    let t := { t with second := 0 }
    if t.minute < 59 then { t with minute := t.minute + 1 }
    else
      let t := { t with minute := 0 }
      if t.hour < 23 then { t with hour := t.hour + 1 }
      else
        let t := { t with hour := 0 }
        if t.day < monthDays t.year t.month then { t with day := t.day + 1 }
        else
          let t := { t with day := 1 }
          if t.month < 12 then { t with month := t.month + 1 }
          else { t with month := 1, year := if t.year ≥ 399 then 0 else t.year + 1 }

/-- Table 18.2. -/
def time0Of (t : RtcTime) : Word := BitVec.ofNat 32 (t.second + 2 ^ 8 * t.minute + 2 ^ 16 * t.hour)
def time1Of (t : RtcTime) : Word := BitVec.ofNat 32 (t.day + 2 ^ 8 * t.month + 2 ^ 16 * weekday t)
def time2Of (t : RtcTime) (presc : Nat) : Word := BitVec.ofNat 32 (t.year + 2 ^ 16 * (presc % 2 ^ 15))

/-- A set that R434 does not refuse. -/
def timeValid (t : RtcTime) : Bool :=
  t.second ≤ 59 && t.minute ≤ 59 && t.hour ≤ 23 && (1 ≤ t.month && t.month ≤ 12) && t.year ≤ 399 &&
    (1 ≤ t.day && t.day ≤ monthDays t.year t.month)

/-- The holding set with the SECOND of a commit (Table 18.1). -/
def heldTime (r : Rtc) (second : Nat) : RtcTime :=
  { year := bits r.holdDate.toNat 16 9, month := bits r.holdDate.toNat 8 4, day := bits r.holdDate.toNat 0 5,
    hour := bits r.holdTime.toNat 16 5, minute := bits r.holdTime.toNat 8 6, second := second }

/-- The host reaches the RTC's registers (R66). -/
def rtcOpen (s : State) : Bool := live s && !s.rtc.locked

/-- RTC_TIME0_READ (R431): TIME1 and TIME2 of this edge are the snapshot; PRESCALER is what the crystal gives. -/
def execRtcTime0Read (presc : BitVec 15) (s : State) : Host.Outcome State Fault Refusal :=
  whenLive s (withRtc fun r => { r with presc := presc.toNat, snap := some (time1Of r.time, time2Of r.time presc.toNat) })

/-- RTC_TIME2_READ (R431). -/
def execRtcTime2Read (s : State) : Host.Outcome State Fault Refusal := whenLive s (withRtc fun r => { r with snap := none })

/-- RTC_SNAPSHOT_EXPIRY (R431): the 33rd crystal edge. -/
def execRtcSnapshotExpiry (s : State) : Host.Outcome State Fault Refusal := .next (withRtc (fun r => { r with snap := none }) s)

/-- RTC_COMMIT (R433 to R435). -/
def rtcCommit (value : Word) (s : State) : State :=
  withRtc (fun r =>
    if r.locked then { r with armed := false }
    else
      let t := heldTime r (bits value.toNat 0 6)
      if timeValid t then { r with commit := some t, armed := false } else { r with dateInvalid := true, armed := false }) s

def execRtcCommit (value : Word) (s : State) : Host.Outcome State Fault Refusal := whenLive s (rtcCommit value)

/-- RTC_COMMIT_LOAD (R433, R436): the calendar loads, PRESCALER is 0, OSC_STOPPED clears. -/
def rtcLoad (s : State) : State :=
  match s.rtc.commit with
  | none => s
  | some t => withRtc (fun r => { r with time := t, presc := 0, commit := none, oscStopped := false, sqwNew := false }) s

def execRtcCommitLoad (s : State) : Host.Outcome State Fault Refusal := .next (rtcLoad s)

/-- RTC_UNLOCK (R426): both writes 10 ms or more after VDD_IO became good; any other write cancels the first. -/
def rtcUnlock (value : Word) (s : State) : State :=
  match s.rtc.vddGoodAt with
  | none => s
  | some t =>
    if s.now < t + 5000000 then s
    else if value = 0x00005EED#32 then withRtc (fun r => { r with armed := true }) s
    else if value = 0x0000F1E1#32 ∧ s.rtc.armed = true then withRtc (fun r => { r with armed := false, locked := false }) s
    else withRtc (fun r => { r with armed := false }) s

def execRtcUnlock (value : Word) (s : State) : Host.Outcome State Fault Refusal := whenLive s (rtcUnlock value)

/-- RTC_LOCK (R425): VDD_IO falls through 1.62 V. -/
def execRtcLock (s : State) : Host.Outcome State Fault Refusal :=
  .next (withRtc (fun r => { r with locked := true, armed := false, vddGoodAt := none }) s)

/-- VDD_IO_GOOD (R424, R426): the interface stays locked until it is unlocked. -/
def execVddIoGood (s : State) : Host.Outcome State Fault Refusal :=
  .next (withRtc (fun r => { r with vddGoodAt := some s.now, armed := false }) s)

/-- BATTERY_POWER_UP (R427, R436, R440): every RTC register takes its reset value. -/
def execBatteryPowerUp (s : State) : Host.Outcome State Fault Refusal :=
  .next (withRtc (fun r => { ({} : Rtc) with vddGoodAt := r.vddGoodAt }) s)

/-- WAKE_OUT is driven by the sources of a mask, and their wake flags are set (R142, R438, R439). -/
def wakeRises (m : Nat) (s : State) : State :=
  withRtc (fun r => { r with wakeWur := r.wakeWur || bit m 0, wakeAlarm := r.wakeAlarm || bit m 1 })
    (withLife (fun l => { l with wakeOut := l.wakeOut || m != 0, wakeBy := Nat.lor l.wakeBy m, wakePend := 0 }) s)

/-- A chosen wake source drives WAKE_OUT at the later of now and the fall of BIVOUAC_N (R82): source 0 the wake receiver, 1 the alarm. Once it
has driven it, it changes nothing more (R142). -/
def driveWake (src : Nat) (s : State) : State :=
  if !(s.life.armed && s.life.aonUp && bit s.life.bivSources src) || bit s.life.wakeBy src then s
  else
    if s.life.bivouacN then withLife (fun l => { l with wakePend := Nat.lor l.wakePend (2 ^ src) }) s else wakeRises (2 ^ src) s

/-- The alarm matches a time (R438): second 0, and each field equal or ANY; a field out of range never matches. -/
def alarmMatch (r : Rtc) (t : RtcTime) : Bool :=
  let a := r.alarm.toNat
  r.alarmEn && t.second == 0 && (bit a 7 || bits a 0 6 == t.minute) && (bit a 15 || bits a 8 5 == t.hour) &&
    (bit a 23 || bits a 16 5 == t.day)

/-- What an alarm match does (R438). -/
def alarmFires (s : State) : State :=
  let t := withRtc (fun r => { r with alarmHit := true }) s
  if s.life.armed then driveWake 1 t
  else if live s then raise .rtcAlarm 0 (le 4 (time0Of s.rtc.time).toNat ++ le 4 (time1Of s.rtc.time).toNat) t
  else t

/-- RTC_SECOND_TICK (R429, R430, R438): no tick while edges are missing. -/
def secondTick (s : State) : State :=
  if !s.rtc.oscRunning then s
  else
    let n := nextSecond s.rtc.time
    let t := withRtc (fun r => { r with time := n, presc := 0, sqwNew := false, yearWrap := r.yearWrap || (r.time.year == 399 && n.year == 0) }) s
    if alarmMatch t.rtc n then alarmFires t else t

def execRtcSecondTick (s : State) : Host.Outcome State Fault Refusal := .next (secondTick s)

/-- OSC_STOP (R436, R137): calendar and prescaler hold; a duty-cycled wake receiver runs continuously instead. -/
def execOscStop (presc : BitVec 15) (s : State) : Host.Outcome State Fault Refusal :=
  .next { withRtc (fun r => { r with oscRunning := false, oscStopped := true, presc := presc.toNat }) s with
          wur := if s.wur.mode = 2 then { s.wur with mode := 3, window := false, modeAt := s.now } else s.wur }

/-- OSC_RESUME (R436). -/
def execOscResume (s : State) : Host.Outcome State Fault Refusal := .next (withRtc (fun r => { r with oscRunning := true }) s)

/-- Crystal periods of a wave of Table 18.4; 0 where the output is off. -/
def sqwPeriod (sel : Nat) : Nat := match sel with | 1 => 32768 | 2 => 512 | 3 => 32 | 4 => 1 | _ => 0

/-- RTC_SQW's level at a prescaler value and a level of the crystal (R437): low while locked or off, and after a change of SQW_SEL, which took
effect at prescaler `since`, until the new wave next rises; every wave rises at a second tick. -/
def rtcSqw (r : Rtc) (presc since : Nat) (crystal : Bool) : Bool :=
  let n := sqwPeriod r.sqwSel
  !r.locked && n != 0 && (!r.sqwNew || since / n < presc / n) && (if n = 1 then crystal else presc % n < n / 2)

end Sys2Proof.Machine
end

