-- ==== Sys2Proof/Machine/Wake.lean ====
section
/-!
DEFINITION. The wake receiver and wake-up transmission (spec/06_wake_receiver.md).
-/
namespace Sys2Proof.Machine
open Sys2Proof

def withWur (f : Wur → Wur) (s : State) : State := { s with wur := f s.wur }

def wurCount (i : Nat) (s : State) : State := withWur (fun w => { w with ctr := vadd w.ctr i 1 }) s

/-- A match entry of Table 6.2, and the checks of WUR_SET_MATCH. -/
def wurEntryOf (b : List Byte) : WurEntry :=
  { ctrl := u8 b 0, types := u8 b 1, id := u16 b 2, idMask := u16 b 4, tdc := u16 b 6, tdcMask := u16 b 8 }

def wurEntryOk (b : List Byte) : Bool :=
  u8 b 0 < 8 && u16 b 2 < 4096 && u16 b 4 < 4096 && u16 b 6 < 4096 && u16 b 8 < 4096 && zeros b 10 6 &&
    (!bit (u8 b 0) 0 || bits (u8 b 0) 1 2 != 0)

/-- R138. -/
def wurEntryMatch (e : WurEntry) (f : WurFrame) : Bool :=
  bit e.ctrl 0 && bit e.ctrl (if f.high then 2 else 1) && bit e.types f.type.toNat &&
    Nat.land (Nat.xor f.id.toNat e.id) e.idMask == 0 && Nat.land (Nat.xor f.tdc.toNat e.tdc) e.tdcMask == 0

/-- The lowest-numbered matching entry. -/
def wurFind (t : Vector WurEntry 64) (f : WurFrame) : Option Nat := (List.range 64).find? fun i => wurEntryMatch (vget t i) f

/-- The receiver is powered and works: in the running device, or with its sources loaded in bivouac. -/
def wurOn (s : State) : Bool := s.life.aonUp && (live s || s.life.armed)

/-- The frame's level, type, rate, ID and TDC as event data (R141). -/
def wurData (f : WurFrame) : List Byte :=
  [byte f.type.toNat, byte (put f.high 0)] ++ le 2 f.id.toNat ++ le 2 f.tdc.toNat ++ [byte (uns 8 f.level), 0]

/-- A match while running raises WUR_MATCH, at most once per 100 ms per entry (R141); from the completion of
POWER_ENTER_BIVOUAC on it drives WAKE_OUT (R142). -/
def wurMatched (e : Nat) (f : WurFrame) (s : State) : State :=
  if s.life.armed then driveWake 0 s
  else
    let t := wurCount 2 s
    match kget s.wur.lastEvt e with
    | some at_ => if s.now < at_ + 50000000 then t else raise .wurMatch e (wurData f) (withWur (fun w => { w with lastEvt := kset w.lastEvt e s.now }) t)
    | none => raise .wurMatch e (wurData f) (withWur (fun w => { w with lastEvt := kset w.lastEvt e s.now }) t)

/-- Ticks from the beginning of WUR-Sync to the last data symbol: 64 us and 4 us a bit at 250 kb/s, 128 us and 16 us at 62.5 kb/s
(Table 6.4). -/
def wurTicks (high : Bool) (body : Nat) : Nat := if high then 32000 + 2000 * (48 + 8 * body) else 64000 + 8000 * (48 + 8 * body)

/-- An instant lies in a window of the duty cycle, counted from the instant the mode took effect (R136): a WU is 488,281.25 ticks. -/
def inWindow (w : Wur) (t : Nat) : Bool := 4 * (t - w.modeAt) / 1953125 % w.period < w.on

/-- A frame whose WUR-Sync began at `t` is received: the receiver has run since before it, its window was open (R136), and radio A has
blanked none of it (R140). -/
def wurHears (t : Nat) (s : State) : Bool :=
  wurOn s && s.wur.mode != 0 && s.wur.modeAt ≤ t && (s.wur.mode != 2 || inWindow s.wur t) && (vget s.fe 0).tx.isNone && s.wur.blankTill ≤ t

/-- The match table as it stood at an instant (R139). -/
def tableAt (w : Wur) (t : Nat) : Vector WurEntry 64 :=
  match w.olds.find? fun p => t < p.1 with
  | some p => p.2
  | none => w.table

/-- WUR_FRAME_RX (R134, R136, R138 to R140): a frame's last data symbol. -/
def wurFrameRx (f : WurFrame) (s : State) : State :=
  let t0 := s.now - wurTicks f.high f.body
  if s.now < wurTicks f.high f.body || !wurHears t0 s then s
  else
    let t := wurCount 0 s
    if !f.fcsOk then wurCount 1 t
    else
      match wurFind (tableAt s.wur t0) f with
      | some e => wurMatched e f t
      | none => wurCount 3 t

def execWurFrameRx (f : WurFrame) (s : State) : Host.Outcome State Fault Refusal := .next (wurFrameRx f s)

/-- WUR_WINDOW (R136): a window opens or closes where its mode's instant, PERIOD and ON say so. -/
def wurWindow (isOpen : Bool) (s : State) : State :=
  if wurOn s && s.wur.mode == 2 && inWindow s.wur s.now == isOpen then withWur (fun w => { w with window := isOpen }) s else s

def execWurWindow (isOpen : Bool) (s : State) : Host.Outcome State Fault Refusal := .next (wurWindow isOpen s)

/-- A receiver mode takes effect: its windows are counted from now (R136). -/
def wurStart (mode now : Nat) (w : Wur) : Wur := { w with mode := mode, modeAt := now, window := mode == 2 }

/-- The mode that runs for a mode requested (R137). -/
def wurModeFor (mode : Nat) (s : State) : Nat := if mode = 2 ∧ s.rtc.oscStopped = true then 3 else mode

def wurSetRxForm : Form :=
  inlineForm 0x0E80 8 0 fun p => u8 p 0 ≤ 2 && u8 p 1 == 0 && (2412 ≤ u16 p 2 && u16 p 2 ≤ 2472 && (u16 p 2 - 2412) % 5 == 0) && (2 ≤ u16 p 4 && u16 p 4 ≤ 4095) && (1 ≤ u16 p 6 && u16 p 6 < u16 p 4)

def wurSetRxRun : Cmd → State → Effect := fun c s =>
    let p := c.params
    okay (withWur (fun w => wurStart (wurModeFor (u8 p 0) s) s.now { w with channel := u16 p 2, period := u16 p 4, on := u16 p 6 }) s)

def execWurSetRx (m : Fin 8) (buf : List Byte) (s : State) : Host.Outcome State Fault Refusal :=
  command wurSetRxForm m buf s wurSetRxRun

/-- WUR_SET_MATCH (R138, R139). -/
def wurSetMatch (p : List Byte) (s : State) : State :=
  withWur (fun w => { w with
    olds := (w.olds.filter fun q => s.now < q.1 + 20000000) ++ [(s.now, w.table)]
    table := Vector.ofFn fun i =>
      if u8 p 0 ≤ i.val ∧ i.val < u8 p 0 + u8 p 1 then wurEntryOf (slice p (16 + 16 * (i.val - u8 p 0)) 16) else w.table[i] }) s

def wurSetMatchForm : Form :=
  { opcode := 0x0E81, indirect := true
    length := fun p => if 1 ≤ u8 p 1 ∧ u8 p 1 ≤ 64 then some (16 + 16 * u8 p 1) else none
    data := fun _ => 0
    ok := fun p => u8 p 0 ≤ 63 && (1 ≤ u8 p 1 && u8 p 1 ≤ 64) && u8 p 0 + u8 p 1 ≤ 64 && zeros p 2 14 &&
      (List.range (u8 p 1)).all fun i => wurEntryOk (slice p (16 + 16 * i) 16) }

def wurSetMatchRun : Cmd → State → Effect := fun c s =>
    okay (wurSetMatch c.params s)

def execWurSetMatch (m : Fin 8) (buf : List Byte) (s : State) : Host.Outcome State Fault Refusal :=
  command wurSetMatchForm m buf s wurSetMatchRun

def wurValid (w : Wur) : Nat := (w.table.toList.filter fun e => bit e.ctrl 0).length

def wurGetStatusForm : Form := inlineForm 0x0E82 0 16 fun _ => true

def wurGetStatusRun : Cmd → State → Effect := fun _ s =>
    answer ([byte s.wur.mode, byte (wurValid s.wur)] ++ le 2 s.wur.channel ++ le 2 s.wur.period ++ le 2 s.wur.on ++ le 8 0) s

def execWurGetStatus (m : Fin 8) (buf : List Byte) (s : State) : Host.Outcome State Fault Refusal :=
  command wurGetStatusForm m buf s wurGetStatusRun

/-- WUR_SEND (R144): copy 0 is due at once. -/
def wurSendRun (c : Cmd) (s : State) : Effect :=
  let p := c.params
  let b := u8 p 0
  if (vget s.fe 0).state = .off ∨ s.life.mode = .startUp ∨ bssEnabled b s = false then .fail .wrongState
  else if khas s.wur.tx b then .fail .busy
  else
    let x : WurTx := { handle := c.handle, rate := u8 p 1, type := u8 p 2, id := u16 p 4, tdc := u16 p 6,
                       body := slice p 16 (u8 p 3), left := u16 p 8 - 1, t0 := c.at_, interval := u16 p 10, waiting := true }
    .hold (withWur (fun w => { w with tx := kset w.tx b x }) s)

def wurSendForm : Form :=
  { opcode := 0x0E83, indirect := false
    length := fun p => if u8 p 3 ≤ 32 then some (16 + u8 p 3) else none
    data := fun _ => 2
    ok := fun p => u8 p 0 ≤ 15 && u8 p 1 ≤ 1 && u8 p 2 ≤ 7 && u8 p 3 ≤ 32 && u16 p 4 < 4096 && u16 p 6 < 4096 &&
      1 ≤ u16 p 8 && 1 ≤ u16 p 10 && zeros p 12 4 }

def execWurSend (m : Fin 8) (buf : List Byte) (s : State) : Host.Outcome State Fault Refusal :=
  command wurSendForm m buf s wurSendRun

/-- A BSS's send has neither a copy unsent nor one to come: its command completes. -/
def wurSendDone (b : Nat) (s : State) : State :=
  match kget s.wur.tx b with
  | some x =>
    if x.left = 0 ∧ x.waiting = false ∧ x.onAir = false then finish x.handle .ok (le 2 x.sent) (withWur (fun w => { w with tx := kdel w.tx b }) s) else s
  | none => s

/-- WUR_COPY_DUE (R144): copy k falls due at T0 + k x INTERVAL TU, and an earlier one that has not gone on the air is dropped; after the
last copy's INTERVAL an unsent last copy goes on waiting for its access. -/
def wurCopyDue (b : Nat) (s : State) : State :=
  match kget s.wur.tx b with
  | none => s
  | some x =>
    if x.left = 0 ∨ s.now < x.t0 + x.next * x.interval * 512000 then s
    else
      let t := if x.waiting then wurCount 6 s else s
      withWur (fun w => { w with tx := kset w.tx b { x with left := x.left - 1, next := x.next + 1, waiting := true } }) t

def execWurCopyDue (bss : Fin 16) (s : State) : Host.Outcome State Fault Refusal := whenRunning s (wurCopyDue bss)

/-- A copy goes on the air. -/
def wurCopyStarts (b : Nat) (s : State) : State :=
  withWur (fun w => { w with tx := kmod w.tx b fun x => { x with waiting := false, onAir := true } }) s

/-- A copy on the air was cut short: it is unsent again, or dropped where the next has fallen due (R144). -/
def wurCopyCut (b : Nat) (s : State) : State :=
  match kget s.wur.tx b with
  | some x =>
    if !x.onAir then s
    else withWur (fun w => { w with tx := kset w.tx b { x with waiting := true, onAir := false } }) (if x.waiting then wurCount 6 s else s)
  | none => s

/-- Radio A's PPDU blanks the receiver (R140): a frame in progress, its sync detected, is lost. -/
def wurBlanked (s : State) : State := if wurOn s && s.wur.mode != 0 then wurCount 4 (wurCount 0 s) else s

/-- The blanking ends 2 us after the end of the ramp-down, given in 0.1 us (R140). -/
def wurUnblank (rampDown : Nat) (s : State) : State := withWur (fun w => { w with blankTill := s.now + 50 * rampDown + 1000 }) s

/-- A copy has been sent. -/
def wurCopySent (b : Nat) (s : State) : State :=
  match kget s.wur.tx b with
  | none => s
  | some x => wurSendDone b (withWur (fun w => { w with tx := kset w.tx b { x with onAir := false, sent := x.sent + 1 } }) (wurCount 5 s))

def wurGetCountersForm : Form := indirectForm 0x0E84 0 56 fun _ => true

def wurGetCountersRun : Cmd → State → Effect := fun _ s => answer (ctrBytes s.wur.ctr) s

def execWurGetCounters (m : Fin 8) (buf : List Byte) (s : State) : Host.Outcome State Fault Refusal :=
  command wurGetCountersForm m buf s wurGetCountersRun

end Sys2Proof.Machine
end

