-- ==== Sys2Proof/Machine/Mac.lean ====
section
/-!
DEFINITION. The MAC's settings and commands, beacons, Block Ack and TWT set-up (spec/07_medium_access.md).
-/
namespace Sys2Proof.Machine
open Sys2Proof

/-! Beacon bodies (R173). -/

/-- Length in bytes of the element at an offset of a body. -/
def elemLen (p : List Byte) (i : Nat) : Nat := 2 + u8 p (i + 1)

/-- Channel Switch Announcement and Extended Channel Switch Announcement of a pending switch (IEEE 802.11-2020). -/
def csaElem (q : ChanReq) (count : Nat) : List Byte := [37, 3, 0, byte ((q.centre - 5000) / 5), byte count]
def ecsaElem (q : ChanReq) (count : Nat) : List Byte := [60, 4, 0, byte q.bw, byte ((q.centre - 5000) / 5), byte count]

/-- The members of a BSS's multiple-BSSID set, the transmitting one left out. -/
def setMembers (b : Nat) (s : State) : List Nat :=
  (List.range 48).filter fun i => i != b && (vget s.mac.bss i).setTx == some b

/-- Profiles of the nontransmitted BSSIDs, as one Multiple BSSID element body. -/
def setProfiles (b : Nat) (s : State) : List Byte :=
  if (vget s.mac.bss b).transmits then
    (setMembers b s).flatMap fun i => match (vget s.mac.bss i).template with
      | some t => Config.nontxProfile t.body
      | none => []
  else []

/-- The longest a beacon of a BSS could become (R173): TIM 256 bytes, both channel-switch elements, the broadcast TWT element
and the profiles as configured. -/
def worstBeacon (b : Nat) (t : Template) (s : State) : Nat :=
  t.body.length - elemLen t.body t.timOffset + 256 + 5 + 6 +
    (if (vget s.mac.bss b).twtBcast > 0 then (Config.twtElement (vget s.mac.bss b).twtBcast).length else 0) + (let k := (setProfiles b s).length; if k > 0 then 3 + k else 0)

/-- Some template's beacon could exceed 2,304 bytes. -/
def beaconTooLong (s : State) : Bool :=
  (List.range 48).any fun b => match (vget s.mac.bss b).template with
    | some t => worstBeacon b t s > 2304
    | none => false

/-- The BSSs whose stations the TIM of a beacon covers: the BSS and, where it transmits for a set, the other members (R175). -/
def timBsss (b : Nat) (s : State) : List Nat := b :: (if (vget s.mac.bss b).transmits then setMembers b s else [])

/-- AIDs with traffic buffered for a dozing station (R176). -/
def bufferedAids (b : Nat) (s : State) : List Nat :=
  ((timBsss b s).flatMap fun i => (staOfBss i s).filter fun p => p.2.doze && (List.range 8).any fun t => khas s.sched.q (8 * p.1 + t)).map (·.2.aid)

/-- Group traffic waits in the BSS, and its next beacon is a DTIM beacon. -/
def groupWaits (b : Nat) (s : State) : Bool := (vget s.mac.bss b).dtimCount == 0 && (List.range 4).any fun g => khas s.sched.gq (4 * b + g)

/-- The BSSID index of a member of a set of 16: the bit of the TIM that stands for its group traffic (IEEE 802.11; PRESUMED, log 91). -/
def bssidIndex (b i : Nat) (s : State) : Nat := (u8 (vget s.mac.bss i).bssid 5 + 256 - u8 (vget s.mac.bss b).bssid 5) % 16

/-- The TIM element: DTIM count and period, and the partial virtual bitmap (IEEE 802.11-2020). -/
def timElem (b : Nat) (s : State) : List Byte :=
  let x := vget s.mac.bss b
  let aids := bufferedAids b s ++ (((timBsss b s).drop 1).filter (groupWaits · s)).map (bssidIndex b · s)
  let octet (i : Nat) : Nat := maskOf ((List.range 8).map fun j => aids.contains (8 * i + j))
  let used := (List.range 251).filter fun i => octet i != 0
  let n1 := (used.headD 0) / 2 * 2
  let n2 := used.getLastD 0
  let map := (List.range (n2 + 1 - n1)).map fun k => byte (octet (n1 + k))
  [5, byte (3 + map.length), byte x.dtimCount, byte x.dtim, byte (put (groupWaits b s) 0 + n1)] ++ map

/-- Inserts an element before the first one the standard places after it. -/
def insertElem (e : List Byte) : (fuel : Nat) → List Byte → List Byte
  | 0, p => p ++ e
  | n + 1, p =>
    if p.isEmpty then e
    else if Config.elemRank (u8 p 0) > Config.elemRank (u8 e 0) then e ++ p
    else p.take (elemLen p 0) ++ insertElem e n (p.drop (elemLen p 0))

/-- The count a BSS's beacon carries: its own TBTTs left before the switch instant (R174). -/
def switchCount (b : Nat) (q : ChanReq) (s : State) : Nat := ceilDiv (switchIn q s) ((vget s.mac.bss b).interval * 1024000)

/-- The body of a beacon as sent now (R173). -/
def beaconBody (b : Nat) (s : State) : List Byte :=
  let x := vget s.mac.bss b
  let r := bssRadio b
  match x.template with
  | none => []
  | some t =>
    let p1 := be 8 (tsfOf b s) ++ t.body.drop 8
    let p2 := match Config.changeCountAt t.body with
      | some i => p1.take i ++ [byte x.changes] ++ p1.drop (i + 1)
      | none => p1
    let head := p2.take 12
    let elems := (p2.take t.timOffset).drop 12 ++ timElem b s ++ p2.drop (t.timOffset + elemLen t.body t.timOffset)
    let n := elems.length
    let e1 := match (vget s.fe r).chanReq, x.chNext with
      | some q, some k => insertElem (ecsaElem q k) n (insertElem (csaElem q k) n elems)
      | _, _ => elems
    let e2 := if x.twtBcast > 0 then insertElem (Config.twtElement x.twtBcast) n e1 else e1
    let e3 := if x.transmits && !(setProfiles b s).isEmpty then
        insertElem ([71, byte (1 + (setProfiles b s).length), 4] ++ setProfiles b s) n e2
      else e2
    head ++ e3

/-! TBTT (R171, R172, R174, R336). -/

/-- The radio can begin a PPDU: in RX, or in STANDBY on its way into TX (R86), and neither calibrating nor changing channel. -/
def txReady (r : Nat) (s : State) : Bool :=
  let e := vget s.fe r
  ((e.state == .rx && e.trans.isNone) || (e.state == .standby && e.trans == some .tx)) && e.tx.isNone && e.cal.isNone && e.sw.isNone &&
    !(vget s.bf.radio r).running && (vget s.mac.radio r).survey.isNone && s.life.mode != .startUp

/-- The radio can start a PPDU of its own: nothing else is in progress. -/
def radioFree (r : Nat) (s : State) : Bool :=
  let e := vget s.fe r
  txReady r s && !e.owesResp && !e.awaits && (vget s.mac.radio r).txNext.isEmpty

/-- It senses the medium and may contend for it: in RX. -/
def contends (r : Nat) (s : State) : Bool := radioFree r s && (vget s.fe r).state == .rx

/-- The primary 20 MHz has been idle for PIFS. A radio on its way from STANDBY into TX (R86) has sensed nothing: only its NAVs count (DESIGN
CHOICE, log 90). -/
def pifsIdle (r : Nat) (s : State) : Bool :=
  let e := vget s.fe r
  idleFor r (pifsNs r s) s ||
    (e.state == .standby && e.trans == some .tx && (vget s.mac.radio r).navBasic.isNone && (vget s.mac.radio r).navIntra.isNone)

/-- The beacon's PPDU. -/
def beaconPpdu (b : Nat) (s : State) : TxCur :=
  let rate := match (vget s.mac.bss b).template with | some t => t.rate | none => 0
  let body := beaconBody b s
  { kind := .beacon, bss := b, fmt := rateFmt rate, len := body.length + 28, durNs := basicNs (bssRadio b) rate (body.length + 28), body := body }

/-- The beacon of a BSS is requested; its first sample reaches the antenna at once. -/
def sendBeacon (b : Nat) (s : State) : State :=
  withRm (bssRadio b) (fun m => { m with txNext := m.txNext ++ [beaconPpdu b s] })
    (withBss b (fun x => { x with bcnDue := false }) s)

/-! What waits for a BSS's next TBTT. -/

/-- What MAC_SET_BSS writes. -/
def bssWrite (p : List Byte) (s : State) : State :=
  withBss (u8 p 1) (fun x => { x with
    en := bit (u8 p 2) 0, beacon := bit (u8 p 2) 1, shortSlot := bit (u8 p 2) 2, transmits := bit (u8 p 2) 3
    setTx := if u8 p 3 = 0xFF then none else some (u8 p 3)
    bssid := slice p 4 6, interval := u16 p 10, tbttOffset := u16 p 12, dtim := u8 p 14, rts := u16 p 16
    dtimCount := if x.dtim = u8 p 14 then x.dtimCount else 0
    lastTbtt := if x.interval = u16 p 10 ∧ x.tbttOffset = u16 p 12 then x.lastTbtt else none }) s

/-- The parameters and the template that wait take effect. -/
def applyNext (b : Nat) (s : State) : State :=
  let x := vget s.mac.bss b
  let t := match x.setNext with | some p => bssWrite p s | none => s
  withBss b (fun y => { y with setNext := none, tmplNext := none, template := if x.tmplNext.isSome then x.tmplNext else y.template }) t

/-- The BSSs as they will be once all that waits has taken effect. -/
def allNext (s : State) : State := (List.range 48).foldl (fun t b => applyNext b t) s

/-! TBTT. -/

/-- This instant is a TBTT of the BSS. -/
def atTbtt (b : Nat) (s : State) : Bool := let x := vget s.mac.bss b; tsfOf b s % (x.interval * 1024) == x.tbttOffset * 1024 % (x.interval * 1024)

/-- The TBTT is at or before the last one beaconed (R336). -/
def tbttServed (b : Nat) (s : State) : Bool :=
  match (vget s.mac.bss b).lastTbtt with
  | some t => tsfOf b s ≤ t
  | none => false

/-- A change of channel is due now: the beacon waits for it (R174). -/
def moveFirst (r : Nat) (s : State) : Bool := match (vget s.fe r).chanReq with | some q => q.announced && switchDue q s | none => false

/-- A BSS of a lower index has a beacon to send first: one that waits, or one of this TBTT (R172). -/
def lowerFirst (b : Nat) (s : State) : Bool :=
  (List.range 16).any fun i =>
    let c := 16 * bssRadio b + i
    c < b && ownBeacons c s && ((vget s.mac.bss c).bcnDue || (atTbtt c s && !tbttServed c s))

/-- A beacon may go now: the medium is idle for PIFS, and no TXOP is held. -/
def beaconClear (r : Nat) (s : State) : Bool :=
  pifsIdle r s && radioFree r s && !ccaBusy r s && !(vget s.fe r).txopHeld && !moveFirst r s

/-- The beacon of this TBTT becomes due: one unsent from the TBTT before is dropped; its DTIM counts step, for a set those of every member, and
it carries the count of a channel switch (R172 to R176). -/
def beaconDue (b : Nat) (s : State) : State :=
  let s1 := if (vget s.mac.bss b).bcnDue then macCount (bssRadio b) 17 1 s else s
  let s2 := (timBsss b s).foldl (fun t i => withBss i (fun x => { x with dtimCount := if x.dtimCount = 0 then x.dtim - 1 else x.dtimCount - 1 }) t) s1
  withBss b (fun x => { x with
    lastTbtt := some (tsfOf b s), bcnDue := true
    chNext := ((vget s.fe (bssRadio b)).chanReq.filter (·.announced)).map fun q => switchCount b q s }) s2

/-- TBTT (R171, R172, R336, Table 7.8): what waits for it takes effect, and the beacon goes at once where the medium has been idle for PIFS. -/
def tbtt (b : Nat) (s0 : State) : State :=
  if !atTbtt b s0 then s0
  else
    let s := applyNext b s0
    if !ownBeacons b s || !atTbtt b s then s
    else if tbttServed b s then { s with time := { s.time with ctr := vadd s.time.ctr 9 1 } }
    else
      let t := beaconDue b s
      if beaconClear (bssRadio b) t && !lowerFirst b t then sendBeacon b t else t

def execTbtt (b : Fin 48) (_ : NoData) (s : State) : Host.Outcome State Fault Refusal := whenLive s (tbtt b)

/-- BCN_DEFERRED (R172): PIFS after the medium frees, the deferred beacon of the lowest BSS index goes. -/
def bcnDeferred (r : Nat) (s : State) : State :=
  match (List.range 16).find? fun i => (vget s.mac.bss (16 * r + i)).bcnDue && ownBeacons (16 * r + i) s with
  | some i => if beaconClear r s then macCount r 16 1 (sendBeacon (16 * r + i) s) else s
  | none => s

def execBcnDeferred (r : Radio) (s : State) : Host.Outcome State Fault Refusal := whenLive s (bcnDeferred (rnum r))

/-! Commands (Table 7.8). -/

/-- A BSS index of a radio. -/
def bssOf (r b : Nat) : Bool := 16 * r ≤ b && b < 16 * r + 16

/-- MAC_SET_BSS (R175). -/
def setBssOk (p : List Byte) : Bool :=
  u8 p 0 ≤ 2 && bssOf (u8 p 0) (u8 p 1) && bits (u8 p 2) 4 4 == 0 && (u8 p 0 == 0 || bit (u8 p 2) 2) &&
    (u8 p 3 == 0xFF || bssOf (u8 p 0) (u8 p 3)) && (1 ≤ u16 p 10 && u16 p 10 ≤ 1000) && u16 p 12 < u16 p 10 && 1 ≤ u8 p 14 &&
    u8 p 15 == 0 && u16 p 18 == 0

/-- A set keeps one transmitting BSS (R175): the transmitter names itself or nothing, a member names a BSS that transmits, and a transmitter
that members name stays one (that a request against this is a BAD_PARAM is the model's choice, log 91). -/
def setFits (p : List Byte) (s : State) : Bool :=
  let b := u8 p 1
  let own := bit (u8 p 2) 3
  let tx := u8 p 3
  (if own then tx == 0xFF || tx == b else tx == 0xFF || (tx != b && (vget s.mac.bss tx).transmits && (vget s.mac.bss tx).setTx.all (· == tx))) &&
    (own || (setMembers b s).isEmpty)

/-- MAC_SET_BSS: it takes effect at the BSS's next TBTT. -/
def setBssRun (c : Cmd) (s : State) : Effect :=
  let p := c.params
  let u := allNext s
  if !setFits p u then .fail .badParam
  else if beaconTooLong (bssWrite p u) && !beaconTooLong u then .fail .badLength
  else if (vget s.fe (u8 p 0)).chanReq.isSome then .fail .busy
  else okay (withBss (u8 p 1) (fun x => { x with setNext := some p }) s)

def macSetBssForm : Form := inlineForm 0x0300 20 0 setBssOk

def execMacSetBss (m : Fin 8) (buf : List Byte) (s : State) : Host.Outcome State Fault Refusal :=
  command macSetBssForm m buf s setBssRun

/-- MAC_SET_BEACON (R173): the byte at TIM_OFFSET begins a TIM element. It takes effect at the next TBTT. -/
def setBeaconOk (p : List Byte) : Bool :=
  let n := u16 p 2
  let tim := u16 p (8 + n)
  u8 p 0 ≤ 47 && u8 p 1 ≤ 11 && (u8 p 1 ≤ 7 || u8 p 0 ≤ 15) && u32 p 4 == 0 && 12 ≤ tim && tim + 2 ≤ n && u8 p (8 + tim) == 5 &&
    tim + elemLen (slice p 8 n) tim ≤ n

def setBeaconRun (c : Cmd) (s : State) : Effect :=
  let p := c.params
  let n := u16 p 2
  let t : Template := { rate := u8 p 1, body := slice p 8 n, timOffset := u16 p (8 + n) }
  let v := allNext s
  let u := withBss (u8 p 0) (fun x => { x with template := some t }) v
  if worstBeacon (u8 p 0) t u > 2304 || (beaconTooLong u && !beaconTooLong v) then .fail .badLength
  else okay (withBss (u8 p 0) (fun x => { x with tmplNext := some t }) s)

def macSetBeaconForm : Form :=
  { opcode := 0x0301, indirect := true, length := fun p => some (8 + u16 p 2 + 2), data := fun _ => 0, ok := setBeaconOk }

def execMacSetBeacon (m : Fin 8) (buf : List Byte) (s : State) : Host.Outcome State Fault Refusal :=
  command macSetBeaconForm m buf s setBeaconRun

/-- The four AC records of MAC_SET_EDCA. -/
def edcaOf (p : List Byte) (a : Nat) : Edca :=
  { aifsn := u8 p (4 + 4 * a), ecwMin := bits (u8 p (5 + 4 * a)) 0 4, ecwMax := bits (u8 p (5 + 4 * a)) 4 4, txop := u16 p (6 + 4 * a) }

def setEdcaOk (p : List Byte) : Bool :=
  u8 p 0 ≤ 2 && u8 p 1 ≤ 1 && (u8 p 1 == 0 || bssOf (u8 p 0) (u8 p 2)) && u8 p 3 == 0 &&
    (List.range 4).all fun a => let e := edcaOf p a
      (if u8 p 1 = 0 then 1 ≤ e.aifsn else 2 ≤ e.aifsn) && e.aifsn ≤ 15 && e.ecwMin ≤ e.ecwMax

def macSetEdcaForm : Form := inlineForm 0x0302 20 0 setEdcaOk

def macSetEdcaRun : Cmd → State → Effect := fun c s =>
    let p := c.params
    let v := Vector.ofFn fun (i : Fin 4) => edcaOf p i
    -- The radio's own take effect at each function's next draw.
    if u8 p 1 = 0 then okay (withRm (u8 p 0) (fun m => { m with edcaNext := v.map some }) s)
    else okay (withBss (u8 p 2) (fun x => { x with edca := v, changes := (x.changes + 1) % 256 }) s)

def execMacSetEdca (m : Fin 8) (buf : List Byte) (s : State) : Host.Outcome State Fault Refusal :=
  command macSetEdcaForm m buf s macSetEdcaRun

def macSetCcaForm : Form :=
  inlineForm 0x0303 8 0 fun p => u8 p 0 ≤ 2 && (-82 ≤ i8 p 1 && i8 p 1 ≤ -40) && (-82 ≤ i8 p 2 && i8 p 2 ≤ -52) && (-82 ≤ i8 p 3 && i8 p 3 ≤ -40) && (-82 ≤ i8 p 4 && i8 p 4 ≤ -62) && zeros p 5 3

def macSetCcaRun : Cmd → State → Effect := fun c s =>
    let p := c.params
    okay (withRm (u8 p 0) (fun m => { m with edPri := i8 p 1, sdSec := i8 p 2, edSec := i8 p 3, obssPd := i8 p 4 }) s)

def execMacSetCca (m : Fin 8) (buf : List Byte) (s : State) : Host.Outcome State Fault Refusal :=
  command macSetCcaForm m buf s macSetCcaRun

/-- A maximum buffer size above a radio's A-MPDU limit is clipped and logged (R29). -/
def clipBuffers (sta max : Nat) (s : State) : State :=
  (List.range 3).foldl (fun t r =>
    let on := sta = 0xFFFF || (match kget s.mac.sta sta with | some x => bit x.links r | none => false)
    if on && (vget s.hl r).baLimit < max then logClip 1 r sta max (vget s.hl r).baLimit t else t) s

/-- MAC_SET_BA_POLICY (R161): for a station, or for all. -/
def setBaPolicy (p : List Byte) (s : State) : State :=
  let sta := u16 p 0
  let pol : BaPol := { accept := bit (u8 p 3) 0, max := u16 p 4, timeout := u8 p 6 }
  if sta = 0xFFFF then
    withMac (fun m => { m with
      baDef := Vector.ofFn fun i => if bit (u8 p 2) i.val then pol else m.baDef[i]
      baPol := m.baPol.filter fun q => !bit (u8 p 2) (q.1 % 8) }) s
  else (List.range 8).foldl (fun t i => if bit (u8 p 2) i then withMac (fun m => { m with baPol := kset m.baPol (8 * sta + i) pol }) t else t) s

def macSetBaPolicyForm : Form :=
  inlineForm 0x0306 8 0 fun p => (u16 p 0 ≤ 1023 || u16 p 0 == 0xFFFF) && u8 p 3 ≤ 1 && (1 ≤ u16 p 4 && u16 p 4 ≤ 1024) && 1 ≤ u8 p 6 && u8 p 7 == 0

def macSetBaPolicyRun : Cmd → State → Effect := fun c s =>
    okay (clipBuffers (u16 c.params 0) (u16 c.params 4) (setBaPolicy c.params s))

def execMacSetBaPolicy (m : Fin 8) (buf : List Byte) (s : State) : Host.Outcome State Fault Refusal :=
  command macSetBaPolicyForm m buf s macSetBaPolicyRun

/-- A BSS byte of MAC_SET_MLD: of the radio, or 0xFF. -/
def mldByteOk (r b : Nat) : Bool := b == 0xFF || bssOf r b

/-- MAC_SET_MLD (R168): each BSS belongs to at most one AP MLD. -/
def setMldRun (c : Cmd) (s : State) : Effect :=
  let p := c.params
  let n := u8 p 0
  let v : Vector (Option Nat) 3 := Vector.ofFn fun i => if u8 p (1 + i.val) = 0xFF then none else some (u8 p (1 + i.val))
  let clash := (List.range 16).any fun k => k != n && (match vget s.mac.mld k with
    | some x => (List.range 3).any fun i => (vget x.links i).isSome && vget x.links i == vget v i
    | none => false)
  if clash then .fail .badParam
  else if s.mac.sta.any fun q => q.2.mld == some n then .fail .wrongState
  else okay (withMac (fun m => { m with mld := vset m.mld n (some { links := v, addr := slice p 4 6 }) }) s)

def macSetMldForm : Form :=
  inlineForm 0x0307 12 0 fun p => u8 p 0 ≤ 15 && mldByteOk 0 (u8 p 1) && mldByteOk 1 (u8 p 2) && mldByteOk 2 (u8 p 3) && u16 p 10 == 0

def execMacSetMld (m : Fin 8) (buf : List Byte) (s : State) : Host.Outcome State Fault Refusal :=
  command macSetMldForm m buf s setMldRun

/-- What MAC_SET_TWT writes. -/
def twtWrite (p : List Byte) (s : State) : State :=
  withBss (u8 p 0) (fun x => { x with
    twtInd := bit (u8 p 1) 0, twtRestr := bit (u8 p 1) 1, drift := u16 p 2, twtMinWake := u32 p 4, twtMaxSp := u32 p 8
    twtBcast := u8 p 12 }) s

/-- MAC_SET_TWT (R177, R178). -/
def setTwtRun (c : Cmd) (s : State) : Effect :=
  let t := twtWrite c.params s
  if beaconTooLong (allNext t) && !beaconTooLong (allNext s) then .fail .badLength else okay t

def macSetTwtForm : Form := inlineForm 0x0308 16 0 fun p => u8 p 0 ≤ 47 && u8 p 1 ≤ 3 && u16 p 2 ≤ 500 && u8 p 12 ≤ 8 && zeros p 13 3

def execMacSetTwt (m : Fin 8) (buf : List Byte) (s : State) : Host.Outcome State Fault Refusal :=
  command macSetTwtForm m buf s setTwtRun

/-- MAC_SET_UPLINK (R180). -/
def setUplinkRun (c : Cmd) (s : State) : Effect :=
  let p := c.params
  if u8 p 1 = 0xFF then okay (withRm (u8 p 0) (fun m => { m with uplink := none }) s)
  else if !khas s.mac.sta (u16 p 2) then .fail .wrongState
  else
    let u : Uplink := { bss := u8 p 1, sta := u16 p 2, bssid := slice p 4 6, lossCount := u8 p 10, bcnWait := u8 p 11,
                        interval := u16 p 12, ps := bit (u8 p 14) 0 }
    okay (withRm (u8 p 0) (fun m => { m with uplink := some u }) s)

def macSetUplinkForm : Form :=
  inlineForm 0x0309 16 0 fun p => u8 p 0 ≤ 2 && (u8 p 1 == 0xFF || bssOf (u8 p 0) (u8 p 1)) && u16 p 2 ≤ 1023 && 1 ≤ u8 p 10 && (1 ≤ u8 p 11 && u8 p 11 ≤ 50) && u8 p 14 ≤ 1 && u8 p 15 == 0

def execMacSetUplink (m : Fin 8) (buf : List Byte) (s : State) : Host.Outcome State Fault Refusal :=
  command macSetUplinkForm m buf s setUplinkRun

/-- Queued MPDUs whose retry count exceeds the AC's limit are dropped (R158). -/
def dropOverTries (r : Nat) (s : State) : State :=
  s.sched.q.foldl (fun t p =>
    match kget t.mac.sta (p.1 / 8) with
    | none => t
    | some x =>
      if staRadio x (p.1 % 8) ≠ r then t
      else
        let lim := vget (vget t.mac.radio r).retryLim (acOfTid (p.1 % 8))
        let bad := p.2.filter fun f => f.tries > lim
        bad.foldl (fun u f => retryDrop r (p.1 / 8) (p.1 % 8) f u)
          (if bad.isEmpty then t else setTidQueue p.1 (p.2.filter fun f => !(f.tries > lim)) t)) s

def setRetryOk (p : List Byte) : Bool :=
  u8 p 0 ≤ 2 && u8 p 1 ≤ 1 && u16 p 2 == 0 &&
    (List.range 4).all fun a => (1 ≤ u8 p (4 + 3 * a) && u8 p (4 + 3 * a) ≤ 31) && 1 ≤ u16 p (5 + 3 * a)

def macSetRetryForm : Form := inlineForm 0x030A 16 0 setRetryOk

def macSetRetryRun : Cmd → State → Effect := fun c s =>
    let p := c.params
    okay (dropOverTries (u8 p 0) (withRm (u8 p 0) (fun m => { m with
      cfEnd := bit (u8 p 1) 0
      retryLim := Vector.ofFn fun i => u8 p (4 + 3 * i.val)
      lifeMs := Vector.ofFn fun i => u16 p (5 + 3 * i.val) }) s))

def execMacSetRetry (m : Fin 8) (buf : List Byte) (s : State) : Host.Outcome State Fault Refusal :=
  command macSetRetryForm m buf s macSetRetryRun

def macGetCountersForm : Form := indirectForm 0x030B 4 208 fun p => u8 p 0 ≤ 2 && zeros p 1 3

def macGetCountersRun : Cmd → State → Effect := fun c s =>
    answer (ctrBytes (vget s.mac.radio (u8 c.params 0)).ctr) s

def execMacGetCounters (m : Fin 8) (buf : List Byte) (s : State) : Host.Outcome State Fault Refusal :=
  command macGetCountersForm m buf s macGetCountersRun

/-- MAC_GET_STA's data; a station not in use reads as zeros. -/
def staData (n : Nat) (s : State) : List Byte :=
  match kget s.mac.sta n with
  | none => List.replicate 16 0
  | some x =>
    [byte (put true 0 + put x.doze 1 + put (uplinkLost n s) 2), byte x.links] ++ le 2 x.aid ++
      [byte (s.mac.ba.filter fun p => p.1 / 8 == n).length, byte (s.mac.twt.filter fun p => p.1 / 8 == n).length, 0, 0] ++
      le 4 x.contactNs ++ le 4 x.contactS

def macGetStaForm : Form := inlineForm 0x030C 4 16 fun p => u16 p 0 ≤ 1023 && u16 p 2 == 0

def macGetStaRun : Cmd → State → Effect := fun c s => answer (staData (u16 c.params 0) s) s

def execMacGetSta (m : Fin 8) (buf : List Byte) (s : State) : Host.Outcome State Fault Refusal :=
  command macGetStaForm m buf s macGetStaRun

/-! Frames Builmin sends to a station (R183). -/

/-- ADDBA_REQUEST (R161): the grant is the smallest of the request, the policy's maximum and the Headland limit. -/
def addba (q dialog size ssn : Nat) (s : State) : State :=
  let n := q / 8
  let tid := q % 8
  match kget s.mac.sta n with
  | none => s
  | some x =>
    let r := staRadio x tid
    let pol := (kget s.mac.baPol q).getD (vget s.mac.baDef tid)
    let lim := ((List.range 3).filter (bit x.links)).foldl (fun m i => min m (vget s.hl i).baLimit) 1024
    let grant := min (min (if size = 0 then 1024 else size) pol.max) lim
    let full := s.mac.ba.length ≥ 4096 && !khas s.mac.ba q
    let resp (status : Nat) : List Byte := [3, 1, byte dialog] ++ be 2 status ++ be 2 (2 + 4 * tid + 64 * grant % 65536) ++ be 2 0
    if !pol.accept || full then sendAction n (resp 37) (macCount r 14 1 s)
    else
      sendAction n (resp 0) (withMac (fun m => { m with
        ba := kset m.ba q { win := grant, start := ssn, timeout := pol.timeout } }) s)

def execAddbaRequest (q : Fin 8192) (dialog : Byte) (size : Nat) (ssn : BitVec 12) (s : State) : Host.Outcome State Fault Refusal :=
  whenRunning s (addba q dialog.toNat size ssn.toNat)

/-- TWT_SETUP_REQUEST (R177): answered with Accept or Reject by the policy of the station's BSS. -/
def twtSetup (n dialog flow interval len target : Nat) (restricted : Bool) (s : State) : State :=
  match kget s.mac.sta n with
  | none => s
  | some x =>
    let b := linkBss x (staRadio x 0)
    let y := vget s.mac.bss b
    let mine := s.mac.twt.filter fun p => p.1 / 8 == n
    let fits := khas s.mac.twt (8 * n + flow) || (s.mac.twt.length < 2048 && mine.length < 8)
    let ok := fits && (if restricted then y.twtRestr else y.twtInd) && y.twtMinWake ≤ interval && len ≤ y.twtMaxSp
    let resp (c : Nat) : List Byte := [22, 6, byte dialog, byte c, byte flow] ++ be 4 interval ++ be 4 len ++ be 8 target
    -- TWT Setup Command 4 is Accept TWT and 7 Reject TWT (IEEE 802.11).
    if ok then sendAction n (resp 4) (withMac (fun m => { m with
      twt := kset m.twt (8 * n + flow) { bss := b, interval := interval, len := len, restricted := restricted, next := target } }) s)
    else sendAction n (resp 7) s

def execTwtSetupRequest (sta : Fin 1024) (dialog : Byte) (flow : Fin 8) (interval : Nat) (sp : TwtSpan) (restricted : Bool) (s : State) :
    Host.Outcome State Fault Refusal := whenRunning s (twtSetup sta dialog.toNat flow interval sp.len sp.target.toNat restricted)

/-- SA_QUERY (R183): Builmin answers an SA Query Request. -/
def execSaQuery (sta : Fin 1024) (transId : BitVec 16) (s : State) : Host.Outcome State Fault Refusal :=
  whenRunning s fun s => if khas s.mac.sta sta then sendAction sta ([8, 1] ++ be 2 transId.toNat) s else s

/-! Target wake time (R178, R179). -/

/-- The guard in ns: 64 us and DRIFT per second since the last contact, at most 8,000 us. -/
def guardNs (x : Sta) (drift : Nat) (s : State) : Nat :=
  min (64000 + drift * (tbTotal 2 s - (x.contactS * 10 ^ 9 + x.contactNs)) / 10 ^ 6) 8000000

/-- TWT_SP_START: the next service period of an agreement begins on its BSS's TSF; the guard is fixed for the period, and an empty delivery
window counts TWT_GUARD_SHORT. -/
def twtSpStart (q : Nat) (s : State) : State :=
  match kget s.mac.twt q, kget s.mac.sta (q / 8) with
  | some t, some x =>
    if tsfOf t.bss s < t.next then s
    else
      let g := guardNs x (vget s.mac.bss t.bss).drift s
      let u := withSta (q / 8) (fun x => { x with sp := some { bss := t.bss, start := t.next, len := t.len, guard := g } }) s
      raiseSta (q / 8) s (macCount (bssRadio t.bss) (if t.len * 1000 ≤ 2 * g then 21 else 20) 1
        (withMac (fun m => { m with twt := kset m.twt q { t with next := t.next + t.interval } }) u))
  | _, _ => s

def execTwtSpStart (q : Fin 8192) (s : State) : Host.Outcome State Fault Refusal := whenLive s (twtSpStart q)

/-! Station-mode uplink (R181, R182). -/

/-- Every frame queued for a station is dropped, each counted: per-TID queues, the launch and late queues, and what has been requested. -/
def dropUplink (r n : Nat) (s : State) : State :=
  let m := vget s.mac.radio r
  let mine (f : Frame) : Bool := f.sta == n
  let out := (m.launchQ ++ m.lateQ).filter mine ++ (m.txNext.filter fun x => x.kind == .launch).flatMap fun x => (x.users.filter (·.sta == n)).flatMap (·.frames)
  let s1 := withRm r (fun m => { m with
    launchQ := m.launchQ.filter (!mine ·), launchHeld := m.launchHeld && !(m.launchQ.head?.any mine), lateQ := m.lateQ.filter (!mine ·)
    txNext := m.txNext.filter fun x => !(x.kind == .launch && x.users.any (·.sta == n)) }) s
  let s2 := out.foldl (fun t f => frameDone f .aborted [] (macCount r 24 1 t)) s1
  (List.range 8).foldl (fun t i =>
    (tidQueue (8 * n + i) t).foldl (fun u f => dropMsdu r n i .aborted f (macCount r 24 1 u)) (setTidQueue (8 * n + i) [] t)) s2

/-- Nanoseconds of the uplink's TSF at which the window of the beacon expected ends: T + G + BCN_WAIT (R181). -/
def upWindowEnd (u : Uplink) (t : Nat) (s : State) : Nat :=
  let g := match kget s.mac.sta u.sta with | some x => guardNs x (vget s.mac.bss u.bss).drift s | none => 8000000
  1000 * t + g + u.bcnWait * 1000000

/-- UPL_BEACON_WINDOW_END: the window of the expected beacon passed without one, which is a miss; BCN_LOSS_COUNT in a row lose the link. A
beacon received has moved what is expected on (R181, R182). -/
def uplWindowEnd (r : Nat) (s : State) : State :=
  match (vget s.mac.radio r).uplink with
  | none => s
  | some u =>
    match u.expect with
    | none => s
    | some t =>
      if u.lost || tsfNs u.bss s < upWindowEnd u t s then s
      else
        let v : Uplink := { u with misses := u.misses + 1, expect := some (t + u.interval * 1024) }
        let w := macCount r 22 1 (withRm r (fun m => { m with uplink := some v }) s)
        if v.misses < u.lossCount then w
        else
          let x := leaveFurrows u.sta 0xFF 3 (dropUplink r u.sta (withRm r (fun m => { m with uplink := some { v with lost := true } }) w))
          -- The station's placements go with the link (R283, R284).
          raise .beaconLost r (pad 6 u.bssid ++ [byte u.lossCount]) (unplaceSta u.sta (macCount r 23 1 x))

def execUplBeaconWindowEnd (r : Radio) (s : State) : Host.Outcome State Fault Refusal := whenLive s (uplWindowEnd (rnum r))

end Sys2Proof.Machine
end

