-- ==== Sys2Proof/Machine/Precoder.lean ====
section
/-!
DEFINITION. Precoders and single-user steering (spec/10_beamforming.md R239, R240, R253, R255 to R259), in exact arithmetic.
-/
namespace Sys2Proof.Machine
open Sys2Proof

/-! What a record says of its channel. -/

/-- The tone group of a record that holds a tone. -/
def toneGroup (c : Csi) (tone : Nat) : Nat := min (tone / max 1 c.ng) (c.tones - 1)

/-- A record on a tone: streams in columns; in rows its chains, or the sounding dimensions of an explicit record. -/
def csiMat (c : Csi) (tone : Nat) : CxMat :=
  matOf c.rows c.rank fun i j => cxOf (coefAt c.coef ((toneGroup c tone * c.rows + i) * c.rank + j))

/-- The chains of a bit set, in index order. -/
def chainList (m : Nat) : List Nat := (List.range 16).filter (bit m)

/-- A chain's correction on a tone (R247). -/
def corrAt (b : RadioBf) (k tone : Nat) : Cx := ((kget b.corr k).getD []).getD (tone / 4) (1, 0)

/-- C H on the active chains: a chain with no row in the record reads 0 (log 92). -/
def corrected (r : Nat) (c : Csi) (tone : Nat) (s : State) : CxMat :=
  let act := chainList (chainMask r s)
  let h := csiMat c tone
  matOf act.length c.rank fun i j =>
    let k := act.getD i 0
    if bit c.chains k then cxMul (corrAt (vget s.bf.radio r) k tone) (matAt h ((chainList c.chains).idxOf k) j) else (0, 0)

/-- The SNR of a record's stream as a power ratio. -/
def snrPow (c : Csi) (j : Nat) : Rat := Config.dbRatio (c.snrs.getD j c.snr)

/-- The channel rows of a record, one per stream: (C H)^T over the active chains, or for an explicit record each column of the feedback's V
conjugated and weighted by the root of its SNR, over the sounding dimensions (R255; DEDUCED, log 92). -/
def streamRows (r : Nat) (c : Csi) (tone : Nat) (s : State) : CxMat :=
  if c.kind = 0 then
    let v := csiMat c tone
    matOf c.rank c.rows fun j i => cxScale (ratRoot (snrPow c j)) (cxConj (matAt v i j))
  else matTrans (corrected r c tone s)

/-- The power of a row. -/
def rowPower (l : List Cx) : Rat := ratSum (l.map cxNorm)

/-- The noise variance a record reports: the mean over its streams of the row's power over the stream's SNR (DEDUCED, log 92). -/
def reportNoise (r : Nat) (c : Csi) (tone : Nat) (s : State) : Rat :=
  let h := streamRows r c tone s
  ratMean ((List.range c.rank).map fun j => rowPower (h.getD j []) / snrPow c j)

/-- Q_S for `n` active chains: each dimension on one chain up to 8, else the first 8 columns of the DFT matrix over the root of n (R239). -/
def spreading (n : Nat) : CxMat :=
  if n ≤ 8 then matDiag n fun _ => 1
  else matOf n 8 fun i j => cxScale (Config.rsqrt n) (Config.rootOfUnity n (i * j % n))

/-! The precoder of a tone (R255, R256). -/

/-- A chain's power limit after backoff and derating, its full power being 1 (R101, R103). -/
def chainLimit (c : Chain) : Rat := Config.dbRatio (-(2 * (c.backoff + totalDerate c) : Nat))

/-- The limits of the active chains. -/
def chainLimits (r : Nat) (s : State) : List Rat := (chainList (chainMask r s)).map fun k => chainLimit (vget (vget s.fe r).chains k)

/-- W = G* (G G* + alpha D)^-1, the columns of its first `k` rows, the members'. -/
def precode (g : CxMat) (k : Nat) (alpha : Rat) : CxMat :=
  let d := matDiag g.length fun i => if i < k then alpha else 0
  (matMul (matAdj g) (matInv (matAdd (matMul g (matAdj g)) d))).map (List.take k)

/-- Each column at equal power; then the matrix such that no chain exceeds its limit (R256 steps 1 and 2). -/
def levelled (limits : List Rat) (w : CxMat) : CxMat :=
  let rows := w.length
  let unit := matTrans ((matTrans w).map fun c => if rowPower c = 0 then c else c.map (cxScale (Config.rsqrt (rowPower c))))
  let room := (List.range rows).filterMap fun i =>
    let p := rowPower (unit.getD i [])
    if p = 0 then none else some (limits.getD i 0 / p)
  let k := match room with | [] => 0 | a :: l => ratRoot (l.foldl min a)
  matScale k unit

/-- Then 12-bit values under one scale. -/
def normalise (limits : List Rat) (w : CxMat) : Rat × List (Int × Int) :=
  let cols := matCols w
  let m := levelled limits w
  quantise ((List.range (w.length * cols)).map fun i => matAt m (i / cols) (i % cols))

/-- A member of an RU: its record and its streams. -/
structure MuUser where
  csi : Csi
  nss : Nat
  deriving DecidableEq, Repr, Inhabited

/-- alpha (R255): 0 with ZF, ALPHA_SCALE / 16 x K sigma^2 / P with RZF. -/
def alphaOf (r : Nat) (ms : List MuUser) (tone : Nat) (s : State) : Rat :=
  let b := vget s.bf.radio r
  if !b.rzf then 0
  else (b.alpha : Rat) / 16 * ((ms.map (·.nss)).sum : Rat) * ratMean (ms.map fun m => reportNoise r m.csi tone s) / ratSum (chainLimits r s)

/-- The null rows of a client: the strongest left singular directions of its overheard record (R259), corrected as H is. -/
def nullRowsOf (r : Nat) (n : Nat × Csi) (tone : Nat) (s : State) : CxMat := matTrans (Config.leftSingular (corrected r n.2 tone s) n.1)

/-- A member relies on explicit records: all of the precoder lies in the column space of Q_S (R240). -/
def inQs (ms : List MuUser) : Bool := ms.any fun m => m.csi.kind == 0

/-- A member's rows on a tone, in that space where `q`. -/
def memberRows (r : Nat) (q : Bool) (m : MuUser) (tone : Nat) (s : State) : CxMat :=
  let h := (streamRows r m.csi tone s).take m.nss
  if q && m.csi.kind != 0 then matMul h (spreading (liveChains r s)) else h

/-- The precoder of a group on a tone over the active chains, before R256. -/
def groupW (r : Nat) (ms : List MuUser) (nulls : List (Nat × Csi)) (tone : Nat) (s : State) : CxMat :=
  let q := spreading (liveChains r s)
  let fold (m : CxMat) : CxMat := if inQs ms then matMul m q else m
  let h := ms.flatMap fun m => memberRows r (inQs ms) m tone s
  let w := precode (h ++ nulls.flatMap fun n => fold (nullRowsOf r n tone s)) h.length (alphaOf r ms tone s)
  if inQs ms then matMul q w else w

/-- The precoder of a group on a tone. -/
def groupTone (r : Nat) (ms : List MuUser) (nulls : List (Nat × Csi)) (s : State) (tone : Nat) : Rat × List (Int × Int) :=
  normalise (chainLimits r s) (groupW r ms nulls tone s)

/-- Single-user steering on a tone (R258): the first right singular vectors of the channel, for explicit records the feedback's V. -/
def steerTone (r : Nat) (m : MuUser) (s : State) (tone : Nat) : Rat × List (Int × Int) :=
  let w := if m.csi.kind = 0 then matMul (spreading (liveChains r s)) ((csiMat m.csi tone).map (List.take m.nss))
    else Config.rightSingular (streamRows r m.csi tone s) m.nss
  normalise (chainLimits r s) w

/-! Groups (R254). -/

/-- Tones at which records are compared: one of each tone group of the first. -/
def commonTones (l : List MuUser) : List Nat := match l with | m :: _ => (List.range m.csi.tones).map (· * m.csi.ng) | [] => []

/-- A channel's strength: the sum of its streams' SNRs (R254 says only 'strongest'; DESIGN CHOICE, log 92). -/
def strengthOf (m : MuUser) : Rat := ratSum ((List.range m.nss).map (snrPow m.csi))

/-- The part of a station's rows that lies in the span of a group's, over the tones; 0 is orthogonal. -/
def overlapOf (r : Nat) (g : List MuUser) (m : MuUser) (s : State) : Rat :=
  let q := inQs (m :: g)
  ratMean ((commonTones [m]).map fun t =>
    let a := g.flatMap fun x => memberRows r q x t s
    let k := matInv (matMul a (matAdj a))
    let h := memberRows r q m t s
    let c := matMul h (matAdj a)
    let own := ratSum (h.map rowPower)
    ratSum ((List.range h.length).map fun i => (matAt (matMul (matMul c k) (matAdj c)) i i).1) / own)

/-- Post-precoding SINR of every stream of a group on a tone: its own gain over those of the other streams and its member's noise. -/
def streamSinrs (r : Nat) (ms : List MuUser) (tone : Nat) (s : State) : List Rat :=
  let q := inQs ms
  let w := levelled (chainLimits r s) (groupW r ms [] tone s)
  let h := ms.flatMap fun m => memberRows r q m tone s
  let g := matMul h (if q then matMul (matAdj (spreading (liveChains r s))) w else w)
  let noise := ms.flatMap fun m => List.replicate m.nss (reportNoise r m.csi tone s)
  (List.range h.length).map fun j =>
    let own := cxNorm (matAt g j j)
    own / (ratSum ((List.range h.length).map fun k => cxNorm (matAt g j k)) - own + noise.getD j 0)

/-- Post-precoding SINR of each member: the mean of its streams and tones (the mean is DESIGN CHOICE, log 92). -/
def memberSinrs (r : Nat) (ms : List MuUser) (s : State) : List Rat :=
  let all := (commonTones ms).map fun t => streamSinrs r ms t s
  (List.range ms.length).map fun i =>
    let first := ((ms.take i).map (·.nss)).sum
    ratMean (all.map fun l => ratMean ((l.drop first).take (ms.getD i default).nss))

/-! A furrow's precoders. -/

/-- Tones of an RU with its pilots, and of a whole HT or VHT channel (Table 5.3, IEEE 802.11). -/
def ruTones (bw size : Nat) : Nat :=
  if size = 255 then [56, 114, 242, 484].getD bw 484 else [26, 52, 106, 242, 484, 996, 1992, 3984].getD size 3984

/-- Tone groups of an RU (R257). -/
def toneGroups (bw size ng : Nat) : Nat := ceilDiv (ruTones bw size) ng

/-- The record a precoder is built from. -/
def useOf (n : Nat) (c : Csi) : CsiUse := { kind := c.kind, sta := n, addr := c.addr, cap := c.capS * 10 ^ 9 + c.capNs, cls := c.cls }

/-- A station's record for `nss` streams, valid `ahead` ns from now (R241, R253). -/
def recordFor (r n nss ahead : Nat) (s : State) : Option MuUser := ((csiForAt r n nss ahead s).filter fun c => nss ≤ c.rank).map fun c => { csi := c, nss := nss }

/-- What a precoder holds on each tone group of its RU. -/
def tonesOf (bw : Nat) (p : Precoder) (f : Nat → Rat × List (Int × Int)) : Precoder :=
  let first := if p.size = 255 then 0 else Config.ruFirstTone bw p.size p.index
  { p with tones := (List.range (toneGroups bw p.size p.ng)).map fun g => f (first + g * p.ng) }

/-- The precoder of an RU that a group shares (R255), or the steering of a single-user PPDU (R258); none is direct mapping. -/
def ruPrecoder (r bw ng ahead : Nat) (us : List FUser) (nulls : List (Nat × Csi)) (single : Bool) (s : State) : Option Precoder :=
  match us with
  | [] => none
  | u :: _ =>
    let ms := us.filterMap fun v => (recordFor r v.sta v.nss ahead s).map fun m => (v.sta, m)
    let base : Precoder := { elem := u.elem, size := u.ruSize, index := u.ruIndex, ng := ng, rows := liveChains r s, cols := (us.map (·.nss)).sum
                             uses := ms.map fun m => useOf m.1 m.2.csi, cal := (vget s.bf.radio r).endAt }
    if ms.length < us.length then none
    else if u.group.isSome then
      some (tonesOf bw { base with uses := base.uses ++ nulls.map fun n => useOf 0 n.2 } (groupTone r (ms.map (·.2)) nulls s))
    else if single then match ms with
      | [(_, m)] => some (tonesOf bw base (steerTone r m s))
      | _ => none
    else none

/-- The RUs of a furrow that are beamformed: those a group shares, and the PPDUs of single-user elements in a format that carries
steering. -/
def beamRus (f : Furrow) : List (Nat × Nat × Nat) :=
  ((f.users.filter fun u => u.group.isSome || (match f.elems[u.elem]? with | some e => e.code == 3 && 3 ≤ e.fmt | none => false)).map
    fun u => (u.elem, u.ruSize, u.ruIndex)).eraseDups

/-- The users of an RU. -/
def ruUsers (f : Furrow) (k : Nat × Nat × Nat) : List FUser := f.users.filter fun u => u.elem == k.1 && u.ruSize == k.2.1 && u.ruIndex == k.2.2

/-- A furrow's precoders at a tone grouping. -/
def precodersAt (r ng ahead : Nat) (f : Furrow) (nulls : List (Nat × Csi)) (s : State) : List Precoder :=
  (beamRus f).filterMap fun k =>
    let e := f.elems.getD k.1 {}
    ruPrecoder r e.bw ng ahead (ruUsers f k) nulls (e.code == 3) s

/-- The coefficients of precoders whose RUs lie in elements of a furrow (R257). -/
def coefCount (ng : Nat) (f : Furrow) (l : List Precoder) : Nat :=
  (l.map fun p => p.rows * p.cols * toneGroups (f.elems.getD p.elem {}).bw p.size ng).sum

/-- A furrow with its precoders: Ng 4 where they fit one bank of 65,536 coefficients, else Ng 16, counted (R257). -/
def withPrecoders (r ahead : Nat) (f : Furrow) (nulls : List (Nat × Csi)) (s : State) : Furrow × State :=
  let fine := precodersAt r 4 ahead f nulls s
  if coefCount 4 f fine > 65536 then ({ f with coarse := true, pre := precodersAt r 16 ahead f nulls s }, bfCount r 10 1 s)
  else ({ f with pre := fine }, s)

/-! Validity (R253, Table 10.4). -/

/-- A used record is within its age; its station is in use, or its client on the foreign list. -/
def useValid (r : Nat) (u : CsiUse) (s : State) : Bool :=
  u.cap ≤ tbTotal 2 s && tbTotal 2 s < u.cap + csiAge r { cls := u.cls } s &&
    (if u.kind = 2 then s.bf.foreign.any fun f => f.1 == u.addr else khas s.mac.sta u.sta)

/-- A precoder or steering matrix is valid. -/
def precoderValid (r : Nat) (p : Precoder) (s : State) : Bool :=
  let b := vget s.bf.radio r
  !p.struck && (!(p.uses.any fun u => u.kind != 0) || (!b.stale && p.cal == b.endAt)) && p.uses.all fun u => useValid r u s

/-- The precoders of a furrow are valid, and built for the present chains (R206). -/
def precodersValid (r : Nat) (f : Furrow) (s : State) : Bool := f.chains == chainMask r s && f.pre.all fun p => precoderValid r p s

/-- Steering of a PPDU outside furrows, if any. -/
def steerOnce (r bw size n nss fmt : Nat) (s : State) : List Precoder :=
  if fmt < 3 then [] else (ruPrecoder r bw 4 0 [{ sta := n, ruSize := size, nss := nss }] [] true s).toList

end Sys2Proof.Machine
end

