-- ==== Sys2Proof/Machine/SecBase.lean ====
section
/-!
DEFINITION. Packet numbers (R402), their exhaustion, and frames held for want of a transmit key (R403).
-/
namespace Sys2Proof.Machine
open Sys2Proof

def withSec (f : Sec → Sec) (s : State) : State := { s with sec := f s.sec }
def withSlot (k : Nat) (f : KeySlot → KeySlot) (s : State) : State := { s with sec := { s.sec with slots := kmod s.sec.slots k f } }

/-- Adds to a counter of Table 16.8. -/
def secCount (i k : Nat) (s : State) : State := withSec (fun x => { x with ctr := vadd x.ctr i k }) s

/-- PN width of a suite (Table 16.1), and PN_MAX (Table 16.5). -/
def pnWidth (suite : Nat) : Nat := if 1 ≤ suite ∧ suite ≤ 8 then 48 else if suite = 9 ∨ suite = 10 then 32 else 64
def pnMax (suite : Nat) : Nat := 2 ^ pnWidth suite - 1

/-- PNs a slot may still send. -/
def pnLeft (k : Nat) (s : State) : Nat :=
  match kget s.sec.slots k with
  | some x => if x.locked then 0 else pnMax x.suite - x.txPn
  | none => 0

/-- The active transmit association of a port, with its AN. -/
def activeSa (p : Nat) (s : State) : Option (Nat × MacsecSa) :=
  let x := vget s.sec.port p
  x.an.bind fun a => (kget x.tx a).map fun sa => (a, sa)

/-- Ports that send under a slot have no key from now on. -/
def holdPorts (k : Nat) (s : State) : State :=
  withSec (fun x => { x with port := x.port.map fun p =>
    if (p.an.bind fun a => (kget p.tx a).map (·.slot)) = some k then { p with noKeyAt := s.now } else p }) s

/-- Stations, BSSs and ports whose transmit key is a slot hold their new frames (R403). -/
def holdTargets (k : Nat) (s : State) : State :=
  withMac (fun m => { m with
    sta := m.sta.map fun p => if p.2.txKey.map (·.2) = some k then (p.1, { p.2 with held := true }) else p
    bss := m.bss.map fun b => if b.txKey.map (·.2) = some k then { b with held := true } else b }) (holdPorts k s)

/-- TX_PN of a slot has risen to a threshold (Table 16.5): PN_LOW once, or the lock and KEY_EXHAUSTED once. -/
def pnCheck (k : Nat) (s : State) : State :=
  match kget s.sec.slots k with
  | none => s
  | some x =>
    let s1 := if x.txPn + 2 ^ 20 ≥ pnMax x.suite && !x.lowTold then
        raise .pnLow k (le 8 x.txPn) (secCount 10 1 (withSlot k (fun y => { y with lowTold := true }) s))
      else s
    if x.txPn ≥ pnMax x.suite && !x.locked then
      holdTargets k (raise .keyExhausted k [] (secCount 11 1 (withSlot k (fun y => { y with locked := true }) s1)))
    else s1

/-- The next PN of a slot (R402); none from a locked or empty one. -/
def takePn (k : Nat) (s : State) : Option Nat × State :=
  match kget s.sec.slots k with
  | none => (none, s)
  | some x =>
    if x.locked || x.txPn ≥ pnMax x.suite then (none, s)
    else (some x.txPn, pnCheck k (withSlot k (fun y => { y with txPn := y.txPn + 1 }) s))

/-- A core encrypts a frame for the air (ENC_FRAMES). -/
def sealAir (f : Frame) (s : State) : State := if f.slot.isSome then secCount 0 1 s else s

/-- The frames a fallback claims are encrypted as it is built (R207): their jobs are the last ones. -/
def sealNewest (n : Nat) (s : State) : State :=
  (s.sec.jobs.drop n).foldl (fun t j => sealAir j.frame t) (withSec (fun x => { x with jobs := x.jobs.take n }) s)

end Sys2Proof.Machine
end

