-- ==== Sys2Proof/Machine/Planner.lean ====
section
/-!
DEFINITION. The furrow planner's build (R187 to R202, R204, R240, R241, R243, R257, R259): candidates, the BSS, the ranking, rates,
elements, and the MSDUs claimed.
-/
namespace Sys2Proof.Machine
open Sys2Proof

/-! Candidates (R187). -/

/-- What a station offers the radio. -/
structure Offer where
  sta : Nat
  ctx : Sta
  tids : List Nat
  ul : List Nat
  deriving DecidableEq, Repr, Inhabited

/-- Stations with eligible traffic, downlink or uplink. -/
def offers (r : Nat) (s : State) : List Offer :=
  s.mac.sta.filterMap fun p =>
    let o : Offer := { sta := p.1, ctx := p.2, tids := dlTids r p.1 p.2 s, ul := (List.range 4).map (ulDemand r p.1 p.2 s) }
    if o.tids.isEmpty && o.ul.all (· == 0) then none else some o

/-- The offer has traffic of an AC. -/
def offerAc (o : Offer) (a : Nat) : Bool := o.tids.any (fun t => acOfTid t == a) || o.ul.getD a 0 > 0

/-- Group queues that may compete (R196): after a DTIM beacon while a station dozes, always otherwise. -/
def groupOffers (r : Nat) (s : State) : List Nat :=
  ((List.range 64).map fun i => 64 * r + i).filter fun q =>
    let b := q / 4
    khas s.sched.gq q && (vget s.mac.bss b).en && !(vget s.mac.bss b).held &&
      ((vget s.mac.bss b).dtimOpen || !((staOfBss b s).any fun p => p.2.doze))

/-- The highest AC with an eligible queue or uplink demand (R190). -/
def planAc (os : List Offer) (gs : List Nat) : Option Nat :=
  [3, 2, 1, 0].find? fun a => os.any (fun o => offerAc o a) || gs.any fun q => q % 4 == a

/-- Urgent TIDs of an offer, with their deadlines in ns of TB2 (R192). -/
def urgentTids (o : Offer) (s : State) : List (Nat × Nat) :=
  o.tids.filterMap fun t =>
    match kget s.sched.urgent (8 * o.sta + t), tidQueue (8 * o.sta + t) s with
    | some at_, f :: _ => if f.enq ≤ at_ ∧ vget o.ctx.tll t > 0 then some (t, f.enq + vget o.ctx.tll t * 100000) else none
    | _, _ => none

/-- The offer's urgent uplink deadlines. -/
def urgentUls (o : Offer) : List Nat :=
  (List.range 8).filterMap fun t =>
    if bit o.ctx.ulUrgent t && o.ul.getD (acOfTid t) 0 > 0 then some (vget o.ctx.lastUlRu t + vget o.ctx.tll t * 100000) else none

/-- The earliest urgent deadline of an offer. -/
def earliest (o : Offer) (s : State) : Option Nat := minOf ((urgentTids o s).map (·.2) ++ urgentUls o)

/-- The deadline an offer is ranked by: none where urgent rank is lost (R193). -/
def deadline (r : Nat) (o : Offer) (s : State) : Option Nat := if (vget s.sched.radio r).overcap then none else earliest o s

/-- The BSS an airtime account stands for: the transmitting BSS of a set. -/
def acctBss (b : Nat) (s : State) : Nat := ((vget s.mac.bss b).setTx).getD b

/-- Virtual time a BSS competes with: the lowest among the members of its set. -/
def bssV (b : Nat) (s : State) : Nat :=
  (minOf (((List.range 48).filter fun i => acctBss i s == b).map fun i => (vget s.mac.bss i).shareV)).getD (vget s.mac.bss b).shareV

/-- The list element with the least key, the first of equals. -/
def leastBy (l : List Nat) (key : Nat → Nat) : Option Nat :=
  l.foldl (fun m x => match m with | none => some x | some y => if key x < key y then some x else some y) none

/-- The BSS of the next furrow (R190). -/
def chooseBss (r pa : Nat) (os : List Offer) (gs : List Nat) (s : State) : Option Nat :=
  let all := (List.range 16).map (16 * r + ·)
  let has (p : Offer → Bool) (g : Nat → Bool) (b : Nat) : Bool :=
    os.any (fun o => acctBss (linkBss o.ctx r) s == b && p o) || gs.any fun q => acctBss (q / 4) s == b && g q
  let urgent := os.filterMap fun o => (deadline r o s).map fun d => (d, acctBss (linkBss o.ctx r) s)
  match urgent.foldl (fun m p => match m with | none => some p | some y => if p.1 < y.1 then some p else some y) none with
  | some p => some p.2
  | none =>
    let shared := all.filter fun b => (vget s.mac.bss b).share > 0
    match leastBy (shared.filter (has (fun o => offerAc o pa) (fun q => q % 4 == pa))) (bssV · s) with
    | some b => some b
    | none =>
      match leastBy (shared.filter (has (fun _ => true) (fun _ => true))) (bssV · s) with
      | some b => some b
      | none =>
        let z := (all.filter fun b => (vget s.mac.bss b).share == 0).filter (has (fun _ => true) (fun _ => true))
        match z.find? fun b => b ≥ 16 * r + (vget s.sched.radio r).zeroNext with
        | some b => some b
        | none => z.head?

/-- Rank of an offer: class and key (R191). -/
def rankOf (r pa : Nat) (o : Offer) (s : State) : Nat × Nat :=
  match deadline r o s with
  | some d => (1, d)
  | none =>
    if offerAc o pa then (2, vget o.ctx.v pa)
    else (3, (minOf (((List.range 4).filter (offerAc o)).map (vget o.ctx.v ·))).getD 0)

/-- Order of ranks: class, key, station index. -/
def rankLe (a b : (Nat × Nat) × Offer) : Bool :=
  a.1.1 < b.1.1 || (a.1.1 == b.1.1 && (a.1.2 < b.1.2 || (a.1.2 == b.1.2 && a.2.sta ≤ b.2.sta)))

def insertRank (a : (Nat × Nat) × Offer) : List ((Nat × Nat) × Offer) → List ((Nat × Nat) × Offer)
  | [] => [a]
  | b :: r => if rankLe a b then a :: b :: r else b :: insertRank a r

/-- The offers of a BSS or set in rank order. -/
def ranked (r pa b : Nat) (os : List Offer) (s : State) : List ((Nat × Nat) × Offer) :=
  ((os.filter fun o => acctBss (linkBss o.ctx r) s == b).map fun o => (rankOf r pa o s, o)).foldr insertRank []

/-! Rates (R200, R202). -/

/-- The highest MCS up to a cap that a test allows, else 0. -/
def topMcs (cap : Nat) (ok : Nat → Bool) : Nat := ((List.range (cap + 1)).reverse.find? ok).getD 0

/-- Downlink MCS and NSS of a station on a link in a format (R200). -/
def rateIn (r n fmt : Nat) (x : Sta) (s : State) : Nat × Nat :=
  let blk := vget x.block r
  let cap := mcsTop fmt blk
  let la : Int := (vget s.sched.radio r).laMargin
  let rt := vget x.rate r
  let want := nssTop r fmt blk s
  match csiFor r n want s with
  | some c =>
    let base := topMcs cap fun m => c.snr ≥ -4 * evmReq fmt m + 2 * la
    (min cap (Int.toNat (base + rt.offset)), max 1 (min want c.rank))
  | none =>
    let base := match rt.evm with
      | some e => topMcs cap fun m => e ≤ 32 * evmReq fmt m - 16 * la
      | none => 0
    (min cap (Int.toNat (base + rt.offset)), want)

/-- In the best format of its link. -/
def dlRate (r n : Nat) (x : Sta) (s : State) : Nat × Nat := rateIn r n (linkForm r (vget s.fe r).bw (vget x.block r) s).1 x s

/-- Uplink MCS and streams in a TB format (R202, R117). -/
def ulRate (r fmt : Nat) (x : Sta) (s : State) : Nat × Nat :=
  let blk := vget x.block r
  let la : Int := (vget s.sched.radio r).laMargin
  (match (vget x.rate r).evm with
   | some e => topMcs (mcsTop fmt blk) fun m => e ≤ 32 * evmReq fmt m - 16 * la
   | none => 0, nssTop r fmt blk s)

/-! Claims (R204, R402). -/

/-- Bytes of an MSDU as an MPDU with delimiter and padding: QoS header and FCS 30, cipher header and tag 24, delimiter 4, to a
multiple of 4 (IEEE 802.11). -/
def mpduBytes (f : Frame) : Nat := 4 * ceilDiv (f.bytes.length + 30 + 24 + 4) 4

/-- Numbers an MSDU that is claimed: its sequence number, and under the station's transmit key its PN; none where the key is
locked, and the frame stays. -/
def numberFrame (r n tid : Nat) (f : Frame) (s : State) : Option (Frame × State) :=
  let q := 8 * n + tid
  let sn := (kget s.mac.txSn q).getD 0
  let p := match f.sn with
    | some _ => (f, s)
    | none => ({ f with sn := some sn }, withMac (fun m => { m with txSn := kset m.txSn q ((sn + 1) % 4096) }) s)
  match f.slot, (kget s.mac.sta n).bind (·.txKey) with
  | none, some (kid, k) =>
    match takePn k p.2 with
    | (none, _) => none
    | (some pn, t) =>
      let g := { p.1 with keyId := some kid, slot := some k, pn := pn }
      some (g, withSec (fun x => { x with jobs := x.jobs ++ [{ kind := .txAir, unit := r, slot := some k, frame := g }] }) t)
  | _, _ => some p

/-- An MPDU may join those of its TID that the PPDU carries: the first one always, further ones within the window of a transmit session that the
peer has granted (R161; that there is no A-MPDU of a TID without one is IEEE 802.11's, PRESUMED, log 91). -/
def mayJoin (q : Nat) (mine : List Frame) (f : Frame) (s : State) : Bool :=
  match mine.head?, kget s.mac.txBa q with
  | none, _ => true
  | some g, some b => b.agreed && ((f.sn.getD ((kget s.mac.txSn q).getD 0)) + 4096 - g.sn.getD 0) % 4096 < b.win
  | some _, none => false

/-- Claims MSDUs from the head of one queue while they fit the bytes left and the count left. -/
def claimQueue (r n tid : Nat) : (fuel : Nat) → (room left : Nat) → List (Nat × Frame) → State → List (Nat × Frame) × Nat × Nat × State
  | 0, room, left, acc, s => (acc, room, left, s)
  | k + 1, room, left, acc, s =>
    if left = 0 ∨ khas s.mac.bar (8 * n + tid) = true then (acc, room, left, s)
    else
      match tidQueue (8 * n + tid) s with
      | [] => (acc, room, left, s)
      | f :: rest =>
        let fits := match kget s.mac.sta n with | some x => frameServes tid x r f | none => true
        if mpduBytes f > room || !fits || !mayJoin (8 * n + tid) ((acc.filter (·.1 == tid)).map (·.2)) f s then (acc, room, left, s)
        else
          match numberFrame r n tid f s with
          | none => (acc, room, left, s)
          | some (g, t) => claimQueue r n tid k (room - mpduBytes f) (left - 1) (acc ++ [(tid, g)]) (setTidQueue (8 * n + tid) rest t)

/-- The order in which a station's TIDs fill its RU (R191): urgent ones, the plan AC, then the other ACs, highest first. -/
def tidOrder (pa : Nat) (urgent tids : List Nat) : List Nat :=
  (urgent ++ (tidsOfAc pa).filter tids.contains ++ ([3, 2, 1, 0].flatMap tidsOfAc).filter tids.contains).eraseDups

/-- MPDUs a PPDU may carry for a station: one for a PS-Poll (R176). -/
def mpduCap (n : Nat) (s : State) : Nat :=
  match kget s.mac.sta n, kget s.mac.psReq n with
  | some x, some (_, true) => if x.doze && !inDelivery x 0 s then 1 else 1024
  | _, _ => 1024

/-- A dozing station is served in its service period, not at its request. -/
def servedInSp (n : Nat) (x : Sta) (s : State) : Bool := x.doze && !khas s.mac.psReq n && inDelivery x 0 s

/-- Bytes of the BlockAckReqs that come before the data of some TIDs. -/
def barBytes (n : Nat) (tids : List Nat) (s : State) : Nat := 28 * (tids.filter fun t => khas s.mac.bar (8 * n + t)).length

/-- Claims a station's MSDUs for `room` bytes and `left` MPDUs. -/
def claimSta (r n : Nat) (tids : List Nat) (room left : Nat) (s : State) : List (Nat × Frame) × State :=
  let p := tids.foldl (fun p t => claimQueue r n t (p.2.2.1 + 1) p.2.1 p.2.2.1 p.1 p.2.2.2) (([] : List (Nat × Frame)), room, left, s)
  (p.1, p.2.2.2)

/-- The AC whose data form the larger part of an RU (R188). -/
def mainAc (pa : Nat) (l : List (Nat × Frame)) : Nat :=
  let w (a : Nat) : Nat := ((l.filter fun p => acOfTid p.1 == a).map fun p => mpduBytes p.2).sum
  [3, 2, 1, 0].foldl (fun m a => if w a > w m then a else m) pa

/-- Bytes a station has eligible (its demand, R197). -/
def dlNeed (o : Offer) (s : State) : Nat := (o.tids.map fun t => ((tidQueue (8 * o.sta + t) s).map mpduBytes).sum).sum

/-! Elements. -/

/-- The user limit of a radio (R198). -/
def userLimit (r : Nat) (s : State) : Nat := min (vget s.sched.radio r).userLimit (vget s.hl r).userLimit

/-- Subchannels treated as punctured: the static puncturing of the BSSs, and those the slot reserves (R115, Table 8.6). -/
def punctured (r : Nat) (s : State) : Nat :=
  Nat.lor (staticPunct r s) (match pitchNow r s with | some p => p.reserve % 2 ^ (2 ^ (vget s.fe r).bw) | none => 0)

/-- The modulation of users placed in RUs. -/
def placedMods (r fmt : Nat) (l : List PlacedUser) (s : State) : List ModUser :=
  l.map fun p =>
    let blk := match kget s.mac.sta p.user.sta with | some x => vget x.block r | none => []
    linkMod r fmt p.place.code p.place.index p.user.mcs p.user.nss p.user.need blk s

/-- An OFDMA element under plan: its users, symbols and its PPDU's duration. -/
structure RuPlan where
  users : List PlacedUser
  nSym : Nat
  ns : Nat
  deriving DecidableEq, Repr, Inhabited

/-- The plan of an OFDMA element for users in rank order in `td` ns (R197). -/
def planRus (r fmt gi bw td pe : Nat) (join : Joiner) (us : List RuUser) (s : State) : RuPlan :=
  let punc := inBlock r bw (punctured r s) s
  let first := placedMods r fmt (us.map fun u => { user := u, place := { code := 0, index := 0, slots := 0 }, shared := false, group := none }) s
  let nsym := symbolsIn r fmt bw gi td pe first
  let start := upgradeShares bw punc nsym (us.map fun u => { user := u, size := 0, group := none, more := [], tried := false })
  let users := placedUsers bw punc (sharePasses join bw punc nsym (2 * us.length) start)
  let mods := placedMods r fmt users s
  let n := min (trimSymbols nsym users) (symbolsIn r fmt bw gi td pe mods)
  { users := users, nSym := n, ns := ppduNs r fmt bw gi n pe mods }

/-- Groups of a BSS that contain a station and are valid `ahead` ns from now, the planned start (R199, R253). -/
def groupsWith (r b n ahead : Nat) (s : State) : List (Nat × Group) :=
  if (vget s.sched.radio r).muMimo then
    (vget s.bf.radio r).groups.filter fun p => p.2.bss == b && !p.2.struck && p.2.members.any (fun m => m.1 == n) &&
      (!p.2.recip || !(vget s.bf.radio r).stale) &&
      p.2.members.all fun m => (csiForAt r m.1 m.2.2 ahead s).isSome
  else []

/-- Downlink streams an element may carry (R104). -/
def streamLimit (r : Nat) (s : State) : Nat := min (if r = 0 then 8 else 16) (liveChains r s)

/-- Null rows a coordinated furrow adds: clients of the slot's NULL_SET with a valid overheard record of sufficient rank (R259). -/
def nullRows (r ahead : Nat) (p : Pitch) (s : State) : List (Nat × Csi) :=
  p.nulls.filterMap fun c =>
    ((vget s.bf.overheard r).find? fun k => k.addr == c.1 && csiValidAt r k (tbTotal 2 s + ahead) s && k.rank ≥ c.2).map fun k => (c.2, k)

/-- Bits per symbol and tone of users at their MCS and NSS. -/
def sumRate (l : List (Nat × Nat)) : Nat := (l.map fun m => mcsBits m.1 * m.2).sum

/-- Users of the RUs under plan, and the streams of those that are shared. -/
def shareCount (l : List RuShare) : Nat := (l.map fun y => 1 + y.more.length).sum
def shareStreams (l : List RuShare) : Nat := (l.map fun y => if y.more.isEmpty then 0 else y.user.nss + (y.more.map (·.nss)).sum).sum

/-- The group with the highest predicted sum rate that may share an RU, if that is at least MU_GAIN_MIN times its user's alone (R199).
`rate` gives a member's MCS and NSS, `ok` what else the group must meet. -/
def bestGroup (r b ahead : Nat) (rate : Nat × Nat × Nat → Nat × Nat) (ok : List (Nat × Nat × Nat) → Bool) (s : State) (l : List RuShare) (x : RuShare) :
    Option (Nat × List (Nat × Nat × Nat)) :=
  let sum (g : Group) : Nat := sumRate (g.members.map rate)
  let may (g : Group) : Bool :=
    g.members.length ≤ 8 && shareStreams l + (g.members.map fun m => (rate m).2).sum ≤ streamLimit r s && ok g.members &&
      (g.members.all fun m => !(l.any fun y => !y.more.isEmpty && (y.user :: y.more).any (·.sta == m.1))) &&
      shareCount l + (g.members.filter fun m => !(l.any fun y => y.user.sta == m.1)).length ≤ userLimit r s
  match ((groupsWith r b x.user.sta ahead s).filter fun p => may p.2).foldl (fun m p => match m with
      | none => some p
      | some y => if sum p.2 > sum y.2 then some p else some y) none with
  | some (k, g) => if sum g * 10 < (vget s.sched.radio r).muGain * sumRate [(x.user.mcs, x.user.nss)] then none else some (k, g.members)
  | none => none

/-- Sharing a downlink RU (R199): every member has traffic for this element, and in a coordinated furrow there are chains for the nulled
clients' streams too; with a member on explicit records, sounding dimensions (R240). -/
def dlJoin (r b nulls ahead : Nat) (cand : List RuUser) (s : State) : Joiner := fun l x =>
  let ok (ms : List (Nat × Nat × Nat)) : Bool :=
    let dims := if ms.any (fun m => (csiForAt r m.1 m.2.2 ahead s).any (·.kind == 0)) then min 8 (liveChains r s) else liveChains r s
    ms.all (fun m => cand.any (·.sta == m.1)) && (ms.map (·.2.2)).sum + nulls ≤ dims
  let as (m : Nat × Nat × Nat) : Option RuUser := (cand.find? (·.sta == m.1)).map fun u => { u with mcs := m.2.1, nss := m.2.2 }
  match bestGroup r b ahead (·.2) ok s l x with
  | none => none
  | some (k, ms) => some (some k, ((ms.find? (·.1 == x.user.sta)).bind as).getD x.user, (ms.filter (·.1 != x.user.sta)).filterMap as)

/-- RSSIs in 0.5 dBm lie within 6 dB of one another. -/
def closeRssi (l : List (Option Int)) : Bool :=
  l.all fun a => l.all fun b => match a, b with | some v, some w => v ≤ w + 12 | _, _ => false

/-- Sharing an uplink RU (R202): a group's members at their uplink rates, whose RSSIs lie within 6 dB. -/
def ulJoin (r b ahead : Nat) (cand : List RuUser) (s : State) : Joiner := fun l x =>
  let of (n : Nat) : Option RuUser := cand.find? (·.sta == n)
  let rate (m : Nat × Nat × Nat) : Nat × Nat := match of m.1 with | some u => (u.mcs, u.nss) | none => (0, 0)
  let rssi (n : Nat) : Option Int := (kget s.mac.sta n).bind fun y => (vget y.rate r).rssi
  let ok (ms : List (Nat × Nat × Nat)) : Bool := ms.all (fun m => (of m.1).isSome) && closeRssi (ms.map fun m => rssi m.1)
  (bestGroup r b ahead rate ok s l x).map fun p => (none, x.user, (p.2.filter (·.1 != x.user.sta)).filterMap fun m => of m.1)

/-- The downlink users of an element, without their MSDUs. -/
def dlUsers (pa el : Nat) (os : List Offer) (l : List PlacedUser) (s : State) : List FUser :=
  l.map fun p =>
    let urgent := match os.find? (·.sta == p.user.sta) with | some o => (earliest o s).isSome | none => false
    { sta := p.user.sta, elem := el, ruSize := p.place.code, ruIndex := p.place.index, mcs := p.user.mcs, nss := p.user.nss, urgent := urgent, ac := pa
      mu := p.shared, group := p.group }

/-- Each downlink user claims what its RU carries. -/
def claimUsers (r pa nsym : Nat) (us : List FUser) (s : State) : List FUser × State :=
  us.foldl (fun acc u =>
    match kget acc.2.mac.sta u.sta with
    | none => acc
    | some x =>
      let o : Offer := { sta := u.sta, ctx := x, tids := dlTids r u.sta x acc.2, ul := [] }
      let urg := (urgentTids o acc.2).map (·.1)
      let bars := barBytes u.sta o.tids acc.2
      let p := claimSta r u.sta (tidOrder pa urg o.tids) (ruBytes u.ruSize u.mcs u.nss nsym - bars) (mpduCap u.sta acc.2) acc.2
      (acc.1 ++ [{ u with frames := p.1, bytes := (p.1.map fun q => mpduBytes q.2).sum + bars, ac := mainAc pa p.1 }], p.2)) ([], s)

/-- The stations of a multi-user element and its format: EHT where every link has it, else HE among the links that have either, of what
the radio may send (R113, R115). `he` and `eht` are the formats' codes. -/
def muSet (r he eht bw : Nat) (os : List Offer) (s : State) : List Offer × Nat :=
  let best (o : Offer) : Nat := Config.linkFmt (vget o.ctx.block r)
  let all := os.filter fun o => best o ≥ 5
  let ehts := all.filter fun o => best o ≥ 9
  if maySend r eht bw s && ehts.length == all.length then (all, eht)
  else if maySend r he (min bw 3) s then (all, he)
  else if maySend r eht bw s then (ehts, eht)
  else ([], he)

/-- The size code of a whole HE or EHT PPDU; 255 for the other formats (Table 5.3). -/
def wholeRu (fmt bw : Nat) : Nat := if fmt = 5 ∨ fmt = 9 then 3 + min bw 4 else 255

/-- A single-user PPDU to a station's link at most `bw` wide: format, width, size code, GI_LTF, packet extension, MCS and NSS. -/
structure SuForm where
  fmt : Nat
  bw : Nat
  size : Nat
  gi : Nat
  pe : Nat
  mcs : Nat
  nss : Nat
  deriving DecidableEq, Repr, Inhabited

def suForm (r n bw : Nat) (x : Sta) (s : State) : SuForm :=
  let blk := vget x.block r
  let f := linkForm r bw blk s
  let w := suShape r f.1 f.2 (punctured r s) s
  let rt := rateIn r n f.1 x s
  { fmt := f.1, bw := w.1, size := w.2, gi := linkGiOf f.1 blk, pe := if f.1 ≥ 5 then Config.linkPe blk else 0, mcs := rt.1, nss := rt.2 }

/-- The modulation of its one user. -/
def suMod (r : Nat) (f : SuForm) (blk : List Byte) (bytes : Nat) (s : State) : ModUser := linkMod r f.fmt f.size 0 f.mcs f.nss bytes blk s

/-- Its symbols and duration with `bytes` bytes. -/
def suTime (r : Nat) (f : SuForm) (u : ModUser) : Nat × Nat :=
  let n := symbolsOf f.fmt f.bw u
  (n, ppduNs r f.fmt f.bw f.gi n f.pe [u])

/-- A PSDU of a BSS is long enough for an RTS (R155). -/
def wantsRts (bss bytes : Nat) (s : State) : Bool := (vget s.mac.bss bss).rts != 65535 && bytes > (vget s.mac.bss bss).rts

/-- A single-user element for one station at a bandwidth, at most `td` ns (DL_SU, R207), after an RTS and its CTS where its PSDU asks for
them. -/
def buildSu (r pa el td bw : Nat) (o : Offer) (tids : List Nat) (s : State) : FUser × Elem × State :=
  let blk := vget o.ctx.block r
  let f := suForm r o.sta bw o.ctx s
  let full := suMod r f blk 0 s
  let inTime (t : Nat) : Nat := bytesIn f.fmt f.bw (symbolsIn r f.fmt f.bw f.gi t f.pe [full]) full
  let bss := linkBss o.ctx r
  let bars := barBytes o.sta tids s
  let room := if wantsRts bss (inTime td) s then max (min (inTime td) (vget s.mac.bss bss).rts) (inTime (td - rtsHead r)) else inTime td
  let p := claimSta r o.sta tids (max room 2400 - bars) (mpduCap o.sta s) s
  let bytes := (p.1.map fun q => mpduBytes q.2).sum + bars
  let rts := wantsRts bss bytes s
  let u := suMod r f blk bytes s
  let t := suTime r f u
  ({ sta := o.sta, elem := el, ruSize := f.size, ruIndex := 0, mcs := f.mcs, nss := f.nss, urgent := (earliest o s).isSome, bytes := bytes,
     ac := mainAc pa p.1, frames := p.1, ldpc := u.ldpc, dcm := u.dcm, stbc := u.stbc },
   { code := 3, durNs := (if rts then rtsHead r else 0) + t.2 + sifsNs r + respNs r 3 1, rts := rts, ppduNs := t.2, fmt := f.fmt, bw := f.bw, gi := f.gi, nSym := t.1
     pe := f.pe, punct := Nat.land (punctured r s) (primaryBlock r f.bw s) }, p.2)

/-- An element whose own PPDU is a control frame: non-HT, duplicated across the channel where that is wider than 20 MHz and the format is
enabled. -/
def ctrlElem (r code bw len durNs : Nat) (s : State) : Elem :=
  let dup := maySend r 2 bw s
  { code := code, durNs := durNs, ppduNs := basicNs r 0 len, fmt := if dup then 2 else 1, bw := if dup then bw else 0, len := len }

/-- Uplink users with demand, in rank order. -/
def ulOffers (os : List Offer) : List Offer := os.filter fun o => o.ul.any (· > 0)

/-- The target receive power of a planned MCS in dBm (R202): 3 dB above what the MCS needs over the noise floor of the last report, within what
a trigger can carry, -110 to -20 dBm (IEEE 802.11ax; PRESUMED, log 91). -/
def ulTarget (r fmt mcs : Nat) (x : Sta) : Int :=
  match (vget x.rate r).noise with
  | some n => clampI (-110) (-20) (-((-(n + 12 - 4 * evmReq fmt mcs)) / 4))
  | none => -20

/-- First spatial streams of an RU's users, in their order. -/
def firstStream (us : List FUser) (i : Nat) : Nat :=
  match us[i]? with
  | some u => (((us.take i).filter fun v => v.ruSize == u.ruSize && v.ruIndex == u.ruIndex).map (·.nss)).sum
  | none => 0

/-- A BASIC_TRIGGER element for at most `td` ns (R202): trigger, TB PPDUs, and the multi-STA Block Ack. Its UL Length allows no more MPDUs than
Headland step 2's limit (R27). -/
def buildTrigger (r pa b el td cw ahead : Nat) (os : List Offer) (s : State) : List FUser × Elem :=
  let set := muSet r 8 10 cw (ulOffers os) s
  let bw := if set.2 = 8 then min cw 3 else cw
  let k := min set.1.length (min (userLimit r s) (bwSlots bw - 9 * popCount 16 (inBlock r bw (punctured r s) s)))
  let user (o : Offer) : RuUser :=
    let rt := ulRate r set.2 o.ctx s
    let need := match ulCap (vget s.hl r) with | some n => min o.ul.sum n | none => o.ul.sum
    { sta := o.sta, need := need, mcs := rt.1, nss := rt.2, cap := ruCap set.2 (vget o.ctx.block r) }
  let len := 28 + 8 * k
  let head := basicNs r 0 len + sifsNs r
  let tail := sifsNs r + respNs r 4 k
  let p := planRus r set.2 tbGi bw (min (td - head - tail) ((vget s.sched.radio r).ulMax * 1000)) 0
    (ulJoin r b ahead (set.1.map user) s) ((set.1.take k).map user) s
  let mk (q : PlacedUser) : FUser :=
    let o := set.1.find? (·.sta == q.user.sta)
    -- The AC of the larger demand takes the charge (R188).
    let ac := match o with
      | some o => [3, 2, 1, 0].foldl (fun m a => if o.ul.getD a 0 > o.ul.getD m 0 then a else m) pa
      | none => pa
    { sta := q.user.sta, elem := el, ruSize := q.place.code, ruIndex := q.place.index, mcs := q.user.mcs, nss := q.user.nss, uplink := true
      mu := q.shared, urgent := match o with | some o => (earliest o s).isSome | none => false
      bytes := min q.user.need (ruBytes q.place.code q.user.mcs q.user.nss p.nSym), ac := ac
      target := match o with | some o => ulTarget r set.2 q.user.mcs o.ctx | none => -20 }
  let us := p.users.map mk
  ((List.range us.length).zipWith (fun i u => { u with stream := firstStream us i }) us,
   { ctrlElem r 4 cw len (head + p.ns + tail) s with tbLen := spoofLength r set.2 p.ns })

/-- The lowest virtual time of a station. -/
def leastV (x : Sta) : Nat := (minOf x.v.toList).getD 0

def insertV (a : Nat × Sta) : List (Nat × Sta) → List (Nat × Sta)
  | [] => [a]
  | b :: l => if leastV a.2 ≤ leastV b.2 then a :: b :: l else b :: insertV a l

/-- Stations a BSRP polls, lowest V first (R201): unknown demand, data in the last 10 s, and those due a BSRP after a hold (R203). -/
def bsrpStas (r b : Nat) (s : State) : List (Nat × Sta) :=
  (((staOfBss b s).filter fun p => staCandidate r p.1 false p.2 s && !p.2.ulHold && (!p.2.doze || inDelivery p.2 0 s) &&
    (p.2.ulPoll || ((List.range 4).all (fun a => (vget p.2.demand a).isNone || !demandKnown r p.2 s a) &&
      (match p.2.lastData with | some t => decide (s.now < t + 5000000000) | none => false)))).foldr insertV []).take (userLimit r s)

/-- The format in which a station's link is sounded (Table 10.2): EHT, HE, or VHT on 5 GHz channels. -/
def soundFmt (r bw : Nat) (blk : List Byte) (s : State) : Option Nat :=
  let best := Config.linkFmt blk
  if best ≥ 9 ∧ maySend r 9 bw s = true then some 9
  else if best ≥ 5 ∧ maySend r 5 bw s = true then some 5
  else if best = 4 ∧ maySend r 4 bw s = true then some 4
  else none

/-- Stations of a BSS due for sounding (R243), in rank order. -/
def dueSounding (r : Nat) (os : List Offer) (s : State) : List Offer :=
  let b := vget s.bf.radio r
  if !b.explicit then []
  else
    (os.filter fun o =>
      let blk := vget o.ctx.block r
      let recipOk := match kget (vget s.bf.recip r) o.sta with
        | some c => csiValid r c s && !b.stale && c.rank ≥ min 8 (max 1 (Config.linkNss blk))
        | none => false
      let lead := b.soundLead * 10 ^ 6
      let expOk := match kget (vget s.bf.explicit r) o.sta with
        | some c => csiValidAt r c (tbTotal 2 s + lead) s && csiValid r c s
        | none => false
      !o.tids.isEmpty && Config.linkBfee blk && (soundFmt r (vget s.fe r).bw blk s).isSome && !recipOk && !expOk && decide ((vget o.ctx.rate r).sndHold ≤ s.now)).take b.soundMax

/-- The widest RU that each of `n` users may have in a bandwidth (R244 plans no RUs; DESIGN CHOICE, log 92). -/
def equalRu (bw n : Nat) : Nat := ((List.range 8).reverse.find? fun c => n * ruSlots c ≤ bwSlots bw).getD 0

/-- Ng and Nc of the feedback asked of a station among `n` (R242, R244): the first that its TB PPDU carries within UL_PPDU_MAX of Ng 4, Ng 16,
and Nc 1. -/
def feedbackAsk (r n fmt bw : Nat) (o : Offer) (s : State) : Option (Nat × Nat) :=
  let blk := vget o.ctx.block r
  let nc := min 8 (max 1 (Config.linkNss blk))
  let tb := if fmt = 9 then 10 else 8
  let rt := ulRate r tb o.ctx s
  let ru := equalRu bw n
  let u := linkMod r tb ru 0 rt.1 rt.2 0 blk s
  let room := bytesIn tb bw (symbolsIn r tb bw tbGi ((vget s.sched.radio r).ulMax * 1000) 0 [u]) u
  if fmt = 4 then some (4, nc)
  else ([((if (vget s.bf.radio r).ng16 then 16 else 4), nc), (16, nc), (16, 1)] : List (Nat × Nat)).find? fun q => decide (Config.feedbackBytes q.1 q.2 bw ≤ room)

/-- An NDP: one LTF for each sounding dimension, no data, and HE's packet extension of 4 us (IEEE 802.11). -/
def ndpNs (r fmt bw : Nat) (s : State) : Nat :=
  ppduNs r fmt bw 4 0 (if fmt = 4 then 0 else 4000) [{ ruSize := 255, ruIndex := 0, mcs := 0, nss := min 8 (liveChains r s), ldpc := false, dcm := false, stbc := false, bytes := 0 }]

/-- Bytes of an NDPA, a BFRP trigger and a Beamforming Report Poll (IEEE 802.11). -/
def ndpaBytes (fmt n : Nat) : Nat := if fmt = 4 then 21 + 2 * n else 21 + 4 * n
def bfrpBytes (n : Nat) : Nat := 28 + 6 * n
def brpBytes : Nat := 21

/-- The PPDUs of a sounding sequence (Table 10.2) for stations with the Ng and Nc asked of each. `one` is the time a feedback PPDU takes with the
SIFS before it, `fbNs` that of TB PPDUs. The NDP passes through Q_S (R239). -/
def soundParts (r fmt bw one fbNs : Nat) (us : List (Nat × Nat × Nat)) (s : State) : List TxCur :=
  let n := us.length
  let aid (n : Nat) : Nat := match kget s.mac.sta n with | some x => x.aid | none => 0
  let ask (l : List (Nat × Nat × Nat)) : List SoundUser := l.map fun u => { aid := aid u.1, ng := u.2.1, nc := u.2.2 }
  let dims := min 8 (liveChains r s)
  let base (step : Nat) (l : List (Nat × Nat × Nat)) : SoundPart :=
    { step := step, mu := fmt == 4 || n > 1, cqi := fmt != 4, users := ask l, dims := dims, spread := spreading (liveChains r s) }
  let who (l : List (Nat × Nat × Nat)) : List TxUser := l.map fun u => { sta := u.1 }
  let ctrl (step len rest : Nat) (expects : Bool) (l : List (Nat × Nat × Nat)) : TxCur :=
    let e := ctrlElem r 1 bw len 0 s
    { code := 1, users := who l, fmt := e.fmt, bw := e.bw, len := len, durNs := e.ppduNs, expects := expects, sound := some (base step l), rest := some rest }
  let bfrp := basicNs r 0 (bfrpBytes n)
  let brp := basicNs r 0 brpBytes
  let polls := n - 1
  let tail := if fmt = 4 then one + polls * (sifsNs r + brp + one) else if n ≤ 1 then one else sifsNs r + bfrp + one
  let ndp : TxCur :=
    { code := 1, users := who us, fmt := fmt, bw := bw, gi := 4, durNs := ndpNs r fmt bw s, pe := if fmt = 4 then 0 else 4000, expects := fmt == 4 || n ≤ 1
      sound := some (base 1 us), rest := some tail, punct := Nat.land (punctured r s) (primaryBlock r bw s) }
  let after : List TxCur :=
    if fmt = 4 then ((us.drop 1).zipIdx).map fun p => ctrl 3 brpBytes (one + (polls - 1 - p.2) * (sifsNs r + brp + one)) true [p.1]
    else if n ≤ 1 then []
    else
      let tb := if fmt = 9 then 10 else 8
      [{ ctrl 2 (bfrpBytes n) one true us with
         trig := some { basic := false, bw := bw, length := spoofLength r tb fbNs
                        users := us.zipIdx.map fun p => { aid := aid p.1.1, ruSize := equalRu bw n, ruIndex := p.2 } } }]
  ctrl 0 (ndpaBytes fmt n) (sifsNs r + ndp.durNs + tail) false us :: ndp :: after

/-- A SOUNDING element (R242 to R244): the due stations that the first one's format sounds, those whose feedback cannot fit left out. `durNs` ends
with the last feedback. -/
def buildSounding (r el bw : Nat) (os : List Offer) (s : State) : List FUser × Elem :=
  let fmtOf (o : Offer) : Nat := (soundFmt r bw (vget o.ctx.block r) s).getD 0
  let fmt := match os with | o :: _ => fmtOf o | [] => 5
  let set := os.filter fun o => if fmt = 9 then fmtOf o = 9 else fmt ≤ fmtOf o
  let sel := set.filterMap fun o => (feedbackAsk r set.length fmt bw o s).map fun q => (o, q)
  let n := sel.length
  let ru := equalRu bw n
  let wide := sel.foldl (fun m p => max m (Config.feedbackBytes p.2.1 p.2.2 bw)) 0
  let tb := if fmt = 9 then 10 else 8
  let rate (o : Offer) : Nat × Nat := ulRate r tb o.ctx s
  let mods := sel.map fun p => linkMod r tb ru 0 (rate p.1).1 (rate p.1).2 (Config.feedbackBytes p.2.1 p.2.2 bw) (vget p.1.ctx.block r) s
  let fbNs := min ((vget s.sched.radio r).ulMax * 1000) (ppduNs r tb bw tbGi (symbolsFor tb bw mods) 0 mods)
  let head := basicNs r 0 (ndpaBytes fmt n) + sifsNs r + ndpNs r fmt bw s
  -- A single user's feedback, and VHT's, comes in a PPDU of its own.
  let one := sifsNs r + (if wide = 0 then 0 else fbNs)
  let dur := if fmt = 4 then head + one + (n - 1) * (sifsNs r + basicNs r 0 brpBytes + one)
    else if n ≤ 1 then head + one
    else head + sifsNs r + basicNs r 0 (bfrpBytes n) + one
  ((List.range n).zipWith (fun i (p : Offer × Nat × Nat) => { sta := p.1.sta, elem := el, ruSize := ru, ruIndex := i, mcs := (rate p.1).1, nss := p.2.2, ng := p.2.1, ac := 1 }) sel,
   { ctrlElem r 1 bw (ndpaBytes fmt n) dur s with tbLen := spoofLength r tb fbNs, parts := soundParts r fmt bw one fbNs (sel.map fun p => (p.1.sta, p.2)) s })

/-- An element is added with its users. -/
def addElem (p : List FUser × Elem) (f : Furrow) : Furrow := { f with elems := f.elems ++ [p.2], users := f.users ++ p.1 }

/-- What a downlink OFDMA element takes after its PPDU: SIFS and the responses in TB PPDUs, then for users without TRS support a MU_BAR
element (Table 8.3). -/
def dlTail (r : Nat) (us : List Nat) (s : State) : List Nat × Nat × Nat :=
  let noTrs := us.filter fun n => match kget s.mac.sta n with | some x => !Config.linkTrs (vget x.block r) | none => false
  let resp := if noTrs.length < us.length then sifsNs r + respNs r 2 (us.length - noTrs.length) else 0
  let bar := if noTrs.isEmpty then 0 else basicNs r 0 (28 + 9 * noTrs.length) + sifsNs r + respNs r 6 noTrs.length
  (noTrs, resp, bar)

/-- The downlink element of ranked offers within `room` ns, none without a bound: DL_SU for one candidate, DL_MU with its MU_BAR otherwise. One
that does not fit is left out (R195). -/
def addDownlink (r pa b nulls ahead : Nat) (room : Option Nat) (os : List Offer) (f : Furrow) (s : State) : Furrow × State :=
  let dl := os.filter fun o => !o.tids.isEmpty
  let set := muSet r 7 9 f.bw dl s
  let mu := set.1
  let top := (vget s.sched.radio r).dlMax * 1000
  let less (n : Nat) : Nat := match room with | some t => min top (t - n) | none => top
  let within (n : Nat) : Bool := match room with | some t => n ≤ t | none => true
  match dl with
  | [] => (f, s)
  | o :: _ =>
    if mu.length ≤ 1 ∨ !(mu.any fun x => x.sta == o.sta) then
      let td := less (sifsNs r + respNs r 3 1)
      let x := buildSu r pa f.elems.length td f.bw o (tidOrder pa ((urgentTids o s).map (·.1)) o.tids) s
      if within x.2.1.durNs then (addElem ([x.1], x.2.1) f, x.2.2) else (f, s)
    else
      let fmt := set.2
      let bw := if fmt = 7 then min f.bw 3 else f.bw
      let k := min mu.length (min (userLimit r s) (bwSlots bw - 9 * popCount 16 (inBlock r bw (punctured r s) s)))
      let user (o : Offer) : RuUser := let rt := rateIn r o.sta fmt o.ctx s
        { sta := o.sta, need := dlNeed o s, mcs := rt.1, nss := rt.2, cap := ruCap fmt (vget o.ctx.block r) }
      let pe := (mu.map fun o => Config.linkPe (vget o.ctx.block r)).foldl max 0
      let plan (td : Nat) : RuPlan := planRus r fmt muGi bw td pe (dlJoin r b nulls ahead (mu.map user) s) ((mu.take k).map user) s
      let tail (p : RuPlan) : List Nat × Nat × Nat := dlTail r (p.users.map (·.user.sta)) s
      let cost (p : RuPlan) : Nat := p.ns + (tail p).2.1 + (if (tail p).2.2 = 0 then 0 else sifsNs r + (tail p).2.2)
      let p0 := plan (less 0)
      let p := if within (cost p0) then p0 else plan (less (cost p0 - p0.ns))
      if !within (cost p) then (f, s)
      else
        let c := claimUsers r pa p.nSym (dlUsers pa f.elems.length mu p.users s) s
        let f1 := addElem (c.1.map (withFlags r fmt s), { code := 2, durNs := p.ns + (tail p).2.1, ppduNs := p.ns, fmt := fmt, bw := bw, gi := muGi
                                                          nSym := p.nSym, pe := pe, punct := Nat.land (punctured r s) (primaryBlock r bw s) })
          { f with mu := p.users.any (·.shared) }
        let bars := c.1.filter fun u => (tail p).1.contains u.sta
        (if bars.isEmpty then f1 else
          addElem (bars.map fun u => { sta := u.sta, elem := f1.elems.length, ac := u.ac }, ctrlElem r 6 bw (28 + 9 * bars.length) (tail p).2.2 s) f1, c.2)
where
  /-- LDPC, DCM and STBC of a user. -/
  withFlags (r fmt : Nat) (s : State) (u : FUser) : FUser :=
    let blk := match kget s.mac.sta u.sta with | some x => vget x.block r | none => []
    let m := linkMod r fmt u.ruSize u.ruIndex u.mcs u.nss u.bytes blk s
    { u with ldpc := m.ldpc, dcm := m.dcm, stbc := m.stbc }

/-- Padding bytes of an MU-RTS at 6 Mb/s that last the longest padding delay of its EMLSR users (R170). -/
def muRtsPad (r : Nat) (stas : List Nat) (s : State) : Nat :=
  (stas.map fun n => match kget s.mac.sta n with
    | some x => if Config.linkEmlsr (vget x.block r) then 3 * ceilDiv (Config.linkEmlsrPad (vget x.block r)) 4000 else 0
    | none => 0).foldl max 0

/-- An EMLSR client is among stations. -/
def anyEmlsr (r : Nat) (stas : List Nat) (s : State) : Bool :=
  stas.any fun n => match kget s.mac.sta n with | some x => Config.linkEmlsr (vget x.block r) | none => false

/-- An MU_RTS element for stations, at most the user limit of them, EMLSR clients first (R170, R198). -/
def muRtsElem (r bw : Nat) (stas : List Nat) (s : State) : List Nat × Elem :=
  let l := ((stas.filter fun n => anyEmlsr r [n] s) ++ stas).eraseDups.take (userLimit r s)
  let len := 28 + 5 * l.length + muRtsPad r l s
  (l, ctrlElem r 0 bw len (basicNs r 0 len + sifsNs r + basicNs r 0 14) s)

/-- MU_RTS comes first for an EMLSR user, or beyond MURTS_THRESH (R194, R170). -/
def wantsMuRts (r : Nat) (stas : List Nat) (ns : Nat) (s : State) : Bool :=
  let k := vget s.sched.radio r
  anyEmlsr r stas s || (k.muRts != 65535 && ns > k.muRts * 1000)

/-- The elements of a furrow for a budget in ns; none of a budget is a TXOP limit of 0: one element after any MU_RTS, with the
MU_BAR it needs (R194, R195). The furrow as a whole, its MU_RTS included, stays within the budget. -/
def addElements (r pa b nulls ahead : Nat) (limit : Option Nat) (rk : List Offer) (f : Furrow) (s : State) : Furrow × State :=
  let k := vget s.sched.radio r
  let due := dueSounding r rk s
  let polls := bsrpStas r b s
  let dlFirst := match rk with | o :: _ => !o.tids.isEmpty | [] => false
  let pollUsers (el : Nat) : List FUser := polls.map fun p => { sta := p.1, elem := el, uplink := true, ac := pa }
  let places := polls.length + k.raRu
  let bsrpLen := 28 + 8 * places
  let bsrpElem := { ctrlElem r 5 f.bw bsrpLen (basicNs r 0 bsrpLen + sifsNs r + respNs r 5 places) s with raRu := k.raRu }
  match limit with
  | none =>
    if !due.isEmpty then (addElem (buildSounding r f.elems.length f.bw due s) f, s)
    else if dlFirst then addDownlink r pa b nulls ahead none rk f s
    else if !(ulOffers rk).isEmpty then (addElem (buildTrigger r pa b f.elems.length 5484000 f.bw ahead rk s) f, s)
    else if !polls.isEmpty then (addElem (pollUsers f.elems.length, bsrpElem) f, s)
    else addDownlink r pa b nulls ahead none rk f s
  | some t =>
    let all := rk.map (·.sta) ++ polls.map (·.1)
    let head := if wantsMuRts r all t s then (muRtsElem r f.bw all s).2.durNs + sifsNs r else 0
    let left (g : Furrow) : Nat := t - head - (g.elems.map (·.durNs)).sum - sifsNs r * g.elems.length
    let snd := buildSounding r f.elems.length f.bw due s
    let f1 := if due.isEmpty || left f < snd.2.durNs then f else addElem snd f
    let p := addDownlink r pa b nulls ahead (some (left f1)) rk f1 s
    let f3 := if polls.isEmpty || left p.1 < bsrpElem.durNs then p.1 else addElem (pollUsers p.1.elems.length, bsrpElem) p.1
    let tr := buildTrigger r pa b f3.elems.length (left f3) f.bw ahead rk p.2
    (if (ulOffers rk).isEmpty || left f3 < tr.2.durNs then f3 else addElem tr f3, p.2)

/-- A furrow with the MU_RTS it asks for. Its airtime is its users' in equal parts. -/
def withMuRts (r : Nat) (f : Furrow) (s : State) : Furrow :=
  let stas := (f.users.map (·.sta)).eraseDups
  if wantsMuRts r stas ((f.elems.map (·.durNs)).sum + sifsNs r * (f.elems.length - 1)) s then
    let m := muRtsElem r f.bw stas s
    { f with
      elems := m.2 :: f.elems
      users := (m.1.map fun n => { sta := n, elem := 0, ac := f.planAc }) ++ f.users.map fun u => { u with elem := u.elem + 1 } }
  else f

/-- The furrow as built: its planned duration, elements separated by SIFS, and the users that are served in their service periods. -/
def built (r : Nat) (f : Furrow) (s : State) : Furrow :=
  { f with
    dur := (f.elems.map (·.durNs)).sum + sifsNs r * (f.elems.length - 1)
    users := f.users.map fun u => { u with inSp := f.queue.isNone && match kget s.mac.sta u.sta with | some x => servedInSp u.sta x s | none => false } }

/-- A group frame takes its PN under its BSS's transmit key; none where the key is locked. -/
def numberGroup (r : Nat) (f : Frame) (s : State) : Option (Frame × State) :=
  match f.slot, (vget s.mac.bss f.bss).txKey with
  | none, some (kid, slot) =>
    match takePn slot s with
    | (some pn, t) =>
      let g := { f with keyId := some kid, slot := some slot, pn := pn }
      some (g, withSec (fun x => { x with jobs := x.jobs ++ [{ kind := .txAir, unit := r, slot := some slot, frame := g }] }) t)
    | (none, _) => none
  | _, _ => some (f, s)

/-- Claims MSDUs of a group queue that fit one PPDU of `td` ns at the basic rate (R196, R131). -/
def claimGroup (r rate td : Nat) (q : Nat) : (fuel : Nat) → Nat → List (Nat × Frame) → State → List (Nat × Frame) × Nat × State
  | 0, b, acc, s => (acc, b, s)
  | k + 1, b, acc, s =>
    match groupQueue q s with
    | [] => (acc, b, s)
    | f :: rest =>
      if (basicNs r rate (b + mpduBytes f) > td ∨ b + mpduBytes f > psduLimit (rateFmt rate)) ∧ !acc.isEmpty then (acc, b, s)
      else
        match numberGroup r f s with
        | none => (acc, b, s)
        | some (g, t) => claimGroup r rate td q k (b + mpduBytes f) (acc ++ [(0, g)]) (setGroupQueue q rest t)

/-- TXOP limit of a radio's AC in ns; none for 0. -/
def txopLimit (r a : Nat) (s : State) : Option Nat :=
  let t := (acEdca r a s).txop
  if t = 0 then none else some (t * 32000)

/-- A furrow shell with the build's number. -/
def shell (r pa b bw : Nat) (s : State) : Furrow :=
  { number := (vget s.sched.radio r).number, planAc := pa, bss := b, bw := bw, chains := chainMask r s
    headland := (vget s.hl r).baLimit < 1024 || (vget s.hl r).userLimit < userTop r }

/-- The furrow of one group queue (R196). -/
def buildGroup (r q : Nat) (s : State) : Furrow × State :=
  let a := q % 4
  let td := (txopLimit r a s).getD ((vget s.sched.radio r).dlMax * 1000)
  let rate := match (vget s.mac.bss (q / 4)).template with | some t => t.rate | none => 0
  let p := claimGroup r rate td q 256 0 [] s
  let d := basicNs r rate p.2.1
  let u : FUser := { sta := 0, elem := 0, ruSize := 255, ac := a, bytes := p.2.1, frames := p.1 }
  (built r { shell r a (q / 4) (vget s.fe r).bw s with elems := [{ code := 7, durNs := d, ppduNs := d, fmt := if rate ≥ 8 then 0 else 1, len := p.2.1 }], users := [u], queue := some q } s, p.2.2)

/-- The group queue that ranks above every station of the BSS, with weight W_ac x 16 (R196). -/
def groupFirst (r pa b : Nat) (gs : List Nat) (rk : List ((Nat × Nat) × Offer)) (s : State) : Option Nat :=
  let mine := gs.filter fun q => acctBss (q / 4) s == b
  let v (q : Nat) : Nat := vget (vget s.mac.bss (q / 4)).vGroup (q % 4)
  let beats (q : Nat) : Bool := match rk with
    | [] => true
    | (k, _) :: _ => let c := if q % 4 = pa then 2 else 3
                     c < k.1 || (c == k.1 && v q < k.2)
  (leastBy mine v).filter fun q => beats q || (vget s.mac.bss (q / 4)).dtimOpen

/-- NULL_APPLIED, NULL_MISSING, PRECODER_COARSE and GROUP_INVALID of a build (R257, R259, Table 10.8). -/
def countPrecoders (r ahead : Nat) (f : Furrow) (pit : Option Pitch) (s : State) : Furrow × State :=
  let nulls := match pit with | some p => nullRows r ahead p s | none => []
  let q := withPrecoders r ahead f nulls s
  let s1 := q.2
  let s2 := match pit with
    | some p => let k := nulls.length
                bfCount r 14 (p.nulls.length - k) (bfCount r 13 k s1)
    | none => s1
  let bad := (vget s.bf.radio r).groups.filter fun g => g.2.bss == f.bss && !g.2.struck && !(g.2.members.all fun m => (csiForAt r m.1 m.2.2 ahead s).isSome)
  (q.1, strikeGroups r (fun g => bad.any fun p => p.2 == g) (bfCount r 12 bad.length s2))

/-- Virtual times of a radio are rebased when the lowest active one passes 2^62 (R453). -/
def rebase (r : Nat) (s : State) : State :=
  let act := (List.range 16).flatMap fun i => activeV (16 * r + i) s
  match minOf act with
  | some m =>
    if m > 2 ^ 62 then
      withMac (fun x => { x with
        sta := x.sta.map fun p => if bit p.2.links r then (p.1, { p.2 with v := p.2.v.map (· - 2 ^ 61) }) else p
        bss := Vector.ofFn fun i => if i.val / 16 = r then { x.bss[i] with shareV := x.bss[i].shareV - 2 ^ 61, vGroup := x.bss[i].vGroup.map (· - 2 ^ 61) } else x.bss[i] }) s
    else s
  | none => s

/-- LL_OVERCAP (R193): urgent airtime of the last 100 ms against LL_SHARE; urgent rank returns below it. -/
def llShareCheck (r : Nat) (s : State) : State :=
  let k := vget s.sched.radio r
  let used := ((k.urgentUse.filter fun p => s.now < p.1 + 50000000).map (·.2)).sum
  let share := k.llShare * 100000
  let beyond := if k.overcap then used ≥ share else used > share
  let t := withRs r (fun k => { k with overcap := beyond }) s
  if beyond && !k.overcap then schedCount r 14 1 t else t

/-- FURROW_BUILD_START (R190 to R204): for EDCA, or for the next coordinated TXOP. -/
def furrowBuild (r : Nat) (coord : Bool) (s0 : State) : State :=
  let k := vget s0.sched.radio r
  if k.building.isSome || k.ready.isSome || (vget s0.fe r).state == .off then s0
  else
    let s := rebase r s0
    let pit := if coord then pitchNow r s else none
    let os := match pit with
      | some p => (offers r s).filter fun o => p.serve.contains o.sta
      | none => offers r s
    let gs := groupOffers r s
    match planAc os (if coord then [] else gs) with
    | none => s
    | some pa =>
      match chooseBss r pa os (if coord then [] else gs) s with
      | none => s
      | some b =>
        let rk := ranked r pa b os s
        let num (t : State) : State := withRs r (fun k => { k with number := k.number + 1, zeroNext := if (vget s.mac.bss b).share = 0 then b - 16 * r + 1 else k.zeroNext }) t
        match (if coord then none else groupFirst r pa b gs rk s) with
        | some q =>
          let p := buildGroup r q s
          num (withRs r (fun k => { k with building := some p.1 }) p.2)
        | none =>
          -- Validity is judged at the planned start (R253).
          let ahead := match pit with | some p => p.start + ((p.txops.head?.map (·.1)).getD 0) - ropeNs s | none => 0
          let nulls := match pit with | some p => ((nullRows r ahead p s).map (·.1)).sum | none => 0
          let limit := match pit with
            | some p => p.txops.head?.map fun t => t.2.1
            | none => txopLimit r pa s
          -- A coordinated TXOP has a bandwidth of its own (Table 8.6).
          let bw := match pit.bind (·.txops.head?) with | some t => min (vget s.fe r).bw t.2.2 | none => (vget s.fe r).bw
          let p := addElements r pa b nulls ahead limit (rk.map (·.2)) { shell r pa b bw s with coord := coord, slot := pit.map (·.slot) } s
          if p.1.elems.isEmpty then s
          else
            let f := built r (withMuRts r p.1 p.2) p.2
            let q := countPrecoders r ahead f pit p.2
            num (withRs r (fun k => { k with building := some q.1 }) q.2)

/-- The engines' residue checks (R441): a fenced fallback engine keeps its radio in STANDBY, a fenced build engine builds nothing. -/
def furrowStart (r : Nat) (coord : Bool) (mism fbMism : Nat) (s : State) : State :=
  let t := residue (0x1B + r) fbMism s
  let s1 := if radioOut r s == radioOut r t then t else chainsChanged r (radioOut r s) t
  let k := vget s1.sched.radio r
  let s2 := if k.building.isSome || k.ready.isSome then s1 else residue (0x18 + r) mism s1
  if partFenced (0x18 + r) s2 then s2 else furrowBuild r coord s2

/-- `mism` and `fbMism`: residue mismatches of the build engine and of the fallback engine. -/
def execFurrowBuildStart (r : Radio) (coord : Bool) (mism fbMism : Fin 3) (s : State) : Host.Outcome State Fault Refusal :=
  whenRunning s (furrowStart (rnum r) coord mism.val fbMism.val)

/-- FURROW_READY (R204): every PPDU formed, its MPDUs through the cipher engine, its precoders loaded. One that limits lowered since have
ruled out is discarded (R29, R206). -/
def furrowReady (r ns : Nat) (s : State) : State :=
  let k := vget s.sched.radio r
  match k.building with
  | none => s
  | some f =>
    if s.sec.jobs.any fun j => j.kind == .txAir && j.unit == r then s
    else
      hlDiscard r (bfCount r 9 f.pre.length (withRs r (fun k => { k with building := none, ready := some { f with build := ns }, discarded := false }) s))

def execFurrowReady (r : Radio) (ns : Nat) (s : State) : Host.Outcome State Fault Refusal := whenRunning s (furrowReady (rnum r) ns)

end Sys2Proof.Machine
end

