-- ==== Sys2Proof/Machine/TxPath.lean ====
section
/-!
DEFINITION. Gaining the medium and sending (spec/07_medium_access.md R150 to R156, spec/08_scheduled_access.md R205 to R210,
spec/01_architecture.md R15): backoff, the furrow or its fallback, and a PPDU's start, underrun and end.
-/
namespace Sys2Proof.Machine
open Sys2Proof

/-! Starting a furrow. -/

/-- A claimed MSDU that is removed when its furrow starts (R206). -/
def dropClaimed (r n : Nat) (p : Nat × Frame) (s : State) : State := dropLost r n p (schedCount r 19 1 s)

/-- Removes what has left the furrow; its space is sent as padding. -/
def purgeFurrow (r : Nat) (f : Furrow) (s : State) : Furrow × State :=
  ({ f with users := f.users.map fun u => { u with frames := u.frames.filter fun p => p.2.lost.isNone } },
   f.users.foldl (fun t u => (u.frames.filter fun p => p.2.lost.isSome).foldl (fun v p => dropClaimed r u.sta p v) t) s)

/-- An uplink RU of a user: its TIDs are served (R192), and a BSRP answers the poll a hold asked for (R203). -/
def noteUplink (code : Nat) (u : FUser) (s : State) : State :=
  withSta u.sta (fun x =>
    let tids := tidsOfAc u.ac
    if code = 4 then
      { x with lastUlRu := tids.foldl (fun v t => vset v t (tbTotal 2 s)) x.lastUlRu
               ulUrgent := maskOf ((List.range 8).map fun t => bit x.ulUrgent t && !tids.contains t)
               ulMissed := maskOf ((List.range 8).map fun t => bit x.ulMissed t && !tids.contains t) }
    else { x with ulPoll := false }) s

/-- A dozing station that asked for delivery has been served: by one frame where it sent a PS-Poll, else until nothing of its ACs is queued
(R176). -/
def askServed (n : Nat) (s : State) : State :=
  match kget s.mac.psReq n with
  | none => s
  | some (m, one) =>
    if !one && (List.range 8).any (fun t => bit m (acOfTid t) && khas s.sched.q (8 * n + t)) then s
    else withMac (fun m => { m with psReq := kdel m.psReq n }) s

/-- A furrow starts: what it holds is final, its counters count (Table 8.14), and its first PPDU is requested. `limit` is its TXOP limit in
ns, 0 for none. -/
def startFurrow (r a limit : Nat) (f : Furrow) (s : State) : State :=
  let p := purgeFurrow r f s
  let code (u : FUser) : Nat := match f.elems[u.elem]? with | some e => e.code | none => 3
  let dl := p.1.users.filter fun u => f.queue.isNone && (code u == 2 || code u == 3)
  let ul := p.1.users.filter (·.uplink)
  let snd := p.1.users.filter fun u => code u == 1
  let shared := ((p.1.users.filter (·.mu)).map fun u => (u.elem, u.ruSize, u.ruIndex)).eraseDups
  let count (c : Nat) : Nat := (f.elems.filter fun e => e.code == c).length
  let s1 := schedCount r 0 1 (schedCount r 15 (if f.coord then 1 else 0) (schedCount r 20 (count 7)
    (schedCount r 8 dl.length (schedCount r 9 ul.length (schedCount r 10 shared.length (schedCount r 11 (count 5) p.2))))))
  let s2 := bfCount r 0 (count 1) (bfCount r 1 snd.length s1)
  let s3 := ul.foldl (fun t u => noteUplink (code u) u t) s2
  let s3 := dl.foldl (fun t u => withSta u.sta (fun x => { x with rate := vmod x.rate r fun y => { y with mcs := u.mcs, nss := u.nss } }) t) s3
  let s4 := dl.foldl (fun t u => if u.frames.isEmpty then t else askServed u.sta t) s3
  let g := { p.1 with startNs := (vget s.time.tb 2).ns, startS := (vget s.time.tb 2).sec % 2 ^ 32, pos := 0 }
  let s5 := withRs r (fun k => { k with cur := some g, ready := if f.fallback then k.ready else none }) s4
  let s6 := withFe r (fun e => { e with txopHeld := true })
    (withRm r (fun m => { m with txop := some (a, limit, s.now) }) s5)
  startElement r 8 (applyFormats r (llShareCheck r s6))

/-! Winning a TXOP. -/

/-- TXOP bandwidth (R152): `idle` marks the subchannels idle for PIFS. -/
def txopBw (r idle : Nat) (s : State) : Nat :=
  let e := vget s.fe r
  let punc := punctured r s
  ((List.range (e.bw + 1)).reverse.find? fun w =>
    (List.range (2 ^ w)).all fun i =>
      let c := e.prim / 2 ^ w * 2 ^ w + i
      c == e.prim || bit punc c || bit idle c).getD 0

/-- The furrow carries data or a trigger of an AC (R205); a sounding or polling furrow counts by its plan AC. -/
def carriesAc (f : Furrow) (a : Nat) : Bool :=
  (match f.queue with | some q => q % 4 == a | none => false) ||
    f.users.any (fun u => (u.frames.any fun p => acOfTid p.1 == a) || (u.uplink && u.ac == a)) ||
    (f.planAc == a && f.elems.any fun e => e.code == 1 || e.code == 5)

/-- A slot's constraints forbid a furrow: it serves a station left to others, or uses a reserved subchannel (Table 8.6). -/
def breaksPitch (f : Furrow) (p : Pitch) : Bool :=
  f.users.any (fun u => f.queue.isNone && p.exclude.contains u.sta) || p.reserve % 2 ^ (2 ^ f.bw) != 0

/-- Nanoseconds to the restricted TWT service periods of a radio whose stations a furrow does not serve: it ends before they begin (IEEE
802.11be, R177; PRESUMED, log 91). -/
def restrictedStarts (r : Nat) (f : Furrow) (s : State) : List Nat :=
  (s.mac.twt.filter fun p => p.2.restricted && bssRadio p.2.bss == r && tsfNs p.2.bss s < 1000 * p.2.next &&
    !(f.queue.isNone && f.users.any fun u => u.sta == p.1 / 8)).map fun p => 1000 * p.2.next - tsfNs p.2.bss s

/-- Time an EDCA furrow may run from now: to SIFS before the next coordinated TXOP of the radio (R315), to the start of a slot whose
constraints it does not meet (R209), and to restricted service periods of others (R177); none without a bound. -/
def edcaRoom (r : Nat) (f : Furrow) (s : State) : Option Nat :=
  let t := ropeNs s
  let ps := (vget s.sched.radio r).pitch
  let co := ps.flatMap fun p => (p.txops.map fun x => p.start + x.1).filter (t < ·)
  minOf (co.map (fun x => x - sifsNs r - t) ++ ((ps.drop 1).filter fun p => t < p.start && breaksPitch f p).map (fun p => p.start - t) ++ restrictedStarts r f s)

/-- It ends in the room there is. -/
def fitsRoom (r : Nat) (f : Furrow) (s : State) : Bool := match edcaRoom r f s with | some t => f.dur ≤ t | none => true

/-- The furrow fits an AC's TXOP limit (R195), and the room before coordinated TXOPs (R315). -/
def fitsLimit (r a : Nat) (f : Furrow) (s : State) : Bool :=
  fitsRoom r f s && match txopLimit r a s with
    | some t => f.dur ≤ t
    | none => (f.elems.filter fun e => e.code != 0 && e.code != 6).length ≤ 1

/-- The candidate with the oldest head-of-line MSDU of an AC (R207). -/
def fallbackOffer (r a : Nat) (s : State) : Option Offer :=
  let age (o : Offer) : Nat :=
    (minOf ((o.tids.filter fun t => acOfTid t == a).map fun t => match tidQueue (8 * o.sta + t) s with | f :: _ => f.arrived | [] => s.now)).getD s.now
  ((offers r s).filter fun o => o.tids.any fun t => acOfTid t == a).foldl (fun m o => match m with
    | none => some o
    | some y => if age o < age y then some o else some y) none

/-- TXOP_EMPTY: the medium was won and nothing is sent. -/
def txopEmpty (r a : Nat) (s : State) : State :=
  schedCount r 7 1 (withFe r (fun e => { e with txopHeld := false }) (withRm r (fun m => { m with
    txop := none, bo := vmod m.bo a fun b => { b with counter := none } }) s))

/-- The fallback furrow of an AC (R207), or TXOP_EMPTY; it too ends before a coordinated TXOP (R315). `reason` is the counter of
Table 8.14. -/
def sendFallback (r a bw reason : Nat) (s : State) : State :=
  match (if partFenced (0x1B + r) s then none else fallbackOffer r a s) with
  | none => txopEmpty r a s
  | some o =>
    let room := (edcaRoom r {} s).getD ((vget s.sched.radio r).dlMax * 1000)
    -- Beside the other link of a pair it ends with that link's PPDU (R170).
    let pair := match otherEnd o.sta r s with | some t => 2 * (t - s.now) | none => room
    let top := (vget s.sched.radio r).dlMax * 1000
    -- Its response ends within the TXOP limit and the room too (R195).
    let resp := sifsNs r + respNs r 3 1
    let td := min (min pair top) (min room ((txopLimit r a s).getD (top + resp)) - resp)
    let x := buildSu r a 0 td bw o (o.tids.filter fun t => acOfTid t == a) s
    -- An MU-RTS opens the exchange with an EMLSR client (R170).
    let f0 := addElem ([x.1], x.2.1) { shell r a (linkBss o.ctx r) bw s with fallback := true }
    let p := withPrecoders r 0 (built r (if Config.linkEmlsr (vget o.ctx.block r) then withMuRts r f0 s else f0) s) [] x.2.2
    let f := p.1
    let t := sealNewest s.sec.jobs.length (bfCount r 9 f.pre.length p.2)
    let u := withRs r (fun k => { k with number := k.number + 1, fell := k.fell + 1 }) t
    if fitsRoom r f s then startFurrow r a ((txopLimit r a s).getD 0) f (schedCount r reason 1 (schedCount r 1 1 u)) else txopEmpty r a s

/-- A user served in its service period whose delivery window does not hold the whole furrow (R187). -/
def outOfSp (f : Furrow) (s : State) (u : FUser) : Bool :=
  u.inSp && match kget s.mac.sta u.sta with | some x => x.doze && !inDelivery x f.dur s | none => false

/-- Such users leave, and their MSDUs return. -/
def leaveSp (r : Nat) (f : Furrow) (s : State) : Furrow × State :=
  ({ f with users := f.users.filter fun u => !outOfSp f s u }, (f.users.filter (outOfSp f s)).foldr (fun u t => unclaim r f.queue u t) s)

/-- Every user of a furrow is held off (R170): it waits. -/
def allHeldOff (r : Nat) (f : Furrow) (s : State) : Bool :=
  f.queue.isNone && f.users.all fun u => match kget s.mac.sta u.sta with | some x => !notHeldOff u.sta r true x s | none => false

/-- The next wake-up PPDU of radio A: the lowest BSS with a copy due (R143, R144). -/
def wurNext (s : State) : Option (Nat × WurTx) := s.wur.tx.find? fun p => p.2.waiting

/-- The centre in MHz of a radio's primary 20 MHz. -/
def primaryMhz (e : RadioFe) : Nat := e.centre + 20 * e.prim + 10 - 10 * 2 ^ e.bw

/-- A WUR PPDU (R143): 28 us of preamble and mark on the primary 20 MHz, then the WUR portion centred in it. -/
def wurPpdu (b : Nat) (x : WurTx) (s : State) : TxCur :=
  let high := x.rate == 1
  { kind := .wur, bss := b, ac := 3, durNs := 28000 + 2 * wurTicks high x.body.length, preNs := 28000
    wur := some { high := high, centre := primaryMhz (vget s.fe 0), type := x.type, id := x.id, tdc := x.tdc, body := x.body
                  fcs := Config.wurFcs x.type x.id x.tdc x.body } }

/-- An EDCA function takes the medium (R205): the ready furrow, or the fallback and its reason. -/
def txopWin (r a idle : Nat) (s : State) : State :=
  let bw := txopBw r idle s
  let s1 := withRs r (fun k => { k with won := k.won + 1 }) (withFe r (fun e => { e with txopHeld := true, withheld := false })
    (withRm r (fun m => { m with txop := some (a, (txopLimit r a s).getD 0, s.now) }) s))
  match (if r = 0 ∧ a = 3 then wurNext s else none) with
  | some (b, x) => withRm r (fun m => { m with txNext := m.txNext ++ [wurPpdu b x s1] }) s1
  | none =>
    let k := vget s.sched.radio r
    match k.ready.filter fun f => !f.coord with
    | none => sendFallback r a bw (if k.discarded && !partFenced (0x18 + r) s then 5 else 2) s1
    | some f =>
      if !precodersValid r f s then sendFallback r a bw 5 (furrowDrop r s1)
      else if !carriesAc f a || !fitsLimit r a f s then sendFallback r a bw 3 s1
      else if f.bw > bw then sendFallback r a bw 4 s1
      else if allHeldOff r f s then sendFallback r a bw 2 s1
      else
        let p := leaveSp r f s1
        if p.1.users.isEmpty then sendFallback r a bw 5 (furrowDrop r (withRs r (fun k => { k with ready := some p.1 }) p.2))
        else startFurrow r a ((txopLimit r a s).getD 0) p.1 p.2

/-! Backoff (R150, R151). -/

/-- An EDCA function has frames to send. -/
def wantsAc (r a : Nat) (os : List Offer) (gs : List Nat) (s : State) : Bool :=
  os.any (fun o => offerAc o a) || gs.any (fun q => q % 4 == a) || (r == 0 && a == 3 && (wurNext s).isSome)

/-- Slots of an AC that have passed since its AIFS, or its EIFS after a reception that ended with an FCS failure (R145), where this instant is a
slot boundary of it. -/
def slotsPast (r a : Nat) (s : State) : Option Nat :=
  let m := vget s.mac.radio r
  match m.idleAt with
  | none => none
  | some t =>
    let ifs := if m.eifs then eifsNs r (acEdca r a s).aifsn s else aifsNs r (acEdca r a s).aifsn s
    let past := 2 * (s.now - t)
    if past ≥ ifs ∧ (past - ifs) % backoffNs r s = 0 then some ((past - ifs) / backoffNs r s) else none

/-- A slot boundary of a function: it draws its counter, or the counter falls at the end of a slot past AIFS (R150). -/
def slotOf (r : Nat) (os : List Offer) (gs : List Nat) (s : State) (a : Nat) : State :=
  match (vget (vget s.mac.radio r).bo a).counter with
  | none => if wantsAc r a os gs s then drawCounter r a s else s
  | some n =>
    if slotsPast r a s = some 0 then s
    else withRm r (fun m => { m with bo := vmod m.bo a fun b => { b with counter := some (n - 1) } }) s

/-- A function that lost the slot to a higher AC. -/
def internalLoss (r : Nat) (s : State) (a : Nat) : State := macCount r 5 1 (cwFail r a s)

/-- A function has an access under way: its counter runs, or it has frames to send. -/
def requests (r : Nat) (os : List Offer) (gs : List Nat) (s : State) (a : Nat) : Bool :=
  (vget (vget s.mac.radio r).bo a).counter.isSome || wantsAc r a os gs s

/-- An access withheld by the grant counts once (R107). -/
def countWithheld (r : Nat) (s : State) : State :=
  if (vget s.fe r).withheld then s else feCount r 10 (withFe r (fun e => { e with withheld := true }) s)

/-- The 20 MHz subchannels idle for PIFS (R152). -/
def idleSubs (r : Nat) (s : State) : Nat :=
  let m := vget s.mac.radio r
  maskOf ((List.range 16).map fun i => !bit m.energy i && 2 * (s.now - vget m.subAt i) ≥ pifsNs r s)

/-- BACKOFF_SLOT: an idle slot boundary of some AC. While GNT is high the counters stay frozen and the access is withheld (R107,
Table 4.6). -/
def backoffSlot (r : Nat) (s : State) : State :=
  let due := (List.range 4).filter fun a => (slotsPast r a s).isSome
  let idle := idleSubs r s
  if !contends r s || ccaBusy r s || (vget s.fe r).txopHeld then s
  else if (vget s.fe r).gnt then if due.any (requests r (offers r s) (groupOffers r s) s) then countWithheld r s else s
  else
    let s1 := due.foldl (slotOf r (offers r s) (groupOffers r s)) s
    let zero := due.filter fun a => (vget (vget s1.mac.radio r).bo a).counter == some 0
    match zero.getLast? with
    | none => s1
    | some a => txopWin r a idle ((zero.filter (· != a)).foldl (internalLoss r) s1)

def execBackoffSlot (r : Radio) (_ _ : NoData) (s : State) : Host.Outcome State Fault Refusal := whenLive s (backoffSlot (rnum r))

/-- FURROW_LATE_WINDOW (R208): the end of a 1 s window. The windows follow one another from reset (DESIGN CHOICE, log 91). -/
def furrowLateWindow (r : Nat) (s : State) : State :=
  let k := vget s.sched.radio r
  let t := withRs r (fun k => { k with won := 0, fell := 0, lateFrom := s.now }) s
  let quiet := match k.lateAt with | some t => s.now < t + 5000000000 | none => false
  if s.now < k.lateFrom + 500000000 then s
  else if k.fell * 1000 > k.lateAlarm * k.won ∧ quiet = false then
    raise .furrowLate r (le 4 k.fell ++ le 4 k.won) (withRs r (fun k => { k with lateAt := some s.now }) t)
  else t

def execFurrowLateWindow (r : Radio) (s : State) : Host.Outcome State Fault Refusal := whenLive s (furrowLateWindow (rnum r))

/-! A PPDU's start. -/

/-- The PPDU of a launch-timed or late frame: single-user to its station, or a group frame at the basic rate of its BSS. -/
def launchPpdu (r : Nat) (f : Frame) (s : State) : TxCur :=
  match kget s.mac.sta f.sta with
  | some x =>
    let w := suForm r f.sta (vget s.fe r).bw x s
    let u := suMod r w (vget x.block r) (mpduBytes f) s
    let t := suTime r w u
    { kind := .launch, bss := linkBss x r, ac := acOfTid f.tid, code := 3, expects := true
      rts := Config.linkEmlsr (vget x.block r) || wantsRts (linkBss x r) (mpduBytes f) s
      users := [{ sta := f.sta, tid := f.tid, frames := [f], ruSize := u.ruSize, mcs := u.mcs, nss := u.nss, ldpc := u.ldpc, dcm := u.dcm
                  stbc := u.stbc }]
      fmt := w.fmt, bw := w.bw, gi := w.gi, nSym := t.1, pe := w.pe, punct := Nat.land (punctured r s) (primaryBlock r w.bw s), durNs := t.2
      steer := steerOnce r w.bw w.size f.sta w.nss w.fmt s }
  | none =>
    let rate := match (vget s.mac.bss f.bss).template with | some t => t.rate | none => 0
    { kind := .launch, bss := f.bss, users := [{ sta := 0x3FF, tid := f.tid, frames := [f] }], code := 7, fmt := rateFmt rate
      len := mpduBytes f, durNs := basicNs r rate (mpduBytes f) }

/-- The RTS before a PPDU, or for EMLSR clients the MU-RTS padded to their padding delay (R155, R170): non-HT, duplicated across the channel. -/
def rtsPpdu (r : Nat) (x : TxCur) (s : State) : TxCur :=
  let stas := x.users.map (·.sta)
  let emlsr := stas.any fun n => match kget s.mac.sta n with | some y => Config.linkEmlsr (vget y.block r) | none => false
  let len := if emlsr then 28 + 5 * stas.length + muRtsPad r stas s else 20
  let dup := maySend r 2 (vget s.fe r).bw s
  { kind := x.kind, bss := x.bss, ac := x.ac, code := 0, expects := true, users := stas.map fun n => { sta := n }, fmt := if dup then 2 else 1
    bw := if dup then (vget s.fe r).bw else 0, len := len, durNs := basicNs r 0 len }

/-- A launch-timed or late frame's station is not held off (R170). -/
def launchFree (r : Nat) (f : Frame) (s : State) : Bool :=
  match kget s.mac.sta f.sta with | some x => notHeldOff f.sta r false x s | none => true

/-- A running test's next PPDU may start: its gap since the last one ended has passed (R133). -/
def testDue (e : RadioFe) (s : State) : Option TestTx :=
  e.testTx.filter fun x => match x.endAt with | some t => t + 500 * x.gap ≤ s.now | none => true

/-- A launch-timed or late frame takes its sequence number and its PN as it is sent, and goes through the cipher engine; none where its key is
locked. -/
def numberLaunch (r : Nat) (f : Frame) (s : State) : Option (Frame × State) :=
  ((if khas s.mac.sta f.sta then numberFrame r f.sta f.tid f s else numberGroup r f s)).map fun p => (p.1, sealNewest s.sec.jobs.length p.2)

/-- The PPDU that starts next: one that waits for its instant, a late frame that takes the medium as a beacon does (R337), or
the next one of a running test once the medium has been idle for PIFS (R133). -/
def nextPpdu (r : Nat) (s : State) : Option (TxCur × State) :=
  let m := vget s.mac.radio r
  match m.txNext with
  | x :: _ => some (x, s)
  | [] =>
    if !contends r s || ccaBusy r s || (vget s.fe r).txopHeld || !idleFor r (pifsNs r s) s then none
    else
      match m.lateQ with
      | f :: _ => if launchFree r f s then (numberLaunch r f s).map fun p => (launchPpdu r p.1 p.2, p.2) else none
      | [] => (testDue (vget s.fe r) s).map fun x => (testPpdu r x, s)

/-- Takes it from where it waited. -/
def takePpdu (r : Nat) (s : State) : State :=
  withRm r (fun m => match m.txNext with
    | _ :: l => { m with txNext := l }
    | [] => { m with lateQ := m.lateQ.drop 1 }) s

/-- MPDUs a PPDU carries. -/
def ppduFrames (x : TxCur) : List Frame := x.users.flatMap (·.frames)

/-- Length of a frame's MPDU: header, cipher header and tag, and FCS. -/
def mpduLen (f : Frame) : Nat := f.bytes.length + 54

/-- Bytes of a user's PSDU. -/
def psduBytes (u : TxUser) : Nat := (u.frames.map mpduBytes).sum

/-- Kinds of PPDU that a TXOP carries. -/
def inTxop : TxKind → Bool
  | .edca | .coord | .wur | .control => true
  | .beacon | .launch | .response | .test => false

/-- R131: sizes of Table 5.11 and the receiver's maxima, 5,484 us, and what is left of the TXOP that carries it. A WUR PPDU is sent whatever its
TXOP's limit (log 91). -/
def txRejected (r : Nat) (x : TxCur) (s : State) : Bool :=
  x.durNs > 5484000 || x.len > psduLimit x.fmt || (x.kind == .test && x.len > mpduLimit x.fmt) ||
    (match (vget s.mac.radio r).txop with
     | some (_, t, _) => inTxop x.kind && x.kind != .wur && t > 0 && x.durNs > txopLeft r s
     | none => false) ||
    x.users.any fun u => psduBytes u > psduLimit x.fmt || u.frames.any (fun f => mpduLen f > mpduLimit x.fmt) || (match kget s.mac.sta u.sta with
      | some y => u.frames.any (fun f => mpduLen f > Config.linkMpdu (vget y.block r)) || psduBytes u > Config.linkAmpdu (vget y.block r)
      | none => false)

/-- A PPDU was not sent, or not whole: no response to it is expected (R15, R107, R131). A furrow's PPDU that was not sent for want
of FIFO contents counts as a failed exchange, as an underrun does, which R15 does not say (DESIGN CHOICE, log 89). -/
def txFailed (r : Nat) (st : Status) (x : TxCur) (s : State) : State :=
  match x.kind with
  | .edca | .coord => elementDone r false (withRm r (fun m => { m with agg := {} }) s)
  | .launch =>
    (ppduFrames x ++ (match (vget s.mac.radio r).afterRts with | some y => ppduFrames y | none => [])).foldl (fun t f => frameDone f st [] t)
      (withRm r (fun m => { m with afterRts := none }) s)
  | .beacon => withBss x.bss (fun b => { b with bcnDue := true }) s
  | .response => withFe r (fun e => { e with owesResp := false }) (withRm r (fun m => { m with agg := {} }) s)
  | .wur => txopEnd r true false (wurCopyCut x.bss s)
  | .control => withFe r (fun e => { e with txopHeld := false }) s
  | .test => s

/-- The lower of two caps. -/
def lowerCap (a b : Option Int) : Option Int :=
  match a, b with
  | some x, some y => some (min x y)
  | some x, none => some x
  | none, y => y

/-- The ramp-up of a PPDU (R94, R95): at most 1.5 us within the RX to TX turnaround, as set out of STANDBY. -/
def rampUpOf (e : RadioFe) : Nat := if e.state = .rx then min 15 e.rampUp else e.rampUp

/-- The modulation of a user on the air. -/
def modOf (u : TxUser) : ModUser :=
  { ruSize := u.ruSize, ruIndex := u.ruIndex, mcs := u.mcs, nss := u.nss, ldpc := u.ldpc, dcm := u.dcm, stbc := u.stbc, bytes := psduBytes u }

/-- The fields the PHY adds (R132): L-SIG LENGTH, which HT and later formats spoof, each user's padding, the preamble's time, and the active
chains with their cyclic shifts. -/
def dressPpdu (r : Nat) (x : TxCur) (s : State) : TxCur :=
  let us := x.users.map modOf
  { x with
    lsig := if x.fmt = 0 then 0 else if x.fmt ≤ 2 then x.len else spoofLength r x.fmt x.durNs
    pads := if x.fmt ≤ 2 then [] else us.map (padOf x.fmt x.bw x.nSym)
    preNs := if x.kind = .wur then x.preNs else preNs x.fmt x.bw x.gi us
    chains := chainMask r s, csd := csdOf (liveChains r s) }

/-- Time in ns that the exchanges after a PPDU's end still take (R154): the rest of its element and of its furrow, or its own response; after an
RTS the PPDU it protects too. -/
def afterPpdu (r : Nat) (x : TxCur) (s : State) : Nat :=
  let next := match (vget s.mac.radio r).afterRts with | some y => 2 * sifsNs r + basicNs r 0 14 + y.durNs | none => 0
  match x.kind with
  | .edca | .coord =>
    match (vget s.sched.radio r).cur with
    | some f =>
      match f.elems[f.pos]? with
      | some e => next + (match x.rest with | some t => t | none => e.durNs - (if e.rts then rtsHead r else 0) - e.ppduNs) + ((f.elems.drop (f.pos + 1)).map fun d => sifsNs r + d.durNs).sum
      | none => 0
    | none => 0
  | .launch => if x.expects then next + sifsNs r + respNs r 3 1 else 0
  | .response => 1000 * (vget s.mac.radio r).agg.dur - sifsNs r - x.durNs
  | .beacon | .test | .wur | .control => 0

/-- Duration in us, never past the TXOP limit (R154). -/
def durationOf (r : Nat) (x : TxCur) (s : State) : Nat :=
  let limited := match (vget s.mac.radio r).txop with | some (_, t, _) => inTxop x.kind && t > 0 | none => false
  let rest := afterPpdu r x s
  if limited && rest > txopLeft r s - x.durNs then (txopLeft r s - x.durNs) / 1000 else min 32767 (ceilDiv rest 1000)

/-- What goes on the air: a beacon's body is of its first symbol (R173), its frames carry R154's Duration, power stays under the caps in force,
the ramp is R95's, and the PHY's fields are R132's. -/
def airPpdu (r : Nat) (x0 : TxCur) (s : State) : TxCur :=
  let m := vget s.mac.radio r
  let e := vget s.fe r
  let x := dressPpdu r x0 s
  { x with cap := lowerCap ((m.obssCap.filter fun c => s.now < c.2).map (·.1)) m.txCap, body := if x.kind = .beacon then beaconBody x.bss s else x.body
           rampUp := rampUpOf e, shape := e.rampShape, startAt := s.now, dur := durationOf r x s }

/-- Counters of a PPDU that starts. -/
def countTx (r : Nat) (x : TxCur) (s : State) : State :=
  let fs := ppduFrames x
  let bars := (x.users.map fun u => u.bars.length).sum
  let bcn := if x.kind = .beacon then 1 else 0
  let cf := if x.kind = .control then 1 else 0
  macCount r 7 bars <| macCount r 6 cf <| macCount r 0 fs.length (macCount r 1 (fs.filter fun f => f.tries > 0).length (macCount r 15 bcn (phyCount r 18 1 s)))

/-- The first sample of a PPDU reaches the antenna (R98, Table 4.9): the trigger applies the staged TX_ON entries, then the RX_ON
entries are staged on entry to TX. A PPDU that spatial reuse ignores is no longer received (R118, R148). -/
def beginPpdu (r : Nat) (staged blanked : Bool) (x : TxCur) (s : State) : State :=
  let y := airPpdu r x s
  let s := withPhy r (fun p => { p with rx := none }) s
  let s1 := withRm r (fun m => { m with txStamps := stampOut (2 + r) s }) (withFe r (fun e => { e with state := .tx, trans := none, goal := none, tx := some y }) s)
  let s2 := countTx r y (emit (.air r y) (femEnter r .tx (femTrigger r 0 s1)))
  let s3 := if staged then s2 else feCount r 13 s2
  let s4 := if r = 0 ∧ blanked = true then wurBlanked s3 else s3
  let s4 := if x.kind = .wur then wurCopyStarts x.bss s4 else s4
  let s5 := (ppduFrames x).foldl (fun t f => frameDone f .ok (stampOut (2 + r) s) t) s4
  withRm r (fun m => { m with navRts := none, eifs := false }) s5

/-- Beside a PPDU of the other link of a non-STR pair, a PPDU is padded to end with it (R170); none where it cannot. -/
def pairUp (r : Nat) (x : TxCur) (s : State) : Option TxCur :=
  let ends := x.users.filterMap fun u => match kget s.mac.sta u.sta with
    | some y => if Nat.land (servedElsewhere u.sta r s) (Config.linkNstr (vget y.block r)) != 0 then otherEnd u.sta r s else none
    | none => none
  match ends with
  | [] => some x
  | t :: l => if l.all (· == t) && x.durNs ≤ 2 * (t - s.now) then some { x with durNs := 2 * (t - s.now) } else none

/-- The furrow's element takes as much longer as its PPDU was padded. -/
def stretch (r add : Nat) (s : State) : State :=
  withRs r (fun k => { k with cur := k.cur.map fun f => { f with elems := (List.range f.elems.length).zipWith (fun i e =>
    if i = f.pos then { e with durNs := e.durNs + add, ppduNs := e.ppduNs + add } else e) f.elems } }) s

/-- A PPDU whose launch instant has come is sent, preceded by its RTS where it asks for one, or fails. -/
def launchNow (r : Nat) (fifo staged blanked : Bool) (x0 : TxCur) (s : State) : State :=
  let x := if x0.rts then rtsPpdu r x0 s else x0
  let s1 := if x0.rts then withRm r (fun m => { m with afterRts := some { x0 with rts := false } }) s else s
  if !fifo then txFailed r .txLate x s1
  else if txRejected r x0 s then txFailed r .aborted x (phyCount r 19 1 s1)
  else match pairUp r x s1 with
    | none => txFailed r .aborted x s1
    | some y => beginPpdu r staged blanked y (if inTxop y.kind && !x0.rts then stretch r (y.durNs - x.durNs) s1 else s1)

/-- TX_PPDU_START: the launch instant of the radio's next PPDU. `fifo`: the DAC FIFO holds 8 symbols. `staged`: staging is
complete (R98). `blanked`: the wake receiver loses a frame in progress (R140). -/
def txPpduStart (r : Nat) (fifo staged blanked : Bool) (s0 : State) : State :=
  if !txReady r s0 then s0
  else
    match nextPpdu r s0 with
    | none => s0
    | some (x, s) =>
      if (vget s.fe r).gnt && !kindProtected x.kind then
        -- A CF-End that the grant holds back is not sent: the TXOP is over.
        if x.kind = .control then coexUpdate r (txFailed r .aborted x (takePpdu r s)) else countWithheld r s
      else
        coexUpdate r (launchNow r fifo staged blanked x
          (withFe r (fun e => { e with withheld := e.withheld && kindProtected x.kind }) (takePpdu r s)))

def execTxPpduStart (r : Radio) (fifo staged blanked : Bool) (s : State) : Host.Outcome State Fault Refusal :=
  whenLive s (txPpduStart (rnum r) fifo staged blanked)

/-- TX_UNDERRUN (R15): the DAC FIFO emptied after the PPDU began, which ends at the next symbol boundary. -/
def txUnderrun (r : Nat) (s : State) : State :=
  match (vget s.fe r).tx with
  | some x => if x.aborted then s else feCount r 1 (withFe r (fun e => { e with tx := some { x with aborted := true } }) s)
  | none => s

def execTxUnderrun (r : Radio) (s : State) : Host.Outcome State Fault Refusal := whenLive s (txUnderrun (rnum r))

/-! A PPDU's end. -/

/-- A station's listen window is open (R179): [S - G, E + G) of its service period, or of the next one of an agreement. -/
def listens (r : Nat) (s : State) : Bool :=
  (s.mac.sta.any fun p => bit p.2.links r && p.2.doze && inListen p.2 s) ||
    s.mac.twt.any fun p => bssRadio p.2.bss == r && tsfOf p.2.bss s < p.2.next && match kget s.mac.sta (p.1 / 8) with
      | some x => x.doze && 1000 * p.2.next ≤ tsfNs p.2.bss s + guardNs x (vget s.mac.bss p.2.bss).drift s
      | none => false

/-- The station interface is awake around the instant it expects a beacon: G before it, G beyond it and its wait (R179, R181). -/
def uplinkAwake (r : Nat) (s : State) : Bool :=
  match (vget s.mac.radio r).uplink with
  | some u =>
    !u.lost && match u.expect with
      | some t =>
        let g := match kget s.mac.sta u.sta with | some x => guardNs x (vget s.mac.bss u.bss).drift s | none => 8000000
        1000 * t ≤ tsfNs u.bss s + g && tsfNs u.bss s < upWindowEnd u t s
      | none => true
  | none => false

/-- What keeps a radio in RX (R85, R179): a response owed or awaited, a TXOP held, a PPDU requested, a running test, or a window to listen in. -/
def staysRx (r : Nat) (s : State) : Bool :=
  let e := vget s.fe r
  e.owesResp || e.awaits || e.txopHeld || !(vget s.mac.radio r).txNext.isEmpty || e.testTx.isSome || listens r s ||
    (uplinkAwake r s && (vget s.mac.radio r).uplink.any (·.ps))

/-- Between exchanges: chain changes and searches that waited take effect (R104, R100), and the radio goes where R85 says once
nothing keeps it in RX. -/
def settle (r : Nat) (s : State) : State :=
  let t := startDue r (chainBoundary r s)
  let e := vget t.fe r
  coexUpdate r (if staysRx r t || e.tx.isSome || e.trans.isSome || e.state != .rx then t else toReturn r t)

/-- Power management states that the exchange just ended carried take effect (R176). -/
def applyDoze (r : Nat) (s : State) : State :=
  (vget s.mac.radio r).agg.fcsOk.foldl (fun t n => raiseSta n t (withSta n (fun x => match x.dozeNext with
    | some d => { x with doze := d, dozeNext := none }
    | none => x) t)) s

/-- The response owed has left, or is not sent (R25): an exchange whose last PPDU it is has ended. -/
def responseSent (r : Nat) (s : State) : State :=
  let t := applyDoze r (withFe r (fun e => { e with owesResp := false }) (withRm r (fun m => { m with respDone := none, commit := none }) s))
  if (vget t.fe r).awaits then elementDone r true t else withRm r (fun m => { m with agg := {} }) t

/-- Response timeout in ns after the device's own PPDU (Table 7.1). -/
def respTimeout (r : Nat) (x : TxCur) (s : State) : Nat :=
  if r ≠ 0 then 29000
  else (if longSlot s then 11000 else 0) + (if x.fmt = 0 then 211000 else 23000)

/-- An NDP has left: its end is the capture time of the feedback, which is due from now (R245). -/
def ndpSent (r : Nat) (x : TxCur) (s : State) : State :=
  match x.sound with
  | some p =>
    if p.step ≠ 1 then s
    else withRb r (fun b => { b with
      ndpS := (vget s.time.tb 2).sec, ndpNs := (vget s.time.tb 2).ns
      sounded := (x.users.zip p.users).foldl (fun m q => kset m q.1.sta (q.2.ng, q.2.nc)) b.sounded }) s
  | none => s

/-- What a PPDU's whole transmission leads to. -/
def txCompleted (r : Nat) (x : TxCur) (s : State) : State :=
  let s := ndpSent r x s
  if x.expects then
    -- A TB PPDU of the station interface is the response its trigger called for.
    withFe r (fun e => { e with awaits := true, owesResp := false })
      (withRm r (fun m => { m with sent := some x, agg := {}, awaitTill := s.now + (extNs r x.fmt + respTimeout r x s) / 2 }) s)
  else
    match x.kind with
    | .edca | .coord => elementDone r true s
    -- The group frames of the BSSs whose DTIM beacon it was may follow (R176).
    | .beacon => (timBsss x.bss s).foldl (fun t i => withBss i (fun b => { b with dtimOpen := b.dtimCount == 0 }) t) s
    | .response => responseSent r s
    | .wur => txopEnd r false false (wurCopySent x.bss s)
    | .test => testTxEnd r s
    | .control => withFe r (fun e => { e with txopHeld := false }) s
    | .launch => s

/-- Return loss of the chains measured (R99): a data field of at least 40 us, at a backoff of at most 20 dB. -/
def measureTx (r : Nat) (x : TxCur) (rl : List Nat) (s : State) : State :=
  if x.durNs - x.preNs < 40000 then s
  else (List.range rl.length).foldl (fun t c =>
    if (vget (vget t.fe r).chains c).backoff + totalDerate (vget (vget t.fe r).chains c) > 40 then t else measureChain r c (rl.getD c 0) t) s

/-- The ramp-down of a PPDU (R95): at most 0.5 us before TX to RX. -/
def rampDownOf (toRx : Bool) (e : RadioFe) : Nat := if toRx then min 5 e.rampDown else e.rampDown

/-- The radio turns to RX after a PPDU (Table 4.10): the trigger applies the staged RX_ON entries, those not yet staged miss it, and
the TX_ON entries are staged anew (R98). -/
def turnToRx (r : Nat) (staged : Bool) (s : State) : State :=
  femEnter r .rx (femTrigger r 1 (withFe r (fun e => { e with state := .rx }) (if staged then s else feCount r 13 s)))

/-- A PPDU's last sample has left: the ramp-down follows, and radio A's blanking of the wake receiver ends after it (R94, R140). -/
def airEnds (r rampDown shape : Nat) (s : State) : State :=
  let t := emit (.airEnd r rampDown shape) s
  if r = 0 then wurUnblank rampDown t else t

/-- TX_PPDU_END (R85, R95, R99): the last sample has left. The radio turns to RX where R85 keeps it there, else goes to its return
state. `returnLoss` holds what each chain's reflectometer read, in 0.5 dB; `staged`: staging is complete. -/
def txPpduEnd (r : Nat) (staged : Bool) (rl : List Nat) (s : State) : State :=
  let e := vget s.fe r
  match e.tx with
  | none => s
  | some x =>
    if e.state != .tx then s
    else
      let s1 := withFe r (fun e => { e with tx := none }) s
      let s2 := if x.aborted then txFailed r .aborted x s1 else txCompleted r x (measureTx r x rl s1)
      let target := mayGo r (vget s2.fe r).ret s2
      let toRx := staysRx r s2 || target == .rx
      let s3 := airEnds r (rampDownOf toRx e) x.shape s2
      settle r (if toRx then turnToRx r staged s3 else withFe r (fun e => { e with trans := some target, locking := false }) s3)

def execTxPpduEnd (r : Radio) (e : TxTail) (s : State) : Host.Outcome State Fault Refusal :=
  whenLive s (txPpduEnd (rnum r) e.staged e.returnLoss)

/-- What a radio that goes to OFF at once leaves: a PPDU on the air ends at the next symbol boundary, a reception and what it called
for are abandoned, and the TXOP is given up (R87, R85). -/
def dropAir (r : Nat) (s : State) : State :=
  let s1 := match (vget s.fe r).tx with
    | some x => txFailed r .aborted x (airEnds r (vget s.fe r).rampDown x.shape (withFe r (fun e => { e with tx := none }) s))
    | none => s
  let s2 := match (vget s1.phy r).rx with | some x => abandonReports r x s1 | none => s1
  let s2 := rxAbandoned r (withPhy r (fun p => { p with rx := none, tail := none }) s2)
  giveUpTxop r (withRm r (fun m => { m with txNext := m.txNext.filter fun x => x.kind != .response }) s2)

/-- The radio goes to OFF at once (R69, R19, R87): a running calibration stops and its segment stays stale. A RADIO_SET_STATE whose
transition already runs is not named by R473: it completes with OK where it led to OFF, else with ABORTED (DESIGN CHOICE, log 89). -/
def radioOffNow (r : Nat) (s : State) : State :=
  let e := vget s.fe r
  let s1 := match e.cal, e.calCmd with
    | some _, some c => finish c.handle .aborted [] (withFe r (fun e => { e with calCmd := none }) s)
    | _, _ => s
  let s2 := match e.stateRun with
    | some h => finish h (if e.trans = some .off then .ok else .aborted) [] (withFe r (fun e => { e with stateRun := none }) s1)
    | none => s1
  let s3 := dropAir r (offEnds r (withFe r (fun e => { e with cal := none, calPending := none }) s2))
  settle r (femEnter r .off (withFe r (fun e => { e with
    state := .off, trans := none, goal := none, powering := false, locking := false, relocked := false, owesResp := false, awaits := false
    txopHeld := false }) s3))

/-- RESPONSE_TIMEOUT (R146): the window [E, E + timeout) ends with no preamble detected in it. -/
def responseTimeout (r : Nat) (s : State) : State :=
  if !(vget s.fe r).awaits || (vget s.fe r).owesResp || s.now < (vget s.mac.radio r).awaitTill ||
      (match (vget s.phy r).rx with | some x => x.inWin | none => false) || (vget s.phy r).tail.any (fun x => x.inWin && !x.judged) then s
  else settle r (exchangeFail r s)

def execResponseTimeout (r : Radio) (s : State) : Host.Outcome State Fault Refusal := whenLive s (responseTimeout (rnum r))

/-! Clear channel assessment and the NAV. -/

/-- CCA_CHANGE (R147): power on a 20 MHz subchannel, and whether a PPDU occupies it. -/
def ccaChange (r sub : Nat) (power : Int) (ppdu : Bool) (s : State) : State :=
  let e := vget s.fe r
  let m := vget s.mac.radio r
  let busy := if sub = e.prim then power ≥ m.edPri else power ≥ m.edSec || (ppdu && power ≥ m.sdSec)
  if sub ≥ 2 ^ e.bw then s
  else coexUpdate r (withRm r (fun m => { m with
    energy := maskOf ((List.range 16).map fun i => if i = sub then busy else bit m.energy i)
    subAt := if bit m.energy sub && !busy then vset m.subAt sub s.now else m.subAt }) s)

def execCcaChange (r : Radio) (sub : Fin 16) (power : Int) (ppdu : Bool) (s : State) : Host.Outcome State Fault Refusal :=
  whenLive s (ccaChange (rnum r) sub power ppdu)

/-- NAV_RTS_TIMEOUT (R153): no PPDU started after the RTS that set a NAV. -/
def navRtsTimeout (r : Nat) (s : State) : State :=
  idleUpdate r <| withRm r (fun m => match m.navRts with
    | some true => { m with navIntra := none, navRts := none }
    | some false => { m with navBasic := none, navRts := none }
    | none => m) s

def execNavRtsTimeout (r : Radio) (s : State) : Host.Outcome State Fault Refusal := whenLive s (navRtsTimeout (rnum r))

/-- NAV_EXPIRY: the time a NAV was set to has passed. -/
def navExpiry (r : Nat) (intra : Bool) (s : State) : State :=
  idleUpdate r (withRm r (fun m =>
    if intra then (if m.navIntraEnd ≤ s.now then { m with navIntra := none } else m)
    else if m.navBasicEnd ≤ s.now then { m with navBasic := none } else m) s)

def execNavExpiry (r : Radio) (intra : Bool) (s : State) : Host.Outcome State Fault Refusal := whenLive s (navExpiry (rnum r) intra)

/-! Lifetimes and latency. -/

/-- Marks the oldest unmarked MSDU of a queue that a furrow claims. -/
def markClaimed (n tid why : Nat) (f : Furrow) : Furrow :=
  { f with users := f.users.map fun u =>
      if u.sta = n && f.queue.isNone then
        { u with frames := (u.frames.foldl (fun p x =>
            if !p.2 && x.1 == tid && x.2.lost.isNone then (p.1 ++ [(x.1, { x.2 with lost := some why })], true) else (p.1 ++ [x], p.2))
            (([] : List (Nat × Frame)), false)).1 }
      else u }

/-- A furrow claims an unmarked MSDU of a station's TID. -/
def claimsTid (n tid : Nat) (f : Furrow) : Bool :=
  f.queue.isNone && f.users.any fun u => u.sta == n && u.frames.any fun p => p.1 == tid && p.2.lost.isNone

/-- A frame held for a locked key ends its hold at its lifetime (R403): KEY_HOLD_DROP and KEY_EXHAUSTED. -/
def lifetimeStatus (held : Bool) : Status := if held then .keyExhausted else .timeout

/-- A frame has been queued longer than its AC's lifetime on a radio (R158), by TB2. -/
def outlived (r a : Nat) (f : Frame) (s : State) : Bool := tbTotal 2 s > f.enq + vget (vget s.mac.radio r).lifeMs a * 1000000

/-- MSDU_LIFETIME_EXPIRY (R158): the oldest MSDU of a queue has been queued longer than its AC's lifetime; one that a furrow of any radio
claims is removed when the furrow starts (R206). Queues 8,192 and above are the group queues. -/
def lifetimeExpiry (q : Nat) (s : State) : State :=
  if q ≥ 8192 then
    let g := q - 8192
    let r := bssRadio (g / 4)
    let held := (vget s.mac.bss (g / 4)).held
    match groupQueue g s with
    | [] => s
    | f :: rest =>
      if !outlived r (g % 4) f s then s
      else frameDone f (lifetimeStatus held) [] (cwLow r (g % 4) ((if held then secCount 13 1 else macCount r 3 1) (setGroupQueue g rest s)))
  else
    let n := q / 8
    let tid := q % 8
    match kget s.mac.sta n with
    | none => s
    | some x =>
      let r := staRadio x tid
      let claims (f : Option Furrow) : Bool := match f with
        | some f => claimsTid n tid f && (furrowTid n tid (some f)).any fun g => g.lost.isNone && outlived r (acOfTid tid) g s
        | none => false
      match (List.range 3).find? fun i => claims (vget s.sched.radio i).ready || claims (vget s.sched.radio i).building with
      | some i =>
        if claims (vget s.sched.radio i).ready then withRs i (fun k => { k with ready := k.ready.map (markClaimed n tid 0) }) s
        else withRs i (fun k => { k with building := k.building.map (markClaimed n tid 0) }) s
      | none =>
        match tidQueue q s with
        | [] => s
        | f :: rest =>
          if !outlived r (acOfTid tid) f s then s
          else
            let t := setTidQueue q rest s
            if x.held then dropMsdu r n tid .keyExhausted f (cwLow r (acOfTid tid) (secCount 13 1 t)) else lifeDrop r n tid f t

def execMsduLifetimeExpiry (q : Fin 8384) (s : State) : Host.Outcome State Fault Refusal := whenLive s (lifetimeExpiry q)

/-- LL_URGENT (R192): T_LL / 2 has passed for the head of a queue, or since a station's last uplink RU for a TID, by TB2. -/
def llUrgent (uplink : Bool) (q : Nat) (s : State) : State :=
  match kget s.mac.sta (q / 8) with
  | none => s
  | some x =>
    let half := vget x.tll (q % 8) * 50000
    if half = 0 then s
    else if uplink then
      if demandKnown (staRadio x (q % 8)) x s (acOfTid (q % 8)) && (vget x.demand (acOfTid (q % 8))).getD 0 > 0 && tbTotal 2 s ≥ vget x.lastUlRu (q % 8) + half then
        withSta (q / 8) (fun x => { x with ulUrgent := maskOf ((List.range 8).map fun i => bit x.ulUrgent i || i == q % 8) }) s
      else s
    else
      match tidQueue q s with
      | f :: _ => if tbTotal 2 s ≥ f.enq + half then withSched (fun c => { c with urgent := kset c.urgent q f.enq }) s else s
      | [] => s

def execLlUrgent (uplink : Bool) (q : Fin 8192) (s : State) : Host.Outcome State Fault Refusal := whenLive s (llUrgent uplink q)

/-- LL_DEADLINE (R192): an uplink TID's deadline passes without an RU: LL_MISS, once for the deadline; the TID stays urgent until it has an RU.
A downlink miss counts as its MSDU is acknowledged or dropped. -/
def llDeadline (uplink : Bool) (q : Nat) (s : State) : State :=
  match kget s.mac.sta (q / 8) with
  | none => s
  | some x =>
    let t := vget x.tll (q % 8)
    if uplink && bit x.ulUrgent (q % 8) && !bit x.ulMissed (q % 8) && t > 0 && tbTotal 2 s ≥ vget x.lastUlRu (q % 8) + t * 100000 then
      schedCount (staRadio x (q % 8)) 13 1 (withSta (q / 8) (fun x => { x with
        ulMissed := maskOf ((List.range 8).map fun i => bit x.ulMissed i || i == q % 8) }) s)
    else s

def execLlDeadline (uplink : Bool) (q : Fin 8192) (s : State) : Host.Outcome State Fault Refusal := whenLive s (llDeadline uplink q)

/-- UL_HOLD_END (R203): 200 ms have passed; the next trigger is a BSRP for the station. -/
def execUlHoldEnd (sta : Fin 1024) (s : State) : Host.Outcome State Fault Refusal :=
  whenLive s fun s => withSta sta (fun x => if x.ulHold && x.ulHoldTill ≤ s.now then { x with ulHold := false, ulPoll := true } else x) s

end Sys2Proof.Machine
end

