-- ==== Sys2Proof/Machine/RxPath.lean ====
section
/-!
DEFINITION. Receiving (spec/07_medium_access.md R153, R157 to R167, R176 to R183; spec/01_architecture.md R14, R22 to R26): the MPDUs
of a PPDU, its end, and the response it calls for.
-/
namespace Sys2Proof.Machine
open Sys2Proof

def withRouter (f : Router → Router) (s : State) : State := { s with router := f s.router }
def rtCount (i k : Nat) (s : State) : State := withRouter (fun x => { x with ctr := vadd x.ctr i k }) s

/-- A frame reaches the router's input (R340). -/
def toRouter (f : Frame) (s : State) : State := withRouter (fun x => { x with inq := x.inq ++ [f] }) s

/-- A frame on its way to a receive ring (R56). -/
def toRing (n : Nat) (f : Frame) (s : State) : State := { s with rings := { s.rings with rxq := vmod s.rings.rxq n (· ++ [f]) } }

/-! SIG validation with spatial reuse (R148). -/

/-- An inter-BSS HE or EHT PPDU below OBSS_PD whose TXOP would not set the NAV: it may be ignored (R148). -/
def reuses (r : Nat) (g : SigInfo) (x : RxCur) (s : State) : Bool :=
  let m := vget s.mac.radio r
  match g.obss with
  | some level =>
    x.valid && m.obssPd > -82 && atAntenna x.femGain level < 2 * m.obssPd && 5 ≤ g.fmt &&
      (g.txop == 0 || (m.navBasic.isSome && x.endAt + g.txop * 500 ≤ m.navBasicEnd))
  | none => false

/-- SIG_VALIDATE (R114 to R117, R122): validation; a failed common field abandons the users; and spatial reuse ends the busy state,
with transmissions limited to the PPDU's end (R148). -/
def sigStep (r : Nat) (g : SigInfo) (s : State) : State :=
  let fresh := match (vget s.phy r).rx with | some x => !x.valid && !x.failed | none => false
  let t := if fresh then lateReports r (sigValidate r g s) else s
  match (vget t.phy r).rx with
  | some x =>
    if fresh && reuses r g x t then
      withRm r (fun m => { m with obssCap := some (21 - (m.obssPd + 82), x.endAt) }) (withRx r (fun x => { x with obss := true, skip := true }) t)
    else t
  | none => t

def execSigValidate (r : Radio) (g : SigInfo) (s : State) : Host.Outcome State Fault Refusal :=
  whenLive s fun s => coexUpdate (rnum r) (sigStep (rnum r) g s)

/-! Who a frame is for. -/

def groupAddr (a : List Byte) : Bool := bit (u8 a 0) 0

/-- The radio's BSS of an address. -/
def bssOfAddr (r : Nat) (a : List Byte) (s : State) : Option Nat :=
  ((List.range 16).map (16 * r + ·)).find? fun b => (vget s.mac.bss b).en && (vget s.mac.bss b).bssid == a

/-! Delivery (R163, R167, R407). -/

/-- The ring a station's TID is streamed to, with STREAM_MIN (R407). -/
def streamOf (f : Frame) (s : State) : Option (Nat × Nat) := (kget s.mac.sta f.sta).bind fun x => kget x.stream f.tid

/-- An unprotected or verified MSDU goes to its stream's ring, else to the router. -/
def deliverPlain (f : Frame) (s : State) : State :=
  match (if f.raw then none else streamOf f s) with
  | some (n, _) => toRing n f (secCount 3 1 s)
  | none => toRouter f s

/-- A released MPDU goes on to decryption, or to `dest` (RX_MPDU_DELIVERED). -/
def passOn (r : Nat) (dest : Frame → State → State) (f : Frame) (s : State) : State :=
  let t := macCount r 8 1 s
  match f.keyId with
  | some _ => withSec (fun x => { x with jobs := x.jobs ++ [{ kind := .rxAir, unit := r, slot := f.slot, frame := f }] }) t
  | none => dest f t

/-- A released MPDU of data. -/
def passUp (r : Nat) (f : Frame) (s : State) : State := passOn r deliverPlain f s

/-- The frame an MPDU carries. -/
def mpduFrame (r bss : Nat) (from_ : Option Nat) (x : RxCur) (m : Mpdu) (s : State) : Frame :=
  let data := m.kind == .data
  let own := (from_.bind fun n => kget s.mac.sta n).bind fun y => kget y.rxKey m.keyId
  let key := match own with | some k => some k | none => kget (vget s.mac.bss bss).rxKey m.keyId
  { bytes := if data then m.body else m.whole, src := 0, port := r, bss := bss, sta := from_.getD 0x3FF, tid := m.tid
    unassoc := from_.isNone, raw := !data, mgmt := !data, da := m.da, sa := m.sa
    stamps := x.stamps
    arrived := s.now, sn := some m.seq.toNat, frag := m.frag.toNat, pn := m.pn
    keyId := if m.prot then some m.keyId else none, slot := if m.prot then key else none }

/-! Receive sessions (R163, R164). -/

/-- Distance of a sequence number from a window's start. -/
def snDist (start sn : Nat) : Nat := (sn + 4096 - start) % 4096

/-- WinStart moves `k` numbers on: what was held below it is released in order. -/
def advanceWin (r q k : Nat) (s : State) : State :=
  match kget s.mac.ba q with
  | none => s
  | some b =>
    let out := (List.range k).filterMap fun i => kget b.held ((b.start + i) % 4096)
    let nb : BaSess := { b with start := (b.start + k) % 4096
                                seen := b.seen.filter fun n => snDist b.start n ≥ k
                                held := b.held.filter fun p => snDist b.start p.1 ≥ k }
    out.foldl (fun t f => passUp r f t) (withMac (fun m => { m with ba := kset m.ba q nb }) s)

/-! Management frames that Builmin handles (R183). -/

/-- DELBA: a receive session ends and what it held is released in order, or a transmit session ends. -/
def delba (r q : Nat) (initiator : Bool) (s : State) : State :=
  if initiator then withMac (fun m => { m with ba := kdel m.ba q }) (advanceWin r q 1024 s) else withMac (fun m => { m with txBa := kdel m.txBa q }) s

/-- ADDBA Response: the session asked for is granted with the peer's buffer size, or is refused. -/
def addbaGranted (q status size : Nat) (s : State) : State :=
  if status = 0 ∧ khas s.mac.txBa q = true then withMac (fun m => { m with txBa := kset m.txBa q { agreed := true, win := if size = 0 then 64 else min 1024 size } }) s
  else s

/-- A station's action frame that Builmin handles, by category and action (IEEE 802.11), and its effect; ADDBA and TWT Setup Requests and SA
Query have commands of their own. None for every other frame. -/
def builminAction (f : Frame) (s : State) : Option State :=
  let b := f.bytes
  if f.unassoc || !f.mgmt || u8 b 0 != 0xD0 then none
  else match u8 b 24, u8 b 25 with
    | 3, 0 | 8, 0 | 22, 6 => some s
    | 3, 1 => some (addbaGranted (8 * f.sta + bits (be16 b 29) 2 4 % 8) (be16 b 27) (bits (be16 b 29) 6 10) s)
    | 3, 2 => some (delba f.port (8 * f.sta + bits (be16 b 26) 12 4 % 8) (bit (be16 b 26) 11) s)
    | _, _ => none

/-- A frame in the clear goes to Builmin, to its stream's ring, or to the router. -/
def deliverClear (f : Frame) (s : State) : State :=
  match builminAction f s with
  | some t => t
  | none => deliverPlain f s

/-- A released management MPDU. -/
def passMgmt (r : Nat) (f : Frame) (s : State) : State := passOn r deliverClear f s

/-- Numbers accepted in a row from a start. -/
def runLen (seen : List Nat) : (fuel : Nat) → Nat → Nat
  | 0, _ => 0
  | n + 1, sn => if seen.contains sn then 1 + runLen seen n ((sn + 1) % 4096) else 0

/-- Numbers missing from a start before the first accepted one. -/
def gapLen (seen : List Nat) : (fuel : Nat) → Nat → Nat
  | 0, _ => 0
  | n + 1, sn => if seen.contains sn then 0 else 1 + gapLen seen n ((sn + 1) % 4096)

/-- Releases what stands in order at the window's start. -/
def releaseRun (r q : Nat) (s : State) : State :=
  match kget s.mac.ba q with
  | none => s
  | some b => advanceWin r q (runLen b.seen 1024 b.start) s

/-- An MPDU is accepted into its session: held, or released with what follows it. -/
def acceptSn (r q : Nat) (f : Frame) (sn : Nat) (s : State) : State :=
  releaseRun r q (withMac (fun m => { m with ba := kmod m.ba q fun b =>
    { b with seen := b.seen ++ [sn], held := kset b.held sn f } }) s)

/-- An MPDU enters the response scoreboard (R23, R157). -/
def score (r n tid sn : Nat) (s : State) : State :=
  withRm r (fun m => { m with agg := { m.agg with board := m.agg.board ++ [(n, tid, sn)] } }) s

/-- Table 7.5. -/
def placeMpdu (r n tid : Nat) (b : BaSess) (f : Frame) (sn : Nat) (s : State) : State :=
  let q := 8 * n + tid
  let d := snDist b.start sn
  if d < b.win then
    if b.seen.contains sn then macCount r 9 1 (score r n tid sn s) else acceptSn r q f sn (score r n tid sn s)
  else if d ≤ 2047 then acceptSn r q f sn (advanceWin r q (d + 1 - b.win) (score r n tid sn s))
  else macCount r 10 1 s

/-- Duplicate rejection outside a session (R165): the key of the last numbers accepted. -/
def isDup (k : Nat) (m : Mpdu) (s : State) : Bool := m.retry && kget s.mac.dup k == some (m.seq.toNat, m.frag.toNat)

def noteSeq (k : Nat) (m : Mpdu) (s : State) : State := withMac (fun x => { x with dup := kset x.dup k (m.seq.toNat, m.frag.toNat) }) s

/-! Reassembly (R160). -/

/-- One fragment: the MSDU it completes, if any. -/
def defragStep (r q : Nat) (m : Mpdu) (f : Frame) (s : State) : Option Frame × State :=
  let drop (t : State) : State := withMac (fun x => { x with defrag := kdel x.defrag q }) t
  if m.frag = 0 then
    let t := if khas s.mac.defrag q then macCount r 13 1 s else s
    (none, withMac (fun x => { x with defrag := kset x.defrag q { sn := m.seq.toNat, next := 1, frame := f } }) t)
  else
    match kget s.mac.defrag q with
    | none => (none, s)
    | some d =>
      if d.sn ≠ m.seq.toNat ∨ d.next ≠ m.frag.toNat then (none, macCount r 13 1 (drop s))
      else
        let g := { d.frame with bytes := d.frame.bytes ++ f.bytes, pn := f.pn, pns := d.frame.pns ++ [d.frame.pn] }
        if m.more then (none, withMac (fun x => { x with defrag := kset x.defrag q { d with next := d.next + 1, frame := g } }) s)
        else (some g, drop s)

/-! Uplink demand (R201) and power save (R176). -/

/-- Reports of queue size replace the demand; other data is taken from it. -/
def noteDemand (n : Nat) (m : Mpdu) (s : State) : State :=
  raiseSta n s <| withSta n (fun x =>
    let y := if m.bsr.isEmpty then x else
      { x with demandAt := m.bsr.foldl (fun v p => vset v p.1 s.now) x.demandAt, demand := m.bsr.foldl (fun v p => vset v p.1 (some p.2)) x.demand }
    let a := acOfTid m.tid
    if m.kind = .data then
      { y with lastData := some s.now
               demand := if m.bsr.any (·.1 == a) then y.demand else vmod y.demand a fun d => d.map (· - m.body.length) }
    else y) s

/-- A dozing station asks for delivery of some ACs, of one frame or of all that is buffered; nothing where nothing is (R176). -/
def askDelivery (n acs : Nat) (one : Bool) (s : State) : State :=
  if (List.range 4).any fun a => bit acs a && acQueued n a s then raiseSta n s (withMac (fun m => { m with psReq := kset m.psReq n (acs, one) }) s) else s

/-- ACs of a station's link that use U-APSD. -/
def uapsdAcs (r : Nat) (x : Sta) : Nat := maskOf ((List.range 4).map (Config.linkUapsd (vget x.block r)))

/-- The power-management bit, and a U-APSD trigger frame of a dozing station. -/
def notePower (r n : Nat) (m : Mpdu) (s : State) : State :=
  let t := withSta n (fun x => { x with dozeNext := some m.pm }) s
  match kget s.mac.sta n with
  | some x => if x.doze && m.pm && m.qos && bit (uapsdAcs r x) (acOfTid m.tid) then askDelivery n (uapsdAcs r x) false t else t
  | none => t

/-- A PS-Poll asks for one frame of the ACs that do not use U-APSD, or of any where all use it. -/
def psPoll (r n : Nat) (s : State) : State :=
  match kget s.mac.sta n with
  | some x => if x.doze then askDelivery n (if uapsdAcs r x = 15 then 15 else 15 - uapsdAcs r x) true s else s
  | none => s

/-! NAV (R153). -/

/-- A frame of one of the radio's BSSs or of the upstream BSS, by any of its addresses: intra-BSS (R153, R180). -/
def intraBss (r : Nat) (m : Mpdu) (s : State) : Bool :=
  [m.ra, m.ta, m.bssid].any fun a => (bssOfAddr r a s).isSome || (upstreamOf r a s).isSome

/-- A Duration value in a frame not for the device: the NAV concerned is set where it extends it. -/
def navUpdate (r : Nat) (m : Mpdu) (s : State) : State :=
  let x := vget s.mac.radio r
  if m.kind = .cfEnd then
    withRm r (fun y => { y with
      navBasic := y.navBasic.filter (· != m.ta), navIntra := y.navIntra.filter (· != m.ta) }) s
  else if m.dur = 0 then s
  else
    let till := s.now + m.dur * 500
    let intra := intraBss r m s
    let rts := if m.kind = .rts then some intra else x.navRts
    if intra then
      if x.navIntra.isNone || till > x.navIntraEnd then
        macCount r 18 1 (withRm r (fun y => { y with navIntra := some m.ta, navIntraEnd := till, navRts := rts }) s)
      else s
    else if x.navBasic.isNone || till > x.navBasicEnd then
      macCount r 18 1 (withRm r (fun y => { y with navBasic := some m.ta, navBasicEnd := till, navRts := rts }) s)
    else s

/-! What each kind of MPDU does. -/

/-- The station interface answers its access point: the link is not lost, and it is awake (R179, R182). -/
def answersUp (r : Nat) (ta : List Byte) (s : State) : Bool := (upstreamOf r ta s).any fun u => !u.lost && (!u.ps || uplinkAwake r s)

/-- The response an MPDU for the device asks for. A CTS is given only while both NAVs are clear; a trigger or a single-user sounding is
answered only by a station interface, to its upstream access point (R180, R246). -/
def askResponse (r : Nat) (n : Option Nat) (m : Mpdu) (s : State) : State :=
  let x := vget s.mac.radio r
  let ok := m.soft != 0 && !(m.soft == 3 && (x.navBasic.isSome || x.navIntra.isSome)) &&
    ((m.soft != 4 && m.soft != 6) || answersUp r m.ta s)
  if ok then withRm r (fun y => { y with agg := { y.agg with resp := m.soft, sta := n.getD 0x3FF, dur := m.dur } }) s else s

/-- A management frame goes to Builmin or to the host (R183). -/
def rxMgmt (r bss : Nat) (from_ : Option Nat) (unicast : Bool) (x : RxCur) (m : Mpdu) (s : State) : State :=
  let f := mpduFrame r bss from_ x m s
  match from_ with
  | some n =>
    if unicast && isDup (8192 + n) m s then macCount r 9 1 (score r n m.tid m.seq.toNat s)
    else passMgmt r f (if unicast then noteSeq (8192 + n) m (score r n m.tid m.seq.toNat s) else s)
  | none => passMgmt r f (if unicast then score r 0x3FF m.tid m.seq.toNat s else s)

/-- An MSDU that has all its fragments, outside a session or in it. -/
def rxData (r bss : Nat) (from_ : Option Nat) (x : RxCur) (m : Mpdu) (s : State) : State :=
  let f := mpduFrame r bss from_ x m s
  match from_ with
  | none => passUp r f (score r 0x3FF m.tid m.seq.toNat s)
  | some n =>
    let q := 8 * n + m.tid
    let k := if m.qos then q else 8192 + n
    let whole := m.frag = 0 ∧ m.more = false
    match (if m.qos && decide whole then kget s.mac.ba q else none) with
    | some b => placeMpdu r n m.tid b f m.seq.toNat s
    | none =>
      let t := score r n m.tid m.seq.toNat s
      if isDup k m s then macCount r 9 1 t
      else if whole then passUp r f (noteSeq k m t)
      else
        let p := defragStep r q m f (noteSeq k m t)
        match p.1 with
        | some g => passUp r g p.2
        | none => p.2

/-- A beacon of the upstream access point (R180, R181, R335): the run of misses ends, the expected TBTTs are retuned to its Timestamp, its EDCA
parameters hold, and the TSF offset is rewritten. -/
def rxUpstreamBeacon (r : Nat) (u : Uplink) (p : RxCur) (m : Mpdu) (s : State) : State :=
  let per := u.interval * 1024
  let adv := (Config.beaconEdca (m.whole.drop 24)).map fun e => ({ aifsn := e.1, ecwMin := e.2.1, ecwMax := e.2.2.1, txop := e.2.2.2 } : Edca)
  let t := if u.lost then s else
    withRm r (fun y => { y with uplink := some { u with
      misses := 0, expect := if per = 0 then none else some ((m.tsf.toNat / per + 1) * per), edca := if adv.isEmpty then u.edca else adv } }) s
  let x := vget s.mac.bss u.bss
  let at_ := p.stamps.getD x.tsfTb 0
  withBss u.bss (fun b => { b with tsfOffset := m.tsf - BitVec.ofNat 64 (at_ / 1000) }) t

/-- Our frames that an acknowledgement covers: an Ack the MPDUs of the PPDU sent last, a Block Ack those it reports. -/
def noteAcks (r : Nat) (from_ : Option Nat) (m : Mpdu) (s : State) : State :=
  let x := vget s.mac.radio r
  match x.sent with
  | none => s
  | some p =>
    let n := match from_ with | some n => n | none => match p.users with | u :: _ => u.sta | [] => 0x3FF
    let got : List (Nat × Nat × Nat) :=
      if m.kind = .ack then p.users.flatMap fun u => if u.sta = n then u.frames.filterMap fun f => f.sn.map fun k => (n, f.tid, k) else []
      else m.acks.map fun a => (n, a.1, a.2)
    withRm r (fun y => { y with agg := { y.agg with acked := y.agg.acked ++ got, answered := y.agg.answered ++ [n] } }) s

/-- An MPDU for the device, by its kind. -/
def rxForUs (r bss : Nat) (from_ : Option Nat) (x : RxCur) (m : Mpdu) (s : State) : State :=
  match m.kind with
  | .data => rxData r bss from_ x m s
  | .nullData => match from_ with | some n => score r n m.tid m.seq.toNat s | none => s
  | .mgmt | .beacon => rxMgmt r bss from_ true x m s
  | .rts => s
  | .cts => withRm r (fun y => { y with agg := { y.agg with cts := true } }) s
  | .ack | .blockAck => noteAcks r from_ m s
  | .bar =>
    match from_ with
    | some n =>
      match kget s.mac.ba (8 * n + m.tid) with
      | some b =>
        let t := withRm r (fun y => { y with agg := { y.agg with bars := y.agg.bars ++ [(n, m.tid, m.ssn.toNat)] } }) s
        if snDist b.start m.ssn.toNat < 2048 then
          releaseRun r (8 * n + m.tid) (advanceWin r (8 * n + m.tid) (snDist b.start m.ssn.toNat) t) else t
      | none => s
    | none => s
  | .psPoll => match from_ with | some n => psPoll r n s | none => s
  | .trigger => withRm r (fun y => { y with agg := { y.agg with room := (m.bsr.map (·.2)).sum } }) s
  | .cfEnd | .other => s

/-- The receive stamp of the PPDU is contact with its sender (R178). -/
def noteContact (r n : Nat) (x : RxCur) (s : State) : State :=
  withSta n (fun y => { y with contactS := x.stamps.getD 2 0 / 10 ^ 9, contactNs := x.stamps.getD 2 0 % 10 ^ 9 })
      (withRm r (fun m => { m with agg := { m.agg with fcsOk := if m.agg.fcsOk.contains n then m.agg.fcsOk else m.agg.fcsOk ++ [n] } }) s)

/-- A trigger not addressed to the device alone: its upstream access point's is the station interface's to answer (R180); another one's names the
RUs in which its clients answer (R251). -/
def hearTrigger (r bss : Nat) (from_ : Option Nat) (x : RxCur) (m : Mpdu) (s : State) : State :=
  if (upstreamOf r m.ta s).isSome then askResponse r from_ m (rxForUs r bss from_ x m s)
  else withRm r (fun y => { y with trigSeen := true }) s

/-- An MPDU whose FCS passed. -/
def mpduGood (r : Nat) (x : RxCur) (s : State) (m : Mpdu) : State :=
  let from_ := senderOf r m.ta s
  let us := bssOfAddr r m.ra s
  let s1 := match from_ with | some n => noteContact r n x s | none => s
  let s2 := match m.kind, upstreamOf r m.ta s with | .beacon, some u => rxUpstreamBeacon r u x m s1 | _, _ => s1
  match us with
  | some b =>
    if m.full && m.kind == .data then
      -- No room in the radio's memory: dropped, and acknowledged all the same (R369).
      let t := rtCount 24 1 (match from_ with | some n => score r n m.tid m.seq.toNat s2 | none => s2)
      askResponse r from_ m t
    else
      let s3 := match from_ with
        | some n => if m.kind == .data || m.kind == .nullData || m.kind == .mgmt then notePower r n m (noteDemand n m s2) else s2
        | none => s2
      askResponse r from_ m (rxForUs r b from_ x m s3)
  | none =>
    let s3 := navUpdate r m s2
    if groupAddr m.ra then
      let b := (bssOfAddr r m.bssid s).getD (match (vget s.mac.radio r).uplink with | some u => u.bss | none => 16 * r)
      match m.kind with
      | .mgmt | .beacon => rxMgmt r b from_ false x m s3
      -- Group data is taken by the station interface alone.
      | .data => if (upstreamOf r m.ta s).isSome then passUp r (mpduFrame r b from_ x m s) s3 else s3
      | .trigger => hearTrigger r b from_ x m s3
      | _ => s3
    else if m.kind == .trigger then hearTrigger r (16 * r) from_ x m s3
    else s3

/-- A converter FIFO overflow (R14): the PPDU is discarded whole, its MPDUs unseen by the MAC, and the search resumes. -/
def rxOverflow (r : Nat) (x : RxCur) (s : State) : State :=
  settle r (rxAbandoned r (feCount r 0 (withPhy r (fun p => { p with rx := none }) (abandonReports r x s))))

/-- What Table 5.11 and its FCS make of an MPDU: the counter it counts, if any, and whether it failed or passed. -/
inductive MpduFate where
  | ignored | failed (ctr : Nat) | good
  deriving DecidableEq, Repr

/-- An MPDU of a user whose data is decoded, by Table 5.11. -/
def mpduFate (r : Nat) (x : RxCur) (m : Mpdu) (s : State) : MpduFate :=
  match x.users[m.user]? with
  | none => .ignored
  | some u =>
    if !x.valid || x.skip || u.bad || userUnsup r x.fmt x.users u s then .ignored
    else if x.fmt ≥ 4 && m.start ≥ psduLimit x.fmt then .failed 14
    else if m.len = 0 then .ignored
    else if m.len < 14 then .failed 12
    else if m.len > mpduLimit x.fmt then .failed 13
    else if m.fcsOk then .good else .failed 10

/-! The exchange after a PPDU. -/

/-- The exchange that awaited this PPDU got what it expected (R146). -/
def gotExpected (r : Nat) (x : TxCur) (s : State) : Bool :=
  let g := (vget s.mac.radio r).agg
  if x.code == 0 then g.cts || !g.tb.isEmpty
  else if x.code = 1 then !g.tb.isEmpty || !g.fcsOk.isEmpty
  else if x.code = 4 ∨ x.code = 5 ∨ x.code = 6 then !g.tb.isEmpty || !g.answered.isEmpty
  else !g.answered.isEmpty || !g.acked.isEmpty

/-- A response arrived: an RTS is followed by its PPDU, a furrow element ends, MPDUs of a TB PPDU or of a launch-timed frame have their outcome. -/
def responseGot (r : Nat) (x : TxCur) (s : State) : State :=
  match (vget s.mac.radio r).afterRts with
  | some y => withFe r (fun e => { e with awaits := false }) (withRm r (fun m => { m with sent := none, agg := {}, afterRts := none, txNext := y :: m.txNext }) s)
  | none =>
    match x.kind with
    | .edca | .coord => elementDone r true s
    | .response | .launch =>
      let g := (vget s.mac.radio r).agg
      let t := withFe r (fun e => { e with awaits := false }) (withRm r (fun m => { m with sent := none, agg := {} }) s)
      emlsrRest r (x.users.map (·.sta)) <| x.users.foldr (fun u v => u.frames.foldr (fun f w =>
        if isAcked g.acked u.sta (f.tid, f) then ackedFrame r u.sta (f.tid, f) w else retryFrame r u.sta (f.tid, f) w) v) t
    | .beacon | .test | .wur | .control =>
      withFe r (fun e => { e with awaits := false }) (withRm r (fun m => { m with sent := none, agg := {} }) s)

/-- What the PPDU that ended means for the exchange (R146), once its results are in or C is reached: an exchange that awaited it has its
response or fails; where the PPDU itself calls for a response, the exchange goes on to it. -/
def judgePpdu (r : Nat) (x : RxCur) (s : State) : State :=
  let m := vget s.mac.radio r
  if (vget s.fe r).awaits then
    match m.sent with
    | some y =>
      if x.inWin && gotExpected r y s then (if m.commit.isSome then s else responseGot r y s)
      else if m.commit.isSome then failOwing r s
      else exchangeFail r s
    | none => if m.commit.isSome then failOwing r s else exchangeFail r s
  else if m.commit.isSome then s
  else withRm r (fun m => { m with agg := {} }) s

/-- The PPDU's results are in: it is judged, and where no response is owed the exchange has ended. -/
def closePpdu (r : Nat) (x : RxCur) (s : State) : State :=
  if (vget s.mac.radio r).commit.isSome then coexUpdate r (judgePpdu r x s)
  else settle r (judgePpdu r x (applyDoze r s))

/-- EIFS holds in place of AIFS after a reception that ended with an FCS failure and nothing received correctly (R145). -/
def noteEifs (r : Nat) (x : RxCur) (s : State) : State := withRm r (fun m => { m with eifs := x.fcsBad && x.got.isEmpty }) s

/-- A result that finishes after its PPDU's end (R22 to R24): it enters the scoreboard until C; after C its sequence number and its frame
are taken all the same, so that a retransmission is a duplicate. -/
def lateResult (r : Nat) (x : RxCur) (m : Mpdu) (s : State) : State :=
  let t := match mpduFate r x m s with
    | .ignored => s
    | .failed k => phyCount r k 1 s
    | .good =>
      let g := (vget s.mac.radio r).agg
      let u := mpduGood r x (phyCount r 9 1 s) m
      if x.judged then withRm r (fun y => { y with agg := g }) u else u
  let fate := mpduFate r x m s
  let y := { x with due := x.due - 1, fcsBad := x.fcsBad || fate == .failed 10, got := if fate == .good then x.got ++ [m] else x.got }
  let left := noteEifs r y <| idleUpdate r (withPhy r (fun p => { p with tail := if y.due = 0 then none else some y }) t)
  if y.due = 0 && !x.judged then closePpdu r y left else left

/-- MPDU_RX: an MPDU's FCS and size checks finish (R23, Table 5.11). What passes is kept until its PPDU ends, for an overflow discards
the PPDU whole (R14). -/
def mpduRx (r : Nat) (m : Mpdu) (s : State) : State :=
  if m.old then
    match (vget s.phy r).tail with
    | some x => lateResult r x m s
    | none => s
  else
    match (vget s.phy r).rx with
    | none => s
    | some x =>
      if m.overflow then rxOverflow r x s
      else
        match mpduFate r x m s with
        | .ignored => s
        | .failed k => phyCount r k 1 (withRx r (fun x => { x with bad := x.bad ++ [m.user], fcsBad := x.fcsBad || k == 10 }) s)
        | .good => phyCount r 9 1 (withRx r (fun x => { x with got := x.got ++ [m] }) s)

def execMpduRx (r : Radio) (m : Mpdu) (s : State) : Host.Outcome State Fault Refusal := whenLive s (mpduRx (rnum r) m)

/-- RESTART_DECISION (R123, R124, Table 5.6): the rise over the reference power decides; MPDUs that have passed are delivered, no response
is owed, and the report of a validated PPDU carries RESTARTED. -/
def restartDecision (r : Nat) (power : Int) (levels : List Int) (us : List UserMeas) (s : State) : State :=
  match (vget s.phy r).rx with
  | none => s
  | some x =>
    let rise := atAntenna x.femGain power - x.refPow
    let go := if x.valid then x.capture && rise ≥ 20 else rise ≥ 12
    if !go then s
    else
      let t := x.got.foldl (mpduGood r x) (phyCount r (if x.valid then 3 else 2) 1 (writeReports r x true us s))
      coexUpdate r (beginRx r power levels false (rxAbandoned r t))

def execRestartDecision (r : Radio) (power : RxLevels) (users : List UserMeas) (s : State) :
    Host.Outcome State Fault Refusal := whenLive s (restartDecision (rnum r) power.primary power.chains users)

/-- DEFRAG_TIMEOUT (R160): 100 ms after its first fragment an incomplete MSDU is discarded. -/
def defragTimeout (q : Nat) (s : State) : State :=
  match kget s.mac.defrag q with
  | some d => macCount d.frame.port 13 1 (withMac (fun x => { x with defrag := kdel x.defrag q }) s)
  | none => s

def execDefragTimeout (q : Fin 8192) (s : State) : Host.Outcome State Fault Refusal := whenLive s (defragTimeout q)

/-- REORDER_TIMEOUT (R163): held MPDUs up to the next gap are released, and WinStart moves past them. -/
def reorderTimeout (q : Nat) (s : State) : State :=
  match kget s.mac.ba q with
  | none => s
  | some b =>
    match b.held with
    | [] => s
    | (_, f) :: _ =>
      let r := f.port
      macCount r 12 1 (releaseRun r q (advanceWin r q (gapLen b.seen 1024 b.start) s))

def execReorderTimeout (q : Fin 8192) (s : State) : Host.Outcome State Fault Refusal := whenLive s (reorderTimeout q)

/-! The end of a received PPDU. -/

/-- The mean of a report's RSSIs in 0.5 dBm at the antenna (R202 names no chain; DESIGN CHOICE, log 91). -/
def meanRssi (femGain : Nat) (l : List (Option Int)) : Option Int :=
  let v := (l.filterMap id).map (atAntenna femGain)
  if v.isEmpty then none else some (roundHalfEven v.sum v.length)

/-- What a station's report leaves in its rate state on a link: the filtered EVM, weight 1/8 per report (R200), and the RSSI and noise floor that
R202 uses, the SNR below it. -/
def filterEvm (r femGain : Nat) (s : State) (um : UserSig × UserMeas) : State :=
  match um.2.sta with
  | some n =>
    if !um.2.decoded then s
    else withSta n (fun x => { x with rate := vmod x.rate r fun y =>
      { y with evm := some (match y.evm with | some v => v + (worstEvm um.2.evm - v) / 8 | none => worstEvm um.2.evm)
               rssi := meanRssi femGain um.2.rssi, noise := (meanRssi femGain um.2.rssi).map (2 * · - um.2.snr)
               ulMcs := um.1.mcs, ulNss := um.1.nss } }) s
  | none => s

/-- The class of Table 10.3 by the integer form of R252: rho > (10^11 - 5 k dt) / 10^11 with squares on both sides. -/
def classOf (new old : List Byte) (dt : Nat) (s : State) : Nat × State :=
  let k := min new.length old.length / 3
  let p := (List.range k).foldl (fun (a : Int × Int × Int × Int) i =>
    let x := coefAt new i
    let y := coefAt old i
    (a.1 + x.1 * y.1 + x.2 * y.2, a.2.1 + x.1 * y.2 - x.2 * y.1, a.2.2.1 + x.1 * x.1 + x.2 * x.2, a.2.2.2 + y.1 * y.1 + y.2 * y.2)) (0, 0, 0, 0)
  let num := p.1 * p.1 + p.2.1 * p.2.1
  let den := p.2.2.1 * p.2.2.2
  let below (t : Nat) : Bool :=
    let a : Int := 10 ^ 11 - t * dt
    a < 0 || num * 10 ^ 22 > a * a * den
  -- With a record of no energy rho is not stated: the class is free.
  if den = 0 then let d := draw 8 s; (d.1.toNat % 3, d.2)
  else (if below 5 then 0 else if below 50 then 1 else 2, s)

/-- The mean SNR of a record's streams (R200). -/
def meanSnr (l : List Int) : Int := l.foldl (· + ·) 0 / l.length

/-- An uplink estimate (R125, R250): per tone group of 4, chains in rows, streams in columns, under one scale. -/
def estimateUl (o : UlObs) : CsiIn :=
  let rows := (o.groups.headD []).length
  let h := o.groups.map (chanEst o.streams)
  let q := quantise (h.flatMap fun m => (List.range (rows * o.streams)).map fun i => matAt m (i / o.streams) (i % o.streams))
  { rank := o.streams, rows := rows, ng := 4, tones := o.groups.length, snrs := List.replicate o.streams o.snr, coef := q.2.flatMap coefBytes }

/-- A record made of a channel estimate, its class by the record it replaces. -/
def makeCsi (r kind : Nat) (c : CsiIn) (old : Option Csi) (capS capNs : Nat) (s : State) : Csi × State :=
  let e := vget s.fe r
  let base : Csi := { kind := kind, rank := c.rank, rows := c.rows, ng := c.ng, tones := c.tones, coef := c.coef
                      snr := meanSnr c.snrs, snrs := c.snrs, chains := chainMask r s
                      segCount := vget e.segCount (segUse r e), capS := capS, capNs := capNs }
  match old with
  | none => (base, s)
  | some o =>
    let p := classOf c.coef o.coef (capS * 10 ^ 9 + capNs - (o.capS * 10 ^ 9 + o.capNs)) s
    ({ base with cls := p.1 }, p.2)

/-- One uplink estimate: a reciprocity record of its station (R250), or an overheard one of a foreign client (R251). -/
def uplinkCsi (r : Nat) (x : RxCur) (o : List Byte × UlObs) (s : State) : State :=
  let p := (o.1, estimateUl o.2)
  let capNs := x.stamps.getD 2 0 % 10 ^ 9
  let capS := x.stamps.getD 2 0 / 10 ^ 9
  if !(vget s.bf.radio r).reciprocity then s
  else
    match senderOf r p.1 s with
    | some n =>
      if x.fmt = 5 ∨ x.fmt = 6 ∨ x.fmt ≥ 8 then
        let m := makeCsi r 1 p.2 (kget (vget s.bf.recip r) n) capS capNs s
        bfCount r 6 1 (withBf (fun b => { b with recip := vmod b.recip r fun k => kset k n m.1 }) m.2)
      else s
    | none =>
      -- A listed client's TB PPDU counts where its access point's trigger was validated (R251).
      if (s.bf.foreign.any fun f => f.1 == p.1) && !((x.fmt == 8 || x.fmt == 10) && !(vget s.mac.radio r).trigFor) then
        let old := (vget s.bf.overheard r).find? fun c => c.addr == p.1
        let m := makeCsi r 2 p.2 old capS capNs s
        let total : Nat := (s.bf.overheard.toList.map List.length).sum
        let keep (l : List Csi) : List Csi := l.filter fun c => c.addr != p.1
        let t := if old.isNone ∧ total ≥ 2048 then withBf (fun b => { b with overheard := vmod b.overheard (oldestOver m.2) List.dropLast }) m.2 else m.2
        bfCount r 7 1 (withBf (fun b => { b with overheard := vmod b.overheard r fun l => { m.1 with addr := p.1 } :: keep l }) t)
      else s
where
  /-- The radio whose last overheard record is the oldest. -/
  oldestOver (s : State) : Nat :=
    let age (q : Nat) : Nat := match (vget s.bf.overheard q).getLast? with | some c => c.capS * 10 ^ 9 + c.capNs | none => 2 ^ 80
    [1, 2].foldl (fun m q => if age q < age m then q else m) 0

/-- From the end of a received PPDU to C, in ns (Table 1.6). -/
def commitNs (r : Nat) (x : RxCur) : Nat := if r = 0 ∧ x.fmt = 0 then 6800 else 12800

/-- A trigger heard in a PPDU is answered in the next one. -/
def trigNext (r : Nat) (s : State) : State := withRm r (fun m => { m with trigFor := m.trigFor || m.trigSeen, trigSeen := false }) s

/-- RX_PPDU_END (R121): the end its SIG fields give. Reports and channel records are written, the MPDUs that passed reach the MAC, and a
PPDU that calls for a response has its commit point set (R22). -/
def rxPpduEnd (r : Nat) (p : PpduEnd) (s : State) : State :=
  match (vget s.phy r).rx with
  | none => s
  | some x =>
    if p.overflow then rxOverflow r x s
    else if !x.valid || s.now < x.endAt then s
    else
      let ok := !x.skip
      let s1 := phyCount r 11 p.delimErr (writeReports r x false p.users s)
      let s2 := if ok then (x.users.zip p.users).foldl (filterEvm r x.femGain) s1 else s1
      let s3 := if ok then p.csi.foldl (fun t c => uplinkCsi r x c t) s2 else s2
      let y := { x with due := if ok then p.due else 0, judged := false }
      let s4 := withRm r (fun m => { m with agg := { tb := if ok then p.tb else [] } })
        (withPhy r (fun p => { p with rx := none, tail := if y.due = 0 then none else some y }) (withRm r (fun m => { m with trigFor := false, trigSeen := false }) s3))
      let s5 := trigNext r (x.got.foldl (mpduGood r x) s4)
      let asked := ok && ((vget s5.mac.radio r).agg.resp != 0 || p.asks != 0)
      let s6 := if asked then
          withFe r (fun e => { e with owesResp := true }) (withRm r (fun m => { m with commit := some (s.now + commitNs r x / 2), stands := x.ba, respRate := if x.fmt = 0 then 8 else 4, respDone := none }) s5)
        else s5
      let s7 := noteEifs r y s6
      if y.due = 0 then closePpdu r y s7 else coexUpdate r s7

def execRxPpduEnd (r : Radio) (e : PpduEnd) (s : State) : Host.Outcome State Fault Refusal := whenLive s (rxPpduEnd (rnum r) e)

/-! The commit point. -/

/-- RESPONDER_COMPLETE (R26): the responder marks the response complete; its slack is C less this instant, in ns. -/
def responderComplete (r : Nat) (s : State) : State :=
  withRm r (fun m => match m.commit with
    | some c => { m with respDone := some (2 * (c - s.now)) }
    | none => m) s

def execResponderComplete (r : Radio) (_ : NoData) (s : State) : Host.Outcome State Fault Refusal := whenLive s (responderComplete (rnum r))

/-- The smallest bitmap that covers a session's buffer and the highest number accepted, `span` from its start, and that its peer supports
(R162). -/
def bitmapSize (r n win span : Nat) (s : State) : Nat :=
  let ok (k : Nat) : Bool := match kget s.mac.sta n with | some x => Config.linkBitmap (vget x.block r) k | none => true
  ([64, 256, 512, 1024].find? fun k => win ≤ k && span < k && ok k).getD 1024

/-- The Block Ack record of one session (R157, R162, R166): it starts at WinStart as the PPDU began, moved by a BlockAckReq of the PPDU, and by
an MPDU that lies more than 1,024 beyond it; it reports what was accepted then and the MPDUs of the PPDU. Outside a session it starts at the
first MPDU (log 90). -/
def baPart (r : Nat) (g : RxAgg) (stands : KMap (Nat × List Nat)) (q : Nat × Nat) (s : State) : BaPart :=
  let n := q.1
  let tid := q.2
  let mine := (g.board.filter fun b => b.1 == n && b.2.1 == tid).map (·.2.2)
  match kget s.mac.ba (8 * n + tid) with
  | none => { sta := n, tid := tid, start := mine.headD 0, size := 64, sns := mine }
  | some b =>
    let old := (kget stands (8 * n + tid)).getD (b.start, b.seen)
    let from_ := g.bars.foldl (fun v p => if p.1 == n && p.2.1 == tid && snDist v p.2.2 < 2048 then p.2.2 else v) old.1
    let all := old.2 ++ mine.filter fun k => !old.2.contains k
    let top := (all.filter fun k => snDist from_ k < 2048).foldl (fun v k => max v (snDist from_ k)) 0
    let start := if top ≥ 1024 then (from_ + (top + 1 - b.win)) % 4096 else from_
    let size := bitmapSize r n b.win (if top ≥ 1024 then b.win - 1 else top) s
    { sta := n, tid := tid, start := start, size := size, sns := all.filter fun k => snDist start k < size }

/-- What the response reports: an Ack names its station alone; a Block Ack has a record for each session it answers, all of them in the
multi-STA form, the answered station's alone in the compressed one. -/
def respParts (r : Nat) (g : RxAgg) (stands : KMap (Nat × List Nat)) (s : State) : List BaPart :=
  let qs := (g.board.map (fun b => (b.1, b.2.1)) ++ g.bars.map fun b => (b.1, b.2.1)).eraseDups
  if g.resp = 1 then [{ sta := g.sta, all := true }]
  else if g.resp = 2 then (qs.filter (·.1 == g.sta)).map fun q => baPart r g stands q s
  else if g.resp = 5 then qs.map fun q => baPart r g stands q s
  else []

/-- Bytes of an Ack or CTS, and of a compressed or multi-STA Block Ack (IEEE 802.11). -/
def respBytes (resp : Nat) (acks : List BaPart) : Nat :=
  if resp = 2 then 24 + ((acks.map (·.size)).sum) / 8
  else if resp = 5 then 22 + (acks.map fun p => 4 + p.size / 8).sum
  else 14

/-- The response PPDU built at C from the scoreboard as it stands, at 24 Mb/s, or at 1 Mb/s after a DSSS or CCK PPDU (DESIGN CHOICE, log 90); `stands` are the sessions as the PPDU began. -/
def responsePpdu (r : Nat) (stands : KMap (Nat × List Nat)) (s : State) : TxCur × State :=
  let g := (vget s.mac.radio r).agg
  if g.resp = 4 then
    match (vget s.mac.radio r).uplink with
    | some u =>
      let c := claimSta r u.sta ((List.range 8).reverse.filter fun t => khas s.sched.q (8 * u.sta + t)) g.room 1024 s
      ({ kind := .response, bss := u.bss, code := 4, durNs := Config.respNs 4 (vget s.fe r).bw 1, expects := !c.1.isEmpty
         users := [{ sta := u.sta, frames := c.1.map fun p => { p.2 with tid := p.1, sta := u.sta } }] }, sealNewest s.sec.jobs.length c.2)
    | none => ({ kind := .response, code := 4 }, s)
  else if g.resp = 6 then
    -- SU feedback of a station interface, codebook (6, 4), Ng 16 (R246).
    ({ kind := .response, bss := 16 * r, code := 6, durNs := Config.respNs 6 (vget s.fe r).bw 1, users := [{ sta := g.sta }]
       body := Config.suFeedback s.now }, s)
  else
    let acks := respParts r g stands s
    let rate := (vget s.mac.radio r).respRate
    let n := respBytes g.resp acks
    ({ kind := .response, bss := 16 * r, code := g.resp, acks := acks, fmt := rateFmt rate, len := n, durNs := basicNs r rate n, users := [{ sta := g.sta }] }, s)

/-- HL_PARTIAL is raised at most once per second per radio (R24). -/
def raisePartial (r : Nat) (s : State) : State :=
  let quiet : Bool := match (vget s.hl r).partialAt with | some t => decide (s.now < t + 500000000) | none => false
  if quiet then s else raise .hlPartial r [] (withHl r (fun h => { h with partialAt := some s.now }) s)

/-- COMMIT_POINT (R22 to R26): the response is built from the results there are, and what has not finished counts as not received. A
response not marked complete is partial; a CTS or a TB PPDU not complete is not sent. Where no result calls for one nothing is sent, and
that counts as partial while results are still due (log 90). -/
def commitPoint (r : Nat) (s : State) : State :=
  match (vget s.mac.radio r).commit with
  | none => s
  | some c =>
    if s.now < c then s
    else
      let tail := (vget s.phy r).tail
      let s0 := match tail with
        | some x => if x.judged then s else judgePpdu r x (withPhy r (fun p => { p with tail := some { x with judged := true } }) s)
        | none => s
      let m := vget s0.mac.radio r
      let s1 := withRm r (fun m => { m with commit := none, respDone := none }) s0
      let stands := m.stands
      let send (t : State) : State :=
        let p := responsePpdu r stands t
        withRm r (fun m => { m with txNext := p.1 :: m.txNext }) p.2
      if m.agg.resp = 0 then
        settle r (responseSent r (if tail.isSome then hlResponse r 0 true (raisePartial r (macCount r 25 1 s1)) else s1))
      else
        match m.respDone with
        | some k => send (hlResponse r k false s1)
        | none =>
          let t := macCount r 25 1 s1
          if m.agg.resp = 3 ∨ m.agg.resp = 4 then settle r (responseSent r (hlTrigger r none true t))
          else send (hlResponse r 0 true (raisePartial r t))

def execCommitPoint (r : Radio) (s : State) : Host.Outcome State Fault Refusal := whenLive s (commitPoint (rnum r))

end Sys2Proof.Machine
end

