-- ==== Sys2Proof/Machine/SchedCmd.lean ====
section
/-!
DEFINITION. Scheduler commands (spec/08_scheduled_access.md Table 8.11).
-/
namespace Sys2Proof.Machine
open Sys2Proof

def radioOk (p : List Byte) : Bool := u8 p 0 ≤ 2 && zeros p 1 3

/-- SCHED_SET_AC_WEIGHTS. -/
def schedSetAcWeightsForm : Form := inlineForm 0x0400 8 0 fun p => radioOk p && (List.range 4).all fun a => 1 ≤ u8 p (4 + a)

def schedSetAcWeightsRun : Cmd → State → Effect := fun c s =>
    okay (withRs (u8 c.params 0) (fun k => { k with acW := Vector.ofFn fun i => u8 c.params (4 + i.val) }) s)

def execSchedSetAcWeights (m : Fin 8) (buf : List Byte) (s : State) : Host.Outcome State Fault Refusal :=
  command schedSetAcWeightsForm m buf s schedSetAcWeightsRun

/-- Shares of the radio's 16 BSSs. -/
def sharesOf (p : List Byte) : List Nat := (List.range 16).map fun i => u16 p (4 + 2 * i)

/-- SCHED_SET_BSS_SHARE. -/
def schedSetBssShareForm : Form := inlineForm 0x0401 36 0 fun p => radioOk p && (sharesOf p).all (· ≤ 1000) && (sharesOf p).sum ≤ 1000

def schedSetBssShareRun : Cmd → State → Effect := fun c s =>
    okay ((List.range 16).foldl (fun t i => withBss (16 * u8 c.params 0 + i) (fun b => { b with share := u16 c.params (4 + 2 * i) }) t) s)

def execSchedSetBssShare (m : Fin 8) (buf : List Byte) (s : State) : Host.Outcome State Fault Refusal :=
  command schedSetBssShareForm m buf s schedSetBssShareRun

/-- SCHED_SET_STA. -/
def schedSetStaOk (p : List Byte) : Bool :=
  u16 p 0 ≤ 1023 && 1 ≤ u8 p 2 && u8 p 3 == 0 && (16 ≤ u16 p 4 && u16 p 4 ≤ 4096) && u16 p 6 == 0 &&
    (List.range 8).all fun t => u16 p (8 + 2 * t) ≤ 10000

def schedSetStaForm : Form := inlineForm 0x0402 24 0 schedSetStaOk

def schedSetStaRun : Cmd → State → Effect := fun c s =>
    let p := c.params
    if !khas s.mac.sta (u16 p 0) then .fail .wrongState
    else okay (withSta (u16 p 0) (fun x => { x with
      weight := u8 p 2, qlimit := u16 p 4, tll := Vector.ofFn fun i => u16 p (8 + 2 * i.val) }) s)

def execSchedSetSta (m : Fin 8) (buf : List Byte) (s : State) : Host.Outcome State Fault Refusal :=
  command schedSetStaForm m buf s schedSetStaRun

/-- SCHED_SET_LIMITS: a user limit above the Headland's is clipped and logged (R29, R198). -/
def schedLimitsOk (p : List Byte) : Bool :=
  u8 p 0 ≤ 2 && (1 ≤ u8 p 1 && u8 p 1 ≤ userTop (u8 p 0)) && (200 ≤ u16 p 2 && u16 p 2 ≤ 5400) && (200 ≤ u16 p 4 && u16 p 4 ≤ 5400) &&
    u16 p 6 ≤ 1000 && (10 ≤ u16 p 8 && u16 p 8 ≤ 10000) && 1 ≤ u8 p 10 && (10 ≤ u8 p 11 && u8 p 11 ≤ 40) && u8 p 12 ≤ 20 && u8 p 13 ≤ 8 &&
    u8 p 16 ≤ 1 && zeros p 17 3

def schedSetLimits (p : List Byte) (s : State) : State :=
  let r := u8 p 0
  let t := withRs r (fun k => { k with
    userLimit := u8 p 1, dlMax := u16 p 2, ulMax := u16 p 4, llShare := u16 p 6, bsrMaxAge := u16 p 8, lateAlarm := u8 p 10
    muGain := u8 p 11, laMargin := u8 p 12, raRu := u8 p 13, muRts := u16 p 14, muMimo := bit (u8 p 16) 0 }) s
  if u8 p 1 > (vget s.hl r).userLimit then logClip 0 r 0 (u8 p 1) (vget s.hl r).userLimit t else t

def schedSetLimitsForm : Form := inlineForm 0x0403 20 0 schedLimitsOk

def schedSetLimitsRun : Cmd → State → Effect := fun c s => okay (schedSetLimits c.params s)

def execSchedSetLimits (m : Fin 8) (buf : List Byte) (s : State) : Host.Outcome State Fault Refusal :=
  command schedSetLimitsForm m buf s schedSetLimitsRun

/-- One user entry (Table 8.13). -/
def furrowUser (u : FUser) : List Byte :=
  le 2 (u.sta % 1024) ++ [byte u.elem, byte u.ruSize, byte u.ruIndex, byte u.mcs, byte u.nss, byte (put u.uplink 0 + put u.mu 1 + put u.urgent 2)] ++
    le 4 u.bytes ++ le 4 u.charge

/-- A furrow summary (Table 8.12). -/
def furrowSummary (f : Furrow) : List Byte :=
  let us := f.users.filter fun u => match f.elems[u.elem]? with | some e => 2 ≤ e.code && e.code ≤ 5 | none => false
  le 8 f.number ++ [byte f.planAc, byte f.bss, byte f.bw, byte f.elems.length] ++ le 2 (min 296 us.length) ++
    [byte (put f.coord 0 + put f.fallback 1 + put f.mu 2 + put f.headland 3), 0] ++ le 4 f.dur ++ le 4 f.build ++ le 4 f.startNs ++ le 4 f.startS ++
    (List.range 8).flatMap (fun i => match f.elems[i]? with
      | some e => [byte e.code, 0] ++ le 2 (ceilDiv e.durNs 1000)
      | none => [0, 0, 0, 0]) ++ (us.take 296).flatMap furrowUser

/-- The furrow last sent (the one on the air, once it has started), or the ready one. -/
def furrowAsked (r which : Nat) (s : State) : Option Furrow :=
  let k := vget s.sched.radio r
  if which = 1 then k.ready else match k.cur with | some f => some f | none => k.last

def schedGetFurrowForm : Form := indirectForm 0x0404 4 4800 fun p => u8 p 0 ≤ 2 && u8 p 1 ≤ 1 && u16 p 2 == 0

def schedGetFurrowRun : Cmd → State → Effect := fun c s =>
    answer (match furrowAsked (u8 c.params 0) (u8 c.params 1) s with | some f => furrowSummary f | none => []) s

def execSchedGetFurrow (m : Fin 8) (buf : List Byte) (s : State) : Host.Outcome State Fault Refusal :=
  command schedGetFurrowForm m buf s schedGetFurrowRun

/-- A link's rate state; an EVM not measured yet reads 0x7F as an absent stream's does. -/
def rateBytes (y : Rate) : List Byte :=
  [byte y.mcs, byte y.nss, byte (uns 8 y.offset), byte y.ulMcs, byte y.ulNss,
   (match y.evm with | some v => byte (uns 8 (roundHalfEven v 16)) | none => 0x7F), 0, 0]

def schedStaData (n : Nat) (x : Sta) (s : State) : List Byte :=
  x.v.toList.flatMap (le 8) ++ x.rate.toList.flatMap rateBytes ++ le 8 0 ++
    (List.range 8).flatMap (fun t => le 2 (tidQueue (8 * n + t) s).length) ++
    (List.range 4).flatMap fun a => match vget x.demand a with
      | some d => le 4 (if demandKnown (staRadio x ((tidsOfAc a).headD 0)) x s a then d else 0xFFFFFFFF)
      | none => le 4 0xFFFFFFFF

def schedGetStaForm : Form := indirectForm 0x0405 4 96 fun p => u16 p 0 ≤ 1023 && u16 p 2 == 0

def schedGetStaRun : Cmd → State → Effect := fun c s =>
    match kget s.mac.sta (u16 c.params 0) with
    | some x => answer (schedStaData (u16 c.params 0) x s) s
    | none => .fail .wrongState

def execSchedGetSta (m : Fin 8) (buf : List Byte) (s : State) : Host.Outcome State Fault Refusal :=
  command schedGetStaForm m buf s schedGetStaRun

/-- SCHED_FLUSH_QUEUE: the MSDUs queued are dropped, each counted QUEUE_DROP. -/
def flushQueue (p : List Byte) (s : State) : Nat × State :=
  if u16 p 0 = 0xFFFF then
    let l := groupQueue (u8 p 3) s
    (l.length, dropAll .aborted l (schedCount (bssRadio (u8 p 3 / 4)) 17 l.length (setGroupQueue (u8 p 3) [] s)))
  else
    let n := u16 p 0
    let r := match kget s.mac.sta n with | some x => staRadio x 0 | none => 0
    let q := (List.range 8).foldl (fun a t =>
      if bit (u8 p 2) t then
        let l := tidQueue (8 * n + t) a.2
        (a.1 + l.length, l.foldl (fun u f => dropMsdu r n t .aborted f u) (schedCount r 17 l.length (setTidQueue (8 * n + t) [] a.2)))
      else a) (0, s)
    (q.1, leaveFurrows n (u8 p 2) 2 q.2)

def schedFlushQueueForm : Form := inlineForm 0x0406 4 4 fun p => u16 p 0 ≤ 1023 || (u16 p 0 == 0xFFFF && u8 p 3 ≤ 191)

def schedFlushQueueRun : Cmd → State → Effect := fun c s =>
    let q := flushQueue c.params s
    .complete .ok (le 4 q.1) q.2

def execSchedFlushQueue (m : Fin 8) (buf : List Byte) (s : State) : Host.Outcome State Fault Refusal :=
  command schedFlushQueueForm m buf s schedFlushQueueRun

def schedGetCountersForm : Form := indirectForm 0x0407 4 168 radioOk

def schedGetCountersRun : Cmd → State → Effect := fun c s => answer (ctrBytes (vget s.sched.radio (u8 c.params 0)).ctr) s

def execSchedGetCounters (m : Fin 8) (buf : List Byte) (s : State) : Host.Outcome State Fault Refusal :=
  command schedGetCountersForm m buf s schedGetCountersRun

end Sys2Proof.Machine
end

