-- ==== Sys2Proof/Machine/Bf.lean ====
section
/-!
DEFINITION. Sounding, reciprocity and grouping (spec/10_beamforming.md).
-/
namespace Sys2Proof.Machine
open Sys2Proof

/-! Sounding (R245). -/

/-- SOUNDING_FEEDBACK: a sounded station's feedback arrived whole, or did not. What was not asked for is not accepted (R242). -/
def soundingFeedback (r n : Nat) (fb : Option CsiIn) (s : State) : State :=
  let b := vget s.bf.radio r
  match kget b.sounded n with
  | none => s
  | some ask =>
    let t := withRb r (fun b => { b with sounded := kdel b.sounded n }) s
    match fb.filter fun c => c.ng == ask.1 && c.rank ≤ ask.2 && c.rows == min 8 (liveChains r s) with
    | some c =>
      let m := makeCsi r 0 c (kget (vget s.bf.explicit r) n) b.ndpS b.ndpNs t
      let u := withBf (fun x => { x with explicit := vmod x.explicit r fun k => kset k n m.1 }) m.2
      bfCount r 2 1 (withSta n (fun x => { x with rate := vmod x.rate r fun y => { y with sndFail := 0 } }) u)
    | none =>
      bfCount r 3 1 (withSta n (fun x => { x with rate := vmod x.rate r fun y =>
        if y.sndFail + 1 ≥ 2 then { y with sndFail := 0, sndHold := s.now + 250000000 } else { y with sndFail := y.sndFail + 1 } }) t)

def execSoundingFeedback (r : Radio) (sta : Fin 1024) (fb : Option CsiIn) (s : State) : Host.Outcome State Fault Refusal :=
  whenRunning s (soundingFeedback (rnum r) sta fb)

/-- A record has passed its age and was not counted (R253). -/
def csiPassed (r : Nat) (c : Csi) (s : State) : Bool := !c.aged && tbTotal 2 s ≥ c.capS * 10 ^ 9 + c.capNs + csiAge r c s

/-- CSI_EXPIRED: the record of a station, or the overheard record at a place, passes its age. -/
def csiExpired (r kind i : Nat) (s : State) : State :=
  let mark (m : KMap Csi) : KMap Csi := kmod m i fun c => { c with aged := true }
  match kind with
  | 0 => match kget (vget s.bf.explicit r) i with
    | some c => if csiPassed r c s then bfCount r 8 1 (withBf (fun b => { b with explicit := vmod b.explicit r mark }) s) else s
    | none => s
  | 1 => match kget (vget s.bf.recip r) i with
    | some c => if csiPassed r c s then bfCount r 8 1 (withBf (fun b => { b with recip := vmod b.recip r mark }) s) else s
    | none => s
  | _ => match (vget s.bf.overheard r)[i]? with
    | some c => if csiPassed r c s then bfCount r 8 1 (withBf (fun b => { b with overheard := vmod b.overheard r fun l => l.set i { c with aged := true } }) s) else s
    | none => s

def execCsiExpired (r : Radio) (kind : Fin 3) (index : Nat) (s : State) : Host.Outcome State Fault Refusal :=
  whenLive s (csiExpired (rnum r) kind index)

/-! Reciprocity calibration (R247 to R249). -/

/-- RECIP_CAL_REQUEST (R248): Builmin's request 50 s after the last calibration ended; at 60 s it is stale. -/
def recipRequest (r : Nat) (s : State) : State :=
  let b := vget s.bf.radio r
  match b.endAt with
  | some t => if s.now ≥ t + 30000000000 then recipStale r s else if s.now ≥ t + 25000000000 then withRb r (pendRecip s) s else s
  | none => s

def execRecipCalRequest (r : Radio) (s : State) : Host.Outcome State Fault Refusal := whenRunning s (recipRequest (rnum r))

/-- A pending calibration may start: in RX or STANDBY, no exchange, no synthesiser calibration pending (R249). -/
def recipMayStart (r : Nat) (s : State) : Bool :=
  let e := vget s.fe r
  (vget s.bf.radio r).pending && !(vget s.bf.radio r).running && quietRadio r s && (e.state == .rx || e.state == .standby) && e.calPending.isNone

/-- The calibration runs: the radio neither receives nor transmits. -/
def recipRun (r : Nat) (s : State) : State := coexUpdate r (withRb r (fun b => { b with running := true, startAt := s.now, pending := false, forced := false }) s)

def execRecipCalStart (r : Radio) (s : State) : Host.Outcome State Fault Refusal :=
  whenLive s fun s => if recipMayStart (rnum r) s && calMayStart (rnum r) s then recipRun (rnum r) s else s

/-- Pending for 100 ms, or by BF_RECALIBRATE with FORCE. -/
def recalDue (r : Nat) (s : State) : Bool := (vget s.bf.radio r).forced || decide ((vget s.bf.radio r).pendAt + 50000000 ≤ s.now)

/-- RECAL_FORCED (R249): the TXOP held is given up. -/
def execRecalForced (r : Radio) (s : State) : Host.Outcome State Fault Refusal :=
  whenLive s fun s => if recipMayStart (rnum r) s && recalDue (rnum r) s then bfCount (rnum r) 5 1 (recipRun (rnum r) (giveUpTxop (rnum r) s)) else s

/-- A chain's corrections: per tone group of 4, the loopback to the reference chain over the one from it, times the host's offset (R247;
the quotient is DEDUCED, log 92). -/
def corrections (l : List Loopback) (host : Cx) : List Cx :=
  (List.range (ceilDiv l.length 4)).map fun g =>
    let t := (l.drop (4 * g)).take 4
    let sum (f : Loopback → Int × Int) : Cx := cxSum (t.map fun p => cxOf (f p))
    cxMul host (cxMul (sum (·.1)) (matAt (matInv [[sum (·.2)]]) 0 0))

/-- RECIP_CAL_END (R247): the corrections of the active chains, with the host's offsets; what was built under the previous
correction is invalid (Table 10.4). `loops` holds by active chain, then subcarrier, the loopback to the reference chain and the one from it. -/
def recipEnd (r : Nat) (loops : List (List Loopback)) (s : State) : State :=
  let b := vget s.bf.radio r
  if !b.running || s.now < b.startAt + (if r = 0 then 30000 else 60000) then s
  else
    let off := vget b.femRecip (segUse r (vget s.fe r))
    let act := chainList (chainMask r s)
    let corr := (List.range (min act.length loops.length)).map fun i =>
      let k := act.getD i 0
      (k, corrections (loops.getD i []) (Config.polar (vget off k).1 (vget off k).2))
    let t := strikeGroups r (·.recip) (withRb r (fun b => { b with
      running := false, stale := false, pending := false, endAt := some s.now, corr := corr, cmds := [] }) s)
    settle r (b.cmds.foldl (fun u h => finish h .ok [] u) (bfCount r 4 1 t))

def execRecipCalEnd (r : Radio) (loops : List (List Loopback)) (s : State) : Host.Outcome State Fault Refusal :=
  whenLive s (recipEnd (rnum r) loops)

/-! Groups (R240, R254). -/

/-- A candidate for a group: its record and streams, and the format and highest MCS of its link. -/
structure Cand where
  sta : Nat
  user : MuUser
  fmt : Nat
  cap : Nat
  deriving DecidableEq, Repr, Inhabited

/-- The highest MCS of a format up to a cap that a SINR carries (Table 5.10). -/
def sinrMcs (fmt cap : Nat) (x : Rat) : Nat := topMcs cap fun m => decide (Config.dbRatio (-4 * evmReq fmt m) ≤ x)

/-- The predicted MCS and NSS of each member, from its post-precoding SINR (R254). -/
def groupRates (r : Nat) (g : List Cand) (s : State) : List (Nat × Nat) :=
  (g.zip (memberSinrs r (g.map (·.user)) s)).map fun p => (sinrMcs p.1.fmt p.1.cap p.2, p.1.user.nss)

/-- A list's member that no other precedes; the first of equals. -/
def firstBest (better : Cand → Cand → Bool) (l : List Cand) : Option Cand :=
  l.foldl (fun m c => match m with | none => some c | some y => if better c y then some c else some y) none

/-- Streams a group may have: R104, and the sounding dimensions where a member lies in the Q_S space (R240). -/
def groupStreams (r : Nat) (g : List Cand) (s : State) : Nat :=
  if g.any fun c => c.user.csi.kind == 0 then min (streamLimit r s) (min 8 (liveChains r s)) else streamLimit r s

/-- Grows a group by the candidate most nearly orthogonal to its span while the predicted sum rate rises. -/
def growGroup (r : Nat) (s : State) : (fuel : Nat) → (g rest : List Cand) → List Cand × List Cand
  | 0, g, rest => (g, rest)
  | n + 1, g, rest =>
    let far (c : Cand) : Rat := overlapOf r (g.map (·.user)) c.user s
    match firstBest (fun c y => decide (far c < far y)) rest with
    | none => (g, rest)
    | some c =>
      let h := g ++ [c]
      let fits := h.length ≤ min 8 (vget s.bf.radio r).groupMax && (h.map (·.user.nss)).sum ≤ groupStreams r h s
      if fits && sumRate (groupRates r h s) > sumRate (groupRates r g s) then growGroup r s n h (rest.filter (·.sta != c.sta)) else (g, rest)

/-- The greedy rebuild: from the strongest unassigned station on. -/
def makeGroups (r : Nat) (s : State) : (fuel : Nat) → List Cand → List (List Cand)
  | 0, _ => []
  | n + 1, l =>
    match firstBest (fun c y => decide (strengthOf c.user > strengthOf y.user)) l with
    | none => []
    | some c =>
      let p := growGroup r s 8 [c] (l.filter (·.sta != c.sta))
      p.1 :: makeGroups r s n p.2

/-- The predicted sum rate in 10 Mb/s units: the whole bandwidth in symbols of 13.6 us (DESIGN CHOICE, log 92). -/
def rateUnits (bw : Nat) (rates : List (Nat × Nat)) : Nat := ruSub (3 + bw) * sumRate rates / (12 * 136)

/-- The record of a group: each member's MCS and NSS (Table 5.10), the sum rate, and the space it lies in. -/
def groupOf (r b : Nat) (g : List Cand) (s : State) : Group :=
  let rates := groupRates r g s
  { bss := b, rateSum := rateUnits (vget s.fe r).bw rates, recip := g.any fun c => c.user.csi.kind == 1, qs := g.any fun c => c.user.csi.kind == 0
    members := (g.zip rates).map fun p => (p.1.sta, p.2.1, p.2.2) }

/-- The group is valid now (R253). -/
def groupValid (r : Nat) (g : Group) (s : State) : Bool :=
  !g.struck && (!g.recip || !(vget s.bf.radio r).stale) && g.members.all fun m => (csiFor r m.1 m.2.2 s).isSome

/-- A rebuild is due: GROUP_INTERVAL has passed since the BSS's last one, or more than a quarter of the radio's groups are invalid (R254). -/
def rebuildDue (r b : Nat) (s : State) : Bool :=
  let x := vget s.bf.radio r
  (match kget x.groupAt b with | some t => decide (t + x.groupMs * 500000 ≤ s.now) | none => true) ||
    4 * (x.groups.filter fun p => !groupValid r p.2 s).length > x.groups.length

/-- Stations of a BSS with valid CSI and MU capability. -/
def groupCands (r b : Nat) (s : State) : List Cand :=
  (staOfBss b s).filterMap fun p =>
    let blk := vget p.2.block r
    let fmt := if Config.linkFmt blk ≥ 9 then 9 else 7
    let want := nssTop r fmt blk s
    if Config.linkMu blk && Config.linkFmt blk ≥ 5 then (csiFor r p.1 want s).map fun c => { sta := p.1, user := { csi := c, nss := min want c.rank }, fmt := fmt, cap := mcsTop fmt blk }
    else none

/-- GROUP_REBUILD: the groups of one BSS of the radio with downlink MU-MIMO enabled, where a rebuild is due. -/
def groupRebuild (r b : Nat) (s : State) : State :=
  if bssRadio b ≠ r ∨ (vget s.sched.radio r).muMimo = false ∨ rebuildDue r b s = false then s
  else
    let cands := groupCands r b s
    let gs := ((makeGroups r s cands.length cands).filter fun g => g.length ≥ 2).map fun g => groupOf r b g s
    let old := (vget s.bf.radio r).groups.filter fun p => p.2.bss != b
    let new := gs.foldl (fun m g => match kfree m 256 with | some k => kset m k g | none => m) old
    bfCount r 11 (new.length - old.length) (withRb r (fun x => { x with groups := new, groupAt := kset x.groupAt b s.now }) s)

def execGroupRebuild (r : Radio) (b : Fin 48) (s : State) : Host.Outcome State Fault Refusal := whenRunning s (groupRebuild (rnum r) b)

/-! Commands (Table 10.7). -/

def bfSetSoundingForm : Form :=
  inlineForm 0x0580 8 0 fun p => u8 p 0 ≤ 2 && u8 p 1 ≤ 3 && (1 ≤ u8 p 2 && u8 p 2 ≤ (if u8 p 0 = 0 then 9 else 36)) && u8 p 3 ≤ 1 && (1 ≤ u16 p 4 && u16 p 4 ≤ 1000) && u16 p 6 == 0

def bfSetSoundingRun : Cmd → State → Effect := fun c s =>
    let p := c.params
    okay (withRb (u8 p 0) (fun b => { b with
      explicit := bit (u8 p 1) 0, reciprocity := bit (u8 p 1) 1
      pending := bit (u8 p 1) 1 && (b.pending || (!b.reciprocity && b.stale)), pendAt := if b.pending then b.pendAt else s.now
      soundMax := u8 p 2, ng16 := bit (u8 p 3) 0, soundLead := u16 p 4 }) s)

def execBfSetSounding (m : Fin 8) (buf : List Byte) (s : State) : Host.Outcome State Fault Refusal :=
  command bfSetSoundingForm m buf s bfSetSoundingRun

def bfSetAgeingForm : Form :=
  inlineForm 0x0581 12 0 fun p => radioOk p && u16 p 4 ≤ 1000 && u16 p 6 ≤ u16 p 4 && u16 p 8 ≤ u16 p 6 && 1 ≤ u16 p 8 && u16 p 10 == 0

def bfSetAgeingRun : Cmd → State → Effect := fun c s =>
    okay (withRb (u8 c.params 0) (fun b => { b with ages := #v[u16 c.params 4, u16 c.params 6, u16 c.params 8] }) s)

def execBfSetAgeing (m : Fin 8) (buf : List Byte) (s : State) : Host.Outcome State Fault Refusal :=
  command bfSetAgeingForm m buf s bfSetAgeingRun

def bfSetPrecoderForm : Form :=
  inlineForm 0x0582 8 0 fun p => u8 p 0 ≤ 2 && u8 p 1 ≤ 1 && 1 ≤ u8 p 2 && (2 ≤ u8 p 3 && u8 p 3 ≤ 8) && (5 ≤ u16 p 4 && u16 p 4 ≤ 1000) && u16 p 6 == 0

def bfSetPrecoderRun : Cmd → State → Effect := fun c s =>
    let p := c.params
    okay (withRb (u8 p 0) (fun b => { b with rzf := u8 p 1 == 1, alpha := u8 p 2, groupMax := u8 p 3, groupMs := u16 p 4 }) s)

def execBfSetPrecoder (m : Fin 8) (buf : List Byte) (s : State) : Host.Outcome State Fault Refusal :=
  command bfSetPrecoderForm m buf s bfSetPrecoderRun

/-- BF_RECALIBRATE (R248): it stays outstanding until a calibration ends. -/
def bfRecalRun (c : Cmd) (s : State) : Effect :=
  let r := u8 c.params 0
  if (vget s.fe r).state = .off then .fail .wrongState
  else .hold (withRb r (fun b => { b with cmds := b.cmds ++ [c.handle], forced := b.forced || bit (u8 c.params 1) 0 }) (recipStale r s))

def bfRecalibrateForm : Form := inlineForm 0x0583 4 0 fun p => u8 p 0 ≤ 2 && u8 p 1 ≤ 1 && u16 p 2 == 0

def execBfRecalibrate (m : Fin 8) (buf : List Byte) (s : State) : Host.Outcome State Fault Refusal :=
  command bfRecalibrateForm m buf s bfRecalRun

/-- BF_SET_FEM_RECIP: the host's front-end offsets; calibration becomes stale where the segment is in use. -/
def femRecipOk (p : List Byte) : Bool :=
  u8 p 0 ≤ 2 && u8 p 1 < segCountOf (u8 p 0) && u8 p 2 == chainCount (u8 p 0) && u8 p 3 == 0 &&
    (List.range (u8 p 2)).all fun i => (-1000 ≤ i16 p (4 + 4 * i) && i16 p (4 + 4 * i) ≤ 1000) &&
      (-18000 ≤ i16 p (6 + 4 * i) && i16 p (6 + 4 * i) ≤ 18000)

def setFemRecip (p : List Byte) (s : State) : State :=
  let r := u8 p 0
  let v : Vector (Int × Int) 16 := Vector.ofFn fun i => if i.val < u8 p 2 then (i16 p (4 + 4 * i.val), i16 p (6 + 4 * i.val)) else (0, 0)
  let t := withRb r (fun b => { b with femRecip := vset b.femRecip (u8 p 1) v }) s
  if u8 p 1 = segUse r (vget s.fe r) then recipStale r t else t

def bfSetFemRecipForm : Form :=
  { opcode := 0x0584, indirect := true, length := fun p => some (4 + 4 * u8 p 2), data := fun _ => 0, ok := femRecipOk }

def bfSetFemRecipRun : Cmd → State → Effect := fun c s =>
    okay (setFemRecip c.params s)

def execBfSetFemRecip (m : Fin 8) (buf : List Byte) (s : State) : Host.Outcome State Fault Refusal :=
  command bfSetFemRecipForm m buf s bfSetFemRecipRun

/-- A record as BF_GET_CSI returns it. -/
def csiData (r : Nat) (c : Csi) (s : State) : List Byte :=
  let till := c.capS * 10 ^ 9 + c.capNs + csiAge r c s
  let left := if csiValid r c s then (till - tbTotal 2 s) / 1000 else 0
  [byte c.kind, byte c.rank, byte c.rows, byte c.cls, byte c.ng, byte c.segCount] ++ le 2 c.tones ++ le 4 c.capNs ++ le 4 c.capS ++ le 4 left ++
    List.replicate 44 0 ++ c.coef

/-- The record asked for. -/
def csiAsked (p : List Byte) (s : State) : Option Csi :=
  match u8 p 1 with
  | 0 => kget (vget s.bf.explicit (u8 p 0)) (u16 p 2)
  | 1 => kget (vget s.bf.recip (u8 p 0)) (u16 p 2)
  | _ => (vget s.bf.overheard (u8 p 0)).find? fun c => c.addr == slice p 4 6

def bfGetCsiForm : Form := indirectForm 0x0585 16 64 fun p => u8 p 0 ≤ 2 && u8 p 1 ≤ 2 && (u8 p 1 == 2 || u16 p 2 ≤ 1023) && zeros p 10 6

def bfGetCsiRun : Cmd → State → Effect := fun c s =>
    match csiAsked c.params s with
    | none => answer [] s
    | some k => if (csiData (u8 c.params 0) k s).length > c.blen then .fail .badLength else answer (csiData (u8 c.params 0) k s) s

def execBfGetCsi (m : Fin 8) (buf : List Byte) (s : State) : Host.Outcome State Fault Refusal :=
  command bfGetCsiForm m buf s bfGetCsiRun

def groupBytes (r : Nat) (k : Nat) (g : Group) (s : State) : List Byte :=
  [byte k, byte g.bss, byte g.members.length, byte (g.members.map (·.2.2)).sum] ++
    (List.range 8).flatMap (fun i => match g.members[i]? with | some x => le 2 x.1 | none => le 2 0xFFFF) ++
    (List.range 8).map (fun i => match g.members[i]? with | some x => byte (16 * x.2.2 + x.2.1) | none => 0) ++
    le 2 g.rateSum ++ [byte (put (groupValid r g s) 0 + put g.qs 1), 0]

def bfGetGroupsForm : Form := indirectForm 0x0586 4 8192 radioOk

def bfGetGroupsRun : Cmd → State → Effect := fun c s =>
    answer ((vget s.bf.radio (u8 c.params 0)).groups.flatMap fun p => groupBytes (u8 c.params 0) p.1 p.2 s) s

def execBfGetGroups (m : Fin 8) (buf : List Byte) (s : State) : Host.Outcome State Fault Refusal :=
  command bfGetGroupsForm m buf s bfGetGroupsRun

def bfStatus (r : Nat) (s : State) : List Byte :=
  let b := vget s.bf.radio r
  let ms := match b.endAt with | some t => min 0xFFFF ((s.now - t) / 500000) | none => 0xFFFF
  [byte (if b.running then 2 else if b.pending || b.stale then 1 else 0), byte (min 8 (liveChains r s)), byte (liveChains r s),
   byte ((lowestBit (chainMask r s)).getD 0xFF)] ++ le 2 ms ++ le 2 (vget s.bf.recip r).length ++ le 2 (vget s.bf.overheard r).length ++
    le 2 (b.groups.filter fun p => groupValid r p.2 s).length ++ le 4 0

def bfGetStatusForm : Form := inlineForm 0x0587 4 16 radioOk

def bfGetStatusRun : Cmd → State → Effect := fun c s => answer (bfStatus (u8 c.params 0) s) s

def execBfGetStatus (m : Fin 8) (buf : List Byte) (s : State) : Host.Outcome State Fault Refusal :=
  command bfGetStatusForm m buf s bfGetStatusRun

def bfGetCountersForm : Form := indirectForm 0x0588 4 120 radioOk

def bfGetCountersRun : Cmd → State → Effect := fun c s => answer (ctrBytes (vget s.bf.radio (u8 c.params 0)).ctr) s

def execBfGetCounters (m : Fin 8) (buf : List Byte) (s : State) : Host.Outcome State Fault Refusal :=
  command bfGetCountersForm m buf s bfGetCountersRun

end Sys2Proof.Machine
end

