-- ==== Sys2Proof/Machine/TimeBase.lean ====
section
/-!
DEFINITION. The time bases (R319 to R325), their roles and free-run (R326, R328), launch-timed frames (R337 to R339). Units of
stamps and launches: 0, 1 ports E0 and E1; 2 to 4 radios A to C.
-/
namespace Sys2Proof.Machine
open Sys2Proof

def withTime (f : TimeSt → TimeSt) (s : State) : State := { s with time := f s.time }
def withTb (n : Nat) (f : Tb → Tb) (s : State) : State := withTime (fun t => { t with tb := vmod t.tb n f }) s
def timeCount (i k : Nat) (s : State) : State := withTime (fun t => { t with ctr := vadd t.ctr i k }) s
def withPort (p : Nat) (f : Port → Port) (s : State) : State := { s with eth := vmod s.eth p f }

/-! The counter. -/

/-- The largest value of S. -/
def maxSec : Nat := 2 ^ 48 - 1

/-- A time base's value in 2^-16 ns. -/
def tb16 (t : Tb) : Nat := (t.sec * 10 ^ 9 + t.ns) * 65536 + t.frac

/-- The time base at a value in 2^-16 ns; beyond the largest value it stops there and SAT sets (R320). -/
def tbAt (v : Nat) (t : Tb) : Tb :=
  if v / (65536 * 10 ^ 9) > maxSec then { t with sec := maxSec, ns := 999999999, frac := 0xFFFF, sat := true }
  else { t with sec := v / (65536 * 10 ^ 9), ns := v / 65536 % 10 ^ 9, frac := v % 65536 }

/-- The step of one tick, with the dither count moved on (R319). -/
def tickDither (t : Tb) : Tb := { t with dCount := if t.dPeriod = 0 then 0 else (t.dCount + 1) % t.dPeriod }
def tickStep (t : Tb) : Nat :=
  if t.dPeriod > 0 ∧ (tickDither t).dCount = 0 then (if t.dSub then t.inc - 1 else t.inc + 1) else t.inc

/-- One tick. -/
def tickTb (t : Tb) : Tb := tbAt (tb16 t + tickStep t) (tickDither t)

/-- The second in which PPS_OUT's reference plane is: that of the time base, advanced by the delay (R331). -/
def ppsSecond (c : Pps) (t : Tb) : Int := ((tb16 t : Int) + c.delay * 65536) / (65536 * 10 ^ 9)

/-- Counting reaches a rising-edge instant of PPS_OUT settings; time base `skip` does not count on this tick. -/
def ppsRises (skip : Nat) (c : Pps) (old new : Vector Tb 4) : Bool :=
  c.tb != skip && ppsSecond c (vget old c.tb) != ppsSecond c (vget new c.tb)

/-- Time bases count: not in reset, and with the reference present (R19, R320). -/
def tbRuns (s : State) : Bool := live s && !s.glb.refLost

/-- One tick of the 500 MHz clock, on which time base `skip`, if one is named, is loaded and does not count. -/
def tickBut (skip : Nat) (s : State) : State :=
  if tbRuns s then
    withTime (fun t =>
      let new := t.tb.map tickTb
      { t with
        tb := new, rise := t.rise || ppsRises skip t.out t.tb new
        riseNext := t.riseNext || (match t.outNext with | some c => ppsRises skip c t.tb new | none => false) }) { s with now := s.now + 1 }
  else { s with now := s.now + 1 }

/-- One tick of the 500 MHz clock. -/
def tick (s : State) : State := tickBut 4 s

/-- The tick on which a write to time base `n` commits: `f` takes its state before the tick. -/
def commitTick (n : Nat) (f : Tb → Tb) (s : State) : State :=
  let old := vget s.time.tb n
  withTb n (fun _ => f old) (tick s)

/-! Launch times. -/

/-- Launch queue of a unit. -/
def launchQueue (unit : Nat) (s : State) : List Frame :=
  if unit < 2 then (vget s.eth unit).launchQ else (vget s.mac.radio (unit - 2)).launchQ

def launchIsHeld (unit : Nat) (s : State) : Bool :=
  if unit < 2 then (vget s.eth unit).launchHeld else (vget s.mac.radio (unit - 2)).launchHeld

def setHeld (unit : Nat) (h : Bool) (s : State) : State :=
  if unit < 2 then withPort unit (fun p => { p with launchHeld := h }) s
  else withRm (unit - 2) (fun m => { m with launchHeld := h }) s

/-- The head leaves the launch queue. -/
def popLaunch (unit : Nat) (s : State) : State :=
  if unit < 2 then withPort unit (fun p => { p with launchQ := p.launchQ.drop 1, launchHeld := false, wireHold := false }) s
  else withRm (unit - 2) (fun m => { m with launchQ := m.launchQ.drop 1, launchHeld := false }) s

/-- N32 of a time base (R321). -/
def scale32 (n : Nat) (s : State) : Nat := tbTotal n s % 2 ^ 32

/-- A launch instant lies in the future now (R337). -/
def isFuture (f : Frame) (s : State) : Bool :=
  match f.launch with
  | none => false
  | some (n, v) =>
    let d := (v + 2 ^ 32 - scale32 n s) % 2 ^ 32
    decide (0 < d) && decide (d < 2 ^ 31)

/-- The head is late (R337): sent at once with LATE_SEND, else discarded with TX_LATE. -/
def launchLate (unit : Nat) (f : Frame) (s : State) : State :=
  let t := popLaunch unit s
  if f.lateSend then
    timeCount 2 1 (if unit < 2 then withPort unit (fun p => { p with lateQ := p.lateQ ++ [f] }) t
      else withRm (unit - 2) (fun m => { m with lateQ := m.lateQ ++ [f] }) t)
  else frameDone f .txLate [] (timeCount 3 1 t)

/-- LAUNCH_JUDGE (R337): the frame that has reached the head of the unit's launch queue. -/
def launchJudge (unit : Nat) (s : State) : State :=
  match launchQueue unit s with
  | [] => s
  | f :: _ =>
    if launchIsHeld unit s then s
    else if isFuture f s then timeCount 0 1 (setHeld unit true s)
    else launchLate unit f s

def execLaunchJudge (unit : Fin 5) (s : State) : Host.Outcome State Fault Refusal := whenLive s (launchJudge unit)

/-- A radio is kept from sending by a calibration or a channel change (Table 4.6). A launch-timed frame is of class 3, which no
grant withholds (R107). -/
def radioWithheld (r : Nat) (s : State) : Bool :=
  let e := vget s.fe r
  e.cal.isSome || e.sw.isSome || (vget s.bf.radio r).running || e.goal == some .calibrate || e.goal == some .calTemp

/-- The time of one byte at a speed code, in 0.01 ns. -/
def byteTime (speed : Nat) : Nat := match speed with | 1 => 80 | 2 => 32 | 3 => 16 | _ => 0

/-- Bytes on the wire from the destination address to the FCS, padded (R376, R377). -/
def wireBytes (f : Frame) : Nat := max 64 (f.bytes.length + 4)

/-- A port's held frame misses its instant (R383): it is preemptable and a pause is in force, or the launch frame before it leaves
too late a gap. -/
def portMisses (x : Port) (f : Frame) (now : Nat) : Bool :=
  (!f.express && x.pause.isSome) || now * 200 < x.wireFree + 8 * byteTime x.speed

/-- A beacon of the radio is due at this instant or waits: it goes first (R156). -/
def beaconAhead (r : Nat) (s : State) : Bool :=
  (List.range 16).any fun i => ownBeacons (16 * r + i) s && ((vget s.mac.bss (16 * r + i)).bcnDue || (atTbtt (16 * r + i) s && !tbttServed (16 * r + i) s))

/-- The corrected egress stamp of the unit has reached a frame's launch instant (R338). -/
def launchReached (unit : Nat) (f : Frame) (s : State) : Bool :=
  match f.launch with
  | none => true
  | some (n, v) =>
    let d := (v + 2 ^ 32 - (stampOut unit s).getD n 0 % 2 ^ 32) % 2 ^ 32
    d == 0 || decide (2 ^ 31 ≤ d)

/-- LAUNCH_INSTANT (R338). A port sends; a radio sends if the primary 20 MHz has been idle for PIFS and R15 lets it, and otherwise the frame
becomes late. -/
def launchInstant (unit : Nat) (s : State) : State :=
  match launchQueue unit s with
  | [] => s
  | f :: _ =>
    if !launchIsHeld unit s || !launchReached unit f s then s
    else if unit < 2 then
      if portMisses (vget s.eth unit) f s.now then launchLate unit f s
      else timeCount 1 1 (withPort unit (fun p => { p with
        dueQ := p.dueQ ++ [f], wireFree := s.now * 200 + (wireBytes f + 12) * byteTime p.speed }) (popLaunch unit s))
    else
      let r := unit - 2
      let m := vget s.mac.radio r
      let ok := pifsIdle r s && m.navBasic.isNone && m.navIntra.isNone && radioFree r s && !beaconAhead r s && launchFree r f s
      if radioWithheld r s then launchLate unit f (feCount r 2 s)
      else if !ok then launchLate unit f s
      else match numberLaunch r f s with
        -- Its key is locked (R403).
        | none => frameDone f .keyExhausted [] (secCount 13 1 (popLaunch unit s))
        | some p => timeCount 1 1 (withRm r (fun m => { m with txNext := m.txNext ++ [launchPpdu r p.1 p.2] }) (popLaunch unit p.2))

def execLaunchInstant (unit : Fin 5) (_ : NoData) (s : State) : Host.Outcome State Fault Refusal := whenLive s (launchInstant unit)

/-- A step of time base `n` has every frame held against it judged again (R339). -/
def rejudge (n : Nat) (s : State) : State :=
  (List.range 5).foldl (fun t u =>
    match launchQueue u t with
    | f :: _ =>
      if launchIsHeld u t && (f.launch.map (·.1)) == some n then
        let v := timeCount 4 1 t
        if isFuture f v then v else launchLate u f v
      else t
    | [] => t) s

/-! Free-run (R328). -/

def roleCode (r : TbRole) : Nat := match r with | .ptp => 0 | .rope => 1 | .localTb => 2 | .spare => 3

/-- A PTP or ROPE time base loses its master: cause 0 timeout, 1 belay loss, 2 parent loss. -/
def enterFreeRun (n cause : Nat) (s : State) : State :=
  let t := vget s.time.tb n
  if t.freeRun || t.role == .localTb || t.role == .spare then s
  else raise .tbFreeRun n [byte cause, byte (roleCode t.role)] (timeCount 8 1 (withTb n (fun t => { t with freeRun := true }) s))

/-- A correction was committed. -/
def committed (now : Nat) (t : Tb) : Tb := { t with last := some now, freeRun := false }

/-! Commits (R324, R325). -/

/-- The value SET loads. -/
def setValue (t : Tb) : Nat := ((bits t.setHi.toNat 0 16 * 2 ^ 32 + t.setLo.toNat) * 10 ^ 9 + t.setNs.toNat) * 65536 + bits t.setHi.toNat 16 16

/-- A time base that ADJ moves, or none where ADJ is refused. -/
def adjusted (t : Tb) : Option Tb :=
  let a := t.adjNs.toInt
  let v := (tb16 t : Int) + (t.adjS.toInt * 10 ^ 9 + a) * 65536
  if a < -999999999 ∨ 999999999 < a ∨ v < 0 then none else some (tbAt v.toNat t)

/-- ADJ on its commit tick. -/
def applyAdj (n : Nat) (s : State) : State :=
  match adjusted (vget s.time.tb n) with
  | none => timeCount 7 1 (withTb n (fun t => { t with adjInv := true }) s)
  | some u => rejudge n (timeCount 6 1 (withTb n (fun _ => committed s.now u) s))

/-- SET on its commit tick, and ADJ after it where one write has both. -/
def applySet (n : Nat) (adj : Bool) (s : State) : State :=
  let t := vget s.time.tb n
  if t.setNs.toNat ≥ 10 ^ 9 then
    timeCount 7 (if adj then 2 else 1) (withTb n (fun t => { t with setInv := true, adjInv := t.adjInv || adj }) (tick s))
  else
    let u := timeCount 5 1 (withTb n (fun _ => committed (s.now + 1) (tbAt (setValue t) (tickDither t))) (tickBut n s))
    if adj then applyAdj n u else rejudge n u

/-- A write of TBn_CMD with SET. Ignored while FW_OWNED (R326). -/
def setWrite (n v : Nat) (s : State) : State :=
  if !tbRuns s || (vget s.time.tb n).fwOwned || !bit v 0 then s else applySet n (bit v 1) s

def execTbCmdSet (n : Fin 4) (value : Word) (s : State) : Host.Outcome State Fault Refusal := .next (setWrite n value.toNat s)

/-- A write of TBn_CMD with ADJ and without SET. -/
def adjWrite (n v : Nat) (s : State) : State :=
  if !tbRuns s || (vget s.time.tb n).fwOwned || bit v 0 || !bit v 1 then s else applyAdj n (tick s)

def execTbCmdAdj (n : Fin 4) (value : Word) (s : State) : Host.Outcome State Fault Refusal := .next (adjWrite n value.toNat s)

/-- An INC commit (R324): the commit tick itself steps by the old INC. -/
def commitInc (n inc : Nat) (s : State) : State :=
  if inc < 0x1FF00 ∨ 0x20100 < inc then timeCount 7 1 (withTb n (fun t => { t with incInv := true }) (tick s))
  else commitTick n (fun t => committed (s.now + 1) { tickTb t with inc := inc }) s

/-- A write of TBn_INC_HI. -/
def incWrite (n v : Nat) (s : State) : State :=
  if !tbRuns s || (vget s.time.tb n).fwOwned then s
  else
    let hi := bits v 0 16
    commitInc n (hi * 2 ^ 32 + (vget s.time.tb n).incLo.toNat) (withTb n (fun t => { t with incHi := BitVec.ofNat 32 hi }) s)

def execTbIncCommit (n : Fin 4) (value : Word) (s : State) : Host.Outcome State Fault Refusal := .next (incWrite n value.toNat s)

/-- A write of TBn_DITHER; PERIOD 1 is refused. The commit tick is tick 0 of the new count. -/
def ditherWrite (n v : Nat) (s : State) : State :=
  if !tbRuns s || (vget s.time.tb n).fwOwned then s
  else
    let per := bits v 0 24
    let t := withTb n (fun t => { t with dither := BitVec.ofNat 32 (put (bit v 31) 31 + per) }) s
    if per = 1 then timeCount 7 1 (withTb n (fun t => { t with incInv := true }) (tick t))
    else commitTick n (fun t => committed (s.now + 1) { tickTb t with dSub := bit v 31, dPeriod := per, dCount := 0 }) t

def execTbDitherCommit (n : Fin 4) (value : Word) (s : State) : Host.Outcome State Fault Refusal := .next (ditherWrite n value.toNat s)

/-! Reads and captures. -/

/-- TB_TIME_READ (R322): the host snapshot takes S and FRAC of the tick. -/
def execTbTimeRead (n : Fin 4) (s : State) : Host.Outcome State Fault Refusal :=
  whenLive s (withTb n fun t => { t with snapS := t.sec, snapFrac := t.frac })

/-- S, NS and FRAC of a value in 2^-16 ns. -/
def fields16 (v : Nat) : Nat × Nat × Nat := (v / (65536 * 10 ^ 9), v / 65536 % 10 ^ 9, v % 65536)

/-- A write of TB_CAPTURE (R329). -/
def captureWrite (v : Nat) (s : State) : State :=
  if !bit v 0 then s
  else withTime (fun t => { t with cap := t.tb.map fun b => fields16 (tb16 b), capCount := (t.capCount + 1) % 65536 }) s

def execTbCaptureGo (value : Word) (s : State) : Host.Outcome State Fault Refusal := whenLive s (captureWrite value.toNat)

/-- TB_SATURATE (R320): the next tick would carry S beyond its largest value. -/
def execTbSaturate (n : Fin 4) (s : State) : Host.Outcome State Fault Refusal :=
  .next (if tbRuns s && (tickTb (vget s.time.tb n)).sat then tick s else s)

/-- TB_MASTER_TIMEOUT (R328): no commit for MASTER_TIMEOUT, counted from the command that set it where none has come since. -/
def execTbMasterTimeout (n : Fin 4) (s : State) : Host.Outcome State Fault Refusal :=
  whenLive s fun s =>
    let t := vget s.time.tb n
    if t.role = .ptp ∧ t.timeout ≠ 0 ∧ max (t.last.getD 0) t.roleAt + t.timeout * 500000 ≤ s.now then enterFreeRun n 0 s else s

/-! PPS (R330, R331). -/

/-- PPS_IN_EDGE: captured, or ignored as early within 500 ms of the last accepted edge. -/
def ppsInEdge (s : State) : State :=
  if !s.time.inEn then s
  else if (match s.time.inLast with | some t => decide (s.now < t + 250000000) | none => false) then
    timeCount 11 1 (withTime (fun t => { t with ppsEarly := true }) s)
  else
    timeCount 10 1 (withTime (fun t => { t with
      ppsCap := t.tb.map fun b => fields16 (tb16 b - t.inDelay * 65536)
      ppsCount := (t.ppsCount + 1) % 65536, inLast := some s.now, ppsLost := false }) s)

def execPpsInEdge (s : State) : Host.Outcome State Fault Refusal := whenLive s ppsInEdge

/-- PPS_IN_LOST: no accepted edge for 1.5 s, counted from its enabling where none has come since. -/
def execPpsInLost (s : State) : Host.Outcome State Fault Refusal :=
  whenLive s fun s =>
    if s.time.inEn && !s.time.ppsLost && max (s.time.inLast.getD 0) s.time.inSince + 750000000 ≤ s.now then raise .ppsInLost 0 [] (withTime (fun t => { t with ppsLost := true }) s) else s

/-- PPS_OUT_EDGE: counting has reached a rising-edge instant. Settings that wait take effect at the first such instant of their
own. -/
def ppsOutEdge (s : State) : State :=
  let t := s.time
  let taken := t.outNext.isSome && t.riseNext
  let c := if taken then t.outNext.getD t.out else t.out
  if !taken && !t.rise then s
  else
    let u := withTime (fun t => { t with out := c, outNext := if taken then none else t.outNext, rise := false, riseNext := false }) s
    if c.en then timeCount 12 1 (withTime (fun t => { t with ppsPin := true, riseAt := s.now, riseWidth := c.width }) u) else u

def execPpsOutEdge (s : State) : Host.Outcome State Fault Refusal := whenLive s ppsOutEdge

/-- Nanoseconds to the next rising-edge instant of the settings in force. -/
def nextRise (s : State) : Int :=
  10 ^ 9 - ((tb16 (vget s.time.tb s.time.out.tb) / 65536 : Nat) + s.time.out.delay) % 10 ^ 9

/-- PPS_OUT_FALL: the width is over, or the next rising edge lies 100 ns ahead. -/
def ppsOutFall (s : State) : State :=
  if s.now < s.time.riseAt + s.time.riseWidth * 500 ∧ 100 < nextRise s then s else withTime (fun t => { t with ppsPin := false }) s

def execPpsOutFall (s : State) : Host.Outcome State Fault Refusal := whenLive s ppsOutFall

/-! Commands (Table 13.8). -/

def roleOf (n : Nat) : TbRole := match n with | 0 => .ptp | 1 => .rope | 2 => .localTb | _ => .spare

def setRoleOk (p : List Byte) : Bool :=
  u8 p 0 ≤ 3 && u8 p 1 ≤ 3 && u8 p 2 ≤ 1 && u8 p 3 ≤ 3 && (u32 p 4 == 0 || (10 ≤ u32 p 4 && u32 p 4 ≤ 60000)) && u8 p 8 ≤ 127 && zeros p 9 3 &&
    (u8 p 0 == 2) == (u8 p 1 == 2) && (u8 p 2 == 0 || u8 p 1 == 1 || (u8 p 1 == 0 && u8 p 3 != 0))

/-- Time base `n` takes a role; another one that held the PTP or ROPE role becomes SPARE (R326). -/
def roleTake (p : List Byte) (s : State) : State :=
  let n := u8 p 0
  let role := roleOf (u8 p 1)
  let t := (List.range 4).foldl (fun t k =>
    if k ≠ n ∧ (vget t.time.tb k).role = role ∧ (role = .ptp ∨ role = .rope) then
      withTb k (fun b => { b with role := .spare, fwOwned := false, freeRun := false, servo := false }) t
    else t) s
  let own := (role = .ptp ∧ u8 p 2 = 1) ∨ (role = .rope ∧ s.rope.role ≠ .none)
  withTb n (fun b => { b with
    role := role, roleAt := s.now, fwOwned := decide own, servo := decide (role = .ptp ∧ u8 p 2 = 1), ports := u8 p 3, timeout := u32 p 4, domain := u8 p 8
    freeRun := b.freeRun && (role == .ptp || role == .rope) && role == b.role }) t

/-- TIME_SET_ROLE (R326, R327). The rope role does not move while the device is joined or joining. -/
def setRoleRun (c : Cmd) (s : State) : Effect :=
  let p := c.params
  let role := roleOf (u8 p 1)
  let old := (vget s.time.tb (u8 p 0)).role
  if s.rope.role ≠ .none ∧ (role = .rope ∨ old = .rope) ∧ role ≠ old then .fail .wrongState else okay (roleTake p s)

def timeSetRoleForm : Form := inlineForm 0x0800 12 0 setRoleOk

def execTimeSetRole (m : Fin 8) (buf : List Byte) (s : State) : Host.Outcome State Fault Refusal :=
  command timeSetRoleForm m buf s setRoleRun

def timeSetAsymForm : Form := inlineForm 0x0801 12 0 fun p => u8 p 0 ≤ 1 && u8 p 1 ≤ (if u8 p 0 = 0 then 1 else 2) && u16 p 2 == 0

def timeSetAsymRun : Cmd → State → Effect := fun c s =>
    let i := if u8 c.params 0 = 0 then u8 c.params 1 else 2 + u8 c.params 1
    okay (withTime (fun t => { t with asymIn := vset t.asymIn i (i32 c.params 4), asymOut := vset t.asymOut i (i32 c.params 8) }) s)

def execTimeSetAsym (m : Fin 8) (buf : List Byte) (s : State) : Host.Outcome State Fault Refusal :=
  command timeSetAsymForm m buf s timeSetAsymRun

/-- The BSS belongs to a station interface (R180). -/
def isUplinkBss (b : Nat) (s : State) : Bool := (List.range 3).any fun r => ((vget s.mac.radio r).uplink.map (·.bss == b)).getD false

def setTsfRun (c : Cmd) (s : State) : Effect :=
  let b := u8 c.params 0
  if ((vget s.mac.bss b).setTx.map (· != b)).getD false || isUplinkBss b s then .fail .wrongState
  else okay (withBss b (fun x => { x with tsfTb := u8 c.params 1, tsfOffset := BitVec.ofNat 64 (u64 c.params 8) }) s)

def timeSetTsfForm : Form := inlineForm 0x0802 16 0 fun p => u8 p 0 ≤ 47 && u8 p 1 ≤ 3 && zeros p 2 6

def execTimeSetTsf (m : Fin 8) (buf : List Byte) (s : State) : Host.Outcome State Fault Refusal :=
  command timeSetTsfForm m buf s setTsfRun

def timeSetPpsForm : Form :=
  inlineForm 0x0803 16 0 fun p => u8 p 0 ≤ 3 && u8 p 1 ≤ 3 && u16 p 2 == 0 && (1 ≤ u32 p 4 && u32 p 4 ≤ 500000) && (-10000 ≤ i32 p 8 && i32 p 8 ≤ 10000) && u32 p 12 ≤ 10000

def timeSetPpsRun : Cmd → State → Effect := fun c s =>
    let p := c.params
    let o : Pps := { en := bit (u8 p 0) 0, tb := u8 p 1, width := u32 p 4, delay := i32 p 8 }
    okay (withTime (fun t => { t with
      outNext := some o, riseNext := false, inEn := bit (u8 p 0) 1, inDelay := u32 p 12
      inSince := if t.inEn then t.inSince else s.now }) s)

def execTimeSetPps (m : Fin 8) (buf : List Byte) (s : State) : Host.Outcome State Fault Refusal :=
  command timeSetPpsForm m buf s timeSetPpsRun

/-- Four bytes of TIME_GET_STATUS. -/
def tbStatus (n : Nat) (s : State) : List Byte :=
  let t := vget s.time.tb n
  let age := match t.last with | some i => min 0xFFFE ((s.now - i) / 500000000) | none => 0xFFFF
  [byte (roleCode t.role), byte (put t.freeRun 0 + put t.fwOwned 1 + put s.glb.refLost 2)] ++ le 2 age

def timeGetStatusForm : Form := inlineForm 0x0804 0 16 fun _ => true

def timeGetStatusRun : Cmd → State → Effect := fun _ s => answer ((List.range 4).flatMap fun n => tbStatus n s) s

def execTimeGetStatus (m : Fin 8) (buf : List Byte) (s : State) : Host.Outcome State Fault Refusal :=
  command timeGetStatusForm m buf s timeGetStatusRun

def timeGetTsfForm : Form := inlineForm 0x0805 4 16 fun p => u8 p 0 ≤ 47 && zeros p 1 3

def timeGetTsfRun : Cmd → State → Effect := fun c s =>
    answer (le 8 (tsfOf (u8 c.params 0) s) ++ [byte (vget s.mac.bss (tsfBss (u8 c.params 0) s)).tsfTb] ++ le 7 0) s

def execTimeGetTsf (m : Fin 8) (buf : List Byte) (s : State) : Host.Outcome State Fault Refusal :=
  command timeGetTsfForm m buf s timeGetTsfRun

def timeGetCountersForm : Form := indirectForm 0x0806 0 104 fun _ => true

def timeGetCountersRun : Cmd → State → Effect := fun _ s => answer (ctrBytes s.time.ctr) s

def execTimeGetCounters (m : Fin 8) (buf : List Byte) (s : State) : Host.Outcome State Fault Refusal :=
  command timeGetCountersForm m buf s timeGetCountersRun

end Sys2Proof.Machine
end

