-- ==== Sys2Proof/Machine/RopeBase.lean ====
section
/-!
DEFINITION. The rope's shared parts (R285 to R292, R296, R298, R305, R306, R308, R311): carriage, keys, roster, pitches, time lock.
-/
namespace Sys2Proof.Machine
open Sys2Proof

def withRope (f : Rope → Rope) (s : State) : State := { s with rope := f s.rope }
def ropeCount (i k : Nat) (s : State) : State := withRope (fun x => { x with ctr := vadd x.ctr i k }) s

/-! Rope time. -/

/-- The time base in the ROPE role, TB1 by default. -/
def ropeTb (s : State) : Nat := (tbOfRole .rope s).getD 1

/-- A step of a time base by a servo (R310, R291): later than any held launch is judged again (R339). -/
def stepTb (n : Nat) (d : Int) (s : State) : State :=
  rejudge n (ropeCount 17 1 (withTb n (fun t => committed s.now (tbAt ((tb16 t : Int) + d).toNat t)) s))

/-! Roster. -/

def pitchMembers (p : Nat) (s : State) : List Nat := (s.rope.roster.filter fun m => m.2.pitch == p).map (·.1)
def anchorOf (p : Nat) (s : State) : Option Nat := (s.rope.roster.find? fun m => m.2.pitch == p && m.2.anchor).map (·.1)
def isAnchor (s : State) : Bool := myPitch s != 0xFFFF && anchorOf (myPitch s) s == some s.rope.index

/-- Rank (R298): priority, higher first, then serial, lower first. -/
def outranks (p1 s1 p2 s2 : Nat) : Bool := p1 > p2 || (p1 == p2 && s1 < s2)

/-- An entry's 24 bytes (Table 12.6), its numbers written by `num`; `use` false records a removal. -/
def entryWith (num : Nat → Nat → List Byte) (i : Nat) (m : Member) (use : Bool) : List Byte :=
  num 2 i ++ [byte m.prio, byte (put use 0 + put m.anchor 1 + put m.lead 2)] ++ num 8 m.serial ++ num 4 m.epoch ++ num 2 m.pitch ++
    pad 6 m.addr

/-- An entry as Kennar frames carry it (R2). -/
def entryBytes (i : Nat) (m : Member) (use : Bool) : List Byte := entryWith be i m use

/-- An entry read back from a frame: index, in use, entry. -/
def readEntry (p : List Byte) (o : Nat) : Nat × Bool × Member :=
  let f := u8 p (o + 3)
  (be16 p o, bit f 0, { prio := u8 p (o + 2), anchor := bit f 1, lead := bit f 2, serial := be64 p (o + 4), epoch := be32 p (o + 12),
                        pitch := be16 p (o + 16), addr := slice p (o + 18) 6 })

/-- The time parent (R308). -/
def timeParent (s : State) : Option Nat :=
  if s.rope.role ≠ .member then none
  else if isAnchor s || myPitch s = 0xFFFF then some s.rope.leadIdx
  else anchorOf (myPitch s) s

/-! Filter entries (R286). -/

/-- Group addresses of Table 12.1. -/
def ropeGroup (s : State) : List Byte := [0x03, 0x4B, 0x4E, 0x00] ++ be 2 s.rope.id
def pitchGroup (p : Nat) (s : State) : List Byte := [0x03, 0x4B, 0x4F, byte p] ++ be 2 s.rope.id
def linkNeighbour : List Byte := [0x01, 0x80, 0xC2, 0x00, 0x00, 0x0E]

/-- Free filter entries of a port, highest number first. -/
def freeFilters (p : Nat) (s : State) : List Nat := ((List.range 16).reverse.filter fun i => 1 ≤ i && !khas (vget s.eth p).filter i)

/-- The Kennar ports. -/
def knPorts (s : State) : List Nat := (List.range 2).filter (bit s.rope.ports)

/-! Fallow requests (R384 to R386). -/

def port (p : Nat) (s : State) : Port := vget s.eth p
/-- Adds to a counter of Table 15.9. -/
def portCount (p i k : Nat) (s : State) : State := withPort p (fun x => { x with ctr := vadd x.ctr i k }) s

/-- The port may step: in AN mode with 50 Gb/s advertised. -/
def mayStep (x : Port) : Bool := x.mode == 1 && bit x.anSpeeds 2

/-- Pitch Kennar traffic (R386): ROPE_JOIN names the port and the device is placed in a pitch. -/
def pitchTraffic (p : Nat) (s : State) : Bool := bit s.rope.ports p && joined s && myPitch s != 0xFFFF

/-- A fallow frame leaves: 64 bytes, handled in the port (Table 15.7). -/
def fallowSend (p type target seq : Nat) (s : State) : State :=
  portCount p 10 64 (portCount p 9 1
    (emit (.fallow p type (put (port p s).fallow 0 + put (pitchTraffic p s) 1) target seq) s))

/-- STEP_REQ for a speed; one request and one step at a time. -/
def stepRequest (p target : Nat) (s : State) : State :=
  let x := port p s
  if !x.up || !mayStep x || x.capsAt.isNone || x.freq.isSome || x.stepping.isSome then s
  else fallowSend p 1 target x.fseq (withPort p (fun x => { x with freq := some (x.fseq, target), freqAt := s.now, fseq := (x.fseq + 1) % 2 ^ 32 }) s)

/-- A port is to step up: stepping enabled, or turned off below 50 Gb/s. -/
def wantsUp (x : Port) : Bool := (x.fallow || x.upDue) && x.speed < 3

/-! Pitch entries. -/

/-- A port whose pitch traffic starts below 50 Gb/s asks for an up step at once (R386). -/
def pitchStart (p : Nat) (s : State) : State :=
  if pitchTraffic p s && wantsUp (port p s) then stepRequest p ((port p s).speed + 1) s else s

/-- The pitch entries follow the device's pitch; a port whose entry becomes valid starts to carry pitch traffic. -/
def syncPitch (s : State) : State :=
  (knPorts s).foldl (fun t p =>
    let was := (port p t).filter.any fun e => e.2.rope = 2 && e.2.valid
    let u := withPort p (fun x => { x with filter := x.filter.map fun e =>
      if e.2.rope = 2 then (e.1, { e.2 with valid := myPitch s != 0xFFFF, addr := pitchGroup (myPitch s) s }) else e }) t
    if was then u else pitchStart p u) s

/-- A port gives its three entries. -/
def takeFilters (s : State) (p : Nat) : State :=
  match freeFilters p s with
  | a :: b :: c :: _ =>
    withPort p (fun x => { x with filter := kset (kset (kset x.filter a { addr := ropeGroup s, rope := 1 })
      b { addr := pitchGroup 0 s, rope := 2, valid := false }) c { addr := linkNeighbour, rope := 3 } }) s
  | _ => s

/-- A port gets its entries back. -/
def dropFilters (s : State) (p : Nat) : State := withPort p (fun x => { x with filter := x.filter.filter fun e => e.2.rope == 0 }) s

/-! Sending. -/

/-- Bytes of a Kennar frame with its FCS, padded to 64 (R287, R377). -/
def knLen (payload : List Byte) (s : State) : Nat := max 64 (14 + (if s.rope.vlan = 0 then 0 else 4) + 24 + payload.length + 16 + 4)

/-- A port sends one copy, as express traffic. A port whose link is down drops it (R373); with MACsec enabled it is protected, and
without a usable association it is not sent (R404). -/
def knPort (len : Nat) (s : State) (p : Nat) : State :=
  if !(vget s.eth p).up then portCount p 12 1 s
  else if !(vget s.sec.port p).en then portCount p 14 1 (portCount p 10 len (portCount p 9 1 s))
  else match activeSa p s with
    | none => secCount 13 1 s
    | some (_, sa) => match takePn sa.slot s with
      | (some _, t) => portCount p 14 1 (portCount p 10 (len + 32) (portCount p 9 1 (secCount 0 1 t)))
      | (none, t) => secCount 13 1 t

/-- Sends one frame on ports of a bitmap, with the next counter (R286, R289). -/
def knSendOn (ports type dst scope : Nat) (payload : List Byte) (s : State) : State :=
  let key (p : Nat) : Bool := !(vget s.sec.port p).en || (match activeSa p s with | some q => 0 < pnLeft q.2.slot s | none => false)
  let up := maskOf ((List.range 2).map fun p => bit ports p && (vget s.eth p).up && key p)
  let t := ((List.range 2).filter (bit ports)).foldl (knPort (knLen payload s)) s
  let u := withRope (fun x => { x with counter := x.counter + 1 }) t
  if up = 0 then u else ropeCount 0 (popCount 2 up) (emit (.kennar up type dst scope s.rope.counter payload) u)

def knSend (type dst scope : Nat) (payload : List Byte) (s : State) : State := knSendOn s.rope.ports type dst scope payload s
def knUnicast (type dst : Nat) (payload : List Byte) (s : State) : State := knSend type dst 0 payload s
def knRope (type : Nat) (payload : List Byte) (s : State) : State := knSend type 0x3FF 2 payload s
def knPitch (type : Nat) (payload : List Byte) (s : State) : State := knSend type 0x3FF 1 payload s

/-! Receiving (R290). -/

/-- A key is held for the phase a frame names (R292). -/
def phaseKey (ph : Bool) (s : State) : Bool :=
  ph == s.rope.phase || s.rope.oldPhase || (s.rope.nextSlot.isSome && s.rope.switchNum != 0)

/-- The sender's key comes from the cache, or is derived (R288). -/
def knKey (f : KnFrame) (s : State) : State :=
  let k := (f.src.val, f.epoch, f.phase)
  if s.rope.cache.contains k then withRope (fun x => { x with cache := k :: x.cache.erase k }) s
  else ropeCount 7 1 (withRope (fun x => { x with cache := (k :: x.cache).take 64 }) s)

/-- The counter window of the sender now. -/
def winOf (f : KnFrame) (s : State) : KnWin :=
  match kget s.rope.win f.src.val with
  | some w => if w.epoch = f.epoch then w else { epoch := f.epoch }
  | none => { epoch := f.epoch }

/-- The window after a counter is accepted. -/
def winAccept (c : Nat) (w : KnWin) : KnWin :=
  let h := max w.high c
  { w with high := h, seen := (c :: w.seen).filter fun n => n + 63 ≥ h }

/-- The checks in their order: the frame is accepted, or counted and discarded. `open_`: it needs no roster entry. `fresh`:
its BELAY_NUM check, where it has one. -/
def knCheck (f : KnFrame) (open_ fresh : Bool) (s : State) : Bool × State :=
  if s.rope.role = .none then (false, s)
  else if f.version ≠ 1 ∨ f.rope ≠ s.rope.id ∨ !f.fits then (false, ropeCount 2 1 s)
  else if !open_ && ((memberOf f.src.val s).map (·.epoch)) != some f.epoch then (false, ropeCount 3 1 s)
  else
    let t := knKey f s
    if !f.tagOk || !phaseKey f.phase s then (false, ropeCount 4 1 t)
    else
      let w := winOf f t
      if f.counter + 63 < w.high then (false, ropeCount 5 1 t)
      else if f.counter ≤ w.high ∧ w.seen.contains f.counter then (false, ropeCount 6 1 t)
      else
        let u := withRope (fun x => { x with win := kset x.win f.src.val (winAccept f.counter w) }) t
        if !fresh then (false, ropeCount 5 1 u) else (true, ropeCount 1 1 u)

/-- What a frame that passes does. -/
def knRx (f : KnFrame) (open_ : Bool) (run : State → State) (s : State) : State :=
  let p := knCheck f open_ true s
  if p.1 then run p.2 else p.2

/-! The lead publishes roster changes (R296). -/

/-- One change: the version rises and the last 16 changes are kept. -/
def publish (i : Nat) (m : Member) (use : Bool) (s : State) : State :=
  withRope (fun x => { x with
    rosterVer := x.rosterVer + 1
    roster := if use then kset x.roster i m else kdel x.roster i
    changes := let l := x.changes ++ [(x.rosterVer + 1, entryBytes i m use)]
               l.drop (l.length - 16) }) s

/-! Pitches (R276, R305, R306). -/

/-- The level at which member `a` hears a BSSID of member `b`: the strongest. -/
def hearsAt (a b : Nat) (s : State) : Option Int :=
  match kget s.rope.reports a, kget s.rope.reports b with
  | some x, some y => ((x.heard.filter fun h => y.own.contains h.1).map (·.2)).foldl (fun m v => match m with
      | none => some v
      | some w => some (max v w)) none
  | _, _ => none

/-- Coupling: the stronger of the two mutual receive levels. -/
def coupling (a b : Nat) (s : State) : Option Int :=
  match hearsAt a b s, hearsAt b a s with
  | some x, some y => some (max x y)
  | some x, none => some x
  | none, y => y

/-- PITCH_COUPLE. -/
def coupled (a b : Nat) (s : State) : Bool := match coupling a b s with | some v => -82 ≤ v | none => false

/-- Summed coupling of a member to others. -/
def couplingSum (a : Nat) (l : List Nat) (s : State) : Nat :=
  (l.map fun b => match coupling a b s with | some v => Config.linPower v | none => 0).sum

/-- Members a placement may be given to: those whose reports are in, not in START_UP. -/
def placeable (s : State) : List Nat :=
  (s.rope.roster.map (·.1)).filter fun i => match kget s.rope.reports i with | some r => !r.startUp | none => false

/-- The pitch a PIN_PITCH fence gives a member, with the fence's number. -/
def pinnedPitch (i : Nat) (s : State) : Option (Nat × Nat) :=
  (s.seed.fences.find? fun p => p.2.kind == 4 && u16 p.2.bytes 4 == i).map fun p => (p.1, u8 p.2.bytes 6)

/-- A member is put into a pitch: a roster change and a log entry. The anchor changes when its pitch does. -/
def setPitch (reason fence i p : Nat) (forced : Bool) (s : State) : State :=
  match memberOf i s with
  | none => s
  | some m => if m.pitch = p then s
    else place 7 reason fence i p forced (publish i { m with pitch := p, anchor := false } true s)

/-- The anchor of a pitch without one: most direct-link neighbours in the pitch, then best rank (R306). -/
def nameAnchor (p : Nat) (s : State) : State :=
  if (anchorOf p s).isSome then s
  else
    let ms := pitchMembers p s
    let links (i : Nat) : Nat := match kget s.rope.reports i with | some r => (r.direct.filter ms.contains).length | none => 0
    let better (a b : Nat) : Bool := links a > links b || (links a == links b &&
      match memberOf a s, memberOf b s with
      | some x, some y => outranks x.prio x.serial y.prio y.serial
      | _, _ => false)
    match ms.find? fun a => ms.all fun b => a == b || !better b a with
    | none => s
    | some a => match memberOf a s with
      | some m => publish a { m with anchor := true } true s
      | none => s

def nameAnchors (s : State) : State := (List.range 256).foldl (fun t p => nameAnchor p t) s

/-- The best of a list by a value; the first on a tie. -/
def argMax (f : Nat → Nat) (l : List Nat) : Option Nat := l.find? fun a => l.all fun b => f b ≤ f a

/-- Members without a pitch. -/
def unpitched (s : State) : List Nat := (placeable s).filter fun i => pitchOf i s == 0xFFFF && (pinnedPitch i s).isNone

/-- Pitches in use with room. -/
def openPitches (s : State) : List Nat :=
  (List.range 256).filter fun p => let n := (pitchMembers p s).length
    1 ≤ n && n < 16

/-- An unpitched member joins the pitch with the highest summed coupling among those it is coupled to. -/
def joinPitch (reason : Nat) (s : State) (i : Nat) : State :=
  let ps := (openPitches s).filter fun p => (pitchMembers p s).any fun j => coupled i j s
  match argMax (fun p => couplingSum i (pitchMembers p s) s) ps with
  | some p => setPitch reason 0xFFFF i p false s
  | none => s

/-- A new pitch grows by the unpitched member with the highest summed coupling to it, while one is coupled and there is room. -/
def growPitch (reason p : Nat) : Nat → State → State
  | 0, s => s
  | k + 1, s =>
    let ms := pitchMembers p s
    let c := (unpitched s).filter fun i => ms.any fun j => coupled i j s
    if ms.length ≥ 16 then s
    else match argMax (fun i => couplingSum i ms s) c with
      | some i => growPitch reason p k (setPitch reason 0xFFFF i p false s)
      | none => s

/-- A new pitch starts from the most strongly coupled unpitched pair. -/
def startPitch (reason : Nat) (s : State) : State :=
  let u := unpitched s
  let pairs := u.flatMap fun a => (u.filter fun b => a < b && coupled a b s).map fun b => (a, b)
  let lvl (q : Nat × Nat) : Int := (coupling q.1 q.2 s).getD (-1000)
  match pairs.find? fun q => pairs.all fun t => lvl t ≤ lvl q, (List.range 256).find? fun p => (pitchMembers p s).isEmpty with
  | some q, some p => growPitch reason p 14 (setPitch reason 0xFFFF q.2 p false (setPitch reason 0xFFFF q.1 p false s))
  | _, _ => s

/-- Every pinned member goes to its pitch (R276); one in a full pitch stays. -/
def pinPitches (reason : Nat) (s : State) : State :=
  (placeable s).foldl (fun t i => match pinnedPitch i t with
    | some (f, p) => if pitchOf i t = p ∨ (pitchMembers p t).length ≥ 16 then t else setPitch reason f i p true t
    | none => t) s

/-- Members without a pitch are placed, pinned ones first, and pitches get their anchors; none in START_UP (R264, R305). -/
def placePitches (reason : Nat) (s : State) : State :=
  if s.rope.role ≠ .lead || s.life.mode == .startUp || !coordMode s && myPitch s != 0xFFFF then s
  else
    let t := pinPitches reason s
    let u := (unpitched t).foldl (joinPitch reason) t
    nameAnchors ((List.range (unpitched u).length).foldl (fun v _ => startPitch reason v) u)

/-! Time lock (R311). -/

/-- The last 8 exchanges each measured at most 10 ns. -/
def timeLocked (s : State) : Bool :=
  8 ≤ s.rope.exch.length && (s.rope.exch.take 8).all fun e => e.1.natAbs ≤ 655360

/-- The spread of the delays of the last 16 exchanges, halved and rounded up, in ns. -/
def delaySpread (s : State) : Nat :=
  let d := s.rope.exch.map (·.2)
  let hi := d.foldl max (d.headD 0)
  let lo := d.foldl min (d.headD 0)
  ceilDiv (hi - lo).toNat 131072

/-- The alignment bound E in ns; none while unbounded. -/
def alignE (s : State) : Option Nat :=
  if isAnchor s then some 0
  else if !timeLocked s then none
  else
    let direct := match timeParent s with
      | some p => match kget s.rope.hellos p with
        | some h => h.1 == s.rope.exchPort && decide (s.now < h.2 + 524288000)
        | none => false
      | none => false
    let base := if direct then 25 else 25 + delaySpread s
    some (if s.rope.lostRun ≥ 4 then base + ceilDiv ((s.now - s.rope.goodAt) * 100) 500000000 else base)

/-- It may take part in coordinated TXOPs as to time (R310, R311). -/
def alignOk (s : State) : Bool := s.rope.quiet == 0 && match alignE s with | some e => decide (e ≤ s.rope.eMax) | none => false

/-! Leaving coordinated mode (R211, R301). -/

/-- Constraints of slots not yet begun are dropped, and a ready coordinated furrow is discarded. -/
def leaveCoord (s0 : State) : State :=
  let s := withSeed (fun x => { x with resumed := true }) s0
  (List.range 3).foldl (fun t r =>
    let u := withRs r (fun k => { k with pitch := k.pitch.filter fun p => p.slot ≤ s.rope.nowSlot }) t
    if ((vget u.sched.radio r).ready.map (·.coord)).getD false then furrowDrop r u else u) s

/-- The device is out of the rope: filter entries go, the rope time base is the host's again; counters, epoch and frame counter
stay. -/
def leaveRope (s : State) : State :=
  let t := (List.range 2).foldl dropFilters (leaveCoord s)
  let u := withTb (ropeTb s) (fun b => { b with fwOwned := false }) t
  withRope (fun x => { ({} : Rope) with epoch := x.epoch, counter := x.counter, ctr := x.ctr, nowSlot := x.nowSlot }) u

end Sys2Proof.Machine
end

