-- ==== Sys2Proof/Machine/Rope.lean ====
section
/-!
DEFINITION. Joining, the roster, belays and their loss, time exchanges, and the rope commands (R291 to R310, Table 12.14).
-/
namespace Sys2Proof.Machine
open Sys2Proof

/-! Joining (R293 to R295). -/

/-- ROPE_JOIN parameters. -/
def joinOk (p : List Byte) : Bool :=
  u16 p 2 ≤ 1023 && u16 p 4 ≤ 2559 && (u8 p 7 < 16 && u8 p 7 % 4 != 0) && u16 p 8 ≤ 4094 && (10 ≤ u8 p 10 && u8 p 10 ≤ 100) &&
    (256 ≤ u16 p 12 && u16 p 12 ≤ 3072 && u16 p 12 % 64 == 0) && (1 ≤ u8 p 14 && u8 p 14 ≤ 20) && u8 p 15 == 0 && u16 p 18 == 0

/-- A slot holds a Kennar key. -/
def kennarKey (k : Nat) (s : State) : Bool := ((kget s.sec.slots k).map (·.kind == 5)).getD false

/-- The join starts: filter entries taken, the rope time base Builmin's (R286, R326). -/
def startJoin (s : State) : State :=
  let t := withRope (fun x => { x with role := .joining, began := s.now, stepped := false, heardBelay := false, accepted := false
                                       joinReqAt := none, roster := [], full := false, lost := false, misses := 0, good := 0
                                       reportAt := none, helloAt := none, clientsAt := none, told := [], treqSlot := none, treq := none
                                       exch := [], propSlot := none }) s
  withTb (ropeTb s) (fun b => { b with fwOwned := true }) t

/-- What ROPE_JOIN stores before it starts (Table 12.14). -/
def joinWrite (h : Word) (p : List Byte) (s : State) : State :=
  withRope (fun x => { x with
    id := u16 p 0, index := u16 p 2, slot := u16 p 4, prio := u8 p 6, ports := u8 p 7 % 4, timeSource := bit (u8 p 7) 2, form := bit (u8 p 7) 3
    vlan := u16 p 8, eMax := u8 p 10, txCap := i8 p 11, coordMax := u16 p 12, belayWait := u8 p 14
    etype := if u16 p 16 = 0 then 0x88B5 else u16 p 16, join := some h, phase := false, oldPhase := false, nextSlot := none }) s

/-- ROPE_JOIN: it stays outstanding until the full roster is held. -/
def ropeJoinRun (c : Cmd) (s : State) : Effect :=
  let p := c.params
  if s.rope.role ≠ .none ∨ s.life.lcState = 3 ∨ (tbOfRole .rope s).isNone ∨ !kennarKey (u16 p 4) s then .fail .wrongState
  else
    let t := joinWrite c.handle p s
    if (knPorts t).any fun q => (freeFilters q s).length < 3 then .fail .noResource
    else .hold (startJoin ((knPorts t).foldl takeFilters t))

def ropeJoinForm : Form := inlineForm 0x0700 20 8 joinOk

def execRopeJoin (m : Fin 8) (buf : List Byte) (s : State) : Host.Outcome State Fault Refusal :=
  command ropeJoinForm m buf s ropeJoinRun

/-- The device's port address (its first Kennar port). -/
def knAddr (s : State) : List Byte := (vget s.eth ((knPorts s).headD 0)).mac

/-- A JOIN_REQ with a fresh challenge (R294). -/
def joinReqNow (s : State) : State :=
  let d := draw 128 s
  let nm := le 16 d.1.toNat
  knRope 2 (be 8 s.glb.serial.toNat ++ [byte s.rope.prio, 0, 0, 0] ++ nm ++ pad 6 (knAddr s))
    (withRope (fun x => { x with nm := nm, joinReqAt := some s.now }) d.2)

/-- JOIN_REQ_SEND: at start, and every 100 TU until accepted (Table 12.3). -/
def joinReqSend (s : State) : State :=
  if s.rope.role ≠ .joining ∨ s.rope.accepted ∨ !s.rope.joinReqAt.all fun t => t + 51200000 ≤ s.now then s else joinReqNow s

def execJoinReqSend (s : State) : Host.Outcome State Fault Refusal := whenRunning s joinReqSend

/-- The holder of an index still sends its REPORTs; the lead itself does (Table 12.5, R297). -/
def reportsCurrent (i : Nat) (s : State) : Bool :=
  i == s.rope.index || (match kget s.rope.seenAt i with | some t => decide (s.now < t + 2621440000) | none => false)

/-- JOIN_REQ at the lead (R294, R289): it answers with JOIN_ACK. -/
def joinReqRx (f : KnFrame) (s : State) : State :=
  let p := f.payload
  let i := f.src.val
  if s.rope.role ≠ .lead then s
  else
    let used := match memberOf i s with | some m => m.serial != be64 p 0 && reportsCurrent i s | none => false
    let reused := ((kget s.rope.epochs i).getD []).contains f.epoch
    let st := if used then 1 else if reused then 2 else 0
    let d := draw 128 s
    let nl := le 16 d.1.toNat
    let e : Member := { prio := u8 p 8, serial := be64 p 0, epoch := f.epoch, addr := slice p 28 6, pitch := pitchOf i s }
    let t := if st = 0 then withRope (fun x => { x with issued := kset x.issued i { nl := nl, at_ := s.now, entry := e } }) d.2
      else ropeCount 12 1 d.2
    knUnicast 3 i ([byte st, 0] ++ be 2 s.rope.index ++ be 4 s.rope.term ++ be 4 s.rope.rosterVer ++ slice p 12 16 ++ nl) t

def execJoinReq (f : KnFrame) (s : State) : Host.Outcome State Fault Refusal :=
  whenRunning s (knRx f (s.rope.role == .lead) (joinReqRx f))

/-- The join ends without success: the command completes and the device stays out. -/
def joinFail (st : Status) (s : State) : State := finishOpt s.rope.join st [] (leaveRope s)

/-- JOIN_ACK at a joining device (Table 12.5). -/
def joinAckRx (f : KnFrame) (s : State) : State :=
  let p := f.payload
  if s.rope.role ≠ .joining ∨ slice p 12 16 ≠ s.rope.nm then s
  else
    match u8 p 0 with
    | 0 => knUnicast 4 (be16 p 2) (slice p 28 16) (withRope (fun x => { x with
        accepted := true, leadIdx := be16 p 2, term := be32 p 4, rosterVer := be32 p 8 }) s)
    | 1 => joinFail .badParam s
    | 2 => let d := draw 32 s
      joinReqNow (withRope (fun x => { x with epoch := d.1.toNat, counter := 1 }) d.2)
    | _ => joinFail .wrongState s

def execJoinAck (f : KnFrame) (s : State) : Host.Outcome State Fault Refusal :=
  whenRunning s (knRx f (s.rope.role == .joining) (joinAckRx f))

/-- JOIN_CONFIRM at the lead: the latest N_l issued within the last 1 s; the entry is written and published. -/
def joinConfirmRx (f : KnFrame) (s : State) : State :=
  let i := f.src.val
  match kget s.rope.issued i with
  | none => s
  | some q =>
    if s.rope.role ≠ .lead ∨ q.nl ≠ slice f.payload 0 16 ∨ s.now ≥ q.at_ + 500000000 ∨ q.entry.epoch ≠ f.epoch then s
    else
      let old := s.rope.roster.filter fun m => m.2.serial == q.entry.serial && m.1 != i
      let t := old.foldl (fun t m => publish m.1 m.2 false t) s
      let u := publish i { q.entry with lead := false } true (withRope (fun x => { x with
        issued := kdel x.issued i, seenAt := kset x.seenAt i s.now
        epochs := kset x.epochs i ((f.epoch :: (kget x.epochs i).getD []).take 16) }) t)
      placePitches 0x0C u

def execJoinConfirm (f : KnFrame) (s : State) : Host.Outcome State Fault Refusal :=
  whenRunning s (knRx f (s.rope.role == .lead) (joinConfirmRx f))

/-- JOIN_TIMEOUT (R295): 1,024 ms after the start. -/
def joinTimeout (s : State) : State :=
  if s.rope.role ≠ .joining ∨ s.rope.accepted ∨ s.now < s.rope.began + 512000000 ∨ (s.rope.form ∧ !s.rope.heardBelay) then s else joinFail .timeout s

def execJoinTimeout (s : State) : Host.Outcome State Fault Refusal := whenRunning s joinTimeout

/-- Completion data of ROPE_JOIN. -/
def joinData (s : State) : List Byte :=
  [byte (if s.rope.role = .lead then 3 else 2), 0] ++ le 2 s.rope.leadIdx ++ le 4 s.rope.term

/-- The device as a roster entry. -/
def selfEntry (s : State) : Member :=
  { prio := s.rope.prio, lead := true, serial := s.glb.serial.toNat, epoch := s.rope.epoch, pitch := myPitch s, addr := knAddr s }

/-- The device becomes lead of a term (R295, R302): the offset to TB0 is fixed (R308). -/
def becomeLead (term : Nat) (s : State) : State :=
  withRope (fun x => { x with
    role := .lead, leadIdx := x.index, leadSerial := s.glb.serial.toNat, leadPrio := x.prio, term := term, lost := false, misses := 0, good := 0
    handover := false, seenAt := x.roster.map fun m => (m.1, s.now), srcOffset := (tbTotal (ropeTb s) s : Int) - (tbTotal 0 s : Int) }) s

/-- ROPE_FORM (R295): FORM set and no belay heard within 307.2 ms of the start: lead with term 1 and a roster of itself at version 1. -/
def ropeForm (s : State) : State :=
  if s.rope.role ≠ .joining ∨ !s.rope.form ∨ s.rope.heardBelay ∨ s.now < s.rope.began + 153600000 then s
  else
    let t := publish s.rope.index (selfEntry s) true (withRope (fun x => { x with
      roster := [], rosterVer := 0, changes := [], lastBelay := ropeNs s / belayNs }) (becomeLead 1 s))
    finishOpt t.rope.join .ok (joinData t) (withRope (fun x => { x with join := none, full := true }) t)

def execRopeForm (s : State) : Host.Outcome State Fault Refusal := whenRunning s ropeForm

/-! Leaving (R297). -/

/-- ROPE_LEAVE. -/
def ropeLeaveRun (c : Cmd) (s : State) : Effect :=
  let h := bit (u8 c.params 0) 0
  if !joined s || (h && s.rope.role != .lead) then .fail .wrongState
  else okay (leaveRope (knRope 5 ([byte (put h 0)] ++ le 7 0) s))

def ropeLeaveForm : Form := inlineForm 0x0701 4 0 fun p => u8 p 0 ≤ 1 && zeros p 1 3

def execRopeLeave (m : Fin 8) (buf : List Byte) (s : State) : Host.Outcome State Fault Refusal :=
  command ropeLeaveForm m buf s ropeLeaveRun

/-- The lead removes a member, and pitches get new anchors. -/
def removeMember (i : Nat) (s : State) : State :=
  match memberOf i s with
  | none => s
  | some m =>
    let t := unplace 7 i (publish i m false (withRope (fun x => { x with reports := kdel x.reports i, seenAt := kdel x.seenAt i }) s))
    if s.life.mode == .startUp then t else nameAnchors t

/-- LEAVE: the lead removes the member; a handover makes the first successor take the next belay. -/
def leaveRx (f : KnFrame) (s : State) : State :=
  let i := f.src.val
  if s.rope.role = .lead then removeMember i s
  else if s.rope.role = .member ∧ i = s.rope.leadIdx ∧ u8 f.payload 0 = 1 ∧ s.rope.succ.head? = some s.rope.index then
    withRope (fun x => { x with handover := true }) s
  else s

def execLeave (f : KnFrame) (s : State) : Host.Outcome State Fault Refusal := whenRunning s (knRx f false (leaveRx f))

/-- MEMBER_TIMEOUT: no REPORT for 5 report intervals. -/
def memberTimeout (i : Nat) (s : State) : State :=
  if s.rope.role ≠ .lead ∨ (memberOf i s).isNone ∨ reportsCurrent i s then s else removeMember i (ropeCount 13 1 s)

def execMemberTimeout (i : Fin 1024) (s : State) : Host.Outcome State Fault Refusal := whenRunning s (memberTimeout i)

/-! Roster transfer (R296). -/

/-- ROSTER_REQ at the lead: the whole roster, up to 60 entries a frame. -/
def rosterReqRx (f : KnFrame) (s : State) : State :=
  if s.rope.role ≠ .lead then s
  else
    let l := s.rope.roster.map fun m => entryBytes m.1 m.2 true
    let n := max 1 (ceilDiv l.length 60)
    (List.range n).foldl (fun t k =>
      let part := (l.drop (60 * k)).take 60
      knUnicast 7 f.src.val (be 4 s.rope.rosterVer ++ [byte k, byte n, byte part.length, 0] ++ part.flatten) t) s

def execRosterReq (f : KnFrame) (s : State) : Host.Outcome State Fault Refusal := whenRunning s (knRx f false (rosterReqRx f))

/-- A member whose roster is behind asks for the whole of it. -/
def askRoster (s : State) : State := knUnicast 6 s.rope.leadIdx (be 4 0) (withRope (fun x => { x with rosterRx := [], rosterAsk := true }) s)

/-- The number of the last belay whose window has closed by now (R300). -/
def windowNow (s : State) : Nat := (ropeNs s - s.rope.belayWait * 1000000) / belayNs

/-- A joining device whose entry has arrived is a member (R294); the windows that close from now on count. -/
def becomeMember (s : State) : State := withRope (fun x => { x with role := .member, winNum := windowNow s, inWindow := false }) s

/-- A device that has not yet the roster takes its lead's belays and ROSTER frames: the join gave it the lead's index (R294). -/
def fromLead (f : KnFrame) (s : State) : Bool := s.rope.role == .member && !s.rope.full && f.src.val == s.rope.leadIdx

/-- ROSTER frames: a whole set replaces the roster; ROPE_JOIN completes with it. -/
def rosterRx (f : KnFrame) (s : State) : State :=
  let p := f.payload
  if s.rope.role = .lead then s
  else
    let n := u8 p 6
    let entries := (List.range n).map fun k => slice p (8 + 24 * k) 24
    let key := be32 p 0 * 256
    let rx := kset (s.rope.rosterRx.filter fun q => q.1 / 256 == be32 p 0) (key + u8 p 4) entries
    let t := withRope (fun x => { x with rosterRx := rx }) s
    if rx.length < u8 p 5 then t
    else
      let all := rx.flatMap (·.2)
      let ro := all.foldl (fun (m : KMap Member) b => let e := readEntry b 0; if e.2.1 then kset m e.1 e.2.2 else m) []
      let old := anchorOf (myPitch s) s
      let u := withRope (fun x => { x with roster := ro, rosterVer := be32 p 0, full := true, rosterRx := [], rosterAsk := false }) t
      let own : Bool := match memberOf u.rope.index u with | some m => m.serial == u.glb.serial.toNat | none => false
      let v := if u.rope.role = .joining ∧ own then becomeMember u else u
      let w := syncPitch (if anchorOf (myPitch v) v = old then v else withRope (fun x => { x with exch := [] }) v)
      if w.rope.role = .member then finishOpt w.rope.join .ok (joinData w) (withRope (fun x => { x with join := none }) w) else w

def execRoster (f : KnFrame) (s : State) : Host.Outcome State Fault Refusal :=
  whenRunning s (knRx f (s.rope.role == .joining || fromLead f s) (rosterRx f))

/-! Belays. -/

/-- The key switch of R292: this device seals with the next key, if one is loaded. -/
def switchKey (k : Nat) (s : State) : State :=
  if s.rope.switchNum = 0 ∨ k < s.rope.switchNum then s
  else match s.rope.nextSlot with
    | some n => withRope (fun x => { x with slot := n, nextSlot := none, phase := !x.phase, oldPhase := true, switchNum := 0, switchedAt := x.switchNum }) s
    | none => s

/-- KEY_PHASE_EXPIRY (R292): 8 belay intervals after the switch. -/
def execKeyPhaseExpiry (s : State) : Host.Outcome State Fault Refusal :=
  whenRunning s fun s => if ropeNs s / belayNs < s.rope.switchedAt + 8 then s else withRope (fun x => { x with oldPhase := false }) s

/-- The 8 best-ranked members with priority above 0, the lead excluded (R298). -/
def successors (s : State) : List Nat :=
  let ms := s.rope.roster.filter fun m => m.1 != s.rope.index && m.2.prio > 0
  let ins (l : List (Nat × Member)) (m : Nat × Member) : List (Nat × Member) :=
    let (a, b) := l.span fun x => outranks x.2.prio x.2.serial m.2.prio m.2.serial
    a ++ m :: b
  ((ms.foldl ins []).take 8).map (·.1)

/-- BELAY's payload (Table 12.7). -/
def belayPayload (k : Nat) (hand : Bool) (s : State) : List Byte :=
  let su := successors s
  let tk := k * belayNs
  be 8 k ++ be 4 s.rope.term ++ be 2 s.rope.index ++ [byte s.rope.prio, byte (put (s.rope.switchNum != 0) 0 + put hand 1)] ++
    be 8 s.glb.serial.toNat ++ be 4 s.rope.rosterVer ++ be 2 s.rope.roster.length ++ be 2 0 ++ be 8 s.rope.switchNum ++
    (List.range 8).flatMap (fun i => be 2 (su.getD i 0xFFFF)) ++ be 6 (tk / 10 ^ 9) ++ be 4 (tk % 10 ^ 9) ++
    [byte s.rope.changes.length, 0] ++ s.rope.changes.flatMap fun c => be 4 c.1 ++ c.2

/-- The number of the belay whose instant T_k was the last. -/
def belayNow (s : State) : Nat := ropeNs s / belayNs

/-- The successor position from which this device takes over with belay `k` (R302), 0 past the last successor; none where it does
not. -/
def takesOver (k : Nat) (s : State) : Option Nat :=
  let x := s.rope
  if x.role ≠ .member then none
  else if x.handover then (if x.lastBelay < k then some 1 else none)
  else if !x.lost then none
  else
    match (List.range x.succ.length).find? fun i => x.succ.getD i 0xFFFF == x.index with
    | some i => if k = x.lastBelay + 3 + 3 * (i + 1) then some (i + 1) else if k = x.lastBelay + 30 then some 0 else none
    | none => if k = x.lastBelay + 30 ∧ 0 < x.prio then some 0 else none

/-- The lead holds its rope time at TB0 plus the offset (R308). -/
def followSource (s : State) : State :=
  if s.rope.timeSource then
    withTb (ropeTb s) (fun t => committed s.now (tbAt (((tbTotal 0 s : Int) + s.rope.srcOffset).toNat * 65536 + (vget s.time.tb 0).frac) t)) s
  else s

/-- BELAY_SEND (R299, R302): the lead's belay, or a successor's first one as lead. -/
def belaySend (s0 : State) : State :=
  let s := if s0.rope.role = .lead then followSource s0 else s0
  let k := belayNow s
  if s.rope.role = .lead then
    if k = s.rope.lastBelay then s
    else
    let t := switchKey k s
    withRope (fun x => { x with lastBelay := k }) (knRope 1 (belayPayload k false t) t)
  else
    match takesOver k s with
    | none => s
    | some pos =>
      let old := s.rope.leadIdx
      let t := becomeLead (s.rope.term + 1) s
      let u := match memberOf old t with | some m => publish old m false t | none => t
      let self := (memberOf s.rope.index s).getD (selfEntry s)
      let v := publish s.rope.index { self with lead := true } true u
      let w := raise .leadTakeover s.rope.index (le 4 v.rope.term ++ [byte pos]) (ropeCount 10 1 v)
      let y := switchKey k w
      withRope (fun x => { x with lastBelay := k }) (knRope 1 (belayPayload k s.rope.handover y) y)

def execBelaySend (s : State) : Host.Outcome State Fault Refusal := whenRunning s belaySend

/-- Rope time at a frame's corrected ingress stamp, in 2^-16 ns. -/
def ropeStamp (f : KnFrame) (s : State) : Int := stamp16 (ropeTb s) (-(vget s.time.asymIn f.port.val)) s

/-- BELAY_NUM is fresh (R290); a joining device skips the check until a belay has stepped its time (R291). -/
def belayFresh (f : KnFrame) (s : State) : Bool :=
  (s.rope.role == .joining && !s.rope.stepped) ||
    (let k : Int := be64 f.payload 0
     let n : Int := ropeNs s / belayNs
     decide (n - 1 ≤ k) && decide (k ≤ n + 1))

/-- Changes of a belay in version order: applied while each follows the version held; a gap asks for the whole roster. -/
def applyChanges (l : List (List Byte)) (latest : Nat) (s : State) : State :=
  let t := l.foldl (fun t b =>
    if be32 b 0 = t.rope.rosterVer + 1 then
      let e := readEntry b 4
      withRope (fun x => { x with rosterVer := x.rosterVer + 1, roster := if e.2.1 then kset x.roster e.1 e.2.2 else kdel x.roster e.1 }) t
    else t) s
  let own := l.any fun b => (readEntry b 4).1 == s.rope.index && (readEntry b 4).2.1 && (readEntry b 4).2.2.serial == s.glb.serial.toNat
  if s.rope.role = .joining then
    if own then askRoster (becomeMember t) else t
  else if t.rope.rosterVer ≠ latest ∨ !t.rope.full then askRoster t else t

/-- The belay wins over what the device follows (R303): a higher term, or the better rank on an equal one. -/
def belayWins (term prio serial : Nat) (s : State) : Bool :=
  term > s.rope.term || (term == s.rope.term && outranks prio serial s.rope.leadPrio s.rope.leadSerial)

/-- The belay satisfies the window it falls in (R300, R304). -/
def satisfyWindow (f : KnFrame) (sameLead : Bool) (s : State) : State :=
  let at_ := ropeStamp f s / 65536
  let tk : Int := be64 f.payload 0 * belayNs
  if at_ < tk - 1000000 ∨ tk + s.rope.belayWait * 1000000 ≤ at_ ∨ s.rope.inWindow then s
  else
    let g := if !s.rope.lost then 0 else if sameLead then s.rope.good + 1 else 1
    let t := withRope (fun x => { x with inWindow := true, misses := 0, good := g }) s
    if s.rope.lost && g ≥ 2 && myPitch s != 0xFFFF then
      raise .ropeRejoined s.rope.leadIdx (le 4 s.rope.term) (withRope (fun x => { x with lost := false, good := 0 }) t)
    else t

/-- BELAY at a member that follows it, or at a joining device. -/
def followBelay (f : KnFrame) (s : State) : State :=
  let p := f.payload
  let k := be64 p 0
  let lead := be16 p 12
  let same := lead == s.rope.leadIdx && be64 p 16 == s.rope.leadSerial
  let pos := match (List.range s.rope.succ.length).find? fun i => s.rope.succ.getD i 0xFFFF == lead with
    | some i => if be32 p 8 = s.rope.term + 1 then i + 1 else 0
    | none => 0
  let s1 := if s.rope.role = .member ∧ !same then raise .leadTakeover lead (le 4 (be32 p 8) ++ [byte pos]) s else s
  let anchor := anchorOf (myPitch s) s
  let s2 := withRope (fun x => { x with
    lastBelay := k, term := be32 p 8, leadIdx := lead, leadPrio := u8 p 14, leadSerial := be64 p 16, heardBelay := true, handover := false
    succ := ((List.range 8).map fun i => be16 p (40 + 2 * i)).filter (· != 0xFFFF)
    switchNum := if bit (u8 p 15) 0 then be64 p 32 else if x.switchNum ≤ k then 0 else x.switchNum }) s1
  let s3 := applyChanges ((List.range (u8 p 66)).map fun i => slice p (68 + 28 * i) 28) (be32 p 24) s2
  let s4 := syncPitch (if anchorOf (myPitch s3) s3 = anchor then s3 else withRope (fun x => { x with exch := [] }) s3)
  satisfyWindow f same (switchKey k s4)

/-- A lead whose belay loses joins the winner with its existing epoch (R303). -/
def yieldLead (s : State) : State :=
  syncPitch (withRope (fun x => { x with form := false }) (startJoin (ropeCount 11 1 (leaveCoord s))))

/-- BELAY (R291, R300, R303). -/
def belayRx (f : KnFrame) (s : State) : State :=
  let p := f.payload
  let term := be32 p 8
  match s.rope.role with
  | .none => s
  | .lead => if belayWins term (u8 p 14) (be64 p 16) s then yieldLead s else s
  | .joining =>
    let t := if s.rope.stepped then s
      else
        let want : Int := ((beNat (slice p 56 6) * 10 ^ 9 + be32 p 62 : Nat) : Int) * 65536
        withRope (fun x => { x with stepped := true }) (stepTb (ropeTb s) (want - ropeStamp f s) s)
    followBelay f t
  | .member =>
    if belayWins term (u8 p 14) (be64 p 16) s || (term == s.rope.term && be16 p 12 == s.rope.leadIdx) then followBelay f s else s

def execBelay (f : KnFrame) (s : State) : Host.Outcome State Fault Refusal :=
  whenRunning s fun s =>
    let q := knCheck f (s.rope.role == .joining || s.rope.role == .lead || fromLead f s) (belayFresh f s) s
    if q.1 then belayRx f q.2 else q.2

/-- The third window missed in a row (R301). -/
def belayLoss (s : State) : State :=
  let t := leaveCoord (withRope (fun x => { x with lost := true, good := 0, treq := none }) s)
  raise .belayLost s.rope.leadIdx (le 8 s.rope.lastBelay ++ le 4 s.rope.term) (ropeCount 9 1 (enterFreeRun (ropeTb s) 1 t))

/-- BELAY_WINDOW_CLOSE (R300): the window of the next belay closes. -/
def belayWindowClose (s0 : State) : State :=
  let s := withRope (fun x => { x with winNum := windowNow s0 }) s0
  if s.rope.role ≠ .member ∨ windowNow s0 ≤ s0.rope.winNum then s0
  else if s.rope.inWindow then withRope (fun x => { x with inWindow := false }) s
  else
    let t := ropeCount 8 1 (withRope (fun x => { x with misses := x.misses + 1, good := 0 }) s)
    if t.rope.misses ≥ 3 && !t.rope.lost then belayLoss t else t

def execBelayWindowClose (s : State) : Host.Outcome State Fault Refusal := whenRunning s belayWindowClose

/-! Reports, neighbours and clients (R305 to R307). -/

/-- Free station contexts. -/
def freeStas (s : State) : Nat := 1024 - s.mac.sta.length

/-- Direct-link neighbours the device hears. -/
def directNow (s : State) : List Nat := (s.rope.hellos.map (·.1)).take 2

/-- A message sent every 1,024 TU falls due (Table 12.3). -/
def everyTu (last : Option Nat) (s : State) : Bool := last.all fun t => t + 524288000 ≤ s.now

/-- REPORT_SEND: `heard` are the BSSIDs the radios hear with their levels. The lead keeps its own. -/
def reportSend (busyB busyC : Nat) (heard : List (List Byte × Int)) (s0 : State) : State :=
  if !everyTu s0.rope.reportAt s0 then s0 else
  let s := if joined s0 then withRope (fun x => { x with reportAt := some s0.now }) s0 else s0
  let own := ((List.range 48).filter fun b => (vget s.mac.bss b).en).map fun b => (vget s.mac.bss b).bssid
  let h := heard.take 64
  let up := s.life.mode == .startUp
  let rep : MemberRep := { at_ := s.now, free := freeStas s, busy := (busyB, busyC), own := own, heard := h, direct := directNow s, startUp := up }
  if s.rope.role = .lead then withRope (fun x => { x with reports := kset x.reports x.index rep }) s
  else if s.rope.role = .member then
    knUnicast 8 s.rope.leadIdx (be 2 (freeStas s) ++ [byte busyB, byte busyC, byte own.length, byte h.length, byte (directNow s).length,
      byte (put up 0)] ++ own.flatMap (pad 6) ++ h.flatMap (fun q => pad 6 q.1 ++ [byte (uns 8 q.2), 0]) ++ (directNow s).flatMap (be 2)) s
  else s

def execReportSend (busyB busyC : Nat) (heard : List (List Byte × Int)) (s : State) : Host.Outcome State Fault Refusal :=
  whenRunning s (reportSend busyB busyC heard)

/-- REPORT at the lead. -/
def reportRx (f : KnFrame) (s : State) : State :=
  let p := f.payload
  if s.rope.role ≠ .lead then s
  else
    let b := u8 p 4
    let h := u8 p 5
    let o := 8 + 6 * b
    let rep : MemberRep := {
      at_ := s.now, free := be16 p 0, busy := (u8 p 2, u8 p 3), own := (List.range b).map fun i => slice p (8 + 6 * i) 6
      heard := (List.range h).map fun i => (slice p (o + 8 * i) 6, i8 p (o + 8 * i + 6))
      direct := (List.range (u8 p 6)).map fun i => be16 p (o + 8 * h + 2 * i), startUp := bit (u8 p 7) 0 }
    placePitches 0x0C (withRope (fun x => { x with reports := kset x.reports f.src.val rep, seenAt := kset x.seenAt f.src.val s.now }) s)

def execReport (f : KnFrame) (s : State) : Host.Outcome State Fault Refusal := whenRunning s (knRx f false (reportRx f))

/-- HELLO: heard across a direct cable. -/
def execHello (f : KnFrame) (s : State) : Host.Outcome State Fault Refusal :=
  whenRunning s (knRx f false fun s => withRope (fun x => { x with hellos := kset x.hellos f.src.val (f.port.val, s.now) }) s)

/-- HELLO_SEND: on each Kennar port. -/
def execHelloSend (s : State) : Host.Outcome State Fault Refusal :=
  whenRunning s fun s =>
    if joined s && everyTu s.rope.helloAt s then
      (knPorts s).foldl (fun t p => knSendOn (2 ^ p) 9 0x3FF 3 ([byte p] ++ le 7 0) t) (withRope (fun x => { x with helloAt := some s.now }) s)
    else s

/-- A client ID (Table 12.9). -/
def clientId (streams radio owner sta : Nat) : Nat := streams * 2 ^ 28 + radio * 2 ^ 26 + owner * 2 ^ 16 + sta
def idStreams (c : Nat) : Nat := c / 2 ^ 28
def idRadio (c : Nat) : Nat := bits c 26 2
def idOwner (c : Nat) : Nat := bits c 16 10
def idSta (c : Nat) : Nat := bits c 0 10

/-- The device's own clients with a radio each on B or C. -/
def ownClients (s : State) : List (List Byte × Nat × Nat) :=
  s.mac.sta.flatMap fun p => ([1, 2].filter fun r => bit p.2.links r).map fun r => (p.2.addr, p.1, r)

/-- Clients of other members that the device hears: valid overheard records of announced clients. -/
def heardClients (s : State) : List (Nat × Int) :=
  s.rope.clients.flatMap fun q => q.2.own.filterMap fun c =>
    ((vget s.bf.overheard c.2.2.1).find? fun k => k.addr == c.1 && csiValid c.2.2.1 k s).map fun k => (clientId k.rank c.2.2.1 q.1 c.2.1, k.snr)

/-- CLIENTS fall due: on association change, at most once per slot, and every 1,024 TU (Table 12.3). -/
def clientsDue (s : State) : Bool :=
  match s.rope.clientsAt with
  | none => true
  | some (t, n) => n != slotNow s && (ownClients s != s.rope.told || decide (t + 524288000 ≤ s.now))

/-- CLIENTS_SEND (R307), in frames of at most 181 entries of 8 bytes. -/
def clientsSend (busyB busyC : Nat) (s0 : State) : State :=
  if !joined s0 || myPitch s0 == 0xFFFF || !clientsDue s0 then s0
  else
    let s := withRope (fun x => { x with clientsAt := some (s0.now, slotNow s0), told := ownClients s0 }) s0
    let o := (ownClients s).map fun c => (true, pad 6 c.1 ++ be 2 (c.2.1 + 1024 * c.2.2))
    let h := (heardClients s).map fun c => (false, be 4 c.1 ++ be 2 (uns 16 c.2) ++ be 2 0)
    let l := o ++ h
    let n := max 1 (ceilDiv l.length 181)
    (List.range n).foldl (fun t k =>
      let part := (l.drop (181 * k)).take 181
      let a := part.filter (·.1)
      knPitch 10 (be 2 (freeStas s) ++ [byte busyB, byte busyC, byte k, byte n, byte a.length, byte (part.length - a.length)] ++
        part.flatMap (·.2)) t) s

def execClientsSend (busyB busyC : Nat) (s : State) : Host.Outcome State Fault Refusal := whenRunning s (clientsSend busyB busyC)

/-- CLIENTS (R307, R251): the first frame of a set replaces what the member announced; the foreign list follows. -/
def clientsRx (f : KnFrame) (s : State) : State :=
  let p := f.payload
  let i := f.src.val
  if !joined s || pitchOf i s ≠ myPitch s then s
  else
    let o := u8 p 6
    let old := (kget s.rope.clients i).getD {}
    let base : PeerCli := if u8 p 4 = 0 then {} else old
    let own := (List.range o).map fun k =>
      let w := be16 p (8 + 8 * k + 6)
      let a := slice p (8 + 8 * k) 6
      (a, w % 1024, bits w 10 2, match old.own.find? fun c => c.1 == a with | some c => c.2.2.2 | none => s.now)
    let heard := (List.range (u8 p 7)).map fun k => (be32 p (8 + 8 * (o + k)), bei16 p (8 + 8 * (o + k) + 4))
    let pc : PeerCli := { free := be16 p 0, busy := (u8 p 2, u8 p 3), own := base.own ++ own, heard := base.heard ++ heard }
    let t := withRope (fun x => { x with clients := kset x.clients i pc }) s
    withBf (fun b => { b with foreign := (t.rope.clients.flatMap fun q => q.2.own.map fun c => (c.1, [])).eraseDups }) t

def execClients (f : KnFrame) (s : State) : Host.Outcome State Fault Refusal := whenRunning s (knRx f false (clientsRx f))

/-! Rope time exchanges (R308 to R311). -/

/-- T_REQ_SEND: to the time parent, once in each slot whose number modulo 4 is the rope index's (R309). -/
def treqSend (s : State) : State :=
  if s.rope.lost || slotNow s % 4 != s.rope.index % 4 || s.rope.treqSlot == some (slotNow s) then s
  else match timeParent s with
    | none => s
    | some p =>
      let q := s.rope.treqSeq
      knUnicast 13 p (be 4 q ++ be 4 0) (withRope (fun x => { x with
        treqSeq := (q + 1) % 2 ^ 32, treqSlot := some (slotNow s), treq := some (q, (stamp16 (ropeTb s) 0 s).toNat, s.now) }) s)

def execTReqSend (s : State) : Host.Outcome State Fault Refusal := whenRunning s treqSend

/-- T_REQ at a parent: t2 is taken. -/
def execTReq (f : KnFrame) (s : State) : Host.Outcome State Fault Refusal :=
  whenRunning s (knRx f false fun s =>
    if joined s then withRope (fun x => { x with resp := x.resp ++ [{ dst := f.src.val, port := f.port.val, seq := be32 f.payload 0, t2 := (ropeStamp f s).toNat, at_ := s.now }] }) s
    else s)

/-- A time as T_RESP carries it: seconds, nanoseconds, fraction. -/
def time16 (v : Nat) : List Byte := be 6 (v / (65536 * 10 ^ 9)) ++ be 4 (v / 65536 % 10 ^ 9) ++ be 2 (v % 65536)
def readTime16 (p : List Byte) (o : Nat) : Nat := (beNat (slice p o 6) * 10 ^ 9 + be32 p (o + 6)) * 65536 + be16 p (o + 10)

/-- T_RESP_SEND: launched at t3 = t2 + 100 us, or dropped where sealing misses it. -/
def trespSend (onTime : Bool) (s : State) : State :=
  match s.rope.resp with
  | [] => s
  | q :: l =>
    if s.now < q.at_ + 50000 then s
    else
    let t := withRope (fun x => { x with resp := l }) s
    if !onTime then ropeCount 16 1 t
    else knUnicast 14 q.dst (be 4 q.seq ++ time16 q.t2 ++ time16 (q.t2 + 100000 * 65536)) t

def execTRespSend (onTime : Bool) (s : State) : Host.Outcome State Fault Refusal := whenRunning s (trespSend onTime)

/-- The servo's rate for the next exchanges: Builmin's choice within 50 ppm of nominal (R310). -/
def servoInc (s : State) : Nat × State :=
  let d := draw 8 s
  (0x20000 - 6 + d.1.toNat % 13, d.2)

/-- T_RESP at the child: offset and delay; an offset within 100 us is removed by rate, a larger one is stepped. -/
def trespRx (f : KnFrame) (s : State) : State :=
  let p := f.payload
  match s.rope.treq with
  | none => s
  | some (q, raw, at_) =>
    if be32 p 0 ≠ q || s.rope.lost || at_ + 5000000 ≤ s.now then s
    else
      let t1 : Int := raw + vget s.time.asymOut f.port.val
      let t2 : Int := readTime16 p 4
      let t3 : Int := readTime16 p 16
      let t4 : Int := ropeStamp f s
      let off := ((t2 - t1) - (t4 - t3)) / 2
      let del := ((t4 - t1) - (t3 - t2)) / 2
      let t := ropeCount 14 1 (withRope (fun x => { x with
        treq := none, exch := ((off, del) :: x.exch).take 16, exchPort := f.port.val, goodAt := s.now, lostRun := 0 }) s)
      if off.natAbs ≤ 100000 * 65536 then
        let r := servoInc t
        withTb (ropeTb s) (fun b => committed s.now { b with inc := r.1 }) (withRope (fun x => { x with servoLeft := 4 }) r.2)
      else withRope (fun x => { x with stepDue := some off, stepSlot := slotNow s }) t

def execTResp (f : KnFrame) (s : State) : Host.Outcome State Fault Refusal := whenRunning s (knRx f false (trespRx f))

/-- TIME_EXCH_LOST: no T_RESP within 10 ms; four in a row lose the parent (R311). -/
def timeExchLost (s : State) : State :=
  if !s.rope.treq.any fun q => q.2.2 + 5000000 ≤ s.now then s
  else
    let t := ropeCount 15 1 (withRope (fun x => { x with treq := none, lostRun := x.lostRun + 1 }) s)
    if t.rope.lostRun = 4 then enterFreeRun (ropeTb t) 2 t else t

def execTimeExchLost (s : State) : Host.Outcome State Fault Refusal := whenRunning s timeExchLost

/-- TIME_SERVO_STEP: at the next slot boundary; the member unlocks for 2 slots, which the start of this one, if it is still to be
taken, does not shorten. -/
def timeServoStep (s : State) : State :=
  match s.rope.stepDue with
  | none => s
  | some d =>
    if slotNow s = s.rope.stepSlot then s
    else stepTb (ropeTb s) d (withRope (fun x => { x with stepDue := none, exch := [], quiet := if s.rope.nowSlot = slotNow s then 2 else 3 }) s)

def execTimeServoStep (s : State) : Host.Outcome State Fault Refusal := whenRunning s timeServoStep

/-! Commands (Table 12.14). -/

def ropeStatus (s : State) : List Byte :=
  let x := s.rope
  let e := match alignE s with | some e => min e 255 | none => 255
  [byte (match x.role with | .none => 0 | .joining => 1 | .member => 2 | .lead => 3),
   byte (put (coordMode s) 0 + put (timeLocked s || isAnchor s) 1 + put (isAnchor s) 2)] ++ le 2 x.index ++ le 2 x.leadIdx ++ le 2 (myPitch s) ++
    le 4 x.term ++ [byte (if joined s then e else 255), byte x.misses] ++ le 2 x.roster.length

def ropeGetStatusForm : Form := inlineForm 0x0702 0 16 fun _ => true

def ropeGetStatusRun : Cmd → State → Effect := fun _ s => answer (ropeStatus s) s

def execRopeGetStatus (m : Fin 8) (buf : List Byte) (s : State) : Host.Outcome State Fault Refusal :=
  command ropeGetStatusForm m buf s ropeGetStatusRun

/-- ROPE_SET_KEY (R292): the next key; on the lead SWITCH schedules the change 16 belays ahead. -/
def setRopeKeyRun (c : Cmd) (s : State) : Effect :=
  let sw := bit (u8 c.params 2) 0
  if !kennarKey (u16 c.params 0) s then .fail .badParam
  else if !joined s || (sw && s.rope.role != .lead) then .fail .wrongState
  else
    let n := if sw then ropeNs s / belayNs + 16 else s.rope.switchNum
    answer (le 8 n) (withRope (fun x => { x with nextSlot := some (u16 c.params 0), switchNum := n }) s)

def ropeSetKeyForm : Form := inlineForm 0x0703 4 8 fun p => u16 p 0 ≤ 2559 && u8 p 2 ≤ 1 && u8 p 3 == 0

def execRopeSetKey (m : Fin 8) (buf : List Byte) (s : State) : Host.Outcome State Fault Refusal :=
  command ropeSetKeyForm m buf s setRopeKeyRun

def ropeGetMemberForm : Form := indirectForm 0x0704 4 24 fun p => u16 p 0 ≤ 1023 && u16 p 2 == 0

def ropeGetMemberRun : Cmd → State → Effect := fun c s =>
    if !joined s then .fail .wrongState
    else match memberOf (u16 c.params 0) s with
      | some e => answer (entryWith le (u16 c.params 0) e true) s
      | none => answer [] s

def execRopeGetMember (m : Fin 8) (buf : List Byte) (s : State) : Host.Outcome State Fault Refusal :=
  command ropeGetMemberForm m buf s ropeGetMemberRun

/-- ROPE_GET_PITCH. What another member's lock and E are is known from its last proposal. -/
def pitchBytes (p : Nat) (s : State) : List Byte :=
  let ms := pitchMembers p s
  let a := (anchorOf p s).getD 0xFFFF
  [byte ms.length, 0] ++ le 2 a ++ le 4 s.rope.planned ++ ms.flatMap fun i =>
    let me := i == s.rope.index
    let q := s.rope.proposals.reverse.find? fun q => q.src == i
    let lock := if me then timeLocked s || isAnchor s else (q.map (·.locked)).getD false
    let e := if me then min 255 ((alignE s).getD 255) else (q.map (·.e)).getD 255
    let direct := if isAnchor s then khas s.rope.hellos i else me && khas s.rope.hellos a
    le 2 i ++ [byte (put lock 0 + put direct 1 + put (s.rope.partOf.contains i) 2), byte e] ++ le 4 0

def ropeGetPitchForm : Form := indirectForm 0x0705 4 136 fun p => (u16 p 0 ≤ 255 || u16 p 0 == 0xFFFF) && u16 p 2 == 0

def ropeGetPitchRun : Cmd → State → Effect := fun c s =>
    if !joined s then .fail .wrongState
    else answer (pitchBytes (if u16 c.params 0 = 0xFFFF then myPitch s else u16 c.params 0) s) s

def execRopeGetPitch (m : Fin 8) (buf : List Byte) (s : State) : Host.Outcome State Fault Refusal :=
  command ropeGetPitchForm m buf s ropeGetPitchRun

def ropeGetCountersForm : Form := indirectForm 0x0706 0 192 fun _ => true

def ropeGetCountersRun : Cmd → State → Effect := fun _ s => answer (ctrBytes s.rope.ctr) s

def execRopeGetCounters (m : Fin 8) (buf : List Byte) (s : State) : Host.Outcome State Fault Refusal :=
  command ropeGetCountersForm m buf s ropeGetCountersRun

end Sys2Proof.Machine
end

