-- ==== Sys2Proof/Machine/RopeSlot.lean ====
section
/-!
DEFINITION. Coordination slots: proposals, the anchor's merge, plans, and coordinated TXOPs (R312 to R317).
-/
namespace Sys2Proof.Machine
open Sys2Proof

/-! Proposals (R312, Table 12.11). -/

/-- 16 bytes of a radio of a proposal. -/
def propRadio (r demand : Nat) (s : State) : List Byte :=
  let e := vget s.fe r
  let q := e.chanReq.filter (·.announced)
  be 2 e.centre ++ [byte e.bw, byte e.prim] ++ be 2 demand ++ [byte (liveChains r s), byte (put q.isSome 0)] ++
    match q with
    | some q => be 4 (changeSlot q s) ++ be 2 q.centre ++ [byte q.bw, byte q.prim]
    | none => be 8 0

/-- The client IDs of stations to serve: clients of the device with a link on B or C, at most 64. -/
def serveIds (l : List (Fin 1024 × Radio)) (s : State) : List Nat :=
  (l.filterMap fun p =>
    let r := rnum p.2
    match kget s.mac.sta p.1 with
    | some x => if r ≠ 0 && bit x.links r then some (clientId (dlRate r p.1 x s).2 r s.rope.index p.1) else none
    | none => none).take 64

/-- PROPOSAL's payload for slot `m`. -/
def propPayload (m demandB demandC : Nat) (ids : List Nat) (s : State) : List Byte :=
  let skip := match s.rope.skipAt with | some k => slotNow s ≤ k + 4 | none => false
  let miss := s.rope.nullMiss.take 32
  let e := match alignE s with | some e => min e 255 | none => 255
  be 8 m ++ [byte (put (alignOk s) 0 + put skip 1 + put (s.life.mode == .startUp) 2), byte e, 0, 0] ++ propRadio 1 demandB s ++
    propRadio 2 demandC s ++ [byte ids.length, byte miss.length, 0, 0] ++ ids.flatMap (be 4) ++ miss.flatMap (be 4)

/-- A proposal read. -/
def readProp (src : Nat) (p : List Byte) : Proposal :=
  let rad (o : Nat) : PropRadio := { centre := be16 p o, bw := u8 p (o + 2), prim := u8 p (o + 3), demand := be16 p (o + 4),
                                     chains := u8 p (o + 6), pending := bit (u8 p (o + 7)) 0, changeSlot := be32 p (o + 8) }
  let n := u8 p 44
  { src := src, slot := be64 p 0, locked := bit (u8 p 8) 0, startUp := bit (u8 p 8) 2, e := u8 p 9, radio := [rad 12, rad 28]
    serve := (List.range n).map fun i => be32 p (48 + 4 * i)
    missing := (List.range (u8 p 45)).map fun i => be32 p (48 + 4 * (n + i)) }

/-- The anchor keeps a proposal; those of slots that are over go. -/
def keepProp (q : Proposal) (s : State) : State :=
  withRope (fun x => { x with proposals := (x.proposals.filter fun o => !(o.src == q.src && o.slot == q.slot) && slotNow s ≤ o.slot) ++ [q] }) s

/-- A device offers no coordinated airtime before it is in SERVICE (R293). -/
def offered (demand : Nat) (s : State) : Nat := if s.life.mode == .startUp || s.life.mode == .test then 0 else demand

/-- PROPOSAL_SEND: once per slot, in coordinated mode and locked with E at most E_MAX; `serve` is whom the planner wants to serve. -/
def proposalSend (demandB demandC : Nat) (serve : List (Fin 1024 × Radio)) (s : State) : State :=
  if !coordMode s || !alignOk s || s.rope.propSlot == some (slotNow s) then s
  else
    let m := slotNow s + 2
    let ids := serveIds serve s
    let p := propPayload m (offered demandB s) (offered demandC s) ids s
    let t := withRope (fun x => { x with propSlot := some (slotNow s), serve := kset (x.serve.filter fun q => m ≤ q.1 + 2) m ids }) s
    if isAnchor s then keepProp (readProp s.rope.index p) t
    else match anchorOf (myPitch s) s with
      | some a => knUnicast 11 a p t
      | none => t

def execProposalSend (demandB demandC : Nat) (serve : List (Fin 1024 × Radio)) (s : State) : Host.Outcome State Fault Refusal :=
  whenRunning s (proposalSend demandB demandC serve)

/-- PROPOSAL at the anchor: taken before the slot's start plus 3,072 us by its ingress stamp. -/
def proposalRx (f : KnFrame) (s : State) : State :=
  let q := readProp f.src f.payload
  if !isAnchor s || pitchOf f.src s ≠ myPitch s then s
  else if ropeStamp f s / 65536 ≥ ((q.slot - 2) * slotNs + 3072000 : Nat) then ropeCount 18 1 s
  else keepProp q s

def execProposal (f : KnFrame) (s : State) : Host.Outcome State Fault Refusal := whenRunning s (knRx f false (proposalRx f))

/-! The merge (R313). -/

/-- A member radio in the merge: its member and radio, its proposal's radio, and the clients it may serve. -/
structure Part where
  mem : Nat
  rad : Nat
  pr : PropRadio
  serve : List Nat
  deriving DecidableEq, Repr, Inhabited

/-- Lowest frequency in MHz of a channel, and the centre of its primary 20 MHz. -/
def lowEdge (p : PropRadio) : Nat := p.centre - bwMhz p.bw / 2
def primCentre (p : PropRadio) : Nat := lowEdge p + 20 * p.prim + 10

/-- Member radios of the proposals for slot `m`. -/
def partsOf (m : Nat) (s : State) : List (Proposal × Part) :=
  let missing := (s.rope.proposals.filter fun q => q.slot + 1 == m).flatMap (·.missing)
  (s.rope.proposals.filter (·.slot == m)).flatMap fun q =>
    (List.range 2).map fun k =>
      (q, { mem := q.src, rad := k + 1, pr := q.radio.getD k {}
            serve := q.serve.filter fun c => idRadio c == k + 1 && !missing.contains c })

/-- Step 1: it takes part. -/
def isPart (m : Nat) (x : Proposal × Part) : Bool :=
  x.1.locked && !x.1.startUp && 0 < x.2.pr.demand && !(x.2.pr.pending && x.2.pr.changeSlot == m % 2 ^ 32)

/-- Step 2: member radios on one primary 20 MHz channel, two or more. -/
def groupsOf (l : List Part) : List (List Part) :=
  ((l.map fun x => primCentre x.pr).eraseDups.map fun c => l.filter fun x => primCentre x.pr == c).filter fun g => 2 ≤ g.length

/-- Streams of a list of clients. -/
def streamSum (l : List Nat) : Nat := (l.map idStreams).sum

/-- Step 4, one removal: every member serves or nulls each client of its group, so all fit when the group's streams fit the
fewest chains. -/
def fitGroup : Nat → List Part → List Part
  | 0, g => g
  | k + 1, g =>
    let pool := g.flatMap (·.serve)
    let chains := (minOf (g.map (·.pr.chains))).getD 0
    let worse (a b : Nat) : Bool := idStreams a > idStreams b || (idStreams a == idStreams b &&
      (idOwner a > idOwner b || (idOwner a == idOwner b && idSta a ≥ idSta b)))
    if streamSum pool ≤ chains then g
    else match pool.find? fun a => pool.all fun b => worse a b with
      | some c => fitGroup k (g.map fun x => { x with serve := x.serve.erase c })
      | none => g

/-- Null entries of a group: member radio and client. -/
def nullsOf (g : List Part) : List (Nat × Nat × Nat) :=
  g.flatMap fun x => g.flatMap fun y => if x.mem == y.mem && x.rad == y.rad then [] else y.serve.map fun c => (x.mem, x.rad, c)

/-- Step 5: member radios leave in order of lowest demand while more than 112 null entries stand. -/
def dropParts : Nat → List (List Part) → List (List Part)
  | 0, gs => gs
  | k + 1, gs =>
    if (gs.flatMap nullsOf).length ≤ 112 then gs
    else
      let all := gs.flatten
      match all.find? fun a => all.all fun b => a.pr.demand ≤ b.pr.demand with
      | some a => dropParts k ((gs.map fun g => g.filter fun x => !(x.mem == a.mem && x.rad == a.rad)).filter fun g => 2 ≤ g.length)
      | none => gs

/-- The narrowest channel of a group. -/
def groupBw (g : List Part) : Nat := (minOf (g.map (·.pr.bw))).getD 0

/-- The group's band: the narrowest member's channel. -/
def groupBand (g : List Part) : Nat × Nat :=
  match g.find? fun x => x.pr.bw == groupBw g with
  | some x => (lowEdge x.pr, lowEdge x.pr + bwMhz x.pr.bw)
  | none => (0, 0)

/-- Duration in us: the largest demand, at most COORD_MAX, up to 64 us. -/
def groupDur (g : List Part) (s : State) : Nat := 64 * ceilDiv (min (g.foldl (fun m x => max m x.pr.demand) 0) s.rope.coordMax) 64

/-- Step 6: subchannels of a radio's channel that overlap a band. -/
def overlapMask (p : PropRadio) (b : Nat × Nat) : Nat :=
  maskOf ((List.range (2 ^ p.bw)).map fun i => lowEdge p + 20 * i < b.2 && b.1 < lowEdge p + 20 * i + 20)

/-- A plan entry (Table 12.12). -/
def planEntry (mem rad flags off dur bw : Nat) (cap : Int) (reserve : Nat) : List Byte :=
  be 2 mem ++ [byte rad, byte flags] ++ be 2 off ++ be 2 dur ++ [byte bw, byte (uns 8 cap)] ++ be 2 reserve

/-- Clients of the pitch as the anchor knows them: address, owner, station, radio, the instant it was announced. -/
def pitchClients (s : State) : List (List Byte × Nat × Nat × Nat × Nat) :=
  s.rope.clients.flatMap fun q => q.2.own.map fun c => (c.1, q.1, c.2.1, c.2.2.1, c.2.2.2)

/-- Step 8: a client that two members list is excluded for the one it leaves: the one that listed it first, or this device where it
has asked the client to move. -/
def excludesOf (s : State) : List Nat :=
  let l := pitchClients s
  let leaving := l.filter fun c => l.any fun d => d.1 == c.1 && d.2.1 != c.2.1 && c.2.2.2.2 < d.2.2.2.2
  let own := (ownClients s).filterMap fun c =>
    match kget s.mac.sta c.2.1 with
    | some x => if x.steerAt.isSome && l.any (fun d => d.1 == c.1) then some (clientId 1 c.2.2 s.rope.index c.2.1) else none
    | none => none
  let others := l.filter fun d => (ownClients s).any fun c => c.1 == d.1 && (match kget s.mac.sta c.2.1 with | some x => x.steerAt.isNone | none => false)
  (((leaving ++ others).map fun c => clientId 1 c.2.2.2.1 c.2.1 c.2.2.1) ++ own).eraseDups.take 40

/-- The plan of slot `m` (R313, Table 12.12). -/
def mergePlan (m : Nat) (s : State) : List Byte :=
  let ps := partsOf m s
  let parts := (ps.filter (isPart m)).map (·.2)
  let fit := (groupsOf parts).map fun g => fitGroup (g.flatMap (·.serve)).length g
  let gs := dropParts fit.flatten.length fit
  let txops := gs.flatMap fun g => g.map fun x => planEntry x.mem x.rad 1 512 (groupDur g s) (groupBw g) s.rope.txCap 0
  let rest := (ps.filter fun x => !isPart m x).filterMap fun x =>
    let mask := gs.foldl (fun a g => Nat.lor a (overlapMask x.2.pr (groupBand g))) 0
    if mask = 0 then none else some (planEntry x.2.mem x.2.rad 0 0 0 x.2.pr.bw 127 mask)
  let entries := (txops ++ rest).take 32
  let nulls := (gs.flatMap nullsOf).take 112
  let ex := excludesOf s
  be 8 m ++ [byte entries.length, byte nulls.length, byte ex.length] ++ be 5 0 ++ entries.flatten ++
    nulls.flatMap (fun q => be 2 q.1 ++ [byte q.2.1, 0] ++ be 4 q.2.2) ++ ex.flatMap (be 4)

/-- PROPOSAL_CUTOFF: 3,072 us into the slot, the anchor merges once. -/
def proposalCutoff (s : State) : State :=
  let m := slotNow s + 2
  if !coordMode s || !isAnchor s || ropeNs s % slotNs < 3072000 || s.rope.planSlots.contains m || s.rope.merged.any (·.1 == m) then s
  else
    withRope (fun x => { x with merged := [(m, mergePlan m s)] }) s

def execProposalCutoff (s : State) : Host.Outcome State Fault Refusal := whenRunning s proposalCutoff

/-! Plans (R314). -/

/-- The `k`-th entry, null entry and exclusion of a plan. -/
def planEntries (p : List Byte) : List (List Byte) := (List.range (u8 p 8)).map fun k => slice p (16 + 12 * k) 12
def planNulls (p : List Byte) : List (List Byte) := (List.range (u8 p 9)).map fun k => slice p (16 + 12 * u8 p 8 + 8 * k) 8
def planExcludes (p : List Byte) : List Nat := (List.range (u8 p 10)).map fun k => be32 p (16 + 12 * u8 p 8 + 8 * u8 p 9 + 4 * k)

/-- The address of a client that another member announced; empty where it is not known. -/
def clientAddr (c : Nat) (s : State) : List Byte :=
  match (pitchClients s).find? fun d => d.2.1 == idOwner c && d.2.2.1 == idSta c && d.2.2.2.1 == idRadio c with
  | some d => d.1
  | none => []

/-- The constraint set of a radio from a plan. -/
def planPitch (r : Nat) (p : List Byte) (s : State) : Pitch :=
  let me := s.rope.index
  let m := be64 p 0
  let mine (b : List Byte) : Bool := be16 b 0 == me && u8 b 2 == r
  let ns := planNulls p
  let others := ((ns.filter fun b => idOwner (be32 b 4) == me && idRadio (be32 b 4) == r).map fun b => (be16 b 0, u8 b 2)).eraseDups
  let serve := ((kget s.rope.serve m).getD []).filter fun c => idRadio c == r && !others.isEmpty &&
    others.all fun o => ns.any fun b => be16 b 0 == o.1 && u8 b 2 == o.2 && be32 b 4 == c
  let base : Pitch := {
    slot := m, start := m * slotNs
    exclude := ((planExcludes p).filter fun c => idOwner c == me && idRadio c == r).map idSta
    nulls := (ns.filter mine).map fun b => (clientAddr (be32 b 4) s, idStreams (be32 b 4))
    serve := serve.map idSta }
  match (planEntries p).find? mine with
  | none => base
  | some b => { base with
      txops := if bit (u8 b 3) 0 then [(be16 b 4 * 1000, be16 b 6 * 1000, u8 b 8)] else []
      txCap := if i8 b 9 = 127 then none else some (i8 b 9)
      reserve := be16 b 10 }

/-- A slot's constraints join a radio's list; the slot that runs stands first, without constraints where it has none. -/
def insertPitch (now : Nat) (p : Pitch) (l : List Pitch) : List Pitch :=
  let k := l.filter fun q => q.slot != p.slot
  let l1 := if (k.head?.map (·.slot)) = some now ∨ p.slot = now then k else { slot := now, start := now * slotNs } :: k
  (l1.filter fun q => q.slot < p.slot) ++ p :: l1.filter fun q => p.slot < q.slot

/-- A plan is accepted only before slot m - 1 begins. -/
def planAccept (p : List Byte) (s : State) : State :=
  let m := be64 p 0
  if ropeNs s ≥ (m - 1) * slotNs then ropeCount 19 1 s
  else
    let t := (List.range 2).foldl (fun t k => withRs (k + 1) (fun x => { x with pitch := insertPitch (slotNow s) (planPitch (k + 1) p s) x.pitch }) t) s
    withRope (fun x => { x with
      planSlots := (x.planSlots.filter fun k => slotNow s ≤ k && k != m) ++ [m], planned := m
      partOf := (((planEntries p).filter fun b => bit (u8 b 3) 0).map fun b => be16 b 0).eraseDups }) t

/-- PLAN_SEND: the anchor sends what it merged, and holds it itself. -/
def planSend (s : State) : State :=
  match s.rope.merged with
  | [] => s
  | (m, p) :: l =>
    let t := withRope (fun x => { x with merged := l }) s
    if !coordMode s || !isAnchor s || ropeNs s ≥ (m - 1) * slotNs then t else planAccept p (knPitch 12 p t)

def execPlanSend (s : State) : Host.Outcome State Fault Refusal := whenRunning s planSend

/-- PLAN at a member: from the anchor of its pitch. -/
def execPlan (f : KnFrame) (s : State) : Host.Outcome State Fault Refusal :=
  whenRunning s (knRx f false fun s => if coordMode s && anchorOf (myPitch s) s == some f.src.val then planAccept f.payload s else s)

/-! Slots and coordinated TXOPs (R209, R210, R314 to R316). -/

/-- The constraints of slot `n` come first, and its TX_CAP holds for every PPDU that starts in it (Table 8.6). A furrow that is
ready and breaks them is built again. -/
def slotRadio (n : Nat) (s : State) (r : Nat) : State :=
  let l := (vget s.sched.radio r).pitch.filter fun p => n ≤ p.slot
  let l1 : List Pitch := if l.isEmpty ∨ (l.head?.map (·.slot)) = some n then l else { slot := n, start := n * slotNs } :: l
  let t := withRm r (fun m => { m with txCap := l1.head?.bind (·.txCap) }) (withRs r (fun k => { k with pitch := l1 }) s)
  match (vget t.sched.radio r).ready, l1 with
  | some f, p :: _ => if !f.coord && breaksPitch f p then furrowDrop r t else t
  | _, _ => t

/-- COORD_SLOT_START: a slot begins; at a belay instant a key switch that is due is made (R292). -/
def coordSlotStart (s : State) : State :=
  if !joined s then s
  else
    let s0 := if s.rope.role = .lead then followSource s else s
    let n := slotNow s0
    if n = s.rope.nowSlot then s
    else
    let t := (List.range 2).foldl (fun t k => slotRadio n t (k + 1)) (switchKey (belayNow s0) s0)
    let u := withRope (fun x => { x with nowSlot := n, quiet := x.quiet - 1, planSlots := x.planSlots.filter fun k => n < k }) t
    if coordMode s0 && !s0.rope.planSlots.contains (n + 1) then ropeCount 20 1 u else u

def execCoordSlotStart (s : State) : Host.Outcome State Fault Refusal := whenRunning s coordSlotStart

/-- The radio skips its coordinated TXOP: nothing is sent (R316), and what was built for it goes back. -/
def skipTxop (r n : Nat) (s : State) : State :=
  let t := withRope (fun x => { x with skipAt := some n }) s
  if ((vget t.sched.radio r).ready.map (·.coord)).getD false then furrowDrop r t else t

/-- COORD_TXOP_START: the planned start is reached. `idle` tells that the primary 20 MHz has been idle for PIFS, `navPitch` that the
NAV, if set, was set by frames of pitch members' BSSIDs. -/
def coordTxopStart (r : Nat) (navPitch : Bool) (s0 : State) : State :=
  match (vget s0.sched.radio r).pitch with
  | [] => s0
  | p :: rest =>
    if p.txops.isEmpty || !coordMode s0 || ropeNs s0 < p.start + (p.txops.headD (0, 0, 0)).1 then s0
    else
      let s := withRs r (fun k => { k with pitch := { p with txops := p.txops.drop 1 } :: rest }) s0
      let e := vget s.fe r
      let m := vget s.mac.radio r
      let missing := p.nulls.filter fun c => !((vget s.bf.overheard r).any fun k => k.addr == c.1 && csiValid r k s && k.rank ≥ c.2)
      let ids := missing.filterMap fun c => ((pitchClients s).find? fun d => d.1 == c.1 && d.2.2.2.1 == r).map fun d => clientId c.2 r d.2.1 d.2.2.1
      let t := withRope (fun x => { x with nullMiss := ids.take 32 }) s
      if e.cal.isSome || e.sw.isSome || (e.trans.isSome && e.trans != some .tx) || m.survey.isSome || (vget s.bf.radio r).running then skipTxop r p.slot (feCount r 7 s)
      else if !alignOk s then skipTxop r p.slot (ropeCount 23 1 s)
      else match (vget s.sched.radio r).ready.filter fun f => f.coord && f.slot == some p.slot with
        | none => skipTxop r p.slot (schedCount r 16 1 s)
        | some f =>
          if !precodersValid r f s then skipTxop r p.slot (schedCount r 16 1 (furrowDrop r s))
          else if !pifsIdle r s || !radioFree r s || (vget s.fe r).txopHeld || ((m.navBasic.isSome || m.navIntra.isSome) && !navPitch) then
            skipTxop r p.slot (ropeCount 22 1 s)
          else
            let q := leaveSp r f t
            if q.1.users.isEmpty then skipTxop r p.slot (schedCount r 16 1 (withRs r (fun k => { k with ready := some q.1 }) q.2))
            else startFurrow r f.planAc (p.txops.headD (0, 0, 0)).2.1 q.1 (ropeCount 21 1 q.2)

def execCoordTxopStart (r : Radio) (_ : NoData) (navPitch : Bool) (s : State) : Host.Outcome State Fault Refusal :=
  whenRunning s (coordTxopStart (rnum r) navPitch)

end Sys2Proof.Machine
end

