-- ==== Sys2Proof/Machine/Seeder.lean ====
section
/-!
DEFINITION. The Seeder (spec/11_seeder_placement.md): scores and link sets, channels, flows, rings, cipher groups, bank groups, job
classes, steering, first placements, forced re-placement and fences.
-/
namespace Sys2Proof.Machine
open Sys2Proof

/-! When the Seeder may optimise (R264). -/

/-- The bit of a domain in SEEDER_SET_PARAMS. -/
def domainBit (d : Nat) : Nat := match d with | 0 => 0 | 1 => 1 | 2 | 3 | 4 => 2 | 5 => 3 | 6 => 4 | 7 => 5 | _ => 6

/-- Optimisation of a domain runs: in SERVICE and RECOVERY, with the domain enabled. -/
def optOn (d : Nat) (s : State) : Bool := (s.life.mode == .service || s.life.mode == .recovery) && bit s.seed.domains (domainBit d)

/-- One forced or overload decision of an object. -/
def decide1 (s : State) : State := seedCount 0 1 s

/-- A better placement found inside the hold. -/
def held1 (s : State) : State := seedCount 2 1 s

/-! Links (R265, R266). -/

/-- A fence binds a station's TID. -/
def fenceBinds (n t : Nat) (f : Fence) : Bool := (f.kind == 0 || f.kind == 1) && u16 f.bytes 4 == n && bit (u8 f.bytes 6) t

/-- Links the fences permit a TID, as a bit set (R281). -/
def permitted (n t links : Nat) (fences : KMap Fence) : Nat :=
  let fs := fences.filter fun p => fenceBinds n t p.2
  maskOf ((List.range 3).map fun r => bit links r &&
    fs.all fun p => if p.2.kind = 0 then u8 p.2.bytes 7 == r else !bit (u8 p.2.bytes 7) r)

/-- The lowest-numbered fence that binds a TID. -/
def linkFence (n t : Nat) (s : State) : Nat := match s.seed.fences.find? fun p => fenceBinds n t p.2 with | some p => p.1 | none => 0xFFFF

/-- A candidate on the link but for dozing (R265). -/
def linkCandidate (r n : Nat) (x : Sta) (s : State) : Bool := staCandidate r n true x s

/-- The present user limit for H_l: 1 with the build engine fenced (Table 19.1). -/
def scoreLimit (r : Nat) (s : State) : Nat := if partFenced (0x18 + r) s then 1 else (vget s.hl r).userLimit

/-- The score of a link (R265), in units common to the three radios. -/
def linkScore (r n : Nat) (x : Sta) (s : State) : Nat :=
  if radioOut r s || !linkCandidate r n x s then 0
  else
    let rt := dlRate r n x s
    let bw := min (vget s.fe r).bw (Config.linkBw (vget x.block r))
    ruSub (wholeRu 9 bw) * mcsBits rt.1 * rt.2 * (1000 - vget s.seed.use3 r) * scoreLimit r s * (18 * 74 * 148 / userTop r)

/-- Why a link scores 0 (R266). -/
def zeroReason (r n : Nat) (x : Sta) (s : State) : Nat :=
  if radioOut r s || scoreLimit r s == 0 then 6
  else if !bit x.links r || uplinkLost n s || !(vget s.mac.bss (linkBss x r)).en then 8 else 0x0D

/-- The links a bit set names. -/
def linkList (m : Nat) : List Nat := (List.range 3).filter (bit m)

/-- The set a TID should have: links enter at LINK_ENTER and stay to LINK_LEAVE, and the best link is always in it. -/
def wantLinks (cur perm : Nat) (sc : List Nat) (s : State) : Nat :=
  let top := (linkList perm).foldl (fun m r => max m (sc.getD r 0)) 0
  maskOf ((List.range 3).map fun r => bit perm r && 0 < sc.getD r 0 &&
    (sc.getD r 0 == top || sc.getD r 0 * 100 ≥ (if bit cur r then s.seed.linkLeave else s.seed.linkEnter) * top))

/-- What a TID keeps of its set when only what must go goes: permitted links with a score; the best one where none is left. -/
def keepLinks (cur perm : Nat) (sc : List Nat) : Nat :=
  let top := (linkList perm).foldl (fun m r => max m (sc.getD r 0)) 0
  let k := maskOf ((List.range 3).map fun r => bit cur r && bit perm r && 0 < sc.getD r 0)
  if k = 0 then (match (linkList perm).find? fun r => sc.getD r 0 == top with | some r => 2 ^ r | none => 0) else k

/-- TIDs with no permitted link that scores, for which a fence is the cause: logged once per link set, and not served (R266,
R282). -/
def blockLinks (fence n : Nat) (tids : List Nat) (s : State) : State :=
  let l := tids.filter fun t => !((placeOf 0 (linkKey n t) s).map (·.blocked)).getD false
  let olds := (l.map fun t => placedAt 0 (linkKey n t) s).eraseDups
  olds.foldl (fun u o =>
    let g := l.filter fun t => placedAt 0 (linkKey n t) s == o
    let v := g.foldl (fun v t =>
      let p := (placeOf 0 (linkKey n t) v).getD {}
      withSta n (fun x => { x with link := vset x.link t 0 })
        (withSeed (fun x => { x with place := kset x.place (placeKey 0 (linkKey n t)) { p with blocked := true, fence := fence } }) v)) u
    seedCount 5 1 (logEntry 0 4 fence (n + 2 ^ 16 * (g.map fun t => 2 ^ t).sum) o o v)) s

/-- How an evaluation of a station ends: `opt` optimises within holds, `forced` rescores at once with a reason and a fence. -/
def linkEvaluate (n : Nat) (force : Option (Nat × Nat)) (s : State) : State :=
  match kget s.mac.sta n with
  | none => s
  | some x =>
    if !multiLink x || s.life.mode == .startUp then s
    else
      let sc := (List.range 3).map fun r => linkScore r n x s
      let hold := (List.range 8).any fun t => inHold 0 (linkKey n t) s
      let tids := (List.range 8).map fun t =>
        let cur := placedAt 0 (linkKey n t) s
        let perm := permitted n t x.links s.seed.fences
        let alive := (linkList perm).any fun r => 0 < sc.getD r 0
        let must := if cur = 0xFFFFFFFF then wantLinks 0 perm sc s else keepLinks cur perm sc
        let want := if cur = 0xFFFFFFFF then must else wantLinks cur perm sc s
        (t, cur, alive, must, want, perm)
      let live := tids.filter (·.2.2.1)
      let dead := tids.filter fun q => !q.2.2.1
      -- A station's first placement with no link that scores is every permitted link.
      let first := dead.filter fun q => q.2.1 = 0xFFFFFFFF && q.2.2.2.2.2 != 0
      let fenced := dead.filter fun q => (linkList (x.links - Nat.land x.links q.2.2.2.2.2)).any fun r => 0 < sc.getD r 0
      let better := live.any fun q => q.2.2.2.1 != q.2.2.2.2.1
      let goOpt := force.isSome || (optOn 0 s && !hold)
      let s1 := if optOn 0 s && hold && force.isNone && better then held1 s else s
      let pick := live.map fun q => (q.1, q.2.1, if goOpt then q.2.2.2.2.1 else q.2.2.2.1, q.2.2.2.1)
      let chg := pick.filter fun q => q.2.1 != q.2.2.1 || ((placeOf 0 (linkKey n q.1) s).map (·.blocked)).getD false
      let lost (cur : Nat) : Nat := match (linkList cur).find? fun r => sc.getD r 0 == 0 with | some r => zeroReason r n x s | none => 3
      let run (reason fence : Nat) (forced : Bool) (l : List (Nat × Nat × Nat × Nat)) (t : State) : State :=
        placeLinks reason fence n forced (l.map fun q => (q.1, q.2.2.1)) t
      match force with
      | some (reason, fence) => blockLinks (match fenced with | q :: _ => linkFence n q.1 s | [] => fence) n (fenced.map (·.1))
          (run reason fence true chg s1)
      | none =>
        let init := chg.filter fun q => q.2.1 = 0xFFFFFFFF
        let gain := chg.filter fun q => q.2.1 != 0xFFFFFFFF && q.2.1 == q.2.2.2
        let must := chg.filter fun q => q.2.1 != 0xFFFFFFFF && q.2.1 != q.2.2.2
        let s2 := run 1 0xFFFF false init (placeLinks 1 0xFFFF n false (first.map fun q => (q.1, q.2.2.2.2.2)) s1)
        let s3 := run 2 0xFFFF false gain s2
        let s4 := (must.map fun q => lost q.2.1).eraseDups.foldl (fun t c =>
          run c (if c = 3 then (match must with | q :: _ => linkFence n q.1 s | [] => 0xFFFF) else 0xFFFF) true (must.filter fun q => lost q.2.1 == c) t) s3
        blockLinks (match fenced with | q :: _ => linkFence n q.1 s | [] => 0xFFFF) n (fenced.map (·.1)) s4

/-- A changed mapping is offered to a station that negotiates it (R267); its answer changes no placement. -/
def t2lOffer (n : Nat) (before s : State) : State :=
  match kget before.mac.sta n, kget s.mac.sta n with
  | some x, some y =>
    if x.link ≠ y.link ∧ (List.range 3).any (fun r => bit y.links r && Config.linkT2l (vget y.block r)) then
      sendAction n (Config.t2lRequest y.link.toList) s
    else s
  | _, _ => s

def linkRun (n : Nat) (force : Option (Nat × Nat)) (s : State) : State := t2lOffer n s (raiseSta n s (linkEvaluate n force s))

/-- Stations with more links than one on a radio. -/
def linkStas (r : Nat) (s : State) : List Nat := (s.mac.sta.filter fun p => multiLink p.2 && bit p.2.links r).map (·.1)

/-! Channels of radios B and C (R268, R269). -/

/-- A channel as NEW of Table 11.6. -/
def chanCode (centre bw prim : Nat) : Nat := centre + 2 ^ 16 * bw + 2 ^ 24 * prim

/-- The channel of a radio: the announced one while a change waits. -/
def chanOf (r : Nat) (s : State) : Nat × Nat :=
  match (vget s.fe r).chanReq with
  | some q => (q.centre, q.bw)
  | none => ((vget s.fe r).centre, (vget s.fe r).bw)

/-- Edge separation of two channels in MHz is at least `k`. -/
def apart (k : Nat) (a b : Nat × Nat) : Bool :=
  a.1 + bwMhz a.2 / 2 + k ≤ b.1 - bwMhz b.2 / 2 || b.1 + bwMhz b.2 / 2 + k ≤ a.1 - bwMhz a.2 / 2

/-- The present busy share of a 20 MHz subchannel: one half where no measurement is younger than 30 min. -/
def busyAt (c : Nat) (s : State) : Nat :=
  match kget s.seed.busy c with
  | some (b, at_) => if s.now < at_ + 900000000000 then b else 500
  | none => 500

/-- The value of a channel, in thousandths of a subchannel. -/
def chanValue (centre bw : Nat) (s : State) : Nat :=
  ((List.range (2 ^ bw)).map fun i => 1000 - busyAt (centre - bwMhz bw / 2 + 20 * i + 10) s).sum

/-- The primary index of an entry: its own, or the least busy subchannel, the lowest on a tie. -/
def entryPrim (e : List Byte) (s : State) : Nat :=
  if u8 e 3 ≠ 0xFF then u8 e 3
  else
    let b (i : Nat) : Nat := busyAt (u16 e 0 - bwMhz (u8 e 2) / 2 + 20 * i + 10) s
    ((List.range (2 ^ u8 e 2)).find? fun i => (List.range (2 ^ u8 e 2)).all fun j => b i ≤ b j).getD 0

/-- Candidate channels of radio B or C: entries of its fence that keep CHAN_SEP from the other radio's. -/
def chanCands (r : Nat) (s : State) : List (List Byte) :=
  match channelFence r s with
  | none => []
  | some f => (fenceChannels f.2).filter fun e => apart s.seed.chanSep (u16 e 0, u8 e 2) (chanOf (3 - r) s)

/-- The candidate of the highest value, the first on a tie. -/
def bestChan (r : Nat) (s : State) : Option (List Byte) :=
  let l := chanCands r s
  l.find? fun e => l.all fun d => chanValue (u16 d 0) (u8 d 2) s ≤ chanValue (u16 e 0) (u8 e 2) s

/-- A radio is about to change its channel, or changes it. -/
def chanBusy (r : Nat) (s : State) : Bool := (vget s.fe r).chanReq.isSome || (vget s.fe r).sw.isSome

/-- The Seeder moves a radio (R269): announced with CSA_COUNT beacons where a BSS beacons; stored at once while the radio is OFF. -/
def chanMove (r reason fence : Nat) (forced : Bool) (e : List Byte) (s : State) : State :=
  let prim := entryPrim e s
  let at_ := announceAt r s.seed.csaCount s
  let q : ChanReq := { bw := u8 e 2, prim := prim, centre := u16 e 0, announced := at_.isSome, count := s.seed.csaCount, at_ := at_ }
  let off := (vget s.fe r).state == .off && (vget s.fe r).trans.isNone && (vget s.fe r).cal.isNone
  let t := if off then storeChannel r q s else withFe r (fun x => { x with chanReq := some q }) s
  seedCount 7 1 (place 1 reason fence r (chanCode (u16 e 0) (u8 e 2) prim) forced t)

/-- The present channel of a radio as a placement. -/
def chanNow (r : Nat) (s : State) : Nat := let e := vget s.fe r; chanCode e.centre e.bw e.prim

/-- A fence excludes the channel a radio is on or moves to (R1, R282). -/
def chanExcluded (r : Nat) (s : State) : Bool :=
  match (vget s.fe r).chanReq with
  | some q => q.handle.isNone && fenceAllows r q.centre q.bw q.prim s == some false
  | none => fenceAllows r (vget s.fe r).centre (vget s.fe r).bw (vget s.fe r).prim s == some false

/-- A fence excludes a radio's channel (Table 11.8, R1): a waiting move of the Seeder to a channel it excludes is given up; where the
present channel is allowed the radio stays, else it moves to the best candidate. A host's waiting command stands (log 92). -/
def chanForced (r : Nat) (s : State) : State :=
  if r = 0 || s.life.mode == .startUp || radioOut r s || !chanExcluded r s then s
  else match channelFence r s with
    | none => s
    | some f =>
      let t := withFe r (fun e => { e with chanReq := none }) s
      if !chanExcluded r t then place 1 3 f.1 r (chanNow r t) true t
      else match bestChan r t with
        | some e => chanMove r 3 f.1 true e t
        | none => blockPlace 1 f.1 r t

/-- CHANNEL evaluation of radio B or C. -/
def chanEvaluate (r : Nat) (s : State) : State :=
  if r = 0 || s.life.mode == .startUp then s
  else if chanExcluded r s then chanForced r s
  else
    match bestChan r s with
    | none => s
    | some e =>
      let c := chanOf r s
      let gain := chanValue (u16 e 0) (u8 e 2) s * 100 ≥ (100 + s.seed.chanGain) * chanValue c.1 c.2 s && (u16 e 0, u8 e 2) != c
      if !gain || !optOn 1 s || chanBusy 1 s || chanBusy 2 s || radioOut r s then s
      else if inHold 1 r s then held1 s
      else chanMove r 2 0xFFFF false e s

/-- First placement of a radio's channel: the present one where no fence forbids it, else the best candidate. -/
def chanInitial (r : Nat) (s : State) : State :=
  if (placeOf 1 r s).isSome then s
  else
    let e := vget s.fe r
    match channelFence r s, bestChan r s with
    | some f, some b =>
      let keep := fenceAllows r e.centre e.bw e.prim s == some true && apart s.seed.chanSep (e.centre, e.bw) (chanOf (3 - r) s) &&
        chanValue (u16 b 0) (u8 b 2) s ≤ chanValue e.centre e.bw s
      if keep then place 1 1 f.1 r (chanNow r s) false s else chanMove r 1 f.1 false b s
    | some f, none => blockPlace 1 f.1 r (setPlace 1 r f.1 (chanNow r s) s)
    | none, _ => place 1 1 0xFFFF r (chanNow r s) false s

/-! Flows and rings (R271, R358). -/

/-- The result of a flow-table or indirection entry: 1 port pair or 0 ring group, with its index; none for other results. -/
def entryTarget (k : Nat) (s : State) : Option (Bool × Nat) :=
  if k < 2 ^ 31 then
    match kget s.router.flows k with
    | some f => if u8 f.result 0 = 1 then some (true, u16 f.result 2 % 8) else if u8 f.result 0 = 5 then some (false, u16 f.result 2 % 16) else none
    | none => none
  else
    let v := vget s.router.indir (k - 2 ^ 31)
    if v / 2 ^ 14 = 1 then some (true, v % 8) else if v / 2 ^ 14 = 0 then some (false, v % 16) else none

/-- Every flow-table and indirection entry, as OBJECT of Table 11.6. -/
def entryKeys (s : State) : List Nat := s.router.flows.map (·.1) ++ (List.range 512).map (2 ^ 31 + ·)

/-- A port takes frames: its link is up, or in a fallow step (R373). -/
def portUp (p : Nat) (s : State) : Bool := (vget s.eth p).up

/-- A pair's port before the Seeder chooses (R358): the primary while it is up, else the other member. -/
def pairPort (q : PortPair) (s : State) : Option Nat :=
  let up (p : Nat) : Bool := vget q.member p && portUp p s
  if up q.primary then some q.primary else if up (1 - q.primary) then some (1 - q.primary) else none

/-- Rings of a group, ascending. -/
def groupRings (g : Nat) (s : State) : List Nat := (List.range 64).filter (bit (vget s.router.group g))

/-- The ring a PIN_RING fence gives an entry, with its number. -/
def pinnedRing (k : Nat) (s : State) : Option (Nat × Nat) :=
  (s.seed.fences.find? fun p => p.2.kind == 6 && u8 p.2.bytes 4 == (if k < 2 ^ 31 then 0 else 1) && u16 p.2.bytes 6 == k % 2 ^ 31).map
    fun p => (p.1, u8 p.2.bytes 5)

/-- The home ring of an entry (R358). -/
def homeRing (k g : Nat) (s : State) : Option Nat :=
  let l := groupRings g s
  if l.isEmpty then none else l[k % 2 ^ 31 % l.length]?

/-- First placement of an entry: a pair's port, or the pinned or the home ring. -/
def entryInitial (k : Nat) (s : State) : State :=
  if s.life.mode == .startUp then s
  else match entryTarget k s with
    | none => s
    | some (true, q) =>
      if (placeOf 2 k s).isSome then s
      else match pairPort (vget s.router.pair q) s with
        | some p => place 2 1 0xFFFF k p false s
        | none => s
    | some (false, g) =>
      if (placeOf 4 k s).isSome then s
      else match pinnedRing k s, homeRing k g s with
        | some (f, n), _ => place 4 1 f k n false s
        | none, some n => place 4 1 0xFFFF k n false s
        | none, none => s

/-- An entry's placement goes with it, or with its result (R349). -/
def entryGone (k : Nat) (s : State) : State := unplace 4 k (unplace 2 k s)

/-- Descriptors posted and unused of a receive ring, and its size. -/
def posted (n : Nat) (s : State) : Nat := let r := vget s.rings.hrx n; (r.prod - r.cons).toNat
def ringSize (n : Nat) (s : State) : Nat := 2 ^ (vget s.rings.hrx n).sizeLog

/-- The other rings of an entry's group that run, the one with the most posted descriptors first. -/
def otherRing (k n : Nat) (s : State) : Option Nat :=
  match entryTarget k s with
  | some (false, g) =>
    let l := (groupRings g s).filter fun m => m != n && (vget s.rings.hrx m).en && !(vget s.rings.hrx m).halted
    l.find? fun a => l.all fun b => posted b s ≤ posted a s
  | _ => none

/-! Cipher groups (R271, R272). -/

/-- Working cores of a group. -/
def groupCores (g : Nat) (s : State) : Nat := ((List.range 8).filter fun i => !partFenced (0x20 + 8 * g + i) s).length

/-- Groups a slot may be placed on. -/
def openGroups (s : State) : List Nat := (List.range 20).filter fun g => 5 ≤ groupCores g s && !bit s.seed.groupsOut g

/-- Slots placed on a group. -/
def slotsOn (g : Nat) (s : State) : List Nat := (kkeys s.sec.slots).filter fun k => placedAt 3 k s == g

/-- The open group with the fewest slots, the lowest on a tie. -/
def freeGroup (s : State) : Option Nat :=
  let l := openGroups s
  l.find? fun a => l.all fun b => (slotsOn a s).length ≤ (slotsOn b s).length

/-- First placement of a key slot. -/
def slotInitial (k : Nat) (s : State) : State :=
  if s.life.mode == .startUp || (placeOf 3 k s).isSome then s
  else match freeGroup s with
    | some g => place 3 1 0xFFFF k g false s
    | none => s

/-! Overload (R271). -/

/-- One object of an overloaded target: it moves while the target is above its level, is not pinned, its hold has passed and none of
its frames is in flight. -/
def overStep (dom : Nat) (beyond : List Nat → Bool) (dest : Nat → List Nat → State → Option Nat) (target : Nat)
    (p : List Nat × State) (o : Nat × Bool × Nat) : List Nat × State :=
  let s := decide1 p.2
  if !beyond p.1 || placedAt dom o.1 s ≠ target then (p.1, if beyond p.1 then s else p.2)
  else match dest o.1 p.1 s with
    | none => (p.1, s)
    | some t =>
      if inHold dom o.1 s then (p.1, held1 s)
      else if o.2.1 then (p.1, s)
      else ((p.1.set target (p.1.getD target 0 - o.2.2)).set t (p.1.getD t 0 + o.2.2), place dom 9 0xFFFF o.1 t false s)

/-- SEEDER_OVERLOAD: `load` is the mean of each target over 10 ms, per mille; `rising` tells that a ring's drop counters rise; `objs`
are the target's objects in descending order of traffic, each with whether frames of it are in flight and its own load. -/
def overload (d : OverDom) (target : Nat) (rising : Bool) (load : List Nat) (objs : List (Nat × Bool × Nat)) (s : State) : State :=
  match d with
  | .queue =>
    if !optOn 2 s || target ≥ 2 then s
    else
      (objs.foldl (overStep 2 (fun l => l.getD target 0 > 850) (fun k l s =>
        match entryTarget k s with
        | some (true, q) => if vget (vget s.router.pair q).member (1 - target) && portUp (1 - target) s && l.getD (1 - target) 0 < 600 then some (1 - target) else none
        | _ => none) target) (load, s)).2
  | .cipher =>
    if !optOn 3 s || target ≥ 20 then s
    else
      (objs.foldl (overStep 3 (fun l => l.getD target 0 > 900) (fun _ l s =>
        let c := (openGroups s).filter (· != target)
        (c.find? fun a => c.all fun b => l.getD a 0 ≤ l.getD b 0).filter fun a => l.getD a 0 < 600) target) (load, s)).2
  | .ring =>
    if !optOn 4 s then s
    else
      (objs.foldl (overStep 4 (fun _ => rising || posted target s * 8 < ringSize target s) (fun k _ s =>
        if (pinnedRing k s).isSome then none
        else (otherRing k target s).filter fun m => posted m s * 2 > ringSize m s) target) (load, s)).2

def execSeederOverload (d : OverDom) (target : Fin 64) (rising : Bool) (load : List Nat) (objs : List (Nat × Bool × Nat)) (s : State) :
    Host.Outcome State Fault Refusal := whenRunning s (overload d target rising load objs)

/-! Bank groups and job classes (R273, R274). -/

def bankObject (cls ch : Nat) : Nat := cls + 256 * ch

/-- The class may move in service (Table 11.3). -/
def classMoves (cls : Nat) (s : State) : Bool := cls ≤ 1 || (cls == 2 && s.harrow.lease.isEmpty)

/-- First placement of the DRAM classes: which bank groups is not stated, so a free set. -/
def bankInitial (s : State) : State :=
  if !s.dram.ready then s
  else (List.range 10).foldl (fun t i =>
    let k := bankObject (i % 5) (i / 5)
    if (placeOf 5 k t).isSome then t
    else let d := draw 4 t
      place 5 1 0xFFFF k (if d.1 = 0#4 then 15 else d.1.toNat) false d.2) s

def bankEvaluate (k : Nat) (s : State) : State :=
  match kget s.seed.bankIn k with
  | some (traffic, conflict, best) =>
    if traffic ≤ 100 || conflict ≤ 200 || best = 0 || !classMoves (k % 16) s || !optOn 5 s || placedAt 5 k s == best || (placeOf 5 k s).isNone then s
    else if inHold 5 k s then held1 s
    else place 5 2 0xFFFF k best false s
  | none => s

/-- Lanes Builmin may use, as a set. -/
def ownLanes (s : State) : Nat := maskOf ((List.range 16).map fun l => laneOwn l s)

def laneInitial (s : State) : State :=
  (List.range 5).foldl (fun t c => if (placeOf 6 c t).isSome then t else place 6 1 0xFFFF c (ownLanes t) false t) s

def laneEvaluate (c : Nat) (s : State) : State :=
  match kget s.seed.laneIn c with
  | some set =>
    let v := Nat.land set (ownLanes s)
    if v = 0 || placedAt 6 c s == v || !optOn 6 s || (placeOf 6 c s).isNone then s
    else if inHold 6 c s then held1 s
    else place 6 2 0xFFFF c v false s
  | none => s

/-! Pitches (R276, R279). -/

/-- Intra-pitch coupling of a set of members, each pair once. -/
def intraSum (l : List Nat) (s : State) : Nat := ((l.map fun a => couplingSum a (l.filter (a < ·)) s)).sum

/-- One member's evaluation: a move that at least doubles the summed coupling of the two pitches concerned. -/
def pitchStep (reason : Nat) (s0 : State) (i : Nat) : State :=
  let s := decide1 s0
  let p := pitchOf i s
  if p = 0xFFFF || (pinnedPitch i s).isSome then s
  else
    let a := pitchMembers p s
    let gain (q : Nat) : Bool :=
      let b := pitchMembers q s
      q != p && intraSum (a.filter (· != i)) s + intraSum (i :: b) s ≥ 2 * (intraSum a s + intraSum b s) && intraSum (i :: b) s > intraSum b s
    match (openPitches s).find? gain with
    | none => s
    | some q => if inHold 7 i s then held1 s else setPitch reason 0xFFFF i q false s

/-- PITCH evaluation: every member, with reason ROPE_CHANGE the first time after coordinated mode was left (R279). -/
def pitchEvaluate (s : State) : State :=
  if s.rope.role ≠ .lead || !optOn 7 s || s.rope.lost then s
  else
    let t := withSeed (fun x => { x with resumed := false }) s
    if s.seed.resumed then nameAnchors ((placeable t).foldl (pitchStep 0x0C) (placePitches 0x0C t))
    else nameAnchors ((placeable t).foldl (pitchStep 2) (placePitches 1 t))

/-! Serving device (R277, R278). -/

/-- A FORBID_DEVICE fence keeps a station from a member. -/
def forbidDevice (n i : Nat) (s : State) : Bool :=
  s.seed.fences.any fun p => p.2.kind == 3 && (u16 p.2.bytes 4 == n || u16 p.2.bytes 4 == 0xFFFF) && u16 p.2.bytes 6 == i

/-- The rate a member would give at an SNR, in common units. -/
def servedRate (r snr : Nat) (nss busy : Nat) (x : Sta) (s : State) : Nat :=
  let blk := vget x.block r
  let la : Int := (vget s.sched.radio r).laMargin
  let m := topMcs (mcsTop (Config.linkFmt blk) blk) fun m => ((snr : Nat) : Int) ≥ -4 * evmReq (Config.linkFmt blk) m + 2 * la
  mcsBits m * nss * (100 - busy)

/-- The best candidate of a station: member and predicted rate. -/
def servingBest (n : Nat) (x : Sta) (s : State) : Option (Nat × Nat) :=
  let l := s.rope.clients.flatMap fun q =>
    if q.1 == s.rope.index || pitchOf q.1 s ≠ myPitch s || q.2.free == 0 || forbidDevice n q.1 s then []
    else (q.2.heard.filter fun h => idOwner h.1 == s.rope.index && idSta h.1 == n).map fun h =>
      (q.1, servedRate (idRadio h.1) h.2.toNat (idStreams h.1) (if idRadio h.1 = 1 then q.2.busy.1 else q.2.busy.2) x s)
  l.find? fun a => l.all fun b => b.2 ≤ a.2

/-- The station's present rate, in the same units: the best of its links. -/
def servingNow (x : Sta) (s : State) : Nat :=
  ((List.range 3).filter (bit x.links)).foldl (fun m r => max m (mcsBits (vget x.rate r).mcs * (vget x.rate r).nss * (100 - vget s.seed.use3 r / 10))) 0

/-- One entry about a steered station; its hold is the request's. -/
def steerLog (reason n cand status : Nat) (s : State) : State :=
  seedCount 1 1 (logEntry 8 reason 0xFFFF n s.rope.index (cand + 2 ^ 16 * status) s)

/-- SERVING evaluation. -/
def servingEvaluate (n : Nat) (s : State) : State :=
  match kget s.mac.sta n with
  | none => s
  | some x =>
    if !coordMode s || !optOn 8 s then s
    else match servingBest n x s with
      | none => withSeed (fun q => { q with better := kdel q.better n }) s
      | some (c, rate) =>
        if rate * 10 < s.seed.steerGain * servingNow x s || rate = 0 then withSeed (fun q => { q with better := kdel q.better n }) s
        else
          let since := (kget s.seed.better n).getD s.now
          let t := withSeed (fun q => { q with better := kset q.better n since }) s
          if s.now < since + 5000000000 then t
          else if !((List.range 3).any fun r => bit x.links r && Config.linkBtm (vget x.block r)) then t
          else if inHold 8 n t then held1 t
          else
            let u := setPlace 8 n 0xFFFF (c + 2 ^ 16 * 0xFF) (steerLog 0x0A n c 0xFF (seedCount 9 1 t))
            sendAction n (Config.btmRequest ((memberOf c u).map (·.addr) |>.getD []))
              (withSta n (fun x => { x with steerAt := some u.now, steerTo := some c }) u)

/-- The station's response, or its absence, is logged (R278). -/
def steerResult (n status : Nat) (s : State) : State :=
  match (kget s.mac.sta n).bind (·.steerTo) with
  | none => s
  | some c =>
    withSeed (fun q => { q with place := kmod q.place (placeKey 8 n) fun p => { p with value := c + 2 ^ 16 * status } })
      (withSta n (fun x => { x with steerTo := none }) (steerLog 0x0B n c status s))

def execSteerResponse (sta : Fin 1024) (status : Byte) (s : State) : Host.Outcome State Fault Refusal :=
  whenRunning s (steerResult sta status.toNat)

def execSteerTimeout (sta : Fin 1024) (s : State) : Host.Outcome State Fault Refusal :=
  whenRunning s fun s =>
    if ((kget s.mac.sta sta).bind (·.steerAt)).all fun t => t + 2500000000 ≤ s.now then
      withSta sta (fun x => { x with steerAt := none }) (steerResult sta 0xFF s)
    else s

/-- A steered station leaves within 5 s (R278). -/
def steerLeft (n : Nat) (s : State) : State :=
  match kget s.mac.sta n with
  | some x => match x.steerAt with
    | some t => if s.now < t + 2500000000 then seedCount 10 1 (steerLog 0x0B n (placedAt 8 n s % 1024) (placedAt 8 n s / 2 ^ 16 % 256) s) else s
    | none => s
  | none => s

/-! Evaluations (R263, R474). -/

/-- Busy measurements are stored. -/
def storeBusy (l : List (Nat × Fin 1001)) (s : State) : State :=
  withSeed (fun x => { x with busy := l.foldl (fun m q => kset m q.1 (q.2.val, s.now)) x.busy }) s

/-- Another member has reported that it hears the station. -/
def heardElsewhere (n : Nat) (s : State) : Bool :=
  s.rope.clients.any fun q => q.1 != s.rope.index && q.2.heard.any fun h => idOwner h.1 == s.rope.index && idSta h.1 == n

/-- The object an evaluation is of, with its domain. -/
def evalObject : Eval → Nat × Nat
  | .link n _ _ _ => (0, n)
  | .channel r _ => (1, rnum r)
  | .bank c ch _ _ _ => (5, bankObject c ch)
  | .lanes c _ => (6, c)
  | .pitch => (7, 0)
  | .serving n => (8, n)

/-- The object is there to be evaluated (Table 11.1). -/
def evalExists (e : Eval) (s : State) : Bool :=
  match e with
  | .link n _ _ _ => ((kget s.mac.sta n).map multiLink).getD false
  | .channel r _ => r != .a
  | .bank _ _ _ _ _ => s.dram.ready
  | .lanes _ _ => true
  | .pitch => s.rope.role == .lead
  | .serving n => khas s.mac.sta n && heardElsewhere n s

/-- What an evaluation has measured is kept for SEEDER_EVALUATE (R474). -/
def storeMeasure (e : Eval) (s : State) : State :=
  match e with
  | .link _ a b c => withSeed (fun x => { x with use3 := #v[a.val, b.val, c.val] }) s
  | .channel _ l => storeBusy l s
  | .bank c ch t k b => withSeed (fun x => { x with bankIn := kset x.bankIn (bankObject c ch) (t.val, k.val, b.val) }) s
  | .lanes c m => withSeed (fun x => { x with laneIn := kset x.laneIn c.val m.toNat }) s
  | .pitch | .serving _ => s

/-- The members of the rope share one grid, and each counts its own decision. -/
def pitchGrid (s : State) : State := if khas s.seed.evalAt (placeKey 7 0) then s else withSeed (fun x => { x with evalAt := kset x.evalAt (placeKey 7 0) s.now }) s

/-- SEEDER_EVALUATION: on the object's grid (R263), none in START_UP; in TEST only forced changes follow. -/
def evaluate (e : Eval) (s : State) : State :=
  let o := evalObject e
  if s.life.mode == .startUp || !evalExists e s || !evalDue o.1 o.2 s then s
  else
    let t := storeMeasure e s
    match e with
    | .link n _ _ _ => linkRun n none (decideOn 0 n t)
    | .channel r _ => chanEvaluate (rnum r) (decideOn 1 (rnum r) t)
    | .bank c ch _ _ _ => bankEvaluate (bankObject c ch) (decideOn 5 (bankObject c ch) t)
    | .lanes c _ => laneEvaluate c (decideOn 6 c t)
    | .pitch => pitchEvaluate (pitchGrid t)
    | .serving n => servingEvaluate n (decideOn 8 n t)

def execSeederEvaluation (e : Eval) (s : State) : Host.Outcome State Fault Refusal := whenRunning s (evaluate e)

/-! Surveys (R270). -/

/-- The survey interval a radio is in, counted from the first. -/
def surveyIndex (r : Nat) (s : State) : Nat := (s.now - (vget s.mac.radio r).surveyFrom) / (s.seed.surveyInt * 500000000)

/-- The survey intervals of radios B and C count from now. -/
def surveyStart (s : State) : State :=
  [1, 2].foldl (fun t r => withRm r (fun m => { m with surveyFrom := s.now, surveyDone := 0 }) t) s

/-- SURVEY_DWELL: at most one per SURVEY_INTERVAL, in RX under the conditions of R91 with a look-ahead of 2.1 ms, to a channel the
fence allows in a valid segment. -/
def surveyDwell (r centre bw prim : Nat) (s : State) : State :=
  let e := vget s.fe r
  if r = 0 || s.seed.surveyInt = 0 || !optOn 1 s || e.state ≠ .rx || !quietRadio r s || e.txopHeld || dueWithin 2100000 r s ||
      (vget s.mac.radio r).survey.isSome || surveyIndex r s < (vget s.mac.radio r).surveyDone ||
      fenceAllows r centre bw prim s != some true || (centre, bw) == (e.centre, e.bw) || !vget e.segValid (segOf r centre) then s
  else withRm r (fun m => { m with survey := some centre, surveyAt := s.now, surveyDone := surveyIndex r s + 1 }) (withFe r (fun e => { e with state := .cal }) s)

def execSurveyDwell (r : Radio) (centre bw prim : Nat) (s : State) : Host.Outcome State Fault Refusal :=
  whenRunning s (surveyDwell (rnum r) centre bw prim)

/-- SURVEY_DWELL_END: 2 ms and two changes of 38 us after its start the radio is back on its channel, and what it measured is
kept. -/
def surveyEnd (r : Nat) (busy : List (Nat × Fin 1001)) (s : State) : State :=
  if (vget s.mac.radio r).survey.isNone || s.now < (vget s.mac.radio r).surveyAt + 1038000 then s
  else storeBusy busy (withRm r (fun m => { m with survey := none }) (withFe r (fun e => { e with state := .rx }) s))

def execSurveyDwellEnd (r : Radio) (busy : List (Nat × Fin 1001)) (s : State) : Host.Outcome State Fault Refusal :=
  whenRunning s (surveyEnd (rnum r) busy)

/-- SURVEY_SKIP: an interval ended with no dwell in it. -/
def surveySkip (r : Nat) (s : State) : State :=
  if r = 0 || s.seed.surveyInt = 0 || !optOn 1 s || surveyIndex r s ≤ (vget s.mac.radio r).surveyDone then s
  else seedCount 8 1 (withRm r (fun m => { m with surveyDone := m.surveyDone + 1 }) s)

def execSurveySkip (r : Radio) (s : State) : Host.Outcome State Fault Refusal := whenRunning s (surveySkip (rnum r))

/-! First placements (R264). -/

/-- On leaving START_UP every object is placed once, with reason INITIAL. -/
def initialAll (s : State) : State :=
  let s1 := s.mac.sta.foldl (fun t p => linkEvaluate p.1 none t) (surveyStart s)
  let s2 := chanInitial 2 (chanInitial 1 s1)
  let s3 := (entryKeys s).foldl (fun t k => entryInitial k t) s2
  let s4 := (kkeys s.sec.slots).foldl (fun t k => slotInitial k t) s3
  placePitches 1 (laneInitial (bankInitial s4))

/-! Forced re-placement (R284, Table 11.8). -/

/-- FORCED_REPLACEMENT. -/
def forced (f : Forced) (s : State) : State :=
  if s.life.mode == .startUp then s
  else match f with
    | .chains r | .headland r => (linkStas (rnum r) s).foldl (fun t n => linkRun n (some (6, 0xFFFF)) (decide1 t)) s
    | .candidate n =>
      match kget s.mac.sta n with
      | some x => if (List.range 3).all fun r => !bit x.links r || linkCandidate r n x s then s else linkRun n (some (0x0D, 0xFFFF)) (decide1 s)
      | none => s
    | .lanes => fixSets 5 0xFFFF true s
    | .cipher g =>
      if 5 ≤ groupCores g s then s
      else
        let t := withSeed (fun x => { x with groupsOut := if bit x.groupsOut g then x.groupsOut else x.groupsOut + 2 ^ g.val }) s
        (slotsOn g s).foldl (fun u k => match freeGroup u with
          | some h => place 3 5 0xFFFF k h true u
          | none => u) t
    | .portDown p =>
      if portUp p s then s
      else (entryKeys s).foldl (fun t k => match entryTarget k t with
        | some (true, q) => if placedAt 2 k t == p.val && vget (vget t.router.pair q).member (1 - p.val) && portUp (1 - p.val) t then place 2 8 0xFFFF k (1 - p.val) true t else t
        | _ => t) s
    | .ring n =>
      if (vget s.rings.hrx n).en && !(vget s.rings.hrx n).halted && groupsHold n s then s
      else (entryKeys s).foldl (fun t k =>
        if placedAt 4 k t == n.val && (pinnedRing k t).isNone then (match otherRing k n t with
          | some m => place 4 8 0xFFFF k m true t
          | none => t)
        else t) s
    | .channel r => chanForced (rnum r) s
    | .rope => placePitches 0x0C s
where
  /-- The ring still belongs to the group of every entry placed on it. -/
  groupsHold (n : Nat) (s : State) : Bool := (entryKeys s).all fun k => placedAt 4 k s != n || match entryTarget k s with
    | some (false, g) => bit (vget s.router.group g) n
    | _ => true

def execForcedReplacement (f : Forced) (s : State) : Host.Outcome State Fault Refusal := whenRunning s (forced f)

/-! Commands (Table 11.10). -/

/-- Fences that leave an object without a placement. -/
def fencesBlocked (s : State) : Nat := ((s.seed.place.filter (·.2.blocked)).map (·.2.fence)).eraseDups.length

def seederStatus (s : State) : List Byte :=
  [match s.life.mode with | .startUp => 0 | .test => 2 | _ => 1, byte s.seed.domains] ++ le 2 s.seed.fences.length ++ le 2 (fencesBlocked s) ++
    le 2 0 ++ le 8 s.seed.seq

def seederGetStatusForm : Form := inlineForm 0x0600 0 16 fun _ => true

def seederGetStatusRun : Cmd → State → Effect := fun _ s => answer (seederStatus s) s

def execSeederGetStatus (m : Fin 8) (buf : List Byte) (s : State) : Host.Outcome State Fault Refusal :=
  command seederGetStatusForm m buf s seederGetStatusRun

def seederParamsOk (p : List Byte) : Bool :=
  (500 ≤ u16 p 0 && u16 p 0 ≤ 60000) && (60 ≤ u16 p 2 && u16 p 2 ≤ 3600) && (60 ≤ u32 p 4 && u32 p 4 ≤ 86400) &&
    (10 ≤ u8 p 8 && u8 p 8 ≤ 100) && (5 ≤ u8 p 9 && u8 p 9 + 5 ≤ u8 p 8) && (5 ≤ u8 p 10 && u8 p 10 ≤ 90) &&
    (11 ≤ u8 p 11 && u8 p 11 ≤ 40) && u16 p 12 ≤ 1000 && 1 ≤ u8 p 14 && u8 p 15 < 128 &&
    (u16 p 16 == 0 || (5 ≤ u16 p 16 && u16 p 16 ≤ 3600)) && (60 ≤ u16 p 18 && u16 p 18 ≤ 3600)

def seederSetParamsForm : Form := inlineForm 0x0601 20 0 seederParamsOk

def seederSetParamsRun : Cmd → State → Effect := fun c s =>
    let p := c.params
    okay (withSeed (fun x => { x with
      linkHold := u16 p 0, steerHold := u16 p 2, chanHold := u32 p 4, linkEnter := u8 p 8, linkLeave := u8 p 9, chanGain := u8 p 10
      steerGain := u8 p 11, chanSep := u16 p 12, csaCount := u8 p 14, domains := u8 p 15, surveyInt := u16 p 16, pitchHold := u16 p 18 }) (if u16 p 16 = s.seed.surveyInt then s else surveyStart s))

def execSeederSetParams (m : Fin 8) (buf : List Byte) (s : State) : Host.Outcome State Fault Refusal :=
  command seederSetParamsForm m buf s seederSetParamsRun

/-- The key under which an object's placement is kept; none for a LINK object with no TID. -/
def objectKey (d o : Nat) : Option Nat :=
  if d = 0 then ((List.range 8).find? fun t => bit o (16 + t)).map (linkKey (o % 1024)) else some o

/-- An OBJECT lies within its indices and sets no reserved bit (R6, R3, Table 11.6). -/
def objectOk (d o : Nat) : Bool :=
  match d with
  | 0 => bits o 10 6 == 0 && o < 2 ^ 24
  | 1 => o ≤ 2
  | 2 | 4 => bits o 14 17 == 0 && (!bit o 31 || bits o 0 14 ≤ 511)
  | 3 => o ≤ 2559
  | 5 => o % 2 ^ 8 ≤ 4 && o < 2 ^ 9
  | 6 => o ≤ 4 || (0x10 ≤ o && o < 0x20)
  | _ => o ≤ 1023

/-- A fence that binds an object. -/
def bindingFence (d o : Nat) (s : State) : Nat :=
  let find (p : Fence → Bool) : Nat := match s.seed.fences.find? fun q => p q.2 with | some q => q.1 | none => 0xFFFF
  match d with
  | 0 => match (List.range 8).find? fun t => bit o (16 + t) with | some t => linkFence (o % 1024) t s | none => 0xFFFF
  | 1 => find fun f => f.kind == 2 && u8 f.bytes 4 == o
  | 4 => match pinnedRing o s with | some p => p.1 | none => 0xFFFF
  | 6 => find fun f => f.kind == 5
  | 7 => match pinnedPitch o s with | some p => p.1 | none => 0xFFFF
  | 8 => find fun f => f.kind == 3 && (u16 f.bytes 4 == o || u16 f.bytes 4 == 0xFFFF)
  | _ => 0xFFFF

/-- Ticks as milliseconds in 32 bits, saturating. -/
def ms32 (t : Nat) : Nat := min (t / 500000) (2 ^ 32 - 1)

def placementData (d o : Nat) (k : Nat) (s : State) : List Byte :=
  let ann := d == 1 && (match (vget s.fe o).chanReq with | some q => q.announced | none => false)
  match placeOf d k s with
  | none => le 4 0xFFFFFFFF ++ le 4 0xFFFFFFFF ++ le 2 (bindingFence d o s) ++ [byte (put ann 2), 0] ++ le 4 0
  | some p => le 4 p.value ++ le 4 (ms32 (s.now - p.last)) ++ le 2 (bindingFence d o s) ++
      [byte (put (s.now < p.till) 0 + put p.blocked 1 + put ann 2), 0] ++ le 4 (ms32 (p.till - s.now))

def seederGetPlacementForm : Form := inlineForm 0x0602 8 16 fun p => u8 p 0 ≤ 8 && zeros p 1 3 && objectOk (u8 p 0) (u32 p 4) &&
  (objectKey (u8 p 0) (u32 p 4)).isSome

def seederGetPlacementRun : Cmd → State → Effect := fun c s =>
    let d := u8 c.params 0
    let o := u32 c.params 4
    answer (placementData d o ((objectKey d o).getD 0) s) s

def execSeederGetPlacement (m : Fin 8) (buf : List Byte) (s : State) : Host.Outcome State Fault Refusal :=
  command seederGetPlacementForm m buf s seederGetPlacementRun

/-- Log entries from a SEQ on, oldest first; an entry keeps its place even where its bytes were lost (Table 17.3). -/
def readLog (n first : Nat) (s : State) : List Byte :=
  (((s.seed.log.reverse).drop (first - (s.seed.seq - s.seed.log.length))).take n).flatten

def seederReadLogForm : Form :=
  { opcode := 0x0603, indirect := true, length := fun _ => some 16, data := fun p => 32 * u16 p 0,
    ok := fun p => (1 ≤ u16 p 0 && u16 p 0 ≤ 2048) && u16 p 2 == 0 && zeros p 12 4 }

def seederReadLogRun : Cmd → State → Effect := fun c s =>
    answer (readLog (u16 c.params 0) (u64 c.params 4) s) s

def execSeederReadLog (m : Fin 8) (buf : List Byte) (s : State) : Host.Outcome State Fault Refusal :=
  command seederReadLogForm m buf s seederReadLogRun

/-- LENGTH of SEEDER_SET_FENCE: none where a reserved kind or a channel count out of range ends it with BAD_PARAM (R280). -/
def fenceLength (p : List Byte) : Option Nat :=
  if u8 p 2 = 2 then (if 1 ≤ u8 p 5 ∧ u8 p 5 ≤ 32 then some (8 + 4 * u8 p 5) else none) else if u8 p 2 ≤ 6 then some 8 else none

/-- Table 11.4's ranges. -/
def fenceParamOk (p : List Byte) : Bool :=
  u16 p 0 ≤ 1023 && u8 p 3 == 0 &&
    match u8 p 2 with
    | 0 => u16 p 4 ≤ 1023 && u8 p 7 ≤ 2
    | 1 => u16 p 4 ≤ 1023 && u8 p 7 ≤ 7
    | 2 => (u8 p 4 == 1 || u8 p 4 == 2) && (1 ≤ u8 p 5 && u8 p 5 ≤ 32) && u16 p 6 == 0 &&
        (List.range (u8 p 5)).all fun i =>
          let e := slice p (8 + 4 * i) 4
          channelOk (u8 p 4) (u8 e 2) (if u8 e 3 = 0xFF then 0 else u8 e 3) (u16 e 0)
    | 3 => (u16 p 4 ≤ 1023 || u16 p 4 == 0xFFFF) && u16 p 6 ≤ 1023
    | 4 => u16 p 4 ≤ 1023 && u8 p 7 == 0
    | 5 => u16 p 6 == 0
    | 6 => u8 p 4 ≤ 1 && u8 p 5 ≤ 63 && u16 p 6 ≤ (if u8 p 4 = 0 then 16383 else 511)
    | _ => false

/-- Channels the fences allow a radio; its present one without a fence. -/
def allowedOf (r : Nat) (fences : KMap Fence) (s : State) : List (Nat × Nat) :=
  match fences.find? fun p => p.2.kind == 2 && u8 p.2.bytes 4 == r with
  | some f => (fenceChannels f.2).map fun e => (u16 e 0, u8 e 2)
  | none => [((vget s.fe r).centre, (vget s.fe r).bw)]

/-- The first failed check of Table 11.5 in R280's order, with the fence reported; none where all pass. -/
def fenceConflict (k : Nat) (f : Fence) (s : State) : Option (Nat × Nat) :=
  let p := f.bytes
  let old := kdel s.seed.fences k
  let new := kset s.seed.fences k f
  let low (q : Fence → Bool) : Option Nat := (old.find? fun e => q e.2).map (·.1)
  let dup := match f.kind with
    | 2 => low fun e => e.kind == 2 && u8 e.bytes 4 == u8 p 4
    | 4 => low fun e => e.kind == 4 && u16 e.bytes 4 == u16 p 4
    | _ => none
  let sta := if f.kind ≤ 1 then kget s.mac.sta (u16 p 4) else none
  match dup, sta with
  | some d, _ => some (6, d)
  | none, some x =>
    if f.kind = 0 && !bit x.links (u8 p 7) then some (2, 0xFFFF)
    else
      let l := (List.range 8).filter fun t => permitted (u16 p 4) t x.links new == 0 && bit (u8 p 6) t
      if l.isEmpty then none else some (1, (low fun e => l.any fun t => fenceBinds (u16 p 4) t e).getD 0xFFFF)
  | none, none =>
    match f.kind with
    | 2 =>
      if (allowedOf 1 new s).any fun a => (allowedOf 2 new s).any fun b => apart s.seed.chanSep a b then none
      else some (3, (low fun e => e.kind == 2).getD 0xFFFF)
    | 4 =>
      if (new.filter fun e => e.2.kind == 4 && u8 e.2.bytes 6 == u8 p 6).length ≤ 16 then none
      else some (4, (low fun e => e.kind == 4 && u8 e.bytes 6 == u8 p 6).getD 0xFFFF)
    | 5 =>
      if 8 ≤ lanesLeft (withSeed (fun x => { x with fences := new }) s) then none
      else some (5, (low fun e => e.kind == 5).getD 0xFFFF)
    | _ => none

/-- What a stored fence forces at once (R280, Table 11.8). -/
def fenceApply (k : Nat) (f : Fence) (s : State) : State :=
  if s.life.mode == .startUp then s
  else
    let p := f.bytes
    match f.kind with
    | 0 | 1 =>
      let n := u16 p 4
      match kget s.mac.sta n with
      | some x =>
        let bad := (List.range 8).any fun t => bit (u8 p 6) t && (placeOf 0 (linkKey n t) s).isSome &&
          Nat.land (placedAt 0 (linkKey n t) s) (permitted n t x.links s.seed.fences) != placedAt 0 (linkKey n t) s
        if bad && multiLink x then fenceLinks k n x s else s
      | none => s
    | 2 => chanForced (u8 p 4) s
    | 4 => if s.rope.role = .lead then nameAnchors (pinPitches 3 s) else s
    | 5 => fixSets 3 k true s
    | 6 =>
      let o := u16 p 6 + (if u8 p 4 = 0 then 0 else 2 ^ 31)
      match entryTarget o s with
      | some (false, _) => if placedAt 4 o s == u8 p 5 then s else place 4 3 k o (u8 p 5) true s
      | _ => s
    | _ => s
where
  /-- TIDs leave the links the fence forbids, and nothing else moves. -/
  fenceLinks (k n : Nat) (x : Sta) (s : State) : State :=
    let sc := (List.range 3).map fun r => linkScore r n x s
    let tids := (List.range 8).filter fun t => (placeOf 0 (linkKey n t) s).isSome &&
      Nat.land (placedAt 0 (linkKey n t) s) (permitted n t x.links s.seed.fences) != placedAt 0 (linkKey n t) s
    let new (t : Nat) : Nat :=
      let perm := permitted n t x.links s.seed.fences
      let l := Nat.land (placedAt 0 (linkKey n t) s) perm
      if l ≠ 0 && (linkList l).any (fun r => 0 < sc.getD r 0) then l else keepLinks l perm sc
    let alive := tids.filter fun t => (linkList (permitted n t x.links s.seed.fences)).any fun r => 0 < sc.getD r 0
    let u := placeLinks 3 k n true (alive.map fun t => (t, new t)) s
    t2lOffer n s (blockLinks k n (tids.filter fun t => !alive.contains t) u)

/-- SEEDER_SET_FENCE. -/
def setFenceRun (c : Cmd) (s : State) : Effect :=
  let p := c.params
  let k := u16 p 0
  let f : Fence := { kind := u8 p 2, bytes := p }
  if f.kind = 3 && s.rope.role != .none && u16 p 6 == s.rope.index then .fail .badParam
  else match fenceConflict k f s with
    | some (cause, q) => .complete .fenceConflict ([byte cause, 0] ++ le 2 q) (seedCount 4 1 s)
    | none => .complete .ok ([0, 0] ++ le 2 0xFFFF) (fenceApply k f (withSeed (fun x => { x with fences := kset x.fences k f }) s))

def seederSetFenceForm : Form := { opcode := 0x0604, indirect := false, length := fenceLength, data := fun _ => 4, ok := fenceParamOk }

def execSeederSetFence (m : Fin 8) (buf : List Byte) (s : State) : Host.Outcome State Fault Refusal :=
  command seederSetFenceForm m buf s setFenceRun

/-- SEEDER_CLEAR_FENCE (R281): nothing moves at once. -/
def seederClearFenceForm : Form := inlineForm 0x0605 4 0 fun p => u16 p 2 == 0

def seederClearFenceRun : Cmd → State → Effect := fun c s =>
    let k := u16 c.params 0
    if k = 0xFFFF then okay (withSeed (fun x => { x with fences := [] }) s)
    else if !khas s.seed.fences k then .fail .badParam
    else okay (withSeed (fun x => { x with fences := kdel x.fences k }) s)

def execSeederClearFence (m : Fin 8) (buf : List Byte) (s : State) : Host.Outcome State Fault Refusal :=
  command seederClearFenceForm m buf s seederClearFenceRun

/-- A fence leaves an object without a placement. -/
def fenceBlocked (k : Nat) (s : State) : Bool := s.seed.place.any fun p => p.2.blocked && p.2.fence == k

def seederGetFenceForm : Form := indirectForm 0x0606 4 144 fun p => u16 p 2 == 0

def seederGetFenceRun : Cmd → State → Effect := fun c s =>
    match kget s.seed.fences (u16 c.params 0) with
    | some f => answer (f.bytes ++ [byte (put (fenceBlocked (u16 c.params 0) s) 0)]) s
    | none => .fail .badParam

def execSeederGetFence (m : Fin 8) (buf : List Byte) (s : State) : Host.Outcome State Fault Refusal :=
  command seederGetFenceForm m buf s seederGetFenceRun

/-- One object evaluated with the last measurements (R474). -/
def evaluateOne (d o : Nat) (s : State) : State :=
  -- Radio A's channel and a station not in use are no objects.
  let t := if (d == 1 && o == 0) || ((d == 0 || d == 8) && !khas s.mac.sta (o % 1024)) then s
    else if d == 7 then decide1 (pitchGrid s) else decideOn d (if d == 0 then o % 1024 else o) s
  match d with
  | 0 => linkRun (o % 1024) none t
  | 1 => chanEvaluate o t
  | 5 => bankEvaluate o t
  | 6 => laneEvaluate o t
  | 7 => if s.rope.role = .lead && optOn 7 s && !s.rope.lost then nameAnchors (pitchStep 2 (pitchGrid s) o) else t
  | 8 => servingEvaluate o t
  | _ => t

/-- Objects of a domain. -/
def domainObjects (d : Nat) (s : State) : List Nat :=
  match d with
  | 0 => (s.mac.sta.filter fun p => multiLink p.2).map (·.1)
  | 1 => [1, 2]
  | 8 => (s.mac.sta.map (·.1)).filter fun n => heardElsewhere n s
  | _ => (s.seed.place.filter fun p => p.1 / 2 ^ 32 == d).map fun p => p.1 % 2 ^ 32

/-- SEEDER_EVALUATE: data is the number of changes; in TEST nothing changes. -/
def evaluateRun (c : Cmd) (s : State) : Effect :=
  let d := u8 c.params 0
  let o := u32 c.params 4
  match s.life.mode with
  | .startUp => .fail .wrongState
  | .test => answer (le 4 0) s
  | _ =>
    let t := (if o = 0xFFFFFFFF then domainObjects d s else [o]).foldl (fun t k => evaluateOne d k t) s
    answer (le 4 (t.seed.seq - s.seed.seq)) t

def seederEvaluateForm : Form := inlineForm 0x0607 8 4 fun p => u8 p 0 ≤ 8 && zeros p 1 3 &&
  (u32 p 4 == 0xFFFFFFFF || objectOk (u8 p 0) (u32 p 4))

def execSeederEvaluate (m : Fin 8) (buf : List Byte) (s : State) : Host.Outcome State Fault Refusal :=
  command seederEvaluateForm m buf s evaluateRun

def seederGetCountersForm : Form := indirectForm 0x0608 0 96 fun _ => true

def seederGetCountersRun : Cmd → State → Effect := fun _ s => answer (ctrBytes s.seed.ctr) s

def execSeederGetCounters (m : Fin 8) (buf : List Byte) (s : State) : Host.Outcome State Fault Refusal :=
  command seederGetCountersForm m buf s seederGetCountersRun

end Sys2Proof.Machine
end

