-- ==== Sys2Proof/Machine/Dram.lean ====
section
/-!
DEFINITION. The DDR4 controller (spec/17_dram.md): configuration (R410 to R412), reads, writes and their check (R413, R422, R423),
alerts and replays (R414 to R416), refresh and temperature (R417 to R419), retraining and rate change (R420, R421), commands.
-/
namespace Sys2Proof.Machine
open Sys2Proof

def withDram (f : Dram → Dram) (s : State) : State := { s with dram := f s.dram }
def withChan (c : Nat) (f : Chan → Chan) (s : State) : State := withDram (fun d => { d with chan := vmod d.chan c f }) s
def chan (c : Nat) (s : State) : Chan := vget s.dram.chan c
def chanCount (c i k : Nat) (s : State) : State := withChan c (fun x => { x with ctr := vadd x.ctr i k }) s

/-! Configuration (R410 to R412). -/

/-- M1 is present, in a configuration. -/
def m1Present (p : List Byte) : Bool := bit (u8 p 0) 1

/-- Channels of the accepted configuration. -/
def chanPresent (c : Nat) (s : State) : Bool := c == 0 || m1Present s.dram.cfg

/-- Rate codes a configuration names: primary, and the alternate one if any. -/
def cfgAlt (p : List Byte) : Option Nat := if u8 p 4 = 0xFF then none else some (u8 p 4)

/-- GiB of a channel: 8 or 16 per rank. -/
def cfgGib (p : List Byte) : Nat := u8 p 1 * (if u8 p 2 = 0 then 8 else 16)

/-- What one channel takes of a size given for the device, in MiB. -/
def chanShare (p : List Byte) (mib : Nat) : Nat := if m1Present p then ceilDiv mib 2 else mib

/-- MiB a channel gives to CSI, SCRATCH, MP and LOG. -/
def chanTaken (p : List Byte) : Nat := chanShare p (u16 p 8) + chanShare p (u16 p 10) + chanShare p (u16 p 12) + 2

def dramCfgOk (p : List Byte) : Bool :=
  (u8 p 0 == 1 || u8 p 0 == 3) && (u8 p 1 == 1 || u8 p 1 == 2) && u8 p 2 ≤ 1 && !(u8 p 1 == 2 && u8 p 2 == 1) && u8 p 3 ≤ 6 &&
    (u8 p 4 ≤ 6 || u8 p 4 == 0xFF) && u8 p 4 != u8 p 3 && zeros p 5 3 && (64 ≤ u16 p 8 && u16 p 8 ≤ 4096) && u16 p 10 ≤ 1024 &&
    (128 ≤ u16 p 12 && u16 p 12 ≤ 4096) && zeros p 14 2 && zeros p 20 4 && zeros p 42 14 && (u8 p 4 == 0xFF || zeros p 74 14)

/-- DRAM_CONFIGURE: accepted, it runs until DRAM_INIT_DONE. -/
def dramConfigureRun (c : Cmd) (s : State) : Effect :=
  let p := c.params
  if s.dram.ready then .fail .wrongState
  else if s.dram.job.isSome then .fail .busy
  else if cfgGib p * 1024 < chanTaken p + 1024 then .fail .noResource
  else
    .hold (withDram (fun d => { d with
      job := some c.handle, cfg := p
      chan := d.chan.map fun x => { x with state := 1 } }) s)

def dramConfigureForm : Form :=
  { opcode := 0x0C00, indirect := true, data := fun _ => 16, ok := dramCfgOk
    length := fun p => if u8 p 4 = 0xFF then some 56 else if u8 p 4 ≤ 6 then some 88 else none }

def execDramConfigure (m : Fin 8) (buf : List Byte) (s : State) : Host.Outcome State Fault Refusal :=
  command dramConfigureForm m buf s dramConfigureRun

/-- A channel as initialisation leaves it: every location fresh, counters kept. -/
def freshChan (s : State) (p : List Byte) (present : Bool) (x : Chan) : Chan :=
  if present then { ({} : Chan) with state := 2, rate := u8 p 3, trainedAt := s.now, ctr := x.ctr } else { ({} : Chan) with ctr := x.ctr }

/-- Completion data of DRAM_CONFIGURE. -/
def configData (p : List Byte) (step c rank : Nat) : List Byte :=
  [byte step, byte c, byte rank, 0] ++ (if step = 0 then le 2 (cfgGib p * 1024 - chanTaken p) ++ le 2 (cfgGib p) ++ le 2 (if m1Present p then cfgGib p else 0)
    else pad 6 []) ++ pad 6 []

/-- DRAM_INIT_DONE: the sequence of Table 17.2 ends, or fails at a step on a channel and rank. -/
def dramInitDone (fail : Option (Nat × Nat × Nat)) (s : State) : State :=
  match s.dram.job with
  | none => s
  | some h =>
    let p := s.dram.cfg
    match fail with
    | some (st, c, r) =>
      finish h .hwFault (configData p st c r) (withDram (fun d => { d with job := none, chan := d.chan.map fun x => { x with state := 0 } }) s)
    | none =>
      let t := withDram (fun d => { d with
        job := none, ready := true, scratch := chanShare p (u16 p 10) * (if m1Present p then 2 else 1), pkt := cfgGib p * 1024 - chanTaken p
        chan := #v[freshChan s p true (vget d.chan 0), freshChan s p (m1Present p) (vget d.chan 1)] })
        { s with rel := { s.rel with passes := vset (vset s.rel.passes 16 { began := s.now }) 17 { began := s.now } } }
      finish h .ok (configData p 0 0 0) (if s.life.mode == .startUp then t else bankInitial t)

def execDramInitDone (fail : Option (Fin 8 × Fin 2 × Fin 2)) (s : State) : Host.Outcome State Fault Refusal :=
  whenRunning s (dramInitDone (fail.bind fun f => if f.1.val = 0 then none else some (f.1.val, f.2.1.val, f.2.2.val)))

/-! Requests (R422, R423). -/

/-- Class of a use (Table 11.3), and its service class (Table 17.6). -/
def bufClass (u : DramFor) : Nat := match u with | .pkt => 0 | .csi .. => 1 | .scratch _ => 2 | .mp => 3 | .log _ => 4
def svcClass (u : DramFor) : Nat := match u with | .csi .. => 0 | .pkt => 1 | .mp | .log _ => 2 | .scratch _ => 3

/-- The 64-byte burst of an address. -/
def burstOf (a : Nat) : Nat := a / 64 * 64

/-- The bank of an address, its row, and its rank. -/
def bankKey (a : Nat) : Nat := let d := Config.dramPlace a; d.1 % 2 * 16 + d.2.1 % 4 * 4 + d.2.2.1 % 4
def rowOf (a : Nat) : Nat := (Config.dramPlace a).2.2.2.1
def dramRank (a : Nat) : Nat := (Config.dramPlace a).1 % 2

/-- A request goes to an open row. -/
def rowOpen (x : Chan) (q : DramReq) : Bool := kget x.rows (bankKey q.addr) == some (rowOf q.addr)

/-- Requests that no earlier one to the same burst keeps back. -/
def eligibleReqs : List DramReq → List DramReq → List DramReq
  | _, [] => []
  | seen, q :: r => if seen.any (·.addr == q.addr) then eligibleReqs (seen ++ [q]) r else q :: eligibleReqs (seen ++ [q]) r

/-- No refresh of a rank runs. -/
def rankFree (x : Chan) (r now : Nat) : Bool := match kget x.refEnd r with | some t => t ≤ now | none => true

/-- A request is older than AGE_LIMIT. -/
def aged (x : Chan) (now : Nat) (q : DramReq) : Bool := x.ageLimit < (now - q.at_) * 2

/-- An open row first, then the oldest. -/
def openFirst (x : Chan) (l : List DramReq) : Option DramReq :=
  match l.find? (rowOpen x) with | some q => some q | none => l.head?

/-- The request a channel serves next, and whether its age has promoted it (R422). -/
def pickReq (x : Chan) (now : Nat) : Option (DramReq × Bool) :=
  let l := (eligibleReqs [] x.reqs).filter fun q => rankFree x (dramRank q.addr) now
  let byClass : Option DramReq :=
    (List.range 4).findSome? fun c => openFirst x (l.filter fun q => svcClass q.use == c)
  if x.readFirst then
    let rd := l.filter (!·.write)
    if x.draining || rd.isEmpty then (openFirst x (l.filter (·.write))).map (·, false)
    else match rd.find? (aged x now) with
      | some q => some (q, true)
      | none => (openFirst x rd).map (·, false)
  else match l.find? (aged x now) with
    | some q => some (q, true)
    | none => byClass.map (·, false)

/-- Writes that wait. -/
def wqLen (x : Chan) : Nat := (x.reqs.filter (·.write)).length

/-- READ_FIRST: draining starts at WQ_HIGH, counted, and ends at WQ_LOW. -/
def noteDrain (c : Nat) (s : State) : State :=
  let x := chan c s
  if !x.readFirst then withChan c (fun x => { x with draining := false }) s
  else if !x.draining && x.wqHigh ≤ wqLen x then chanCount c 19 1 (withChan c (fun x => { x with draining := true }) s)
  else if x.draining && wqLen x ≤ x.wqLow then withChan c (fun x => { x with draining := false }) s
  else s

/-- A rate change has begun to stop the channels. -/
def rateChanging (s : State) : Bool := !s.dram.rateReqs.isEmpty && (List.range 2).all fun c => (chan c s).training.isNone && !(chan c s).replaying && !(chan c s).alertLow

/-- 64 clocks in ticks at a rate code, rounded up. -/
def clocks64 (rate : Nat) : Nat := ceilDiv 64000 ([1600, 1866, 2133, 2400, 2666, 2933, 3200].getD rate 1600)

/-- Retired commands leave the retry buffer (R415). -/
def retire (now : Nat) (x : Chan) : Chan := if x.alertLow then x else { x with retry := x.retry.filter fun t => now < t + clocks64 x.rate }

/-- The channel issues commands now. -/
def chanOpen (c : Nat) (s : State) : Bool :=
  let x := retire s.now (chan c s)
  x.state == 2 && !x.alertLow && x.training.isNone && !rateChanging s && x.retry.length < 64

/-- A command is issued; one that runs after a replay shows that the replay has ended. -/
def issued (c : Nat) (s : State) : State :=
  withChan c (fun x => let y := retire s.now x; { y with retry := y.retry ++ [s.now], replaying := false, fails := 0, lastTry := false }) s

/-! Errors (R413, Table 17.3). -/

/-- An error record. -/
def errorRecord (kind addr dev : Nat) (s : State) : List Byte :=
  let b := vget s.time.tb 2
  let d := Config.dramPlace addr
  le 4 b.ns ++ le 4 (b.sec % 2 ^ 32) ++ [byte kind, byte (d.1 % 2 + 4 * (d.2.1 % 4) + 16 * (d.2.2.1 % 4))] ++ le 3 d.2.2.2.1 ++ le 2 d.2.2.2.2 ++ [byte dev]

def noteError (c kind addr dev : Nat) (s : State) : State :=
  withChan c (fun x => { x with errors := (errorRecord kind addr dev s :: x.errors).take 16 }) s

/-- A frame leaves the queue it stands in. -/
def dropAt (f : PktAt) (s : State) : State :=
  match f with
  | .port p i =>
    match (vget s.eth p).txQ[i]? with
    | some f => frameDone f .aborted [] (withPort p (fun x => { x with txQ := x.txQ.eraseIdx i }) s)
    | none => s
  | .sta q i =>
    match (tidQueue q s)[i]? with
    | some f => frameDone f .aborted [] (setTidQueue q ((tidQueue q s).eraseIdx i) s)
    | none => s
  | .group q i =>
    match (groupQueue q s)[i]? with
    | some f => frameDone f .aborted [] (setGroupQueue q ((groupQueue q s).eraseIdx i) s)
    | none => s

/-- A CSI record is deleted as if it had expired. -/
def csiLost (r kind i : Nat) (s : State) : State :=
  let mark (m : KMap Csi) : KMap Csi := kmod m i fun c => { c with aged := true, struck := true }
  bfCount r 8 1 (withBf (fun b => match kind with
    | 0 => { b with explicit := vmod b.explicit r mark }
    | 1 => { b with recip := vmod b.recip r mark }
    | _ => { b with overheard := vmod b.overheard r fun l => l.mapIdx fun j c => if j = i then { c with aged := true, struck := true } else c }) s)

/-- A log entry reads back as zeros and keeps its place. -/
def logLost (seq : Nat) (s : State) : State :=
  withSeed (fun x => { x with log := x.log.mapIdx fun j e => if x.seq - 1 - j = seq then pad 32 [] else e }) s

/-- The reader's action on a poisoned burst (Table 17.3). -/
def readerAction (c : Nat) (u : DramFor) (f : Option PktAt) (s : State) : State :=
  match u with
  | .pkt => chanCount c 4 1 (match f with | some a => dropAt a s | none => s)
  | .csi r k i => csiLost r k i s
  | .scratch l => endJob l 5 s
  | .mp => withLife (fun x => { x with mpStopped := true }) s
  | .log q => logLost q s

/-- A detected uncorrectable burst. -/
def dramUncorr (c addr cls a b : Nat) (s : State) : State :=
  raise .dramUncorr c (le 8 addr ++ [byte cls, byte b])
    (chanCount c 3 1 (noteError c 1 addr a (withChan c (fun x => { x with poison := kset x.poison addr b }) s)))

/-! DRAM_READ and DRAM_WRITE. -/

/-- A request joins the channel's list; one of class 0 marks the instant. -/
def arriveReq (c : Nat) (q : DramReq) (s : State) : State :=
  noteDrain c (withChan c (fun x => { x with
    reqs := x.reqs ++ [q], lastClass0 := if svcClass q.use = 0 then some s.now else x.lastClass0 }) s)

/-- A read: answered from the write queue where its burst is queued there; a FAILED channel returns poisoned data. -/
def readArrive (c addr : Nat) (u : DramFor) (s : State) : State :=
  let x := chan c s
  let b := burstOf addr
  if x.state = 3 then readerAction c u none s
  else if x.state ≠ 2 || rateChanging s then s
  else match (x.reqs.filter fun q => q.write && q.addr == b).getLast? with
    | some q => chanCount c 20 1 (withChan c (fun x => { x with answer := q.data }) s)
    | none => arriveReq c { addr := b, use := u, at_ := s.now } s

/-- A write: it waits outside while the write queue is full. -/
def writeArrive (c addr : Nat) (u : DramFor) (data : List Byte) (s : State) : State :=
  let x := chan c s
  if x.state ≠ 2 || rateChanging s || 64 ≤ wqLen x then s
  else arriveReq c { write := true, addr := burstOf addr, use := u, data := pad 64 data, at_ := s.now } s

/-- A request leaves the list and its row is open. -/
def takeReq (c : Nat) (q : DramReq) (promoted : Bool) (s : State) : State :=
  let t := issued c (withChan c (fun x => { x with
    reqs := x.reqs.erase q, rows := kset x.rows (bankKey q.addr) (rowOf q.addr), usedAt := kset x.usedAt (dramRank q.addr) s.now }) s)
  noteDrain c (if promoted then chanCount c 18 1 t else t)

/-- A read burst: checked, corrected and written back, or poisoned. -/
def readServe (c : Nat) (e : RdErr) (f : Option PktAt) (s : State) : State :=
  match pickReq (chan c s) s.now with
  | none => s
  | some (q, pro) =>
    if !chanOpen c s || q.write then s
    else
      let t := withChan c (fun x => { x with answer := memRead x.mem q.addr 64 }) (chanCount c 0 1 (takeReq c q pro s))
      match kget (chan c s).poison q.addr, e with
      | some b, _ => readerAction c q.use f (dramUncorr c q.addr (bufClass q.use) 0xFF b t)
      | none, .clean => t
      | none, .one d => chanCount c 2 1 (noteError c 0 q.addr d t)
      | none, .two a b => readerAction c q.use f (dramUncorr c q.addr (bufClass q.use) a b t)

/-- A write burst reaches the DRAM: it is no longer poisoned. -/
def storeBurst (c : Nat) (q : DramReq) (s : State) : State :=
  chanCount c 1 1 (withChan c (fun x => { x with mem := memWrite x.mem q.addr (pad 64 q.data), poison := kdel x.poison q.addr }) s)

def writeServe (c : Nat) (s : State) : State :=
  match pickReq (chan c s) s.now with
  | none => s
  | some (q, pro) => if !chanOpen c s || !q.write then s else storeBurst c q (takeReq c q pro s)

def execDramRead (c : Fin 2) (op : RdOp) (s : State) : Host.Outcome State Fault Refusal :=
  whenLive s fun s => match op with
    | .arrive a u => readArrive c a u s
    | .serve e f => readServe c e f s

def execDramWrite (c : Fin 2) (op : WrOp) (s : State) : Host.Outcome State Fault Refusal :=
  whenLive s fun s => match op with
    | .arrive a u d => writeArrive c a u d s
    | .serve => writeServe c s

/-! Alerts and replays (R414 to R416). -/

/-- The channel is FAILED: requests that wait act as on poisoned data. -/
def chanFail (c : Nat) (s : State) : State :=
  let l := (chan c s).reqs.filter (!·.write)
  raise .dramRetrain c [1] (l.foldl (fun t q => readerAction c q.use none t)
    (withChan c (fun x => { x with state := 3, reqs := [], replaying := false, retry := [], training := none }) s))

/-- ALERT_FALL: parity or write CRC, told by the pulse; within a replay it makes that replay a failed one. -/
def alertFall (c : Nat) (crc : Bool) (s : State) : State :=
  let x := chan c s
  if x.state ≠ 2 || x.alertLow then s
  else
    let t := chanCount c (if crc then 6 else 5) 1 (withChan c (fun x => { x with alertLow := true }) s)
    let u := withChan c (fun y => { y with errors := (alertRecord crc s :: y.errors).take 16 }) t
    if !x.replaying then u
    else
      let v := chanCount c 8 1 (withChan c (fun y => { y with replaying := false, fails := x.fails + 1 }) u)
      if x.lastTry then chanFail c v else v
where
  /-- An alert's record names no address. -/
  alertRecord (crc : Bool) (s : State) : List Byte :=
    let b := vget s.time.tb 2
    le 4 b.ns ++ le 4 (b.sec % 2 ^ 32) ++ [if crc then 3 else 2] ++ pad 6 [] ++ [0xFF]

/-- The retry buffer is replayed. -/
def replay (c : Nat) (last : Bool) (s : State) : State :=
  chanCount c 7 1 (withChan c (fun x => { x with replaying := true, lastTry := last }) s)

/-- ALERT_RISE: precharge-all and replay; after three failed replays in a row the channel retrains in full first. -/
def alertRise (c : Nat) (s : State) : State :=
  let x := chan c s
  if x.state ≠ 2 || !x.alertLow then s
  else
    let t := withChan c (fun y => { y with alertLow := false, rows := [] }) s
    if x.fails < 3 then replay c false t
    else raise .dramRetrain c [0] (chanCount c 9 1 (withChan c (fun y => { y with training := some .replay, trainOf := none }) t))

def execAlertFall (c : Fin 2) (crc : Bool) (s : State) : Host.Outcome State Fault Refusal := whenLive s (alertFall c crc)
def execAlertRise (c : Fin 2) (s : State) : Host.Outcome State Fault Refusal := whenLive s (alertRise c)

/-! Refresh and temperature (R417 to R419). -/

/-- Ranks of a channel. -/
def hasRank (r : Nat) (s : State) : Bool := r < u8 s.dram.cfg 1

/-- No request waits for the rank. -/
def rankQuiet (c r : Nat) (s : State) : Bool := !(chan c s).reqs.any fun q => dramRank q.addr == r

/-- tREFI in ticks: 7.8 us, 3.9 us while hot. -/
def refInterval (x : Chan) : Nat := if x.hot then 1950 else 3900

/-- A rank's next REF falls due now. -/
def refTime (c r : Nat) (s : State) : Bool :=
  match kget (chan c s).refAt r with | some t => t + refInterval (chan c s) ≤ s.now | none => true

/-- tRFC1 in ticks at the present rate, from the timing set of DRAM_CONFIGURE. -/
def rfcTicks (c : Nat) (s : State) : Nat :=
  ceilDiv (u16 s.dram.cfg ((if (chan c s).rate = u8 s.dram.cfg 3 then 24 else 56) + 14)) 2

/-- `n` REFs of a rank run back to back; its rows are closed. -/
def refresh (c r n : Nat) (s : State) : State :=
  chanCount c 12 n (withChan c (fun y => { y with
    refEnd := kset y.refEnd r (s.now + n * rfcTicks c s), rows := y.rows.filter fun p => p.1 / 16 != r }) s)

/-- REF_DUE: every tREFI. -/
def refDue (c r : Nat) (s : State) : State :=
  let x := chan c s
  let owed := vget x.owed r
  if x.state ≠ 2 || !hasRank r s || !refTime c r s then s
  else
    let u := withChan c (fun y => { y with refAt := kset y.refAt r (match kget y.refAt r with | some t => t + refInterval y | none => s.now) }) s
    if 0 < vget x.ahead r then withChan c (fun y => { y with ahead := vset y.ahead r (vget y.ahead r - 1) }) u
    else
      let t := if 0 < owed then chanCount c 13 1 u else u
      if owed < 8 then withChan c (fun y => { y with owed := vset y.owed r (owed + 1) }) t
      else chanCount c 14 1 (refresh c r 8 (withChan c (fun y => { y with owed := vset y.owed r 1 }) t))

/-- REF_ISSUE: an owed REF of a rank with no request queued. -/
def refIssue (c r : Nat) (s : State) : State :=
  let x := chan c s
  if !chanOpen c s || vget x.owed r = 0 || !rankQuiet c r s || !rankFree x r s.now then s
  else refresh c r 1 (issued c (withChan c (fun y => { y with owed := vset y.owed r (vget y.owed r - 1) }) s))

/-- A rank has been idle for 2 us. -/
def rankIdle (x : Chan) (r now : Nat) : Bool :=
  (match kget x.refEnd r with | some t => t + 1000 ≤ now | none => true) && (match kget x.usedAt r with | some t => t + 1000 ≤ now | none => true)

/-- REF_PULL_IN: none owed, idle for 2 us, at most 8 ahead. -/
def refPullIn (c r : Nat) (s : State) : State :=
  let x := chan c s
  if !chanOpen c s || !hasRank r s || vget x.owed r ≠ 0 || 8 ≤ vget x.ahead r || !rankQuiet c r s || !rankIdle x r s.now then s
  else chanCount c 15 1 (refresh c r 1 (issued c (withChan c (fun y => { y with ahead := vset y.ahead r (vget y.ahead r + 1) }) s)))

def execRefDue (c r : Fin 2) (s : State) : Host.Outcome State Fault Refusal := whenLive s (refDue c r)
def execRefIssue (c r : Fin 2) (s : State) : Host.Outcome State Fault Refusal := whenLive s (refIssue c r)
def execRefPullIn (c r : Fin 2) (s : State) : Host.Outcome State Fault Refusal := whenLive s (refPullIn c r)

/-- Whole milliseconds spent hot join HOT_MS. -/
def hotCount (c : Nat) (s : State) : State :=
  let x := chan c s
  if !x.hot then s
  else let n := (s.now - x.hotAt) / 500000
    chanCount c 16 n (withChan c (fun y => { y with hotAt := y.hotAt + n * 500000 }) s)

/-- Background work of Table 17.4 may run: it is due, and no request is queued or its limit has come (in ticks since it last ran). -/
def upkeepDue (x : Chan) (last : Option Nat) (due limit now : Nat) : Bool :=
  match last with | some t => t + due ≤ now && (x.reqs.isEmpty || t + limit ≤ now) | none => true

/-- TEMP_READ (R419): every 32 ms; `hot` tells that some rank reports above 85 degC. -/
def tempRead (c : Nat) (hot : Bool) (s : State) : State :=
  if (chan c s).state ≠ 2 || !upkeepDue (chan c s) (chan c s).tempAt 16000000 32000000 s.now then s
  else withChan c (fun x =>
    if hot then { x with hot := true, cool := 0, hotAt := if x.hot then x.hotAt else s.now, tempAt := some s.now }
    else { x with cool := min 2 (x.cool + 1), hot := x.hot && x.cool + 1 < 2, tempAt := some s.now }) (hotCount c s)

def execTempRead (c : Fin 2) (hot : Bool) (s : State) : Host.Outcome State Fault Refusal := whenLive s (tempRead c hot)

/-- ZQ_CAL (Table 17.4): a short calibration every 128 ms; it closes every row. -/
def zqCal (c : Nat) (s : State) : State :=
  if chanOpen c s && upkeepDue (chan c s) (chan c s).zqAt 64000000 64500000 s.now then
    withChan c (fun x => { x with rows := [], zqAt := some s.now }) s
  else s

def execZqCal (c : Fin 2) (s : State) : Host.Outcome State Fault Refusal := whenLive s (zqCal c)

/-! Retraining (R420). -/

/-- RETRAIN_DUE: an interval has passed. -/
def retrainDue (c : Nat) (s : State) : State :=
  let x := chan c s
  if x.state ≠ 2 || x.training.isSome || x.due.isSome || s.now < x.trainedAt + x.interval * 500000000 then s else withChan c (fun y => { y with due := some s.now }) s

def execRetrainDue (c : Fin 2) (s : State) : Host.Outcome State Fault Refusal := whenLive s (retrainDue c)

/-- No request of class 0 was queued in the last 10 us. -/
def quiet10 (c : Nat) (s : State) : Bool := match (chan c s).lastClass0 with | some t => decide (t + 5000 < s.now) | none => true

/-- Margins of a rank: read and write, trained and last. -/
def eyeOf (c r : Nat) (s : State) : List Nat := vget s.rel.eye (2 * c + r)

/-- The share of the trained margin lost, per cent, the worst of a channel's ranks and directions. -/
def marginLoss (c : Nat) (last : List (Nat × Nat)) (s : State) : Nat :=
  ((List.range 2).map fun r =>
    let e := eyeOf c r s
    match last[r]? with
    | some (rd, wr) =>
      let loss (t l : Nat) : Nat := if t = 0 then 0 else (t - l) * 100 / t
      max (loss (e.getD 0 0) rd) (loss (e.getD 1 0) wr)
    | none => 0).foldl max 0

/-- The interval is re-planned (Table 19.4): halved above 25 % lost, doubled after three in a row below 5 %. -/
def replanInterval (c loss : Nat) (s : State) : State :=
  withChan c (fun x =>
    if 25 < loss then { x with interval := max 60 (x.interval / 2), lowLoss := 0 }
    else if loss < 5 then
      (if x.lowLoss + 1 = 3 then { x with interval := min 3600 (x.interval * 2), lowLoss := 0 } else { x with lowLoss := x.lowLoss + 1 })
    else { x with lowLoss := 0 }) s

/-- Last margins measured. -/
def noteLast (c : Nat) (last : List (Nat × Nat)) (s : State) : State :=
  { s with rel := { s.rel with eye := Vector.ofFn fun i =>
      let e := vget s.rel.eye i.val
      if i.val / 2 = c then (match last[i.val % 2]? with | some (a, b) => [e.getD 0 0, e.getD 1 0, a, b] | none => e) else e } }

/-- Margins as just trained. -/
def noteTrained (c : Nat) (tr : List (Nat × Nat)) (s : State) : State :=
  { s with rel := { s.rel with eye := Vector.ofFn fun i =>
      if i.val / 2 = c then (match tr[i.val % 2]? with | some (a, b) => [a, b, a, b] | none => vget s.rel.eye i.val) else vget s.rel.eye i.val } }

/-- RETRAIN_START (R417, R420): a DRAM_RETRAIN with FORCE at once; otherwise once no class 0 request was queued in the last 10 us, or
100 ms after it fell due. `last` are the eye margins measured before it. -/
def retrainStart (c : Nat) (last : List (Nat × Nat)) (s : State) : State :=
  let x := chan c s
  let other := (chan (1 - c) s).training.isSome
  let ready := x.state == 2 && x.training.isNone && !other && !x.alertLow && !x.replaying && !rateChanging s
  let late := match x.due with | some t => decide (t + 50000000 ≤ s.now) | none => false
  let req := x.trainReqs.head?
  let force := (req.map (·.force)).getD false
  let full := (req.map (·.full)).getD false
  if !ready || !(x.due.isSome || req.isSome) || !(force || quiet10 c s || late) then s
  else
    let t := if full then s else noteLast c last (replanInterval c (marginLoss c last s) s)
    let u := chanCount c (if full then 9 else 10) 1 (withChan c (fun y => { y with
      training := some (if full then .full else .periodic), trainOf := req.map (·.handle), trainReqs := y.trainReqs.drop 1, due := none, rows := [] }) t)
    if late && !force && !quiet10 c s then chanCount c 11 1 u else u

def execRetrainStart (c : Fin 2) (last : List (Nat × Nat)) (s : State) : Host.Outcome State Fault Refusal := whenLive s (retrainStart c last)

/-- RETRAIN_DONE: a full one after three failed replays is followed by one more replay, or the channel is FAILED. -/
def retrainDone (c : Nat) (ok : Bool) (tr : List (Nat × Nat)) (s : State) : State :=
  let x := chan c s
  match x.training with
  | none => s
  | some k =>
    let t := withChan c (fun y => { y with training := none, trainOf := none, trainedAt := s.now }) (if ok then noteTrained c tr s else s)
    match k with
    | .replay => if ok then replay c true t else chanFail c t
    | _ => finishOpt x.trainOf (if ok then .ok else .hwFault) [] t

def execRetrainDone (c : Fin 2) (ok : Bool) (trained : List (Nat × Nat)) (s : State) : Host.Outcome State Fault Refusal :=
  whenLive s (retrainDone c ok trained)

/-! Rate change (R421). -/

/-- A channel through a rate change: its queue drained, owed REFs issued, the new rate, no REF owed. -/
def changeChan (c rate : Nat) (s : State) : State :=
  let x := chan c s
  if x.state ≠ 2 then s
  else
    let t := (x.reqs.filter (·.write)).foldl (fun t q => storeBurst c q t) s
    let reads := (x.reqs.filter (!·.write)).length
    chanCount c 17 1 (chanCount c 12 ((List.range 2).map fun r => vget x.owed r).sum (chanCount c 0 reads
      (withChan c (fun y => { y with
        reqs := [], draining := false, retry := [], rows := [], owed := Vector.replicate 2 0, ahead := Vector.replicate 2 0, rate := rate
        refAt := [(0, s.now), (1, s.now)], refEnd := [], zqAt := some s.now }) t)))

/-- RATE_CHANGE: both channels leave self-refresh at the new rate, and the DRAM_SET_RATE that waits first completes. -/
def rateChange (s : State) : State :=
  match s.dram.rateReqs with
  | [] => s
  | (h, w) :: r =>
    if !rateChanging s then s
    else
      let rate := if w = 0 then u8 s.dram.cfg 3 else u8 s.dram.cfg 4
      finish h .ok [byte rate] (withDram (fun d => { d with rateReqs := r }) (changeChan 1 rate (changeChan 0 rate s)))

def execRateChange (s : State) : Host.Outcome State Fault Refusal := whenLive s rateChange

/-! Commands (Table 17.8). -/

/-- The checks of every command but DRAM_CONFIGURE and DRAM_GET_STATUS. -/
def dramCmd (c : Nat) (s : State) (go : State → Effect) : Effect :=
  if s.dram.ready && !chanPresent c s then .fail .badParam else if !s.dram.ready then .fail .wrongState else go s

def dramSetPolicyForm : Form :=
  inlineForm 0x0C01 8 0 fun p => u8 p 0 ≤ 1 && u8 p 1 ≤ 1 && 500 ≤ u16 p 2 && (24 ≤ u8 p 4 && u8 p 4 ≤ 63) && u8 p 5 + 8 ≤ u8 p 4 && zeros p 6 2

def dramSetPolicyRun : Cmd → State → Effect := fun c s =>
      let p := c.params
      dramCmd (u8 p 0) s fun s =>
        okay (noteDrain (u8 p 0) (withChan (u8 p 0) (fun x => { x with
          readFirst := u8 p 1 == 1, ageLimit := u16 p 2, wqHigh := u8 p 4, wqLow := u8 p 5 }) s))

def execDramSetPolicy (m : Fin 8) (buf : List Byte) (s : State) : Host.Outcome State Fault Refusal :=
  command dramSetPolicyForm m buf s dramSetPolicyRun

/-- DRAM_SET_RATE: to the rate that runs already it completes at once. -/
def setRateRun (c : Cmd) (s : State) : Effect :=
  let w := u8 c.params 0
  let failed := (List.range 2).any fun i => (chan i s).state == 3
  if !s.dram.ready || failed || (w == 1 && (cfgAlt s.dram.cfg).isNone) then .fail .wrongState
  else
    let rate := if w = 0 then u8 s.dram.cfg 3 else u8 s.dram.cfg 4
    if s.dram.rateReqs.isEmpty && (chan 0 s).rate == rate then .complete .ok [byte rate] s
    else .hold (withDram (fun d => { d with rateReqs := d.rateReqs ++ [(c.handle, w)] }) s)

def dramSetRateForm : Form := inlineForm 0x0C02 4 1 fun p => u8 p 0 ≤ 1 && zeros p 1 3

def execDramSetRate (m : Fin 8) (buf : List Byte) (s : State) : Host.Outcome State Fault Refusal :=
  command dramSetRateForm m buf s setRateRun

/-- DRAM_RETRAIN: it makes the channel due, and completes when the retraining is done. -/
def dramRetrainRun (c : Cmd) (s : State) : Effect :=
  let p := c.params
  dramCmd (u8 p 0) s fun s =>
    if (chan (u8 p 0) s).state ≠ 2 then .fail .wrongState
    else .hold (withChan (u8 p 0) (fun x => { x with
      trainReqs := x.trainReqs ++ [{ handle := c.handle, force := bit (u8 p 1) 0, full := bit (u8 p 1) 1 }]
      due := if x.due.isSome then x.due else some s.now }) s)

def dramRetrainForm : Form := inlineForm 0x0C03 4 0 fun p => u8 p 0 ≤ 1 && u8 p 1 ≤ 3 && zeros p 2 2

def execDramRetrain (m : Fin 8) (buf : List Byte) (s : State) : Host.Outcome State Fault Refusal :=
  command dramRetrainForm m buf s dramRetrainRun

/-- Seconds to the next periodic retraining. -/
def toRetrain (x : Chan) (now : Nat) : Nat :=
  if x.state ≠ 2 || x.due.isSome then 0 else (x.trainedAt + x.interval * 500000000 - now) / 500000000

/-- DRAM_GET_STATUS: of two ranks, the higher number of REFs owed and ahead. -/
def dramStatus (c : Nat) (s : State) : List Byte :=
  let x := chan c s
  let shown := chanPresent c s || s.dram.job.isSome
  if !shown then pad 16 []
  else
    [byte x.state, byte x.rate, byte (if x.readFirst then 1 else 0), byte (put x.hot 0 + put x.training.isSome 1 + put x.replaying 2),
     byte (max (vget x.owed 0) (vget x.owed 1)), byte (max (vget x.ahead 0) (vget x.ahead 1))] ++ le 2 (wqLen x) ++ le 4 (toRetrain x s.now) ++ pad 4 []

def dramGetStatusForm : Form := inlineForm 0x0C04 4 16 fun p => u8 p 0 ≤ 1 && zeros p 1 3

def dramGetStatusRun : Cmd → State → Effect := fun c s => answer (dramStatus (u8 c.params 0) s) s

def execDramGetStatus (m : Fin 8) (buf : List Byte) (s : State) : Host.Outcome State Fault Refusal :=
  command dramGetStatusForm m buf s dramGetStatusRun

def dramGetErrorsForm : Form := indirectForm 0x0C05 4 256 fun p => u8 p 0 ≤ 1 && zeros p 1 3

def dramGetErrorsRun : Cmd → State → Effect := fun c s =>
    dramCmd (u8 c.params 0) s fun s => answer (chan (u8 c.params 0) s).errors.flatten s

def execDramGetErrors (m : Fin 8) (buf : List Byte) (s : State) : Host.Outcome State Fault Refusal :=
  command dramGetErrorsForm m buf s dramGetErrorsRun

def dramGetCountersForm : Form := indirectForm 0x0C06 4 168 fun p => u8 p 0 ≤ 1 && zeros p 1 3

def dramGetCountersRun : Cmd → State → Effect := fun c s =>
    dramCmd (u8 c.params 0) s fun s =>
      let t := hotCount (u8 c.params 0) s
      answer (ctrBytes (chan (u8 c.params 0) t).ctr) t

def execDramGetCounters (m : Fin 8) (buf : List Byte) (s : State) : Host.Outcome State Fault Refusal :=
  command dramGetCountersForm m buf s dramGetCountersRun

end Sys2Proof.Machine
end

