-- ==== Sys2Proof/Machine/Egress.lean ====
section
/-!
DEFINITION. Where a frame goes once its target is decided: an Ethernet port's queues, a radio's queues and launch queue, a receive
ring; and the SOURCE word of a frame (Table 2.23).
-/
namespace Sys2Proof.Machine
open Sys2Proof

/-- A frame that ends at a ring of the device's own or inside the MP: a host frame that still awaits its end completes with OK and
STAMP 0, since it was not stamped. -/
def frameArrived (f : Frame) (s : State) : State :=
  match f.ring with
  | some n => completeTx n f.id .ok 0 s
  | none => s

/-- SOURCE (Table 2.23). A host frame has no code of its own; the model gives it the MP's. -/
def sourceWord (f : Frame) : Nat :=
  match f.src with
  | 0 => put f.raw 29 + put f.unassoc 28 + f.bss % 64 * 2 ^ 16 + f.tid % 16 * 2 ^ 12 + (if f.unassoc then 0x3FF else f.sta % 1024)
  | 1 => 2 ^ 30 + f.port % 2
  | _ => 2 ^ 31

/-- EtherType of an Ethernet frame without tags, or its first TPID. -/
def etypeAt12 (b : List Byte) : Nat := be16 b 12

/-- A frame joins a port's queues: the launch queue, or those of its class (R337, R380). -/
def portQueue (p : Nat) (f : Frame) (s : State) : State :=
  withPort p (fun x =>
    if f.launch.isSome then { x with launchQ := x.launchQ ++ [f] }
    else if f.express then { x with expQ := x.expQ ++ [f] }
    else { x with txQ := x.txQ ++ [f] }) s

/-- A frame for a port: dropped with its link down (R373), protected first where MACsec is enabled, EAPOL excepted (R404). -/
def portEnqueue (p : Nat) (f : Frame) (s : State) : State :=
  if !(vget s.eth p).up then portCount p 12 1 (frameDone f .aborted [] s)
  else if (vget s.sec.port p).en && etypeAt12 f.bytes != 0x888E then
    withSec (fun x => { x with jobs := x.jobs ++ [{ kind := .txWire, unit := p, slot := none, frame := f, at_ := s.now }] }) s
  else portQueue p f s

/-- A frame for a station's TID: its queue, or the launch queue of the station's radio (R186, R337). -/
def stationEnqueue (n t : Nat) (f : Frame) (s : State) : State :=
  match f.launch, kget s.mac.sta n with
  | some _, some x => withRm (staRadio x t) (fun m => { m with launchQ := m.launchQ ++ [{ f with sta := n, tid := t, arrived := s.now, enq := tbTotal 2 s }] }) s
  | _, _ => enqueueTid n t f s

/-- A frame for a group queue. -/
def groupEnqueue (q : Nat) (f : Frame) (s : State) : State :=
  match f.launch with
  | some _ => withRm (bssRadio (q / 4)) (fun m => { m with launchQ := m.launchQ ++ [{ f with bss := q / 4, sta := 0x3FF, arrived := s.now, enq := tbTotal 2 s }] }) s
  | none => enqueueGroup q f s

end Sys2Proof.Machine
end

