-- ==== Sys2Proof/Machine/Eth.lean ====
section
/-!
DEFINITION. The Ethernet ports (spec/15_ethernet_ports.md): reception (R374 to R378), PAUSE (R379), transmission, preemption and launch
instants (R377, R380 to R383), the link (R371 to R373), fallow stepping (R384 to R386) and the commands of Table 15.8.
-/
namespace Sys2Proof.Machine
open Sys2Proof

/-! Fallow stepping (R384 to R386). -/

/-- A step begins: AN restarts with the target speed only. -/
def stepBegin (p target : Nat) (s : State) : State :=
  withPort p (fun x => { x with stepping := some (x.speed, target), freq := none }) s

/-- A CAPS frame is due: one a second. -/
def capsDue (x : Port) (now : Nat) : Bool := match x.capsSent with | some t => t + 500000000 ≤ now | none => true

/-- CAPS_SEND (R384). -/
def capsSend (p : Nat) (s : State) : State :=
  let x := port p s
  if x.up && mayStep x && x.stepping.isNone && capsDue x s.now then
    fallowSend p 0 0 0 (withPort p (fun y => { y with capsSent := some s.now }) s)
  else s

/-- FALLOW_CAPS_TIMEOUT (R384): no CAPS with bit 0 set for 3 s. -/
def capsTimeout (p : Nat) (s : State) : State :=
  match (port p s).capsAt with
  | some t => if t + 1500000000 ≤ s.now then withPort p (fun x => { x with capsAt := none }) s else s
  | none => s

/-- CAPS: the partner's serial, and its stepping while bit 0 is set. -/
def capsRx (p flags serial : Nat) (s : State) : State :=
  withPort p (fun x => { x with peer := serial, capsAt := if bit flags 0 then some s.now else x.capsAt }) s

/-- FALLOW_DOWN_TRIGGER (R385, R386): at least 30 s after the link came up and after the last step. -/
def downTrigger (p : Nat) (s : State) : State :=
  let x := port p s
  if x.calmFrom + 15000000000 ≤ s.now && x.fallow && 1 < x.speed && s.glb.serial.toNat < x.peer && !pitchTraffic p s then stepRequest p (x.speed - 1) s else s

/-- FALLOW_UP_TRIGGER (R385, R386). -/
def upTrigger (p : Nat) (s : State) : State := if wantsUp (port p s) then stepRequest p ((port p s).speed + 1) s else s

/-- STEP_REQ (R385): STEP_NAK to a down request under pitch traffic or while the own utilisation is not below 10 %, and while a step
runs; else STEP_ACK, and the step begins. -/
def stepReqRx (p target seq util : Nat) (s : State) : State :=
  let x := port p s
  if !x.up || !mayStep x then s
  else
    let down := target < x.speed
    if x.stepping.isSome || (down && (!x.fallow || pitchTraffic p s || 100 ≤ util)) then fallowSend p 3 target seq s
    else stepBegin p target (fallowSend p 2 target seq s)

def stepAckRx (p seq : Nat) (s : State) : State :=
  match (port p s).freq with
  | some (q, t) => if q = seq ∧ (port p s).stepping.isNone then stepBegin p t s else s
  | none => s

/-- STEP_REQ_TIMEOUT (R385): a request unanswered for 10 ms is dropped. -/
def stepReqTimeout (p : Nat) (s : State) : State :=
  if (port p s).freqAt + 5000000 ≤ s.now then withPort p (fun x => { x with freq := none }) s else s

def stepNakRx (p seq : Nat) (s : State) : State :=
  withPort p (fun x => { x with freq := if (x.freq.map (·.1)) = some seq then none else x.freq }) s

/-- A step that has ended: ETH_FALLOW. Stepping turned off meanwhile takes effect, and a port left below 50 Gb/s steps up. -/
def stepEnd (p fec : Nat) (s : State) : State :=
  match (port p s).stepping with
  | none => s
  | some (old, new) =>
    let t := withPort p (fun x => { x with
      speed := new, fec := fec, stepping := none, calmFrom := s.now, keepFallow := true, fallow := x.fallow && x.keepFallow
      upDue := new < 3 && (x.upDue || !x.keepFallow) }) s
    let u := raise .ethFallow p [byte old, byte new] (portCount p 23 1 t)
    if (port p u).upDue then stepRequest p (new + 1) u else u

/-- A fallow frame received by the port. -/
def fallowRx (p type flags target serial seq util : Nat) (s : State) : State :=
  match type with
  | 0 => capsRx p flags serial s
  | 1 => stepReqRx p target seq util s
  | 2 => stepAckRx p seq s
  | 3 => stepNakRx p seq s
  | _ => s

def execCapsSend (p : Fin 2) (s : State) : Host.Outcome State Fault Refusal := whenLive s (capsSend p)
def execCaps (p : Fin 2) (flags : Byte) (serial : BitVec 64) (s : State) : Host.Outcome State Fault Refusal :=
  whenLive s (capsRx p flags.toNat serial.toNat)
def execFallowCapsTimeout (p : Fin 2) (s : State) : Host.Outcome State Fault Refusal :=
  whenLive s (capsTimeout p)
def execFallowDownTrigger (p : Fin 2) (s : State) : Host.Outcome State Fault Refusal := whenLive s (downTrigger p)
def execFallowUpTrigger (p : Fin 2) (s : State) : Host.Outcome State Fault Refusal := whenLive s (upTrigger p)
def execStepReq (p : Fin 2) (target : Fin 4) (seq : Word) (util : Fin 1001) (s : State) : Host.Outcome State Fault Refusal :=
  whenLive s (stepReqRx p target seq.toNat util)
def execStepAck (p : Fin 2) (seq : Word) (s : State) : Host.Outcome State Fault Refusal := whenLive s (stepAckRx p seq.toNat)
def execStepNak (p : Fin 2) (seq : Word) (s : State) : Host.Outcome State Fault Refusal := whenLive s (stepNakRx p seq.toNat)
def execStepReqTimeout (p : Fin 2) (s : State) : Host.Outcome State Fault Refusal :=
  whenLive s (stepReqTimeout p)
def execEthFallow (p : Fin 2) (fec : Fin 4) (s : State) : Host.Outcome State Fault Refusal := whenLive s (stepEnd p fec)

/-! The link (R371 to R373). -/

/-- FEC that Table 15.1 allows at a speed, and the default. -/
def fecOk (speed fec : Nat) : Bool := match speed with | 1 => fec ≤ 1 | 2 => fec ≤ 2 | 3 => fec == 3 | _ => false
def fecDefault (speed : Nat) : Nat := match speed with | 2 => 2 | 3 => 3 | _ => 0

/-- Speed and FEC a link comes up with: resolved by AN among the advertised speeds, or as configured. -/
def linkMode (x : Port) (speed fec : Nat) : Option (Nat × Nat) :=
  match x.mode with
  | 0 => none
  | 1 => if 1 ≤ speed ∧ bit x.anSpeeds (speed - 1) ∧ fecOk speed fec then some (speed, fec) else none
  | m => some (m - 1, if fecOk (m - 1) x.fecCfg then x.fecCfg else fecDefault (m - 1))

/-- ETH_LINK_UP. -/
def linkUp (p speed fec addFrag : Nat) (s : State) : State :=
  if (port p s).up then s
  else match linkMode (port p s) speed fec with
    | none => s
    | some (v, c) =>
      raise .ethLink p [1, byte v, byte c, 0] (withPort p (fun x => { x with
        up := true, speed := v, fec := c, anDone := x.mode == 1, upAt := s.now, calmFrom := s.now, wireBusy := 0, expBusy := 0, preempt := false, verifies := 0, verifyDone := false
        addFrag := addFrag }) s)

def execEthLinkUp (p : Fin 2) (speed fec addFrag : Fin 4) (s : State) : Host.Outcome State Fault Refusal := whenLive s (linkUp p speed fec addFrag)

/-- Every frame a port still holds. -/
def portFrames (x : Port) : List Frame := x.dueQ ++ x.expQ ++ x.lateQ ++ x.launchQ ++ x.txQ

/-- The link goes down with a cause: waiting frames are dropped and counted, and a step or a request ends. -/
def linkDown (p cause : Nat) (s : State) : State :=
  let x := port p s
  if !x.up then s
  else
    let l := portFrames x
    let t := withPort p (fun x => { x with
      up := false, speed := 0, fec := 0, anDone := false, preempt := false, stepping := none, freq := none, capsAt := none
      fallow := x.fallow && (x.keepFallow || x.stepping.isNone), keepFallow := true
      dueQ := [], expQ := [], lateQ := [], launchQ := [], txQ := [], launchHeld := false, wireHold := false }) s
    raise .ethLink p [0, 0, 0, byte cause] (portCount p 21 1 (dropAll .aborted l (portCount p 12 l.length t)))

def execEthLinkDown (p : Fin 2) (cause : Fin 4) (s : State) : Host.Outcome State Fault Refusal := whenLive s (linkDown p cause)

/-! PAUSE (R379). -/

/-- The pause in force ends now: its nanoseconds so far count. -/
def pauseStop (p : Nat) (s : State) : State :=
  match (port p s).pause with
  | some (t, n) => portCount p 13 (min n ((s.now - t) * 2)) (withPort p (fun x => { x with pause := none }) s)
  | none => s

/-- A PAUSE frame of q quanta. -/
def pauseRx (p q : Nat) (s : State) : State :=
  let t := portCount p 7 1 s
  if !(port p s).pauseEn then t
  else
    let u := pauseStop p t
    if q = 0 then u else withPort p (fun x => { x with pause := some (s.now, q * 64 * byteTime x.speed / 100) }) u

def execPauseRx (p : Fin 2) (q : BitVec 16) (s : State) : Host.Outcome State Fault Refusal :=
  whenLive s fun s => if (port p s).up then pauseRx p q.toNat s else s

/-- PAUSE_END: the pause has lasted its time. -/
def pauseEnd (p : Nat) (s : State) : State :=
  match (port p s).pause with
  | some (t, n) => if (s.now - t) * 2 < n then s else portCount p 13 n (withPort p (fun x => { x with pause := none }) s)
  | none => s

def execPauseEnd (p : Fin 2) (s : State) : Host.Outcome State Fault Refusal := whenLive s (pauseEnd p)

/-! Reception (R374 to R378). -/

/-- VLAN tags of a frame, up to two. -/
def tagCount (b : List Byte) : Nat := if isTag16 (be16 b 12) then (if isTag16 (be16 b 16) then 2 else 1) else 0
where isTag16 (t : Nat) : Bool := t == 0x8100 || t == 0x88A8

/-- The size limit L (R376). -/
def sizeLimit (x : Port) (b : List Byte) : Nat := x.maxFrame + 4 * tagCount b

/-- The address filter (R374). -/
def filterPass (x : Port) (da : List Byte) : Bool :=
  da == x.mac || x.filter.any (fun e => e.2.valid && e.2.addr == da) || (x.bcast && da.all (· == 0xFF)) || x.promisc

/-- Bytes a port's receive buffer holds: frames the router or the cipher engine has not taken (R378). -/
def bufferUse (p : Nat) (s : State) : Nat :=
  ((s.router.inq.filter fun f => f.src == 1 && f.port == p).map fun f => f.bytes.length + 4).sum +
    ((s.sec.jobs.filter fun j => j.kind == .rxWire && j.unit == p).map fun j => j.frame.bytes.length + 4).sum

/-- The buffer has room for a frame; 16 KiB are kept for express ones. -/
def bufferRoom (p limit : Nat) (express : Bool) (s : State) : Bool :=
  bufferUse p s + limit ≤ 131072 - (if express then 0 else 16384)

/-- A frame is passed to the router. -/
def portAccept (p : Nat) (f : Frame) (len : Nat) (s : State) : State :=
  toRouter f (portCount p 1 len (portCount p 0 1 s))

def fallowAddr : List Byte := [0x01, 0x80, 0xC2, 0x00, 0x00, 0x0E]

/-- What the wire and the decoder tell of a frame: the bytes with the FCS, whether that holds, its class, the fragments it came in,
a reassembly (1) or SMD (2) error, uncorrectable codewords, and the port's own utilisation, per mille. -/
structure EthRx where
  bytes : List Byte
  fcsOk : Bool
  express : Bool
  frags : Nat
  err : Fin 3
  fec : Nat
  util : Fin 1001
  deriving DecidableEq, Repr

/-- MAC Control (R375). -/
def macControl (p : Nat) (b : List Byte) (s : State) : State :=
  if be16 b 14 = 1 then pauseRx p (be16 b 16) s else portCount p 8 1 s

/-- A frame of good size and FCS: MAC Control and fallow frames stay in the port; others pass the filter and MACsec. -/
def ethAccept (p : Nat) (g : List Byte) (express : Bool) (util : Nat) (s : State) : State :=
  let x := port p s
  let b := g.take (g.length - 4)
  let et := be16 b 12
  if et = 0x8808 then macControl p b s
  else if et = 0x88B6 ∧ slice b 0 6 = fallowAddr then
    if u8 b 14 = 1 then fallowRx p (u8 b 15) (u8 b 16) (u8 b 17) (u64 b 18) (u32 b 26) util s else s
  else if !bufferRoom p (sizeLimit x g) express s then portCount p 6 1 s
  else if !filterPass x (slice b 0 6) then portCount p 5 1 s
  else
    let f : Frame := { bytes := b, src := 1, port := p, stamps := stampIn p s, arrived := s.now, express := express }
    if !(vget s.sec.port p).en || et = 0x888E then portAccept p f g.length s
    else if et ≠ 0x88E5 then secCount 7 1 s
    else withSec (fun y => { y with jobs := y.jobs ++ [{ kind := .rxWire, unit := p, slot := none, frame := f }] }) s

/-- ETH_FRAME_RX (R376, Table 15.3). -/
def ethFrameRx (p : Nat) (e : EthRx) (s : State) : State :=
  let x := port p s
  if !x.up || x.stepping.isSome then s
  else
    let t := portCount p 22 e.fec (portCount p 16 e.frags s)
    if e.err = 1 then portCount p 17 1 t
    else if e.err = 2 then portCount p 18 1 t
    else if e.bytes.length < 64 then portCount p 3 1 t
    else if sizeLimit x e.bytes < e.bytes.length then portCount p 4 1 t
    else if !e.fcsOk then portCount p 2 1 t
    else ethAccept p e.bytes e.express e.util t

def execEthFrameRx (p : Fin 2) (bytes : List Byte) (fcsOk express : Bool) (frags : Nat) (err : Fin 3) (fec : Nat) (util : Fin 1001) (s : State) :
    Host.Outcome State Fault Refusal :=
  whenLive s (ethFrameRx p { bytes := bytes, fcsOk := fcsOk, express := express, frags := frags, err := err, fec := fec, util := util })

/-! Transmission (R377, R380 to R383). -/

/-- Time to the instant of the held launch frame in ns, if one is held. -/
def holdLeft (x : Port) (s : State) : Option (Frame × Nat) :=
  match x.launchQ.head?, x.launchHeld with
  | some f, true => f.launch.map fun l => (f, (l.2 + 2 ^ 32 - scale32 l.1 s) % 2 ^ 32)
  | _, _ => none

/-- A frame that starts now ends, with its preamble and 12 bytes of IPG, 8 byte times before the held instant (Table 15.5). -/
def endsInTime (x : Port) (f : Frame) (left : Nat) : Bool := (8 + wireBytes f + 12 + 8) * byteTime x.speed ≤ left * 100

/-- The wire may be given to a frame now. -/
def mayStart (x : Port) (f : Frame) (s : State) : Bool :=
  (f.express || (x.pause.isNone && !x.wireHold)) &&
    match holdLeft x s with
    | none => true
    | some (h, left) => (h.express && x.preempt && !f.express) || endsInTime x f left

/-- The queue a frame is taken from. -/
inductive PortQ where
  | due | late | exp | tx
  deriving DecidableEq, Repr

/-- Frames that could start, in order: one whose instant has come, express ones, late ones, and the rest. -/
def candidates (x : Port) : List (PortQ × Frame) :=
  let h (q : PortQ) (l : List Frame) : List (PortQ × Frame) := (l.head?.map fun f => (q, f)).toList
  h .due x.dueQ ++ (h .late x.lateQ).filter (·.2.express) ++ h .exp x.expQ ++ h .late x.lateQ ++ h .tx x.txQ

/-- The wire is free for a frame: nothing is on it, or preemption is active and an express frame finds a preemptable one there. -/
def wireOpen (x : Port) (f : Frame) (now : Nat) : Bool := (if f.express && x.preempt then x.expBusy else x.wireBusy) ≤ now * 200

def nextFrame (p : Nat) (s : State) : Option (PortQ × Frame) :=
  (candidates (port p s)).find? fun c => c.1 == .due || (wireOpen (port p s) c.2 s.now && mayStart (port p s) c.2 s)

/-- A frame leaves its queue. -/
def takeFrame (q : PortQ) (x : Port) : Port :=
  match q with
  | .due => { x with dueQ := x.dueQ.drop 1 }
  | .late => { x with lateQ := x.lateQ.drop 1 }
  | .exp => { x with expQ := x.expQ.drop 1 }
  | .tx => { x with txQ := x.txQ.drop 1 }

/-- A frame takes the wire with its preamble, which leads a launched frame's instant, and 12 bytes of IPG; a frame it preempts ends later
by as much. -/
def takeWire (q : PortQ) (f : Frame) (now : Nat) (x : Port) : Port :=
  let t := ((if q = .due then 0 else 8) + wireBytes f + 12) * byteTime x.speed
  { x with wireBusy := max x.wireBusy (now * 200) + t, expBusy := if f.express then now * 200 + t else x.expBusy }

/-- ETH_FRAME_TX: the next frame starts, in `frags` fragments where it was preempted. One beyond the limit is not sent. -/
def ethFrameTx (p frags : Nat) (s : State) : State :=
  let x := port p s
  if !x.up || x.stepping.isSome then s
  else match nextFrame p s with
    | none => s
    | some (q, f) =>
      let t := withPort p (takeFrame q) s
      if sizeLimit x f.bytes < f.bytes.length + 4 then portCount p 11 1 (frameDone f .badParam [] t)
      else
        let b := f.bytes ++ List.replicate (60 - f.bytes.length) 0
        let u := emit (.eth p b) (portCount p 10 (wireBytes f) (portCount p 9 1 (withPort p (takeWire q f s.now) t)))
        let v := if f.express then portCount p 14 1 u else if x.preempt then portCount p 15 frags u else u
        frameDone f .ok (stampOut p s) v

def execEthFrameTx (p : Fin 2) (frags : Nat) (s : State) : Host.Outcome State Fault Refusal := whenLive s (ethFrameTx p frags)

/-- HOLD_ADV in 0.01 ns (R382). -/
def holdAdv (x : Port) : Nat := (64 * (1 + x.addFrag) + 84) * byteTime x.speed

/-- LAUNCH_WIRE_HOLD (Table 15.5): preemptable traffic is held for an express frame's instant, from HOLD_ADV before it. -/
def launchWireHold (p : Nat) (s : State) : State :=
  let x := port p s
  match holdLeft x s with
  | some (f, left) => if x.up && f.express && x.preempt && !x.wireHold && left * 100 ≤ holdAdv x then portCount p 19 1 (withPort p (fun x => { x with wireHold := true }) s) else s
  | none => s

def execLaunchWireHold (p : Fin 2) (s : State) : Host.Outcome State Fault Refusal := whenLive s (launchWireHold p)

/-! Preemption (R380). -/

/-- PREEMPT_VERIFY: a verify mPacket every VERIFY_TIME, three at most; then verification has failed. -/
def preemptVerify (p : Nat) (s : State) : State :=
  let x := port p s
  if !x.up || !x.preemptEn || x.verifyDone || (x.verifies != 0 && s.now < x.verifyAt + x.verifyTime * 500000) then s
  else if x.verifies < 3 then emit (.mpacket p false) (withPort p (fun x => { x with verifies := x.verifies + 1, verifyAt := s.now }) s)
  else portCount p 20 1 (withPort p (fun x => { x with verifyDone := true }) s)

def execPreemptVerify (p : Fin 2) (s : State) : Host.Outcome State Fault Refusal := whenLive s (preemptVerify p)

/-- RESPOND_MPACKET: the partner's verify is answered; its respond makes preemption active. -/
def respondMpacket (p : Nat) (respond : Bool) (s : State) : State :=
  let x := port p s
  if !x.up || !x.preemptEn then s
  else if !respond then emit (.mpacket p true) s
  else if x.verifies = 0 ∨ x.verifyDone then s
  else withPort p (fun x => { x with preempt := true, verifyDone := true }) s

def execRespondMpacket (p : Fin 2) (respond : Bool) (s : State) : Host.Outcome State Fault Refusal := whenLive s (respondMpacket p respond)

/-! Commands (Table 15.8). -/

def configureOk (p : List Byte) : Bool :=
  u8 p 0 ≤ 1 && u8 p 1 ≤ 4 && u8 p 2 ≤ 7 && (u8 p 1 != 1 || u8 p 2 != 0) && (u8 p 3 ≤ 3 || u8 p 3 == 0xFF) && (1518 ≤ u16 p 4 && u16 p 4 ≤ 9216) &&
    u8 p 6 ≤ 15 && (1 ≤ u8 p 7 && u8 p 7 ≤ 128) && !bit (u8 p 8) 0 && zeros p 14 2

/-- ETH_CONFIGURE_PORT: a changed mode, speed or FEC retrains the link. -/
def configureRun (c : Cmd) (s : State) : Effect :=
  let p := c.params
  let n := u8 p 0
  let x := port n s
  if x.stepping.isSome then .fail .busy
  else
    let changed := x.mode != u8 p 1 || x.anSpeeds != u8 p 2 || x.fecCfg != u8 p 3
    let t := if changed then linkDown n 2 s else s
    okay (withPort n (fun y =>
      let z : Port := { y with
        mode := u8 p 1, anSpeeds := u8 p 2, fecCfg := u8 p 3, maxFrame := u16 p 4, bcast := bit (u8 p 6) 0, promisc := bit (u8 p 6) 1
        pauseEn := bit (u8 p 6) 2, preemptEn := bit (u8 p 6) 3, preempt := y.preempt && bit (u8 p 6) 3, verifyTime := u8 p 7, mac := slice p 8 6 }
      { z with fallow := z.fallow && mayStep z, upDue := z.upDue && mayStep z }) t)

def ethConfigurePortForm : Form := inlineForm 0x0A00 16 0 configureOk

def execEthConfigurePort (m : Fin 8) (buf : List Byte) (s : State) : Host.Outcome State Fault Refusal :=
  command ethConfigurePortForm m buf s configureRun

/-- ETH_SET_FILTER (R374): an entry the rope owns is locked. -/
def setFilterRun (c : Cmd) (s : State) : Effect :=
  let p := c.params
  let x := port (u8 p 0) s
  if ((kget x.filter (u8 p 1)).map fun e => e.rope != 0).getD false then .fail .locked
  else if bit (u8 p 2) 0 then okay (withPort (u8 p 0) (fun x => { x with filter := kset x.filter (u8 p 1) { addr := slice p 4 6 } }) s)
  else okay (withPort (u8 p 0) (fun x => { x with filter := kdel x.filter (u8 p 1) }) s)

def ethSetFilterForm : Form :=
  inlineForm 0x0A01 12 0 fun p => u8 p 0 ≤ 1 && (1 ≤ u8 p 1 && u8 p 1 ≤ 15) && u8 p 2 ≤ 1 && u8 p 3 == 0 && zeros p 10 2

def execEthSetFilter (m : Fin 8) (buf : List Byte) (s : State) : Host.Outcome State Fault Refusal :=
  command ethSetFilterForm m buf s setFilterRun

/-- ETH_GET_STATUS. -/
def ethStatus (p tx rx : Nat) (s : State) : List Byte :=
  let x := port p s
  [byte x.speed, byte x.fec,
   byte (put x.up 0 + put x.anDone 1 + put x.preempt 2 + put x.pause.isSome 3 + put x.capsAt.isSome 4 + put (pitchTraffic p s) 5), byte x.addFrag] ++
    le 2 (maskOf ((List.range 16).map fun i => i == 0 || ((kget x.filter i).map (·.valid)).getD false)) ++
    [if x.stepping.isSome then 2 else if x.fallow then 1 else 0, 0] ++ le 4 (if x.up then ms32 (s.now - x.upAt) else 0) ++ le 2 tx ++ le 2 rx

def ethGetStatusForm : Form := inlineForm 0x0A02 4 16 fun p => u8 p 0 ≤ 1 && zeros p 1 3

def ethGetStatusRun (tx rx : Fin 1001) : Cmd → State → Effect := fun c s => answer (ethStatus (u8 c.params 0) tx rx s) s

def execEthGetStatus (m : Fin 8) (buf : List Byte) (tx rx : Fin 1001) (s : State) : Host.Outcome State Fault Refusal :=
  command ethGetStatusForm m buf s (ethGetStatusRun tx rx)

/-- ETH_SET_FALLOW. -/
def setFallowRun (c : Cmd) (s : State) : Effect :=
  let p := u8 c.params 0
  let en := bit (u8 c.params 1) 0
  let x := port p s
  if !mayStep x then .fail .wrongState
  else if en then okay (withPort p (fun x => { x with fallow := true, keepFallow := true, upDue := false }) s)
  else if x.stepping.isSome then okay (withPort p (fun x => { x with keepFallow := false }) s)
  else
    let low := x.fallow && x.up && x.speed < 3
    let t := withPort p (fun x => { x with fallow := false, upDue := x.upDue || low }) s
    okay (if low then stepRequest p (x.speed + 1) t else t)

def ethSetFallowForm : Form := inlineForm 0x0A03 4 0 fun p => u8 p 0 ≤ 1 && u8 p 1 ≤ 1 && zeros p 2 2

def execEthSetFallow (m : Fin 8) (buf : List Byte) (s : State) : Host.Outcome State Fault Refusal :=
  command ethSetFallowForm m buf s setFallowRun

def ethGetCountersForm : Form := indirectForm 0x0A04 4 192 fun p => u8 p 0 ≤ 1 && zeros p 1 3

def ethGetCountersRun : Cmd → State → Effect := fun c s =>
    answer (ctrBytes (port (u8 c.params 0) s).ctr) s

def execEthGetCounters (m : Fin 8) (buf : List Byte) (s : State) : Host.Outcome State Fault Refusal :=
  command ethGetCountersForm m buf s ethGetCountersRun

end Sys2Proof.Machine
end

