-- ==== Sys2Proof/Machine/General.lean ====
section
/-!
DEFINITION. The general commands (Table 2.24).
-/
namespace Sys2Proof.Machine
open Sys2Proof

def nopForm : Form := inlineForm 0x0000 0 0 fun _ => true

def nopRun : Cmd → State → Effect := fun _ s => okay s

/-- NOP (R45). The step also holds COMMAND_CHECK's first step: a next command whose opcode is undefined completes with
BAD_OPCODE (R11). -/
def execNop (m : Fin 8) (buf : List Byte) (s : State) : Host.Outcome State Fault Refusal :=
  match nextCmd (vget s.host.mbx m).cmds with
  | some r =>
    if running s && !opcodeDefined (hdrOpcode r) then .next (finish r.handle .badOpcode [] s)
    else command nopForm m buf s nopRun
  | none => .next s

/-- GET_VERSION: level 4.2, stepping, LC_STATE, build, 256 outstanding. -/
def versionData (s : State) : List Byte :=
  [4, 2, 0xB0, byte s.life.lcState] ++ le 4 s.life.build.toNat ++ le 2 256 ++ le 6 0

def getVersionForm : Form := inlineForm 0x0001 0 16 fun _ => true

def getVersionRun : Cmd → State → Effect := fun _ s => answer (versionData s) s

def execGetVersion (m : Fin 8) (buf : List Byte) (s : State) : Host.Outcome State Fault Refusal :=
  command getVersionForm m buf s getVersionRun

/-- The handle an ABORT_COMMAND names is outstanding in mailbox `m`: taken and its completion not yet written. -/
def isOutstanding (m : Nat) (h : Word) (s : State) : Bool :=
  (vget s.host.mbx m).cmds.any (·.handle == h) ||
    (handleMbx h == m && s.host.cq.toList.any fun q => q.waiting.any fun c => c.handle == h)

/-- A command that waits in its mailbox has not started. -/
def notStarted (h : Word) (s : State) : Bool :=
  (vget s.host.mbx (handleMbx h)).cmds.any fun r => r.handle == h && r.phase == .queued

/-- ABORT_COMMAND (R42): data 0 aborted before start, 1 already running. A Harrow job that waits in its lease's queue has not
started (R236). -/
def abortRun (c : Cmd) (s : State) : Effect :=
  let h := BitVec.ofNat 32 (u32 c.params 0)
  if !isOutstanding c.mbx h s then .ahead .badParam [] s
  else if notStarted h s || jobQueued h s then .ahead .ok [0] (finish h .aborted [] (unqueueJob h s))
  else .ahead .ok [1] s

def abortCommandForm : Form := inlineForm 0x0002 4 1 fun _ => true

def execAbortCommand (m : Fin 8) (buf : List Byte) (s : State) : Host.Outcome State Fault Refusal :=
  command abortCommandForm m buf s abortRun

/-- HOST_GET_COUNTERS: frames, bytes and the two drop counters of one ring. -/
def ringCounters (r : Ring) : List Byte := le 8 r.frames ++ le 8 r.bytes ++ le 8 r.ctrA ++ le 8 r.ctrB

def hostGetCountersForm : Form := indirectForm 0x0003 4 32 fun p => u8 p 0 ≤ 1 && u8 p 1 ≤ 63 && zeros p 2 2

def hostGetCountersRun : Cmd → State → Effect := fun c s =>
    answer (ringCounters (vget (if u8 c.params 0 = 0 then s.rings.htx else s.rings.hrx) (u8 c.params 1))) s

def execHostGetCounters (m : Fin 8) (buf : List Byte) (s : State) : Host.Outcome State Fault Refusal :=
  command hostGetCountersForm m buf s hostGetCountersRun

end Sys2Proof.Machine
end

