-- ==== Sys2Proof/Machine/LaneOps.lean ====
section
/-!
DEFINITION. The Harrow lane as a processor: its arithmetic (R213, R221 to R224), pointers and move slots (R219, Tables 9.3 and
9.5), memories in normal and fall-back mode (R214, R217), fetch and steps (R215), hardware loops (R216).
-/
namespace Sys2Proof.Machine
open Sys2Proof

/-! Elements and arithmetic. -/

/-- Real and imaginary parts of an element (R213). -/
def re (e : BitVec 32) : Int := (e.extractLsb' 0 16).toInt
def im (e : BitVec 32) : Int := (e.extractLsb' 16 16).toInt

/-- The element of two parts. -/
def element (r i : Int) : BitVec 32 := BitVec.ofInt 16 i ++ BitVec.ofInt 16 r

/-- A value outside the range of sat16. -/
def over16 (x : Int) : Bool := x < -32768 || 32767 < x

/-- sat16 (Table 9.7). -/
def sat16 (x : Int) : Int := clampI (-32768) 32767 x

/-- cr(x, s): x / 2^s to the nearest integer, an exact half to the even one (R222). -/
def cr (x : Int) (s : Nat) : Int :=
  let d : Int := 2 ^ s
  let q := x / d
  let r := x % d
  if 2 * r > d ∨ (2 * r = d ∧ q % 2 ≠ 0) then q + 1 else q

/-- Saturation of a 40-bit accumulator part (R221). -/
def over40 (x : Int) : Bool := x < -2 ^ 39 || 2 ^ 39 - 1 < x
def sat40 (x : Int) : Int := clampI (-2 ^ 39) (2 ^ 39 - 1) x

/-- Complex products. -/
def mulRe (a b : BitVec 32) : Int := re a * re b - im a * im b
def mulIm (a b : BitVec 32) : Int := re a * im b + im a * re b
def mulcRe (a b : BitVec 32) : Int := re a * re b + im a * im b
def mulcIm (a b : BitVec 32) : Int := im a * re b - re a * im b

/-- The element of two saturated parts, and whether either was clamped. -/
def satElement (r i : Int) : BitVec 32 × Bool := (element (sat16 r) (sat16 i), over16 r || over16 i)

/-- An eight-element result from its elements, and whether any clamped. -/
def vecOf (f : Nat → BitVec 32 × Bool) : Vec8 × Bool :=
  (Vector.ofFn fun i => (f i.val).1, (List.range 8).any fun i => (f i).2)

/-- Redundant sign bits of a 16-bit part (R223). -/
def rsb (x : Int) : Nat :=
  let m := if x < 0 then (-x - 1).toNat else x.toNat
  ((List.range 15).filter fun i => m < 2 ^ i).length

/-! Seeds (Table 9.7, VRCP and VRSQ): any value within the relative error the table gives. -/

/-- A free value brought into [lo, hi]. -/
def seedIn (free lo hi : Nat) : Int := if hi < lo then (lo : Int) else ((lo + free % (hi - lo + 1) : Nat) : Int)

/-- 1 / x in Q2.14, relative error at most 2^-8. -/
def rcpSeed (n : Nat) : Int := seedIn (Config.rcpFree n) (ceilDiv (2 ^ 29 * 255) (256 * n)) (min 0x7FFF (2 ^ 29 * 257 / (256 * n)))

/-- 1 / sqrt(x) in Q2.14, relative error at most 2^-8. -/
def rsqSeed (n : Nat) : Int :=
  let k := Nat.sqrt (255 ^ 2 * 2 ^ 43 / n) / 256
  seedIn (Config.rsqFree n) (if (256 * k) ^ 2 * n ≥ 255 ^ 2 * 2 ^ 43 then k else k + 1) (min 0x7FFF (Nat.sqrt (257 ^ 2 * 2 ^ 43 / n) / 256))

/-! Registers. -/

def withFile (g : LaneFile → LaneFile) (x : Lane) : Lane := { x with f := g x.f }
def vreg (x : Lane) (i : Nat) : Vec8 := (x.f.v[i]?).getD (Vector.replicate 8 0)
def sreg (x : Lane) (i : Nat) : Word := (x.f.s[i]?).getD 0
def preg (x : Lane) (i : Nat) : Ptr := (x.f.p[i]?).getD {}
def areg (x : Lane) (i : Nat) : Acc8 := (x.f.acc[i]?).getD (Vector.replicate 8 (0, 0))
def el (v : Vec8) (i : Nat) : BitVec 32 := (v[i]?).getD 0
def accEl (a : Acc8) (i : Nat) : BitVec 40 × BitVec 40 := (a[i]?).getD (0, 0)

def setV (i : Nat) (v : Vec8) (x : Lane) : Lane := withFile (fun g => { g with v := vset g.v i v }) x
def setS (i : Nat) (w : Word) (x : Lane) : Lane := withFile (fun g => { g with s := vset g.s i w }) x
def setP (i : Nat) (p : Ptr) (x : Lane) : Lane := withFile (fun g => { g with p := vset g.p i p }) x
def setAcc (i : Nat) (a : Acc8) (x : Lane) : Lane := withFile (fun g => { g with acc := vset g.acc i a }) x
def markSat (b : Bool) (x : Lane) : Lane := { x with sat := x.sat || b }
def markAov (b : Bool) (x : Lane) : Lane := { x with aov := x.aov || b }

/-- A vector result goes to its register and SAT notes a clamp. -/
def setVec (i : Nat) (r : Vec8 × Bool) (x : Lane) : Lane := markSat r.2 (setV i r.1 x)

/-- Adds exact complex values to an accumulator, saturating at 40 bits (R221). -/
def accumulate (n : Nat) (d : Nat → Int × Int) (x : Lane) : Lane :=
  let a := areg x n
  let sum := fun i => ((accEl a i).1.toInt + (d i).1, (accEl a i).2.toInt + (d i).2)
  markAov ((List.range 8).any fun i => over40 (sum i).1 || over40 (sum i).2)
    (setAcc n (Vector.ofFn fun i => (BitVec.ofInt 40 (sat40 (sum i.val).1), BitVec.ofInt 40 (sat40 (sum i.val).2))) x)

/-! Memories. -/

/-- The memory fall-back mode uses (R217). -/
def survivor (x : Lane) : Nat := if !vget x.memFenced 0 then 0 else if !vget x.memFenced 1 then 1 else 2

/-- Memory and element where element `e` of X, Y or C lies. -/
def physical (x : Lane) (m e : Nat) : Nat × Nat := if x.fallback then (survivor x, 4096 * m + e) else (m, e)

/-- Reads and writes an element. -/
def laneElem (x : Lane) (m e : Nat) : BitVec 32 :=
  let q := physical x m e
  BitVec.ofNat 32 (leNat (memRead (vget x.mem q.1) (4 * q.2) 4))

def setElem (m e : Nat) (v : BitVec 32) (x : Lane) : Lane :=
  let q := physical x m e
  { x with mem := vmod x.mem q.1 fun b => memWrite b (4 * q.2) (le 4 v.toNat) }

/-- Bytes of a lane memory from an element. -/
def laneBytes (x : Lane) (m e n : Nat) : List Byte :=
  let q := physical x m e
  memRead (vget x.mem q.1) (4 * q.2) n

def setLaneBytes (m e : Nat) (l : List Byte) (x : Lane) : Lane :=
  let q := physical x m e
  { x with mem := vmod x.mem q.1 fun b => memWrite b (4 * q.2) l }

/-! Pointers. -/

/-- The low `k` bits of `n` reversed. -/
def bitrev : Nat → Nat → Nat
  | 0, _ => 0
  | k + 1, n => n % 2 * 2 ^ k + bitrev k (n / 2)

/-- The exponent of a power of two. -/
def log2Of (n : Nat) : Option Nat := (List.range 15).find? fun k => 2 ^ k == n

/-- ADDR lies in the pointer's buffer. -/
def ptrInside (p : Ptr) : Bool := p.base ≤ p.addr && p.addr < p.base + p.len

/-- The pointer serves a slot of bus `m` (R219); otherwise the move is an illegal instruction. -/
def ptrValid (p : Ptr) (m : Nat) : Bool :=
  p.mem == m &&
    match p.mode with
    | 0 => true
    | 1 => ptrInside p && p.step.natAbs ≤ p.len
    | 2 => ptrInside p && (log2Of p.len).isSome
    | _ => false

/-- The address of element `j` of a vector access (R219). -/
def ptrElem (p : Ptr) (j : Nat) : Nat :=
  match p.mode with
  | 0 => (p.addr + j) % 16384
  | 1 => (p.base + (p.addr - p.base + j) % p.len) % 16384
  | _ => (p.base + bitrev ((log2Of p.len).getD 0) ((p.addr - p.base + j) % p.len)) % 16384

/-- The post-modify amount (Table 9.5). -/
def postAmount (p : Ptr) (code : Nat) : Int :=
  match code with | 1 => p.step | 2 => -p.step | 3 => 8 | 4 => -8 | _ => 0

/-- ADDR after the access (R219). -/
def postModify (p : Ptr) (code : Nat) : Ptr :=
  if p.mode = 0 then { p with addr := (((p.addr : Int) + postAmount p code) % 16384).toNat }
  else { p with addr := p.base + ((((p.addr : Int) - p.base) + postAmount p code) % p.len).toNat }

/-! Move slots. -/

/-- A move slot's 13 bits by name (Table 9.5). -/
structure Slot where
  en : Bool
  store : Bool
  p : Nat
  v : Nat
  post : Nat
  deriving DecidableEq, Repr

/-- The slot of bus `m` in a format V word: MX, MY, MC (Table 9.4). -/
def slotBits (w m : Nat) : Nat := bits w (27 - 13 * m) 13
def slotAt (w m : Nat) : Slot :=
  let n := slotBits w m
  { en := bit n 12, store := bit n 11, p := bits n 8 3, v := bits n 3 5, post := bits n 0 3 }

/-- The active slots of a word with their buses. -/
def activeSlots (w : Nat) : List (Nat × Slot) := ((List.range 3).map fun m => (m, slotAt w m)).filter fun q => q.2.en

/-- Every slot of a word is legal on the lane. -/
def slotsLegal (w : Nat) (x : Lane) : Bool :=
  (List.range 3).all fun m =>
    let c := slotAt w m
    if c.en then c.post ≤ 4 && ptrValid (preg x c.p) m else slotBits w m == 0

/-- Elements a word's moves touch, with their memories. -/
def touched (w : Nat) (x : Lane) : List (Nat × Nat) :=
  (activeSlots w).flatMap fun q => (List.range 8).map fun j => (q.1, ptrElem (preg x q.2.p) j)

/-- Registers a word's moves load. -/
def loaded (w : Nat) : List Nat := ((activeSlots w).filter fun q => !q.2.store).map (·.2.v)

/-- Carries out the moves at the end of a step: loads and stores take values as they stood at its start in `old`; `free` gives
the elements that a running transfer writes (R231). -/
def doMoves (w : Nat) (old : Lane) (free : Nat → Nat → Option (BitVec 32)) (x : Lane) : Lane :=
  (activeSlots w).foldl (fun y q =>
    let p := preg old q.2.p
    let z := if q.2.store then
        (List.range 8).foldl (fun z j => setElem q.1 (ptrElem p j) (el (vreg old q.2.v) j) z) y
      else
        setV q.2.v (Vector.ofFn fun j => (free q.1 (ptrElem p j.val)).getD (laneElem old q.1 (ptrElem p j.val))) y
    setP q.2.p (postModify p q.2.post) z) x

/-! Fetch and steps. -/

/-- C element of instruction index `i`. -/
def instrElem (x : Lane) (i : Nat) : Nat := ((x.job.map (·.prog)).getD 0) + 2 * i

/-- The instruction comes from the loop cache: a later iteration runs, outside a handler, and the cache holds it (R216). -/
def cached (x : Lane) : Option Nat :=
  if !x.handler && !x.cacheFenced && x.f.loops.any (·.again) then kget x.cache x.pc else none

/-- The four instructions last fetched hold the next one (R214). -/
def inGroup (x : Lane) : Bool := match x.group with | some g => g ≤ x.pc && x.pc < g + 4 | none => false

/-- The step needs an instruction fetch. -/
def needsFetch (x : Lane) : Bool := (cached x).isNone && !inGroup x

/-- The 64-bit word in C. -/
def wordInC (x : Lane) : Nat := leNat (laneBytes x 2 (instrElem x x.pc) 8)

def fetched (x : Lane) : Nat := (cached x).getD (wordInC x)

/-- Lane state after the fetch: the group fetched, and a first iteration's word copied into the loop cache (R216). -/
def afterFetch (x : Lane) : Lane :=
  let g := if needsFetch x then some x.pc else if (cached x).isSome then none else x.group
  let c := if (cached x).isNone && !x.handler && !x.cacheFenced && !x.f.loops.isEmpty then kset x.cache x.pc (wordInC x) else x.cache
  { x with group := g, cache := c }

/-- Steps an instruction takes with `moves` move slots, `mc` of which uses the C bus (R215, R217). -/
def stepCost (x : Lane) (moves : Nat) (mc : Bool) : Nat :=
  if x.fallback then max 1 (ceilDiv (moves + if needsFetch x then 1 else 0) 2)
  else if mc && needsFetch x then 2 else 1

/-- The program goes on after the instruction at index `p`: an iteration that ends begins the next with no extra step. -/
def goOn (p : Nat) : List LoopLv → List LoopLv × Nat
  | [] => ([], p + 1)
  | v :: r =>
    if p ≠ v.last then (v :: r, p + 1)
    else if v.left > 1 then ({ v with left := v.left - 1, again := true } :: r, v.start)
    else goOn p r

def advanceFrom (p : Nat) (x : Lane) : Lane :=
  let q := goOn p x.f.loops
  { withFile (fun g => { g with loops := q.1 }) x with pc := q.2 }

def advance (x : Lane) : Lane := advanceFrom x.pc x

/-! The shadow bank (R225). -/

/-- Exchanges the banks. -/
def swapBanks (x : Lane) : Lane :=
  let f := x.f
  let sh : Shadow := { v := Vector.ofFn fun i => vreg x (24 + i.val), acc := areg x 3, s := Vector.ofFn fun i => sreg x (8 + i.val),
                       p := Vector.ofFn fun i => preg x (4 + i.val), loops := f.loops }
  let g : LaneFile := { v := Vector.ofFn fun i => if i.val < 24 then vreg x i.val else (x.shadow.v[i.val - 24]?).getD (Vector.replicate 8 0),
                        acc := vset f.acc 3 x.shadow.acc
                        s := Vector.ofFn fun i => if i.val < 8 then sreg x i.val else (x.shadow.s[i.val - 8]?).getD 0
                        p := Vector.ofFn fun i => if i.val < 4 then preg x i.val else (x.shadow.p[i.val - 4]?).getD {}
                        loops := x.shadow.loops }
  { x with f := g, shadow := sh }

/-- The lane with its registers at their job-start values (Table 9.1). -/
def jobStartLane (j : Job) (x : Lane) : Lane :=
  let f : LaneFile := { s := Vector.ofFn fun i => BitVec.ofNat 32 (j.init.getD i.val 0) }
  { x with
    f := f, shadow := {}, expr := 15, ibase := 0, maxv := none, minv := none, sat := false, aov := false
    pc := j.entry, saved := 0, handler := false, pend := 0, timer := none, steps := 0, wait := none
    group := none, cache := [], job := some j }

/-- A wipe (R230): memories and registers. -/
def wipedLane (x : Lane) : Lane := { x with mem := Vector.replicate 3 [], f := {}, shadow := {}, cache := [] }

end Sys2Proof.Machine
end

