-- ==== Sys2Proof/Machine/Harrow.lean ====
section
/-!
DEFINITION. Harrow's leases, jobs and transfers (R229 to R237) and its commands (Table 9.14).
-/
namespace Sys2Proof.Machine
open Sys2Proof

/-! Segments (Table 9.10, R233). -/

/-- A segment as its 16 bytes give it. -/
def descSeg (p : List Byte) (i : Nat) (out : Bool) : Seg :=
  { target := u8 p i, mem := u8 p (i + 1), elem := u16 p (i + 2), len := u32 p (i + 4), off := u64 p (i + 8), out := out }

/-- Its fields are within Table 9.10; reserved TARGET and MEM values are the lane's check (R233). -/
def segShape (g : Seg) : Bool :=
  g.elem % 8 == 0 && g.elem < 16384 && g.len % 32 == 0 && 32 ≤ g.len && g.len ≤ 65536 && g.off % 32 == 0

/-- The lane's check before it starts a transfer (R233, R218). -/
def segCheck (x : Lane) (e : Lease) (g : Seg) : Bool :=
  segShape g && g.mem ≤ 2 && g.elem + g.len / 4 ≤ (if x.fallback then 4096 else 16384) &&
    match g.target with
    | 0 => e.csi && !g.out && g.off + g.len ≤ 2097152
    | 1 => e.scratchMiB != 0 && g.off + g.len ≤ e.scratchMiB * 1048576
    | 2 | 3 | 4 | 5 => g.off + g.len ≤ (e.windows.getD (g.target - 2) (0, 0)).2
    | _ => false

/-- Carries out a transfer of lane `l` for lease `k`: `data` is what a host window holds. The layout of the CSI store is not
given, so its bytes are free values. -/
def transfer (l k : Nat) (data : List Byte) (g : Seg) (s : State) : State :=
  match kget s.harrow.lease k with
  | none => s
  | some e =>
    let t := hcount 10 g.len s
    if g.out then
      let b := laneBytes (lane l t) g.mem g.elem g.len
      if g.target = 1 then withLease k (fun e => { e with scratch := memWrite e.scratch g.off b }) t
      else hostWrite ((e.windows.getD (g.target - 2) (0, 0)).1 + g.off) b t
    else if g.target = 0 then
      let d := draw (8 * g.len) t
      withLane l (setLaneBytes g.mem g.elem (le g.len d.1.toNat)) d.2
    else
      let b := if g.target = 1 then memRead e.scratch g.off g.len else pad g.len data
      withLane l (setLaneBytes g.mem g.elem b) t

/-- Inbound segments in buffer order, up to one that fails its check (R230, R233); `true` where all ran. -/
def runIn (l k : Nat) : List Seg → List (List Byte) → State → Bool × State
  | [], _, s => (true, s)
  | g :: r, d, s =>
    match kget s.harrow.lease k with
    | none => (true, s)
    | some e => if segCheck (lane l s) e g then runIn l k r d.tail (transfer l k (d.headD []) g s) else (false, s)

/-! Jobs (R230). -/

/-- The lane is wiped if the job asks, or its last job had another owner. -/
def wipeFor (l owner : Nat) (ask : Bool) (s : State) : State :=
  if ask || (lane l s).owner != owner then withLane l wipedLane s else s

/-- The job a lane's slot runs next: the first queued one that names the slot and may run in the lane's mode (R218, R236). -/
def nextJob (l : Nat) (s : State) : Option Job :=
  match (lane l s).slot with
  | none => none
  | some q =>
    match kget s.harrow.lease (q / 4) with
    | none => none
    | some e => if e.drop.isSome || e.grant.isSome then none
      else (e.queue.find? fun j => j.slot == q % 4).filter fun j => !(lane l s).fallback || j.fallOk

/-- A host job starts: wipe, job-start registers, inbound segments, and then its program. -/
def startHost (l : Nat) (j : Job) (data : List (List Byte)) (s : State) : State :=
  let t := wipeFor l (j.lease + 1) j.wipe (unqueueJob j.handle s)
  let u := withLane l (fun x => { jobStartLane { j with fb := x.fallback } x with phase := .program, owner := j.lease + 1 }) t
  let v := runIn l j.lease j.inSegs data u
  if v.1 then v.2 else endJob l 2 v.2

/-- A Builmin job of a class may start on a lane of the class's set (R274). -/
def bjobAllowed (l c : Nat) (s : State) : Bool := laneOwn l s && !(lane l s).wiping && laneIdle l s && bit (placedAt 6 c s) l

def startBuilmin (l c : Nat) (s : State) : State :=
  withLane l (fun x => { x with bjob := some c, owner := 0 }) (wipeFor l 0 false s)

/-- JOB_START: a host job where `cls` is none, else a Builmin job of the class. -/
def jobStart (l : Nat) (cls : Option Nat) (data : List (List Byte)) (s : State) : State :=
  match cls with
  | some c => if bjobAllowed l c s then startBuilmin l c s else s
  | none =>
    if (lane l s).whole || (lane l s).wiping || !laneIdle l s then s
    else match nextJob l s with
      | some j => startHost l j data s
      | none => s

def execJobStart (l : Fin 16) (cls : Option (Fin 5)) (data : List (List Byte)) (s : State) : Host.Outcome State Fault Refusal :=
  whenRunning s (jobStart l (cls.map (·.val)) data)

/-- Command status of a fault (Table 9.11). -/
def faultStatus (f : Nat) : Status :=
  match f with | 0 => .ok | 1 | 2 => .badParam | 3 => .timeout | 4 | 5 => .hwFault | _ => .aborted

/-- Completion data (Table 9.12). -/
def jobData (l f : Nat) (j : Job) (x : Lane) : List Byte :=
  [byte f, byte (put x.sat 0 + put x.aov 1 + put j.fb 2), byte l, byte x.expr] ++ le 8 x.steps ++
    (List.range 4).flatMap (fun i => le 4 (sreg x i).toNat) ++ le 4 0

/-- Every channel of the lane is idle. -/
def chansIdle (x : Lane) : Bool := x.chan.toList.all (·.isNone)

/-- What the lane's checks find as the outbound segments run (R228). -/
def checkLane (l : Nat) (chk : LaneCheck) (s : State) : State :=
  match chk with
  | .ok => s
  | .retried => hcount 6 1 s
  | .residue => residueError l (hcount 6 1 s)
  | .memory b w => memoryError l b w s
  | .cache w => cacheError l w s

/-- A lane whose loop cache was fenced while its job ran enters fall-back mode now (R228). -/
def afterJob (l : Nat) (s : State) : State := if (lane l s).cacheFenced then enterFallback l s else s

/-- A host job ends: outbound segments, completion data, counters (R230, R232). -/
def completeHost (l : Nat) (j : Job) (s : State) : State :=
  let t := j.outSegs.foldl (fun t g => transfer l j.lease [] g t) s
  let x := lane l t
  let f := match x.phase with | .ended f => f | _ => 0
  let u := hcount 2 x.steps (hcount 1 1 (withLane l (fun x => { x with job := none, phase := .idle }) t))
  afterJob l (finish j.handle (faultStatus f) (jobData l f j x) u)

/-- A Builmin job that ended with fault 4 or 5 runs again from its start on another lane (R229): the idle lane of the class's
set with the lowest index; with none idle it waits for a JOB_START. -/
def rerun (c : Nat) (s : State) : State :=
  match (List.range 16).find? fun l => bjobAllowed l c s with
  | some l => startBuilmin l c s
  | none => s

def completeBuilmin (l c : Nat) (s : State) : State :=
  let t := withLane l (fun x => { x with bjob := none, phase := .idle }) s
  match (lane l s).phase with
  | .ended _ => rerun c (afterJob l t)
  | _ => afterJob l (hcount 0 1 t)

/-- JOB_COMPLETE. -/
def jobComplete (l : Nat) (chk : LaneCheck) (s : State) : State :=
  match (lane l s).job, (lane l s).bjob with
  | some _, _ =>
    if !chansIdle (lane l s) then s
    else
      match (lane l s).phase with
      | .outbound | .ended _ =>
        let t := if (lane l s).phase = .outbound then checkLane l chk s else s
        match (lane l t).job with
        | some j => completeHost l j t
        | none => t
      | _ => s
  | none, some c => completeBuilmin l c (checkLane l chk s)
  | none, none => s

def execJobComplete (l : Fin 16) (chk : LaneCheck) (s : State) : Host.Outcome State Fault Refusal := whenLive s (jobComplete l chk)

/-- LANE_WIPE_DONE (R234): the wipe of a lease or release ends once the lane's job has. -/
def laneWipeDone (l : Nat) (s : State) : State :=
  let x := lane l s
  if !x.wiping || !laneIdle l s then s
  else
    let t := withLane l (fun x => { wipedLane x with wiping := false }) s
    match x.slot with
    | some q => settleLease (q / 4) t
    | none => t

def execLaneWipeDone (l : Fin 16) (s : State) : Host.Outcome State Fault Refusal := whenLive s (laneWipeDone l)

/-! Commands (Table 9.14). -/

/-- HARROW_LEASE parameters. -/
def leaseOk (p : List Byte) : Bool :=
  1 ≤ u8 p 0 && u8 p 0 ≤ 4 && u8 p 1 ≤ 1 && u16 p 2 ≤ 64 && zeros p 4 4 &&
    (List.range 4).all fun i => u64 p (8 + 12 * i) % 32 == 0 && u32 p (16 + 12 * i) % 32 == 0

/-- Lease `k` with its slots on the best lanes (R275). -/
def leaseTake (h : Word) (p : List Byte) (k : Nat) (s : State) : State :=
  let n := u8 p 0
  let e : Lease := {
    csi := bit (u8 p 1) 0, scratchMiB := u16 p 2
    windows := (List.range 4).map fun i => (u64 p (8 + 12 * i), u32 p (16 + 12 * i))
    slots := List.replicate n none, grant := some h }
  ((slotLanes s).take n).zipIdx.foldl (fun t q => placeSlot 1 k q.2 q.1 false t)
    (withHarrow (fun h => { h with lease := kset h.lease k e }) s)

/-- Scratch space that leases hold, in MiB. -/
def scratchHeld (s : State) : Nat := (s.harrow.lease.map (·.2.scratchMiB)).sum

/-- HARROW_LEASE (R234, R275, R412): it stays outstanding until its lanes are free and wiped. -/
def leaseRun (c : Cmd) (s : State) : Effect :=
  let p := c.params
  let n := u8 p 0
  match kfree s.harrow.lease 4 with
  | none => .fail .noResource
  | some k =>
    if slotsHeld s + n > 4 ∨ (slotLanes s).length < n ∨ scratchHeld s + u16 p 2 > s.dram.scratch then .fail .noResource
    else
      let u := leaseTake c.handle p k s
      if lanesLeft u < 8 then .fail .noResource else .hold (fixSets 2 0xFFFF false u)

def harrowLeaseForm : Form := inlineForm 0x0500 56 8 leaseOk

def execHarrowLease (m : Fin 8) (buf : List Byte) (s : State) : Host.Outcome State Fault Refusal :=
  command harrowLeaseForm m buf s leaseRun

/-- A lease that is held: granted and not being released. -/
def leaseHeld (k : Nat) (s : State) : Bool :=
  match kget s.harrow.lease k with | some e => e.grant.isNone && e.drop.isNone | none => false

/-- HARROW_RELEASE: queued jobs complete ABORTED, running ones end with fault 6, and the lanes are wiped. -/
def leaseReleaseRun (c : Cmd) (s : State) : Effect :=
  let k := u8 c.params 0
  if !leaseHeld k s then .fail .wrongState
  else
    let t := dropJobs k (fun _ => true) .aborted s
    let lanes := (List.range 16).filter fun l => match (lane l t).slot with | some q => q / 4 == k | none => false
    let u := (List.range 16).foldl (fun u l => if ((lane l u).job.map (·.lease == k)).getD false then endJob l 6 u else u) t
    let v := lanes.foldl (fun v l => withLane l (fun x => { x with wiping := true }) v) u
    .hold (settleLease k (withLease k (fun e => { e with drop := some c.handle }) v))

def harrowReleaseForm : Form := inlineForm 0x0501 4 0 fun p => u8 p 0 ≤ 3 && zeros p 1 3

def execHarrowRelease (m : Fin 8) (buf : List Byte) (s : State) : Host.Outcome State Fault Refusal :=
  command harrowReleaseForm m buf s leaseReleaseRun

/-- Segments a job's buffer names. -/
def jobSegs (p : List Byte) : List Seg :=
  (List.range (u8 p 3)).map (fun i => descSeg p (64 + 16 * i) false) ++
    (List.range (u8 p 4)).map (fun i => descSeg p (64 + 16 * (u8 p 3 + i)) true)

/-- HARROW_SUBMIT_JOB parameters (Tables 9.9 and 9.10). -/
def jobOk (p : List Byte) : Bool :=
  u8 p 0 ≤ 3 && (u8 p 1 ≤ 3 || u8 p 1 == 0xFF) && u8 p 2 < 4 && u8 p 3 ≤ 8 && u8 p 4 ≤ 8 && zeros p 5 3 && u16 p 8 % 8 == 0 &&
    u16 p 8 < 16384 && u16 p 10 ≤ 8191 && u32 p 20 != 0 && zeros p 40 24 && (jobSegs p).all segShape

/-- The slot a job joins (R236): the one it names, or an idle slot, or the slot with the shortest queue, the lowest on a tie. -/
def slotFor (e : Lease) (asked : Nat) (s : State) : Option Nat :=
  let held := (List.range e.slots.length).filter fun n => ((e.slots[n]?).getD none).isSome
  let queued := fun n => (e.queue.filter fun j => j.slot == n).length
  let idle := fun n => queued n == 0 && match (e.slots[n]?).getD none with | some l => (lane l s).job.isNone | none => false
  if asked ≠ 0xFF then (if held.contains asked then some asked else none)
  else
    match held.find? idle with
    | some n => some n
    | none => held.find? fun n => held.all fun i => queued n ≤ queued i

/-- HARROW_SUBMIT_JOB (R236): it stays outstanding until the job ends. -/
def submitRun (c : Cmd) (s : State) : Effect :=
  let p := c.params
  let k := u8 p 0
  match kget s.harrow.lease k with
  | none => .fail .wrongState
  | some e =>
    if !leaseHeld k s then .fail .wrongState
    else if e.queue.length ≥ 16 then .fail .noResource
    else
      match slotFor e (u8 p 1) s with
      | none => .fail .noResource
      | some n =>
        let j : Job := {
          handle := c.handle, lease := k, slot := n, wipe := bit (u8 p 2) 0, fallOk := bit (u8 p 2) 1
          prog := u16 p 8, entry := u16 p 10, ivec := (List.range 4).map fun i => u16 p (12 + 2 * i), budget := u32 p 20
          init := (List.range 4).map fun i => u32 p (24 + 4 * i)
          inSegs := (jobSegs p).filter (!·.out), outSegs := (jobSegs p).filter (·.out) }
        let t := withLease k (fun e => { e with queue := e.queue ++ [j] }) s
        match (e.slots[n]?).getD none with
        | some l => .hold (if (lane l t).fallback then leaveFallback l t else t)
        | none => .hold t

def harrowSubmitJobForm : Form :=
  { opcode := 0x0502, indirect := true
    length := fun p => if u8 p 3 ≤ 8 ∧ u8 p 4 ≤ 8 then some (64 + 16 * (u8 p 3 + u8 p 4)) else none
    data := fun _ => 32, ok := jobOk }

def execHarrowSubmitJob (m : Fin 8) (buf : List Byte) (s : State) : Host.Outcome State Fault Refusal :=
  command harrowSubmitJobForm m buf s submitRun

/-- HARROW_STOP_JOB: the job that runs in a slot ends with fault 6; the data names its command. -/
def stopRun (c : Cmd) (s : State) : Effect :=
  let q := 4 * u8 c.params 0 + u8 c.params 1
  if !leaseHeld (u8 c.params 0) s then .fail .wrongState
  else
    match (List.range 16).find? fun l => (lane l s).slot == some q && (lane l s).job.isSome with
    | none => .fail .wrongState
    | some l =>
      match (lane l s).job, (lane l s).phase with
      | some j, .program | some j, .outbound => answer (le 4 j.handle.toNat) (endJob l 6 s)
      | _, _ => .fail .wrongState

def harrowStopJobForm : Form := inlineForm 0x0503 4 4 fun p => u8 p 0 ≤ 3 && u8 p 1 ≤ 3 && zeros p 2 2

def execHarrowStopJob (m : Fin 8) (buf : List Byte) (s : State) : Host.Outcome State Fault Refusal :=
  command harrowStopJobForm m buf s stopRun

/-- One lane of HARROW_GET_STATUS. -/
def laneStatus (l : Nat) (s : State) : List Byte :=
  let x := lane l s
  let st := if x.whole then 3 else if x.wiping then 2 else if laneIdle l s then 0 else 1
  let queued := match x.slot with
    | some q => ((kget s.harrow.lease (q / 4)).map fun e => (e.queue.filter fun j => j.slot == q % 4).length).getD 0
    | none => 0
  [byte (match x.slot with | some q => q / 4 + 1 | none => 0), byte st, byte (put x.fallback 0),
   byte (maskOf (x.memFenced.toList ++ [x.cacheFenced])), byte (match x.slot with | some q => q % 4 | none => 0xFF), byte queued, 0, 0]

def harrowGetStatusForm : Form := indirectForm 0x0504 0 128 fun _ => true

def harrowGetStatusRun : Cmd → State → Effect := fun _ s => answer ((List.range 16).flatMap fun l => laneStatus l s) s

def execHarrowGetStatus (m : Fin 8) (buf : List Byte) (s : State) : Host.Outcome State Fault Refusal :=
  command harrowGetStatusForm m buf s harrowGetStatusRun

def harrowGetCountersForm : Form := indirectForm 0x0505 0 96 fun _ => true

def harrowGetCountersRun : Cmd → State → Effect := fun _ s => answer (ctrBytes s.harrow.ctr) s

def execHarrowGetCounters (m : Fin 8) (buf : List Byte) (s : State) : Host.Outcome State Fault Refusal :=
  command harrowGetCountersForm m buf s harrowGetCountersRun

end Sys2Proof.Machine
end

