-- ==== Sys2Proof/Machine/Parse.lean ====
section
/-!
DEFINITION. The router's parser (R342, R343), the classification key (R345), the edits of a frame (R344, R357, Table 14.6), the
Toeplitz hash (R359), and the fragments of a datagram (R365).
-/
namespace Sys2Proof.Machine
open Sys2Proof

/-- How parsing fails (R343). -/
inductive PErr where
  | fail | depth
  deriving DecidableEq, Repr

/-- An Ethernet header: where it starts, its tags (TCI, outer first), and where the EtherType stands. -/
structure L2 where
  at_ : Nat := 0
  tags : List Nat := []
  etAt : Nat := 12
  deriving DecidableEq, Repr, Inhabited

/-- An IP header. `opts`: IPv4 options, or a Hop-by-Hop header. `frag`: identification, offset in bytes and More Fragments. -/
structure IpHdr where
  v6 : Bool := false
  at_ : Nat := 0
  len : Nat := 0
  proto : Nat := 0
  opts : Bool := false
  frag : Option (Nat × Nat × Bool) := none
  next : Nat := 0
  deriving DecidableEq, Repr, Inhabited

/-- A transport header. -/
structure L4Hdr where
  at_ : Nat := 0
  udp : Bool := false
  deriving DecidableEq, Repr, Inhabited

/-- A tunnel header: its VNI or key, where the inner frame starts, and whether that is an Ethernet frame. -/
structure Tun where
  id : Nat := 0
  inner : Nat := 0
  eth : Bool := false
  etype : Nat := 0
  deriving DecidableEq, Repr, Inhabited

/-- What the parser finds: outer headers, the tunnel, inner headers. -/
structure Pkt where
  l2 : L2 := {}
  ip : Option IpHdr := none
  l4 : Option L4Hdr := none
  tun : Option Tun := none
  l2i : Option L2 := none
  ipi : Option IpHdr := none
  l4i : Option L4Hdr := none
  deriving DecidableEq, Repr, Inhabited

/-- The frame ends before offset `n`. -/
def short (b : List Byte) (n : Nat) : Bool := b.length < n

def isTag (t : Nat) : Bool := t == 0x8100 || t == 0x88A8

/-- Ethernet header at `o`, with up to two tags. A converted wireless frame has none (`tagged` false). -/
def parseL2 (b : List Byte) (o : Nat) (tagged : Bool) : Except PErr L2 :=
  if short b (o + 14) then .error .fail
  else if !tagged || !isTag (be16 b (o + 12)) then .ok { at_ := o, etAt := o + 12 }
  else if short b (o + 18) then .error .fail
  else if be16 b (o + 16) ≠ 0x8100 then .ok { at_ := o, tags := [be16 b (o + 14)], etAt := o + 16 }
  else if short b (o + 22) then .error .fail
  else if isTag (be16 b (o + 20)) then .error .depth
  else .ok { at_ := o, tags := [be16 b (o + 14), be16 b (o + 18)], etAt := o + 20 }

/-- IPv4 header at `o`; `cut` lifts the check against the frame's end, inside a first fragment. -/
def parseV4 (b : List Byte) (o : Nat) (cut : Bool) : Except PErr IpHdr :=
  let ihl := u8 b o % 16 * 4
  let tl := be16 b (o + 2)
  let ff := be16 b (o + 6)
  if short b (o + 20) then .error .fail
  else if u8 b o / 16 ≠ 4 ∨ ihl < 20 ∨ short b (o + ihl) ∨ tl < ihl ∨ (short b (o + tl) ∧ !cut) then .error .fail
  else .ok { v6 := false, at_ := o, len := tl, proto := u8 b (o + 9), opts := ihl != 20, next := o + ihl
             frag := if ff % 0x4000 = 0 then none else some (be16 b (o + 4), ff % 0x2000 * 8, bit ff 13) }

/-- One of the four recognised extension headers. -/
def isExt (n : Nat) : Bool := n == 0 || n == 43 || n == 44 || n == 60

/-- Extension headers from `h.next`, at most `k` more; a later fragment's payload is not looked into. -/
def parseExt (b : List Byte) : (k : Nat) → IpHdr → Except PErr IpHdr
  | 0, h => if isExt h.proto then .error .depth else .ok h
  | k + 1, h =>
    if !isExt h.proto then .ok h
    else if short b (h.next + 8) then .error .fail
    else if h.proto = 44 then
      let ff := be16 b (h.next + 2)
      let g : IpHdr := { h with proto := u8 b h.next, next := h.next + 8, frag := some (be32 b (h.next + 4), ff / 8 * 8, bit ff 0) }
      if ff / 8 = 0 then parseExt b k g else .ok g
    else
      let n := h.next + 8 * (u8 b (h.next + 1) + 1)
      if short b n then .error .fail else parseExt b k { h with proto := u8 b h.next, next := n, opts := h.opts || h.proto == 0 }

/-- IPv6 header at `o`, up to its upper-layer header. -/
def parseV6 (b : List Byte) (o : Nat) (cut : Bool) : Except PErr IpHdr :=
  if short b (o + 40) then .error .fail
  else if short b (o + 40 + be16 b (o + 4)) ∧ !cut then .error .fail
  else parseExt b 2 { v6 := true, at_ := o, len := 40 + be16 b (o + 4), proto := u8 b (o + 6), next := o + 40 }

/-- The IP header an EtherType announces, if any. -/
def parseIp (b : List Byte) (et o : Nat) (cut : Bool) : Except PErr (Option IpHdr) :=
  if et = 0x0800 then (parseV4 b o cut).map some else if et = 0x86DD then (parseV6 b o cut).map some else .ok none

/-- A fragment: a non-zero offset or More Fragments; a later one has the offset. -/
def isFrag (h : IpHdr) : Bool := match h.frag with | some (_, o, m) => o != 0 || m | none => false
def isLater (h : IpHdr) : Bool := match h.frag with | some (_, o, _) => o != 0 | none => false

/-- TCP or UDP header of a datagram that is no later fragment; the UDP length may pass the frame's end in a first fragment. -/
def parseL4 (b : List Byte) (h : IpHdr) (cut : Bool) : Except PErr (Option L4Hdr) :=
  let o := h.next
  if isLater h then .ok none
  else if h.proto = 6 then
    if short b (o + 20) ∨ u8 b (o + 12) / 16 < 5 ∨ short b (o + u8 b (o + 12) / 16 * 4) then .error .fail else .ok (some { at_ := o })
  else if h.proto = 17 then
    if short b (o + 8) ∨ be16 b (o + 4) < 8 ∨ (short b (o + be16 b (o + 4)) ∧ !(cut || isFrag h)) then .error .fail
    else .ok (some { at_ := o, udp := true })
  else .ok none

/-- The tunnel header after the outer headers, if any (Table 14.2). -/
def parseTun (vxlan : Nat) (gre : Bool) (b : List Byte) (h : IpHdr) (l4 : Option L4Hdr) : Except PErr (Option Tun) :=
  match l4 with
  | some l =>
    if l.udp && vxlan != 0 && be16 b (l.at_ + 2) == vxlan then
      if short b (l.at_ + 16) ∨ !bit (u8 b (l.at_ + 8)) 3 then .error .fail
      else .ok (some { id := beNat (slice b (l.at_ + 12) 3), inner := l.at_ + 16, eth := true })
    else .ok none
  | none =>
    if gre && h.proto == 47 && !isLater h then
      let o := h.next
      let fl := u8 b o
      let c := if bit fl 7 then 4 else 0
      let k := if bit fl 5 then 4 else 0
      let n := o + 4 + c + k + (if bit fl 4 then 4 else 0)
      if short b (o + 4) ∨ u8 b (o + 1) % 8 ≠ 0 ∨ short b n then .error .fail
      else .ok (some { id := if k = 0 then 0 else be32 b (o + 4 + c), inner := n, eth := be16 b (o + 2) == 0x6558, etype := be16 b (o + 2) })
    else .ok none

/-- The inner headers of a tunnel; a tunnel inside it is payload. -/
def parseInner (b : List Byte) (p : Pkt) (t : Tun) (cut : Bool) : Except PErr Pkt := do
  let l2 ← if t.eth then (parseL2 b t.inner true).map some else .ok none
  let et := match l2 with | some l => be16 b l.etAt | none => t.etype
  let o := match l2 with | some l => l.etAt + 2 | none => t.inner
  let ip ← parseIp b et o cut
  let l4 ← match ip with | some h => parseL4 b h cut | none => .ok none
  return { p with tun := some t, l2i := l2, ipi := ip, l4i := l4 }

/-- Stage 1 (R342, R343). -/
def parsePkt (vxlan : Nat) (gre tagged : Bool) (b : List Byte) : Except PErr Pkt := do
  let l2 ← parseL2 b 0 tagged
  let ip ← parseIp b (be16 b l2.etAt) (l2.etAt + 2) false
  match ip with
  | none => return { l2 := l2 }
  | some h =>
    let l4 ← parseL4 b h false
    let p : Pkt := { l2 := l2, ip := some h, l4 := l4 }
    match ← parseTun vxlan gre b h l4 with
    | none => return p
    | some t => parseInner b p t (isFrag h)

/-! Innermost headers (R345). -/

def Pkt.innerL2 (p : Pkt) : Option L2 := if p.tun.isSome then p.l2i else some p.l2
def Pkt.innerIp (p : Pkt) : Option IpHdr := if p.tun.isSome then p.ipi else p.ip
def Pkt.innerL4 (p : Pkt) : Option L4Hdr := if p.tun.isSome then p.l4i else p.l4

/-- The header that makes the frame a fragment: the outer IP header's where that is one, else the innermost one's. -/
def Pkt.fragHdr (p : Pkt) : Option IpHdr :=
  match p.ip with
  | some h => if isFrag h then some h else p.innerIp.filter isFrag
  | none => none

def ipSrc (b : List Byte) (h : IpHdr) : List Byte := if h.v6 then slice b (h.at_ + 8) 16 else slice b (h.at_ + 12) 4
def ipDst (b : List Byte) (h : IpHdr) : List Byte := if h.v6 then slice b (h.at_ + 24) 16 else slice b (h.at_ + 16) 4

/-- DSCP and ECN of a header. -/
def ipTos (b : List Byte) (h : IpHdr) : Nat := if h.v6 then be16 b h.at_ / 16 % 256 else u8 b (h.at_ + 1)

/-- Source, destination, identification and protocol of a datagram (R366). -/
def fragKey (b : List Byte) (h : IpHdr) : List Byte :=
  ipSrc b h ++ ipDst b h ++ be 4 ((h.frag.map (·.1)).getD 0) ++ [byte h.proto]

def innerEtype (b : List Byte) (p : Pkt) : Nat :=
  match p.innerL2, p.tun with
  | some l, _ => be16 b l.etAt
  | none, some t => t.etype
  | none, none => 0

/-- The 64-byte key (Table 14.3), but for what names the source: SRC_CLASS, BSS, received TID, STA word. -/
def classKey (src bss : Nat) (tid : Option Nat) (sta : Nat) (b : List Byte) (p : Pkt) : List Byte :=
  let ip := p.innerIp
  let l4 := p.innerL4
  let tag := p.l2.tags[0]?
  let flags := put tag.isSome 0 + put (2 ≤ p.l2.tags.length) 1 + put p.tun.isSome 2 + put (ip.any (!·.v6)) 3 + put (ip.any (·.v6)) 4 +
    put (p.fragHdr.any (!isLater ·)) 5 + put (p.fragHdr.any isLater) 6 + put l4.isSome 7
  let mac (k : Nat) : List Byte := match p.innerL2 with | some l => slice b (l.at_ + k) 6 | none => pad 6 []
  let port (k : Nat) : List Byte := match l4 with | some l => slice b (l.at_ + k) 2 | none => [0, 0]
  [byte src, byte flags, byte bss, byte (tid.getD ((tag.getD 0) / 0x2000))] ++ le 2 sta ++ be 2 (tag.getD 0 % 4096) ++
    be 4 ((p.tun.map (·.id)).getD 0) ++ mac 0 ++ mac 6 ++ be 2 (innerEtype b p) ++ [byte ((ip.map (·.proto)).getD 0)] ++
    [byte ((ip.map (ipTos b)).getD 0)] ++ pad 16 ((ip.map (ipSrc b)).getD []) ++ pad 16 ((ip.map (ipDst b)).getD []) ++ port 0 ++ port 2

/-- The flow key (Table 14.5) of a classification key. -/
def flowKey (k : List Byte) : List Byte :=
  [byte (put (bit (u8 k 1) 4) 0), k.getD 26 0, 0, 0] ++ slice k 8 4 ++ slice k 28 32 ++ slice k 60 4 ++ [0, 0, 0, 0]

/-! Toeplitz hash (R359). -/

/-- The input of a field set (Table 14.9). -/
def hashInput (set : Nat) (k : List Byte) : List Byte :=
  let f := u8 k 1
  let ip := bit f 3 || bit f 4
  let n := if bit f 4 then 16 else 4
  let part (i : Nat) (present : Bool) (l : List Byte) : List Byte := if bit set i && present then l else []
  part 0 ip (slice k 28 n) ++ part 1 ip (slice k 44 n) ++ part 2 (bit f 7) (slice k 60 2) ++ part 3 (bit f 7) (slice k 62 2) ++
    part 4 ip (slice k 26 1) ++ part 5 (bit f 2) (slice k 8 4) ++ part 6 (bit f 0) (slice k 6 2) ++ part 7 true (slice k 18 6) ++
    part 8 true (slice k 12 6) ++ part 9 (u8 k 0 == 0) (slice k 4 2)

/-- The largest input of a field set. -/
def hashMax (set : Nat) : Nat :=
  ((List.range 10).map fun i => if bit set i then [16, 16, 2, 2, 1, 4, 2, 6, 6, 2].getD i 0 else 0).sum

def toeplitz (key input : List Byte) : Nat :=
  let kn := beNat (pad 40 key)
  let n := 8 * input.length
  let v := beNat input
  (List.range n).foldl (fun r i => if bit v (n - 1 - i) then Nat.xor r (bits kn (320 - 32 - i) 32) else r) 0

/-! Edits. -/

/-- Overwrites bytes from offset `o`. -/
def patch (b : List Byte) (o : Nat) (l : List Byte) : List Byte := b.take o ++ l ++ b.drop (o + l.length)

/-- One's complement sum of 16 bits. -/
def add1c (a b : Nat) : Nat := (a + b) % 65536 + (a + b) / 65536

/-- An IPv4 checksum updated for a changed 16-bit word. -/
def csumUpdate (c old new : Nat) : Nat := 0xFFFF - add1c (add1c (0xFFFF - c) (0xFFFF - old)) new

/-- Changes the 16-bit word at `o` of the IPv4 header at `a`, and its checksum with it. -/
def patchV4 (b : List Byte) (a o new : Nat) : List Byte :=
  patch (patch b (a + o) (be 2 new)) (a + 10) (be 2 (csumUpdate (be16 b (a + 10)) (be16 b (a + o)) new))

/-- The IPv4 header checksum holds. -/
def csumOk (b : List Byte) (h : IpHdr) : Bool :=
  ((List.range ((h.next - h.at_) / 2)).foldl (fun c i => add1c c (be16 b (h.at_ + 2 * i))) 0) == 0xFFFF

/-- SET_DSCP on a header. -/
def setDscp (b : List Byte) (h : IpHdr) (d : Nat) : List Byte :=
  if h.v6 then patch b h.at_ (be 2 (be16 b h.at_ / 0x1000 * 0x1000 + d * 64 + be16 b h.at_ % 64))
  else patchV4 b h.at_ 0 (u8 b h.at_ * 256 + d * 4 + u8 b (h.at_ + 1) % 4)

/-- TTL or Hop Limit. -/
def ttlOf (b : List Byte) (h : IpHdr) : Nat := if h.v6 then u8 b (h.at_ + 7) else u8 b (h.at_ + 8)

/-- TTL or Hop Limit one lower. -/
def decTtl (b : List Byte) (h : IpHdr) : List Byte :=
  if h.v6 then patch b (h.at_ + 7) [byte (ttlOf b h - 1)] else patchV4 b h.at_ 8 ((ttlOf b h - 1) * 256 + u8 b (h.at_ + 9))

/-! Ethernet and 802.11 form (Table 14.2, R353). -/

/-- An MSDU body as an Ethernet frame. -/
def llcToEther (da sa body : List Byte) : List Byte :=
  if body.take 6 = [0xAA, 0xAA, 0x03, 0, 0, 0] ∨ body.take 6 = [0xAA, 0xAA, 0x03, 0, 0, 0xF8] then
    if 8 ≤ body.length then pad 6 da ++ pad 6 sa ++ body.drop 6 else pad 6 da ++ pad 6 sa ++ be 2 body.length ++ body
  else pad 6 da ++ pad 6 sa ++ be 2 body.length ++ body

/-- Where the EtherType of a frame stands behind its tags. -/
def untagged (b : List Byte) : Nat :=
  if !isTag (be16 b 12) then 12 else if be16 b 16 = 0x8100 then 20 else 16

/-- An Ethernet frame as an MSDU body, without tags. -/
def etherToLlc (b : List Byte) : List Byte :=
  let o := untagged b
  let et := be16 b o
  if et < 0x600 then (b.drop (o + 2)).take et else [0xAA, 0xAA, 0x03, 0, 0, 0] ++ b.drop o

/-- The outer tag replaced by one of a VLAN, none for 0. -/
def retag (vlan : Nat) (b : List Byte) : List Byte :=
  let old := if isTag (be16 b 12) then slice b 12 4 else []
  let rest := if isTag (be16 b 12) then b.drop 16 else b.drop 12
  if vlan = 0 then b.take 12 ++ rest
  else b.take 12 ++ be 2 (Config.tagTpid old) ++ be 2 (Config.tagPri old % 16 * 4096 + vlan % 4096) ++ rest

end Sys2Proof.Machine
end

