-- ==== Sys2Proof/Machine/Router.lean ====
section
/-!
DEFINITION. The packet router (spec/14_packet_router.md): classification (R340 to R360), exceptions (R361 to R364), fragments (R365,
R366), ageing (R349, R352) and check failures (R368, R441 to R443).
-/
namespace Sys2Proof.Machine
open Sys2Proof

/-! Errors of the tables (R368, Table 19.2). -/

/-- A lookup that counts TABLE_ERR. -/
def tableErr (s : State) : State := relCount 4 1 s

/-- What the environment finds on this frame: lookups that fail their check, with the word; ternary rows that fail parity. -/
structure Checks where
  bad : List (RtTab × Nat)
  rows : List (Fin 1024)
  deriving DecidableEq, Repr

/-- The failed read of a table, if any. -/
def Checks.find (c : Checks) (t : RtTab) : Option Nat := (c.bad.find? fun p => p.1 == t).map (·.2)

/-- A lookup of the arrays of code 0x0A: a read that fails is a miss, counts TABLE_ERR, is reported, and the entry goes. -/
def checked {α : Type} (c : Checks) (t : RtTab) (found : Option α) (kill : α → State → State) (s : State) : Option α × State :=
  match c.find t with
  | none => (found, s)
  | some w =>
    let u := tableErr (arrayUncorr 0x0A w s)
    (none, match found with | some a => kill a u | none => u)

/-! Exceptions (R361, R362, R364). -/

/-- Parts of one token. -/
def tokenParts : Nat := 500000000

/-- A bucket refilled to now. -/
def refill (now : Nat) (b : Bucket) : Bucket :=
  { b with parts := min (b.burst * tokenParts) (b.parts + (now - b.at_) * b.rate), at_ := now }

/-- It holds a token; a RATE of 0 drops everything. -/
def hasToken (b : Bucket) : Bool := b.rate != 0 && tokenParts ≤ b.parts

/-- A drop told, at most once per second per INSTANCE. -/
def tellDrop (inst : Nat) (b : Bucket) (s : State) : Bucket × State :=
  let c := { b with since := b.since + 1 }
  if (match c.told with | some t => decide (s.now < t + tokenParts) | none => false) then (c, s)
  else ({ c with since := 0, told := some s.now }, raise .excLimited inst (le 8 c.since) s)

/-- A frame meets the buckets of its reason; `ok` takes it where it passes, `no` where it is dropped. -/
def excEnqueue (reason : Nat) (ok no : State → State) (s : State) : State :=
  let r := refill s.now (vget s.router.reason (reason - 1))
  let t := refill s.now s.router.total
  let setR (b : Bucket) (s : State) : State := withRouter (fun x => { x with reason := vset x.reason (reason - 1) b }) s
  let setT (b : Bucket) (s : State) : State := withRouter (fun x => { x with total := b }) s
  if hasToken r && hasToken t then
    ok (setR { r with parts := r.parts - tokenParts, passed := r.passed + 1 } (setT { t with parts := t.parts - tokenParts } s))
  else
    let r1 := { r with dropped := r.dropped + 1 }
    if hasToken r then
      let p := tellDrop 0 t (setR r1 s)
      no (setT p.1 p.2)
    else
      let p := tellDrop reason r1 (setT t s)
      no (setR p.1 p.2)

/-- The frame as Ethernet bytes: a wireless MSDU is converted (Table 14.2). -/
def etherBytes (f : Frame) : List Byte := if f.src = 0 && !f.raw then llcToEther f.da f.sa f.bytes else f.bytes

/-- SRC_CLASS (Table 14.3). -/
def srcClass (f : Frame) : Nat := match f.src with | 0 => 0 | 1 => 1 + f.port | 2 => 4 | _ => 3

/-- A frame becomes an exception with a reason: FRAGMENT for the slow path, another for delivery. -/
def toException (reason : Nat) (f : Frame) (s : State) : State :=
  excEnqueue reason
    (fun s => if reason = 3 then withRouter (fun x => { x with fragIn := x.fragIn ++ [f] }) s
      else withRouter (fun x => { x with excq := x.excq ++ [{ reason := reason, srcClass := srcClass f, source := sourceWord f, frame := f }] }) s)
    (frameDone f .aborted []) s

/-- A frame dropped by the router, with its counter. -/
def routerDrop (ctr : Nat) (f : Frame) (s : State) : State := frameDone f .aborted [] (rtCount ctr 1 s)

/-! The frame under classification. -/

/-- A frame, its Ethernet bytes, its headers, its key and its ingress domain. -/
structure Ctx where
  f : Frame
  b : List Byte
  p : Pkt
  key : List Byte
  dom : Option Nat
  deriving DecidableEq, Repr

/-- The domain of a frame's ingress (R351). -/
def ingressDomain (f : Frame) (p : Pkt) (s : State) : Option Nat :=
  (List.range 64).find? fun d =>
    let x := vget s.router.domain d
    x.en && match f.src with
      | 0 => bit x.bss f.bss
      | 1 => vget x.vlan f.port == some (p.l2.tags.getD 0 0 % 4096)
      | 3 => bit x.htx f.port
      | _ => false

/-- The key of a frame. -/
def keyOf (f : Frame) (b : List Byte) (p : Pkt) : List Byte :=
  let un := f.src ≠ 0 || f.unassoc
  classKey (srcClass f) (if f.src = 0 then f.bss else 0xFF) (if f.src = 0 then some f.tid else none)
    (if un then 0x83FF else f.sta % 1024) b p

def mkCtx (f : Frame) (p : Pkt) (s : State) : Ctx :=
  let b := etherBytes f
  { f := f, b := b, p := p, key := keyOf f b p, dom := ingressDomain f p s }

def Ctx.isIp (c : Ctx) : Bool := bit (u8 c.key 1) 3 || bit (u8 c.key 1) 4
def Ctx.fromSta (c : Ctx) : Bool := c.f.src == 0

/-! Learning (R352). -/

def fdbGet (d : Nat) (mac : List Byte) (s : State) : Option Fdb := s.router.fdb.find? fun e => e.domain == d && e.mac == mac
def fdbDel (d : Nat) (mac : List Byte) (s : State) : State :=
  withRouter (fun x => { x with fdb := x.fdb.filter fun e => !(e.domain == d && e.mac == mac) }) s
def fdbPut (e : Fdb) (s : State) : State := withRouter (fun x => { x with fdb := x.fdb ++ [e] }) (fdbDel e.domain e.mac s)

/-- An Ethernet frame's source address is learned, refreshed or moved; a static entry stays. -/
def learn (c : Ctx) (s : State) : State :=
  match c.dom with
  | some d =>
    let sa := slice c.b 6 6
    let e : Fdb := { domain := d, mac := sa, kind := 2, target := c.f.port, seen := s.now }
    if c.f.src ≠ 1 || groupAddr sa then s
    else match fdbGet d sa s with
      | some x => if x.kind ≠ 2 then s else if x.target = c.f.port then fdbPut e s else rtCount 10 1 (fdbPut e s)
      | none => if s.router.fdb.length < 8192 then rtCount 10 1 (fdbPut e s) else rtCount 11 1 s
  | none => s

/-! Targets. -/

/-- The port of a pair (R358): where the Seeder placed the entry, else the primary while up, else the other member. -/
def pairTarget (k : Option Nat) (n : Nat) (s : State) : Egress :=
  let q := vget s.router.pair n
  let placed := k.bind fun k => (placeOf 2 k s).map (·.value)
  match (match placed with | some p => if vget q.member p && portUp p s then some p else pairPort q s | none => pairPort q s) with
  | some p => .port p (vget q.vlan p)
  | none => .drop 17

/-- The ring of a group (R358): where the Seeder placed the entry, else its home ring. -/
def groupTarget (k n hash : Nat) (s : State) : Egress :=
  let placed := (placeOf 4 k s).map (·.value)
  if (groupRings n s).isEmpty then .drop 18
  else match placed, homeRing k n s with
    | some r, _ => .ring r hash
    | none, some r => .ring r hash
    | none, none => .drop 18

/-- The TID of a frame (R350). -/
def deriveTid (c : Ctx) (res : List Byte) : Nat :=
  if u8 res 4 ≠ 0xFF then u8 res 4 % 8
  else if c.f.src = 0 then c.f.tid % 8
  else if c.isIp then (if bit (u8 res 1) 1 then u8 res 5 / 8 % 8 else u8 c.key 27 / 32)
  else c.p.l2.tags.getD 0 0 / 0x2000 % 8

/-- A result that names nothing: what a frame that no table placed is forwarded by. -/
def noResult : List Byte := [0, 0, 0, 0, 0xFF]

/-- The edits of a result. -/
def editsOf (c : Ctx) (res : List Byte) : FragDec :=
  { mirror := bit (u8 res 1) 2, decap := bit (u8 res 1) 0 && c.p.tun.isSome
    dscp := if bit (u8 res 1) 1 then some (u8 res 5 % 64) else none }

/-! Bridging (R353). -/

/-- The targets an FDB entry names. -/
def fdbTarget (d tid : Nat) (e : Fdb) (s : State) : Egress :=
  match e.target with
  | 0 | 1 => .port e.target (((vget (vget s.router.domain d).vlan e.target)).getD 0)
  | 2 => .station e.index tid
  | 3 => .ring e.index 0
  | _ => .exc 10

/-- Members a flood reaches: every one but the ingress port and VLAN; a wireless frame's own BSS too. ISOLATE keeps group queues out
(`iso`). -/
def floodTargets (c : Ctx) (d tid : Nat) (iso : Bool) (s : State) : List Egress :=
  let x := vget s.router.domain d
  let ports := (List.range 2).filterMap fun p => match vget x.vlan p with
    | some v => if c.f.src = 1 && c.f.port = p && c.dom = some d then none else some (Egress.port p v)
    | none => none
  let bss := if iso then [] else (List.range 48).filterMap fun b => if bit x.bss b then some (Egress.group (4 * b + acOfTid tid) tid) else none
  let ring := match x.floodRing with | some n => [Egress.ring n 0] | none => []
  ports ++ bss ++ ring

/-- Bridged in domain `d` by destination `mac`; a routed frame is not isolated. -/
def bridgeTo (k : Checks) (c : Ctx) (d tid : Nat) (mac : List Byte) (routed : Bool) (s : State) : List Egress × State :=
  let x := vget s.router.domain d
  let iso := x.isolate && c.fromSta && !routed
  if !x.en then ([.drop 14], s)
  else
    let l := if groupAddr mac then ((none : Option Fdb), s)
      else checked k .fdb (fdbGet d mac s) (fun e s => fdbDel e.domain e.mac s) s
    match l with
    | (some e, t) =>
      if (e.target ≤ 1 && c.f.src == 1 && c.f.port == e.target) || (e.target == 2 && iso) then ([.drop 15], t)
      else ([fdbTarget d tid e t], rtCount 7 1 t)
    | (none, t) =>
      let out := floodTargets c d tid iso t
      if out.isEmpty then (out, t) else (out, rtCount 9 out.length (rtCount 7 1 t))

/-! Routing (R354, R356, R357). -/

/-- The route of the longest prefix. -/
def routeLookup (table : Nat) (v6 : Bool) (dst : List Byte) (s : State) : Option Route :=
  let w := if v6 then 128 else 32
  let l := s.router.routes.filter fun r => r.table == table && r.v6 == v6 && bits (beNat dst) (w - r.len) r.len == bits (beNat r.prefix_) (w - r.len) r.len
  l.find? fun a => l.all fun b => b.len ≤ a.len

/-- The neighbour a route gives. -/
def neighOf (r : Route) (v6 : Bool) (dst : List Byte) (s : State) : Option (Nat × Neigh) :=
  if r.kind = 2 then ((kget s.router.neigh r.arg).filter (·.valid)).map fun n => (r.arg, n)
  else s.router.neigh.find? fun p => p.2.valid && p.2.domain == r.arg && p.2.v6 == v6 && p.2.addr == dst

/-- The IP header the frame leaves with: the inner one of a decapsulated frame, else the outer one. -/
def leavingIp (c : Ctx) (decap : Bool) : Option IpHdr := if decap then c.p.ipi else c.p.ip

/-- The first failed check of R357: an exception or the counter of a drop; none where all pass. -/
def routeCheck (c : Ctx) (h : IpHdr) (mtu : Nat) : Option Egress :=
  if h.opts then some (.exc 8)
  else if !h.v6 && !csumOk c.b h then some (.drop 19)
  else if ttlOf c.b h ≤ 1 then some (.exc 7)
  else if mtu < h.len then some (.exc 9)
  else none

/-- Routed in a table: the decision, and the new addresses. -/
def routeTo (k : Checks) (c : Ctx) (table tid : Nat) (e : FragDec) (s : State) : FragDec × State :=
  match c.p.innerIp, leavingIp c e.decap with
  | some ih, some h =>
    let dst := ipDst c.b ih
    match checked k .route (routeLookup table ih.v6 dst s) (fun r s => withRouter (fun x => { x with routes := x.routes.erase r }) s) s with
    | (none, t) => ({ e with out := [.exc 5] }, t)
    | (some r, t) =>
      if r.kind = 0 then ({ e with out := [.drop 16] }, t)
      else if r.kind = 3 then ({ e with out := [.exc 10] }, t)
      else match checked k .neigh (neighOf r ih.v6 dst t) (fun n s => withRouter (fun x => { x with neigh := kmod x.neigh n.1 fun y => { y with valid := false } }) s) t with
        | (none, u) => ({ e with out := [.exc 6] }, u)
        | (some n, u) =>
          let d := vget u.router.domain n.2.domain
          if !d.en then ({ e with out := [.drop 14] }, u)
          else match routeCheck c h d.mtu with
            | some o => ({ e with out := [o] }, u)
            | none =>
              let b := bridgeTo k c n.2.domain tid n.2.mac true (rtCount 8 1 u)
              ({ e with out := b.1, macs := some (n.2.mac, d.mac) }, b.2)
  | _, _ => ({ e with out := [.exc 5] }, s)

/-- The destination address the frame leaves with. -/
def leavingMac (c : Ctx) (decap : Bool) : List Byte :=
  if decap then (match c.p.l2i with | some l => slice c.b l.at_ 6 | none => pad 6 []) else slice c.b 0 6

/-- Stage 7 without an action: routed where the frame is for the domain's router, else bridged. -/
def domainForward (k : Checks) (c : Ctx) (s : State) : FragDec × State :=
  let tid := deriveTid c noResult
  match c.dom with
  | none => ({ out := [.drop 14] }, s)
  | some d =>
    let x := vget s.router.domain d
    if x.routing && slice c.b 0 6 == x.mac && c.isIp then routeTo k c x.table tid {} s
    else
      let b := bridgeTo k c d tid (slice c.b 0 6) false s
      ({ out := b.1 }, b.2)

/-! Actions (Table 14.7). -/

/-- HASH (R359, R360): the hash, and the indirection entry of its low bits. -/
def hashTarget (k : Checks) (c : Ctx) (set : Nat) (s : State) : Egress × State :=
  let h := toeplitz s.router.hashKey (hashInput (vget s.router.hashSet set) c.key)
  let i := h % 512
  match checked k .indir (some (vget s.router.indir i)) (fun _ s => withRouter (fun x => { x with indir := vset x.indir i 0xC000 }) s) s with
  | (none, t) => (.drop 16, t)
  | (some v, t) =>
    match v / 2 ^ 14 with
    | 0 => (groupTarget (2 ^ 31 + i) (v % 16) h t, t)
    | 1 => (pairTarget (some (2 ^ 31 + i)) (v % 8) t, t)
    | 2 => (.exc 10, t)
    | _ => (.drop 16, t)

/-- The decision of a result; `k` is the flow-table index it stands in, if any. -/
def applyResult (ck : Checks) (k : Option Nat) (c : Ctx) (res : List Byte) (s : State) : FragDec × State :=
  let e := editsOf c res
  let tid := deriveTid c res
  let tgt := u16 res 2
  let noEth := e.decap && (match c.p.tun with | some t => !t.eth | none => false)
  if noEth && u8 res 0 ≠ 8 then ({ e with out := [.drop 16] }, s)
  else match u8 res 0 with
    | 0 => ({ e with out := [.drop 16] }, s)
    | 1 => ({ e with out := [pairTarget k (tgt % 8) s] }, s)
    | 2 => ({ e with out := [.station (tgt % 1024) tid] }, s)
    | 3 => ({ e with out := [.group (tgt % 256) tid] }, s)
    | 4 => ({ e with out := [.ring (tgt % 64) 0] }, s)
    | 5 => ({ e with out := [match k with | some i => groupTarget i (tgt % 16) 0 s | none => .drop 18] }, s)
    | 6 => let h := hashTarget ck c (u8 res 6 % 8) s; ({ e with out := [h.1] }, h.2)
    | 7 => ({ e with out := [.exc 10] }, s)
    | 8 => routeTo ck c (tgt % 16) tid e s
    | _ => let b := bridgeTo ck c (tgt % 64) tid (leavingMac c e.decap) false s; ({ e with out := b.1 }, b.2)

/-! Stages 4 to 7. -/

/-- Rows that fail parity on this lookup (R443): they are excluded, and wait for the rewrite from their shadow. -/
def badRowsOf (k : Checks) (s : State) : List Nat := s.rel.badRows ++ k.rows.map (·.val)

/-- The rule that decides a stage. -/
def ruleHit (stage : Bool) (bad : List Nat) (key : List Byte) (s : State) : Option (Nat × Rule) :=
  s.router.rules.find? fun p => p.2.valid && p.2.stage == stage && !bad.contains p.1 &&
    (List.range 64).all fun i => ((key.getD i 0) ^^^ (p.2.value.getD i 0)) &&& (p.2.mask.getD i 0) == 0

/-- A lookup of one stage, with what its failed rows do. -/
def ternary (stage : Bool) (k : Checks) (key : List Byte) (s : State) : Option (Nat × Rule) × State :=
  let bad := (badRowsOf k s).filter fun i => ((kget s.router.rules i).map fun r => r.valid && r.stage == stage).getD false
  let t := if bad.isEmpty then s else tableErr (withRel (fun x => { x with badRows := (x.badRows ++ bad).eraseDups }) s)
  match ruleHit stage bad key s with
  | some p => (some p, withRouter (fun x => { x with rules := kmod x.rules p.1 fun r => { r with hits := r.hits + 1 } }) t)
  | none => (none, t)

/-- The flow entry of a key. -/
def flowFind (key : List Byte) (s : State) : Option (Nat × Flow) := s.router.flows.find? fun p => p.2.key == key

/-- A flow entry goes, and its placement with it (R349). -/
def flowRemove (i : Nat) (s : State) : State := withRouter (fun x => { x with flows := kdel x.flows i }) (entryGone i s)

/-- Stages 4 to 7: the decision. -/
def classify (k : Checks) (c : Ctx) (s : State) : FragDec × State :=
  match ternary false k c.key s with
  | (some p, t) => applyResult k none c p.2.result (rtCount 3 1 t)
  | (none, t) =>
    let l := if c.isIp then checked k .flow (flowFind (flowKey c.key) t) (fun p s => flowRemove p.1 s) t else (none, t)
    match l with
    | (some p, u) =>
      applyResult k (some p.1) c p.2.result (rtCount 4 1 (withRouter (fun x => { x with flows := kmod x.flows p.1 fun y =>
        { y with packets := y.packets + 1, bytes := y.bytes + c.b.length, hitAt := s.now } }) u))
    | (none, u) =>
      match ternary true k c.key (if c.isIp then rtCount 5 1 u else u) with
      | (some p, v) => applyResult k none c p.2.result (rtCount 6 1 v)
      | (none, v) =>
        if c.isIp && (match c.dom with | some d => (vget v.router.domain d).missMp | none => false) then ({ out := [.exc 4] }, v)
        else domainForward k c v

/-! Sending by a decision. -/

/-- The bytes the frame leaves with: SET_DSCP, DECAP, and a routed frame's new header and TTL. -/
def editBytes (d : FragDec) (b : List Byte) (p : Pkt) : List Byte :=
  let b1 := match d.dscp, p.innerIp with | some v, some h => setDscp b h v | _, _ => b
  let dc := d.decap && p.tun.isSome
  match d.macs, (if dc then p.ipi else p.ip) with
  | some m, some h => pad 6 m.1 ++ pad 6 m.2 ++ be 2 (if h.v6 then 0x86DD else 0x0800) ++ (decTtl b1 h).drop h.at_
  | _, _ => match dc, p.tun with
    | true, some t => b1.drop t.inner
    | _, _ => b1

/-- A new frame of the same origin: nothing of its reception but its source and stamps goes on. -/
def reFrame (f : Frame) (bytes : List Byte) : Frame :=
  { id := f.id, bytes := bytes, src := f.src, port := f.port, bss := f.bss, sta := f.sta, tid := f.tid, unassoc := f.unassoc
    stamps := f.stamps, ring := f.ring, tsReq := f.tsReq, launch := f.launch, lateSend := f.lateSend, arrived := f.arrived, poison := f.poison }

/-- One copy goes to its target. -/
def sendTo (f : Frame) (b : List Byte) (e : Egress) (s : State) : State :=
  let air : Frame := { reFrame f (etherToLlc b) with da := slice b 0 6, sa := slice b 6 6 }
  match e with
  | .drop i => routerDrop i f s
  | .port p v => portEnqueue p (reFrame f (retag v b)) s
  | .station n t => stationEnqueue n t air s
  | .group q t => groupEnqueue q { air with tid := t } s
  | .ring n h => frameArrived f (toRing n { reFrame f b with hash := h, ring := none } s)
  | .exc r => toException r f s

/-- The frame leaves by a decision: the mirrored copy, and each target; only the first copy answers to its ring. -/
def execute (d : FragDec) (f : Frame) (p : Pkt) (s : State) : State :=
  let b := editBytes d (etherBytes f) p
  let t := if d.mirror then toException 10 { f with ring := none } s else s
  match d.out with
  | [] => frameDone f .aborted [] t
  | e :: r => r.foldl (fun u x => sendTo { f with ring := none } b x u) (sendTo f b e t)

/-! Fragments (R365, R366). -/

/-- TB2 time of a frame's ingress; a host or MP frame has no stamp and takes the present time. -/
def ingressNs (f : Frame) (s : State) : Nat := f.stamps.getD 2 (tbTotal 2 s)

/-- The headers of a frame that has already passed the parser. -/
def reparse (f : Frame) (s : State) : Pkt :=
  match parsePkt s.router.vxlan s.router.gre (f.src != 0) (etherBytes f) with | .ok p => p | .error _ => {}

def slowGet (key : List Byte) (s : State) : Option SlowDg := s.router.slow.find? (·.key == key)

/-- Room for one more datagram: the oldest decided one with nothing held makes way where 1,024 are tracked. -/
def slowRoom (l : List SlowDg) : Option (List SlowDg) :=
  if l.length < 1024 then some l else (l.find? fun d => d.dec.isSome && d.held.isEmpty).map l.erase

/-- The slow path learns a decision, and forwards by it what it holds. -/
def slowDecide (key : List Byte) (d : FragDec) (s : State) : State :=
  match slowGet key s with
  | some g =>
    g.held.foldl (fun t f => execute d f (reparse f t) t)
      (withRouter (fun x => { x with slow := x.slow.map fun y => if y.key = key then { y with dec := some d, held := [] } else y }) s)
  | none =>
    match slowRoom s.router.slow with
    | some l => withRouter (fun x => { x with slow := l ++ [{ key := key, at_ := s.now, dec := some d }] }) s
    | none => s

/-- A later fragment waits for its first; the 65th of a datagram, and one of a 1,025th datagram, is dropped. -/
def slowHold (key : List Byte) (f : Frame) (s : State) : State :=
  match slowGet key s with
  | some g =>
    if g.held.length ≥ 64 then routerDrop 23 f s
    else withRouter (fun x => { x with slow := x.slow.map fun y => if y.key = key then { y with held := y.held ++ [f] } else y }) s
  | none =>
    match slowRoom s.router.slow with
    | some l => withRouter (fun x => { x with slow := l ++ [{ key := key, at_ := s.now, held := [f] }] }) s
    | none => routerDrop 23 f s

/-- Stores a first fragment's decision; the oldest of 256 makes way (R366). -/
def fragStore (key : List Byte) (stamp : Nat) (d : FragDec) (s : State) : State :=
  let l := s.router.frags.filter (·.key != key)
  let e : FragEntry := { key := key, stamp := stamp, dec := d }
  if l.length < 256 then withRouter (fun x => { x with frags := l ++ [e] }) s
  else rtCount 22 1 (withRouter (fun x => { x with frags := l.drop 1 ++ [e] }) s)

/-- A live first-fragment entry. -/
def fragLive (key : List Byte) (stamp : Nat) (s : State) : Option FragDec :=
  (s.router.frags.find? fun e => e.key == key && e.stamp ≤ stamp && stamp < e.stamp + 2000000000).map (·.dec)

/-- Stages 3 to 7 of a parsed frame. -/
def stages3 (k : Checks) (c : Ctx) (s : State) : State :=
  match c.p.fragHdr with
  | none => let d := classify k c s; execute d.1 c.f c.p d.2
  | some h =>
    let key := fragKey c.b h
    let st := ingressNs c.f s
    if s.life.mode == .service then toException 3 c.f s
    else if isLater h then
      match fragLive key st s with
      | some d => execute d c.f c.p (rtCount 20 1 s)
      | none => toException 3 c.f (rtCount 21 1 s)
    else
      let d := classify k c s
      slowDecide key d.1 (execute d.1 c.f c.p (fragStore key st d.1 d.2))

/-! Fixed steering (R346). -/

inductive Steer where
  | control | mp
  deriving DecidableEq, Repr

/-- The PTP time base is Builmin's (R327). -/
def ptpMine (s : State) : Bool := match tbOfRole .ptp s with | some n => (vget s.time.tb n).servo | none => false

/-- Table 14.4. -/
def steerOf (c : Ctx) (s : State) : Option Steer :=
  let et := be16 c.key 24
  let dp := be16 c.key 62
  let udp := match c.p.innerL4 with | some l => l.udp | none => false
  if c.f.src = 1 && be16 c.b c.p.l2.etAt == s.rope.etype && s.rope.role != .none then some .mp
  else if et = 0x88F7 || (udp && (dp == 319 || dp == 320)) then some (if ptpMine s then .mp else .control)
  else if et = 0x88CC || et = 0x8809 then some .control
  else none

/-- A frame goes to CONTROL_RING. -/
def toControl (f : Frame) (s : State) : State :=
  match s.router.controlRing with
  | some n => frameArrived f (toRing n { f with ring := none, bytes := etherBytes f } s)
  | none => routerDrop 18 f s

/-- Builmin's servo acts on what it has heard: no correction, a new INC within the bounds of R324, or a step; which of them, and by how
much, is the servo's own law (log 93). -/
def ptpServo (n : Nat) (s : State) : State :=
  let d := draw 16 s
  let v := draw 96 d.2
  match d.1.toNat % 3 with
  | 0 => d.2
  | 1 => withTb n (fun t => committed s.now { t with inc := 0x1FF00 + d.1.toNat / 3 % 0x201 }) d.2
  | _ => rejudge n (withTb n (fun t => committed s.now (tbAt (v.1.toNat % ((maxSec + 1) * 10 ^ 9 * 65536)) t)) v.2)

/-- A PTP frame for Builmin, on a port that TIME_SET_ROLE names: it answers peer-delay requests in two steps, and follows the
master of its domain (R327, Table 13.4). -/
def ptpTake (c : Ctx) (s : State) : State :=
  match tbOfRole .ptp s with
  | none => s
  | some n =>
    let t := vget s.time.tb n
    let o := c.p.l2.etAt + 2
    if c.f.src ≠ 1 || !bit t.ports c.f.port || be16 c.b c.p.l2.etAt ≠ 0x88F7 then s
    else
      let reply (b : List Byte) (s : State) : State := portEnqueue c.f.port { bytes := b, src := 2, express := true, arrived := s.now } s
      match u8 c.b o % 16 with
      | 2 => reply (Config.pdelayFollowUp c.b (tbTotal n s)) (reply (Config.pdelayResp c.b (c.f.stamps.getD n 0)) s)
      | 8 => if u8 c.b (o + 4) = t.domain then ptpServo n s else s
      | _ => s

/-- Stages 1 to 7 of one frame. -/
def routeFrame (k : Checks) (f : Frame) (s : State) : State :=
  let b := etherBytes f
  let t := rtCount 1 b.length (rtCount 0 1 s)
  if f.raw then toControl f (rtCount 2 1 t)
  else match parsePkt s.router.vxlan s.router.gre (f.src != 0) b with
    | .error .fail => toException 1 f t
    | .error .depth => toException 2 f t
    | .ok p =>
      let c := mkCtx f p t
      let u := learn c t
      match steerOf c u with
      | some .control => toControl f (rtCount 2 1 u)
      | some .mp => frameArrived f (ptpTake c (rtCount 2 1 u))
      | none => stages3 k c u

/-- All eight pipelines are fenced (Table 19.1). -/
def pipesOut (s : State) : Bool := (List.range 8).all fun i => partFenced (0x10 + i) s

/-- ROUTER_CLASSIFY: the frame at the head of the router's input, on a pipeline that works. `mism` is 1 where the pipeline's residues
mismatch once, 2 where they mismatch on the retry too (R441). -/
def routerClassify (pipe mism : Nat) (k : Checks) (s : State) : State :=
  match s.router.inq with
  | [] => s
  | f :: r =>
    let t := withRouter (fun x => { x with inq := r }) s
    if pipesOut s then routerDrop 16 f t
    else if partFenced (0x10 + pipe) s then s
    else if mism = 2 then routerDrop 16 f (fencePart (0x10 + pipe) (relCount 0 1 t))
    else routeFrame k f (if mism = 1 then relCount 0 1 t else t)

def execRouterClassify (pipe : Fin 8) (mism : Fin 3) (bad : List (RtTab × Nat)) (rows : List (Fin 1024)) (s : State) :
    Host.Outcome State Fault Refusal := whenLive s (routerClassify pipe mism { bad := bad, rows := rows })

/-! The MP's part. -/

/-- EXCEPTION_DELIVER (R363): the header of Table 14.12 and the frame, from the MP, to EXC_RING. -/
def exceptionDeliver (s : State) : State :=
  match s.router.excq with
  | [] => s
  | e :: r =>
    let t := withRouter (fun x => { x with excq := r }) s
    match t.router.excRing with
    | none => routerDrop 18 e.frame t
    | some n => frameArrived e.frame (toRing n { e.frame with
        src := 2, raw := false, ring := none
        bytes := [byte e.reason, byte e.srcClass, 0, 0] ++ le 4 e.source ++ etherBytes e.frame } t)

def execExceptionDeliver (s : State) : Host.Outcome State Fault Refusal := whenRunning s exceptionDeliver

/-- FRAGMENT_SLOW_PATH (R365): the next fragment the slow path takes. -/
def fragmentSlowPath (k : Checks) (s : State) : State :=
  match s.router.fragIn with
  | [] => s
  | f :: r =>
    let t := withRouter (fun x => { x with fragIn := r }) s
    let p := reparse f t
    match p.fragHdr with
    | none => frameDone f .aborted [] t
    | some h =>
      let key := fragKey (etherBytes f) h
      if isLater h then
        match (slowGet key t).bind (·.dec) with
        | some d => execute d f p t
        | none => slowHold key f t
      else
        let c := mkCtx f p t
        let d := classify k c t
        slowDecide key d.1 (execute d.1 f p d.2)

def execFragmentSlowPath (bad : List (RtTab × Nat)) (rows : List (Fin 1024)) (s : State) : Host.Outcome State Fault Refusal :=
  whenRunning s (fragmentSlowPath { bad := bad, rows := rows })

/-- 2 s have passed since the earliest fragment of a datagram whose first fragment has not arrived. -/
def slowDue (now : Nat) (g : SlowDg) : Bool := g.dec.isNone && g.at_ + 1000000000 ≤ now

/-- SLOW_FRAG_TIMEOUT (R365): the oldest datagram still without its first fragment is dropped, 2 s after its earliest fragment. -/
def slowFragTimeout (s : State) : State :=
  match s.router.slow.find? (slowDue s.now) with
  | none => s
  | some g => g.held.foldl (fun t f => routerDrop 23 f t) (withRouter (fun x => { x with slow := x.slow.erase g }) s)

def execSlowFragTimeout (s : State) : Host.Outcome State Fault Refusal := whenRunning s slowFragTimeout

/-! Ageing. -/

/-- The next check of idleness is due: one a second. -/
def ageDue (s : State) : Bool := match s.router.agedAt with | some t => t + 500000000 ≤ s.now | none => true

/-- FLOW_AGE_CHECK (R349): entries with no hit for their IDLE_TIMEOUT go. -/
def flowAgeCheck (s : State) : State :=
  if !ageDue s then s
  else (s.router.flows.filter fun p => p.2.idle != 0 && p.2.hitAt + p.2.idle * 500000000 ≤ s.now).foldl
    (fun t p => rtCount 13 1 (flowRemove p.1 t)) (withRouter (fun x => { x with agedAt := some s.now }) s)

def execFlowAgeCheck (s : State) : Host.Outcome State Fault Refusal := whenLive s flowAgeCheck

/-- FDB_AGE (R352): a learned entry idle for FDB_AGE goes. -/
def fdbAge (d : Nat) (mac : List Byte) (s : State) : State :=
  match fdbGet d mac s with
  | some e => if e.kind = 2 ∧ e.seen + s.router.fdbAge * 500000000 ≤ s.now then rtCount 12 1 (fdbDel d mac s) else s
  | none => s

def execFdbAge (d : Fin 64) (mac : List Byte) (s : State) : Host.Outcome State Fault Refusal := whenLive s (fdbAge d mac)

end Sys2Proof.Machine
end

