-- ==== Sys2Proof/Machine/Sec.lean ====
section
/-!
DEFINITION. Cipher engine and key store (spec/16_cipher_keys.md): frames on the cores (R389, R402 to R408, R167), MACsec (R404, R405),
key holds (R403), the derivation unit (R398 to R400) and the commands of Table 16.7. The primitives are opaque constants of Config.
-/
namespace Sys2Proof.Machine
open Sys2Proof

def keySlot (k : Nat) (s : State) : Option KeySlot := kget s.sec.slots k
def kindOf (k : Nat) (s : State) : Nat := match keySlot k s with | some x => x.kind | none => 0
def suiteOf (k : Nat) (s : State) : Nat := match keySlot k s with | some x => x.suite | none => 0

/-! Frames on the cores. -/

/-- A core may run a slot's frames: it works, and belongs to the slot's group where the Seeder has placed it. -/
def coreServes (core : Nat) (slot : Option Nat) (s : State) : Bool :=
  !partFenced (0x20 + core) s && match slot.bind fun k => placeOf 3 k s with | some p => p.value == core / 8 | none => true

/-- The receive counter of a frame's key (R167): its TID's, or the ninth for management frames. -/
def pnCounter (f : Frame) : Nat := if f.mgmt then 8 else f.tid % 8

/-- The last PN accepted. -/
def lastPn (k : Nat) (f : Frame) (s : State) : Nat := (((keySlot k s).map (·.rxPn)).bind fun m => kget m (pnCounter f)).getD 0

/-- BIP suites. -/
def isBip (suite : Nat) : Bool := 5 ≤ suite && suite ≤ 8

/-- A received MPDU whose tag has been checked (R167, R406 to R408). A streamed one has met the PN check first. -/
def cipherRx (r : Nat) (f : Frame) (ok : Bool) (s : State) : State :=
  match f.slot with
  | none => secCount 2 1 s
  | some k =>
    if (keySlot k s).isNone then secCount 2 1 s
    else
      -- Every MPDU of an MSDU received in fragments has a PN of its own.
      let pns := (f.pns ++ [f.pn]).foldl (fun (a : Nat × Nat) p => if p ≤ a.1 then (a.1, a.2 + 1) else (p, a.2)) (lastPn k f s, 0)
      let replay := pns.2 > 0
      let good (s : State) : State :=
        deliverClear f (withSlot k (fun x => { x with rxPn := kset x.rxPn (pnCounter f) f.pn }) (secCount 1 1 s))
      match (if f.raw then none else streamOf f s) with
      | some (n, min_) =>
        if replay then macCount r 11 pns.2 s
        else if ok then good s
        else if min_ ≤ f.bytes.length then toRing n { f with authFail := true } (secCount 4 1 s)
        else secCount 2 1 s
      | none =>
        if !ok then secCount (if isBip (suiteOf k s) then 5 else 2) 1 s
        else if replay then macCount r 11 pns.2 (secCount 1 1 s)
        else good s

/-! MACsec (R404, R405). -/

/-- SecTAG and secured data of a frame (IEEE 802.1AE, with the SCI). -/
def macsecBytes (p an pn : Nat) (sa : MacsecSa) (key b : List Byte) (s : State) : List Byte :=
  let d := b.drop 12
  b.take 12 ++ [0x88, 0xE5, byte (0x2C + an), byte (if d.length < 48 then d.length else 0)] ++ be 4 (pn % 2 ^ 32) ++ pad 8 (vget s.sec.port p).sci ++
    pad (d.length + 16) (Config.macsecSeal (key ++ le 4 sa.ssci ++ sa.salt) pn b)

/-- A frame for the wire takes the next PN of its port's active association, or waits (R403). -/
def cipherTxWire (p : Nat) (f : Frame) (s : State) : Option State :=
  if !(vget s.sec.port p).en then some (portEnqueueClear p f s)
  else match activeSa p s with
    | none => none
    | some (an, sa) =>
      match keySlot sa.slot s, takePn sa.slot s with
      | some x, (some pn, t) =>
        some (portEnqueueClear p { f with bytes := macsecBytes p an pn sa x.key f.bytes s, keyId := some an, pn := pn } (secCount 0 1 t))
      | _, _ => none
where
  /-- Past the cipher engine, a port whose link has gone drops the frame. -/
  portEnqueueClear (p : Nat) (f : Frame) (s : State) : State :=
    if (vget s.eth p).up then portQueue p f s else portCount p 12 1 (frameDone f .aborted [] s)

/-- The receive channel and association a SecTAG names. -/
def rxSa (p : Nat) (b : List Byte) (s : State) : Option (Nat × MacsecSa) :=
  let x := vget s.sec.port p
  let tci := u8 b 14
  if !bit tci 5 then none
  else ((List.range 16).find? fun c => kget x.rxSci c == some (slice b 20 8) && khas x.rx (4 * c + tci % 4)).bind fun c =>
    (kget x.rx (4 * c + tci % 4)).map fun sa => (4 * c + tci % 4, sa)

/-- The 64-bit PN a 32-bit one stands for (XPN suites). -/
def fullPn (suite pn next : Nat) : Nat :=
  if suite < 11 then pn
  else
    let low := next % 2 ^ 32
    let hi := next / 2 ^ 32
    (if pn < low ∧ bit low 31 ∧ !bit pn 31 then hi + 1 else hi) * 2 ^ 32 + pn

/-- A frame from the wire: association, tag, and the replay window, which moves on verified frames only. -/
def cipherRxWire (p : Nat) (f : Frame) (ok : Bool) (s : State) : State :=
  let b := f.bytes
  let x := vget s.sec.port p
  if !x.en then portAccept p f (b.length + 4) s
  else match rxSa p b s with
    | none => secCount 8 1 s
    | some (i, sa) =>
      let pn := fullPn (suiteOf sa.slot s) (be32 b 16) sa.next
      if x.replay && pn < sa.pn then secCount 9 1 s
      else if !ok || be32 b 16 = 0 && suiteOf sa.slot s < 11 then secCount 6 1 s
      else
        let next := max sa.next (pn + 1)
        let sa2 := { sa with next := next, pn := max sa.pn (next - x.window) }
        let key := match keySlot sa.slot s with | some y => y.key | none => []
        let clear := b.take 12 ++ Config.macsecOpen (key ++ le 4 sa.ssci ++ sa.salt) pn b
        portAccept p { f with bytes := clear } (b.length + 4)
          (secCount 1 1 (withSec (fun y => { y with port := vmod y.port p fun z => { z with rx := kset z.rx i sa2 } }) s))

/-! Ends of jobs, and SEC_DELETE_KEY (R394). -/

/-- Jobs under a slot. -/
def slotBusy (k : Nat) (s : State) : Bool := s.sec.jobs.any fun j => j.slot == some k

/-- A slot is zeroed. -/
def slotErase (k : Nat) (s : State) : State :=
  let n := if kindOf k s = 8 then 3 else 1
  unplace 3 k (withSec (fun x => { x with slots := x.slots.filter fun p => !(p.1 == k || (k < p.1 && p.1 < k + n && p.2.part)) }) s)

/-- Deletions whose last frame has finished. -/
def deleteDone (s : State) : State :=
  (s.sec.deleting.filter fun d => !slotBusy d.2.1 s).foldl (fun t d =>
    finish d.1 .ok (le 4 d.2.2) (slotErase d.2.1 (withSec (fun x => { x with deleting := x.deleting.erase d }) t))) s

/-- CIPHER_FRAME: core `core` runs job `j`, the first that waits under its slot; `ok` says whether a received frame's tag verifies.
`mism` is 1 where the core's parity fails once, 2 where the retry fails too: the core is fenced and the frame waits for another. -/
def cipherFrame (core j mism : Nat) (ok : Bool) (s : State) : State :=
  match s.sec.jobs[j]? with
  | none => s
  | some x =>
    -- Received MPDUs of a slot keep the order of their release, whichever radio they came on (R167).
    let first := !(s.sec.jobs.take j).any fun y => y.kind == x.kind && (y.unit == x.unit || x.kind == .rxAir) && y.slot == x.slot
    if !first || !coreServes core x.slot s then s
    else if mism = 2 then fencePart (0x20 + core) (relCount 0 1 s)
    else
      let s1 := if mism = 1 then relCount 0 1 s else s
      let t := withSec (fun y => { y with jobs := y.jobs.take j ++ y.jobs.drop (j + 1) }) s1
      match x.kind with
      | .txAir => deleteDone (sealAir x.frame t)
      | .rxAir => deleteDone (cipherRx x.unit x.frame ok t)
      | .rxWire => deleteDone (cipherRxWire x.unit x.frame ok t)
      | .txWire => match cipherTxWire x.unit x.frame t with | some u => deleteDone u | none => s

def execCipherFrame (core : Fin 160) (j : Nat) (mism : Fin 3) (ok : Bool) (s : State) : Host.Outcome State Fault Refusal :=
  whenLive s (cipherFrame core j mism ok)

/-- A port has a transmit key that is not locked. -/
def wireKey (p : Nat) (s : State) : Bool := match activeSa p s with | some q => 0 < pnLeft q.2.slot s | none => false

/-- KEY_HOLD_TIMEOUT (R403): the oldest frame of a port, held for 100 ms for want of a key, is dropped. -/
def keyHoldTimeout (p : Nat) (s : State) : State :=
  let x := vget s.sec.port p
  if !x.en || wireKey p s then s
  else match s.sec.jobs.find? fun j => j.kind == .txWire && j.unit == p with
    | none => s
    | some j => if s.now < max j.at_ x.noKeyAt + 50000000 then s else frameDone j.frame .keyExhausted [] (secCount 13 1 (withSec (fun x => { x with jobs := x.jobs.erase j }) s))

def execKeyHoldTimeout (p : Fin 2) (s : State) : Host.Outcome State Fault Refusal := whenLive s (keyHoldTimeout p)

/-! Session and keys (R395 to R397). -/

def secGetIdentityForm : Form := indirectForm 0x0B00 0 112 fun _ => true

def secGetIdentityRun : Cmd → State → Effect := fun _ s =>
    answer (le 8 s.glb.serial.toNat ++ pad 97 Config.identityKey ++ pad 7 []) s

def execSecGetIdentity (m : Fin 8) (buf : List Byte) (s : State) : Host.Outcome State Fault Refusal :=
  command secGetIdentityForm m buf s secGetIdentityRun

/-- A command that needs fresh randomness: after a failed health test the generator tests again, and `pass` is what it finds (R400). -/
def withTrng (pass : Bool) (s : State) (go : State → Effect) : Effect :=
  if !s.sec.trngBad then go s
  else if pass then go (withSec (fun x => { x with trngBad := false }) s)
  else .complete .hwFault [] (secCount 18 1 s)

/-- KEK from the boot nonce and the host's key (R395): "HX7340 KEK", the serial and the key are the info string. -/
def sessionKek (nb q : List Byte) (s : State) : List Byte :=
  Config.hkdfSha384 nb (Config.identityEcdh q)
    ([0x48, 0x58, 0x37, 0x33, 0x34, 0x30, 0x20, 0x4B, 0x45, 0x4B] ++ be 8 s.glb.serial.toNat ++ q) 32

/-- KCV: the first 8 bytes of AES-256 of a zero block (R395). -/
def keyCheck (kek : List Byte) : List Byte := slice (Config.aes256 kek (pad 16 [])) 0 8

/-- SEC_OPEN_SESSION: once per reset. -/
def openSessionRun (pass : Bool) (c : Cmd) (s : State) : Effect :=
  let q := slice c.params 0 97
  if s.sec.session then .fail .wrongState
  else withTrng pass s fun s =>
    let d := draw 256 s
    let nb := le 32 d.1.toNat
    let kek := sessionKek nb q s
    .complete .ok (nb ++ keyCheck kek ++ pad 8 []) (withSec (fun x => { x with session := true, kek := kek }) d.2)

def secOpenSessionForm : Form := indirectForm 0x0B01 104 48 fun p => Config.onP384 (slice p 0 97) && zeros p 97 7

def execSecOpenSession (m : Fin 8) (buf : List Byte) (pass : Bool) (s : State) : Host.Outcome State Fault Refusal :=
  command secOpenSessionForm m buf s (openSessionRun pass)

/-- Key bytes of a suite. -/
def suiteBytes (suite : Nat) : Nat := if [2, 4, 6, 8, 10, 12].contains suite then 32 else 16

/-- Kinds SEC_LOAD_KEY takes, with the suites and lengths of Table 16.3. -/
def loadKindOk (kind suite n : Nat) : Bool :=
  match kind with
  | 2 => 1 ≤ suite && suite ≤ 4 && n == suiteBytes suite
  | 3 => 5 ≤ suite && suite ≤ 8 && n == suiteBytes suite
  | 4 => 9 ≤ suite && suite ≤ 12 && n == suiteBytes suite
  | 5 => suite == 13 && n == 16
  | 6 => suite == 0 && n == 32
  | 8 => suite == 0 && (n == 64 || n == 96)
  | _ => false

/-- Slots a key takes. -/
def keySlots (n : Nat) : Nat := ceilDiv n 32

/-- A key enters a slot and those after it. -/
def storeKey (k : Nat) (x : KeySlot) (n : Nat) (s : State) : State :=
  let t := (List.range (n - 1)).foldl (fun t i => withSec (fun y => { y with slots := kset y.slots (k + 1 + i) { x with key := [], part := true } }) t)
    (withSec (fun y => { y with slots := kset y.slots k x }) s)
  if x.suite = 0 then t else slotInitial k t

def loadKeyOk (p : List Byte) : Bool :=
  u16 p 0 + keySlots (u8 p 5) ≤ 2560 && loadKindOk (u8 p 2) (u8 p 3) (u8 p 5) && u8 p 4 ≤ 3 && zeros p 6 2

/-- SEC_LOAD_KEY (R393, R396). -/
def loadKeyRun (c : Cmd) (s : State) : Effect :=
  let p := c.params
  let k := u16 p 0
  let n := u8 p 5
  if s.life.lcState = 3 then .fail .locked
  else if !s.sec.session || (List.range (keySlots n)).any (fun i => khas s.sec.slots (k + i)) then .fail .wrongState
  else match (Config.unwrapKey s.sec.kek (slice p 16 (n + 8))).filter fun l => l.length == n with
    | none => .complete .badParam [] (secCount 14 1 s)
    | some key =>
      let x : KeySlot := { kind := u8 p 2, suite := u8 p 3, level := u8 p 4, key := key, txPn := if u64 p 8 = 0 then 1 else u64 p 8 }
      okay (if x.suite = 0 then storeKey k x (keySlots n) s else pnCheck k (storeKey k x (keySlots n) s))

def secLoadKeyForm : Form :=
  { opcode := 0x0B02, indirect := true, data := fun _ => 0, ok := loadKeyOk
    length := fun p => if loadKindOk (u8 p 2) (u8 p 3) (u8 p 5) then some (24 + u8 p 5) else none }

def execSecLoadKey (m : Fin 8) (buf : List Byte) (s : State) : Host.Outcome State Fault Refusal :=
  command secLoadKeyForm m buf s loadKeyRun

/-- Every binding of a slot goes; targets that lose their transmit key are held (R394, R403). -/
def unbindSlot (k : Nat) (s : State) : State :=
  let t := withMac (fun m => { m with
    sta := m.sta.map fun p => (p.1, { p.2 with
      txKey := p.2.txKey.filter (·.2 != k), rxKey := p.2.rxKey.filter (·.2 != k) })
    bss := m.bss.map fun b => { b with
      txKey := b.txKey.filter (·.2 != k), txIgtk := b.txIgtk.filter (·.2 != k), rxKey := b.rxKey.filter (·.2 != k) } }) (holdTargets k s)
  withSec (fun x => { x with port := x.port.map fun p =>
    { p with tx := p.tx.filter (·.2.slot != k), rx := p.rx.filter (·.2.slot != k)
             an := p.an.filter fun a => (kget p.tx a).any (·.slot != k) } }) t

/-- SEC_DELETE_KEY: completes once the frames under way under the slot have finished. No held frame is dropped by it. -/
def deleteKeyRun (c : Cmd) (s : State) : Effect :=
  let k := u16 c.params 0
  match keySlot k s with
  | none => .fail .badParam
  | some x =>
    if x.part then .fail .badParam
    else
      let t := unbindSlot k s
      if slotBusy k t then .hold (withSec (fun x => { x with deleting := x.deleting ++ [(c.handle, k, 0)] }) t)
      else .complete .ok (le 4 0) (slotErase k t)

def secDeleteKeyForm : Form := inlineForm 0x0B03 4 4 fun p => u16 p 0 ≤ 2559 && zeros p 2 2

def execSecDeleteKey (m : Fin 8) (buf : List Byte) (s : State) : Host.Outcome State Fault Refusal :=
  command secDeleteKeyForm m buf s deleteKeyRun

/-! Bindings (R401). -/

/-- A station interface's upstream access point. -/
def isUpstream (n : Nat) (s : State) : Bool := (List.range 3).any fun r => ((vget s.mac.radio r).uplink.map (·.sta == n)).getD false

/-- Table 16.4, for a slot and a target. -/
def bindOk (k target kid n dir : Nat) (s : State) : Bool :=
  let tx := bit dir 1
  match kindOf k s, target with
  | 1, 0 => kid ≤ 1
  | 2, 1 => 1 ≤ kid && kid ≤ 3 && (!bit dir 0 || isUplinkBss n s)
  | 2, 0 => 1 ≤ kid && kid ≤ 3 && !tx && isUpstream n s
  | 3, 1 => 4 ≤ kid && kid ≤ 5 && dir != 1 && !bit dir 0
  | 3, 0 => 4 ≤ kid && kid ≤ 5 && !tx && isUpstream n s
  | _, _ => false

/-- Frames queued for a target. -/
def heldFrames (target n : Nat) (s : State) : Nat :=
  if target = 0 then ((List.range 8).map fun t => (tidQueue (8 * n + t) s).length).sum
  else ((List.range 4).map fun g => (groupQueue (4 * n + g) s).length).sum

/-- A transmit binding: held frames go under the new key. -/
def bindTx (k target kid n : Nat) (s : State) : State :=
  let usable := 0 < pnLeft k s
  let igtk := kindOf k s = 3
  let was := if target = 0 then ((kget s.mac.sta n).map (·.held)).getD false else (vget s.mac.bss n).held
  let t := if target = 0 then withSta n (fun x => { x with txKey := some (kid, k), held := x.held && !usable }) s
    else if igtk then withBss n (fun b => { b with txIgtk := some (kid, k) }) s
    else withBss n (fun b => { b with txKey := some (kid, k), held := b.held && !usable }) s
  let u := if target = 0 then raiseSta n s t else raiseBss n s t
  if was && usable && !igtk then secCount 12 (heldFrames target n s) u else u

/-- A receive binding: the counters of the slot start at the value given. -/
def bindRx (k target kid n start : Nat) (s : State) : State :=
  let t := if target = 0 then withSta n (fun x => { x with rxKey := kset x.rxKey kid k }) s
    else withBss n (fun b => { b with rxKey := kset b.rxKey kid k }) s
  withSlot k (fun x => { x with rxPn := if start = 0 then [] else (List.range 9).map fun i => (i, start) }) t

/-- Removes a key ID's bindings. -/
def unbindKid (target kid n dir : Nat) (s : State) : State :=
  let noTx (o : Option (Nat × Nat)) : Option (Nat × Nat) := if bit dir 1 then o.filter (·.1 != kid) else o
  let noRx (m : KMap Nat) : KMap Nat := if bit dir 0 then kdel m kid else m
  if target = 0 then withSta n (fun x => { x with txKey := noTx x.txKey, rxKey := noRx x.rxKey }) s
  else withBss n (fun b => { b with txKey := noTx b.txKey, txIgtk := noTx b.txIgtk, rxKey := noRx b.rxKey }) s

/-- SEC_BIND_KEY. -/
def bindKeyRun (c : Cmd) (s : State) : Effect :=
  let p := c.params
  let k := u16 p 0
  let n := u16 p 4
  let dir := u8 p 6
  if k ≠ 0xFFFF && !bindOk k (u8 p 2) (u8 p 3) n dir s then .fail .badParam
  else if (if u8 p 2 = 0 then !khas s.mac.sta n else !(vget s.mac.bss n).en) then .fail .wrongState
  else if k = 0xFFFF then okay (unbindKid (u8 p 2) (u8 p 3) n dir s)
  else
    let t := if bit dir 0 then bindRx k (u8 p 2) (u8 p 3) n (leNat (slice p 8 6)) s else s
    okay (if bit dir 1 then bindTx k (u8 p 2) (u8 p 3) n t else t)

def secBindKeyForm : Form :=
  inlineForm 0x0B04 16 0 fun p => (u16 p 0 ≤ 2559 || u16 p 0 == 0xFFFF) && u8 p 2 ≤ 1 && u8 p 3 ≤ 5 && (if u8 p 2 = 0 then u16 p 4 ≤ 1023 else u16 p 4 ≤ 47) && u8 p 6 ≤ 3 && u8 p 7 == 0 && zeros p 14 2

def execSecBindKey (m : Fin 8) (buf : List Byte) (s : State) : Host.Outcome State Fault Refusal :=
  command secBindKeyForm m buf s bindKeyRun

/-! State of a slot. -/

/-- Transmit and receive bindings of a slot. -/
def txBinds (k : Nat) (s : State) : Nat :=
  (s.mac.sta.filter fun p => p.2.txKey.map (·.2) == some k).length +
    (s.mac.bss.toList.filter fun b => b.txKey.map (·.2) == some k || b.txIgtk.map (·.2) == some k).length +
    (s.sec.port.toList.map fun p => (p.tx.filter fun a => a.2.slot == k).length).sum +
    (if s.rope.role != .none && s.rope.slot == k then 1 else 0)
def rxBinds (k : Nat) (s : State) : Nat :=
  (s.mac.sta.map fun p => (p.2.rxKey.filter fun e => e.2 == k).length).sum +
    (s.mac.bss.toList.map fun b => (b.rxKey.filter fun e => e.2 == k).length).sum +
    (s.sec.port.toList.map fun p => (p.rx.filter fun a => a.2.slot == k).length).sum +
    (if s.rope.role != .none && (s.rope.slot == k || s.rope.nextSlot == some k) then 1 else 0)

def keyState (k : Nat) (s : State) : List Byte :=
  match keySlot k s with
  | none => pad 16 []
  | some x =>
    [byte x.kind, byte x.suite, byte x.level, byte (put x.locked 0 + put x.lowTold 1 + put (txBinds k s != 0) 2 + put (rxBinds k s != 0) 3)] ++
      le 8 x.txPn ++ [byte (placedAt 3 k s), 0] ++ le 2 (txBinds k s + rxBinds k s)

def secGetKeyStateForm : Form := inlineForm 0x0B05 4 16 fun p => u16 p 0 ≤ 2559 && zeros p 2 2

def secGetKeyStateRun : Cmd → State → Effect := fun c s => answer (keyState (u16 c.params 0) s) s

def execSecGetKeyState (m : Fin 8) (buf : List Byte) (s : State) : Host.Outcome State Fault Refusal :=
  command secGetKeyStateForm m buf s secGetKeyStateRun

/-! Streams (R407). -/

def setStreamRun (c : Cmd) (s : State) : Effect :=
  let p := c.params
  let n := u16 p 0
  let ring := u8 p 3
  if !khas s.mac.sta n || (ring != 0xFF && !(vget s.rings.hrx ring).hostStream) then .fail .wrongState
  else
    let one (m : KMap (Nat × Nat)) (t : Nat) : KMap (Nat × Nat) := if ring = 0xFF then kdel m t else kset m t (ring, u16 p 4)
    okay (withSta n (fun x => { x with stream := ((List.range 8).filter (bit (u8 p 2))).foldl one x.stream }) s)

def secSetStreamForm : Form :=
  inlineForm 0x0B06 8 0 fun p => u16 p 0 ≤ 1023 && (u8 p 3 ≤ 63 || u8 p 3 == 0xFF) && (1024 ≤ u16 p 4 && u16 p 4 ≤ 11454) && zeros p 6 2

def execSecSetStream (m : Fin 8) (buf : List Byte) (s : State) : Host.Outcome State Fault Refusal :=
  command secSetStreamForm m buf s setStreamRun

/-! MACsec commands. -/

def secMacsecPortForm : Form := inlineForm 0x0B07 16 0 fun p => u8 p 0 ≤ 1 && u8 p 1 ≤ 3 && zeros p 2 2

def secMacsecPortRun : Cmd → State → Effect := fun c s =>
    let p := c.params
    okay (withSec (fun x => { x with port := vmod x.port (u8 p 0) fun y =>
      { y with en := bit (u8 p 1) 0, replay := bit (u8 p 1) 1, window := u32 p 4, sci := slice p 8 8 } }) s)

def execSecMacsecPort (m : Fin 8) (buf : List Byte) (s : State) : Host.Outcome State Fault Refusal :=
  command secMacsecPortForm m buf s secMacsecPortRun

def setSaOk (p : List Byte) : Bool :=
  u8 p 0 ≤ 1 && u8 p 1 ≤ 7 && u8 p 2 ≤ 3 && u8 p 3 ≤ 15 && u16 p 4 ≤ 2559 && zeros p 6 2 && zeros p 40 8 && !(bit (u8 p 1) 2 && !bit (u8 p 1) 0)

/-- Frames held at a port for a key. -/
def heldWire (p : Nat) (s : State) : Nat := (s.sec.jobs.filter fun j => j.kind == .txWire && j.unit == p).length

/-- SEC_MACSEC_SET_SA. A next PN of a transmit association sets its slot's counter; 0 leaves it. -/
def setSaRun (c : Cmd) (s : State) : Effect :=
  let p := c.params
  let n := u8 p 0
  let fl := u8 p 1
  let an := u8 p 2
  let k := u16 p 4
  let setP (f : MacsecPort → MacsecPort) (s : State) : State := withSec (fun x => { x with port := vmod x.port n f }) s
  if !bit fl 1 && kindOf k s ≠ 4 then .fail .badParam
  else if !(vget s.sec.port n).en then .fail .wrongState
  else if bit fl 1 then
    if bit fl 0 then okay (setP (fun x =>
      { x with tx := kdel x.tx an, an := x.an.filter (· != an), noKeyAt := if x.an = some an then s.now else x.noKeyAt }) s)
    else okay (setP (fun x => { x with rx := kdel x.rx (4 * u8 p 3 + an) }) s)
  else
    let sa : MacsecSa := { slot := k, pn := u64 p 16, next := u64 p 16, ssci := u32 p 24, salt := slice p 28 12 }
    if bit fl 0 then
      let t := setP (fun x => { x with tx := kset x.tx an sa, an := if bit fl 2 then some an else x.an }) s
      let u := if u64 p 16 = 0 then t else pnCheck k (withSlot k (fun x => { x with txPn := u64 p 16 }) t)
      let v := if wireKey n s && !wireKey n u then setP (fun x => { x with noKeyAt := s.now }) u else u
      okay (if !wireKey n s && wireKey n v then secCount 12 (heldWire n s) v else v)
    else okay (setP (fun x => { x with rx := kset x.rx (4 * u8 p 3 + an) sa, rxSci := kset x.rxSci (u8 p 3) (slice p 8 8) }) s)

def secMacsecSetSaForm : Form := indirectForm 0x0B08 48 0 setSaOk

def execSecMacsecSetSa (m : Fin 8) (buf : List Byte) (s : State) : Host.Outcome State Fault Refusal :=
  command secMacsecSetSaForm m buf s setSaRun

/-! The derivation unit (R398 to R400). -/

/-- A derivation: HW_FAULT while the unit is fenced; `mism` is 1 where its residues mismatch once, 2 where the retry mismatches too. -/
def derive (mism : Nat) (s : State) (go : State → Effect) : Effect :=
  if partFenced 0x1E s then .fail .hwFault
  else if mism = 2 then .complete .hwFault [] (fencePart 0x1E (relCount 0 1 s))
  else go (if mism = 1 then relCount 0 1 s else s)

def saeBytes (group : Nat) : Nat := if group = 19 then 96 else 144
def saeConf (group : Nat) : Nat := if group = 19 then 32 else 48

/-- LENGTH of SEC_SAE. -/
def saeLength (p : List Byte) : Option Nat :=
  if (u8 p 2 = 19 ∨ u8 p 2 = 20) ∧ u8 p 0 ≤ 2 then
    some (match u8 p 0 with | 0 => 20 | 1 => 20 + saeBytes (u8 p 2) | _ => 20 + saeConf (u8 p 2))
  else none

def freeSae (i : Nat) (s : State) : State := withSec (fun x => { x with sae := kdel x.sae i }) s

/-- SEC_SAE (R398). -/
def saeRun (pass : Bool) (mism : Nat) (c : Cmd) (s : State) : Effect :=
  let p := c.params
  let i := u8 p 1
  let g := u8 p 2
  let k := u16 p 4
  let own := slice p 8 6
  let peer := slice p 14 6
  let ctx := (kget s.sec.sae i).filter fun x => x.group == g
  match u8 p 0 with
  | 0 =>
    if kindOf k s ≠ 8 ∨ ((keySlot k s).map (·.key.length)) ≠ some (if g = 19 then 64 else 96) then .fail .badParam
    else if !s.sec.session then .fail .wrongState
    else withTrng pass s fun s => derive mism s fun s =>
      let d := draw 512 s
      let sec := le 64 d.1.toNat
      let com := pad (saeBytes g) (Config.saeCommit (match keySlot k s with | some x => x.key | none => []) own peer sec)
      .complete .ok com (withSec (fun x => { x with sae := kset x.sae i { group := g, own := own, peer := peer, pt := k, secret := sec, commit := com, usedAt := s.now } }) d.2)
  | 1 =>
    match ctx with
    | none => .fail .wrongState
    | some x =>
      if !s.sec.session then .fail .wrongState
      else derive mism s fun s =>
        let their := slice p 20 (saeBytes g)
        if !Config.saePeerOk g their || their == x.commit then .complete .badParam [] (freeSae i s)
        else
          let out := Config.saeConfirm x.secret their (u16 p 6)
          .complete .ok (pad (saeConf g) out)
            (withSec (fun y => { y with sae := kset y.sae i { x with secret := x.secret ++ their, confirmed := true, usedAt := s.now } }) s)
  | _ =>
    match ctx with
    | none => .fail .wrongState
    | some x =>
      if s.life.lcState = 3 then .fail .locked
      else if !s.sec.session || !x.confirmed || khas s.sec.slots k then .fail .wrongState
      else derive mism s fun s =>
        match Config.saeVerify x.secret (slice p 20 (saeConf g)) with
        | none => .complete .badParam [] (secCount 16 1 (freeSae i s))
        | some (pmk, id) => .complete .ok (pad 16 id) (freeSae i (storeKey k { kind := 6, key := pad 32 pmk } 1 s))

def secSaeForm : Form :=
  { opcode := 0x0B09, indirect := true, length := saeLength
    data := fun p => match u8 p 0 with | 0 => saeBytes (u8 p 2) | 1 => saeConf (u8 p 2) | _ => 16
    ok := fun p => u8 p 0 ≤ 2 && u8 p 1 ≤ 63 && (u8 p 2 == 19 || u8 p 2 == 20) && u8 p 3 == 0 && u16 p 4 ≤ 2559 }

def execSecSae (m : Fin 8) (buf : List Byte) (pass : Bool) (mism : Fin 3) (s : State) : Host.Outcome State Fault Refusal :=
  command secSaeForm m buf s (saeRun pass mism)

/-- SAE_CONTEXT_TIMEOUT: a context unused for 2 s is freed. -/
def saeTimeout (i : Nat) (s : State) : State :=
  match kget s.sec.sae i with
  | some x => if x.usedAt + 1000000000 ≤ s.now then freeSae i s else s
  | none => s

def execSaeContextTimeout (i : Fin 64) (s : State) : Host.Outcome State Fault Refusal := whenLive s (saeTimeout i)

def akmOk (a : Nat) : Bool := [1, 2, 5, 6, 8].contains a

/-- SEC_4WAY (R399): the KCK and KEK in one slot, the TK in another. -/
def fourWayRun (mism : Nat) (c : Cmd) (s : State) : Effect :=
  let p := c.params
  let kck := u16 p 4
  let tk := u16 p 6
  if kindOf (u16 p 2) s ≠ 6 then .fail .badParam
  else if s.life.lcState = 3 then .fail .locked
  else if !s.sec.session || khas s.sec.slots kck || khas s.sec.slots tk then .fail .wrongState
  else derive mism s fun s =>
    let keys := Config.ptkKeys (u8 p 0) (match keySlot (u16 p 2) s with | some x => x.key | none => []) (slice p 8 76)
    let t := storeKey kck { kind := 7, level := u8 p 84, key := pad 32 keys.1 } 1 s
    let u := storeKey tk { kind := 1, suite := u8 p 1, level := u8 p 84, key := pad (suiteBytes (u8 p 1)) keys.2 } 1 t
    okay (secCount 15 1 u)

def sec4wayForm : Form :=
  indirectForm 0x0B0A 88 0 fun p => akmOk (u8 p 0) && (1 ≤ u8 p 1 && u8 p 1 ≤ 4) && u16 p 2 ≤ 2559 && u16 p 4 ≤ 2559 && u16 p 6 ≤ 2559 && u16 p 4 != u16 p 6 && u8 p 84 ≤ 3 && zeros p 85 3

def execSec4way (m : Fin 8) (buf : List Byte) (mism : Fin 3) (s : State) : Host.Outcome State Fault Refusal :=
  command sec4wayForm m buf s (fourWayRun mism)

/-- KDEs of SEC_EAPOL: slot, key ID, RSC. -/
def kdeAt (p : List Byte) (i : Nat) : Nat × Nat × List Byte := (u16 p (8 + 12 * i), u8 p (10 + 12 * i), slice p (12 + 12 * i) 8)

/-- A GTK or IGTK KDE of a slot (IEEE 802.11-2020). -/
def kdeBytes (k : Nat × Nat × List Byte) (s : State) : List Byte :=
  match keySlot k.1 s with
  | none => []
  | some x =>
    if x.kind = 2 then [0xDD, byte (6 + x.key.length), 0x00, 0x0F, 0xAC, 1, byte k.2.1, 0] ++ x.key
    else [0xDD, byte (12 + x.key.length), 0x00, 0x0F, 0xAC, 9] ++ le 2 k.2.1 ++ k.2.2.take 6 ++ x.key

/-- A KDE names a GTK with key ID 1 to 3 or an IGTK with 4 or 5. -/
def kdeOk (k : Nat × Nat × List Byte) (s : State) : Bool :=
  (kindOf k.1 s == 2 && 1 ≤ k.2.1 && k.2.1 ≤ 3) || (kindOf k.1 s == 3 && 4 ≤ k.2.1 && k.2.1 ≤ 5)

/-- Key Data filled up to a multiple of 8 bytes, at least 16 (IEEE 802.11-2020). -/
def fillKeyData (l : List Byte) : List Byte :=
  if l.length % 8 = 0 ∧ 16 ≤ l.length then l
  else let d := l ++ [0xDD]; pad (max 16 (ceilDiv d.length 8 * 8)) d

/-- SEC_EAPOL (R399). -/
def eapolRun (mism : Nat) (c : Cmd) (s : State) : Effect :=
  let p := c.params
  let n := u8 p 6
  let body := slice p (8 + 12 * n) (u16 p 4)
  let key := match keySlot (u16 p 2) s with | some x => x.key | none => []
  let kdes := (List.range n).map (kdeAt p)
  if kindOf (u16 p 2) s ≠ 7 || !kdes.all (kdeOk · s) then .fail .badParam
  else derive mism s fun s =>
    match u8 p 0 with
    | 0 =>
      -- The MIC field of the frame reads 0 while the MIC is computed; it stands at byte 81 of an EAPOL-Key frame.
      if pad 16 (Config.eapolMic (u8 p 1) key (patch16 body)) == slice body 81 16 then okay s
      else .complete .badParam [] (secCount 17 1 s)
    | 1 => .complete .ok (pad 16 (Config.eapolMic (u8 p 1) key (patch16 body))) s
    | _ =>
      let d := fillKeyData (body ++ kdes.flatMap (kdeBytes · s))
      .complete .ok (pad (d.length + 8) (Config.wrapKeyData key d)) s
where
  /-- The frame with its MIC field zeroed. -/
  patch16 (b : List Byte) : List Byte := b.take 81 ++ (List.replicate 16 0).take (b.length - 81) ++ b.drop 97

def secEapolForm : Form :=
  { opcode := 0x0B0B, indirect := true
    length := fun p => if u8 p 6 ≤ 4 then some (8 + 12 * u8 p 6 + u16 p 4) else none
    data := fun p => match u8 p 0 with | 0 => 0 | 1 => 16 | _ => ceilDiv (max 16 (u16 p 4 + 46 * u8 p 6)) 8 * 8 + 8
    ok := fun p => u8 p 0 ≤ 2 && akmOk (u8 p 1) && u16 p 2 ≤ 2559 && u8 p 6 ≤ 4 && u8 p 7 == 0 &&
      (List.range (u8 p 6)).all fun i => u16 p (8 + 12 * i) ≤ 2559 && u8 p (11 + 12 * i) == 0 }

def execSecEapol (m : Fin 8) (buf : List Byte) (mism : Fin 3) (s : State) : Host.Outcome State Fault Refusal :=
  command secEapolForm m buf s (eapolRun mism)

def secGetCountersForm : Form := indirectForm 0x0B0C 0 152 fun _ => true

def secGetCountersRun : Cmd → State → Effect := fun _ s => answer (ctrBytes s.sec.ctr) s

def execSecGetCounters (m : Fin 8) (buf : List Byte) (s : State) : Host.Outcome State Fault Refusal :=
  command secGetCountersForm m buf s secGetCountersRun

/-- TRNG_HEALTH_FAIL (R400). -/
def execTrngHealthFail (s : State) : Host.Outcome State Fault Refusal := whenLive s (withSec fun x => { x with trngBad := true })

end Sys2Proof.Machine
end

