-- ==== Sys2Proof/Machine/HostRings.lean ====
section
/-!
DEFINITION. The host data rings (spec/02_host_mailboxes.md R53 to R59, Tables 2.20 to 2.23): PROD, enable, disable, halt and resume,
the fetch of transmit frames, the delivery of receive frames.
-/
namespace Sys2Proof.Machine
open Sys2Proof

def ringOf (tx : Bool) (n : Nat) (s : State) : Ring := if tx then vget s.rings.htx n else vget s.rings.hrx n
def withRing (tx : Bool) (n : Nat) (f : Ring → Ring) (s : State) : State := if tx then withHtx n f s else withHrx n f s

/-! Halting (R53, R58). -/

/-- More descriptors than the ring has stand between CONS and PROD. -/
def overfull (g : Ring) : Bool := 2 ^ g.sizeLog < (g.prod - g.cons).toNat

/-- The bytes go to their buffers, in ring order; zeros in their place with `zero`. -/
def writeBufs (l : List (List Byte × List Byte)) (zero : Bool) (s : State) : State :=
  l.foldl (fun t p => hostWrite (u64 p.1 0) (if zero then pad p.2.length [] else p.2) t) s

/-- A frame for a receive ring is dropped, counted as HRX_DRY_DROP with `dry` and as HRX_NO_BUF without; a host frame that awaited its
end completes with ABORTED. -/
def ringDrop (n : Nat) (dry : Bool) (f : Frame) (s : State) : State :=
  frameDone f .aborted [] (withHrx n (fun g => if dry then { g with ctrB := g.ctrB + 1 } else { g with ctrA := g.ctrA + 1 }) s)

/-- The frame in progress on a receive ring is dropped: its buffers stay posted, and hold zeros in HOST_STREAM mode (R57). -/
def dropPart (n : Nat) (dry : Bool) (s : State) : State :=
  let g := vget s.rings.hrx n
  match g.cur with
  | none => s
  | some p =>
    ringDrop n dry p.frame (withHrx n (fun g => { g with cur := none }) (if g.hostStream then writeBufs p.filled true s else s))

/-- The ring halts at a descriptor, and HRING_ERROR is raised; a receive ring drops its frames, the one in progress among them (R58). -/
def ringHalt (tx : Bool) (n : Nat) (err : BitVec 16) (s : State) : State :=
  let t := raise .hringError n [] (withRing tx n (fun g => { g with halted := true, errIndex := err }) s)
  if tx then t else dropPart n false t

/-- A ring that R53's rule is broken on halts at the first descriptor beyond the ring. -/
def haltOverfull (tx : Bool) (n : Nat) (s : State) : State :=
  let g := ringOf tx n s
  if !g.halted && overfull g then ringHalt tx n (g.cons + BitVec.ofNat 16 (2 ^ g.sizeLog)) s else s

/-- HRING_PROD_WRITE: a write that breaks R53 halts the ring, enabled or not. -/
def prodWrite (tx : Bool) (n : Nat) (v : BitVec 16) (s : State) : State := haltOverfull tx n (withRing tx n (fun g => { g with prod := v }) s)

def execHringProdWrite (tx : Bool) (n : Fin 64) (value : BitVec 16) (s : State) : Host.Outcome State Fault Refusal :=
  whenLive s (prodWrite tx n value)

/-- HRING_ENABLE (Table 2.20, R59): a reserved size leaves EN at 0. -/
def ringEnable (tx : Bool) (n : Nat) (s : State) : State :=
  let g := ringOf tx n s
  if g.en || g.sizeLog < 6 || 14 < g.sizeLog then s
  else haltOverfull tx n (withRing tx n (fun g => { g with en := true, idle := false, fetched := g.cons }) s)

def execHringEnable (tx : Bool) (n : Fin 64) (s : State) : Host.Outcome State Fault Refusal := whenLive s (ringEnable tx n)

/-- HRING_IDLE (R59). -/
def execHringIdle (tx : Bool) (n : Fin 64) (s : State) : Host.Outcome State Fault Refusal :=
  whenLive s fun s => if (ringOf tx n s).en then s else withRing tx n (fun g => { g with idle := true }) s

/-! Disabling (R59). -/

/-- The frame still awaits its completion on transmit ring `n`. -/
def ofRing (n : Nat) (f : Frame) : Bool := f.ring == some n

def keepOther (n : Nat) (l : List Frame) : List Frame := l.filter fun f => !ofRing n f

/-- The head of a launch queue stays held only if it stays. -/
def heldAfter (n : Nat) (held : Bool) (l : List Frame) : Bool := held && match l with | f :: _ => !ofRing n f | [] => false

/-- Frames of a ring leave a furrow that has not started. -/
def furrowWithout (n : Nat) (f : Furrow) : Furrow :=
  { f with users := f.users.map fun u => { u with frames := u.frames.filter fun p => !ofRing n p.2 } }

/-- Frames of a ring that have not been sent are withdrawn from every queue. -/
def withdraw (n : Nat) (s : State) : State :=
  let q (m : KMap (List Frame)) : KMap (List Frame) := (m.map fun p => (p.1, keepOther n p.2)).filter fun p => !p.2.isEmpty
  { s with
    sched := { s.sched with
      q := q s.sched.q, gq := q s.sched.gq
      radio := s.sched.radio.map fun k => { k with building := k.building.map (furrowWithout n), ready := k.ready.map (furrowWithout n) } }
    mac := { s.mac with radio := s.mac.radio.map fun m => { m with
      launchQ := keepOther n m.launchQ, launchHeld := heldAfter n m.launchHeld m.launchQ } }
    eth := s.eth.map fun p => { p with
      txQ := keepOther n p.txQ, expQ := keepOther n p.expQ, lateQ := keepOther n p.lateQ, dueQ := keepOther n p.dueQ
      launchQ := keepOther n p.launchQ, launchHeld := heldAfter n p.launchHeld p.launchQ }
    router := { s.router with inq := keepOther n s.router.inq }
    sec := { s.sec with jobs := s.sec.jobs.filter fun j => !ofRing n j.frame } }

/-- Posted descriptors that have not been fetched, as one frame that ends. -/
def unfetched (n : Nat) (s : State) : State :=
  let g := vget s.rings.htx n
  let k := min (g.prod - g.fetched).toNat (2 ^ g.sizeLog)
  if k = 0 then s
  else
    let t := withHtx n (fun g => { g with
      inflight := g.inflight ++ [{ id := s.rings.nextId, first := g.fetched, ndesc := k }], fetched := g.fetched + BitVec.ofNat 16 k }) s
    { t with rings := { t.rings with nextId := t.rings.nextId + 1 } }

/-- HRING_RESUME (R58): HALTED clears. With EN set the ring goes on at CONS: a transmit ring fetches again from the descriptor there, so
the frames it had copied and not yet sent leave their queues to be copied again; and the ring halts again while PROD still breaks R53. -/
def ringResume (tx : Bool) (n : Nat) (s : State) : State :=
  let g := ringOf tx n s
  if !g.halted then s
  else
    let t := withRing tx n (fun g => { g with halted := false }) s
    if !g.en then t
    else haltOverfull tx n (if tx then withHtx n (fun g => { g with fetched := g.cons, inflight := [] }) (withdraw n t) else t)

def execHringResume (tx : Bool) (n : Fin 64) (s : State) : Host.Outcome State Fault Refusal := whenLive s (ringResume tx n)

/-- HRING_DISABLE: a transmit ring's frames not yet copied or sent complete with ABORTED; a receive ring drops the frame in progress as
R57 says, counted as HRX_DRY_DROP. -/
def ringDisable (tx : Bool) (n : Nat) (s : State) : State :=
  if !(ringOf tx n s).en then s
  else
    let t := withRing tx n (fun g => { g with en := false }) s
    if !tx then dropPart n true t
    else
      let u := withdraw n (unfetched n t)
      (vget u.rings.htx n).inflight.foldl (fun v f => completeTx n f.id .aborted 0 v) u

def execHringDisable (tx : Bool) (n : Fin 64) (s : State) : Host.Outcome State Fault Refusal := whenLive s (ringDisable tx n)

/-! Transmit (R54, R55). -/

/-- Fields of a transmit descriptor (Tables 2.21, 2.22). -/
def dLen (d : List Byte) : Nat := u16 d 8
def dFlags (d : List Byte) : Nat := u16 d 10

/-- The descriptors of the next frame: from SOF to EOF, or one alone that lacks SOF; none while EOF is not posted. -/
def frameDescs (l : List (List Byte)) : Option (List (List Byte)) :=
  match l with
  | [] => none
  | d :: _ =>
    if !bit (dFlags d) 0 then some [d]
    else (l.findIdx? fun d => bit (dFlags d) 1).map fun i => l.take (i + 1)

/-- R54. -/
def frameBad (l : List (List Byte)) : Bool :=
  l.any (fun d => !bit (dFlags d) 0 && l.length == 1 || dLen d == 0) || 16 < l.length || 16384 < (l.map dLen).sum

/-- DEST names an index outside its range (R6). -/
def destBad (d : List Byte) : Bool :=
  match bits (dFlags d) 8 2 with
  | 1 => 7 < bits (u32 d 16) 16 4
  | 3 => 47 < bits (u32 d 16) 0 6
  | _ => false

/-- A host frame for a port that is express: EtherType 0x88F7, or UDP port 319 or 320, in its outer headers (R380). -/
def hostExpress (b : List Byte) : Bool :=
  match parseL2 b 0 true with
  | .error _ => false
  | .ok l =>
    be16 b l.etAt == 0x88F7 || match parseIp b (be16 b l.etAt) (l.etAt + 2) true with
      | .ok (some h) => !isLater h && h.proto == 17 && (be16 b (h.next + 2) == 319 || be16 b (h.next + 2) == 320)
      | _ => false

/-- The frame a SOF descriptor describes. -/
def hostFrame (n id : Nat) (d data : List Byte) (now : Nat) : Frame :=
  let fl := dFlags d
  { id := id, bytes := data, src := 3, port := n, ring := if bit fl 2 || bit fl 10 then some n else none, tsReq := bit fl 10
    launch := if bit fl 2 then some (bits fl 4 2, u32 d 12) else none, lateSend := bit fl 3, destType := bits fl 8 2, dest := u32 d 16
    arrived := now }

/-- A frame goes where its DEST_TYPE says (Table 2.22, R185, R186). -/
def dispatchHost (f : Frame) (s : State) : State :=
  let air : Frame := { f with bytes := etherToLlc f.bytes, da := slice f.bytes 0 6, sa := slice f.bytes 6 6 }
  match f.destType with
  | 0 => toRouter f s
  | 1 => stationEnqueue (bits f.dest 0 10) (bits f.dest 16 4) air s
  | 2 => portEnqueue (bits f.dest 0 1) { f with express := hostExpress f.bytes } s
  | _ => groupEnqueue (4 * bits f.dest 0 6 + bits f.dest 16 2) { air with tid := [1, 0, 5, 7].getD (bits f.dest 16 2) 0 } s

/-- HTX_FRAME_FETCH: `descs` are the descriptors that stand in host memory from the next one on, as many as the device reads, and `data`
the frame's bytes. A frame without LAUNCH_EN or TS_REQ completes with OK once copied. -/
def fetchFrame (n : Nat) (descs : List (List Byte)) (data : List Byte) (s : State) : State :=
  let g := vget s.rings.htx n
  if !g.en || g.halted then s
  else match frameDescs (descs.take (g.prod - g.fetched).toNat) with
    | none => s
    | some l =>
      let id := s.rings.nextId
      let d := l.headD []
      let t := withHtx n (fun g => { g with
        inflight := g.inflight ++ [{ id := id, first := g.fetched, ndesc := l.length }]
        fetched := g.fetched + BitVec.ofNat 16 l.length }) { s with rings := { s.rings with nextId := id + 1 } }
      if frameBad l || destBad d then completeTx n id .badParam 0 t
      else
        let f := hostFrame n id d (pad (l.map dLen).sum data) s.now
        let u := withHtx n (fun g => { g with frames := g.frames + 1, bytes := g.bytes + f.bytes.length }) t
        dispatchHost f (if f.ring.isSome then u else completeTx n id .ok 0 u)

def execHtxFrameFetch (n : Fin 64) (descs : List (List Byte)) (data : List Byte) (s : State) : Host.Outcome State Fault Refusal :=
  whenLive s (fetchFrame n descs data)

/-! Receive (R56 to R58). -/

/-- Table 2.23's rule for BUF_LEN. -/
def bufOk (d : List Byte) : Bool := u16 d 8 % 64 == 0 && 256 ≤ u16 d 8 && u16 d 8 ≤ 16384

/-- How taking buffers ends: the frame is complete, the ring dry, a descriptor bad, or more posted descriptors are wanted than the
step was given. -/
inductive FillEnd where
  | done | dry | bad | more
  deriving DecidableEq, Repr

/-- How the buffers take a frame's bytes: the pieces, how it ends, and the bytes left. -/
def fillBufs : (posted : Nat) → List (List Byte) → List Byte → List (List Byte × List Byte) × FillEnd × List Byte
  | _, _, [] => ([], .done, [])
  | 0, _, x :: xs => ([], .dry, x :: xs)
  | _ + 1, [], x :: xs => ([], .more, x :: xs)
  | k + 1, d :: r, x :: xs =>
    if !bufOk d then ([], .bad, x :: xs)
    else
      let p := fillBufs k r ((x :: xs).drop (u16 d 8))
      ((d, (x :: xs).take (u16 d 8)) :: p.1, p.2)

/-- The link-quality index of a received frame's station (Table 2.23). -/
def frameLqi (f : Frame) (s : State) : Nat :=
  if f.src = 0 && !f.unassoc then match kget (vget s.phy f.port).latest f.sta with | some b => u8 b 54 | none => 0 else 0

/-- One descriptor completes: its fields, its stamp, and STATUS last (R56). -/
def writeRxDesc (n : Nat) (i : BitVec 16) (f : Frame) (sof eof : Bool) (bytes : Nat) (s : State) : State :=
  let g := vget s.rings.hrx n
  let a := descAddr g i
  let len := if sof && !f.authFail then f.bytes.length else 0
  let status := 2 ^ 31 + put sof 30 + put eof 29 + 2 ^ 16 * statusCode (if f.authFail then .authFail else .ok)
  signalEntry (73 + n) (hostWrite (a + 24) (le 4 status)
    (hostWrite (a + 28) (le 4 (f.stamps.getD g.stampTb.val 0))
      (hostWrite (a + 12) (le 2 bytes ++ le 2 len ++ le 4 (sourceWord f) ++ le 4 (f.hash % 2 ^ 16 * 2 ^ 16 + frameLqi f s)) s)))

/-- The descriptors of a whole frame: all but the first in ring order, then the first; CONS passes them. -/
def completeRx (n : Nat) (f : Frame) (l : List (List Byte × List Byte)) (s : State) : State :=
  let g := vget s.rings.hrx n
  let k := l.length
  let one (t : State) (i : Nat) : State :=
    writeRxDesc n (g.cons + BitVec.ofNat 16 i) f (i == 0) (i + 1 == k) (if f.authFail then 0 else ((l[i]?).map (·.2.length)).getD 0) t
  let t := one ((List.range' 1 (k - 1)).foldl one s) 0
  withHrx n (fun g => { g with cons := g.cons + BitVec.ofNat 16 k, frames := g.frames + 1, bytes := g.bytes + f.bytes.length }) t

/-- The frame in progress takes the buffers that `descs` describe, from the first one not yet filled on, until it is whole, the ring
runs dry, a descriptor is bad, or the step has no more of them (R56 to R58). -/
def fillPart (n : Nat) (p : RxPart) (descs : List (List Byte)) (s : State) : State :=
  let g := vget s.rings.hrx n
  let r := fillBufs ((g.prod - g.cons).toNat - p.filled.length) descs p.left
  let l := p.filled ++ r.1
  let t := writeBufs r.1 false (withHrx n (fun g => { g with cur := some { p with filled := l, left := r.2.2 } }) s)
  match r.2.1 with
  | .more => t
  | .bad => ringHalt false n (g.cons + BitVec.ofNat 16 l.length) t
  | .dry => dropPart n true t
  | .done =>
    let u := withHrx n (fun g => { g with cur := none }) t
    if l.isEmpty then u else completeRx n p.frame l (if p.frame.authFail then writeBufs l true u else u)

/-- HRX_FRAME_DELIVER: the frame in progress goes on, or the first frame on its way to the ring begins: dropped where the ring is
disabled, halted or has no posted buffer. -/
def deliverFrame (n : Nat) (descs : List (List Byte)) (s : State) : State :=
  let g := vget s.rings.hrx n
  match g.cur, vget s.rings.rxq n with
  | some p, _ => fillPart n p descs s
  | none, [] => s
  | none, f :: rest =>
    let t : State := { s with rings := { s.rings with rxq := vset s.rings.rxq n rest } }
    if !g.en || g.halted || g.prod == g.cons then ringDrop n false f t
    else fillPart n { frame := f, filled := [], left := f.bytes } descs t

def execHrxFrameDeliver (n : Fin 64) (descs : List (List Byte)) (s : State) : Host.Outcome State Fault Refusal :=
  whenLive s (deliverFrame n descs)

end Sys2Proof.Machine
end

