-- ==== Sys2Proof/Machine/HostIf.lean ====
section
/-!
DEFINITION. Mailbox doorbells, completion queues, the event ring and MSI-X (spec/02_host_mailboxes.md).
-/
namespace Sys2Proof.Machine
open Sys2Proof

/-- Offset of a mailbox's MBX_CMD area in BAR0 (Table 2.2, Table 2.8). -/
def mbxBase (m : Nat) : Nat := 0x10000 + m * 0x1000

/-- The next command count of a mailbox (R40): 0x1FFF_FFFF is followed by 1. -/
def nextCount (n : Nat) : Nat := if n + 1 ≥ 2 ^ 29 then 1 else n + 1

/-- A handle: mailbox number and count (Table 2.10). -/
def mkHandle (m n : Nat) : Word := BitVec.ofNat 32 (m * 2 ^ 29 + n % 2 ^ 29)

/-- Why a doorbell is refused: the first of NOT_READY 2, BAD_CQ 3 and FULL 1; 0 where it is taken (R39, Table 2.11). -/
def doorbellCause (m : Nat) (s : State) : Nat :=
  let cq := (memByte s.bar (mbxBase m + 5)).toNat
  if s.life.fwState ≠ .running then 2
  else if cq ≥ 8 || !(vget s.host.cq cq).en then 3
  else if outstanding m s ≥ 256 then 1
  else 0

/-- A GO write (R38, R39, R40): the mailbox hardware copies MBX_CMD into the queue and answers the handle, or refuses with
the refusal handle. -/
def doorbell (m : Nat) (s : State) : State :=
  let cause := doorbellCause m s
  if cause ≠ 0 then withMbx m (fun b => { b with refuse := cause, status := mkHandle m 0 }) s
  else
    let n := nextCount (vget s.host.mbx m).count
    let r : CmdRec := { handle := mkHandle m n, hdr := memRead s.bar (mbxBase m) 16,
                        params := memRead s.bar (mbxBase m + 16) 240, at_ := s.now, phase := .queued }
    withMbx m (fun b => { b with count := n, refuse := 0, status := mkHandle m n, cmds := b.cmds ++ [r] }) s

def execMbxDoorbell (m : Fin 8) (s : State) : Host.Outcome State Fault Refusal := whenLive s (doorbell m)

/-- COMPLETION_WRITE (R46, R47): the first waiting completion whose turn has come is written where its queue is enabled and has
room; one that
first has to wait for space sets FULL and raises CQ_FULL. -/
def completionWrite (n : Nat) (s : State) : State :=
  if cqRoom (vget s.host.cq n) then writeNext n s else noteFull n s

/-- CQ_HEAD_WRITE (R47): space returns, and completions that waited for space are written in order. -/
def cqHeadWrite (n : Nat) (h : BitVec 16) (s : State) : State :=
  let t := withCq n (fun w => { w with head := h }) s
  if (vget t.host.cq n).full then drainCq n t else t

/-- CQ_ENABLE (R50, Table 2.13): a reserved size leaves EN at 0; else TAIL is 0 and waiting completions are written. -/
def cqEnable (n : Nat) (s : State) : State :=
  let q := vget s.host.cq n
  if q.sizeLog < 4 || q.sizeLog > 12 || q.en then s
  else noteFull n (drainCq n (withCq n (fun w => { w with en := true, tail := 0 }) s))

/-- CQ_DISABLE (R48, R50): completions wait until the queue is enabled again. -/
def execCqDisable (q : Fin 8) (s : State) : Host.Outcome State Fault Refusal :=
  whenLive s (withCq q fun w => { w with en := false })

/-- EVENT_RAISE (R49, R51). -/
def execEventRaise (name : EvName) (inst : BitVec 16) (data : List Byte) (s : State) : Host.Outcome State Fault Refusal :=
  whenLive s (raise name inst.toNat data)

/-- EVENT_WRITE (R49): held events are written once space returns. -/
def execEventWrite (s : State) : Host.Outcome State Fault Refusal := whenLive s flushHeld

/-- EVT_HEAD_WRITE (R49). -/
def execEvtHeadWrite (head : BitVec 16) (s : State) : Host.Outcome State Fault Refusal :=
  whenLive s fun s => flushHeld (withEvt (fun w => { w with head := head }) s)

/-- EVT_ENABLE (R50, Table 2.15). -/
def evtEnable (s : State) : State :=
  let v := s.host.evt
  if v.sizeLog < 4 || v.sizeLog > 12 || v.en then s
  else flushHeld (withEvt (fun w => { w with en := true, tail := 0 }) s)

def execEvtEnable (s : State) : Host.Outcome State Fault Refusal := whenLive s evtEnable

/-- EVT_DISABLE (R50). -/
def execEvtDisable (s : State) : Host.Outcome State Fault Refusal := whenLive s (withEvt fun w => { w with en := false })

/-- EVT_LOST_READ and EVT_FILTERED_READ (R5): a completed host read clears the count. -/
def execEvtLostRead (s : State) : Host.Outcome State Fault Refusal := whenLive s (withEvt fun w => { w with lost := 0 })

def execEvtFilteredRead (s : State) : Host.Outcome State Fault Refusal := whenLive s (withEvt fun w => { w with filtered := 0 })

/-- Builmin has started, so that it serves the watchdog (R44, R75): STARTING or RUNNING. In BIVOUAC the watchdog is stopped (R471). -/
def watchdogRuns (s : State) : Bool := s.life.fwState == .running || s.life.fwState == .starting

/-- WATCHDOG_EXPIRY (R44): FAULT; every outstanding command of every mailbox ends with HW_FAULT and no data, replacing what
was built and waits, in handle order per mailbox; FW_FAULT. -/
def watchdogExpiry (s : State) : State :=
  if !watchdogRuns s then s
  else
    let t := withLife (fun l => { l with fwState := .fault, faultAt := s.now }) s
    raise .fwFault 0 [] (rewriteWaiting .hwFault ((List.range 8).foldl (fun u m => endMailbox .hwFault m u) t))

def execWatchdogExpiry (s : State) : Host.Outcome State Fault Refusal := whenLive s watchdogExpiry

/-- COALESCE_TIMEOUT (R52): COAL_TIME after the first unsignalled entry of an enabled source its message is sent. -/
def coalesceTimeout (src : Nat) (s : State) : State :=
  if vget s.host.unsig src = 0 ∨ routeCount s src = 0 then s
  else sendMsix (routeVector s src) (clearUnsig src s)

def execCoalesceTimeout (src : Fin 137) (s : State) : Host.Outcome State Fault Refusal := whenLive s (coalesceTimeout src)

/-- The link may go where the operand says: to L0 with the reference present (R19), to L1 from L0 with ASPM L1 enabled or in D3hot
(Table 2.1), to recovery at any time. -/
def linkAllowed (k : PcieLink) (s : State) : Bool :=
  match k with
  | .l0 _ _ => !s.glb.refLost
  | .l1 => (match s.host.link with | .l0 _ _ => true | _ => false) && (s.host.pcie.aspmL1 || s.host.pcie.d3hot)
  | .recovery => true

/-- MSIX_DEFERRED_SEND (R470): the link leaves L0, or is back in L0 at a rate and width, and what waits leaves in issue order. A
message whose vector was masked meanwhile sets its pending bit. -/
def linkGoes (k : PcieLink) (s : State) : State :=
  if linkAllowed k s then flushTx (withHost (fun h => { h with link := k }) s) else s

def execMsixDeferredSend (k : PcieLink) (s : State) : Host.Outcome State Fault Refusal := whenLive s (linkGoes k)

/-- A vector's pending message is sent where MSI-X is enabled and the vector unmasked (R470). -/
def sendPending (s : State) (v : Nat) : State :=
  if s.host.pba.getLsbD v && s.host.msixEn && !vecMasked s v then
    sendMsix v (withHost (fun h => { h with pba := h.pba &&& ~~~(1#64 <<< v) }) s)
  else s

/-- MSIX_UNMASK (R470): the host clears a vector's mask bit; a pending message is sent. -/
def msixUnmask (v : Nat) (s : State) : State :=
  sendPending (withHost (fun h => { h with msixTbl := vmod h.msixTbl (4 * v + 3) (· &&& ~~~1#32) }) s) v

def execMsixUnmask (v : Fin 64) (s : State) : Host.Outcome State Fault Refusal := whenLive s (msixUnmask v)

end Sys2Proof.Machine
end

