-- ==== Sys2Proof/Machine/Reset.lean ====
section
/-!
DEFINITION. Resets and the wipe (R36, R63 to R70), the life cycle (R71 to R74), loading Builmin (R75, R76).
-/
namespace Sys2Proof.Machine
open Sys2Proof

/-- Bits of GLB_RESET_CAUSE (Table 2.6). -/
def causePowerOn : BitVec 9 := 1#9
def causePerst : BitVec 9 := 2#9
def causeHot : BitVec 9 := 4#9
def causeFlr : BitVec 9 := 8#9
def causeWatchdog : BitVec 9 := 16#9
def causeLifeCycle : BitVec 9 := 32#9
def causeThermal : BitVec 9 := 64#9
def causeHostCmd : BitVec 9 := 128#9
def causeRefLoss : BitVec 9 := 256#9

/-- Fuses cut short in programming hold the old state or the new one (R73): which is a free value. R73 speaks of power failure; that
any other reset cuts programming short in the same way is the model's choice (DESIGN CHOICE, log 88). -/
def settleFuses (s : State) : State :=
  match s.life.fuseTarget with
  | none => s
  | some n =>
    let p := draw 1 s
    withLife (fun l => { l with lcState := if p.1 = 1#1 then n else l.lcState, fuseTarget := none }) p.2

/-- The pins of a coexistence input keep their level through a reset. -/
def keepPins (a b : Vector RadioFe 3) : Vector RadioFe 3 :=
  Vector.ofFn fun i => { a[i] with req := b[i].req, pri := b[i].pri }

/-- The wipe (R65, R66): everything outside the battery domain is at its reset value and a wipe runs, but for what
Table 3.3 keeps (`link`: the MSI-X table, PBA and enable), GLB_RESET_CAUSE, the fuses, the sensor's hold, the pins, and
BIVOUAC_N and WAKE_OUT until the wipe ends. The challenge and the router's
hash key (R359), and the rope epoch (R289), are fresh random values. -/
def wipe (link : Bool) (s0 : State) : State :=
  let s := settleFuses s0
  let p := draw 64 s
  let k := draw 320 p.2
  let ep := draw 32 k.2
  let t := ep.2
  { State.reset with
    pending := t.pending, now := t.now, free := t.free, out := t.out, rtc := t.rtc
    glb := { State.reset.glb with resetCause := t.glb.resetCause, refLost := t.glb.refLost, thermalWarn := t.glb.thermalWarn,
                                  serial := t.glb.serial }
    life := { State.reset.life with perstN := t.life.perstN, mainUp := t.life.mainUp, aonUp := t.life.aonUp,
                                    lcState := t.life.lcState, thermalHold := t.life.thermalHold,
                                    bivouacN := t.life.bivouacN, wakeOut := t.life.wakeOut, challenge := p.1 }
    fe := keepPins State.reset.fe t.fe
    rope := { State.reset.rope with epoch := ep.1.toNat }
    router := { State.reset.router with hashKey := le 40 k.1.toNat }
    hl := State.reset.hl.map fun h => { h with goodAt := t.now }
    host := if link then { State.reset.host with msixEn := t.host.msixEn, msixTbl := t.host.msixTbl, pba := t.host.pba,
                                                 pcie := t.host.pcie, link := t.host.link, deferred := t.host.deferred }
            else { State.reset.host with link := if t.glb.refLost then .recovery else State.reset.host.link } }

/-- A reset other than a power-on adds its cause (R36). -/
def resetWith (cause : BitVec 9) (link : Bool) (s : State) : State :=
  withGlb (fun g => { g with resetCause := g.resetCause ||| cause }) (wipe link s)

/-- An internal reset (R68): link and MSI-X are kept, and a vector-0 message is due at the end of the wipe. -/
def internalReset (cause : BitVec 9) (s : State) : State :=
  withLife (fun l => { l with msgVec0 := true }) (resetWith cause true s)

/-- The device has power and is out of PERST. -/
def powered (s : State) : Bool := s.life.mainUp && s.life.aonUp && s.life.perstN

/-- POWER_ON_RESET (R36, R61, R65): the supplies rise with PERST_N held low; POWER_ON alone is set. -/
def powerOnReset (s : State) : State :=
  let t := wipe false s
  { t with
    glb := { t.glb with resetCause := causePowerOn }
    life := { t.life with mainUp := true, aonUp := true, perstN := false,
                          bivouacN := if s.life.aonUp then s.life.bivouacN else true,
                          wakeOut := s.life.aonUp && s.life.wakeOut,
                          thermalHold := s.life.aonUp && s.life.thermalHold } }

def execPowerOnReset (s : State) : Host.Outcome State Fault Refusal := .next (powerOnReset s)

/-- PERST_ASSERT (R36, R66): PERST_N falls while the supplies are up. -/
def perstAssert (s : State) : State :=
  if !powered s then s
  else withLife (fun l => { l with perstN := false }) (resetWith causePerst false s)

def execPerstAssert (s : State) : Host.Outcome State Fault Refusal := .next (perstAssert s)

/-- PERST_RELEASE (R63, Table 3.2): the wipe begins. -/
def execPerstRelease (s : State) : Host.Outcome State Fault Refusal :=
  .next (if s.life.mainUp && s.life.aonUp then withLife (fun l => { l with perstN := true }) s else s)

/-- HOT_RESET (Table 3.3, R36, R19): REF_LOSS as well where it follows loss of the reference. -/
def hotReset (s : State) : State :=
  if !powered s then s
  else resetWith (if s.life.refDrop then causeHot ||| causeRefLoss else causeHot) false s

def execHotReset (s : State) : Host.Outcome State Fault Refusal := .next (hotReset s)

/-- FLR (Table 3.3): the link is kept, function registers and MSI-X are reset. What the PCI Express base specification keeps in an FLR
stays: Max_Payload_Size, ASPM control and AER's status (PRESUMED, log 12). -/
def flr (s : State) : State :=
  let t := resetWith causeFlr false s
  let p := s.host.pcie
  withHost (fun h => { h with link := s.host.link, pcie := { h.pcie with mps := p.mps, aspmL1 := p.aspmL1, aerUr := p.aerUr } }) t

def execFlr (s : State) : Host.Outcome State Fault Refusal := .next (if powered s then flr s else s)

/-- A write of LC_CTRL with the right KEY and SYS_RESET set (R68, Table 3.5). -/
def sysReset (v : Nat) (s : State) : State :=
  if bits v 16 16 = 0x7340 ∧ bit v 1 = true then internalReset causeHostCmd s else s

def execSysReset (value : Word) (s : State) : Host.Outcome State Fault Refusal := whenLive s (sysReset value.toNat)

/-- LC_WDT.DELAY in ticks of 2 ns: units of 100 ms, 0 acting as 1 (R70). -/
def wdtDelay (s : State) : Nat := max 1 (bits s.life.lcWdt.toNat 0 8) * 50000000

/-- WDT_AUTO_RESET (R70): FAULT has lasted DELAY with AUTO_RESET set. -/
def wdtAutoReset (s : State) : State :=
  if s.life.fwState = .fault ∧ bit s.life.lcWdt.toNat 8 = true ∧ s.life.faultAt + wdtDelay s ≤ s.now then internalReset causeWatchdog s else s

def execWdtAutoReset (s : State) : Host.Outcome State Fault Refusal := whenLive s wdtAutoReset

/-- THERMAL_HOLD_CLEAR (R69): the sensor reads below 100 degrees. -/
def execThermalHoldClear (s : State) : Host.Outcome State Fault Refusal :=
  .next (withGlb (fun g => { g with thermalWarn := false }) (withLife (fun l => { l with thermalHold := false }) s))

/-- THERMAL_WARN (Table 2.4, Table 2.17): Tj rises through 105 degrees, or `high` false: falls below it again. -/
def execThermalWarn (high : Bool) (s : State) : Host.Outcome State Fault Refusal :=
  whenLive s fun s =>
    if high && !s.glb.thermalWarn then raise .thermalWarn 0 [] (withGlb (fun g => { g with thermalWarn := true }) s)
    else withGlb (fun g => { g with thermalWarn := high }) s

/-- WIPE_END (R65, R68, R81, R64): FW_STATE is EMPTY and the window open; BIVOUAC_N and WAKE_OUT are released; after an
internal reset the vector-0 message is sent where MSI-X is enabled and the vector unmasked, and pends where it is masked (R470; DEDUCED,
log 88: R68 names the unmasked case only). -/
def wipeEnd (s : State) : State :=
  if !s.life.wipeBusy || !powered s then s
  else
    let u := withLife (fun l => { l with wipeBusy := false, msgVec0 := false, bivouacN := true, wakeOut := false }) s
    -- The Gleaner's passes start (R444).
    let t := { u with rel := { u.rel with passes := Vector.replicate 18 { began := s.now } } }
    if s.life.msgVec0 then sendMsix 0 t else t

def execWipeEnd (s : State) : Host.Outcome State Fault Refusal := .next (wipeEnd s)

/-! Life cycle. -/

/-- Offset of LC_TOKEN in BAR0 (Table 3.5). -/
def tokenBase : Nat := 0x203200

/-- Table 3.4. -/
def lcAllowed (s t : Nat) : Bool :=
  match s, t with
  | 0, 1 | 0, 2 | 1, 2 | 1, 3 | 2, 3 => true
  | _, _ => false

/-- The token check in the order of Table 3.8: 0 where it passes. -/
def tokenCheck (s : State) (k : List Byte) : Nat :=
  if slice k 0 4 ≠ [0x4C, 0x43, 0x54, 0x4B] ∨
      (zeros k 5 3 && zeros k 24 40 && zeros k 161 15 && zeros k 272 240) = false then 2
  else if slice k 8 8 ≠ le 8 s.glb.serial.toNat then 3
  else if slice k 16 8 ≠ le 8 s.life.challenge.toNat then 4
  else if !lcAllowed s.life.lcState (u8 k 4) then 5
  else if Config.sha384 (slice k 64 97) ≠ Config.lcKeyHash then 6
  else if !Config.ecdsaVerify (slice k 64 97) (slice k 176 96) (slice k 0 176) then 7
  else 0

/-- FUSE_PROGRAM_DONE (R72): the fuses hold the new state and the device resets with cause LIFE_CYCLE. -/
def fuseDone (s : State) : State :=
  match s.life.fuseTarget with
  | none => s
  | some n => internalReset causeLifeCycle (withLife (fun l => { l with lcState := n, fuseTarget := none }) s)

def execFuseProgramDone (s : State) : Host.Outcome State Fault Refusal := whenLive s fuseDone

/-! Loading Builmin. -/

/-- The window is open (R75). -/
def windowOpen (s : State) : Bool := live s && (s.life.fwState == .empty || s.life.fwState == .rejected)

/-- The header checks of Table 3.11, codes 2 to 6 in order: 0 where all pass. -/
def headerCheck (s : State) (h : List Byte) : Nat :=
  if slice h 0 4 ≠ [0x42, 0x55, 0x4C, 0x4D] ∨
      (bits (u8 h 7) 4 4 == 0 && zeros h 20 44 && zeros h 161 15 && zeros h 272 240) = false then 2
  else if u32 h 8 < 64 ∨ u32 h 8 > 6290944 ∨ u32 h 8 % 64 ≠ 0 ∨ u32 h 12 % 4 ≠ 0 ∨ u32 h 12 ≥ u32 h 8 then 3
  else if u8 h 4 ≠ 4 ∨ u8 h 5 ≠ 2 ∨ u8 h 6 ≠ 0xB0 then 4
  else if !bit (u8 h 7) s.life.lcState then 5
  else if Config.sha384 (slice h 64 97) ≠ Config.fwKeyHash then 6
  else 0

/-- FWL_START (R69, R75): refused with 0x08, rejected by a header check, or VERIFYING with the window closed. -/
def fwlStart (s : State) : State :=
  if s.life.thermalHold || !windowOpen s then withLife (fun l => { l with fwlResult := 8 }) s
  else
    let code := headerCheck s (memRead s.mpRam 0 512)
    if code ≠ 0 then withLife (fun l => { l with fwlResult := code, fwState := .rejected }) s
    else withLife (fun l => { l with fwState := .verifying }) s

def execFwlStart (s : State) : Host.Outcome State Fault Refusal := whenLive s fwlStart

/-- IMAGE_VERIFIED (R75): the signature over header bytes 0 to 175 and the body decides. -/
def imageVerified (s : State) : State :=
  if s.life.fwState ≠ .verifying then s
  else
    let h := memRead s.mpRam 0 512
    if Config.ecdsaVerify (slice h 64 97) (slice h 176 96) (slice h 0 176 ++ memRead s.mpRam 512 (u32 h 8)) then
      withLife (fun l => { l with fwState := .starting, fwlResult := 1, build := BitVec.ofNat 32 (u32 h 16) }) s
    else withLife (fun l => { l with fwState := .rejected, fwlResult := 7 }) s

def execImageVerified (s : State) : Host.Outcome State Fault Refusal := whenLive s imageVerified

/-- FW_READY (R62, R75): RUNNING, FW_READY is raised, and the first AVSBus request is made, planned as R17 says from what the canaries
ask for. -/
def fwReady (s : State) : State :=
  if s.life.fwState ≠ .starting then s
  else
    let d := draw 10 (raise .fwReady 0 [] (withLife (fun l => { l with fwState := .running, runningAt := s.now }) s))
    canaryReplan d.1.toNat d.2

def execFwReady (s : State) : Host.Outcome State Fault Refusal := whenLive s fwReady

end Sys2Proof.Machine
end

