-- ==== Sys2Proof/Machine/RouterCmd.lean ====
section
/-!
DEFINITION. The router's commands (Table 14.14).
-/
namespace Sys2Proof.Machine
open Sys2Proof

def ringOrNone (v : Nat) : Bool := v ≤ 63 || v == 0xFF
def ringOpt (v : Nat) : Option Nat := if v = 0xFF then none else some v

/-! ROUTER_SET_PARAMS. -/

def rtParamsOk (p : List Byte) : Bool :=
  ringOrNone (u8 p 2) && ringOrNone (u8 p 3) && (10 ≤ u32 p 4 && u32 p 4 ≤ 1000000) && u8 p 8 ≤ 1 && zeros p 9 3

def routerSetParamsForm : Form := inlineForm 0x0900 12 0 rtParamsOk

def routerSetParamsRun : Cmd → State → Effect := fun c s =>
    let p := c.params
    okay (withRouter (fun x => { x with
      vxlan := u16 p 0, controlRing := ringOpt (u8 p 2), excRing := ringOpt (u8 p 3), fdbAge := u32 p 4, gre := bit (u8 p 8) 0 }) s)

def execRouterSetParams (m : Fin 8) (buf : List Byte) (s : State) : Host.Outcome State Fault Refusal :=
  command routerSetParamsForm m buf s routerSetParamsRun

/-! Results (Tables 14.6, 14.7). -/

/-- TARGET of an action is in range. -/
def targetOk (a t : Nat) : Bool :=
  match a with
  | 1 => t ≤ 7 | 2 => t ≤ 1023 | 3 => t ≤ 191 | 4 => t ≤ 63 | 5 => t ≤ 15 | 8 => t ≤ 15 | 9 => t ≤ 63
  | _ => t == 0

/-- A result as written; RING_GROUP stands in the flow table only. -/
def resultOk (flow : Bool) (r : List Byte) : Bool :=
  u8 r 0 ≤ 9 && (flow || u8 r 0 != 5) && u8 r 1 ≤ 7 && targetOk (u8 r 0) (u16 r 2) && (u8 r 4 ≤ 7 || u8 r 4 == 0xFF) && u8 r 5 ≤ 63 &&
    u8 r 6 ≤ 7 && zeros r 7 9

/-! Flows (R348). -/

/-- Reserved fields of the flow key are 0. -/
def flowKeyOk (k : List Byte) : Bool := u8 k 0 ≤ 1 && zeros k 2 2 && zeros k 44 4

/-- ROUTER_SET_FLOW. Above 14,745 entries an insert may complete with NO_RESOURCE: whether it does is a free value; at 16,384 it does. -/
def setFlowRun (c : Cmd) (s : State) : Effect :=
  let p := c.params
  let e : Flow := { idle := u16 p 0, key := slice p 8 48, result := slice p 56 16, hitAt := s.now }
  match flowFind e.key s with
  | some (i, old) =>
    let t := withRouter (fun x => { x with flows := kset x.flows i { old with idle := e.idle, result := e.result, hitAt := s.now } }) s
    let u := if old.result.take 4 = e.result.take 4 then t else entryInitial i (entryGone i t)
    .complete .ok (le 2 i ++ [1, 0]) u
  | none =>
    let n := s.router.flows.length
    let full := draw 1 s
    let s1 := if n < 14745 then s else full.2
    if n ≥ 16384 || (n ≥ 14745 && full.1 == 1#1) then .complete .noResource [] s1
    else
      -- The device chooses the index of a new entry: any free one.
      let d := draw 14 s1
      let start := d.1.toNat
      let i := (((List.range 16384).map fun j => (start + j) % 16384).find? fun j => !khas s.router.flows j).getD 0
      .complete .ok (le 2 i ++ [0, 0]) (entryInitial i (withRouter (fun x => { x with flows := kset x.flows i e }) d.2))

def routerSetFlowForm : Form := indirectForm 0x0901 72 4 fun p => zeros p 2 6 && flowKeyOk (slice p 8 48) && resultOk true (slice p 56 16)

def execRouterSetFlow (m : Fin 8) (buf : List Byte) (s : State) : Host.Outcome State Fault Refusal :=
  command routerSetFlowForm m buf s setFlowRun

def routerDelFlowForm : Form := inlineForm 0x0902 4 16 fun p => zeros p 2 2

def routerDelFlowRun : Cmd → State → Effect := fun c s =>
    match kget s.router.flows (u16 c.params 0) with
    | some f => .complete .ok (le 8 f.packets ++ le 8 f.bytes) (flowRemove (u16 c.params 0) s)
    | none => .fail .badParam

def execRouterDelFlow (m : Fin 8) (buf : List Byte) (s : State) : Host.Outcome State Fault Refusal :=
  command routerDelFlowForm m buf s routerDelFlowRun

/-- The placement of an entry: its port or its ring. -/
def entryPlaced (i : Nat) (s : State) : Option Nat :=
  match placeOf 2 i s, placeOf 4 i s with
  | some p, _ => some p.value
  | none, some p => some p.value
  | none, none => none

def routerGetFlowForm : Form := indirectForm 0x0903 4 96 fun p => u16 p 0 ≤ 16383 && zeros p 2 2

def routerGetFlowRun : Cmd → State → Effect := fun c s =>
    match kget s.router.flows (u16 c.params 0) with
    | none => answer [] s
    | some f =>
      let pl := entryPlaced (u16 c.params 0) s
      answer (f.key ++ f.result ++ le 8 f.packets ++ le 8 f.bytes ++ le 4 (min ((s.now - f.hitAt) / 500000000) (2 ^ 32 - 1)) ++ le 2 f.idle ++
        [byte (put pl.isSome 0), byte (pl.getD 0)] ++ pad 8 []) s

def execRouterGetFlow (m : Fin 8) (buf : List Byte) (s : State) : Host.Outcome State Fault Refusal :=
  command routerGetFlowForm m buf s routerGetFlowRun

/-! Rules (R347). -/

def routerSetRuleForm : Form :=
  indirectForm 0x0904 148 0 fun p => u16 p 0 ≤ 1023 && u8 p 2 ≤ 3 && u8 p 3 == 0 && resultOk false (slice p 132 16)

def routerSetRuleRun : Cmd → State → Effect := fun c s =>
      let p := c.params
      let old := (kget s.router.rules (u16 p 0)).getD {}
      okay (withRel (fun x => { x with badRows := x.badRows.filter (· != u16 p 0) }) (withRouter (fun x => { x with
        rules := kset x.rules (u16 p 0) { old with
          valid := bit (u8 p 2) 0, stage := bit (u8 p 2) 1, value := slice p 4 64, mask := slice p 68 64, result := slice p 132 16 } }) s))

def execRouterSetRule (m : Fin 8) (buf : List Byte) (s : State) : Host.Outcome State Fault Refusal :=
  command routerSetRuleForm m buf s routerSetRuleRun

def ruleData (r : Rule) : List Byte :=
  [byte (put r.valid 0 + put r.stage 1), 0, 0, 0] ++ pad 64 r.value ++ pad 64 r.mask ++ pad 16 r.result ++ zeros4 ++ le 8 r.hits
where zeros4 : List Byte := pad 4 []

def routerGetRuleForm : Form := indirectForm 0x0910 4 160 fun p => u16 p 0 ≤ 1023 && zeros p 2 2

def routerGetRuleRun : Cmd → State → Effect := fun c s =>
    answer (ruleData ((kget s.router.rules (u16 c.params 0)).getD {})) s

def execRouterGetRule (m : Fin 8) (buf : List Byte) (s : State) : Host.Outcome State Fault Refusal :=
  command routerGetRuleForm m buf s routerGetRuleRun

/-! Routes and neighbours (R354, R356). -/

/-- Prefix bytes in use, and bits beyond the length 0. -/
def prefixOk (v6 : Bool) (len : Nat) (p : List Byte) : Bool :=
  let w := if v6 then 128 else 32
  len ≤ w && (v6 || zeros p 4 12) && beNat (slice p 0 (w / 8)) % 2 ^ (w - len) == 0

def routeOk (p : List Byte) : Bool :=
  u8 p 0 ≤ 3 && u8 p 1 ≤ 15 && u8 p 3 ≤ 3 && zeros p 6 2 && prefixOk (bit (u8 p 0) 0) (u8 p 2) (slice p 8 16) &&
    (match u8 p 3 with | 1 => u16 p 4 ≤ 63 | 2 => u16 p 4 ≤ 4095 | _ => true)

def setRouteRun (c : Cmd) (s : State) : Effect :=
  let p := c.params
  let v6 := bit (u8 p 0) 0
  let r : Route := { v6 := v6, table := u8 p 1, len := u8 p 2, prefix_ := slice p 8 (if v6 then 16 else 4), kind := u8 p 3, arg := u16 p 4 }
  let same (q : Route) : Bool := q.v6 == v6 && q.table == r.table && q.len == r.len && q.prefix_ == r.prefix_
  let rest := s.router.routes.filter fun q => !same q
  if bit (u8 p 0) 1 then
    if s.router.routes.any same then okay (withRouter (fun x => { x with routes := rest }) s) else .fail .badParam
  else if (rest.filter (·.v6 == v6)).length ≥ (if v6 then 2048 else 4096) then .fail .noResource
  else okay (withRouter (fun x => { x with routes := rest ++ [r] }) s)

def routerSetRouteForm : Form := indirectForm 0x0905 24 0 routeOk

def execRouterSetRoute (m : Fin 8) (buf : List Byte) (s : State) : Host.Outcome State Fault Refusal :=
  command routerSetRouteForm m buf s setRouteRun

/-- ROUTER_SET_NEIGH: two valid entries with one domain and address are refused. -/
def setNeighRun (c : Cmd) (s : State) : Effect :=
  let p := c.params
  let v6 := bit (u8 p 2) 1
  let n : Neigh := { valid := bit (u8 p 2) 0, v6 := v6, domain := u8 p 3, mac := slice p 4 6, addr := slice p 12 (if v6 then 16 else 4) }
  let clash := n.valid && s.router.neigh.any fun q => q.1 != u16 p 0 && q.2.valid && q.2.domain == n.domain && q.2.v6 == v6 && q.2.addr == n.addr
  if clash then .fail .badParam else okay (withRouter (fun x => { x with neigh := kset x.neigh (u16 p 0) n }) s)

def routerSetNeighForm : Form :=
  indirectForm 0x0906 28 0 fun p => u16 p 0 ≤ 4095 && u8 p 2 ≤ 3 && u8 p 3 ≤ 63 && zeros p 10 2 && (bit (u8 p 2) 1 || zeros p 16 12)

def execRouterSetNeigh (m : Fin 8) (buf : List Byte) (s : State) : Host.Outcome State Fault Refusal :=
  command routerSetNeighForm m buf s setNeighRun

/-! FDB (R352). -/

def setFdbOk (p : List Byte) : Bool :=
  u8 p 0 ≤ 63 && u8 p 1 ≤ 1 && u8 p 8 ≤ 4 && u8 p 9 == 0 &&
    (match u8 p 8 with | 2 => u16 p 10 ≤ 1023 | 3 => u16 p 10 ≤ 63 | _ => true)

/-- ROUTER_SET_FDB: a host entry, in place of any entry of its address. -/
def setFdbRun (c : Cmd) (s : State) : Effect :=
  let p := c.params
  let mac := slice p 2 6
  if !bit (u8 p 1) 0 then okay (fdbDel (u8 p 0) mac s)
  else if (fdbGet (u8 p 0) mac s).isNone && s.router.fdb.length ≥ 8192 then .fail .noResource
  else okay (fdbPut { domain := u8 p 0, mac := mac, kind := 1, target := u8 p 8, index := u16 p 10 } s)

def routerSetFdbForm : Form := inlineForm 0x0907 12 0 setFdbOk

def execRouterSetFdb (m : Fin 8) (buf : List Byte) (s : State) : Host.Outcome State Fault Refusal :=
  command routerSetFdbForm m buf s setFdbRun

/-- ROUTER_FLUSH_FDB: learned entries, and host entries where asked; station entries stay. -/
def routerFlushFdbForm : Form := inlineForm 0x0908 4 4 fun p => (u8 p 0 ≤ 63 || u8 p 0 == 0xFF) && u8 p 1 ≤ 1 && zeros p 2 2

def routerFlushFdbRun : Cmd → State → Effect := fun c s =>
    let d := u8 c.params 0
    let goes (e : Fdb) : Bool := (d == 0xFF || e.domain == d) && (e.kind == 2 || (e.kind == 1 && bit (u8 c.params 1) 0))
    .complete .ok (le 4 (s.router.fdb.filter goes).length) (withRouter (fun x => { x with fdb := x.fdb.filter fun e => !goes e }) s)

def execRouterFlushFdb (m : Fin 8) (buf : List Byte) (s : State) : Host.Outcome State Fault Refusal :=
  command routerFlushFdbForm m buf s routerFlushFdbRun

/-! Domains (R351). -/

def vlanOk (v : Nat) : Bool := v ≤ 4094 || v == 0xFFFF
def vlanOpt (v : Nat) : Option Nat := if v = 0xFFFF then none else some v

def domainOk (p : List Byte) : Bool :=
  u8 p 0 ≤ 63 && u8 p 1 ≤ 15 && u8 p 2 ≤ 15 && ringOrNone (u8 p 3) && (576 ≤ u16 p 10 && u16 p 10 ≤ 9198) && vlanOk (u16 p 12) && vlanOk (u16 p 14) &&
    zeros p 22 2

def domainOf (p : List Byte) : Domain :=
  { en := bit (u8 p 1) 0, isolate := bit (u8 p 1) 1, missMp := bit (u8 p 1) 2, routing := bit (u8 p 1) 3, table := u8 p 2
    floodRing := ringOpt (u8 p 3), mac := slice p 4 6, mtu := u16 p 10, vlan := #v[vlanOpt (u16 p 12), vlanOpt (u16 p 14)]
    bss := leNat (slice p 16 6), htx := u64 p 24 }

/-- Two domains share a member. -/
def domainClash (a b : Domain) : Bool :=
  a.en && b.en && (Nat.land a.bss b.bss != 0 || Nat.land a.htx b.htx != 0 ||
    (List.range 2).any fun p => (vget a.vlan p).isSome && vget a.vlan p == vget b.vlan p)

/-- Station entries follow the domain of their BSS; one takes the place of a learned entry of its address. -/
def stationEntries (s : State) : State :=
  s.mac.sta.foldl (fun t p =>
    match (List.range 64).find? fun d => (vget t.router.domain d).en && ((List.range 3).any fun r => bit p.2.links r && bit (vget t.router.domain d).bss (linkBss p.2 r)) with
    | some d => if (match fdbGet d p.2.addr t with | some e => e.kind != 2 | none => t.router.fdb.length ≥ 8192) then t
                else fdbPut { domain := d, mac := p.2.addr, kind := 0, target := 2, index := p.1 } t
    | none => t) (withRouter (fun x => { x with fdb := x.fdb.filter (·.kind != 0) }) s)

def routerSetDomainForm : Form := indirectForm 0x0909 32 0 domainOk

def routerSetDomainRun : Cmd → State → Effect := fun c s =>
    let d := domainOf c.params
    if (List.range 64).any fun i => i != u8 c.params 0 && domainClash d (vget s.router.domain i) then .fail .badParam
    else okay (stationEntries (withRouter (fun x => { x with domain := vset x.domain (u8 c.params 0) d }) s))

def execRouterSetDomain (m : Fin 8) (buf : List Byte) (s : State) : Host.Outcome State Fault Refusal :=
  command routerSetDomainForm m buf s routerSetDomainRun

/-! Pairs and groups (R358). -/

def pairOk (p : List Byte) : Bool :=
  u8 p 0 ≤ 7 && u8 p 1 ≤ 3 && u8 p 2 ≤ 1 && (u8 p 1 == 0 || bit (u8 p 1) (u8 p 2)) && u8 p 3 == 0 && u16 p 4 ≤ 4094 && u16 p 6 ≤ 4094

/-- Entries that name a pair or a group. -/
def entriesOf (pair : Bool) (n : Nat) (s : State) : List Nat := (entryKeys s).filter fun k => entryTarget k s == some (pair, n)

/-- An entry of a pair whose port has left it is placed afresh. -/
def replacePair (n : Nat) (s : State) : State :=
  (entriesOf true n s).foldl (fun t k =>
    match placeOf 2 k t with
    | none => entryInitial k t
    | some p =>
      if vget (vget t.router.pair n).member p.value then t
      else match pairPort (vget t.router.pair n) t with
        | some q => place 2 8 0xFFFF k q true t
        | none => unplace 2 k t) s

def routerSetPortPairForm : Form := inlineForm 0x090A 8 0 pairOk

def routerSetPortPairRun : Cmd → State → Effect := fun c s =>
    let p := c.params
    let q : PortPair := { member := #v[bit (u8 p 1) 0, bit (u8 p 1) 1], primary := u8 p 2, vlan := #v[u16 p 4, u16 p 6] }
    okay (replacePair (u8 p 0) (withRouter (fun x => { x with pair := vset x.pair (u8 p 0) q }) s))

def execRouterSetPortPair (m : Fin 8) (buf : List Byte) (s : State) : Host.Outcome State Fault Refusal :=
  command routerSetPortPairForm m buf s routerSetPortPairRun

/-- Entries on a ring that has left their group are placed afresh, with reason OBJECT_GONE; none left unplaces them. -/
def replaceGroup (n : Nat) (s : State) : State :=
  (entriesOf false n s).foldl (fun t k =>
    match placeOf 4 k t with
    | none => entryInitial k t
    | some p =>
      if bit (vget t.router.group n) p.value || (pinnedRing k t).isSome then t
      else match homeRing k n t with
        | some q => place 4 8 0xFFFF k q true t
        | none => unplace 4 k t) s

def routerSetRingGroupForm : Form := inlineForm 0x090B 16 0 fun p => u8 p 0 ≤ 15 && zeros p 1 7

def routerSetRingGroupRun : Cmd → State → Effect := fun c s =>
    okay (replaceGroup (u8 c.params 0) (withRouter (fun x => { x with group := vset x.group (u8 c.params 0) (u64 c.params 8) }) s))

def execRouterSetRingGroup (m : Fin 8) (buf : List Byte) (s : State) : Host.Outcome State Fault Refusal :=
  command routerSetRingGroupForm m buf s routerSetRingGroupRun

/-! Hash and indirection (R359, R360). -/

def hashSetOk (n : Nat) : Bool := n < 0x400 && hashMax n ≤ 36

def routerSetHashForm : Form :=
  indirectForm 0x090C 64 0 fun p => (List.range 8).all (fun i => hashSetOk (u16 p (40 + 2 * i))) && u8 p 56 ≤ 1 && zeros p 57 7

def routerSetHashRun : Cmd → State → Effect := fun c s =>
      let p := c.params
      okay (withRouter (fun x => { x with
        hashKey := if bit (u8 p 56) 0 then x.hashKey else slice p 0 40
        hashSet := Vector.ofFn fun i => u16 p (40 + 2 * i.val) }) s)

def execRouterSetHash (m : Fin 8) (buf : List Byte) (s : State) : Host.Outcome State Fault Refusal :=
  command routerSetHashForm m buf s routerSetHashRun

/-- A pair's or a group's index, and 0 for the MP; reserved bits 0. -/
def indirOk (v : Nat) : Bool :=
  bits v 4 10 == 0 && (match v / 2 ^ 14 with | 0 => true | 1 => v % 16 ≤ 7 | 2 => v % 16 == 0 | _ => false)

def indirCountOk (p : List Byte) : Bool := u16 p 0 ≤ 511 && 1 ≤ u16 p 2 && u16 p 2 ≤ 512 && u16 p 0 + u16 p 2 ≤ 512

/-- One indirection entry written: with a changed target it is a new object. -/
def setIndir (i v : Nat) (s : State) : State :=
  if vget s.router.indir i = v then s
  else entryInitial (2 ^ 31 + i) (entryGone (2 ^ 31 + i) (withRouter (fun x => { x with indir := vset x.indir i v }) s))

def routerSetIndirectionForm : Form :=
  { opcode := 0x090D, indirect := true, data := fun _ => 0
    length := fun p => if 1 ≤ u16 p 2 ∧ u16 p 2 ≤ 512 then some (4 + 2 * u16 p 2) else none
    ok := fun p => indirCountOk p && (List.range (u16 p 2)).all fun i => indirOk (u16 p (4 + 2 * i)) }

def routerSetIndirectionRun : Cmd → State → Effect := fun c s =>
    okay ((List.range (u16 c.params 2)).foldl (fun t i => setIndir (u16 c.params 0 + i) (u16 c.params (4 + 2 * i)) t) s)

def execRouterSetIndirection (m : Fin 8) (buf : List Byte) (s : State) : Host.Outcome State Fault Refusal :=
  command routerSetIndirectionForm m buf s routerSetIndirectionRun

/-! Limits and counters. -/

/-- ROUTER_SET_EXC_LIMIT (R362): the tokens held are kept, up to the new BURST. -/
def setLimit (rate burst now : Nat) (b : Bucket) : Bucket :=
  let r := refill now b
  { r with rate := rate, burst := burst, parts := min r.parts (burst * tokenParts) }

def routerSetExcLimitForm : Form :=
  inlineForm 0x090E 12 0 fun p => u8 p 0 ≤ 10 && zeros p 1 3 && u32 p 4 ≤ 1000000 && 1 ≤ u16 p 8 && zeros p 10 2

def routerSetExcLimitRun : Cmd → State → Effect := fun c s =>
    let p := c.params
    let f := setLimit (u32 p 4) (u16 p 8) s.now
    okay (withRouter (fun x => if u8 p 0 = 0 then { x with total := f x.total } else { x with reason := vmod x.reason (u8 p 0 - 1) f }) s)

def execRouterSetExcLimit (m : Fin 8) (buf : List Byte) (s : State) : Host.Outcome State Fault Refusal :=
  command routerSetExcLimitForm m buf s routerSetExcLimitRun

def routerCounters (s : State) : List Byte :=
  ctrBytes s.router.ctr ++ s.router.reason.toList.flatMap fun b => le 8 b.passed ++ le 8 b.dropped

def routerGetCountersForm : Form := indirectForm 0x090F 0 360 fun _ => true

def routerGetCountersRun : Cmd → State → Effect := fun _ s => answer (routerCounters s) s

def execRouterGetCounters (m : Fin 8) (buf : List Byte) (s : State) : Host.Outcome State Fault Refusal :=
  command routerGetCountersForm m buf s routerGetCountersRun

end Sys2Proof.Machine
end

