-- ==== Sys2Proof/Machine/Stations.lean ====
section
/-!
DEFINITION. Stations come and go: MAC_ADD_STA and MAC_DEL_STA (spec/07_medium_access.md Table 7.8), with what the scheduler (R186, R206),
the Seeder (R264, R283), the router (R352), sounding (Table 10.4) and the key holds (R403) do at them.
-/
namespace Sys2Proof.Machine
open Sys2Proof

/-- The link blocks of MAC_ADD_STA, per radio. -/
def addBlock (p : List Byte) (r : Nat) : List Byte :=
  if bit (u8 p 3) r then slice p (16 + 32 * popCount r (u8 p 3)) 32 else []

/-- MAC_ADD_STA's ranges: a single-link station has one link; each link names a BSS of its radio (R184). -/
def addStaOk (p : List Byte) : Bool :=
  u16 p 0 ≤ 1023 && (u8 p 2 ≤ 15 || u8 p 2 == 0xFF) && (1 ≤ u8 p 3 && u8 p 3 ≤ 7) && (u8 p 2 != 0xFF || popCount 3 (u8 p 3) == 1) &&
    (1 ≤ u16 p 10 && u16 p 10 ≤ 2007) && zeros p 12 4 && (List.range 3).all fun r => !bit (u8 p 3) r || bssOf r (u8 (addBlock p r) 0)

/-- Stations whose AIDs come from one space with those of a BSS (R175). -/
def aidSpace (b : Nat) (s : State) : List Nat :=
  s.mac.sta.flatMap fun p => ((List.range 3).filter fun r => bit p.2.links r && tsfBss (linkBss p.2 r) s == tsfBss b s).map fun _ => p.2.aid

/-- The AID is free on every BSS of the station's links (that one in use is a BAD_PARAM is the model's choice, log 91). -/
def aidFree (p : List Byte) (s : State) : Bool :=
  (List.range 3).all fun r => !bit (u8 p 3) r || !(aidSpace (u8 (addBlock p r) 0) s).contains (u16 p 10)

/-- Each link of an MLD's station is on the MLD's BSS of that radio (R168). -/
def mldLinksOk (p : List Byte) (s : State) : Bool :=
  u8 p 2 == 0xFF || match vget s.mac.mld (u8 p 2) with
    | some x => (List.range 3).all fun r => !bit (u8 p 3) r || vget x.links r == some (u8 (addBlock p r) 0)
    | none => false

/-- The domain that a station's BSS belongs to. -/
def staDomain (x : Sta) (s : State) : Option Nat :=
  (List.range 64).find? fun d => (vget s.router.domain d).en && (List.range 3).any fun r => bit x.links r && bit (vget s.router.domain d).bss (linkBss x r)

def addStaRun (c : Cmd) (s : State) : Effect :=
  let p := c.params
  let n := u16 p 0
  let x : Sta := { mld := if u8 p 2 = 0xFF then none else some (u8 p 2), links := u8 p 3, addr := slice p 4 6, aid := u16 p 10
                   block := #v[addBlock p 0, addBlock p 1, addBlock p 2] }
  let room := match staDomain x s with
    | some d => (fdbGet d x.addr s).isSome || s.router.fdb.length < 8192
    | none => true
  if !mldLinksOk p s then .fail .badParam
  else if khas s.mac.sta n then .fail .wrongState
  else if !aidFree p s then .fail .badParam
  else if !room then .fail .noResource
  else
    let t := withMac (fun m => { m with sta := kset m.sta n x }) s
    let u := match staDomain x s with
      | some d => fdbPut { domain := d, mac := x.addr, kind := 0, target := 2, index := n } t
      | none => t
    okay (linkEvaluate n none u)

def macAddStaForm : Form :=
  { opcode := 0x0304, indirect := true, data := fun _ => 0, ok := addStaOk
    length := fun p => some (16 + 32 * popCount 3 (u8 p 3)) }

def execMacAddSta (m : Fin 8) (buf : List Byte) (s : State) : Host.Outcome State Fault Refusal :=
  command macAddStaForm m buf s addStaRun

/-- Frames of a station that furrows being built or ready claim, and received ones its reorder buffers hold. -/
def claimedOf (n : Nat) (s : State) : Nat :=
  let used (f : Option Furrow) : Nat := match f with
    | some g => ((g.users.filter fun u => u.sta == n && g.queue.isNone).map fun u => (u.frames.filter fun p => p.2.lost.isNone).length).sum
    | none => 0
  ((List.range 3).map fun r => used (vget s.sched.radio r).building + used (vget s.sched.radio r).ready).sum
def reorderOf (n : Nat) (s : State) : Nat := ((s.mac.ba.filter fun p => p.1 / 8 == n).map fun p => p.2.held.length).sum

/-- The queued MSDUs of a station go: held for a key they count KEY_HOLD_DROP (R403), else QUEUE_NO_STA (R186). -/
def dropQueued (n : Nat) (held : Bool) (s : State) : State :=
  (List.range 8).foldl (fun t i =>
    let l := tidQueue (8 * n + i) t
    let u := setTidQueue (8 * n + i) [] t
    let r := match kget s.mac.sta n with | some x => staRadio x i | none => 0
    l.foldl (fun v f => dropMsdu r n i (if held then .keyExhausted else .wrongState) f v) (if held then secCount 13 l.length u else schedCount 0 18 l.length u)) s

/-- What the MAC keeps by station goes. -/
def forgetMac (n : Nat) (m : Mac) : Mac :=
  { m with
    sta := kdel m.sta n
    baPol := m.baPol.filter (·.1 / 8 != n), ba := m.ba.filter (·.1 / 8 != n), defrag := m.defrag.filter (·.1 / 8 != n)
    dup := m.dup.filter fun p => p.1 / 8 != n && p.1 != 8192 + n
    txSn := m.txSn.filter (·.1 / 8 != n), bar := m.bar.filter (·.1 / 8 != n), twt := m.twt.filter (·.1 / 8 != n), psReq := kdel m.psReq n, txBa := m.txBa.filter (·.1 / 8 != n) }

/-- Its CSI records go, and every group it is a member of is invalid (Table 10.4). -/
def forgetBf (n : Nat) (s : State) : State :=
  (List.range 3).foldl (fun t r =>
    strikeGroups r (fun g => g.members.any fun m => m.1 == n) (withRb r (fun b => { b with sounded := kdel b.sounded n }) t))
    (withBf (fun b => { b with explicit := b.explicit.map (kdel · n), recip := b.recip.map (kdel · n) }) s)

/-- A station is deleted: the frames discarded, and the state after. -/
def delStation (n : Nat) (s : State) : Nat × State :=
  match kget s.mac.sta n with
  | none => (0, s)
  | some x =>
    let queued := ((List.range 8).map fun i => (tidQueue (8 * n + i) s).length).sum
    let t := leaveFurrows n 0xFF 1 (dropQueued n x.held s)
    let u := forgetBf n (unplaceSta n (steerLeft n t))
    let v := withSched (fun k => { k with urgent := k.urgent.filter (·.1 / 8 != n) })
      (withRouter (fun k => { k with fdb := k.fdb.filter fun e => !(e.kind == 0 && e.index == n) }) u)
    (queued + claimedOf n s + reorderOf n s, withMac (forgetMac n) (withSeed (fun k => { k with better := kdel k.better n }) v))

def macDelStaForm : Form := inlineForm 0x0305 4 4 fun p => u16 p 0 ≤ 1023 && u16 p 2 == 0

def macDelStaRun : Cmd → State → Effect := fun c s =>
    let q := delStation (u16 c.params 0) s
    .complete .ok (le 4 q.1) q.2

def execMacDelSta (m : Fin 8) (buf : List Byte) (s : State) : Host.Outcome State Fault Refusal :=
  command macDelStaForm m buf s macDelStaRun

end Sys2Proof.Machine
end

