-- ==== Sys2Proof/Machine/Reliability.lean ====
section
/-!
DEFINITION. Array codes (R442, R443, Table 19.2), the Gleaner (R444 to R447), ageing (R448, R449), the cairn record (R450, R451) and the
reliability commands (Table 19.7).
-/
namespace Sys2Proof.Machine
open Sys2Proof

/-! Uncorrectable words (Table 19.2). -/

/-- The array code of what a word holds. -/
def partCode : ArrayPart → Nat
  | .mp => 0 | .htx _ | .hrx _ _ => 1 | .rxMpdu r .. | .txPpdu r => 2 + rnum r | .station _ => 5 | .tidQueue _ | .groupQueue _ => 6
  | .bank _ _ | .cache _ => 7 | .csi .. => 8 | .packet .. => 9 | .table .. => 0x0A | .rule _ => 0x0B | .ethRx _ | .ethTx .. => 0x0C
  | .key _ => 0x0D | .place .. => 0x0E | .precoder _ => 0x0F

/-- Ring staging: a host frame completes with HW_FAULT, a receive frame counts HRX_NO_BUF. -/
def stagingLost (i : Nat) (s : State) : State :=
  match (s.router.inq)[i]? with
  | some f => if f.src = 3 then frameDone f .hwFault [] (withRouter (fun x => { x with inq := x.inq.eraseIdx i }) s) else s
  | none => s

def receiveLost (n i : Nat) (s : State) : State :=
  if i < (vget s.rings.rxq n).length then
    { s with rings := { s.rings with
        rxq := vmod s.rings.rxq n fun l => l.eraseIdx i
        hrx := vmod s.rings.hrx n fun g => { g with ctrA := g.ctrA + 1 } } }
  else s

/-- An MPDU counts as not received: the scoreboard loses it, and the reorder buffer. -/
def mpduLost (r n tid sn : Nat) (s : State) : State :=
  withMac (fun m => { m with ba := kmod m.ba (8 * n + tid) fun b => { b with held := kdel b.held sn, seen := b.seen.filter (· != sn) } })
    (withRm r (fun m => { m with agg := { m.agg with board := m.agg.board.filter (· != (n, tid, sn)) } }) s)

/-- A queue is flushed. -/
def queueLost (q : Nat) (group : Bool) (s : State) : State :=
  if group then
    let l := groupQueue q s
    dropAll .hwFault l (schedCount (bssRadio (q / 4)) 17 l.length (setGroupQueue q [] s))
  else
    let l := tidQueue q s
    let r := match kget s.mac.sta (q / 8) with | some x => staRadio x (q % 8) | none => 0
    dropAll .hwFault l (schedCount r 17 l.length (setTidQueue q [] s))

/-- A router entry is invalidated. -/
def entryLost (t : RtTab) (i : Nat) (s : State) : State :=
  match t with
  | .flow => if khas s.router.flows i then flowRemove i s else s
  | .fdb => withRouter (fun x => { x with fdb := x.fdb.eraseIdx i }) s
  | .route => withRouter (fun x => { x with routes := x.routes.eraseIdx i }) s
  | .neigh => withRouter (fun x => { x with neigh := kmod x.neigh i fun y => { y with valid := false } }) s
  | .indir => withRouter (fun x => { x with indir := vset x.indir i 0xC000 }) s

/-- A rule's VALID bit clears; the host must write it again (R443). -/
def ruleLost (i : Nat) (s : State) : State :=
  withRel (fun x => { x with badRows := x.badRows.filter (· != i) })
    (withRouter (fun x => { x with rules := kmod x.rules i fun r => { r with valid := false } }) s)

/-- A frame of a port's receive buffer, the oldest. -/
def rxBufLost (p : Nat) (s : State) : State :=
  match s.router.inq.find? fun f => f.src == 1 && f.port == p with
  | some f => portCount p 6 1 (withRouter (fun x => { x with inq := x.inq.erase f }) s)
  | none => s

/-- A frame of a port's egress queue. -/
def txBufLost (p i : Nat) (s : State) : State :=
  if i < (vget s.eth p).txQ.length then portCount p 12 1 (dropAt (.port (Fin.ofNat 2 p) i) s) else s

/-- A key slot is zeroed and unbound, and its targets are held (R403). -/
def keyLost (k : Nat) (s : State) : State :=
  if (keySlot k s).isSome then slotErase k (unbindSlot k s) else s

/-- An object is placed afresh with reason UNIT_FAULT. -/
def placeLost (domain object : Nat) (s : State) : State :=
  match domain with
  | 0 => linkRun (object % 1024) (some (5, 0xFFFF)) s
  | 6 => fixSets 5 0xFFFF true s
  | _ => match placeOf domain object s with
    | some p => place domain 5 0xFFFF object p.value true s
    | none => s

/-- The action of Table 19.2. -/
def partLost (word : Nat) (a : ArrayPart) (s : State) : State :=
  match a with
  | .mp => withLife (fun l => { l with mpStopped := true }) s
  | .htx i => stagingLost i s
  | .hrx n i => receiveLost n i s
  | .rxMpdu r n tid sn => mpduLost (rnum r) n tid sn.toNat s
  | .txPpdu r => txUnderrun (rnum r) s
  | .station n => (delStation n s).2
  | .tidQueue q => queueLost q false s
  | .groupQueue q => queueLost q true s
  | .bank l b => memoryError l b word s
  | .cache l => cacheError l word s
  | .csi r k i => csiLost r k i s
  | .packet c f => chanCount c 4 1 (dropAt f s)
  | .table t i => entryLost t i s
  | .rule i => ruleLost i s
  | .ethRx p => rxBufLost p s
  | .ethTx p i => txBufLost p i s
  | .key k => keyLost k s
  | .place d o => placeLost d o s
  | .precoder r => furrowDrop (rnum r) s

/-- An uncorrectable word (R442); a lane's own fences report theirs (R228). -/
def wordLost (word : Nat) (a : ArrayPart) (s : State) : State :=
  partLost word a (match a with | .bank .. | .cache _ => s | _ => arrayUncorr (partCode a) word s)

/-! Corrected words and weak regions (R442, R447). -/

/-- 24 h in ticks. -/
def dayTicks : Nat := 43200000000000

/-- The entry of the weak-region list with the fewest errors gives way. -/
def weakRoom (l : List WeakRegion) : List WeakRegion :=
  if l.length < 256 then l
  else match minOf (l.map (·.errs)) with
    | some m => l.eraseIdx ((l.findIdx? fun w => w.errs == m).getD 0)
    | none => l

/-- A corrected error in a 4 KiB region of 512 words. -/
def noteCorrected (a word : Nat) (s : State) : State :=
  withRel (fun x =>
    let l := (a, word / 512, s.now) :: x.errs.filter fun e => s.now < e.2.2 + dayTicks
    let n := min 255 (l.filter fun e => e.1 == a && e.2.1 == word / 512).length
    let own (w : WeakRegion) : Bool := w.array == a && w.region == word / 512
    { x with
      errs := l
      weak := if x.weak.any own then x.weak.map fun w => if own w then { w with errs := n } else w
              else if 3 ≤ n then weakRoom x.weak ++ [{ array := a, region := word / 512, errs := n }] else x.weak }) s

/-- A read that finds a single-bit error returns the corrected word and counts ARRAY_CORR. -/
def wordCorrected (a word : Nat) (s : State) : State := noteCorrected a word (relCount 2 1 s)

/-- ARRAY_WRITEBACK: words that units' own accesses meet, and the slot in which the oldest one is written back. -/
def arrayWriteback (op : WordOp) (s : State) : State :=
  match op with
  | .single a w => withRel (fun x => { x with writeback := (x.writeback.filter (· != (a.val, w))) ++ [(a.val, w)] }) (wordCorrected a w s)
  | .uncorr w l => wordLost w l s
  | .overwritten a w => withRel (fun x => { x with writeback := x.writeback.filter (· != (a.val, w)) }) s
  | .slot => withRel (fun x => { x with writeback := x.writeback.tail }) s

def execArrayWriteback (op : WordOp) (s : State) : Host.Outcome State Fault Refusal := whenLive s (arrayWriteback op)

/-! Ternary rows (R443). -/

/-- A row is rewritten from its shadow; an uncorrectable shadow word clears its rule. -/
def rowRepair (i : Nat) (shadowBad : Bool) (s : State) : State :=
  if shadowBad then ruleLost i (arrayUncorr 0x0B i s)
  else relCount 5 1 (withRel (fun x => { x with badRows := x.badRows.filter (· != i) }) s)

/-- TERNARY_REPAIR: a row that failed a lookup. -/
def execTernaryRepair (i : Fin 1024) (shadowBad : Bool) (s : State) : Host.Outcome State Fault Refusal :=
  whenLive s fun s => if s.rel.badRows.contains i.val then rowRepair i shadowBad s else s

/-! The Gleaner (R444 to R446). -/

/-- A scrub of a DRAM burst: corrected, or poisoned with no further action (R413, Table 17.3). -/
def scrubBurst (c addr cls : Nat) (e : RdErr) (s : State) : State :=
  let a := burstOf addr
  if (chan c s).state ≠ 2 then s
  else match kget (chan c s).poison a, e with
    | some b, _ => dramUncorr c a cls 0xFF b s
    | none, .clean => s
    | none, .one d => relCount 8 1 (chanCount c 2 1 (noteError c 0 a d s))
    | none, .two x y => dramUncorr c a cls x y s

/-- A word the Gleaner reads. -/
def scrub (a word : Nat) (f : ScrubFind) (s : State) : State :=
  match f with
  | .clean => s
  | .single cancelled => if a < 16 then (if cancelled then wordCorrected a word s else relCount 8 1 (wordCorrected a word s)) else s
  | .uncorr l => if partCode l = a then wordLost word l s else s
  | .row i bad => if a = 0x0B && khas s.router.rules i then rowRepair i bad s else s
  | .burst addr cls e => if 16 ≤ a then scrubBurst (a - 16) addr cls e s else s

def execGleanerAccess (a : Fin 18) (word : Nat) (find : ScrubFind) (s : State) : Host.Outcome State Fault Refusal :=
  whenLive s (scrub a word find)

/-- WEAK_REGION_SCRUB: a weak region's own scrub. -/
def execWeakRegionScrub (i : Fin 256) (word : Fin 512) (find : ScrubFind) (s : State) : Host.Outcome State Fault Refusal :=
  whenLive s fun s => match s.rel.weak[i.val]? with
    | some w => scrub w.array (512 * w.region + word) find s
    | none => s

/-- A pass of an array, or of a channel that has been initialised. -/
def passRuns (a : Nat) (s : State) : Bool := a < 16 || (chan (a - 16) s).state == 2

/-- GLEANER_PASS_END: the pass ends and the next starts, in normal mode. -/
def passEnd (a : Nat) (s : State) : State :=
  if passRuns a s then relCount 6 1 (withRel (fun x => { x with passes := vset x.passes a { began := s.now } }) s) else s

def execGleanerPassEnd (a : Fin 18) (s : State) : Host.Outcome State Fault Refusal := whenLive s (passEnd a)

/-- 60 min in ticks. -/
def hourTicks : Nat := 1800000000000

/-- GLEANER_ESCALATE: once per pass, 60 min after it started. -/
def passEscalate (a : Nat) (s : State) : State :=
  let p := vget s.rel.passes a
  if !passRuns a s || p.escalated || s.now < p.began + hourTicks then s
  else raise .gleanerEsc a [] (relCount 7 1 (withRel (fun x => { x with passes := vset x.passes a { p with escalated := true } }) s))

def execGleanerEscalate (a : Fin 18) (s : State) : Host.Outcome State Fault Refusal := whenLive s (passEscalate a)

/-! Ageing (R448, R449). -/

/-- Stress at the end of the design life, equivalent seconds. -/
def eolStress : Nat := 315576000

/-- The largest n below 2^(k + 1) with n^100 at most m. -/
def root100 (m : Nat) : (k : Nat) → (acc : Nat) → Nat
  | 0, acc => if (acc + 1) ^ 100 ≤ m then acc + 1 else acc
  | k + 1, acc => root100 m k (if (acc + 2 ^ (k + 1)) ^ 100 ≤ m then acc + 2 ^ (k + 1) else acc)

/-- 2^(f / 100) x 10^9, for f below 100, rounded down. -/
def pow2Cents (f : Nat) : Nat := root100 (2 ^ f * 10 ^ 900) 30 0

/-- Stress of one second in 10^-6 equivalent seconds, rounded down (R448): `tj` in 0.1 degC, `mv` VDD_CORE in mV. -/
def stressRate (tj : Int) (mv : Nat) : Nat :=
  let e := tj - 1050
  let q := e / 100
  let f := (e % 100).toNat
  let num := pow2Cents f * mv ^ 6 * 10 ^ 6
  let den := 10 ^ 9 * 750 ^ 6
  if 0 ≤ q then num * 2 ^ q.toNat / den else num / (den * 2 ^ (-q).toNat)

/-- STRESS_SAMPLE: each second adds to this boot's stress and to its powered time. -/
def stressSample (tj : Int) (s : State) : State :=
  if !periodDue s.rel.stressAt 500000000 s.now then s
  else withRel (fun x => { x with
    bootStress := x.bootStress + stressRate tj s.power.readback, bootS := x.bootS + 1, stressAt := some s.now }) s

def execStressSample (tj : Int) (s : State) : Host.Outcome State Fault Refusal := whenLive s (stressSample tj)

/-- The device's stress: the restored one, or the end of life, and this boot's. -/
def stressNow (s : State) : Nat := (if s.rel.restored then s.rel.stress else eolStress) + s.rel.bootStress / 10 ^ 6

/-- AGE_GUARD in mV (Table 19.4): 22 mV x min(1, stress / end of life)^(1/4), rounded up. -/
def guardFor (stress : Nat) : Nat :=
  ((List.range 23).find? fun g => 22 ^ 4 * min stress eolStress ≤ g ^ 4 * eolStress).getD 22

/-- A Headland trigger (Table 19.4): `base` x d / d0, within `base` and `top`. -/
def triggerFor (base top d d0 : Nat) : Nat := if d0 = 0 then base else max base (min top (base * d / d0))

/-- AGE_GUARD and the Headland triggers are re-planned. -/
def replanMargins (d d0 : Nat) (s : State) : State :=
  withRel (fun x => { x with ageGuard := guardFor (stressNow s), t1 := triggerFor 2000 2500 d d0, t2 := triggerFor 1000 1250 d d0 }) s

/-- MARGIN_REPLAN, every 10 min: `d` the mean responder canary delay at the nominal point, `d0` its fused value. -/
def marginReplan (d d0 : Nat) (s : State) : State :=
  if !periodDue s.rel.replanAt 300000000000 s.now then s
  else withRel (fun x => { x with replanAt := some s.now }) (replanMargins d d0 s)

def execMarginReplan (d d0 : Nat) (s : State) : Host.Outcome State Fault Refusal := whenLive s (marginReplan d d0)

/-- A chain's place among the 40: A0-A7, B0-B15, C0-C15. -/
def chainSlot (r c : Nat) : Nat := if r = 0 then c else 8 + 16 * (r - 1) + c

/-- GAIN_CAL: `gain` measured, in 0.01 dB; `need` the least derating, in 0.5 dB, at which loopback EVM is -41 dB or better. -/
def gainCal (r c : Nat) (gain : Int) (need : Nat) (s : State) : State :=
  let k := vget (vget s.fe r).chains c
  if chainCount r ≤ c || chainOut k || !periodDue (kget s.rel.gainAt (chainSlot r c)) (s.rel.gainInt * 500000000) s.now then s
  else
    let changed := need ≤ 12 && need != k.ageDerate
    let t := withRel (fun x => { x with
      gainAt := kset x.gainAt (chainSlot r c) s.now, chainGain := vset x.chainGain (chainSlot r c) gain
      gainInt := if changed then max 60 (x.gainInt / 2) else min 600 (x.gainInt * 2) }) s
    if 12 < need then
      setChainState r c .fallowAge t
    else if changed then relCount 10 1 (chainBoundary r (withChain r c (fun k => { k with ageNext := some need }) t))
    else t

def execGainCal (r : Radio) (c : Fin 16) (gain : Int) (need : Nat) (s : State) : Host.Outcome State Fault Refusal :=
  whenLive s (gainCal (rnum r) c gain need)

/-! The cairn record (R450, R451). -/

/-- A signed number as the 2^w-complement of its field. -/
def sle (n : Nat) (i : Int) : List Byte := le n (i % 2 ^ (8 * n)).toNat

/-- STRESS of one canary's region at export. -/
def regionStress (i : Nat) (s : State) : Nat :=
  min (2 ^ 32 - 1) ((if s.rel.restored then vget s.rel.region i else eolStress) + s.rel.bootStress / 10 ^ 6)

/-- The state of the chain at a place among the 40. -/
def chainAt (i : Nat) (s : State) : Chain :=
  if i < 8 then vget (vget s.fe 0).chains i else if i < 24 then vget (vget s.fe 1).chains (i - 8) else vget (vget s.fe 2).chains (i - 24)

/-- Bytes 0 to 4,063 of a record (Table 19.5). -/
def cairnBody (seq : Nat) (s : State) : List Byte :=
  let x := s.rel
  let t := s.rtc.time
  pad 4064 ([0x43, 0x41, 0x49, 0x52, 1, 0xB0, byte (put (!x.restored) 0), 0] ++ le 8 s.glb.serial.toNat ++ le 8 seq ++ le 8 (x.lifeS + x.bootS) ++
    le 8 (stressNow s) ++ le 4 (time0Of t).toNat ++ le 4 (time1Of t).toNat ++ le 4 (time2Of t s.rtc.presc).toNat ++ le 2 (10 * x.ageGuard) ++
    le 2 x.t1 ++ le 2 x.t2 ++ le 2 (chan 0 s).interval ++ le 2 (chan 1 s).interval ++ le 2 x.gainInt ++
    (List.range 64).flatMap (fun i => le 4 (regionStress i s) ++ le 4 (vget x.canaryPs i)) ++
    (List.range 40).flatMap (fun i => sle 2 (vget x.chainGain i) ++ [byte (chainAt i s).ageDerate, byte (put ((chainAt i s).st == .fallowAge) 0)]) ++
    pad 160 (x.synthWord.toList.flatMap fun w => le 4 w.1 ++ le 4 w.2) ++
    x.eye.toList.flatMap (fun e => le 2 (e.getD 0 0) ++ le 2 (e.getD 1 0) ++ le 2 (e.getD 2 0) ++ le 2 (e.getD 3 0)) ++
    pad 1024 (x.weak.flatMap fun w => [byte w.array] ++ le 2 w.region ++ [byte w.errs]))

def cairnRecord (seq : Nat) (s : State) : List Byte :=
  let b := cairnBody seq s
  b ++ pad 32 (Config.cairnTag b)

/-- A record is this device's own: MAGIC, FORMAT, STEPPING, SERIAL and TAG, and every reserved byte 0. -/
def cairnValid (p : List Byte) (s : State) : Bool :=
  slice p 0 6 == [0x43, 0x41, 0x49, 0x52, 1, 0xB0] && u8 p 7 == 0 && slice p 8 8 == le 8 s.glb.serial.toNat && zeros p 1952 2112 &&
    slice p 4064 32 == pad 32 (Config.cairnTag (slice p 0 4064))

/-- The weak regions a record carries: entries with errors. -/
def cairnWeak (p : List Byte) : List WeakRegion :=
  ((List.range 256).map fun i => { array := u8 p (928 + 4 * i), region := u16 p (929 + 4 * i), errs := u8 p (931 + 4 * i) : WeakRegion }).filter
    (0 < ·.errs)

/-- What an accepted record restores. -/
def cairnTake (p : List Byte) (s : State) : State :=
  withRel (fun x => { x with
    restored := true, exportSeq := u64 p 16, lifeS := u64 p 24, stress := u64 p 32
    region := Vector.ofFn fun i => u32 p (64 + 8 * i.val)
    chainGain := Vector.ofFn fun i => i16 p (576 + 4 * i.val)
    synthWord := Vector.ofFn fun i => (u32 p (736 + 8 * i.val), u32 p (740 + 8 * i.val))
    eye := Vector.ofFn fun i => (List.range 4).map fun j => u16 p (896 + 8 * i.val + 2 * j)
    weak := cairnWeak p }) s

/-- CAIRN_RESTORE (R79): once per reset, before any radio first leaves OFF; the canary part is planned again (R17). -/
def cairnRestoreRun (d d0 : Nat) (c : Cmd) (s : State) : Effect :=
  if !cairnValid c.params s then .fail .badParam
  else if s.rel.restored || s.life.radioLeftOff then .fail .wrongState
  else
    let t := canaryReplan s.power.canaryAsk (replanMargins d d0 (cairnTake c.params s))
    .complete .ok (le 2 (10 * t.rel.ageGuard) ++ [0, 0]) t

def cairnRestoreForm : Form := indirectForm 0x0D01 4096 4 fun _ => true

def execCairnRestore (m : Fin 8) (buf : List Byte) (d d0 : Nat) (s : State) : Host.Outcome State Fault Refusal :=
  command cairnRestoreForm m buf s (cairnRestoreRun d d0)

/-- CAIRN_EXPORT (R451): EXPORT_SEQ rises, and the record carries it. -/
def cairnExportForm : Form := indirectForm 0x0D02 0 4096 fun _ => true

def cairnExportRun : Cmd → State → Effect := fun _ s =>
    .complete .ok (cairnRecord (s.rel.exportSeq + 1) s) (relCount 9 1 (withRel (fun x => { x with exportSeq := x.exportSeq + 1 }) s))

def execCairnExport (m : Fin 8) (buf : List Byte) (s : State) : Host.Outcome State Fault Refusal :=
  command cairnExportForm m buf s cairnExportRun

/-- CAIRN_READY (R451): every 24 h of RUNNING. -/
def cairnReady (s : State) : State :=
  if s.now < s.life.runningAt + (s.rel.cairnsTold + 1) * dayTicks then s
  else raise .cairnReady 0 (le 8 (s.rel.exportSeq + 1)) (withRel (fun x => { x with cairnsTold := x.cairnsTold + 1 }) s)

def execCairnReady (s : State) : Host.Outcome State Fault Refusal := whenRunning s cairnReady

/-! Commands (Table 19.7). -/

def relStatus (s : State) : List Byte :=
  let x := s.rel
  le 2 (10 * x.ageGuard) ++ le 2 s.power.canaryMv ++ le 2 x.t1 ++ le 2 x.t2 ++
    [byte (put x.restored 0 + put (!x.restored) 1), byte (x.passes.toList.filter (·.escalated)).length] ++
    le 2 x.fenced.length ++ le 2 x.weak.length ++ le 2 x.gainInt

def relGetStatusForm : Form := inlineForm 0x0D00 0 16 fun _ => true

def relGetStatusRun : Cmd → State → Effect := fun _ s => answer (relStatus s) s

def execRelGetStatus (m : Fin 8) (buf : List Byte) (s : State) : Host.Outcome State Fault Refusal :=
  command relGetStatusForm m buf s relGetStatusRun

def relGetCountersForm : Form := indirectForm 0x0D03 0 88 fun _ => true

def relGetCountersRun : Cmd → State → Effect := fun _ s => answer (ctrBytes s.rel.ctr) s

def execRelGetCounters (m : Fin 8) (buf : List Byte) (s : State) : Host.Outcome State Fault Refusal :=
  command relGetCountersForm m buf s relGetCountersRun

end Sys2Proof.Machine
end

