-- ==== Sys2Proof/Machine/Power.lean ====
section
/-!
DEFINITION. Service modes (R77, R78), bivouac (R80 to R82, R471), the removal of supplies (R64), life-cycle tokens (R72 to R74) and loss of the
reference (R19).
-/
namespace Sys2Proof.Machine
open Sys2Proof

/-! Service modes. -/

def modeCode : SvcMode → Nat
  | .startUp => 0 | .service => 1 | .test => 2 | .recovery => 3

def modeOf : Nat → SvcMode
  | 0 => .startUp | 1 => .service | 2 => .test | _ => .recovery

/-- R77. -/
def modeAllowed (a b : SvcMode) : Bool :=
  match a, b with
  | .startUp, .service | .startUp, .test | .service, .recovery | .recovery, .service | .service, .test | .test, .service => true
  | _, _ => false

/-- SYS_GET_STATE's data. -/
def sysState (s : State) : List Byte :=
  [byte (modeCode s.life.mode), byte (put s.rel.restored 0 + put s.dram.ready 1 + put s.sec.session 2), 0, 0] ++
    le 4 ((s.now - s.life.runningAt) / 500000000) ++ pad 8 []

def sysGetStateForm : Form := inlineForm 0x0E00 0 16 fun _ => true

def sysGetStateRun : Cmd → State → Effect := fun _ s => answer (sysState s) s

def execSysGetState (m : Fin 8) (buf : List Byte) (s : State) : Host.Outcome State Fault Refusal :=
  command sysGetStateForm m buf s sysGetStateRun

/-- A mode is entered: the first-fragment table is emptied (R366), and leaving START_UP places every object (R264). -/
def enterMode (b : SvcMode) (s : State) : State :=
  let t := withLife (fun l => { l with mode := b }) (withRouter (fun x => { x with frags := [] }) s)
  if s.life.mode == .startUp then initialAll t else t

def setModeRun (c : Cmd) (s : State) : Effect :=
  let b := modeOf (u8 c.params 0)
  if !s.dram.ready || !modeAllowed s.life.mode b then .fail .wrongState else okay (enterMode b s)

def sysSetModeForm : Form := inlineForm 0x0E02 4 0 fun p => u8 p 0 ≤ 3 && zeros p 1 3

def execSysSetMode (m : Fin 8) (buf : List Byte) (s : State) : Host.Outcome State Fault Refusal :=
  command sysSetModeForm m buf s setModeRun

/-! Bivouac. -/

/-- Every radio that is not OFF, or that is on its way out of it, goes there. -/
def radiosOff (s : State) : State :=
  (List.range 3).foldl (fun t r =>
    let e := vget t.fe r
    if e.state == .off && e.trans.isNone && e.cal.isNone then t else radioOffNow r t) s

/-- THERMAL_TRIP (R69): once per hold; the radios go to OFF and the device resets, holding THERMAL_HOLD. -/
def thermalTrip (s : State) : State :=
  if !powered s || s.life.thermalHold then s
  else withLife (fun l => { l with thermalHold := true }) (internalReset causeThermal (radiosOff s))

def execThermalTrip (s : State) : Host.Outcome State Fault Refusal := .next (thermalTrip s)

/-- Every other command that has not completed ends with ABORTED, in handle order per mailbox, and before this one (R471). -/
def abortOthers (m : Nat) (own : Word) (s : State) : State :=
  let t := withMbx m (fun b => { b with cmds := b.cmds.filter (·.handle != own) ++ b.cmds.filter (·.handle == own) }) s
  (List.range 8).foldl (fun u i =>
    (vget u.host.mbx i).cmds.foldl (fun v r => match r.phase with
      | .done _ _ => v
      | _ => if r.handle == own then v else finish r.handle .aborted [] v) u) t

/-- A lane's running job ends with fault 6, or with the fault it has already met; a host job completes with its data (R232, R471). -/
def endLane (s : State) (l : Nat) : State :=
  if laneIdle l s then s
  else
    let t := match (lane l s).phase with | .ended _ => s | _ => endJob l 6 s
    match (lane l t).job with
    | some j => completeHost l j t
    | none => t

/-- Harrow jobs that run end (R471). -/
def endJobs (s : State) : State := (List.range 16).foldl endLane s

/-- The wake receiver's mode in bivouac, where it is a source. -/
def bivouacWur (sources rxMode : Nat) (s : State) : State :=
  if bit sources 0 then withWur (wurStart (if rxMode = 0 then 1 else wurModeFor 2 s) s.now) s else s

/-- POWER_ENTER_BIVOUAC itself (R471): running jobs end, the other commands end, and Builmin stops. -/
def enterBivouac (m : Nat) (own : Word) (sources rxMode : Nat) (s : State) : State :=
  withLife (fun l => { l with fwState := .bivouac, bivDone := some own, bivSources := sources, bivRxMode := rxMode })
    (abortOthers m own (endJobs s))

/-- The completion of POWER_ENTER_BIVOUAC has been written. -/
def bivouacDone (s : State) : Bool :=
  match s.life.bivDone with
  | some h => s.life.fwState == .bivouac && s.host.cq.toList.all fun q => q.waiting.all (·.handle != h)
  | none => false

/-- Steps 1 to 3 of R80, which follow that completion: radios OFF, Ethernet links down, wake sources loaded. -/
def bivouacSteps (s : State) : State :=
  if bivouacDone s then
    withLife (fun l => { l with bivDone := none, bivPrep := true, armed := true, wakePend := 0, wakeBy := 0 })
      (bivouacWur s.life.bivSources s.life.bivRxMode (linkDown 1 2 (linkDown 0 2 (radiosOff s))))
  else s

/-! Steps that write completions, with what waits for one (R80). -/

def execCompletionWrite (q : Fin 8) (s : State) : Host.Outcome State Fault Refusal := whenLive s fun s => bivouacSteps (completionWrite q s)

def execCqHeadWrite (q : Fin 8) (head : BitVec 16) (s : State) : Host.Outcome State Fault Refusal :=
  whenLive s fun s => bivouacSteps (cqHeadWrite q head s)

def execCqEnable (q : Fin 8) (s : State) : Host.Outcome State Fault Refusal := whenLive s fun s => bivouacSteps (cqEnable q s)

def bivouacRun (c : Cmd) (s : State) : Effect :=
  let p := c.params
  let empty := s.wur.table.toList.all fun e => !bit e.ctrl 0
  if (bit (u8 p 0) 0 && empty) || (bit (u8 p 0) 1 && !s.rtc.alarmEn) then .fail .wrongState
  else okay (enterBivouac c.mbx c.handle (u8 p 0) (u8 p 1) s)

def powerEnterBivouacForm : Form := inlineForm 0x0E04 4 0 fun p => u8 p 0 ≤ 3 && u8 p 1 ≤ 1 && zeros p 2 2

def execPowerEnterBivouac (m : Fin 8) (buf : List Byte) (s : State) : Host.Outcome State Fault Refusal :=
  command powerEnterBivouacForm m buf s bivouacRun

/-- BIVOUAC_N_ASSERT (R80, R82): a wake that has waited drives WAKE_OUT now. -/
def bivouacAssert (s : State) : State :=
  if s.life.bivPrep then wakeRises s.life.wakePend (withLife (fun l => { l with bivPrep := false, bivouacN := false }) s)
  else s

def execBivouacNAssert (s : State) : Host.Outcome State Fault Refusal := whenLive s bivouacAssert

/-- What VDD_AON keeps: the wake sources and outputs, and the thermal sensor's hold. -/
def aonLife (l : Life) : Life :=
  { State.reset.life with
    armed := l.armed, bivSources := l.bivSources, bivRxMode := l.bivRxMode, bivouacN := l.bivouacN, wakePend := l.wakePend
    wakeOut := l.wakeOut, wakeBy := l.wakeBy, thermalHold := l.thermalHold }

/-- SUPPLY_REMOVAL (R64, R80): the main supplies fall, VDD_IO among them, and VDD_AON too with `aon`; what the kept domains do not hold is
lost. -/
def supplyRemoval (aon : Bool) (s0 : State) : State :=
  let s := settleFuses s0
  let keep := s.life.aonUp && !aon
  let kept := if keep then aonLife s.life else State.reset.life
  { State.reset with
    pending := s.pending, now := s.now, free := s.free, out := s.out
    rtc := { s.rtc with locked := true, armed := false, vddGoodAt := none }
    glb := { State.reset.glb with resetCause := 0, refLost := s.glb.refLost, serial := s.glb.serial }
    life := { kept with mainUp := false, aonUp := keep, perstN := false, lcState := s.life.lcState }
    fe := keepPins State.reset.fe s.fe
    wur := if keep then { s.wur with tx := [] } else State.reset.wur }

def execSupplyRemoval (aon : Bool) (s : State) : Host.Outcome State Fault Refusal := .next (supplyRemoval aon s)

/-! Life-cycle tokens. -/

/-- APPLY_TOKEN (R72, Table 3.8): a write of LC_CTRL with the right KEY and APPLY_TOKEN set. -/
def applyToken (v : Nat) (s : State) : State :=
  if bits v 16 16 ≠ 0x7340 || !bit v 0 then s
  else if s.life.tokenBusy then withLife (fun l => { l with lcResult := 8 }) s
  else
    let k := memRead s.bar tokenBase 512
    let code := tokenCheck s k
    if code ≠ 0 then withLife (fun l => { l with lcResult := code }) s
    else
      withLife (fun l => { l with tokenBusy := true, fuseTarget := some (u8 k 4) })
        (withRtc (fun r => { r with backup := Vector.replicate 64 0 }) (radiosOff s))

def execApplyToken (value : Word) (s : State) : Host.Outcome State Fault Refusal := whenLive s (applyToken value.toNat)

/-! The 40 MHz reference (R19). -/

/-- REF_LOST: radios OFF, time bases hold, REF_LOST is set and raised, and the SerDes links drop; the PCI Express link's drop is the hot
reset that follows. Whether the link still carries the REF_LOST entry is a free value (R19: it is not guaranteed). -/
def refLost (s : State) : State :=
  if s.glb.refLost then s
  else
    let t := withGlb (fun g => { g with refLost := true }) s
    if !live s then t
    else
      let p := draw 1 (radiosOff t)
      let carry := withHost (fun h => { h with link := if p.1 = 1#1 then h.link else .recovery }) p.2
      let u := linkDown 1 0 (linkDown 0 0 (raise .refLost 0 [] carry))
      withLife (fun l => { l with refDrop := true }) (withHost (fun h => { h with link := .recovery }) u)

def execRefLost (s : State) : Host.Outcome State Fault Refusal := .next (refLost s)

/-- REF_RETURN: the time bases count, and the SerDes links train. -/
def refReturn (s : State) : State :=
  if s.glb.refLost then
    flushTx (withGlb (fun g => { g with refLost := false }) (withHost (fun h => { h with link := State.reset.host.link }) s))
  else s

def execRefReturn (s : State) : Host.Outcome State Fault Refusal := .next (refReturn s)

end Sys2Proof.Machine
end

