-- ==== Sys2Proof/Machine/Flags.lean ====
section
/-!
DEFINITION. The status registers as words, their fields taken from State: GLB_STATUS, MBX_STATE, CQ_STATUS, HRING_STATUS, LC_STATUS,
COEX_STATUS, TBn_STATUS, RTC_STATUS (spec/02 Tables 2.4, 2.11, 2.13, 2.20; 03 Table 3.6; 04 Table 4.18; 13 Table 13.2; 18 Table 18.3).
-/
namespace Sys2Proof.Machine
open Sys2Proof

/-- Table 2.5. -/
def fwCode (f : FwState) : Nat :=
  match f with | .empty => 0 | .verifying => 1 | .rejected => 2 | .starting => 3 | .running => 4 | .fault => 5 | .bivouac => 6

/-- GLB_STATUS (Table 2.4); during a wipe its reset value, the fused field kept (R66). -/
def glbStatus (s : State) : Nat :=
  let lc := 2 ^ 24 * s.life.lcState
  if !live s then lc
  else
    2 ^ 29 * fwCode s.life.fwState + lc + put s.host.evt.overflow 19 + put s.glb.thermalWarn 18 + put s.glb.avsFault 17 +
      put s.glb.refLost 16 + put (coordMode s) 8 + maskOf (s.fe.toList.map fun e => e.state != .off)

/-- MBX_STATE (Table 2.11). -/
def mbxState (m : Nat) (s : State) : Nat := 2 ^ 16 * outstanding m s + (vget s.host.mbx m).refuse

/-- Completions of a queue that wait for space (R47); none while it is disabled, since those wait for EN (R48). -/
def heldFor (n : Nat) (s : State) : Nat :=
  if (vget s.host.cq n).full then (vget s.host.cq n).waiting.length else 0

/-- CQ_STATUS (Table 2.13). -/
def cqStatus (n : Nat) (s : State) : Nat := put (vget s.host.cq n).full 0 + 2 ^ 16 * heldFor n s

/-- HRING_STATUS (Table 2.20). -/
def hringStatus (g : Ring) : Nat := put g.halted 31 + put g.idle 30 + g.errIndex.toNat

/-- LC_STATUS (Table 3.6, R71). -/
def lcStatus (s : State) : Nat :=
  put s.life.thermalHold 9 + put (s.life.lcState == 1 || s.life.lcState == 3) 8 + 2 ^ 4 * modeCode s.life.mode +
    put s.life.wipeBusy 3 + put s.life.tokenBusy 2 + s.life.lcState

/-- COEX_STATUS (Table 4.18). -/
def coexStatus (s : State) : Nat :=
  2 ^ 20 * radioClass 2 s + 2 ^ 18 * radioClass 1 s + 2 ^ 16 * radioClass 0 s + 2 ^ 11 * s.coex.fast.toNat + 2 ^ 8 * s.coex.stuck.toNat +
    2 ^ 3 * maskOf (s.fe.toList.map (·.gnt)) + maskOf ((List.range 3).map fun r => (vget s.fe r).req && coexEn r s)

/-- TBn_STATUS (Table 13.2); during a wipe HOLD reads its reset value (R66). -/
def tbStatusWord (n : Nat) (s : State) : Nat :=
  let t := vget s.time.tb n
  put t.sat 11 + put t.incInv 10 + put t.adjInv 9 + put t.setInv 8 + put t.fwOwned 5 + put t.freeRun 4 + 2 ^ 2 * roleCode t.role +
    put (s.glb.refLost && live s) 0

/-- RTC_STATUS (Table 18.3). -/
def rtcStatus (r : Rtc) : Nat :=
  put r.snap.isSome 6 + put r.oscRunning 5 + put r.locked 4 + put r.alarmHit 3 + put r.yearWrap 2 + put r.dateInvalid 1 + put r.oscStopped 0

/-- Clears of a W1C field: what a written word leaves of a flag (Table 0.4). -/
def w1c (v i : Nat) (flag : Bool) : Bool := flag && !bit v i

end Sys2Proof.Machine
end

