-- ==== Sys2Proof/Machine/Registers.lean ====
section
/-!
DEFINITION. Host accesses to BAR0 (R3, R4, R33 to R36, R66, R326, R425): the register map, what a write of each register does and what a
read returns. A register with a command of its own is written through that command's operation.
-/
namespace Sys2Proof.Machine
open Sys2Proof

/-- A four-byte register of BAR0 (Table 2.2 and the register tables of its blocks). -/
inductive Reg where
  | resetCause | glb (word : Nat)
  | evt (word : Nat) | route (src : Nat)
  | mbxCmd (offset : Nat) | mbxBell (m : Nat) | mbxStatus (m : Nat) | mbxState (m : Nat)
  | cq (n word : Nat) | ring (tx : Bool) (n word : Nat)
  | tb (n word : Nat) | tbCapture | capStatus | ppsStatus | cap (n word : Nat) | pps (n word : Nat)
  | rtc (word : Nat) | backup (n : Nat)
  | coex (word : Nat) | lc (word : Nat) | lcToken (offset : Nat)
  | fwlRam (offset : Nat) | fwlCtrl | fwlResult
  | msixWord (i : Nat) | pba (word : Nat)
  deriving DecidableEq, Repr

/-- The FWL_ block of 8 MiB (Table 2.2): MP RAM below the 4 KiB of its registers, and on above them, so that the window holds the first
8 MiB - 4 KiB of MP RAM (03, "Loading Builmin"; DEDUCED, log 75: the chapter prints an end of 0x037_EFFF). -/
def fwlBase : Nat := 0x300000
def fwlEnd : Nat := 0x37F000
def fwlTop : Nat := 0xB00000

/-- Registers of the lower half of BAR0's map. -/
def lowReg (a : Nat) : Option Reg :=
  if a = 0x0C then some .resetCause
  else if a < 0x18 then some (.glb (a / 4))
  else if 0x1000 ≤ a ∧ a ≤ 0x1020 then some (.evt ((a - 0x1000) / 4))
  else if 0x1100 ≤ a ∧ a < 0x1100 + 4 * 137 then some (.route ((a - 0x1100) / 4))
  else if 0x10000 ≤ a ∧ a < 0x18000 then
    let m := (a - 0x10000) / 0x1000
    let o := a % 0x1000
    if o < 0x100 then some (.mbxCmd a)
    else if o = 0x100 then some (.mbxBell m)
    else if o = 0x104 then some (.mbxStatus m)
    else if o = 0x108 then some (.mbxState m)
    else none
  else if 0x20000 ≤ a ∧ a < 0x20200 then if a % 64 ≤ 0x18 then some (.cq ((a - 0x20000) / 64) (a % 64 / 4)) else none
  else if 0x100000 ≤ a ∧ a < 0x102000 then
    if a % 64 ≤ 0x18 then some (.ring (a < 0x101000) (a % 0x1000 / 64) (a % 64 / 4)) else none
  else none

/-- Registers of the upper half. -/
def highReg (a : Nat) : Option Reg :=
  if 0x200000 ≤ a ∧ a < 0x200100 then some (.tb ((a - 0x200000) / 64) (a % 64 / 4))
  else if a = 0x200100 then some .tbCapture
  else if a = 0x200104 then some .capStatus
  else if a = 0x200108 then some .ppsStatus
  else if 0x200110 ≤ a ∧ a < 0x200150 then some (.cap ((a - 0x200110) / 16) (a % 16 / 4))
  else if 0x200150 ≤ a ∧ a < 0x200190 then some (.pps ((a - 0x200150) / 16) (a % 16 / 4))
  else if 0x201000 ≤ a ∧ a < 0x201030 then if a = 0x20100C then none else some (.rtc ((a - 0x201000) / 4))
  else if 0x201040 ≤ a ∧ a < 0x201080 then some (.backup (a - 0x201040))
  else if 0x202000 ≤ a ∧ a < 0x202020 then some (.coex ((a - 0x202000) / 4))
  else if 0x203000 ≤ a ∧ a < 0x20301C then if a = 0x20300C then none else some (.lc ((a - 0x203000) / 4))
  else if 0x203200 ≤ a ∧ a < 0x203400 then some (.lcToken a)
  else if fwlBase ≤ a ∧ a < fwlEnd then some (.fwlRam (a - fwlBase))
  else if fwlEnd + 0x1000 ≤ a ∧ a < fwlTop then some (.fwlRam (a - fwlBase - 0x1000))
  else if a = fwlEnd then some .fwlCtrl
  else if a = fwlEnd + 4 then some .fwlResult
  else if 0xF00000 ≤ a ∧ a < 0xF00400 then some (.msixWord ((a - 0xF00000) / 4))
  else if 0xF00800 ≤ a ∧ a < 0xF00808 then some (.pba ((a - 0xF00800) / 4))
  else none

/-- The register at an offset; none where no table defines one (R33). -/
def regAt (a : Nat) : Option Reg := if a < 0x200000 then lowReg a else highReg a

/-! Writes. -/

/-- A base address with bits [31:12] of its low word replaced (Tables 2.13, 2.15, 2.20), or its high word. -/
def baseLo (b : BitVec 64) (v : Nat) : BitVec 64 := BitVec.ofNat 64 (b.toNat / 2 ^ 32 * 2 ^ 32 + bits v 12 20 * 2 ^ 12)
def baseHi (b : BitVec 64) (v : Nat) : BitVec 64 := BitVec.ofNat 64 (v * 2 ^ 32 + b.toNat % 2 ^ 32)

/-- The event ring's registers (Table 2.15). -/
def writeEvt (word v : Nat) (s : State) : State :=
  match word with
  | 0 => withEvt (fun e => { e with base := baseLo e.base v }) s
  | 1 => withEvt (fun e => { e with base := baseHi e.base v }) s
  | 2 => withEvt (fun e => { e with sizeLog := bits v 0 4 }) s
  | 3 => flushHeld (withEvt (fun e => { e with head := BitVec.ofNat 16 v }) s)
  | 5 =>
    let t := withEvt (fun e => { e with minSev := bits v 4 2 }) s
    if bit v 0 then evtEnable t else withEvt (fun e => { e with en := false }) t
  | 6 => withEvt (fun e => { e with overflow := w1c v 0 e.overflow }) s
  | _ => s

/-- A completion queue's registers (Table 2.13). -/
def writeCq (n word v : Nat) (s : State) : State :=
  match word with
  | 0 => withCq n (fun q => { q with base := baseLo q.base v }) s
  | 1 => withCq n (fun q => { q with base := baseHi q.base v }) s
  | 2 => withCq n (fun q => { q with sizeLog := bits v 0 4 }) s
  | 3 => if bit v 0 then bivouacSteps (cqEnable n s) else withCq n (fun q => { q with en := false }) s
  | 4 => bivouacSteps (cqHeadWrite n (BitVec.ofNat 16 v) s)
  | _ => s

/-- A host ring's registers (Table 2.20). HOST_STREAM is reserved on transmit rings. -/
def writeRing (tx : Bool) (n word v : Nat) (s : State) : State :=
  match word with
  | 0 => withRing tx n (fun g => { g with base := baseLo g.base v }) s
  | 1 => withRing tx n (fun g => { g with base := baseHi g.base v }) s
  | 2 => withRing tx n (fun g => { g with sizeLog := bits v 0 4 }) s
  | 3 =>
    let t := withRing tx n (fun g => { g with hostStream := bit v 1 && !tx, stampTb := Fin.ofNat 4 (bits v 4 2) }) s
    if bit v 0 then ringEnable tx n t else ringDisable tx n t
  | 4 => prodWrite tx n (BitVec.ofNat 16 v) s
  | 6 => if bit v 31 then ringResume tx n s else s
  | _ => s

/-- A time base's registers (Table 13.1); those of INC, DITHER, CMD, SET and ADJ ignore the host while FW_OWNED (R326). -/
def writeTb (n word v : Nat) (s : State) : State :=
  let own (f : Tb → Tb) : State := if (vget s.time.tb n).fwOwned then s else withTb n f s
  match word with
  | 3 => withTb n (fun t => { t with sat := w1c v 11 t.sat, incInv := w1c v 10 t.incInv, adjInv := w1c v 9 t.adjInv, setInv := w1c v 8 t.setInv }) s
  | 4 => own fun t => { t with incLo := BitVec.ofNat 32 v }
  | 5 => incWrite n v s
  | 6 => ditherWrite n v s
  | 7 => adjWrite n v (setWrite n v s)
  | 8 => own fun t => { t with setNs := BitVec.ofNat 32 v }
  | 9 => own fun t => { t with setLo := BitVec.ofNat 32 v }
  | 10 => own fun t => { t with setHi := BitVec.ofNat 32 v }
  | 12 => own fun t => { t with adjNs := BitVec.ofNat 32 v }
  | 13 => own fun t => { t with adjS := BitVec.ofNat 32 v }
  | _ => s

/-- A write of an unlocked RTC register (Table 18.1); reserved SQW_SEL values are stored as 0 (Table 18.4). -/
def rtcField (word v : Nat) (r : Rtc) : Rtc :=
  match word with
  | 4 => { r with holdDate := BitVec.ofNat 32 v &&& 0x01FF0F1F#32 }
  | 5 => { r with holdTime := BitVec.ofNat 32 v &&& 0x001F3F00#32 }
  | 7 =>
    let sel := if bits v 0 3 ≤ 4 then bits v 0 3 else 0
    { r with alarmEn := bit v 4, sqwSel := sel, sqwNew := r.sqwNew || sel != r.sqwSel }
  | 8 => { r with alarm := BitVec.ofNat 32 v &&& 0x009F9FBF#32 }
  | 9 => { r with alarmHit := w1c v 3 r.alarmHit, yearWrap := w1c v 2 r.yearWrap, dateInvalid := w1c v 1 r.dateInvalid }
  | 10 => { r with wakeWur := w1c v 0 r.wakeWur, wakeAlarm := w1c v 1 r.wakeAlarm }
  | _ => r

/-- The RTC's registers: locked, they ignore every write but the unlock sequence (R425), which any other write cancels (R426). -/
def writeRtc (word v : Nat) (s : State) : State :=
  match word with
  | 6 => rtcCommit (BitVec.ofNat 32 v) s
  | 11 => rtcUnlock (BitVec.ofNat 32 v) s
  | _ => withRtc (fun r => if r.locked then { r with armed := false } else { rtcField word v r with armed := false }) s

/-- RTC_BACKUP (R440): four bytes from byte `i`. -/
def writeBackup (i v : Nat) (s : State) : State :=
  withRtc (fun r =>
    if r.locked then { r with armed := false }
    else { r with armed := false, backup := (List.range 4).foldl (fun b k => vset b (i + k) (byte (v / 256 ^ k))) r.backup }) s

/-- The coexistence registers (Table 4.15); grants follow at once (R105). -/
def writeCoex (word v : Nat) (s : State) : State :=
  match word with
  -- The hold timer of a radio whose pins are enabled runs from then.
  | 0 => coexAll { s with
      coex := { s.coex with ctrl := BitVec.ofNat 32 v &&& 0x0000FFF7#32 }
      fe := Vector.ofFn fun (r : Fin 3) => if bit v r && !coexEn r s then { s.fe[r] with reqAt := s.now } else s.fe[r] }
  | 1 => coexAll { s with coex := { s.coex with policy := BitVec.ofNat 32 v &&& 0x00FFFFFF#32 } }
  | 2 => { s with coex := { s.coex with maxHold := min 1000000 (max 1 (bits v 0 20)) } }
  | 3 => { s with coex := { s.coex with toggle := bits v 0 16 } }
  | 4 => { s with coex := { s.coex with stuck := s.coex.stuck &&& ~~~BitVec.ofNat 3 (v / 2 ^ 8), fast := s.coex.fast &&& ~~~BitVec.ofNat 3 (v / 2 ^ 11) } }
  | _ => s

/-- The life-cycle registers (Table 3.5). SYS_RESET acts after APPLY_TOKEN where one write has both. -/
def writeLc (word v : Nat) (s : State) : State :=
  match word with
  | 1 => sysReset v (applyToken v s)
  | 6 => withLife (fun l => { l with lcWdt := BitVec.ofNat 32 v &&& 0x1FF#32 }) s
  | _ => s

/-- The MSI-X table (PCI Express base specification): addresses are doubleword aligned, vector control has one bit, and a vector
whose mask bit goes from 1 to 0 is unmasked (R470). -/
def writeMsix (i v : Nat) (s : State) : State :=
  let store (w : Word) : State := withHost (fun h => { h with msixTbl := vset h.msixTbl i w }) s
  match i % 4 with
  | 0 => store (BitVec.ofNat 32 v &&& 0xFFFFFFFC#32)
  | 3 => if bit v 0 then store 1#32 else if vecMasked s (i / 4) then msixUnmask (i / 4) s else s
  | _ => store (BitVec.ofNat 32 v)

/-- A four-byte write of a register outside a wipe (R4): RO fields keep their value, reserved bits are ignored (R3). -/
def writeReg (g : Reg) (v : Nat) (s : State) : State :=
  match g with
  | .resetCause => withGlb (fun x => { x with resetCause := x.resetCause &&& ~~~BitVec.ofNat 9 v }) s
  | .evt w => writeEvt w v s
  | .route i => withHost (fun h => { h with route := vset h.route i (BitVec.ofNat 32 v &&& 0x0FFFFF3F#32) }) s
  | .mbxCmd a | .lcToken a => { s with bar := memWrite s.bar a (le 4 v) }
  | .mbxBell m => if bit v 0 then doorbell m s else s
  | .cq n w => writeCq n w v s
  | .ring tx n w => writeRing tx n w v s
  | .tb n w => writeTb n w v s
  | .tbCapture => captureWrite v s
  | .ppsStatus => withTime (fun t => { t with ppsEarly := w1c v 1 t.ppsEarly }) s
  | .rtc w => writeRtc w v s
  | .backup i => writeBackup i v s
  | .coex w => writeCoex w v s
  | .lc w => writeLc w v s
  | .fwlRam o => if windowOpen s then { s with mpRam := memWrite s.mpRam o (le 4 v) } else s
  | .fwlCtrl => if bit v 0 then fwlStart s else s
  | .msixWord i => writeMsix i v s
  | .glb _ | .mbxStatus _ | .mbxState _ | .capStatus | .cap _ _ | .pps _ _ | .fwlResult | .pba _ => s

/-- A four-byte write at an offset: none but a W1C to GLB_RESET_CAUSE acts during a wipe (R66), and none without supplies and PERST_N. -/
def write4 (a v : Nat) (s : State) : State :=
  match regAt a with
  | none => s
  | some g => if live s || (g == .resetCause && powered s) then writeReg g v s else s

/-- An access that R34 allows: four or eight bytes inside BAR0, aligned to their size, with the function in D0 (PRESUMED for D3hot, the
PCI Express base specification's; log 12). -/
def accessOk (a size : Nat) (s : State) : Bool :=
  (size == 4 || size == 8) && a % size == 0 && a + size ≤ 0x1000000 && !s.host.pcie.d3hot

/-- A host write (R34): eight bytes as two writes, the lower address first; one that R34 does not allow is dropped and logged through
AER. -/
def barWrite (a size v : Nat) (s : State) : State :=
  if !accessOk a size s then if powered s then withPcie (fun p => { p with aerUr := true }) s else s
  else if size = 4 then write4 a (v % 2 ^ 32) s
  else write4 (a + 4) (v / 2 ^ 32) (write4 a (v % 2 ^ 32) s)

/-- Pending messages whose vectors are unmasked leave. -/
def sendAllPending (s : State) : State := (List.range 64).foldl sendPending s

/-- A write of configuration space (Table 2.1): of MSI-X Enable and Function Mask, after which pending messages may leave; of the power
state, where D3hot to D0 keeps all state and lets go what waited; and of the plain fields. -/
def cfgWrite (w : RegWrite) (s : State) : State :=
  match w with
  | .bar .. => s
  | .msixEnable on => sendAllPending (withHost (fun h => { h with msixEn := on }) s)
  | .functionMask on => sendAllPending (withPcie (fun p => { p with funcMask := on }) s)
  | .powerState d3 => flushTx (withPcie (fun p => { p with d3hot := d3 }) s)
  | .aspm l1 => withPcie (fun p => { p with aspmL1 := l1 }) s
  | .deviceControl mps mrrs => withPcie (fun p => { p with mps := mps, mrrs := mrrs }) s
  | .ecrc gen chk => withPcie (fun p => { p with ecrcGen := gen, ecrcChk := chk }) s
  | .aerClear => withPcie (fun p => { p with aerUr := false }) s

def regWrite (w : RegWrite) (s : State) : State :=
  match w with
  | .bar a size v => barWrite a size v.toNat s
  | w => if powered s then cfgWrite w s else s

/-- REGISTER_WRITE (R4). -/
def execRegisterWrite (w : RegWrite) (s : State) : Host.Outcome State Fault Refusal := .next (regWrite w s)

/-! Reads. -/

def hi32 (b : BitVec 64) : Nat := b.toNat / 2 ^ 32
def lo32 (b : BitVec 64) : Nat := b.toNat % 2 ^ 32

def readEvt (w : Nat) (e : Evt) : Nat :=
  match w with
  | 0 => lo32 e.base | 1 => hi32 e.base | 2 => e.sizeLog | 3 => e.head.toNat | 4 => e.tail.toNat
  | 5 => put e.en 0 + 2 ^ 4 * e.minSev | 6 => put e.overflow 0 | 7 => e.lost | _ => e.filtered

def readCq (n w : Nat) (s : State) : Nat :=
  let q := vget s.host.cq n
  match w with
  | 0 => lo32 q.base | 1 => hi32 q.base | 2 => q.sizeLog | 3 => put q.en 0 | 4 => q.head.toNat | 5 => q.tail.toNat | _ => cqStatus n s

def readRing (w : Nat) (g : Ring) : Nat :=
  match w with
  | 0 => lo32 g.base | 1 => hi32 g.base | 2 => g.sizeLog | 3 => put g.en 0 + put g.hostStream 1 + 2 ^ 4 * g.stampTb.val
  | 4 => g.prod.toNat | 5 => g.cons.toNat | _ => hringStatus g

/-- Words of a captured time (Table 13.5). -/
def capWord (w : Nat) (p : Nat × Nat × Nat) : Nat :=
  match w with | 0 => p.2.1 | 1 => p.1 % 2 ^ 32 | 2 => 2 ^ 16 * p.2.2 + p.1 / 2 ^ 32 | _ => 0

def readTb (n w : Nat) (s : State) : Nat :=
  let t := vget s.time.tb n
  match w with
  | 0 => t.ns | 1 => t.snapS % 2 ^ 32 | 2 => 2 ^ 16 * t.snapFrac + t.snapS / 2 ^ 32 | 3 => tbStatusWord n s
  | 4 => t.incLo.toNat | 5 => t.incHi.toNat | 6 => t.dither.toNat | 8 => t.setNs.toNat | 9 => t.setLo.toNat | 10 => t.setHi.toNat
  | 12 => t.adjNs.toNat | 13 => t.adjS.toNat | _ => 0

def readRtc (w : Nat) (r : Rtc) : Nat :=
  match w with
  | 0 => (time0Of r.time).toNat
  | 1 => ((r.snap.map (·.1)).getD (time1Of r.time)).toNat
  | 2 => ((r.snap.map (·.2)).getD (time2Of r.time r.presc)).toNat
  | 4 => r.holdDate.toNat | 5 => r.holdTime.toNat | 7 => put r.alarmEn 4 + r.sqwSel | 8 => r.alarm.toNat
  | 9 => rtcStatus r | 10 => put r.wakeWur 0 + put r.wakeAlarm 1 | _ => 0

def readCoex (w : Nat) (s : State) : Nat :=
  match w with
  | 0 => s.coex.ctrl.toNat | 1 => s.coex.policy.toNat | 2 => s.coex.maxHold | 3 => s.coex.toggle | 4 => coexStatus s
  | k => vget s.coex.grants (k - 5)

def readLc (w : Nat) (s : State) : Nat :=
  match w with
  | 0 => lcStatus s | 2 => s.life.lcResult | 4 => lo32 s.life.challenge | 5 => hi32 s.life.challenge | 6 => s.life.lcWdt.toNat | _ => 0

/-- What a four-byte host read of a register returns (R4): WO registers read 0, the load window 0 while it is closed, the RTC 0
throughout a wipe (R66). What else a read does is a command of its own. -/
def readReg (g : Reg) (s : State) : Nat :=
  match g with
  | .resetCause => s.glb.resetCause.toNat
  | .glb w => match w with | 0 => 0x07487340 | 1 => 0xB0 | 2 => glbStatus s | 4 => lo32 s.glb.serial | _ => hi32 s.glb.serial
  | .evt w => readEvt w s.host.evt
  | .route i => (vget s.host.route i).toNat
  | .mbxCmd a | .lcToken a => leNat (memRead s.bar a 4)
  | .mbxStatus m => (vget s.host.mbx m).status.toNat
  | .mbxState m => mbxState m s
  | .cq n w => readCq n w s
  | .ring tx n w => readRing w (ringOf tx n s)
  | .tb n w => readTb n w s
  | .capStatus => s.time.capCount + 2 ^ 16 * s.time.ppsCount
  | .ppsStatus => put s.time.ppsLost 0 + put s.time.ppsEarly 1
  | .cap n w => capWord w (vget s.time.cap n)
  | .pps n w => capWord w (vget s.time.ppsCap n)
  | .rtc w => if live s then readRtc w s.rtc else 0
  | .backup i => if live s then leNat ((List.range 4).map fun k => vget s.rtc.backup (i + k)) else 0
  | .coex w => readCoex w s
  | .lc w => readLc w s
  | .fwlRam o => if windowOpen s then leNat (memRead s.mpRam o 4) else 0
  | .fwlResult => s.life.fwlResult
  | .msixWord i => (vget (if live s then s.host.msixTbl else msixReset) i).toNat
  | .pba w => if live s then bits s.host.pba.toNat (32 * w) 32 else 0
  | .mbxBell _ | .tbCapture | .fwlCtrl => 0

/-- A four-byte host read at an offset (R33). -/
def read4 (a : Nat) (s : State) : Nat := match regAt a with | some g => readReg g s | none => 0

/-- What a host read of BAR0 returns (R34): eight bytes as two reads, the lower address first; none where it completes as Unsupported
Request. -/
def barRead (a size : Nat) (s : State) : Option Nat :=
  if !accessOk a size s then none
  else if size = 4 then some (read4 a s)
  else some (read4 a s + 2 ^ 32 * read4 (a + 4) s)

end Sys2Proof.Machine
end

