-- ==== Sys2Proof/Machine/Commands.lean ====
section
/-!
DEFINITION. The mailbox commands as one table (Table 2.24 and the command tables of the other chapters): the mailbox a row takes its command
from, the host buffer, the row of the command table, and the command's own run.
-/
namespace Sys2Proof.Machine
open Sys2Proof

/-- A mailbox command's mailbox, host buffer, table row and run; none for the block's other commands. -/
def mailboxRow (i : Instr) : Option (Fin 8 × List Byte × Form × (Cmd → State → Effect)) :=
  match i with
  | .nop m buf => some (m, buf, nopForm, nopRun)
  | .getVersion m buf => some (m, buf, getVersionForm, getVersionRun)
  | .abortCommand m buf => some (m, buf, abortCommandForm, abortRun)
  | .hostGetCounters m buf => some (m, buf, hostGetCountersForm, hostGetCountersRun)
  | .radioGetState m buf => some (m, buf, radioGetStateForm, radioGetStateRun)
  | .radioSetState m buf => some (m, buf, radioSetStateForm, setStateRun)
  | .radioSetChannel m buf => some (m, buf, radioSetChannelForm, setChannelRun)
  | .radioCalibrate m buf => some (m, buf, radioCalibrateForm, calibrateRun)
  | .radioSetFemMap m buf => some (m, buf, radioSetFemMapForm, radioSetFemMapRun)
  | .radioSetRamp m buf => some (m, buf, radioSetRampForm, radioSetRampRun)
  | .radioSetChain m buf => some (m, buf, radioSetChainForm, setChainRun)
  | .radioRestoreChain m buf => some (m, buf, radioRestoreChainForm, radioRestoreChainRun)
  | .radioGetChain m buf => some (m, buf, radioGetChainForm, radioGetChainRun)
  | .radioGetCounters m buf => some (m, buf, radioGetCountersForm, radioGetCountersRun)
  | .radioRffeTransfer m buf rd => some (m, buf, radioRffeTransferForm, rffeRun rd)
  | .phySetRx m buf => some (m, buf, phySetRxForm, phySetRxRun)
  | .phySetFormats m buf => some (m, buf, phySetFormatsForm, phySetFormatsRun)
  | .phyGetConfig m buf => some (m, buf, phyGetConfigForm, phyGetConfigRun)
  | .phyGetReport m buf => some (m, buf, phyGetReportForm, phyGetReportRun)
  | .phyReadHistory m buf => some (m, buf, phyReadHistoryForm, phyReadHistoryRun)
  | .phyGetCounters m buf => some (m, buf, phyGetCountersForm, phyGetCountersRun)
  | .phyTestTx m buf => some (m, buf, phyTestTxForm, testTxRun)
  | .macSetBss m buf => some (m, buf, macSetBssForm, setBssRun)
  | .macSetBeacon m buf => some (m, buf, macSetBeaconForm, setBeaconRun)
  | .macSetEdca m buf => some (m, buf, macSetEdcaForm, macSetEdcaRun)
  | .macSetCca m buf => some (m, buf, macSetCcaForm, macSetCcaRun)
  | .macAddSta m buf => some (m, buf, macAddStaForm, addStaRun)
  | .macDelSta m buf => some (m, buf, macDelStaForm, macDelStaRun)
  | .macSetBaPolicy m buf => some (m, buf, macSetBaPolicyForm, macSetBaPolicyRun)
  | .macSetMld m buf => some (m, buf, macSetMldForm, setMldRun)
  | .macSetTwt m buf => some (m, buf, macSetTwtForm, setTwtRun)
  | .macSetUplink m buf => some (m, buf, macSetUplinkForm, setUplinkRun)
  | .macSetRetry m buf => some (m, buf, macSetRetryForm, macSetRetryRun)
  | .macGetCounters m buf => some (m, buf, macGetCountersForm, macGetCountersRun)
  | .macGetSta m buf => some (m, buf, macGetStaForm, macGetStaRun)
  | .schedSetAcWeights m buf => some (m, buf, schedSetAcWeightsForm, schedSetAcWeightsRun)
  | .schedSetBssShare m buf => some (m, buf, schedSetBssShareForm, schedSetBssShareRun)
  | .schedSetSta m buf => some (m, buf, schedSetStaForm, schedSetStaRun)
  | .schedSetLimits m buf => some (m, buf, schedSetLimitsForm, schedSetLimitsRun)
  | .schedGetFurrow m buf => some (m, buf, schedGetFurrowForm, schedGetFurrowRun)
  | .schedGetSta m buf => some (m, buf, schedGetStaForm, schedGetStaRun)
  | .schedFlushQueue m buf => some (m, buf, schedFlushQueueForm, schedFlushQueueRun)
  | .schedGetCounters m buf => some (m, buf, schedGetCountersForm, schedGetCountersRun)
  | .harrowLease m buf => some (m, buf, harrowLeaseForm, leaseRun)
  | .harrowRelease m buf => some (m, buf, harrowReleaseForm, leaseReleaseRun)
  | .harrowSubmitJob m buf => some (m, buf, harrowSubmitJobForm, submitRun)
  | .harrowStopJob m buf => some (m, buf, harrowStopJobForm, stopRun)
  | .harrowGetStatus m buf => some (m, buf, harrowGetStatusForm, harrowGetStatusRun)
  | .harrowGetCounters m buf => some (m, buf, harrowGetCountersForm, harrowGetCountersRun)
  | .bfSetSounding m buf => some (m, buf, bfSetSoundingForm, bfSetSoundingRun)
  | .bfSetAgeing m buf => some (m, buf, bfSetAgeingForm, bfSetAgeingRun)
  | .bfSetPrecoder m buf => some (m, buf, bfSetPrecoderForm, bfSetPrecoderRun)
  | .bfRecalibrate m buf => some (m, buf, bfRecalibrateForm, bfRecalRun)
  | .bfSetFemRecip m buf => some (m, buf, bfSetFemRecipForm, bfSetFemRecipRun)
  | .bfGetCsi m buf => some (m, buf, bfGetCsiForm, bfGetCsiRun)
  | .bfGetGroups m buf => some (m, buf, bfGetGroupsForm, bfGetGroupsRun)
  | .bfGetStatus m buf => some (m, buf, bfGetStatusForm, bfGetStatusRun)
  | .bfGetCounters m buf => some (m, buf, bfGetCountersForm, bfGetCountersRun)
  | .seederGetStatus m buf => some (m, buf, seederGetStatusForm, seederGetStatusRun)
  | .seederSetParams m buf => some (m, buf, seederSetParamsForm, seederSetParamsRun)
  | .seederGetPlacement m buf => some (m, buf, seederGetPlacementForm, seederGetPlacementRun)
  | .seederReadLog m buf => some (m, buf, seederReadLogForm, seederReadLogRun)
  | .seederSetFence m buf => some (m, buf, seederSetFenceForm, setFenceRun)
  | .seederClearFence m buf => some (m, buf, seederClearFenceForm, seederClearFenceRun)
  | .seederGetFence m buf => some (m, buf, seederGetFenceForm, seederGetFenceRun)
  | .seederEvaluate m buf => some (m, buf, seederEvaluateForm, evaluateRun)
  | .seederGetCounters m buf => some (m, buf, seederGetCountersForm, seederGetCountersRun)
  | .ropeJoin m buf => some (m, buf, ropeJoinForm, ropeJoinRun)
  | .ropeLeave m buf => some (m, buf, ropeLeaveForm, ropeLeaveRun)
  | .ropeGetStatus m buf => some (m, buf, ropeGetStatusForm, ropeGetStatusRun)
  | .ropeSetKey m buf => some (m, buf, ropeSetKeyForm, setRopeKeyRun)
  | .ropeGetMember m buf => some (m, buf, ropeGetMemberForm, ropeGetMemberRun)
  | .ropeGetPitch m buf => some (m, buf, ropeGetPitchForm, ropeGetPitchRun)
  | .ropeGetCounters m buf => some (m, buf, ropeGetCountersForm, ropeGetCountersRun)
  | .timeSetRole m buf => some (m, buf, timeSetRoleForm, setRoleRun)
  | .timeSetAsym m buf => some (m, buf, timeSetAsymForm, timeSetAsymRun)
  | .timeSetTsf m buf => some (m, buf, timeSetTsfForm, setTsfRun)
  | .timeSetPps m buf => some (m, buf, timeSetPpsForm, timeSetPpsRun)
  | .timeGetStatus m buf => some (m, buf, timeGetStatusForm, timeGetStatusRun)
  | .timeGetTsf m buf => some (m, buf, timeGetTsfForm, timeGetTsfRun)
  | .timeGetCounters m buf => some (m, buf, timeGetCountersForm, timeGetCountersRun)
  | .routerSetParams m buf => some (m, buf, routerSetParamsForm, routerSetParamsRun)
  | .routerSetFlow m buf => some (m, buf, routerSetFlowForm, setFlowRun)
  | .routerDelFlow m buf => some (m, buf, routerDelFlowForm, routerDelFlowRun)
  | .routerGetFlow m buf => some (m, buf, routerGetFlowForm, routerGetFlowRun)
  | .routerSetRule m buf => some (m, buf, routerSetRuleForm, routerSetRuleRun)
  | .routerSetRoute m buf => some (m, buf, routerSetRouteForm, setRouteRun)
  | .routerSetNeigh m buf => some (m, buf, routerSetNeighForm, setNeighRun)
  | .routerSetFdb m buf => some (m, buf, routerSetFdbForm, setFdbRun)
  | .routerFlushFdb m buf => some (m, buf, routerFlushFdbForm, routerFlushFdbRun)
  | .routerSetDomain m buf => some (m, buf, routerSetDomainForm, routerSetDomainRun)
  | .routerSetPortPair m buf => some (m, buf, routerSetPortPairForm, routerSetPortPairRun)
  | .routerSetRingGroup m buf => some (m, buf, routerSetRingGroupForm, routerSetRingGroupRun)
  | .routerSetHash m buf => some (m, buf, routerSetHashForm, routerSetHashRun)
  | .routerSetIndirection m buf => some (m, buf, routerSetIndirectionForm, routerSetIndirectionRun)
  | .routerSetExcLimit m buf => some (m, buf, routerSetExcLimitForm, routerSetExcLimitRun)
  | .routerGetCounters m buf => some (m, buf, routerGetCountersForm, routerGetCountersRun)
  | .routerGetRule m buf => some (m, buf, routerGetRuleForm, routerGetRuleRun)
  | .ethConfigurePort m buf => some (m, buf, ethConfigurePortForm, configureRun)
  | .ethSetFilter m buf => some (m, buf, ethSetFilterForm, setFilterRun)
  | .ethGetStatus m buf tx rx => some (m, buf, ethGetStatusForm, ethGetStatusRun tx rx)
  | .ethSetFallow m buf => some (m, buf, ethSetFallowForm, setFallowRun)
  | .ethGetCounters m buf => some (m, buf, ethGetCountersForm, ethGetCountersRun)
  | .secGetIdentity m buf => some (m, buf, secGetIdentityForm, secGetIdentityRun)
  | .secOpenSession m buf pass => some (m, buf, secOpenSessionForm, openSessionRun pass)
  | .secLoadKey m buf => some (m, buf, secLoadKeyForm, loadKeyRun)
  | .secDeleteKey m buf => some (m, buf, secDeleteKeyForm, deleteKeyRun)
  | .secBindKey m buf => some (m, buf, secBindKeyForm, bindKeyRun)
  | .secGetKeyState m buf => some (m, buf, secGetKeyStateForm, secGetKeyStateRun)
  | .secSetStream m buf => some (m, buf, secSetStreamForm, setStreamRun)
  | .secMacsecPort m buf => some (m, buf, secMacsecPortForm, secMacsecPortRun)
  | .secMacsecSetSa m buf => some (m, buf, secMacsecSetSaForm, setSaRun)
  | .secSae m buf pass mism => some (m, buf, secSaeForm, saeRun pass mism)
  | .sec4way m buf mism => some (m, buf, sec4wayForm, fourWayRun mism)
  | .secEapol m buf mism => some (m, buf, secEapolForm, eapolRun mism)
  | .secGetCounters m buf => some (m, buf, secGetCountersForm, secGetCountersRun)
  | .dramConfigure m buf => some (m, buf, dramConfigureForm, dramConfigureRun)
  | .dramSetPolicy m buf => some (m, buf, dramSetPolicyForm, dramSetPolicyRun)
  | .dramSetRate m buf => some (m, buf, dramSetRateForm, setRateRun)
  | .dramRetrain m buf => some (m, buf, dramRetrainForm, dramRetrainRun)
  | .dramGetStatus m buf => some (m, buf, dramGetStatusForm, dramGetStatusRun)
  | .dramGetErrors m buf => some (m, buf, dramGetErrorsForm, dramGetErrorsRun)
  | .dramGetCounters m buf => some (m, buf, dramGetCountersForm, dramGetCountersRun)
  | .relGetStatus m buf => some (m, buf, relGetStatusForm, relGetStatusRun)
  | .cairnRestore m buf d d0 => some (m, buf, cairnRestoreForm, cairnRestoreRun d d0)
  | .cairnExport m buf => some (m, buf, cairnExportForm, cairnExportRun)
  | .relGetCounters m buf => some (m, buf, relGetCountersForm, relGetCountersRun)
  | .sysGetState m buf => some (m, buf, sysGetStateForm, sysGetStateRun)
  | .sysSetMode m buf => some (m, buf, sysSetModeForm, setModeRun)
  | .powerEnterBivouac m buf => some (m, buf, powerEnterBivouacForm, bivouacRun)
  | .wurSetRx m buf => some (m, buf, wurSetRxForm, wurSetRxRun)
  | .wurSetMatch m buf => some (m, buf, wurSetMatchForm, wurSetMatchRun)
  | .wurGetStatus m buf => some (m, buf, wurGetStatusForm, wurGetStatusRun)
  | .wurSend m buf => some (m, buf, wurSendForm, wurSendRun)
  | .wurGetCounters m buf => some (m, buf, wurGetCountersForm, wurGetCountersRun)
  | .harrowNop _ _ | .halt _ _ | .loop _ _ | .br _ _ | .sli _ _ | .sadd _ _ | .pset _ _ | .xfer _ _ | .xwait _ _ | .swi _ _ | .rti _ _
  | .tset _ _ | .expclr _ _ | .expget _ _ | .idxset _ _ | .mmget _ _ | .move _ _ | .vadd _ _ | .vsub _ _ | .vmuln _ _ | .vmulcn _ _
  | .vmac _ _ | .vmacc _ _ | .vmsu _ _ | .vmul0 _ _ | .vdotc _ _ | .vnrw _ _ | .vsha _ _ | .vconj _ _ | .vneg _ _ | .vbfly _ _ | .vperm _ _
  | .bexp _ _ | .vmaxi _ _ | .vmini _ _ | .vrcp _ _ | .vrsq _ _ | .vsplat _ _ | .dmaTransferDone _ _ _ | .stepTimerExpiry _
  | .interruptTaken _ | .jobBudget _ | .jobStart _ _ _ | .jobComplete _ _ | .canaryMeasure _ _ | .telemSteal _ _ | .mbxDoorbell _
  | .completionWrite _ | .cqHeadWrite _ _ | .cqEnable _ | .cqDisable _ | .eventRaise _ _ _ | .eventWrite | .evtHeadWrite _ | .evtEnable
  | .evtDisable | .evtLostRead | .evtFilteredRead | .coexGrantsRead _ | .watchdogExpiry | .coalesceTimeout _ | .msixDeferredSend _
  | .msixUnmask _ | .hringProdWrite _ _ _ | .hringEnable _ _ | .hringDisable _ _ | .hringIdle _ _ | .hringResume _ _ | .htxFrameFetch _ _ _
  | .hrxFrameDeliver _ _ | .registerWrite _ | .powerOnReset | .perstAssert | .perstRelease | .hotReset | .flr | .sysReset _ | .wdtAutoReset
  | .thermalTrip | .thermalHoldClear | .thermalWarn _ | .wipeEnd | .applyToken _ | .fuseProgramDone | .fwlStart | .imageVerified | .fwReady
  | .bivouacNAssert | .supplyRemoval _ | .canaryReplan _ | .avsFault | .avsPauseEnd | .avsAck _ | .refLost | .refReturn | .commitPoint _
  | .responderComplete _ _ | .hlEvaluate _ | .hlUndo _ | .radioStateApply _ | .radioTransitionEnd _ | .radioAutoWake _ _ | .synTempSample _ _
  | .calPendingStart _ | .calForced _ | .synCalEnd _ | .channelSwitch _ _ | .derateResearch _ _ | .coexReqChange _ _ | .coexPriChange _ _
  | .coexStuck _ | .preambleDetect _ _ _ | .sigValidate _ _ | .searchResume _ | .restartDecision _ _ _ | .ldpcDecode _ _ _ | .mpduRx _ _
  | .rxPpduEnd _ _ | .txPpduStart _ _ _ _ | .txUnderrun _ | .txPpduEnd _ _ | .wurFrameRx _ | .wurWindow _ | .wurCopyDue _
  | .responseTimeout _ | .ccaChange _ _ _ _ | .backoffSlot _ _ _ | .navRtsTimeout _ | .msduLifetimeExpiry _ | .defragTimeout _
  | .reorderTimeout _ | .addbaRequest _ _ _ _ | .twtSetupRequest _ _ _ _ _ _ | .saQuery _ _ | .tbtt _ _ | .bcnDeferred _ | .twtSpStart _
  | .uplBeaconWindowEnd _ | .furrowBuildStart _ _ _ _ | .furrowReady _ _ | .furrowLateWindow _ | .llUrgent _ _ | .llDeadline _ _
  | .ulHoldEnd _ | .coordTxopStart _ _ _ | .soundingFeedback _ _ _ | .csiExpired _ _ _ | .recipCalRequest _ | .recipCalStart _
  | .recalForced _ | .recipCalEnd _ _ | .groupRebuild _ _ | .seederEvaluation _ | .seederOverload _ _ _ _ _ | .forcedReplacement _
  | .surveyDwell _ _ _ _ | .surveySkip _ | .steerResponse _ _ | .steerTimeout _ | .belaySend | .belay _ | .belayWindowClose | .joinReq _
  | .joinReqSend | .joinAck _ | .joinConfirm _ | .joinTimeout | .ropeForm | .leave _ | .rosterReq _ | .roster _ | .report _
  | .reportSend _ _ _ | .hello _ | .helloSend | .clients _ | .clientsSend _ _ | .memberTimeout _ | .tReqSend | .tReq _ | .tRespSend _
  | .tResp _ | .timeExchLost | .timeServoStep | .proposalSend _ _ _ | .proposal _ | .proposalCutoff | .planSend | .plan _ | .coordSlotStart
  | .keyPhaseExpiry | .tbCmdSet _ _ | .tbCmdAdj _ _ | .tbIncCommit _ _ | .tbDitherCommit _ _ | .tbTimeRead _ | .tbCaptureGo _ | .tbSaturate _
  | .tbMasterTimeout _ | .ppsInEdge | .ppsInLost | .ppsOutEdge | .ppsOutFall | .launchJudge _ | .launchInstant _ _ | .routerClassify _ _ _ _
  | .exceptionDeliver | .fragmentSlowPath _ _ | .slowFragTimeout | .flowAgeCheck | .fdbAge _ _ | .ethFrameRx _ _ _ _ _ _ _ _ | .pauseRx _ _
  | .pauseEnd _ | .ethFrameTx _ _ | .launchWireHold _ | .ethLinkUp _ _ _ _ | .ethLinkDown _ _ | .preemptVerify _ | .capsSend _ | .caps _ _ _
  | .fallowCapsTimeout _ | .fallowDownTrigger _ | .fallowUpTrigger _ | .stepReq _ _ _ _ | .stepAck _ _ | .stepNak _ _ | .stepReqTimeout _
  | .ethFallow _ _ | .cipherFrame _ _ _ _ | .keyHoldTimeout _ | .saeContextTimeout _ | .dramInitDone _ | .dramRead _ _ | .dramWrite _ _
  | .alertFall _ _ | .alertRise _ | .refDue _ _ | .refIssue _ _ | .refPullIn _ _ | .tempRead _ _ | .zqCal _ | .retrainDue _
  | .retrainStart _ _ | .retrainDone _ _ _ | .rtcTime0Read _ | .rtcTime2Read | .rtcSnapshotExpiry | .rtcCommit _ | .rtcCommitLoad
  | .rtcUnlock _ | .rtcLock | .vddIoGood | .batteryPowerUp | .rtcSecondTick | .oscStop _ | .oscResume | .gleanerAccess _ _ _
  | .gleanerPassEnd _ | .gleanerEscalate _ | .weakRegionScrub _ _ _ | .arrayWriteback _ | .ternaryRepair _ _ | .canarySample _
  | .stressSample _ | .marginReplan _ _ | .gainCal _ _ _ _ | .cairnReady | .navExpiry _ _ | .laneWipeDone _ | .surveyDwellEnd _ _
  | .rateChange | .respondMpacket _ _ | .trngHealthFail => none

end Sys2Proof.Machine
end

