-- ==== Sys2Proof/Machine/Lane.lean ====
section
/-!
DEFINITION. The Harrow lane's instruction set (Tables 9.4 to 9.7) and what happens between instructions (R225, R226, R231,
R232). Each instruction row takes the next instruction of lane `l` where it is that row's; elsewhere it does not arise and
changes nothing. `chk` is what the lane's own checks find in that step (R227, R228).
-/
namespace Sys2Proof.Machine
open Sys2Proof

/-! Format K fields (Table 9.6) and format V fields (Table 9.4). -/

def opOf (w : Nat) : Nat := bits w 57 7
def rd (w : Nat) : Nat := bits w 52 5
def ra (w : Nat) : Nat := bits w 47 5
def immOf (w : Nat) : Nat := bits w 0 32
def vd (w : Nat) : Nat := bits w 52 5
def va (w : Nat) : Nat := bits w 47 5
def vb (w : Nat) : Nat := bits w 42 5
def accN (w : Nat) : Nat := bits w 40 2

/-- What an instruction does: it is illegal (R220), it breaks the sandbox (R218, R233), it holds issue (R215), or it takes
`cost` steps and leaves the lane as `after`. -/
inductive LaneRes where
  | illegal | sandbox | hold
  | done (cost : Nat) (after : Lane)
  deriving DecidableEq, Repr

/-- A format K instruction of one step: reserved bits 0, its own field values legal. -/
def kRes (w : Nat) (ok : Bool) (run : Lane → Lane) (x : Lane) : LaneRes :=
  if bits w 32 15 ≠ 0 || !ok then .illegal else .done (stepCost x 0 false) (advance (run (afterFetch x)))

/-- A format K instruction that sets the next index itself. -/
def kJump (w : Nat) (ok : Bool) (cost : Nat) (run : Lane → Lane) (x : Lane) : LaneRes :=
  if bits w 32 15 ≠ 0 || !ok then .illegal else .done cost (run (afterFetch x))

/-- A format V instruction: its operation and its moves (R218, R220). `dests`: the vector registers the operation writes. -/
def vRes (w : Nat) (ok : Bool) (dests : List Nat) (run : Lane → Lane) (free : Nat → Nat → Option (BitVec 32)) (x : Lane) : LaneRes :=
  if bit w 0 || !ok || !slotsLegal w x || decide (¬ (loaded w ++ dests).Nodup) then .illegal
  else if x.fallback && (touched w x).any (fun q => 4096 ≤ q.2) then .sandbox
  else .done (stepCost x (activeSlots w).length (slotAt w 2).en) (advance (doMoves w x free (run (afterFetch x))))

/-- Free values of moved elements: none. -/
def noFree : Nat → Nat → Option (BitVec 32) := fun _ _ => none

/-! Format K instructions (Table 9.7). -/

def nopRes (w : Nat) (x : Lane) : LaneRes :=
  if opOf w ≠ 0 then .illegal else kRes w true id x

def haltRes (w : Nat) (x : Lane) : LaneRes := kRes w true id x

/-- LOOP (R216): a third level, or an inner body past the end of the outer one, is illegal; a count of 0 skips the body. -/
def loopRes (w : Nat) (x : Lane) : LaneRes :=
  let n := bits (immOf w) 0 6 + 1
  let last := x.pc + n
  let count := (sreg x (rd w)).toNat
  let outerOk := match x.f.loops with | [] => true | v :: _ => last ≤ v.last
  kJump w (bits (immOf w) 6 26 == 0 && rd w < 16 && x.f.loops.length < 2 && outerOk) (stepCost x 0 false) (fun y =>
    if count = 0 then advanceFrom last y
    else
      let lv : LoopLv := { start := x.pc + 1, last := last, left := count }
      let z := { withFile (fun g => { g with loops := lv :: g.loops }) y with pc := x.pc + 1 }
      if x.f.loops.isEmpty && !x.handler then { z with cache := [] } else z) x

/-- The condition of BR. -/
def brTaken (w : Nat) (x : Lane) : Bool :=
  match ra w with
  | 0 => true
  | 1 => sreg x (rd w) == 0
  | 2 => sreg x (rd w) != 0
  | _ => (sreg x (rd w)).msb

/-- BR: two steps when taken (R215); illegal inside a loop body (R216). -/
def brRes (w : Nat) (x : Lane) : LaneRes :=
  kJump w (ra w ≤ 3 && (ra w == 0 || rd w < 16) && x.f.loops.isEmpty) (if brTaken w x then 2 else stepCost x 0 false)
    (fun y => if brTaken w x then { y with pc := bits (immOf w) 0 13 } else advance y) x

def sliRes (w : Nat) (x : Lane) : LaneRes := kRes w (rd w < 16) (setS (rd w) (BitVec.ofNat 32 (immOf w))) x

def saddRes (w : Nat) (x : Lane) : LaneRes :=
  kRes w (rd w < 16 && ra w < 16) (setS (rd w) (sreg x (ra w) + BitVec.ofNat 32 (immOf w))) x

/-- PSET: the field RA of pointer P(RD); unused IMM bits are 0, values are checked at use. -/
def psetRes (w : Nat) (x : Lane) : LaneRes :=
  let v := immOf w
  let p := preg x (rd w)
  let r : Bool × Ptr := match ra w with
    | 0 => (v < 2 ^ 14, { p with base := v })
    | 1 => (v < 2 ^ 15, { p with len := v })
    | 2 => (v < 2 ^ 14, { p with step := sgn 14 v })
    | 3 => (v < 16, { p with mode := bits v 0 2, mem := bits v 2 2 })
    | 4 => (v < 2 ^ 14, { p with addr := v })
    | _ => (false, p)
  kRes w (rd w < 8 && r.1) (setP (rd w) r.2) x

/-- The DMA descriptor at a C element (Table 9.10). -/
def dmaAt (x : Lane) (e : Nat) : Seg :=
  let b := laneBytes x 2 e 32
  { descSeg b 0 (bit (u8 b 16) 0) with irq := bit (u8 b 16) 1 }

/-- XFER: starts a transfer on an idle channel; a busy one holds issue; one the lease does not allow is a sandbox violation. -/
def xferRes (e : Lease) (w : Nat) (x : Lane) : LaneRes :=
  let c := bits (rd w) 0 2
  let a := bits (immOf w) 0 14
  let g := dmaAt x a
  if bits w 32 15 ≠ 0 || a % 8 ≠ 0 then .illegal
  else if (vget x.chan c).isSome then .hold
  else if (x.fallback && 4096 ≤ a + 7) || !segCheck x e g then .sandbox
  else kRes w true (fun y => { y with chan := vset y.chan c (some g) }) x

/-- XWAIT: one step, and issue is held while the channel is busy. -/
def xwaitRes (w : Nat) (x : Lane) : LaneRes :=
  let c := bits (rd w) 0 2
  kRes w true (fun y => { y with wait := if (vget x.chan c).isSome then some c else none }) x

/-- A source becomes pending. -/
def pendSrc (i : Nat) (x : Lane) : Lane := { x with pend := x.pend ||| 2 ^ i }

def swiRes (w : Nat) (x : Lane) : LaneRes := kRes w true (pendSrc 2) x

/-- RTI: the interrupted bank returns in one step; illegal outside a handler (R225, R226). -/
def rtiRes (w : Nat) (x : Lane) : LaneRes :=
  kJump w x.handler (stepCost x 0 false) (fun y => { swapBanks y with pc := y.saved, handler := false, group := none }) x

/-- TSET: IMM further counted steps; 0 cancels. -/
def tsetRes (w : Nat) (x : Lane) : LaneRes :=
  kRes w true (fun y => { y with timer := if immOf w = 0 then none else some (x.steps + stepCost x 0 false + immOf w) }) x

def expclrRes (w : Nat) (x : Lane) : LaneRes := kRes w true (fun y => { y with expr := 15 }) x
def expgetRes (w : Nat) (x : Lane) : LaneRes := kRes w (rd w < 16) (setS (rd w) (BitVec.ofNat 32 x.expr)) x

def idxsetRes (w : Nat) (x : Lane) : LaneRes :=
  kRes w true (fun y => { y with ibase := BitVec.ofNat 32 (immOf w), maxv := none, minv := none }) x

/-- MMGET: an empty maximum or minimum reads value 0 and index 0xFFFFFFFF (R224). -/
def mmgetRes (w : Nat) (x : Lane) : LaneRes :=
  let m := fun o : Option (Word × Word) => o.getD (0, 0xFFFFFFFF)
  let v := match ra w with
    | 0 => (m x.maxv).1 | 1 => (m x.maxv).2 | 2 => (m x.minv).1 | _ => (m x.minv).2
  kRes w (rd w < 16 && ra w ≤ 3) (setS (rd w) v) x

/-! Format V operations (Table 9.7). -/

abbrev FreeMove := Nat → Nat → Option (BitVec 32)

def moveRes (w : Nat) (free : FreeMove) (x : Lane) : LaneRes := vRes w true [] id free x

/-- An operation with one vector result. -/
def vecRes (w : Nat) (ok : Bool) (r : Vec8 × Bool) (free : FreeMove) (x : Lane) : LaneRes :=
  vRes w ok [vd w] (setVec (vd w) r) free x

def vaddRes (w : Nat) (free : FreeMove) (x : Lane) : LaneRes :=
  let a := vreg x (va w); let b := vreg x (vb w)
  vecRes w true (vecOf fun i => satElement (re (el a i) + re (el b i)) (im (el a i) + im (el b i))) free x

def vsubRes (w : Nat) (free : FreeMove) (x : Lane) : LaneRes :=
  let a := vreg x (va w); let b := vreg x (vb w)
  vecRes w true (vecOf fun i => satElement (re (el a i) - re (el b i)) (im (el a i) - im (el b i))) free x

def vmulnRes (w : Nat) (free : FreeMove) (x : Lane) : LaneRes :=
  let a := vreg x (va w); let b := vreg x (vb w)
  vecRes w true (vecOf fun i => satElement (cr (mulRe (el a i) (el b i)) 15) (cr (mulIm (el a i) (el b i)) 15)) free x

def vmulcnRes (w : Nat) (free : FreeMove) (x : Lane) : LaneRes :=
  let a := vreg x (va w); let b := vreg x (vb w)
  vecRes w true (vecOf fun i => satElement (cr (mulcRe (el a i) (el b i)) 15) (cr (mulcIm (el a i) (el b i)) 15)) free x

def vmacRes (w : Nat) (free : FreeMove) (x : Lane) : LaneRes :=
  let a := vreg x (va w); let b := vreg x (vb w)
  vRes w true [] (accumulate (accN w) fun i => (mulRe (el a i) (el b i), mulIm (el a i) (el b i))) free x

def vmaccRes (w : Nat) (free : FreeMove) (x : Lane) : LaneRes :=
  let a := vreg x (va w); let b := vreg x (vb w)
  vRes w true [] (accumulate (accN w) fun i => (mulcRe (el a i) (el b i), mulcIm (el a i) (el b i))) free x

def vmsuRes (w : Nat) (free : FreeMove) (x : Lane) : LaneRes :=
  let a := vreg x (va w); let b := vreg x (vb w)
  vRes w true [] (accumulate (accN w) fun i => (-mulRe (el a i) (el b i), -mulIm (el a i) (el b i))) free x

def vmul0Res (w : Nat) (free : FreeMove) (x : Lane) : LaneRes :=
  let a := vreg x (va w); let b := vreg x (vb w)
  vRes w true [] (setAcc (accN w) (Vector.ofFn fun i =>
    (BitVec.ofInt 40 (mulRe (el a i.val) (el b i.val)), BitVec.ofInt 40 (mulIm (el a i.val) (el b i.val))))) free x

def vdotcRes (w : Nat) (free : FreeMove) (x : Lane) : LaneRes :=
  let a := vreg x (va w); let b := vreg x (vb w)
  let sum := fun f : BitVec 32 → BitVec 32 → Int => ((List.range 8).map fun i => f (el a i) (el b i)).sum
  vRes w true [] (accumulate (accN w) fun i => if i = 0 then (sum mulcRe, sum mulcIm) else (0, 0)) free x

def vnrwRes (w : Nat) (free : FreeMove) (x : Lane) : LaneRes :=
  let a := areg x (accN w)
  vecRes w true (vecOf fun i => satElement (cr (accEl a i).1.toInt (vb w)) (cr (accEl a i).2.toInt (vb w))) free x

/-- VSHA: VB signed; negative shifts right and rounds, positive shifts left and saturates. -/
def vshaRes (w : Nat) (free : FreeMove) (x : Lane) : LaneRes :=
  let a := vreg x (va w)
  let n := sgn 5 (vb w)
  let sh := fun v : Int => if n < 0 then cr v (-n).toNat else v * 2 ^ n.toNat
  vecRes w true (vecOf fun i => satElement (sh (re (el a i))) (sh (im (el a i)))) free x

def vconjRes (w : Nat) (free : FreeMove) (x : Lane) : LaneRes :=
  let a := vreg x (va w)
  vecRes w true (vecOf fun i => satElement (re (el a i)) (-im (el a i))) free x

def vnegRes (w : Nat) (free : FreeMove) (x : Lane) : LaneRes :=
  let a := vreg x (va w)
  vecRes w true (vecOf fun i => satElement (-re (el a i)) (-im (el a i))) free x

/-- VBFLY: sum to V(VD) and difference to V(VD + 1), halved with ACC[0] at 1. -/
def vbflyRes (w : Nat) (free : FreeMove) (x : Lane) : LaneRes :=
  let a := vreg x (va w); let b := vreg x (vb w)
  let h := fun v : Int => if bit (accN w) 0 then cr v 1 else v
  let sum := vecOf fun i => satElement (h (re (el a i) + re (el b i))) (h (im (el a i) + im (el b i)))
  let dif := vecOf fun i => satElement (h (re (el a i) - re (el b i))) (h (im (el a i) - im (el b i)))
  vRes w (vd w % 2 == 0 && !bit (accN w) 1) [vd w, vd w + 1] (fun y => setVec (vd w + 1) dif (setVec (vd w) sum y)) free x

/-- VPERM's source element for element `i`; none for a reserved pattern. -/
def permSrc (pattern i : Nat) : Option Nat :=
  match pattern with
  | 0 => some (7 - i)
  | 1 => some (if i % 2 = 0 then i + 1 else i - 1)
  | 2 => some ((i + 4) % 8)
  | 3 => [0, 4, 2, 6, 1, 5, 3, 7][i]?
  | _ => if 8 ≤ pattern ∧ pattern ≤ 15 then some (pattern - 8) else none

def vpermRes (w : Nat) (free : FreeMove) (x : Lane) : LaneRes :=
  let a := vreg x (va w)
  vecRes w (permSrc (vb w) 0).isSome (vecOf fun i => (el a ((permSrc (vb w) i).getD 0), false)) free x

def bexpRes (w : Nat) (free : FreeMove) (x : Lane) : LaneRes :=
  let a := vreg x (va w)
  let n := (List.range 8).foldl (fun n i => min n (min (rsb (re (el a i))) (rsb (im (el a i))))) x.expr
  vRes w true [] (fun y => { y with expr := n }) free x

/-- A measure of VMAXI and VMINI (R224), as MAXV holds it, and as it is compared. -/
def measure (k : Nat) (e : BitVec 32) : Int := match k with | 0 => re e | 1 => im e | _ => re e * re e + im e * im e
def measured (k : Nat) (v : Word) : Int := if k = 2 then (v.toNat : Int) else v.toInt

/-- The running extreme over a vector: only a strictly better value, or an empty one, replaces (R224). -/
def runBest (better : Int → Int → Bool) (k : Nat) (a : Vec8) (ibase : Word) (o : Option (Word × Word)) : Option (Word × Word) :=
  (List.range 8).foldl (fun o i =>
    let v := measure k (el a i)
    match o with
    | none => some (BitVec.ofInt 32 v, ibase + BitVec.ofNat 32 i)
    | some b => if better v (measured k b.1) then some (BitVec.ofInt 32 v, ibase + BitVec.ofNat 32 i) else o) o

/-- VMAXI and VMINI fields: VB measure, VD[0] INC. -/
def bestOk (w : Nat) : Bool := vb w ≤ 2 && bits (vd w) 1 4 == 0
def incBase (w : Nat) (y : Lane) : Lane := if bit (vd w) 0 then { y with ibase := y.ibase + 8 } else y

def vmaxiRes (w : Nat) (free : FreeMove) (x : Lane) : LaneRes :=
  let m := runBest (fun a b => decide (a > b)) (vb w) (vreg x (va w)) x.ibase x.maxv
  vRes w (bestOk w) [] (fun y => incBase w { y with maxv := m }) free x

def vminiRes (w : Nat) (free : FreeMove) (x : Lane) : LaneRes :=
  let m := runBest (fun a b => decide (a < b)) (vb w) (vreg x (va w)) x.ibase x.minv
  vRes w (bestOk w) [] (fun y => incBase w { y with minv := m }) free x

/-- A seed result: real part only; 0x7FFF with SAT outside the range. -/
def seedRes (w lo : Nat) (f : Nat → Int) (free : FreeMove) (x : Lane) : LaneRes :=
  let a := vreg x (va w)
  vecRes w true (vecOf fun i =>
    let n := re (el a i)
    if n < lo then (element 0x7FFF 0, true) else (element (f n.toNat) 0, false)) free x

def vrcpRes (w : Nat) (free : FreeMove) (x : Lane) : LaneRes := seedRes w 0x4000 rcpSeed free x
def vrsqRes (w : Nat) (free : FreeMove) (x : Lane) : LaneRes := seedRes w 0x2000 rsqSeed free x

def vsplatRes (w : Nat) (free : FreeMove) (x : Lane) : LaneRes :=
  vecRes w (va w ≤ 15) (Vector.replicate 8 (sreg x (va w)), false) free x

/-! Issue. -/

/-- Issue is held by XWAIT. -/
def laneHeld (x : Lane) : Bool := match x.wait with | some c => (vget x.chan c).isSome | none => false

/-- The step timer has run out and source 1 is not raised yet. -/
def timerDue (x : Lane) : Bool := match x.timer with | some t => t ≤ x.steps | none => false

/-- A source is enabled: its vector is not 0xFFFF (R225). -/
def srcEnabled (x : Lane) (i : Nat) : Bool := ((x.job.map fun j => j.ivec.getD i 0xFFFF).getD 0xFFFF) != 0xFFFF

/-- The interrupt taken at this boundary: the lowest-numbered pending enabled source, outside a handler (R225, R226). -/
def dueSource (x : Lane) : Option Nat :=
  if x.handler || laneHeld x then none else (List.range 4).find? fun i => bit x.pend i && srcEnabled x i

/-- A program's next instruction may issue now. -/
def mayIssue (x : Lane) : Bool := x.phase == .program && x.job.isSome && !laneHeld x && !timerDue x && (dueSource x).isNone

/-- The next instruction's element exists (Jobs), and is one the mode may reach (R218). -/
def fetchIllegal (x : Lane) : Bool := (cached x).isNone && 16384 ≤ instrElem x x.pc
def fetchOutside (x : Lane) : Bool := (cached x).isNone && x.fallback && 4096 ≤ instrElem x x.pc + 1

/-- The lease of the lane's job. -/
def jobLease (x : Lane) (s : State) : Lease := ((x.job.map (·.lease)).bind (kget s.harrow.lease ·)).getD {}

/-- Every instruction by its opcode. -/
def laneRes (e : Lease) (free : FreeMove) (x : Lane) : LaneRes :=
  if fetchIllegal x then .illegal
  else if fetchOutside x then .sandbox
  else
    let w := fetched x
    match opOf w with
    | 0x01 => haltRes w x | 0x02 => loopRes w x | 0x03 => brRes w x | 0x04 => sliRes w x | 0x05 => saddRes w x
    | 0x06 => psetRes w x | 0x07 => xferRes e w x | 0x08 => xwaitRes w x | 0x09 => swiRes w x | 0x0A => rtiRes w x
    | 0x0B => tsetRes w x | 0x0C => expclrRes w x | 0x0D => expgetRes w x | 0x0E => idxsetRes w x | 0x0F => mmgetRes w x
    | 0x20 => moveRes w free x | 0x21 => vaddRes w free x | 0x22 => vsubRes w free x | 0x23 => vmulnRes w free x
    | 0x24 => vmulcnRes w free x | 0x25 => vmacRes w free x | 0x26 => vmaccRes w free x | 0x27 => vmsuRes w free x
    | 0x28 => vmul0Res w free x | 0x29 => vdotcRes w free x | 0x2A => vnrwRes w free x | 0x2B => vshaRes w free x
    | 0x2C => vconjRes w free x | 0x2D => vnegRes w free x | 0x2E => vbflyRes w free x | 0x2F => vpermRes w free x
    | 0x30 => bexpRes w free x | 0x31 => vmaxiRes w free x | 0x32 => vminiRes w free x | 0x33 => vrcpRes w free x
    | 0x34 => vrsqRes w free x | 0x35 => vsplatRes w free x
    | _ => nopRes w x

/-- The next step would exceed the budget (R232). -/
def budgetSpent (e : Lease) (x : Lane) : Bool :=
  let b := (x.job.map (·.budget)).getD 0
  decide (b ≤ x.steps) || match laneRes e noFree x with
    | .done c _ => decide (b < x.steps + c)
    | _ => false

/-- The row's opcode of the next instruction; 128 where its element cannot be fetched. -/
def nextOp (x : Lane) : Nat := if fetchIllegal x || fetchOutside x then 128 else opOf (fetched x)

/-- An element that a running transfer writes (R231). -/
def underTransfer (x : Lane) (m e : Nat) : Bool :=
  x.chan.toList.any fun o => match o with
    | some g => !g.out && g.mem == m && g.elem ≤ e && e < g.elem + g.len / 4
    | none => false

/-- Values for the elements a format V word's moves load from under a running transfer: old or new, so free here. -/
def freeMoves (x : Lane) (s : State) : FreeMove × State :=
  if 0x20 ≤ opOf (fetched x) && (touched (fetched x) x).any fun q => underTransfer x q.1 q.2 then
    let d := draw 768 s
    let v := d.1
    ((fun m e => if underTransfer x m e then
        some (v.extractLsb' (32 * (((touched (fetched x) x).idxOf (m, e)) % 24)) 32) else none), d.2)
  else (noFree, s)

/-- One instruction of lane `l`, where the row's opcode is the next one: what the checks find comes first (R227, R228), then
the instruction, its fault, or its steps. -/
def issue (l : Nat) (chk : LaneCheck) (own : Nat → Bool) (run : Lease → FreeMove → Lane → LaneRes) (s : State) : State :=
  let x := lane l s
  let e := jobLease x s
  if !mayIssue x || !own (nextOp x) || budgetSpent e x then s
  else
    match chk with
    | .residue => residueError l (hcount 6 1 s)
    | .memory b w => memoryError l b w s
    | _ =>
      let t := match chk with | .retried => hcount 6 1 s | .cache w => cacheError l w s | _ => s
      let y := lane l t
      let f := freeMoves y t
      match run e f.1 y with
      | .hold => t
      | .illegal => endJob l 1 t
      | .sandbox => endJob l 2 t
      | .done c z => withLane l (fun _ => { z with steps := y.steps + c }) f.2

/-- A row of opcode `op`. -/
def laneRow (op : Nat) (l : Fin 16) (chk : LaneCheck) (run : Nat → FreeMove → Lane → LaneRes) (s : State) : Host.Outcome State Fault Refusal :=
  whenLive s (issue l chk (· == op) fun _ free x => run (fetched x) free x)

/-- A row of a format K opcode. -/
def laneRowK (op : Nat) (l : Fin 16) (chk : LaneCheck) (run : Nat → Lane → LaneRes) (s : State) : Host.Outcome State Fault Refusal :=
  laneRow op l chk (fun w _ x => run w x) s

/-- Opcodes of Table 9.7 that another row carries out. -/
def otherOp (op : Nat) : Bool := (1 ≤ op && op ≤ 0x0F) || (0x20 ≤ op && op ≤ 0x35)

/-- NOP, and with it every undefined opcode and every index that cannot be fetched (R220, R218). -/
def execHarrowNop (l : Fin 16) (chk : LaneCheck) (s : State) : Host.Outcome State Fault Refusal :=
  whenLive s (issue l chk (fun op => !otherOp op) fun _ _ x =>
    if fetchIllegal x then .illegal else if fetchOutside x then .sandbox else nopRes (fetched x) x)

/-- Outbound segments that pass their checks, in order up to the first that does not. -/
def outGood (x : Lane) (e : Lease) (j : Job) : List Seg := j.outSegs.takeWhile (segCheck x e)

/-- HALT ends the program: the outbound segments start (R230, R233). -/
def haltLane (l : Nat) (s : State) : State :=
  let x := lane l s
  match x.job with
  | none => s
  | some j =>
    let good := outGood x (jobLease x s) j
    let bad := good.length < j.outSegs.length
    hcount 5 (if bad then 1 else 0)
      (withLane l (fun x => { x with phase := if bad then .ended 2 else .outbound, job := some { j with outSegs := good } }) s)

def execHalt (l : Fin 16) (chk : LaneCheck) (s : State) : Host.Outcome State Fault Refusal :=
  whenLive s fun s =>
    let t := issue l chk (· == 0x01) (fun _ _ x => haltRes (fetched x) x) s
    if (lane l t).phase = .program ∧ (lane l t).steps ≠ (lane l s).steps then haltLane l t else t

def execLoop (l : Fin 16) (chk : LaneCheck) (s : State) : Host.Outcome State Fault Refusal := laneRowK 0x02 l chk loopRes s
def execBr (l : Fin 16) (chk : LaneCheck) (s : State) : Host.Outcome State Fault Refusal := laneRowK 0x03 l chk brRes s
def execSli (l : Fin 16) (chk : LaneCheck) (s : State) : Host.Outcome State Fault Refusal := laneRowK 0x04 l chk sliRes s
def execSadd (l : Fin 16) (chk : LaneCheck) (s : State) : Host.Outcome State Fault Refusal := laneRowK 0x05 l chk saddRes s
def execPset (l : Fin 16) (chk : LaneCheck) (s : State) : Host.Outcome State Fault Refusal := laneRowK 0x06 l chk psetRes s
def execXfer (l : Fin 16) (chk : LaneCheck) (s : State) : Host.Outcome State Fault Refusal :=
  whenLive s (issue l chk (· == 0x07) fun e _ x => xferRes e (fetched x) x)
def execXwait (l : Fin 16) (chk : LaneCheck) (s : State) : Host.Outcome State Fault Refusal := laneRowK 0x08 l chk xwaitRes s
def execSwi (l : Fin 16) (chk : LaneCheck) (s : State) : Host.Outcome State Fault Refusal := laneRowK 0x09 l chk swiRes s
def execRti (l : Fin 16) (chk : LaneCheck) (s : State) : Host.Outcome State Fault Refusal := laneRowK 0x0A l chk rtiRes s
def execTset (l : Fin 16) (chk : LaneCheck) (s : State) : Host.Outcome State Fault Refusal := laneRowK 0x0B l chk tsetRes s
def execExpclr (l : Fin 16) (chk : LaneCheck) (s : State) : Host.Outcome State Fault Refusal := laneRowK 0x0C l chk expclrRes s
def execExpget (l : Fin 16) (chk : LaneCheck) (s : State) : Host.Outcome State Fault Refusal := laneRowK 0x0D l chk expgetRes s
def execIdxset (l : Fin 16) (chk : LaneCheck) (s : State) : Host.Outcome State Fault Refusal := laneRowK 0x0E l chk idxsetRes s
def execMmget (l : Fin 16) (chk : LaneCheck) (s : State) : Host.Outcome State Fault Refusal := laneRowK 0x0F l chk mmgetRes s
def execMove (l : Fin 16) (chk : LaneCheck) (s : State) : Host.Outcome State Fault Refusal := laneRow 0x20 l chk moveRes s
def execVadd (l : Fin 16) (chk : LaneCheck) (s : State) : Host.Outcome State Fault Refusal := laneRow 0x21 l chk vaddRes s
def execVsub (l : Fin 16) (chk : LaneCheck) (s : State) : Host.Outcome State Fault Refusal := laneRow 0x22 l chk vsubRes s
def execVmuln (l : Fin 16) (chk : LaneCheck) (s : State) : Host.Outcome State Fault Refusal := laneRow 0x23 l chk vmulnRes s
def execVmulcn (l : Fin 16) (chk : LaneCheck) (s : State) : Host.Outcome State Fault Refusal := laneRow 0x24 l chk vmulcnRes s
def execVmac (l : Fin 16) (chk : LaneCheck) (s : State) : Host.Outcome State Fault Refusal := laneRow 0x25 l chk vmacRes s
def execVmacc (l : Fin 16) (chk : LaneCheck) (s : State) : Host.Outcome State Fault Refusal := laneRow 0x26 l chk vmaccRes s
def execVmsu (l : Fin 16) (chk : LaneCheck) (s : State) : Host.Outcome State Fault Refusal := laneRow 0x27 l chk vmsuRes s
def execVmul0 (l : Fin 16) (chk : LaneCheck) (s : State) : Host.Outcome State Fault Refusal := laneRow 0x28 l chk vmul0Res s
def execVdotc (l : Fin 16) (chk : LaneCheck) (s : State) : Host.Outcome State Fault Refusal := laneRow 0x29 l chk vdotcRes s
def execVnrw (l : Fin 16) (chk : LaneCheck) (s : State) : Host.Outcome State Fault Refusal := laneRow 0x2A l chk vnrwRes s
def execVsha (l : Fin 16) (chk : LaneCheck) (s : State) : Host.Outcome State Fault Refusal := laneRow 0x2B l chk vshaRes s
def execVconj (l : Fin 16) (chk : LaneCheck) (s : State) : Host.Outcome State Fault Refusal := laneRow 0x2C l chk vconjRes s
def execVneg (l : Fin 16) (chk : LaneCheck) (s : State) : Host.Outcome State Fault Refusal := laneRow 0x2D l chk vnegRes s
def execVbfly (l : Fin 16) (chk : LaneCheck) (s : State) : Host.Outcome State Fault Refusal := laneRow 0x2E l chk vbflyRes s
def execVperm (l : Fin 16) (chk : LaneCheck) (s : State) : Host.Outcome State Fault Refusal := laneRow 0x2F l chk vpermRes s
def execBexp (l : Fin 16) (chk : LaneCheck) (s : State) : Host.Outcome State Fault Refusal := laneRow 0x30 l chk bexpRes s
def execVmaxi (l : Fin 16) (chk : LaneCheck) (s : State) : Host.Outcome State Fault Refusal := laneRow 0x31 l chk vmaxiRes s
def execVmini (l : Fin 16) (chk : LaneCheck) (s : State) : Host.Outcome State Fault Refusal := laneRow 0x32 l chk vminiRes s
def execVrcp (l : Fin 16) (chk : LaneCheck) (s : State) : Host.Outcome State Fault Refusal := laneRow 0x33 l chk vrcpRes s
def execVrsq (l : Fin 16) (chk : LaneCheck) (s : State) : Host.Outcome State Fault Refusal := laneRow 0x34 l chk vrsqRes s
def execVsplat (l : Fin 16) (chk : LaneCheck) (s : State) : Host.Outcome State Fault Refusal := laneRow 0x35 l chk vsplatRes s

/-! Between instructions. -/

/-- DMA_TRANSFER_DONE (R231, R225): `data` is what a host window held. -/
def dmaDone (l c : Nat) (data : List Byte) (s : State) : State :=
  let x := lane l s
  match vget x.chan c, x.job with
  | some g, some j =>
    withLane l (fun y =>
      let z := { y with chan := vset y.chan c none, wait := if y.wait = some c then none else y.wait }
      if g.irq then pendSrc 0 z else z) (transfer l j.lease data g s)
  | _, _ => s

def execDmaTransferDone (l : Fin 16) (ch : Fin 4) (data : List Byte) (s : State) : Host.Outcome State Fault Refusal :=
  whenLive s (dmaDone l ch data)

/-- STEP_TIMER_EXPIRY (R225). -/
def execStepTimerExpiry (l : Fin 16) (s : State) : Host.Outcome State Fault Refusal :=
  whenLive s fun s => if timerDue (lane l s) then withLane l (fun x => pendSrc 1 { x with timer := none }) s else s

/-- INTERRUPT_TAKEN (R225, R226): the shadow bank replaces the live registers and the handler's index is next. -/
def interruptTaken (l : Nat) (s : State) : State :=
  let x := lane l s
  if x.phase ≠ .program then s
  else
    match dueSource x, x.job with
    | some i, some j =>
      hcount 11 1 (withLane l (fun x =>
        { swapBanks x with saved := x.pc, pc := j.ivec.getD i 0, handler := true, pend := x.pend - 2 ^ i, group := none }) s)
    | _, _ => s

def execInterruptTaken (l : Fin 16) (s : State) : Host.Outcome State Fault Refusal := whenLive s (interruptTaken l)

/-- JOB_BUDGET (R232): the job stops before the step that would exceed its budget. -/
def jobBudget (l : Nat) (s : State) : State :=
  let x := lane l s
  match x.job with
  | none => s
  | some j =>
    if !mayIssue x || !budgetSpent (jobLease x s) x then s
    else
      raise .jobBudget l (le 4 j.handle.toNat ++ [byte j.lease])
        (endJob l 3 (withLane l (fun x => { x with steps := j.budget }) s))

def execJobBudget (l : Fin 16) (s : State) : Host.Outcome State Fault Refusal := whenLive s (jobBudget l)

/-! The canary (R237): lane canaries are the first 16 of the 64. -/

/-- An operation in which multiply-accumulate units issue: products and accumulations, VMULN to VDOTC (DEDUCED, log 24). -/
def macOp (op : Nat) : Bool := 0x23 ≤ op && op ≤ 0x29

/-- The lane's next step issues no multiply-accumulate unit: it is idle or held, or its next instruction is no such operation. A Builmin job's
steps are not given. -/
def quietStep (l : Nat) (s : State) : Bool := !mayIssue (lane l s) || !macOp (nextOp (lane l s))

/-- A lane's canary is read. -/
def readCanary (l ps : Nat) (s : State) : State :=
  withLane l (fun x => { x with canaryAt := s.now }) (withRel (fun x => { x with canaryPs := vset x.canaryPs l ps }) s)

/-- CANARY_MEASURE: 1 ms after the last one, in a quiet step. -/
def canaryMeasure (l ps : Nat) (s : State) : State :=
  if s.now < (lane l s).canaryAt + 500000 || !quietStep l s then s else readCanary l ps s

def execCanaryMeasure (l : Fin 16) (ps : Nat) (s : State) : Host.Outcome State Fault Refusal := whenLive s (canaryMeasure l ps)

/-- TELEM_STEAL: a measurement has waited for 10 ms, and the lane inserts an idle step, not charged to the job. -/
def telemSteal (l ps : Nat) (s : State) : State :=
  if laneIdle l s || s.now < (lane l s).canaryAt + 5500000 then s else hcount 9 1 (readCanary l ps s)

def execTelemSteal (l : Fin 16) (ps : Nat) (s : State) : Host.Outcome State Fault Refusal := whenLive s (telemSteal l ps)

end Sys2Proof.Machine
end

