-- ==== Sys2Proof/Machine/Dispatch.lean ====
section
/-!
DEFINITION. One arm per command: one direct call of its meaning.
-/
namespace Sys2Proof.Machine
open Sys2Proof

/-- The effect of one command on everything but the queue. -/
def exec (i : Instr) (s : State) : Host.Outcome State Fault Refusal :=
  match i with
  | .nop m buf => Sys2Proof.Machine.execNop m buf s
  | .getVersion m buf => Sys2Proof.Machine.execGetVersion m buf s
  | .abortCommand m buf => Sys2Proof.Machine.execAbortCommand m buf s
  | .hostGetCounters m buf => Sys2Proof.Machine.execHostGetCounters m buf s
  | .radioGetState m buf => Sys2Proof.Machine.execRadioGetState m buf s
  | .radioSetState m buf => Sys2Proof.Machine.execRadioSetState m buf s
  | .radioSetChannel m buf => Sys2Proof.Machine.execRadioSetChannel m buf s
  | .radioCalibrate m buf => Sys2Proof.Machine.execRadioCalibrate m buf s
  | .radioSetFemMap m buf => Sys2Proof.Machine.execRadioSetFemMap m buf s
  | .radioSetRamp m buf => Sys2Proof.Machine.execRadioSetRamp m buf s
  | .radioSetChain m buf => Sys2Proof.Machine.execRadioSetChain m buf s
  | .radioRestoreChain m buf => Sys2Proof.Machine.execRadioRestoreChain m buf s
  | .radioGetChain m buf => Sys2Proof.Machine.execRadioGetChain m buf s
  | .radioGetCounters m buf => Sys2Proof.Machine.execRadioGetCounters m buf s
  | .radioRffeTransfer m buf rd => Sys2Proof.Machine.execRadioRffeTransfer m buf rd s
  | .phySetRx m buf => Sys2Proof.Machine.execPhySetRx m buf s
  | .phySetFormats m buf => Sys2Proof.Machine.execPhySetFormats m buf s
  | .phyGetConfig m buf => Sys2Proof.Machine.execPhyGetConfig m buf s
  | .phyGetReport m buf => Sys2Proof.Machine.execPhyGetReport m buf s
  | .phyReadHistory m buf => Sys2Proof.Machine.execPhyReadHistory m buf s
  | .phyGetCounters m buf => Sys2Proof.Machine.execPhyGetCounters m buf s
  | .phyTestTx m buf => Sys2Proof.Machine.execPhyTestTx m buf s
  | .macSetBss m buf => Sys2Proof.Machine.execMacSetBss m buf s
  | .macSetBeacon m buf => Sys2Proof.Machine.execMacSetBeacon m buf s
  | .macSetEdca m buf => Sys2Proof.Machine.execMacSetEdca m buf s
  | .macSetCca m buf => Sys2Proof.Machine.execMacSetCca m buf s
  | .macAddSta m buf => Sys2Proof.Machine.execMacAddSta m buf s
  | .macDelSta m buf => Sys2Proof.Machine.execMacDelSta m buf s
  | .macSetBaPolicy m buf => Sys2Proof.Machine.execMacSetBaPolicy m buf s
  | .macSetMld m buf => Sys2Proof.Machine.execMacSetMld m buf s
  | .macSetTwt m buf => Sys2Proof.Machine.execMacSetTwt m buf s
  | .macSetUplink m buf => Sys2Proof.Machine.execMacSetUplink m buf s
  | .macSetRetry m buf => Sys2Proof.Machine.execMacSetRetry m buf s
  | .macGetCounters m buf => Sys2Proof.Machine.execMacGetCounters m buf s
  | .macGetSta m buf => Sys2Proof.Machine.execMacGetSta m buf s
  | .schedSetAcWeights m buf => Sys2Proof.Machine.execSchedSetAcWeights m buf s
  | .schedSetBssShare m buf => Sys2Proof.Machine.execSchedSetBssShare m buf s
  | .schedSetSta m buf => Sys2Proof.Machine.execSchedSetSta m buf s
  | .schedSetLimits m buf => Sys2Proof.Machine.execSchedSetLimits m buf s
  | .schedGetFurrow m buf => Sys2Proof.Machine.execSchedGetFurrow m buf s
  | .schedGetSta m buf => Sys2Proof.Machine.execSchedGetSta m buf s
  | .schedFlushQueue m buf => Sys2Proof.Machine.execSchedFlushQueue m buf s
  | .schedGetCounters m buf => Sys2Proof.Machine.execSchedGetCounters m buf s
  | .harrowLease m buf => Sys2Proof.Machine.execHarrowLease m buf s
  | .harrowRelease m buf => Sys2Proof.Machine.execHarrowRelease m buf s
  | .harrowSubmitJob m buf => Sys2Proof.Machine.execHarrowSubmitJob m buf s
  | .harrowStopJob m buf => Sys2Proof.Machine.execHarrowStopJob m buf s
  | .harrowGetStatus m buf => Sys2Proof.Machine.execHarrowGetStatus m buf s
  | .harrowGetCounters m buf => Sys2Proof.Machine.execHarrowGetCounters m buf s
  | .bfSetSounding m buf => Sys2Proof.Machine.execBfSetSounding m buf s
  | .bfSetAgeing m buf => Sys2Proof.Machine.execBfSetAgeing m buf s
  | .bfSetPrecoder m buf => Sys2Proof.Machine.execBfSetPrecoder m buf s
  | .bfRecalibrate m buf => Sys2Proof.Machine.execBfRecalibrate m buf s
  | .bfSetFemRecip m buf => Sys2Proof.Machine.execBfSetFemRecip m buf s
  | .bfGetCsi m buf => Sys2Proof.Machine.execBfGetCsi m buf s
  | .bfGetGroups m buf => Sys2Proof.Machine.execBfGetGroups m buf s
  | .bfGetStatus m buf => Sys2Proof.Machine.execBfGetStatus m buf s
  | .bfGetCounters m buf => Sys2Proof.Machine.execBfGetCounters m buf s
  | .seederGetStatus m buf => Sys2Proof.Machine.execSeederGetStatus m buf s
  | .seederSetParams m buf => Sys2Proof.Machine.execSeederSetParams m buf s
  | .seederGetPlacement m buf => Sys2Proof.Machine.execSeederGetPlacement m buf s
  | .seederReadLog m buf => Sys2Proof.Machine.execSeederReadLog m buf s
  | .seederSetFence m buf => Sys2Proof.Machine.execSeederSetFence m buf s
  | .seederClearFence m buf => Sys2Proof.Machine.execSeederClearFence m buf s
  | .seederGetFence m buf => Sys2Proof.Machine.execSeederGetFence m buf s
  | .seederEvaluate m buf => Sys2Proof.Machine.execSeederEvaluate m buf s
  | .seederGetCounters m buf => Sys2Proof.Machine.execSeederGetCounters m buf s
  | .ropeJoin m buf => Sys2Proof.Machine.execRopeJoin m buf s
  | .ropeLeave m buf => Sys2Proof.Machine.execRopeLeave m buf s
  | .ropeGetStatus m buf => Sys2Proof.Machine.execRopeGetStatus m buf s
  | .ropeSetKey m buf => Sys2Proof.Machine.execRopeSetKey m buf s
  | .ropeGetMember m buf => Sys2Proof.Machine.execRopeGetMember m buf s
  | .ropeGetPitch m buf => Sys2Proof.Machine.execRopeGetPitch m buf s
  | .ropeGetCounters m buf => Sys2Proof.Machine.execRopeGetCounters m buf s
  | .timeSetRole m buf => Sys2Proof.Machine.execTimeSetRole m buf s
  | .timeSetAsym m buf => Sys2Proof.Machine.execTimeSetAsym m buf s
  | .timeSetTsf m buf => Sys2Proof.Machine.execTimeSetTsf m buf s
  | .timeSetPps m buf => Sys2Proof.Machine.execTimeSetPps m buf s
  | .timeGetStatus m buf => Sys2Proof.Machine.execTimeGetStatus m buf s
  | .timeGetTsf m buf => Sys2Proof.Machine.execTimeGetTsf m buf s
  | .timeGetCounters m buf => Sys2Proof.Machine.execTimeGetCounters m buf s
  | .routerSetParams m buf => Sys2Proof.Machine.execRouterSetParams m buf s
  | .routerSetFlow m buf => Sys2Proof.Machine.execRouterSetFlow m buf s
  | .routerDelFlow m buf => Sys2Proof.Machine.execRouterDelFlow m buf s
  | .routerGetFlow m buf => Sys2Proof.Machine.execRouterGetFlow m buf s
  | .routerSetRule m buf => Sys2Proof.Machine.execRouterSetRule m buf s
  | .routerSetRoute m buf => Sys2Proof.Machine.execRouterSetRoute m buf s
  | .routerSetNeigh m buf => Sys2Proof.Machine.execRouterSetNeigh m buf s
  | .routerSetFdb m buf => Sys2Proof.Machine.execRouterSetFdb m buf s
  | .routerFlushFdb m buf => Sys2Proof.Machine.execRouterFlushFdb m buf s
  | .routerSetDomain m buf => Sys2Proof.Machine.execRouterSetDomain m buf s
  | .routerSetPortPair m buf => Sys2Proof.Machine.execRouterSetPortPair m buf s
  | .routerSetRingGroup m buf => Sys2Proof.Machine.execRouterSetRingGroup m buf s
  | .routerSetHash m buf => Sys2Proof.Machine.execRouterSetHash m buf s
  | .routerSetIndirection m buf => Sys2Proof.Machine.execRouterSetIndirection m buf s
  | .routerSetExcLimit m buf => Sys2Proof.Machine.execRouterSetExcLimit m buf s
  | .routerGetCounters m buf => Sys2Proof.Machine.execRouterGetCounters m buf s
  | .routerGetRule m buf => Sys2Proof.Machine.execRouterGetRule m buf s
  | .ethConfigurePort m buf => Sys2Proof.Machine.execEthConfigurePort m buf s
  | .ethSetFilter m buf => Sys2Proof.Machine.execEthSetFilter m buf s
  | .ethGetStatus m buf tx rx => Sys2Proof.Machine.execEthGetStatus m buf tx rx s
  | .ethSetFallow m buf => Sys2Proof.Machine.execEthSetFallow m buf s
  | .ethGetCounters m buf => Sys2Proof.Machine.execEthGetCounters m buf s
  | .secGetIdentity m buf => Sys2Proof.Machine.execSecGetIdentity m buf s
  | .secOpenSession m buf pass => Sys2Proof.Machine.execSecOpenSession m buf pass s
  | .secLoadKey m buf => Sys2Proof.Machine.execSecLoadKey m buf s
  | .secDeleteKey m buf => Sys2Proof.Machine.execSecDeleteKey m buf s
  | .secBindKey m buf => Sys2Proof.Machine.execSecBindKey m buf s
  | .secGetKeyState m buf => Sys2Proof.Machine.execSecGetKeyState m buf s
  | .secSetStream m buf => Sys2Proof.Machine.execSecSetStream m buf s
  | .secMacsecPort m buf => Sys2Proof.Machine.execSecMacsecPort m buf s
  | .secMacsecSetSa m buf => Sys2Proof.Machine.execSecMacsecSetSa m buf s
  | .secSae m buf pass mism => Sys2Proof.Machine.execSecSae m buf pass mism s
  | .sec4way m buf mism => Sys2Proof.Machine.execSec4way m buf mism s
  | .secEapol m buf mism => Sys2Proof.Machine.execSecEapol m buf mism s
  | .secGetCounters m buf => Sys2Proof.Machine.execSecGetCounters m buf s
  | .dramConfigure m buf => Sys2Proof.Machine.execDramConfigure m buf s
  | .dramSetPolicy m buf => Sys2Proof.Machine.execDramSetPolicy m buf s
  | .dramSetRate m buf => Sys2Proof.Machine.execDramSetRate m buf s
  | .dramRetrain m buf => Sys2Proof.Machine.execDramRetrain m buf s
  | .dramGetStatus m buf => Sys2Proof.Machine.execDramGetStatus m buf s
  | .dramGetErrors m buf => Sys2Proof.Machine.execDramGetErrors m buf s
  | .dramGetCounters m buf => Sys2Proof.Machine.execDramGetCounters m buf s
  | .relGetStatus m buf => Sys2Proof.Machine.execRelGetStatus m buf s
  | .cairnRestore m buf d d0 => Sys2Proof.Machine.execCairnRestore m buf d d0 s
  | .cairnExport m buf => Sys2Proof.Machine.execCairnExport m buf s
  | .relGetCounters m buf => Sys2Proof.Machine.execRelGetCounters m buf s
  | .sysGetState m buf => Sys2Proof.Machine.execSysGetState m buf s
  | .sysSetMode m buf => Sys2Proof.Machine.execSysSetMode m buf s
  | .powerEnterBivouac m buf => Sys2Proof.Machine.execPowerEnterBivouac m buf s
  | .wurSetRx m buf => Sys2Proof.Machine.execWurSetRx m buf s
  | .wurSetMatch m buf => Sys2Proof.Machine.execWurSetMatch m buf s
  | .wurGetStatus m buf => Sys2Proof.Machine.execWurGetStatus m buf s
  | .wurSend m buf => Sys2Proof.Machine.execWurSend m buf s
  | .wurGetCounters m buf => Sys2Proof.Machine.execWurGetCounters m buf s
  | .harrowNop l chk => Sys2Proof.Machine.execHarrowNop l chk s
  | .halt l chk => Sys2Proof.Machine.execHalt l chk s
  | .loop l chk => Sys2Proof.Machine.execLoop l chk s
  | .br l chk => Sys2Proof.Machine.execBr l chk s
  | .sli l chk => Sys2Proof.Machine.execSli l chk s
  | .sadd l chk => Sys2Proof.Machine.execSadd l chk s
  | .pset l chk => Sys2Proof.Machine.execPset l chk s
  | .xfer l chk => Sys2Proof.Machine.execXfer l chk s
  | .xwait l chk => Sys2Proof.Machine.execXwait l chk s
  | .swi l chk => Sys2Proof.Machine.execSwi l chk s
  | .rti l chk => Sys2Proof.Machine.execRti l chk s
  | .tset l chk => Sys2Proof.Machine.execTset l chk s
  | .expclr l chk => Sys2Proof.Machine.execExpclr l chk s
  | .expget l chk => Sys2Proof.Machine.execExpget l chk s
  | .idxset l chk => Sys2Proof.Machine.execIdxset l chk s
  | .mmget l chk => Sys2Proof.Machine.execMmget l chk s
  | .move l chk => Sys2Proof.Machine.execMove l chk s
  | .vadd l chk => Sys2Proof.Machine.execVadd l chk s
  | .vsub l chk => Sys2Proof.Machine.execVsub l chk s
  | .vmuln l chk => Sys2Proof.Machine.execVmuln l chk s
  | .vmulcn l chk => Sys2Proof.Machine.execVmulcn l chk s
  | .vmac l chk => Sys2Proof.Machine.execVmac l chk s
  | .vmacc l chk => Sys2Proof.Machine.execVmacc l chk s
  | .vmsu l chk => Sys2Proof.Machine.execVmsu l chk s
  | .vmul0 l chk => Sys2Proof.Machine.execVmul0 l chk s
  | .vdotc l chk => Sys2Proof.Machine.execVdotc l chk s
  | .vnrw l chk => Sys2Proof.Machine.execVnrw l chk s
  | .vsha l chk => Sys2Proof.Machine.execVsha l chk s
  | .vconj l chk => Sys2Proof.Machine.execVconj l chk s
  | .vneg l chk => Sys2Proof.Machine.execVneg l chk s
  | .vbfly l chk => Sys2Proof.Machine.execVbfly l chk s
  | .vperm l chk => Sys2Proof.Machine.execVperm l chk s
  | .bexp l chk => Sys2Proof.Machine.execBexp l chk s
  | .vmaxi l chk => Sys2Proof.Machine.execVmaxi l chk s
  | .vmini l chk => Sys2Proof.Machine.execVmini l chk s
  | .vrcp l chk => Sys2Proof.Machine.execVrcp l chk s
  | .vrsq l chk => Sys2Proof.Machine.execVrsq l chk s
  | .vsplat l chk => Sys2Proof.Machine.execVsplat l chk s
  | .dmaTransferDone l ch data => Sys2Proof.Machine.execDmaTransferDone l ch data s
  | .stepTimerExpiry l => Sys2Proof.Machine.execStepTimerExpiry l s
  | .interruptTaken l => Sys2Proof.Machine.execInterruptTaken l s
  | .jobBudget l => Sys2Proof.Machine.execJobBudget l s
  | .jobStart l cls data => Sys2Proof.Machine.execJobStart l cls data s
  | .jobComplete l chk => Sys2Proof.Machine.execJobComplete l chk s
  | .canaryMeasure l ps => Sys2Proof.Machine.execCanaryMeasure l ps s
  | .telemSteal l ps => Sys2Proof.Machine.execTelemSteal l ps s
  | .mbxDoorbell m => Sys2Proof.Machine.execMbxDoorbell m s
  | .completionWrite q => Sys2Proof.Machine.execCompletionWrite q s
  | .cqHeadWrite q head => Sys2Proof.Machine.execCqHeadWrite q head s
  | .cqEnable q => Sys2Proof.Machine.execCqEnable q s
  | .cqDisable q => Sys2Proof.Machine.execCqDisable q s
  | .eventRaise name inst data => Sys2Proof.Machine.execEventRaise name inst data s
  | .eventWrite => Sys2Proof.Machine.execEventWrite s
  | .evtHeadWrite head => Sys2Proof.Machine.execEvtHeadWrite head s
  | .evtEnable => Sys2Proof.Machine.execEvtEnable s
  | .evtDisable => Sys2Proof.Machine.execEvtDisable s
  | .evtLostRead => Sys2Proof.Machine.execEvtLostRead s
  | .evtFilteredRead => Sys2Proof.Machine.execEvtFilteredRead s
  | .coexGrantsRead r => Sys2Proof.Machine.execCoexGrantsRead r s
  | .watchdogExpiry => Sys2Proof.Machine.execWatchdogExpiry s
  | .coalesceTimeout src => Sys2Proof.Machine.execCoalesceTimeout src s
  | .msixDeferredSend link => Sys2Proof.Machine.execMsixDeferredSend link s
  | .msixUnmask v => Sys2Proof.Machine.execMsixUnmask v s
  | .hringProdWrite tx n value => Sys2Proof.Machine.execHringProdWrite tx n value s
  | .hringEnable tx n => Sys2Proof.Machine.execHringEnable tx n s
  | .hringDisable tx n => Sys2Proof.Machine.execHringDisable tx n s
  | .hringIdle tx n => Sys2Proof.Machine.execHringIdle tx n s
  | .hringResume tx n => Sys2Proof.Machine.execHringResume tx n s
  | .htxFrameFetch n descs data => Sys2Proof.Machine.execHtxFrameFetch n descs data s
  | .hrxFrameDeliver n descs => Sys2Proof.Machine.execHrxFrameDeliver n descs s
  | .registerWrite w => Sys2Proof.Machine.execRegisterWrite w s
  | .powerOnReset => Sys2Proof.Machine.execPowerOnReset s
  | .perstAssert => Sys2Proof.Machine.execPerstAssert s
  | .perstRelease => Sys2Proof.Machine.execPerstRelease s
  | .hotReset => Sys2Proof.Machine.execHotReset s
  | .flr => Sys2Proof.Machine.execFlr s
  | .sysReset value => Sys2Proof.Machine.execSysReset value s
  | .wdtAutoReset => Sys2Proof.Machine.execWdtAutoReset s
  | .thermalTrip => Sys2Proof.Machine.execThermalTrip s
  | .thermalHoldClear => Sys2Proof.Machine.execThermalHoldClear s
  | .thermalWarn high => Sys2Proof.Machine.execThermalWarn high s
  | .wipeEnd => Sys2Proof.Machine.execWipeEnd s
  | .applyToken value => Sys2Proof.Machine.execApplyToken value s
  | .fuseProgramDone => Sys2Proof.Machine.execFuseProgramDone s
  | .fwlStart => Sys2Proof.Machine.execFwlStart s
  | .imageVerified => Sys2Proof.Machine.execImageVerified s
  | .fwReady => Sys2Proof.Machine.execFwReady s
  | .bivouacNAssert => Sys2Proof.Machine.execBivouacNAssert s
  | .supplyRemoval aon => Sys2Proof.Machine.execSupplyRemoval aon s
  | .canaryReplan canary => Sys2Proof.Machine.execCanaryReplan canary s
  | .avsFault => Sys2Proof.Machine.execAvsFault s
  | .avsPauseEnd => Sys2Proof.Machine.execAvsPauseEnd s
  | .avsAck readback => Sys2Proof.Machine.execAvsAck readback s
  | .refLost => Sys2Proof.Machine.execRefLost s
  | .refReturn => Sys2Proof.Machine.execRefReturn s
  | .commitPoint r => Sys2Proof.Machine.execCommitPoint r s
  | .responderComplete r d => Sys2Proof.Machine.execResponderComplete r d s
  | .hlEvaluate r => Sys2Proof.Machine.execHlEvaluate r s
  | .hlUndo r => Sys2Proof.Machine.execHlUndo r s
  | .radioStateApply r => Sys2Proof.Machine.execRadioStateApply r s
  | .radioTransitionEnd r => Sys2Proof.Machine.execRadioTransitionEnd r s
  | .radioAutoWake r tx => Sys2Proof.Machine.execRadioAutoWake r tx s
  | .synTempSample r temp => Sys2Proof.Machine.execSynTempSample r temp s
  | .calPendingStart r => Sys2Proof.Machine.execCalPendingStart r s
  | .calForced r => Sys2Proof.Machine.execCalForced r s
  | .synCalEnd r => Sys2Proof.Machine.execSynCalEnd r s
  | .channelSwitch r extra => Sys2Proof.Machine.execChannelSwitch r extra s
  | .derateResearch r c => Sys2Proof.Machine.execDerateResearch r c s
  | .coexReqChange r level => Sys2Proof.Machine.execCoexReqChange r level s
  | .coexPriChange r level => Sys2Proof.Machine.execCoexPriChange r level s
  | .coexStuck r => Sys2Proof.Machine.execCoexStuck r s
  | .preambleDetect r power dsss => Sys2Proof.Machine.execPreambleDetect r power dsss s
  | .sigValidate r sig => Sys2Proof.Machine.execSigValidate r sig s
  | .searchResume r => Sys2Proof.Machine.execSearchResume r s
  | .restartDecision r power users => Sys2Proof.Machine.execRestartDecision r power users s
  | .ldpcDecode r w waiting => Sys2Proof.Machine.execLdpcDecode r w waiting s
  | .mpduRx r m => Sys2Proof.Machine.execMpduRx r m s
  | .rxPpduEnd r e => Sys2Proof.Machine.execRxPpduEnd r e s
  | .txPpduStart r fifo staged blanked => Sys2Proof.Machine.execTxPpduStart r fifo staged blanked s
  | .txUnderrun r => Sys2Proof.Machine.execTxUnderrun r s
  | .txPpduEnd r e => Sys2Proof.Machine.execTxPpduEnd r e s
  | .wurFrameRx f => Sys2Proof.Machine.execWurFrameRx f s
  | .wurWindow isOpen => Sys2Proof.Machine.execWurWindow isOpen s
  | .wurCopyDue bss => Sys2Proof.Machine.execWurCopyDue bss s
  | .responseTimeout r => Sys2Proof.Machine.execResponseTimeout r s
  | .ccaChange r sub power ppdu => Sys2Proof.Machine.execCcaChange r sub power ppdu s
  | .backoffSlot r d0 d1 => Sys2Proof.Machine.execBackoffSlot r d0 d1 s
  | .navRtsTimeout r => Sys2Proof.Machine.execNavRtsTimeout r s
  | .msduLifetimeExpiry q => Sys2Proof.Machine.execMsduLifetimeExpiry q s
  | .defragTimeout q => Sys2Proof.Machine.execDefragTimeout q s
  | .reorderTimeout q => Sys2Proof.Machine.execReorderTimeout q s
  | .addbaRequest q dialog size ssn => Sys2Proof.Machine.execAddbaRequest q dialog size ssn s
  | .twtSetupRequest sta dialog flow interval sp restricted => Sys2Proof.Machine.execTwtSetupRequest sta dialog flow interval sp restricted s
  | .saQuery sta transId => Sys2Proof.Machine.execSaQuery sta transId s
  | .tbtt b d => Sys2Proof.Machine.execTbtt b d s
  | .bcnDeferred r => Sys2Proof.Machine.execBcnDeferred r s
  | .twtSpStart q => Sys2Proof.Machine.execTwtSpStart q s
  | .uplBeaconWindowEnd r => Sys2Proof.Machine.execUplBeaconWindowEnd r s
  | .furrowBuildStart r coord mism fbMism => Sys2Proof.Machine.execFurrowBuildStart r coord mism fbMism s
  | .furrowReady r ns => Sys2Proof.Machine.execFurrowReady r ns s
  | .furrowLateWindow r => Sys2Proof.Machine.execFurrowLateWindow r s
  | .llUrgent uplink q => Sys2Proof.Machine.execLlUrgent uplink q s
  | .llDeadline uplink q => Sys2Proof.Machine.execLlDeadline uplink q s
  | .ulHoldEnd sta => Sys2Proof.Machine.execUlHoldEnd sta s
  | .coordTxopStart r d navPitch => Sys2Proof.Machine.execCoordTxopStart r d navPitch s
  | .soundingFeedback r sta fb => Sys2Proof.Machine.execSoundingFeedback r sta fb s
  | .csiExpired r kind index => Sys2Proof.Machine.execCsiExpired r kind index s
  | .recipCalRequest r => Sys2Proof.Machine.execRecipCalRequest r s
  | .recipCalStart r => Sys2Proof.Machine.execRecipCalStart r s
  | .recalForced r => Sys2Proof.Machine.execRecalForced r s
  | .recipCalEnd r loops => Sys2Proof.Machine.execRecipCalEnd r loops s
  | .groupRebuild r b => Sys2Proof.Machine.execGroupRebuild r b s
  | .seederEvaluation e => Sys2Proof.Machine.execSeederEvaluation e s
  | .seederOverload d target rising load objs => Sys2Proof.Machine.execSeederOverload d target rising load objs s
  | .forcedReplacement f => Sys2Proof.Machine.execForcedReplacement f s
  | .surveyDwell r centre bw prim => Sys2Proof.Machine.execSurveyDwell r centre bw prim s
  | .surveySkip r => Sys2Proof.Machine.execSurveySkip r s
  | .steerResponse sta status => Sys2Proof.Machine.execSteerResponse sta status s
  | .steerTimeout sta => Sys2Proof.Machine.execSteerTimeout sta s
  | .belaySend => Sys2Proof.Machine.execBelaySend s
  | .belay f => Sys2Proof.Machine.execBelay f s
  | .belayWindowClose => Sys2Proof.Machine.execBelayWindowClose s
  | .joinReq f => Sys2Proof.Machine.execJoinReq f s
  | .joinReqSend => Sys2Proof.Machine.execJoinReqSend s
  | .joinAck f => Sys2Proof.Machine.execJoinAck f s
  | .joinConfirm f => Sys2Proof.Machine.execJoinConfirm f s
  | .joinTimeout => Sys2Proof.Machine.execJoinTimeout s
  | .ropeForm => Sys2Proof.Machine.execRopeForm s
  | .leave f => Sys2Proof.Machine.execLeave f s
  | .rosterReq f => Sys2Proof.Machine.execRosterReq f s
  | .roster f => Sys2Proof.Machine.execRoster f s
  | .report f => Sys2Proof.Machine.execReport f s
  | .reportSend busyB busyC heard => Sys2Proof.Machine.execReportSend busyB busyC heard s
  | .hello f => Sys2Proof.Machine.execHello f s
  | .helloSend => Sys2Proof.Machine.execHelloSend s
  | .clients f => Sys2Proof.Machine.execClients f s
  | .clientsSend busyB busyC => Sys2Proof.Machine.execClientsSend busyB busyC s
  | .memberTimeout ix => Sys2Proof.Machine.execMemberTimeout ix s
  | .tReqSend => Sys2Proof.Machine.execTReqSend s
  | .tReq f => Sys2Proof.Machine.execTReq f s
  | .tRespSend onTime => Sys2Proof.Machine.execTRespSend onTime s
  | .tResp f => Sys2Proof.Machine.execTResp f s
  | .timeExchLost => Sys2Proof.Machine.execTimeExchLost s
  | .timeServoStep => Sys2Proof.Machine.execTimeServoStep s
  | .proposalSend demandB demandC serve => Sys2Proof.Machine.execProposalSend demandB demandC serve s
  | .proposal f => Sys2Proof.Machine.execProposal f s
  | .proposalCutoff => Sys2Proof.Machine.execProposalCutoff s
  | .planSend => Sys2Proof.Machine.execPlanSend s
  | .plan f => Sys2Proof.Machine.execPlan f s
  | .coordSlotStart => Sys2Proof.Machine.execCoordSlotStart s
  | .keyPhaseExpiry => Sys2Proof.Machine.execKeyPhaseExpiry s
  | .tbCmdSet n value => Sys2Proof.Machine.execTbCmdSet n value s
  | .tbCmdAdj n value => Sys2Proof.Machine.execTbCmdAdj n value s
  | .tbIncCommit n value => Sys2Proof.Machine.execTbIncCommit n value s
  | .tbDitherCommit n value => Sys2Proof.Machine.execTbDitherCommit n value s
  | .tbTimeRead n => Sys2Proof.Machine.execTbTimeRead n s
  | .tbCaptureGo value => Sys2Proof.Machine.execTbCaptureGo value s
  | .tbSaturate n => Sys2Proof.Machine.execTbSaturate n s
  | .tbMasterTimeout n => Sys2Proof.Machine.execTbMasterTimeout n s
  | .ppsInEdge => Sys2Proof.Machine.execPpsInEdge s
  | .ppsInLost => Sys2Proof.Machine.execPpsInLost s
  | .ppsOutEdge => Sys2Proof.Machine.execPpsOutEdge s
  | .ppsOutFall => Sys2Proof.Machine.execPpsOutFall s
  | .launchJudge unit => Sys2Proof.Machine.execLaunchJudge unit s
  | .launchInstant unit d => Sys2Proof.Machine.execLaunchInstant unit d s
  | .routerClassify pipe mism bad rows => Sys2Proof.Machine.execRouterClassify pipe mism bad rows s
  | .exceptionDeliver => Sys2Proof.Machine.execExceptionDeliver s
  | .fragmentSlowPath bad rows => Sys2Proof.Machine.execFragmentSlowPath bad rows s
  | .slowFragTimeout => Sys2Proof.Machine.execSlowFragTimeout s
  | .flowAgeCheck => Sys2Proof.Machine.execFlowAgeCheck s
  | .fdbAge d mac => Sys2Proof.Machine.execFdbAge d mac s
  | .ethFrameRx p bytes fcsOk express frags err fec util => Sys2Proof.Machine.execEthFrameRx p bytes fcsOk express frags err fec util s
  | .pauseRx p q => Sys2Proof.Machine.execPauseRx p q s
  | .pauseEnd p => Sys2Proof.Machine.execPauseEnd p s
  | .ethFrameTx p frags => Sys2Proof.Machine.execEthFrameTx p frags s
  | .launchWireHold p => Sys2Proof.Machine.execLaunchWireHold p s
  | .ethLinkUp p speed fec addFrag => Sys2Proof.Machine.execEthLinkUp p speed fec addFrag s
  | .ethLinkDown p cause => Sys2Proof.Machine.execEthLinkDown p cause s
  | .preemptVerify p => Sys2Proof.Machine.execPreemptVerify p s
  | .capsSend p => Sys2Proof.Machine.execCapsSend p s
  | .caps p flags serial => Sys2Proof.Machine.execCaps p flags serial s
  | .fallowCapsTimeout p => Sys2Proof.Machine.execFallowCapsTimeout p s
  | .fallowDownTrigger p => Sys2Proof.Machine.execFallowDownTrigger p s
  | .fallowUpTrigger p => Sys2Proof.Machine.execFallowUpTrigger p s
  | .stepReq p target seq util => Sys2Proof.Machine.execStepReq p target seq util s
  | .stepAck p seq => Sys2Proof.Machine.execStepAck p seq s
  | .stepNak p seq => Sys2Proof.Machine.execStepNak p seq s
  | .stepReqTimeout p => Sys2Proof.Machine.execStepReqTimeout p s
  | .ethFallow p fec => Sys2Proof.Machine.execEthFallow p fec s
  | .cipherFrame core j mism ok => Sys2Proof.Machine.execCipherFrame core j mism ok s
  | .keyHoldTimeout p => Sys2Proof.Machine.execKeyHoldTimeout p s
  | .saeContextTimeout ix => Sys2Proof.Machine.execSaeContextTimeout ix s
  | .dramInitDone fail => Sys2Proof.Machine.execDramInitDone fail s
  | .dramRead c op => Sys2Proof.Machine.execDramRead c op s
  | .dramWrite c op => Sys2Proof.Machine.execDramWrite c op s
  | .alertFall c crc => Sys2Proof.Machine.execAlertFall c crc s
  | .alertRise c => Sys2Proof.Machine.execAlertRise c s
  | .refDue c r => Sys2Proof.Machine.execRefDue c r s
  | .refIssue c r => Sys2Proof.Machine.execRefIssue c r s
  | .refPullIn c r => Sys2Proof.Machine.execRefPullIn c r s
  | .tempRead c hot => Sys2Proof.Machine.execTempRead c hot s
  | .zqCal c => Sys2Proof.Machine.execZqCal c s
  | .retrainDue c => Sys2Proof.Machine.execRetrainDue c s
  | .retrainStart c last => Sys2Proof.Machine.execRetrainStart c last s
  | .retrainDone c ok trained => Sys2Proof.Machine.execRetrainDone c ok trained s
  | .rtcTime0Read presc => Sys2Proof.Machine.execRtcTime0Read presc s
  | .rtcTime2Read => Sys2Proof.Machine.execRtcTime2Read s
  | .rtcSnapshotExpiry => Sys2Proof.Machine.execRtcSnapshotExpiry s
  | .rtcCommit value => Sys2Proof.Machine.execRtcCommit value s
  | .rtcCommitLoad => Sys2Proof.Machine.execRtcCommitLoad s
  | .rtcUnlock value => Sys2Proof.Machine.execRtcUnlock value s
  | .rtcLock => Sys2Proof.Machine.execRtcLock s
  | .vddIoGood => Sys2Proof.Machine.execVddIoGood s
  | .batteryPowerUp => Sys2Proof.Machine.execBatteryPowerUp s
  | .rtcSecondTick => Sys2Proof.Machine.execRtcSecondTick s
  | .oscStop presc => Sys2Proof.Machine.execOscStop presc s
  | .oscResume => Sys2Proof.Machine.execOscResume s
  | .gleanerAccess a word find => Sys2Proof.Machine.execGleanerAccess a word find s
  | .gleanerPassEnd a => Sys2Proof.Machine.execGleanerPassEnd a s
  | .gleanerEscalate a => Sys2Proof.Machine.execGleanerEscalate a s
  | .weakRegionScrub ix word find => Sys2Proof.Machine.execWeakRegionScrub ix word find s
  | .arrayWriteback op => Sys2Proof.Machine.execArrayWriteback op s
  | .ternaryRepair ix shadowBad => Sys2Proof.Machine.execTernaryRepair ix shadowBad s
  | .canarySample delays => Sys2Proof.Machine.execCanarySample delays s
  | .stressSample tj => Sys2Proof.Machine.execStressSample tj s
  | .marginReplan d d0 => Sys2Proof.Machine.execMarginReplan d d0 s
  | .gainCal r c gain need => Sys2Proof.Machine.execGainCal r c gain need s
  | .cairnReady => Sys2Proof.Machine.execCairnReady s
  | .navExpiry r intra => Sys2Proof.Machine.execNavExpiry r intra s
  | .laneWipeDone l => Sys2Proof.Machine.execLaneWipeDone l s
  | .surveyDwellEnd r busy => Sys2Proof.Machine.execSurveyDwellEnd r busy s
  | .rateChange => Sys2Proof.Machine.execRateChange s
  | .respondMpacket p respond => Sys2Proof.Machine.execRespondMpacket p respond s
  | .trngHealthFail => Sys2Proof.Machine.execTrngHealthFail s

end Sys2Proof.Machine
end

