-- ==== Sys2Proof/Safety.lean ====
section
/-!
DEFINITION. The terms in which statements about the block are made: when a mailbox command is ready to run, what the machine keeps invariant,
and which parts of the state a command leaves alone.
-/
namespace Sys2Proof.Machine
open Sys2Proof

/-- A command answers a next state of which `P` holds. -/
def Gives (i : Instr) (s : State) (P : State → Prop) : Prop := ∃ t, exec i s = .next t ∧ P t

/-- Builmin runs, `r` is the command it starts next in mailbox `m`, it has the form's opcode, and it passes steps 1 to 3 of R45 and the gate
of R78. -/
def Ready (f : Form) (m : Fin 8) (buf : List Byte) (r : CmdRec) (s : State) : Prop :=
  running s = true ∧ nextCmd (vget s.host.mbx m).cmds = some r ∧ hdrOpcode r = f.opcode ∧ cmdCheck f r (cmdParams f r buf) s = none

/-- The state with command `r` started. -/
def begun (r : CmdRec) (s : State) : State := setPhase r.handle .running s

/-- What the run of a ready command is given. -/
def cmdOf (f : Form) (m : Fin 8) (buf : List Byte) (r : CmdRec) : Cmd :=
  { mbx := m, handle := r.handle, params := cmdParams f r buf, blen := if f.indirect then u32 r.params 8 else 16, at_ := r.at_ }

/-- A row of mailbox commands: for every mailbox and host buffer, a ready command for whose parameters and state `cond` holds completes with
OK and `data`, and its effect is `eff`, both of the parameters and of the state with the command started. -/
def Completes (i : Fin 8 → List Byte → Instr) (f : Form) (cond : List Byte → State → Prop) (data : List Byte → State → List Byte)
    (eff : List Byte → State → State) : Prop :=
  ∀ m buf r s, Ready f m buf r s → cond (cmdParams f r buf) (begun r s) →
    exec (i m buf) s = .next (finish r.handle .ok (data (cmdParams f r buf) (begun r s)) (eff (cmdParams f r buf) (begun r s)))

/-- A command that only reads. -/
def Reads (i : Fin 8 → List Byte → Instr) (f : Form) (data : List Byte → State → List Byte) : Prop :=
  Completes i f (fun _ _ => True) data fun _ s => s

/-- A command without completion data. -/
def Sets (i : Fin 8 → List Byte → Instr) (f : Form) (cond : List Byte → State → Prop) (eff : List Byte → State → State) : Prop :=
  Completes i f cond (fun _ _ => []) eff

/-- A command that stays outstanding: a ready one takes the effect `eff`, which knows its handle, and completes later. -/
def Stays (i : Fin 8 → List Byte → Instr) (f : Form) (cond : List Byte → State → Prop) (eff : Word → List Byte → State → State) : Prop :=
  ∀ m buf r s, Ready f m buf r s → cond (cmdParams f r buf) (begun r s) →
    exec (i m buf) s = .next (eff r.handle (cmdParams f r buf) (begun r s))

/-- A ready command for which `cond` holds ends with a status and no data, and changes nothing else. -/
def Fails (i : Fin 8 → List Byte → Instr) (f : Form) (st : Status) (cond : List Byte → State → Prop) : Prop :=
  ∀ m buf r s, Ready f m buf r s → cond (cmdParams f r buf) (begun r s) → exec (i m buf) s = .next (finish r.handle st [] s)

/-- An event of the working device: wherever `cond` holds, its effect is `eff`. -/
def Does (i : Instr) (cond : State → Prop) (eff : State → State) : Prop := ∀ s, live s = true → cond s → exec i s = .next (eff s)

/-- An event that Builmin brings about. -/
def BuilminDoes (i : Instr) (cond : State → Prop) (eff : State → State) : Prop :=
  ∀ s, running s = true → cond s → exec i s = .next (eff s)

/-- An event that needs neither: of the battery domain, the supplies, the reset pin. -/
def AlwaysDoes (i : Instr) (cond : State → Prop) (eff : State → State) : Prop := ∀ s, cond s → exec i s = .next (eff s)

/-- Seconds from 2000-01-01 00:00:00 to a time (R428). -/
def secondsOf (t : RtcTime) : Nat := 86400 * daysSince t + 3600 * t.hour + 60 * t.minute + t.second

/-- A reset wipe of `s` runs in `t` (R65, R66, Table 3.3): the units, their memories, the mailboxes, queues, rings and time bases are as
after reset; the battery domain, the life-cycle state and the serial number are kept. -/
structure Wiped (s t : State) : Prop where
  busy : t.life.wipeBusy = true
  fw : t.life.fwState = State.reset.life.fwState
  mode : t.life.mode = State.reset.life.mode
  rtc : t.rtc = s.rtc
  serial : t.glb.serial = s.glb.serial
  bar : t.bar = []
  mpRam : t.mpRam = []
  mbx : t.host.mbx = State.reset.host.mbx
  cq : t.host.cq = State.reset.host.cq
  evt : t.host.evt = State.reset.host.evt
  rings : t.rings = State.reset.rings
  time : t.time = State.reset.time
  mac : t.mac = State.reset.mac
  phy : t.phy = State.reset.phy
  sched : t.sched = State.reset.sched
  harrow : t.harrow = State.reset.harrow
  bf : t.bf = State.reset.bf
  eth : t.eth = State.reset.eth
  seed : t.seed = State.reset.seed
  sec : t.sec = State.reset.sec
  dram : t.dram = State.reset.dram
  wur : t.wur = State.reset.wur
  rel : t.rel = State.reset.rel
  pending : t.pending = s.pending

/-! Harrow lanes. -/

/-- Lane `l` may issue word `w` of opcode `op` now: its program runs, nothing holds issue, no interrupt or timer comes first, the index can
be fetched, and the budget suffices (R215, R218, R225, R232). -/
structure AtWord (l op w : Nat) (s : State) : Prop where
  live : live s = true
  may : mayIssue (lane l s) = true
  inC : fetchIllegal (lane l s) = false
  inReach : fetchOutside (lane l s) = false
  word : fetched (lane l s) = w
  op : opOf w = op
  budget : budgetSpent (jobLease (lane l s) s) (lane l s) = false

/-- A format K row of one step: with its reserved bits 0 and `ok` the lane's registers become `eff`, the program goes on, and the steps of
its fetch are counted. -/
def KStep (i : Fin 16 → LaneCheck → Instr) (op : Nat) (ok : Nat → Lane → Prop) (eff : Nat → Lane → Lane) : Prop :=
  ∀ (l : Fin 16) w s, AtWord l op w s → bits w 32 15 = 0 → ok w (lane l s) →
    exec (i l .ok) s =
      .next (withLane l (fun x => { advance (eff w (afterFetch x)) with steps := x.steps + stepCost x 0 false }) s)

/-- A format K row that sets the next index itself. -/
def KJump (i : Fin 16 → LaneCheck → Instr) (op : Nat) (ok : Nat → Lane → Prop) (cost : Nat → Lane → Nat) (eff : Nat → Lane → Lane) : Prop :=
  ∀ (l : Fin 16) w s, AtWord l op w s → bits w 32 15 = 0 → ok w (lane l s) →
    exec (i l .ok) s = .next (withLane l (fun x => { eff w (afterFetch x) with steps := x.steps + cost w x }) s)

/-- A format V row: with its fields and move slots legal, the operation `eff` reads the registers as they stood, the moves follow, and the
program goes on (R219, R220). `dests`: the vector registers the operation writes. -/
def VStep (i : Fin 16 → LaneCheck → Instr) (op : Nat) (ok : Nat → Prop) (dests : Nat → List Nat) (eff : Nat → Lane → Lane) : Prop :=
  ∀ (l : Fin 16) w s, AtWord l op w s → bit w 0 = false → ok w → slotsLegal w (lane l s) = true → (loaded w ++ dests w).Nodup →
    ((lane l s).fallback = true → ∀ q ∈ touched w (lane l s), q.2 < 4096) →
    exec (i l .ok) s =
      .next (withLane l (fun x =>
        { advance (doMoves w x (freeMoves x s).1 (eff w (afterFetch x))) with
          steps := x.steps + stepCost x (activeSlots w).length (slotAt w 2).en }) (freeMoves (lane l s) s).2)

/-- The rows of Table 9.7 with their opcodes. -/
def laneRowsK : List (Nat × (Fin 16 → LaneCheck → Instr)) :=
  [(0x00, .harrowNop), (0x01, .halt), (0x02, .loop), (0x03, .br), (0x04, .sli), (0x05, .sadd), (0x06, .pset), (0x07, .xfer), (0x08, .xwait),
   (0x09, .swi), (0x0A, .rti), (0x0B, .tset), (0x0C, .expclr), (0x0D, .expget), (0x0E, .idxset), (0x0F, .mmget)]

def laneRowsV : List (Nat × (Fin 16 → LaneCheck → Instr)) :=
  [(0x20, .move), (0x21, .vadd), (0x22, .vsub), (0x23, .vmuln), (0x24, .vmulcn), (0x25, .vmac), (0x26, .vmacc), (0x27, .vmsu), (0x28, .vmul0),
   (0x29, .vdotc), (0x2A, .vnrw), (0x2B, .vsha), (0x2C, .vconj), (0x2D, .vneg), (0x2E, .vbfly), (0x2F, .vperm), (0x30, .bexp), (0x31, .vmaxi),
   (0x32, .vmini), (0x33, .vrcp), (0x34, .vrsq), (0x35, .vsplat)]

/-! Rope frames. -/

/-- The state after a Kennar frame's checks (R290), and that it passed them. `open_`: the frame needs no roster entry. -/
def heard (open_ : State → Bool) (f : KnFrame) (s : State) : State := (knCheck f (open_ s) true s).2

def Accepted (open_ : State → Bool) (f : KnFrame) (s : State) : Prop := running s = true ∧ (knCheck f (open_ s) true s).1 = true

/-- A rope frame that passes its checks has its effect on the state they leave. -/
def Hears (i : KnFrame → Instr) (open_ : State → Bool) (cond : KnFrame → State → Prop) (eff : KnFrame → State → State) : Prop :=
  ∀ f s, Accepted open_ f s → cond f (heard open_ f s) → exec (i f) s = .next (eff f (heard open_ f s))

/-- Every part of the state but the host interface (mailboxes, queues, event ring, MSI-X) and the log of what left the device. -/
def sameButHost (s t : State) : Prop := { t with host := s.host, out := s.out } = s

/-- What answers also while the device is held in reset: the reset logic and the supplies, the reference's loss detector, registers outside
the reset's reach, the battery domain and its crystal, and the wake receiver. -/
def worksInReset (i : Instr) : Bool :=
  match i with
  | .powerOnReset | .perstAssert | .perstRelease | .hotReset | .flr | .thermalTrip | .thermalHoldClear | .wipeEnd | .supplyRemoval _
  | .refLost | .refReturn | .registerWrite _ | .rtcSnapshotExpiry | .rtcCommitLoad | .rtcLock | .vddIoGood | .batteryPowerUp
  | .rtcSecondTick | .oscStop _ | .oscResume | .wurFrameRx _ | .wurWindow _ => true
  | _ => false

/-- The sparse memories are in their canonical form, the calendar holds a time of the calendar (R428), as does a commit that waits for its
crystal edge, and no register of the RTC holds a reserved bit (R3, Tables 18.1, 18.4). -/
structure Sound (s : State) : Prop where
  bar : memWf s.bar = true
  mpRam : memWf s.mpRam = true
  time : timeValid s.rtc.time = true
  commit : ∀ t, s.rtc.commit = some t → timeValid t = true
  holdDate : s.rtc.holdDate &&& ~~~0x01FF0F1F#32 = 0
  holdTime : s.rtc.holdTime &&& ~~~0x001F3F00#32 = 0
  alarm : s.rtc.alarm &&& ~~~0x009F9FBF#32 = 0
  sqw : s.rtc.sqwSel ≤ 4

end Sys2Proof.Machine
end

