-- ==== Sys2Proof/Certificates/Slice0/Obligations.lean ====
section
/-!
DEFINITION. The statements about the block. `p` stands for a command's parameters and `s` for the state with it started.
-/
open Sys2Proof Sys2Proof.Machine

/-! Mailbox commands. -/

/-- R37, R45: the commands that only read complete with OK and their data, and change nothing but the mailbox and its queue. -/
def Obligations.ReadingCommandsAnswer : Prop :=
  Sets .nop nopForm (fun _ _ => True) (fun _ s => s) ∧
  Reads .getVersion getVersionForm (fun _ s => [4, 2, 0xB0, byte s.life.lcState] ++ le 4 s.life.build.toNat ++ le 2 256 ++ le 6 0) ∧
  Reads .hostGetCounters hostGetCountersForm (fun p s =>
    let g := vget (if u8 p 0 = 0 then s.rings.htx else s.rings.hrx) (u8 p 1)
    le 8 g.frames ++ le 8 g.bytes ++ le 8 g.ctrA ++ le 8 g.ctrB) ∧
  Reads .radioGetState radioGetStateForm (fun p s => radioStateData (u8 p 0) s) ∧
  Reads .radioGetChain radioGetChainForm (fun p s => chainData (vget (vget s.fe (u8 p 0)).chains (u8 p 1))) ∧
  Reads .radioGetCounters radioGetCountersForm (fun p s => ctrBytes (vget s.fe (u8 p 0)).ctr) ∧
  Reads .phyGetConfig phyGetConfigForm (fun p s => phyConfigData (vget s.phy (u8 p 0))) ∧
  Reads .phyGetReport phyGetReportForm (fun p s => (kget (vget s.phy (u8 p 0)).latest (u16 p 2)).getD []) ∧
  Reads .phyReadHistory phyReadHistoryForm (fun p s => historyFrom (vget s.phy (u8 p 0)) (u64 p 4) (u16 p 2)) ∧
  Reads .phyGetCounters phyGetCountersForm (fun p s => ctrBytes (vget s.phy (u8 p 0)).ctr) ∧
  Reads .macGetCounters macGetCountersForm (fun p s => ctrBytes (vget s.mac.radio (u8 p 0)).ctr) ∧
  Reads .macGetSta macGetStaForm (fun p s => staData (u16 p 0) s) ∧
  Reads .schedGetFurrow schedGetFurrowForm (fun p s =>
    match furrowAsked (u8 p 0) (u8 p 1) s with | some f => furrowSummary f | none => []) ∧
  Reads .schedGetCounters schedGetCountersForm (fun p s => ctrBytes (vget s.sched.radio (u8 p 0)).ctr) ∧
  Reads .harrowGetStatus harrowGetStatusForm (fun _ s => (List.range 16).flatMap fun l => laneStatus l s) ∧
  Reads .harrowGetCounters harrowGetCountersForm (fun _ s => ctrBytes s.harrow.ctr) ∧
  Reads .bfGetGroups bfGetGroupsForm (fun p s => (vget s.bf.radio (u8 p 0)).groups.flatMap fun g => groupBytes (u8 p 0) g.1 g.2 s) ∧
  Reads .bfGetStatus bfGetStatusForm (fun p s => bfStatus (u8 p 0) s) ∧
  Reads .bfGetCounters bfGetCountersForm (fun p s => ctrBytes (vget s.bf.radio (u8 p 0)).ctr) ∧
  Reads .seederGetStatus seederGetStatusForm (fun _ s => seederStatus s) ∧
  Reads .seederGetPlacement seederGetPlacementForm (fun p s =>
    placementData (u8 p 0) (u32 p 4) ((objectKey (u8 p 0) (u32 p 4)).getD 0) s) ∧
  Reads .seederReadLog seederReadLogForm (fun p s => readLog (u16 p 0) (u64 p 4) s) ∧
  Reads .seederGetCounters seederGetCountersForm (fun _ s => ctrBytes s.seed.ctr)

/-- R37, R45: the reading commands of the other chapters. -/
def Obligations.ReadingCommandsOfUnitsAnswer : Prop :=
  Reads .ropeGetStatus ropeGetStatusForm (fun _ s => ropeStatus s) ∧
  Reads .ropeGetCounters ropeGetCountersForm (fun _ s => ctrBytes s.rope.ctr) ∧
  Completes .ropeGetMember ropeGetMemberForm (fun _ s => joined s = true)
    (fun p s => match memberOf (u16 p 0) s with | some e => entryWith le (u16 p 0) e true | none => []) (fun _ s => s) ∧
  Completes .ropeGetPitch ropeGetPitchForm (fun _ s => joined s = true)
    (fun p s => pitchBytes (if u16 p 0 = 0xFFFF then myPitch s else u16 p 0) s) (fun _ s => s) ∧
  Reads .timeGetStatus timeGetStatusForm (fun _ s => (List.range 4).flatMap fun n => tbStatus n s) ∧
  Reads .timeGetTsf timeGetTsfForm (fun p s =>
    le 8 (tsfOf (u8 p 0) s) ++ [byte (vget s.mac.bss (tsfBss (u8 p 0) s)).tsfTb] ++ le 7 0) ∧
  Reads .timeGetCounters timeGetCountersForm (fun _ s => ctrBytes s.time.ctr) ∧
  Reads .routerGetCounters routerGetCountersForm (fun _ s => routerCounters s) ∧
  Reads .routerGetRule routerGetRuleForm (fun p s => ruleData ((kget s.router.rules (u16 p 0)).getD {})) ∧
  Reads .routerGetFlow routerGetFlowForm (fun p s =>
    match kget s.router.flows (u16 p 0) with
    | none => []
    | some f =>
      f.key ++ f.result ++ le 8 f.packets ++ le 8 f.bytes ++ le 4 (min ((s.now - f.hitAt) / 500000000) (2 ^ 32 - 1)) ++ le 2 f.idle ++
        [byte (put (entryPlaced (u16 p 0) s).isSome 0), byte ((entryPlaced (u16 p 0) s).getD 0)] ++ pad 8 []) ∧
  (∀ tx rx, Reads (.ethGetStatus · · tx rx) ethGetStatusForm (fun p s => ethStatus (u8 p 0) tx rx s)) ∧
  Reads .ethGetCounters ethGetCountersForm (fun p s => ctrBytes (port (u8 p 0) s).ctr) ∧
  Reads .secGetIdentity secGetIdentityForm (fun _ s => le 8 s.glb.serial.toNat ++ pad 97 Config.identityKey ++ pad 7 []) ∧
  Reads .secGetKeyState secGetKeyStateForm (fun p s => keyState (u16 p 0) s) ∧
  Reads .secGetCounters secGetCountersForm (fun _ s => ctrBytes s.sec.ctr) ∧
  Reads .dramGetStatus dramGetStatusForm (fun p s => dramStatus (u8 p 0) s) ∧
  Completes .schedGetSta schedGetStaForm (fun p s => khas s.mac.sta (u16 p 0) = true)
    (fun p s => schedStaData (u16 p 0) ((kget s.mac.sta (u16 p 0)).getD {}) s) (fun _ s => s) ∧
  Completes .bfGetCsi bfGetCsiForm (fun p s => csiAsked p s = none) (fun _ _ => []) (fun _ s => s) ∧
  Completes .seederGetFence seederGetFenceForm (fun p s => khas s.seed.fences (u16 p 0) = true)
    (fun p s => ((kget s.seed.fences (u16 p 0)).getD { kind := 0, bytes := [] }).bytes ++ [byte (put (fenceBlocked (u16 p 0) s) 0)]) (fun _ s => s) ∧
  Reads .relGetStatus relGetStatusForm (fun _ s => relStatus s) ∧
  Reads .relGetCounters relGetCountersForm (fun _ s => ctrBytes s.rel.ctr) ∧
  Reads .sysGetState sysGetStateForm (fun _ s => sysState s) ∧
  Reads .wurGetStatus wurGetStatusForm (fun _ s =>
    [byte s.wur.mode, byte (wurValid s.wur)] ++ le 2 s.wur.channel ++ le 2 s.wur.period ++ le 2 s.wur.on ++ le 8 0) ∧
  Reads .wurGetCounters wurGetCountersForm (fun _ s => ctrBytes s.wur.ctr)

/-- R94, R98, R100, R103, R111, R112, Tables 5.1, 5.9: what the radio and PHY commands write, and which of them stay outstanding. -/
def Obligations.RadioCommandsTakeEffect : Prop :=
  Stays .radioSetState radioSetStateForm (fun _ _ => True) (fun h p => withFe (u8 p 0) fun e =>
    { e with stateReq := e.stateReq ++ [(h, stateOfCode (u8 p 1), stateOfCode (u8 p 2))] }) ∧
  Completes .radioSetChannel radioSetChannelForm
    (fun p s =>
      let e := vget s.fe (u8 p 0)
      channelGate (u8 p 0) (u8 p 1) (u8 p 2) (u16 p 4) s = none ∧ e.chanReq = none ∧ e.sw = none ∧ e.state = .off ∧ e.trans = none ∧ e.cal = none)
    (fun p s => chanData (u8 p 0) (vget (storeChannel (u8 p 0) { handle := none, bw := u8 p 1, prim := u8 p 2, centre := u16 p 4 } s).fe (u8 p 0)) 0 0)
    (fun p s => storeChannel (u8 p 0) { handle := none, bw := u8 p 1, prim := u8 p 2, centre := u16 p 4 } s) ∧
  Stays .radioSetChannel radioSetChannelForm
    (fun p s =>
      let e := vget s.fe (u8 p 0)
      channelGate (u8 p 0) (u8 p 1) (u8 p 2) (u16 p 4) s = none ∧ e.chanReq = none ∧ e.sw = none ∧ ¬(e.state = .off ∧ e.trans = none ∧ e.cal = none))
    (fun h p s => withFe (u8 p 0) (fun e => { e with chanReq := some {
      handle := some h, bw := u8 p 1, prim := u8 p 2, centre := u16 p 4, force := bit (u8 p 6) 0
      announced := (announceAt (u8 p 0) (u8 p 3) s).isSome, count := u8 p 3, at_ := announceAt (u8 p 0) (u8 p 3) s } }) s) ∧
  Stays .radioCalibrate radioCalibrateForm
    (fun p s =>
      let e := vget s.fe (u8 p 0)
      ¬(e.state = .off ∧ e.trans = none ∧ e.cal = none) ∧ e.calCmd = none)
    (fun h p => withFe (u8 p 0) fun e =>
      { e with calCmd := some { handle := h, segs := bits (u8 p 1) 0 4, force := bit (u8 p 2) 0, started := false } }) ∧
  Stays .radioCalibrate radioCalibrateForm
    (fun p s =>
      let e := vget s.fe (u8 p 0)
      ¬(e.state = .off ∧ e.trans = none ∧ e.cal = none) ∧ e.calCmd ≠ none)
    (fun h p => withFe (u8 p 0) fun e =>
      { e with calWait := e.calWait ++ [{ handle := h, segs := bits (u8 p 1) 0 4, force := bit (u8 p 2) 0, started := false }] }) ∧
  Sets .radioSetFemMap radioSetFemMapForm
    (fun p s => let e := vget s.fe (u8 p 0); e.state = .off ∧ e.trans = none ∧ e.cal = none)
    (fun p => withFe (u8 p 0) fun e => { e with femMap := femList p }) ∧
  Sets .radioSetRamp radioSetRampForm (fun _ _ => True)
    (fun p => withFe (u8 p 0) fun e => { e with rampUp := u8 p 1, rampDown := u8 p 2, rampShape := u8 p 3 }) ∧
  Sets .radioSetChain radioSetChainForm (fun _ _ => True)
    (fun p s => chainBoundary (u8 p 0) (withChain (u8 p 0) (u8 p 1) (fun h => { h with cfgNext := some {
      hostEn := bit (u8 p 2) 0, backoff := u8 p 3, rlThresh := u8 p 4
      tuner := if bit (u8 p 5) 0 then some {
          bus := bits (u8 p 5) 1 1, usid := u8 p 6, codeMax := u8 p 7, reg1 := u16 p 8, reg2 := if u16 p 10 = 0xFFFF then none else some (u16 p 10) }
        else none } }) s)) ∧
  Sets .radioSetChain radioSetChainForm
    (fun p s => ((vget s.fe (u8 p 0)).txopHeld = true ∨ (vget s.fe (u8 p 0)).tx ≠ none) ∧ bit (u8 p 5) 0 = false)
    (fun p => withChain (u8 p 0) (u8 p 1) fun h => { h with cfgNext := some {
      hostEn := bit (u8 p 2) 0, backoff := u8 p 3, rlThresh := u8 p 4, tuner := none } }) ∧
  Sets .radioRestoreChain radioRestoreChainForm (fun p s => (vget (vget s.fe (u8 p 0)).chains (u8 p 1)).st = .fallow)
    (fun p s => setChainState (u8 p 0) (u8 p 1) .derated6 s) ∧
  (∀ (b : Byte) (again : Bool), Completes (.radioRffeTransfer · · (if again then .second b else .first b)) radioRffeTransferForm
    (fun p s => let e := vget s.fe (u8 p 0)
      (e.state = .off ∨ e.state = .standby) ∧ e.trans = none ∧ e.cal = none ∧ bit (u8 p 3) 0 = true)
    (fun _ _ => [b])
    (fun p s =>
      let x : Output := .rffe (u8 p 0) (u8 p 1) (u8 p 2)
        (if u16 p 4 < 32 then .regRead else if u16 p 4 < 256 then .extRead else .extReadLong) (u16 p 4) 0 0xFF
      if again then emit x (emit x s) else emit x s)) ∧
  (∀ rd, Completes (.radioRffeTransfer · · rd) radioRffeTransferForm
    (fun p s => let e := vget s.fe (u8 p 0)
      (e.state = .off ∨ e.state = .standby) ∧ e.trans = none ∧ e.cal = none ∧ bit (u8 p 3) 0 = false)
    (fun _ _ => [0])
    (fun p => rffeWrite (u8 p 0) (u8 p 1) (u8 p 2) (u16 p 4) (u8 p 6) (if bit (u8 p 3) 1 then u8 p 7 else 0xFF))) ∧
  Sets .phySetRx phySetRxForm (fun _ _ => True) (fun p => withPhy (u8 p 0) fun y =>
    { y with captureEn := bit (u8 p 1) 0, pdThresh := i8 p 2, ldpcMax := u8 p 3, femRxGain := u8 p 4 }) ∧
  Sets .phySetFormats phySetFormatsForm (fun _ _ => True) (fun p => withPhy (u8 p 0) fun y =>
    { y with fmtNext := some (Nat.land (u16 p 2) (radioFormats (u8 p 0))) }) ∧
  Stays .phyTestTx phyTestTxForm
    (fun p s => let e := vget s.fe (u8 p 0)
      formatCarried (u8 p 0) e (u8 p 1) (u8 p 2) = true ∧ s.life.mode = .test ∧ (e.state = .rx ∨ e.state = .standby) ∧ e.testTx = none ∧ u16 p 6 ≠ 0)
    (fun h p => withFe (u8 p 0) fun e => { e with testTx := some {
      handle := h, left := u16 p 6, fmt := u8 p 1, bw := u8 p 2, mcs := u8 p 3, nss := u8 p 4, gi := u8 p 5, bytes := u16 p 8, gap := u16 p 10 } })

/-- R145, R149, R155, R158, R166 to R184: what the medium-access commands write. -/
def Obligations.MacCommandsTakeEffect : Prop :=
  Sets .macSetBss macSetBssForm
    (fun p s =>
      setFits p (allNext s) = true ∧ (vget s.fe (u8 p 0)).chanReq = none ∧
      (beaconTooLong (bssWrite p (allNext s)) = true → beaconTooLong (allNext s) = true))
    (fun p => withBss (u8 p 1) fun x => { x with setNext := some p }) ∧
  Fails .macSetBss macSetBssForm .badParam (fun p s => setFits p (allNext s) = false) ∧
  Sets .macSetBeacon macSetBeaconForm
    (fun p s =>
      let t : Template := { rate := u8 p 1, body := slice p 8 (u16 p 2), timOffset := u16 p (8 + u16 p 2) }
      let u := withBss (u8 p 0) (fun x => { x with template := some t }) (allNext s)
      worstBeacon (u8 p 0) t u ≤ 2304 ∧ (beaconTooLong u = true → beaconTooLong (allNext s) = true))
    (fun p => withBss (u8 p 0) fun x =>
      { x with tmplNext := some { rate := u8 p 1, body := slice p 8 (u16 p 2), timOffset := u16 p (8 + u16 p 2) } }) ∧
  Sets .macSetEdca macSetEdcaForm (fun p _ => u8 p 1 = 0)
    (fun p => withRm (u8 p 0) fun m => { m with edcaNext := (Vector.ofFn fun i => edcaOf p i).map some }) ∧
  Sets .macSetEdca macSetEdcaForm (fun p _ => u8 p 1 ≠ 0) (fun p => withBss (u8 p 2) fun x =>
    { x with edca := Vector.ofFn fun i => edcaOf p i, changes := (x.changes + 1) % 256 }) ∧
  Sets .macSetCca macSetCcaForm (fun _ _ => True) (fun p => withRm (u8 p 0) fun m =>
    { m with edPri := i8 p 1, sdSec := i8 p 2, edSec := i8 p 3, obssPd := i8 p 4 }) ∧
  Sets .macAddSta macAddStaForm
    (fun p s =>
      mldLinksOk p s = true ∧ khas s.mac.sta (u16 p 0) = false ∧ aidFree p s = true ∧
      staDomain { mld := if u8 p 2 = 0xFF then none else some (u8 p 2), links := u8 p 3, addr := slice p 4 6, aid := u16 p 10,
                  block := #v[addBlock p 0, addBlock p 1, addBlock p 2] } s = none)
    (fun p s => linkEvaluate (u16 p 0) none (withMac (fun m => { m with sta := kset m.sta (u16 p 0) {
      mld := if u8 p 2 = 0xFF then none else some (u8 p 2), links := u8 p 3, addr := slice p 4 6, aid := u16 p 10
      block := #v[addBlock p 0, addBlock p 1, addBlock p 2] } }) s)) ∧
  Completes .macDelSta macDelStaForm (fun _ _ => True) (fun p s => le 4 (delStation (u16 p 0) s).1) (fun p s => (delStation (u16 p 0) s).2) ∧
  Sets .macSetBaPolicy macSetBaPolicyForm (fun _ _ => True) (fun p s => clipBuffers (u16 p 0) (u16 p 4) (setBaPolicy p s)) ∧
  Sets .macSetMld macSetMldForm
    (fun p s => (∀ q ∈ s.mac.sta, q.2.mld ≠ some (u8 p 0)) ∧ ∀ k < 16, k ≠ u8 p 0 → vget s.mac.mld k = none)
    (fun p => withMac fun m => { m with mld := vset m.mld (u8 p 0) (some {
      links := Vector.ofFn fun i => if u8 p (1 + i.val) = 0xFF then none else some (u8 p (1 + i.val)), addr := slice p 4 6 }) }) ∧
  Sets .macSetTwt macSetTwtForm
    (fun p s => beaconTooLong (allNext (twtWrite p s)) = true → beaconTooLong (allNext s) = true) (fun p => twtWrite p) ∧
  Sets .macSetUplink macSetUplinkForm (fun p _ => u8 p 1 = 0xFF) (fun p => withRm (u8 p 0) fun m => { m with uplink := none }) ∧
  Sets .macSetUplink macSetUplinkForm (fun p s => u8 p 1 ≠ 0xFF ∧ khas s.mac.sta (u16 p 2) = true)
    (fun p => withRm (u8 p 0) fun m => { m with uplink := some {
      bss := u8 p 1, sta := u16 p 2, bssid := slice p 4 6, lossCount := u8 p 10, bcnWait := u8 p 11, interval := u16 p 12, ps := bit (u8 p 14) 0 } }) ∧
  Sets .macSetRetry macSetRetryForm (fun _ _ => True) (fun p s => dropOverTries (u8 p 0) (withRm (u8 p 0) (fun m =>
    { m with
      cfEnd := bit (u8 p 1) 0, retryLim := Vector.ofFn fun i => u8 p (4 + 3 * i.val), lifeMs := Vector.ofFn fun i => u16 p (5 + 3 * i.val) }) s))

/-- R185 to R212, R232 to R237, R240 to R262: what the scheduler, Harrow and beamforming commands write, and which of them stay
outstanding. -/
def Obligations.SchedulerHarrowBfCommandsTakeEffect : Prop :=
  Sets .schedSetAcWeights schedSetAcWeightsForm (fun _ _ => True) (fun p => withRs (u8 p 0) fun k =>
    { k with acW := Vector.ofFn fun i => u8 p (4 + i.val) }) ∧
  Sets .schedSetBssShare schedSetBssShareForm (fun _ _ => True) (fun p s =>
    (List.range 16).foldl (fun t i => withBss (16 * u8 p 0 + i) (fun b => { b with share := u16 p (4 + 2 * i) }) t) s) ∧
  Sets .schedSetSta schedSetStaForm (fun p s => khas s.mac.sta (u16 p 0) = true) (fun p => withSta (u16 p 0) fun x =>
    { x with weight := u8 p 2, qlimit := u16 p 4, tll := Vector.ofFn fun i => u16 p (8 + 2 * i.val) }) ∧
  Sets .schedSetLimits schedSetLimitsForm (fun _ _ => True) (fun p => schedSetLimits p) ∧
  Completes .schedFlushQueue schedFlushQueueForm (fun _ _ => True) (fun p s => le 4 (flushQueue p s).1) (fun p s => (flushQueue p s).2) ∧
  (∀ m buf r s k, Ready harrowLeaseForm m buf r s →
    let p := cmdParams harrowLeaseForm r buf
    let u := begun r s
    kfree u.harrow.lease 4 = some k → slotsHeld u + u8 p 0 ≤ 4 → u8 p 0 ≤ (slotLanes u).length →
    scratchHeld u + u16 p 2 ≤ u.dram.scratch → 8 ≤ lanesLeft (leaseTake r.handle p k u) →
    exec (.harrowLease m buf) s = .next (fixSets 2 0xFFFF false (leaseTake r.handle p k u))) ∧
  Stays .harrowRelease harrowReleaseForm (fun p s => leaseHeld (u8 p 0) s = true)
    (fun h p s =>
      let k := u8 p 0
      let t := dropJobs k (fun _ => true) .aborted s
      let lanes := (List.range 16).filter fun l => match (lane l t).slot with | some q => q / 4 == k | none => false
      let u := (List.range 16).foldl (fun u l => if ((lane l u).job.map (·.lease == k)).getD false then endJob l 6 u else u) t
      let v := lanes.foldl (fun v l => withLane l (fun x => { x with wiping := true }) v) u
      settleLease k (withLease k (fun e => { e with drop := some h }) v)) ∧
  Fails .harrowRelease harrowReleaseForm .wrongState (fun p s => leaseHeld (u8 p 0) s = false) ∧
  Fails .harrowSubmitJob harrowSubmitJobForm .wrongState (fun p s => kget s.harrow.lease (u8 p 0) = none) ∧
  Fails .harrowStopJob harrowStopJobForm .wrongState (fun p s => leaseHeld (u8 p 0) s = false) ∧
  Sets .bfSetSounding bfSetSoundingForm (fun _ _ => True) (fun p s => withRb (u8 p 0) (fun b =>
    { b with
      explicit := bit (u8 p 1) 0, reciprocity := bit (u8 p 1) 1, soundMax := u8 p 2, ng16 := bit (u8 p 3) 0, soundLead := u16 p 4
      pending := bit (u8 p 1) 1 && (b.pending || (!b.reciprocity && b.stale)), pendAt := if b.pending then b.pendAt else s.now }) s) ∧
  Sets .bfSetAgeing bfSetAgeingForm (fun _ _ => True) (fun p => withRb (u8 p 0) fun b => { b with ages := #v[u16 p 4, u16 p 6, u16 p 8] }) ∧
  Sets .bfSetPrecoder bfSetPrecoderForm (fun _ _ => True) (fun p => withRb (u8 p 0) fun b =>
    { b with rzf := u8 p 1 == 1, alpha := u8 p 2, groupMax := u8 p 3, groupMs := u16 p 4 }) ∧
  Stays .bfRecalibrate bfRecalibrateForm (fun p s => (vget s.fe (u8 p 0)).state ≠ .off)
    (fun h p s => withRb (u8 p 0) (fun b => { b with cmds := b.cmds ++ [h], forced := b.forced || bit (u8 p 1) 0 }) (recipStale (u8 p 0) s)) ∧
  Sets .bfSetFemRecip bfSetFemRecipForm (fun _ _ => True) (fun p => setFemRecip p)

/-- R236: a submitted job waits in its lease's queue; a stopped one ends with fault 6, and the stop names its handle. -/
def Obligations.HarrowJobsAreQueuedAndStopped : Prop :=
  (∀ m buf r s e n l, Ready harrowSubmitJobForm m buf r s →
    let p := cmdParams harrowSubmitJobForm r buf
    kget (begun r s).harrow.lease (u8 p 0) = some e → leaseHeld (u8 p 0) (begun r s) = true → e.queue.length < 16 →
    slotFor e (u8 p 1) (begun r s) = some n → (e.slots[n]?).getD none = some l → (lane l (begun r s)).fallback = false →
    exec (.harrowSubmitJob m buf) s = .next (withLease (u8 p 0) (fun e => { e with queue := e.queue ++ [{
      handle := r.handle, lease := u8 p 0, slot := n, wipe := bit (u8 p 2) 0, fallOk := bit (u8 p 2) 1
      prog := u16 p 8, entry := u16 p 10, ivec := (List.range 4).map fun i => u16 p (12 + 2 * i), budget := u32 p 20
      init := (List.range 4).map fun i => u32 p (24 + 4 * i)
      inSegs := (jobSegs p).filter (!·.out), outSegs := (jobSegs p).filter (·.out) }] }) (begun r s))) ∧
  (∀ m buf r s l j, Ready harrowStopJobForm m buf r s →
    let p := cmdParams harrowStopJobForm r buf
    leaseHeld (u8 p 0) (begun r s) = true →
    (List.range 16).find? (fun l => (lane l (begun r s)).slot == some (4 * u8 p 0 + u8 p 1) && (lane l (begun r s)).job.isSome) = some l →
    (lane l (begun r s)).job = some j → ((lane l (begun r s)).phase = .program ∨ (lane l (begun r s)).phase = .outbound) →
    exec (.harrowStopJob m buf) s = .next (finish r.handle .ok (le 4 j.handle.toNat) (endJob l 6 (begun r s))))

/-- R263 to R284, R285 to R318, R319 to R336: what the Seeder, rope and time commands write. -/
def Obligations.SeederRopeTimeCommandsTakeEffect : Prop :=
  Sets .seederSetParams seederSetParamsForm (fun _ _ => True) (fun p s => withSeed (fun x =>
    { x with
      linkHold := u16 p 0, steerHold := u16 p 2, chanHold := u32 p 4, linkEnter := u8 p 8, linkLeave := u8 p 9, chanGain := u8 p 10
      steerGain := u8 p 11, chanSep := u16 p 12, csaCount := u8 p 14, domains := u8 p 15, surveyInt := u16 p 16, pitchHold := u16 p 18 })
    (if u16 p 16 = s.seed.surveyInt then s
     else [1, 2].foldl (fun t r => withRm r (fun m => { m with surveyFrom := s.now, surveyDone := 0 }) t) s)) ∧
  Completes .seederSetFence seederSetFenceForm
    (fun p s => (u8 p 2 = 3 ∧ s.rope.role ≠ .none → u16 p 6 ≠ s.rope.index) ∧ fenceConflict (u16 p 0) { kind := u8 p 2, bytes := p } s = none)
    (fun _ _ => [0, 0, 0xFF, 0xFF])
    (fun p s => fenceApply (u16 p 0) { kind := u8 p 2, bytes := p } (withSeed (fun x =>
      { x with fences := kset x.fences (u16 p 0) { kind := u8 p 2, bytes := p } }) s)) ∧
  Sets .seederClearFence seederClearFenceForm (fun p _ => u16 p 0 = 0xFFFF) (fun _ => withSeed fun x => { x with fences := [] }) ∧
  Sets .seederClearFence seederClearFenceForm (fun p s => u16 p 0 ≠ 0xFFFF ∧ khas s.seed.fences (u16 p 0) = true)
    (fun p => withSeed fun x => { x with fences := kdel x.fences (u16 p 0) }) ∧
  Completes .seederEvaluate seederEvaluateForm (fun p s => s.life.mode = .service ∧ u32 p 4 ≠ 0xFFFFFFFF)
    (fun p s => le 4 ((evaluateOne (u8 p 0) (u32 p 4) s).seed.seq - s.seed.seq)) (fun p s => evaluateOne (u8 p 0) (u32 p 4) s) ∧
  Completes .seederEvaluate seederEvaluateForm (fun _ s => s.life.mode = .test) (fun _ _ => [0, 0, 0, 0]) (fun _ s => s) ∧
  Stays .ropeJoin ropeJoinForm
    (fun p s =>
      s.rope.role = .none ∧ s.life.lcState ≠ 3 ∧ (tbOfRole .rope s).isSome = true ∧ kennarKey (u16 p 4) s = true ∧
      ∀ q < 2, 3 ≤ (freeFilters q s).length)
    (fun h p s => startJoin ((knPorts (joinWrite h p s)).foldl takeFilters (joinWrite h p s))) ∧
  Sets .ropeLeave ropeLeaveForm (fun p s => joined s = true ∧ (bit (u8 p 0) 0 = true → s.rope.role = .lead))
    (fun p s => leaveRope (knRope 5 ([byte (put (bit (u8 p 0) 0) 0)] ++ le 7 0) s)) ∧
  Completes .ropeSetKey ropeSetKeyForm (fun p s => kennarKey (u16 p 0) s = true ∧ joined s = true ∧ bit (u8 p 2) 0 = false)
    (fun _ s => le 8 s.rope.switchNum) (fun p => withRope fun x => { x with nextSlot := some (u16 p 0) }) ∧
  Sets .timeSetRole timeSetRoleForm (fun p s =>
      s.rope.role = .none ∨ (u8 p 1 ≠ 1 ∧ (vget s.time.tb (u8 p 0)).role ≠ .rope) ∨ (u8 p 1 = 1 ∧ (vget s.time.tb (u8 p 0)).role = .rope))
    (fun p s => roleTake p s) ∧
  Sets .timeSetAsym timeSetAsymForm (fun _ _ => True) (fun p => withTime fun t =>
    let i := if u8 p 0 = 0 then u8 p 1 else 2 + u8 p 1
    { t with asymIn := vset t.asymIn i (i32 p 4), asymOut := vset t.asymOut i (i32 p 8) }) ∧
  Sets .timeSetTsf timeSetTsfForm (fun p s => (vget s.mac.bss (u8 p 0)).setTx = none ∧ isUplinkBss (u8 p 0) s = false)
    (fun p => withBss (u8 p 0) fun x => { x with tsfTb := u8 p 1, tsfOffset := BitVec.ofNat 64 (u64 p 8) }) ∧
  Sets .timeSetPps timeSetPpsForm (fun _ _ => True) (fun p s => withTime (fun t =>
    { t with
      outNext := some { en := bit (u8 p 0) 0, tb := u8 p 1, width := u32 p 4, delay := i32 p 8 }, riseNext := false
      inEn := bit (u8 p 0) 1, inDelay := u32 p 12, inSince := if t.inEn then t.inSince else s.now }) s)

/-- R344 to R361, R371 to R391: what the router and port commands write. -/
def Obligations.RouterPortCommandsTakeEffect : Prop :=
  Sets .routerSetParams routerSetParamsForm (fun _ _ => True) (fun p => withRouter fun x =>
    { x with vxlan := u16 p 0, controlRing := ringOpt (u8 p 2), excRing := ringOpt (u8 p 3), fdbAge := u32 p 4, gre := bit (u8 p 8) 0 }) ∧
  (∀ i old, Completes .routerSetFlow routerSetFlowForm
    (fun p s => flowFind (slice p 8 48) s = some (i, old) ∧ old.result.take 4 = (slice p 56 16).take 4)
    (fun _ _ => le 2 i ++ [1, 0])
    (fun p s => withRouter (fun x => { x with
      flows := kset x.flows i { old with idle := u16 p 0, result := slice p 56 16, hitAt := s.now } }) s)) ∧
  (∀ f, Completes .routerDelFlow routerDelFlowForm (fun p s => kget s.router.flows (u16 p 0) = some f)
    (fun _ _ => le 8 f.packets ++ le 8 f.bytes) (fun p s => flowRemove (u16 p 0) s)) ∧
  Fails .routerDelFlow routerDelFlowForm .badParam (fun p s => kget s.router.flows (u16 p 0) = none) ∧
  Sets .routerSetRule routerSetRuleForm (fun _ _ => True) (fun p s =>
    withRel (fun x => { x with badRows := x.badRows.filter (· != u16 p 0) }) (withRouter (fun x => { x with
      rules := kset x.rules (u16 p 0) { (kget s.router.rules (u16 p 0)).getD {} with
        valid := bit (u8 p 2) 0, stage := bit (u8 p 2) 1, value := slice p 4 64, mask := slice p 68 64, result := slice p 132 16 } }) s)) ∧
  Sets .routerSetRoute routerSetRouteForm
    (fun p s => s.router.routes = [] ∧ bit (u8 p 0) 1 = false)
    (fun p => withRouter fun x => { x with routes := [{
      v6 := bit (u8 p 0) 0, table := u8 p 1, len := u8 p 2, prefix_ := slice p 8 (if bit (u8 p 0) 0 then 16 else 4)
      kind := u8 p 3, arg := u16 p 4 }] }) ∧
  Sets .routerSetNeigh routerSetNeighForm (fun p _ => bit (u8 p 2) 0 = false) (fun p => withRouter fun x =>
    { x with neigh := kset x.neigh (u16 p 0) {
      valid := false, v6 := bit (u8 p 2) 1, domain := u8 p 3, mac := slice p 4 6, addr := slice p 12 (if bit (u8 p 2) 1 then 16 else 4) } }) ∧
  Sets .routerSetFdb routerSetFdbForm
    (fun p s => bit (u8 p 1) 0 = true ∧ s.router.fdb.length < 8192)
    (fun p => fdbPut { domain := u8 p 0, mac := slice p 2 6, kind := 1, target := u8 p 8, index := u16 p 10 }) ∧
  Sets .routerSetFdb routerSetFdbForm (fun p _ => bit (u8 p 1) 0 = false) (fun p => fdbDel (u8 p 0) (slice p 2 6)) ∧
  Completes .routerFlushFdb routerFlushFdbForm (fun p _ => u8 p 0 = 0xFF ∧ bit (u8 p 1) 0 = false)
    (fun _ s => le 4 (s.router.fdb.filter (·.kind == 2)).length)
    (fun _ => withRouter fun x => { x with fdb := x.fdb.filter fun e => !(e.kind == 2) }) ∧
  Sets .routerSetDomain routerSetDomainForm
    (fun p s => ∀ i < 64, i ≠ u8 p 0 → domainClash (domainOf p) (vget s.router.domain i) = false)
    (fun p s => stationEntries (withRouter (fun x => { x with domain := vset x.domain (u8 p 0) (domainOf p) }) s)) ∧
  Sets .routerSetPortPair routerSetPortPairForm (fun _ _ => True) (fun p s => replacePair (u8 p 0) (withRouter (fun x =>
    { x with pair := vset x.pair (u8 p 0) {
      member := #v[bit (u8 p 1) 0, bit (u8 p 1) 1], primary := u8 p 2, vlan := #v[u16 p 4, u16 p 6] } }) s)) ∧
  Sets .routerSetRingGroup routerSetRingGroupForm (fun _ _ => True) (fun p s =>
    replaceGroup (u8 p 0) (withRouter (fun x => { x with group := vset x.group (u8 p 0) (u64 p 8) }) s)) ∧
  Sets .routerSetHash routerSetHashForm (fun _ _ => True) (fun p => withRouter fun x =>
    { x with
      hashKey := if bit (u8 p 56) 0 then x.hashKey else slice p 0 40
      hashSet := Vector.ofFn fun i => u16 p (40 + 2 * i.val) }) ∧
  Sets .routerSetIndirection routerSetIndirectionForm (fun _ _ => True) (fun p s =>
    (List.range (u16 p 2)).foldl (fun t i => setIndir (u16 p 0 + i) (u16 p (4 + 2 * i)) t) s) ∧
  Sets .routerSetExcLimit routerSetExcLimitForm (fun p _ => u8 p 0 = 0) (fun p s =>
    withRouter (fun x => { x with total := setLimit (u32 p 4) (u16 p 8) s.now x.total }) s) ∧
  Sets .routerSetExcLimit routerSetExcLimitForm (fun p _ => u8 p 0 ≠ 0) (fun p s =>
    withRouter (fun x => { x with reason := vmod x.reason (u8 p 0 - 1) (setLimit (u32 p 4) (u16 p 8) s.now) }) s) ∧
  Sets .ethConfigurePort ethConfigurePortForm
    (fun p s =>
      let x := port (u8 p 0) s
      x.stepping = none ∧ x.mode = u8 p 1 ∧ x.anSpeeds = u8 p 2 ∧ x.fecCfg = u8 p 3)
    (fun p => withPort (u8 p 0) fun y =>
      let z : Port := { y with
        maxFrame := u16 p 4, bcast := bit (u8 p 6) 0, promisc := bit (u8 p 6) 1
        pauseEn := bit (u8 p 6) 2, preemptEn := bit (u8 p 6) 3, preempt := y.preempt && bit (u8 p 6) 3, verifyTime := u8 p 7, mac := slice p 8 6 }
      { z with fallow := z.fallow && mayStep z, upDue := z.upDue && mayStep z }) ∧
  Fails .ethSetFilter ethSetFilterForm .locked (fun p s => ∃ e, kget (port (u8 p 0) s).filter (u8 p 1) = some e ∧ e.rope ≠ 0) ∧
  Sets .ethSetFilter ethSetFilterForm (fun p s => kget (port (u8 p 0) s).filter (u8 p 1) = none ∧ bit (u8 p 2) 0 = true)
    (fun p => withPort (u8 p 0) fun x => { x with filter := kset x.filter (u8 p 1) { addr := slice p 4 6 } }) ∧
  Sets .ethSetFallow ethSetFallowForm (fun p s => mayStep (port (u8 p 0) s) = true ∧ bit (u8 p 1) 0 = true)
    (fun p => withPort (u8 p 0) fun x => { x with fallow := true, keepFallow := true, upDue := false }) ∧
  Fails .ethSetFallow ethSetFallowForm .wrongState (fun p s => mayStep (port (u8 p 0) s) = false)

/-- R392 to R410: what the cipher commands do. -/
def Obligations.CipherCommandsTakeEffect : Prop :=
  (∀ nb pass, Completes (.secOpenSession · · pass) secOpenSessionForm
    (fun _ s => s.sec.session = false ∧ s.sec.trngBad = false ∧ (draw 256 s).1 = nb)
    (fun p s => le 32 nb.toNat ++ slice (Config.aes256 (sessionKek (le 32 nb.toNat) (slice p 0 97) s) (pad 16 [])) 0 8 ++ pad 8 [])
    (fun p s => withSec (fun x => { x with session := true, kek := sessionKek (le 32 nb.toNat) (slice p 0 97) s }) (draw 256 s).2)) ∧
  (∀ nb q s, ∃ label, label.length = 10 ∧
    sessionKek nb q s = Config.hkdfSha384 nb (Config.identityEcdh q) (label ++ be 8 s.glb.serial.toNat ++ q) 32) ∧
  (∀ b, Fails (.secOpenSession · · b) secOpenSessionForm .wrongState (fun _ s => s.sec.session = true)) ∧
  (∀ key, Sets .secLoadKey secLoadKeyForm
    (fun p s =>
      s.life.lcState ≠ 3 ∧ s.sec.session = true ∧ (∀ i < keySlots (u8 p 5), khas s.sec.slots (u16 p 0 + i) = false) ∧ u8 p 3 = 0 ∧
      Config.unwrapKey s.sec.kek (slice p 16 (u8 p 5 + 8)) = some key ∧ key.length = u8 p 5)
    (fun p => storeKey (u16 p 0) { kind := u8 p 2, suite := 0, level := u8 p 4, key := key, txPn := if u64 p 8 = 0 then 1 else u64 p 8 }
      (keySlots (u8 p 5)))) ∧
  Fails .secLoadKey secLoadKeyForm .locked (fun _ s => s.life.lcState = 3) ∧
  Completes .secDeleteKey secDeleteKeyForm
    (fun p s => (∃ x, keySlot (u16 p 0) s = some x ∧ x.part = false) ∧ slotBusy (u16 p 0) (unbindSlot (u16 p 0) s) = false)
    (fun _ _ => [0, 0, 0, 0]) (fun p s => slotErase (u16 p 0) (unbindSlot (u16 p 0) s)) ∧
  Sets .secBindKey secBindKeyForm (fun p s => u16 p 0 = 0xFFFF ∧ u8 p 2 = 0 ∧ khas s.mac.sta (u16 p 4) = true)
    (fun p s => unbindKid 0 (u8 p 3) (u16 p 4) (u8 p 6) s) ∧
  Sets .secBindKey secBindKeyForm
    (fun p s =>
      u16 p 0 ≠ 0xFFFF ∧ bindOk (u16 p 0) (u8 p 2) (u8 p 3) (u16 p 4) (u8 p 6) s = true ∧ u8 p 2 = 0 ∧ khas s.mac.sta (u16 p 4) = true ∧ u8 p 6 = 3)
    (fun p s => bindTx (u16 p 0) 0 (u8 p 3) (u16 p 4) (bindRx (u16 p 0) 0 (u8 p 3) (u16 p 4) (leNat (slice p 8 6)) s)) ∧
  Sets .secSetStream secSetStreamForm (fun p s => khas s.mac.sta (u16 p 0) = true ∧ u8 p 3 = 0xFF) (fun p => withSta (u16 p 0) fun x =>
    { x with stream := ((List.range 8).filter (bit (u8 p 2))).foldl kdel x.stream }) ∧
  Sets .secMacsecPort secMacsecPortForm (fun _ _ => True) (fun p => withSec fun x => { x with port := vmod x.port (u8 p 0) fun y =>
    { y with en := bit (u8 p 1) 0, replay := bit (u8 p 1) 1, window := u32 p 4, sci := slice p 8 8 } }) ∧
  Sets .secMacsecSetSa secMacsecSetSaForm
    (fun p s => kindOf (u16 p 4) s = 4 ∧ (vget s.sec.port (u8 p 0)).en = true ∧ u8 p 1 = 0)
    (fun p => withSec fun x => { x with port := vmod x.port (u8 p 0) fun y => { y with
      rx := kset y.rx (4 * u8 p 3 + u8 p 2) { slot := u16 p 4, pn := u64 p 16, next := u64 p 16, ssci := u32 p 24, salt := slice p 28 12 }
      rxSci := kset y.rxSci (u8 p 3) (slice p 8 8) } }) ∧
  (∀ d pass, Completes (.secSae · · pass 0) secSaeForm
    (fun p s =>
      u8 p 0 = 0 ∧ kindOf (u16 p 4) s = 8 ∧ ((keySlot (u16 p 4) s).map (·.key.length)) = some (if u8 p 2 = 19 then 64 else 96) ∧
      s.sec.session = true ∧ s.sec.trngBad = false ∧ partFenced 0x1E s = false ∧ (draw 512 s).1 = d)
    (fun p s => pad (saeBytes (u8 p 2)) (Config.saeCommit (match keySlot (u16 p 4) s with | some x => x.key | none => []) (slice p 8 6)
      (slice p 14 6) (le 64 d.toNat)))
    (fun p s => withSec (fun x => { x with sae := kset x.sae (u8 p 1) {
      group := u8 p 2, own := slice p 8 6, peer := slice p 14 6, pt := u16 p 4, secret := le 64 d.toNat
      commit := pad (saeBytes (u8 p 2)) (Config.saeCommit (match keySlot (u16 p 4) s with | some x => x.key | none => []) (slice p 8 6)
        (slice p 14 6) (le 64 d.toNat)), usedAt := s.now } }) (draw 512 s).2)) ∧
  Sets (.sec4way · · 0) sec4wayForm
    (fun p s =>
      kindOf (u16 p 2) s = 6 ∧ s.life.lcState ≠ 3 ∧ s.sec.session = true ∧ khas s.sec.slots (u16 p 4) = false ∧
      khas s.sec.slots (u16 p 6) = false ∧ partFenced 0x1E s = false)
    (fun p s =>
      let keys := Config.ptkKeys (u8 p 0) (match keySlot (u16 p 2) s with | some x => x.key | none => []) (slice p 8 76)
      secCount 15 1 (storeKey (u16 p 6) { kind := 1, suite := u8 p 1, level := u8 p 84, key := pad (suiteBytes (u8 p 1)) keys.2 } 1
        (storeKey (u16 p 4) { kind := 7, level := u8 p 84, key := pad 32 keys.1 } 1 s))) ∧
  Completes (.secEapol · · 0) secEapolForm (fun p s => kindOf (u16 p 2) s = 7 ∧ u8 p 6 = 0 ∧ u8 p 0 = 1 ∧ partFenced 0x1E s = false)
    (fun p s =>
      let body := slice p 8 (u16 p 4)
      pad 16 (Config.eapolMic (u8 p 1) (match keySlot (u16 p 2) s with | some x => x.key | none => [])
        (body.take 81 ++ (List.replicate 16 0).take (body.length - 81) ++ body.drop 97)))
    (fun _ s => s)

/-- R138, R144, R410, R420 to R422, R451, R77 to R80, R471, R42: what the DRAM, wake, cairn and system commands write. -/
def Obligations.SystemCommandsTakeEffect : Prop :=
  Stays .dramConfigure dramConfigureForm
    (fun p s => s.dram.ready = false ∧ s.dram.job = none ∧ chanTaken p + 1024 ≤ cfgGib p * 1024)
    (fun h p => withDram fun d => { d with job := some h, cfg := p, chan := d.chan.map fun x => { x with state := 1 } }) ∧
  Sets .dramSetPolicy dramSetPolicyForm (fun p s => s.dram.ready = true ∧ chanPresent (u8 p 0) s = true ∧ u8 p 1 = 0)
    (fun p => withChan (u8 p 0) fun x =>
      { x with readFirst := false, draining := false, ageLimit := u16 p 2, wqHigh := u8 p 4, wqLow := u8 p 5 }) ∧
  Fails .dramSetPolicy dramSetPolicyForm .wrongState (fun _ s => s.dram.ready = false) ∧
  Completes .dramSetRate dramSetRateForm
    (fun p s =>
      s.dram.ready = true ∧ (chan 0 s).state ≠ 3 ∧ (chan 1 s).state ≠ 3 ∧ s.dram.rateReqs = [] ∧ u8 p 0 = 0 ∧ (chan 0 s).rate = u8 s.dram.cfg 3)
    (fun _ s => [byte (u8 s.dram.cfg 3)]) (fun _ s => s) ∧
  Stays .dramSetRate dramSetRateForm
    (fun p s =>
      s.dram.ready = true ∧ (chan 0 s).state ≠ 3 ∧ (chan 1 s).state ≠ 3 ∧ u8 p 0 = 1 ∧ u8 s.dram.cfg 4 ≠ 0xFF ∧ (chan 0 s).rate ≠ u8 s.dram.cfg 4)
    (fun h _ => withDram fun d => { d with rateReqs := d.rateReqs ++ [(h, 1)] }) ∧
  Stays .dramRetrain dramRetrainForm
    (fun p s => s.dram.ready = true ∧ chanPresent (u8 p 0) s = true ∧ (chan (u8 p 0) s).state = 2 ∧ (chan (u8 p 0) s).due = none)
    (fun h p s => withChan (u8 p 0) (fun x => { x with
      trainReqs := x.trainReqs ++ [{ handle := h, force := bit (u8 p 1) 0, full := bit (u8 p 1) 1 }], due := some s.now }) s) ∧
  Completes .dramGetErrors dramGetErrorsForm (fun p s => s.dram.ready = true ∧ chanPresent (u8 p 0) s = true)
    (fun p s => (chan (u8 p 0) s).errors.flatten) (fun _ s => s) ∧
  Completes .dramGetCounters dramGetCountersForm
    (fun p s => s.dram.ready = true ∧ chanPresent (u8 p 0) s = true ∧ (chan (u8 p 0) s).hot = false)
    (fun p s => ctrBytes (chan (u8 p 0) s).ctr) (fun _ s => s) ∧
  (∀ d d0, Completes (.cairnRestore · · d d0) cairnRestoreForm
    (fun p s => cairnValid p s = true ∧ s.rel.restored = false ∧ s.life.radioLeftOff = false)
    (fun p s => le 2 (10 * guardFor (u64 p 32 + s.rel.bootStress / 10 ^ 6)) ++ [0, 0])
    (fun p s => canaryReplan s.power.canaryAsk (replanMargins d d0 (cairnTake p s)))) ∧
  (∀ d d0, Fails (.cairnRestore · · d d0) cairnRestoreForm .wrongState
    (fun p s => cairnValid p s = true ∧ (s.rel.restored = true ∨ s.life.radioLeftOff = true))) ∧
  Completes .cairnExport cairnExportForm (fun _ _ => True) (fun _ s => cairnRecord (s.rel.exportSeq + 1) s)
    (fun _ => withRel fun x => { x with exportSeq := x.exportSeq + 1, ctr := vadd x.ctr 9 1 }) ∧
  Sets .sysSetMode sysSetModeForm (fun p s => s.dram.ready = true ∧ s.life.mode = .test ∧ u8 p 0 = 1)
    (fun _ s => withLife (fun l => { l with mode := .service }) (withRouter (fun x => { x with frags := [] }) s)) ∧
  Sets .sysSetMode sysSetModeForm (fun p s => s.dram.ready = true ∧ s.life.mode = .startUp ∧ u8 p 0 = 2)
    (fun _ s => initialAll (withLife (fun l => { l with mode := .test }) (withRouter (fun x => { x with frags := [] }) s))) ∧
  Fails .sysSetMode sysSetModeForm .wrongState (fun p s => s.life.mode = .startUp ∧ (u8 p 0 = 0 ∨ u8 p 0 = 3)) ∧
  (∀ m buf r s, Ready powerEnterBivouacForm m buf r s →
    let p := cmdParams powerEnterBivouacForm r buf
    let u := begun r s
    (bit (u8 p 0) 0 = true → u.wur.table.toList.any (fun e => bit e.ctrl 0) = true) → (bit (u8 p 0) 1 = true → u.rtc.alarmEn = true) →
    exec (.powerEnterBivouac m buf) s = .next (finish r.handle .ok [] (enterBivouac m r.handle (u8 p 0) (u8 p 1) u))) ∧
  Fails .powerEnterBivouac powerEnterBivouacForm .wrongState (fun p s => bit (u8 p 0) 1 = true ∧ s.rtc.alarmEn = false) ∧
  Sets .wurSetRx wurSetRxForm (fun p s => u8 p 0 = 2 ∧ s.rtc.oscStopped = false) (fun p s => withWur (fun w =>
    { w with mode := 2, channel := u16 p 2, period := u16 p 4, on := u16 p 6, modeAt := s.now, window := true }) s) ∧
  Sets .wurSetRx wurSetRxForm (fun p s => u8 p 0 = 2 ∧ s.rtc.oscStopped = true) (fun p s => withWur (fun w =>
    { w with mode := 3, channel := u16 p 2, period := u16 p 4, on := u16 p 6, modeAt := s.now, window := false }) s) ∧
  Sets .wurSetMatch wurSetMatchForm (fun _ _ => True) (fun p s => withWur (fun w => { w with
    olds := (w.olds.filter fun q => s.now < q.1 + 20000000) ++ [(s.now, w.table)]
    table := Vector.ofFn fun i =>
      if u8 p 0 ≤ i.val ∧ i.val < u8 p 0 + u8 p 1 then wurEntryOf (slice p (16 + 16 * (i.val - u8 p 0)) 16) else w.table[i] }) s) ∧
  (∀ m buf r s, Ready wurSendForm m buf r s →
    let p := cmdParams wurSendForm r buf
    let u := begun r s
    (vget u.fe 0).state ≠ .off → u.life.mode ≠ .startUp → bssEnabled (u8 p 0) u = true → khas u.wur.tx (u8 p 0) = false →
    exec (.wurSend m buf) s = .next (withWur (fun w => { w with tx := kset w.tx (u8 p 0) {
      handle := r.handle, rate := u8 p 1, type := u8 p 2, id := u16 p 4, tdc := u16 p 6, body := slice p 16 (u8 p 3)
      left := u16 p 8 - 1, t0 := r.at_, interval := u16 p 10, waiting := true } }) u)) ∧
  (∀ m buf r s, Ready abortCommandForm m buf r s →
    let h := BitVec.ofNat 32 (u32 (cmdParams abortCommandForm r buf) 0)
    let u := begun r s
    (isOutstanding m h u = false → exec (.abortCommand m buf) s = .next (finishAhead r .badParam [] u)) ∧
    (isOutstanding m h u = true → notStarted h u = true → jobQueued h u = false →
      exec (.abortCommand m buf) s = .next (finishAhead r .ok [0] (finish h .aborted [] (unqueueJob h u)))) ∧
    (isOutstanding m h u = true → notStarted h u = false → jobQueued h u = false →
      exec (.abortCommand m buf) s = .next (finishAhead r .ok [1] u)))

/-! The real-time clock. -/

/-- R425, R427, R429, R431, R433, R436: every event of the RTC takes effect, and changes nothing but the battery domain (OSC_STOP also the
wake receiver, R137). The tick is one without an alarm match. -/
def Obligations.RtcEventsTakeEffect : Prop :=
  (∀ n : BitVec 15, Does (.rtcTime0Read n) (fun _ => True) (fun s =>
    withRtc (fun r => { r with presc := n.toNat, snap := some (time1Of s.rtc.time, time2Of s.rtc.time n.toNat) }) s)) ∧
  Does .rtcTime2Read (fun _ => True) (withRtc fun r => { r with snap := none }) ∧
  AlwaysDoes .rtcSnapshotExpiry (fun _ => True) (withRtc fun r => { r with snap := none }) ∧
  (∀ v, Does (.rtcCommit v) (fun s => s.rtc.locked = false ∧ timeValid (heldTime s.rtc (bits v.toNat 0 6)) = true) (fun s =>
    withRtc (fun r => { r with commit := some (heldTime s.rtc (bits v.toNat 0 6)), armed := false }) s)) ∧
  (∀ t, AlwaysDoes .rtcCommitLoad (fun s => s.rtc.commit = some t)
    (withRtc fun r => { r with time := t, presc := 0, commit := none, oscStopped := false, sqwNew := false })) ∧
  (∀ t, Does (.rtcUnlock 0x5EED#32) (fun s => s.rtc.vddGoodAt = some t ∧ t + 5000000 ≤ s.now) (withRtc fun r => { r with armed := true })) ∧
  AlwaysDoes .rtcLock (fun _ => True) (withRtc fun r => { r with locked := true, armed := false, vddGoodAt := none }) ∧
  AlwaysDoes .vddIoGood (fun _ => True) (fun s => withRtc (fun r => { r with vddGoodAt := some s.now, armed := false }) s) ∧
  AlwaysDoes .batteryPowerUp (fun _ => True) (withRtc fun r => { State.reset.rtc with vddGoodAt := r.vddGoodAt }) ∧
  AlwaysDoes .rtcSecondTick (fun s => s.rtc.oscRunning = true ∧ s.rtc.alarmEn = false) (fun s =>
    withRtc (fun r => { r with
      time := nextSecond s.rtc.time, presc := 0, sqwNew := false
      yearWrap := s.rtc.yearWrap || (s.rtc.time.year == 399 && (nextSecond s.rtc.time).year == 0) }) s) ∧
  AlwaysDoes .rtcSecondTick (fun s => s.rtc.oscRunning = false) id ∧
  (∀ n : BitVec 15, AlwaysDoes (.oscStop n) (fun s => s.wur.mode ≠ 2)
    (withRtc fun r => { r with oscRunning := false, oscStopped := true, presc := n.toNat })) ∧
  (∀ n : BitVec 15, AlwaysDoes (.oscStop n) (fun s => s.wur.mode = 2) (fun s =>
    withWur (fun w => { w with mode := 3, modeAt := s.now, window := false })
      (withRtc (fun r => { r with oscRunning := false, oscStopped := true, presc := n.toNat }) s))) ∧
  AlwaysDoes .oscResume (fun _ => True) (withRtc fun r => { r with oscRunning := true }) ∧
  -- The square wave (R437): low while locked; each wave starts high at a second tick; a new one waits for its rising edge.
  (∀ r p q x, r.locked = true ∨ r.sqwSel = 0 → rtcSqw r p q x = false) ∧
  (∀ r p q x, r.locked = false → 1 ≤ r.sqwSel → r.sqwSel ≤ 3 → r.sqwNew = false →
    let n := [32768, 512, 32].getD (r.sqwSel - 1) 1
    rtcSqw r p q x = decide (p % n < n / 2)) ∧
  (∀ r q x, r.sqwNew = true → rtcSqw r q q x = false)

/-- R426: the unlock sequence, what cancels its first write, what comes too early, and that no reset locks or unlocks. Before
VDD_IO has become good is too early. -/
def Obligations.RtcUnlockSequence : Prop :=
  (∀ s t, live s = true → s.rtc.vddGoodAt = some t → t + 5000000 ≤ s.now →
    exec (.rtcUnlock 0x5EED#32) s = .next (withRtc (fun r => { r with armed := true }) s) ∧
    exec (.rtcUnlock 0xF1E1#32) s = .next (withRtc (fun r => { r with armed := false, locked := s.rtc.locked && !s.rtc.armed }) s) ∧
    ∀ v, v ≠ 0x5EED#32 → v ≠ 0xF1E1#32 → exec (.rtcUnlock v) s = .next (withRtc (fun r => { r with armed := false }) s)) ∧
  (∀ s v, live s = true → (∀ t, s.rtc.vddGoodAt = some t → s.now < t + 5000000) → exec (.rtcUnlock v) s = .next s) ∧
  (∀ s v (g : Reg), live s = true → ((∃ w, g = .rtc w ∧ w ≠ 11) ∨ ∃ n, g = .backup n) → (writeReg g v s).rtc.armed = false) ∧
  (∀ i s, i ∈ [Instr.perstAssert, .hotReset, .flr, .wdtAutoReset, .thermalTrip, .wipeEnd] ∨ (∃ v, i = .sysReset v) →
    Gives i s fun t => t.rtc = s.rtc)

/-- R434: the commit is refused exactly where a field is out of its range; a refused one leaves the time, the prescaler and OSC_STOPPED and
sets DATE_INVALID, which no commit clears. -/
def Obligations.RtcCommitRefusal : Prop :=
  (∀ s v, live s = true → s.rtc.locked = false →
    let t := heldTime s.rtc (bits v.toNat 0 6)
    (t.second > 59 ∨ t.minute > 59 ∨ t.hour > 23 ∨ t.month = 0 ∨ t.month > 12 ∨ t.year > 399 ∨ t.day = 0 ∨ t.day > monthDays t.year t.month) →
      exec (.rtcCommit v) s = .next (withRtc (fun r => { r with dateInvalid := true, armed := false }) s)) ∧
  (∀ s v, live s = true → s.rtc.locked = false →
    let t := heldTime s.rtc (bits v.toNat 0 6)
    ¬(t.second > 59 ∨ t.minute > 59 ∨ t.hour > 23 ∨ t.month = 0 ∨ t.month > 12 ∨ t.year > 399 ∨ t.day = 0 ∨ t.day > monthDays t.year t.month) →
      exec (.rtcCommit v) s = .next (withRtc (fun r => { r with commit := some t, armed := false }) s)) ∧
  (∀ s v, s.rtc.dateInvalid = true → Gives (.rtcCommit v) s (fun t => t.rtc.dateInvalid = true) ∧
    Gives .rtcCommitLoad s fun t => t.rtc.dateInvalid = true) ∧
  (∀ s, s.rtc.locked = false → (writeReg (.rtc 9) 2 s).rtc.dateInvalid = false)

/-- R435, R433: a write of a holding register while a commit waits changes neither the commit nor the running time. -/
def Obligations.RtcHoldingWritesWait : Prop :=
  ∀ s v w, live s = true → w = 4 ∨ w = 5 →
    (writeReg (.rtc w) v s).rtc.commit = s.rtc.commit ∧ (writeReg (.rtc w) v s).rtc.time = s.rtc.time ∧
    ∀ c, s.rtc.commit = some c → ∃ t, exec .rtcCommitLoad (writeReg (.rtc w) v s) = .next t ∧ t.rtc.time = c

/-- R428 to R430: from a time of the calendar a tick leads to a time of the calendar, one second later; after the last second of the
146,097 days it leads to the first and sets YEAR_WRAP. -/
def Obligations.RtcTickIsOneSecond : Prop :=
  (∀ s, s.rtc.oscRunning = true → timeValid s.rtc.time = true → Gives .rtcSecondTick s fun t =>
    timeValid t.rtc.time = true ∧
      secondsOf t.rtc.time = (if secondsOf s.rtc.time + 1 = 86400 * 146097 then 0 else secondsOf s.rtc.time + 1) ∧
      t.rtc.yearWrap = (s.rtc.yearWrap || decide (secondsOf s.rtc.time + 1 = 86400 * 146097))) ∧
  (∀ s, s.rtc.oscRunning = true → s.rtc.time = { year := 399, month := 12, day := 31, hour := 23, minute := 59, second := 59 } →
    Gives .rtcSecondTick s fun t =>
      t.rtc.time = { year := 0, month := 1, day := 1, hour := 0, minute := 0, second := 0 } ∧ t.rtc.yearWrap = true) ∧
  (∀ t, timeValid t = true → secondsOf t < 86400 * 146097) ∧ 146097 % 7 = 0 ∧
  weekday { year := 399, month := 12, day := 31 } = 5 ∧ weekday { year := 0, month := 1, day := 1 } = 6

/-- R438: a tick sets ALARM exactly where ALARM_EN is set, the new second is 0, and minute, hour and day each have their ANY bit set or equal
the new field; outside bivouac the running device then raises RTC_ALARM with the new TIME0 and TIME1. -/
def Obligations.RtcAlarmMatch : Prop :=
  (∀ s, s.rtc.oscRunning = true → s.rtc.alarmHit = false → Gives .rtcSecondTick s fun t =>
    t.rtc.alarmHit = true ↔
      s.rtc.alarmEn = true ∧ t.rtc.time.second = 0 ∧
      (s.rtc.alarm.getLsbD 7 = true ∨ (s.rtc.alarm.extractLsb' 0 6).toNat = t.rtc.time.minute) ∧
      (s.rtc.alarm.getLsbD 15 = true ∨ (s.rtc.alarm.extractLsb' 8 5).toNat = t.rtc.time.hour) ∧
      (s.rtc.alarm.getLsbD 23 = true ∨ (s.rtc.alarm.extractLsb' 16 5).toNat = t.rtc.time.day)) ∧
  (∀ s t, s.rtc.oscRunning = true → live s = true → s.life.armed = false →
    let u := withRtc (fun r => { r with
      time := t, presc := 0, sqwNew := false, yearWrap := s.rtc.yearWrap || (s.rtc.time.year == 399 && t.year == 0), alarmHit := true }) s
    nextSecond s.rtc.time = t → alarmMatch s.rtc t = true →
      exec .rtcSecondTick s = .next (raise .rtcAlarm 0 (le 4 (time0Of t).toNat ++ le 4 (time1Of t).toNat) u)) ∧
  (∀ s v, Gives (.rtcCommit v) s fun t => t.rtc.alarmHit = s.rtc.alarmHit) ∧
  (∀ s, Gives .rtcCommitLoad s fun t => t.rtc.alarmHit = s.rtc.alarmHit)

/-! Resets, the life cycle and the supplies. -/

/-- R36, R64 to R70: each reset wipes, adds its cause to GLB_RESET_CAUSE (a power-on leaves POWER_ON alone), and keeps what Table 3.3 keeps. -/
def Obligations.ResetsWipe : Prop :=
  (∀ s, s.life.mainUp = true → s.life.aonUp = true → s.life.perstN = true →
    Gives .perstAssert s (fun t => Wiped s t ∧ t.glb.resetCause = s.glb.resetCause ||| causePerst ∧ t.life.perstN = false) ∧
    (s.life.refDrop = false → Gives .hotReset s fun t => Wiped s t ∧ t.glb.resetCause = s.glb.resetCause ||| causeHot) ∧
    (s.life.refDrop = true →
      Gives .hotReset s fun t => Wiped s t ∧ t.glb.resetCause = s.glb.resetCause ||| causeHot ||| causeRefLoss) ∧
    Gives .flr s (fun t => Wiped s t ∧ t.glb.resetCause = s.glb.resetCause ||| causeFlr) ∧
    (s.life.thermalHold = false → Gives .thermalTrip s fun t =>
      Wiped s t ∧ t.glb.resetCause = s.glb.resetCause ||| causeThermal ∧ t.life.thermalHold = true ∧ t.host.msixTbl = s.host.msixTbl)) ∧
  (∀ s, Gives .powerOnReset s fun t => Wiped s t ∧ t.glb.resetCause = causePowerOn ∧ t.life.mainUp = true ∧ t.life.aonUp = true) ∧
  (∀ s v, live s = true → v.toNat / 2 ^ 16 = 0x7340 → v.getLsbD 1 = true → Gives (.sysReset v) s fun t =>
    Wiped s t ∧ t.glb.resetCause = s.glb.resetCause ||| causeHostCmd ∧ t.host.msixTbl = s.host.msixTbl ∧ t.host.msixEn = s.host.msixEn) ∧
  (∀ s, live s = true → s.life.fwState = .fault → s.life.lcWdt.getLsbD 8 = true →
    let delay := max 1 (bits s.life.lcWdt.toNat 0 8) * 50000000
    (s.life.faultAt + delay ≤ s.now → Gives .wdtAutoReset s fun t =>
      Wiped s t ∧ t.glb.resetCause = s.glb.resetCause ||| causeWatchdog ∧ t.host.msixTbl = s.host.msixTbl) ∧
    (s.now < s.life.faultAt + delay → exec .wdtAutoReset s = .next s)) ∧
  (∀ s n, live s = true → s.life.fuseTarget = some n → Gives .fuseProgramDone s fun t =>
    t.glb.resetCause = s.glb.resetCause ||| causeLifeCycle ∧ t.life.lcState = n ∧ t.life.wipeBusy = true ∧ t.rtc = s.rtc) ∧
  (∀ s, s.life.mainUp = true → s.life.aonUp = true → exec .perstRelease s = .next (withLife (fun l => { l with perstN := true }) s)) ∧
  (∀ s, s.life.wipeBusy = true → s.life.perstN = true → s.life.mainUp = true → s.life.aonUp = true → Gives .wipeEnd s fun t =>
    live t = true ∧ t.life.fwState = s.life.fwState ∧ t.life.bivouacN = true ∧ t.life.wakeOut = false ∧ t.rtc = s.rtc ∧ t.sec = s.sec)

/-- R64, R69, R72, R75, R80, R82, R19, Tables 3.5, 3.8, 3.11: the life cycle, the load of Builmin, thermal and supply events. -/
def Obligations.LifeEventsTakeEffect : Prop :=
  AlwaysDoes .thermalHoldClear (fun _ => True) (fun s =>
    withGlb (fun g => { g with thermalWarn := false }) (withLife (fun l => { l with thermalHold := false }) s)) ∧
  Does (.thermalWarn true) (fun s => s.glb.thermalWarn = false) (fun s => raise .thermalWarn 0 [] (withGlb (fun g => { g with thermalWarn := true }) s)) ∧
  Does (.thermalWarn false) (fun _ => True) (withGlb fun g => { g with thermalWarn := false }) ∧
  Does .fwlStart (fun s => s.life.thermalHold = true ∨ windowOpen s = false) (withLife fun l => { l with fwlResult := 8 }) ∧
  Does .fwlStart (fun s => s.life.thermalHold = false ∧ windowOpen s = true ∧ headerCheck s (memRead s.mpRam 0 512) = 0)
    (withLife fun l => { l with fwState := .verifying }) ∧
  Does .fwlStart (fun s => s.life.thermalHold = false ∧ windowOpen s = true ∧ headerCheck s (memRead s.mpRam 0 512) ≠ 0)
    (fun s => withLife (fun l => { l with fwState := .rejected, fwlResult := headerCheck s (memRead s.mpRam 0 512) }) s) ∧
  (∀ ok, Does .imageVerified
    (fun s => s.life.fwState = .verifying ∧ Config.ecdsaVerify (slice (memRead s.mpRam 0 512) 64 97) (slice (memRead s.mpRam 0 512) 176 96)
      (slice (memRead s.mpRam 0 512) 0 176 ++ memRead s.mpRam 512 (u32 (memRead s.mpRam 0 512) 8)) = ok)
    (fun s => if ok then withLife (fun l => { l with
        fwState := .starting, fwlResult := 1, build := BitVec.ofNat 32 (u32 (memRead s.mpRam 0 512) 16) }) s
      else withLife (fun l => { l with fwState := .rejected, fwlResult := 7 }) s)) ∧
  Does .fwReady (fun s => s.life.fwState = .starting) (fun s =>
    let u := raise .fwReady 0 [] (withLife (fun l => { l with fwState := .running, runningAt := s.now }) s)
    canaryReplan (draw 10 u).1.toNat (draw 10 u).2) ∧
  (∀ v : Word, Does (.applyToken v) (fun s => v.toNat / 2 ^ 16 = 0x7340 ∧ v.getLsbD 0 = true ∧ s.life.tokenBusy = true)
    (withLife fun l => { l with lcResult := 8 })) ∧
  (∀ v : Word, Does (.applyToken v)
    (fun s => v.toNat / 2 ^ 16 = 0x7340 ∧ v.getLsbD 0 = true ∧ s.life.tokenBusy = false ∧ tokenCheck s (memRead s.bar tokenBase 512) ≠ 0)
    (fun s => withLife (fun l => { l with lcResult := tokenCheck s (memRead s.bar tokenBase 512) }) s)) ∧
  (∀ v : Word, ∀ s, live s = true → v.toNat / 2 ^ 16 = 0x7340 → v.getLsbD 0 = true → s.life.tokenBusy = false →
    tokenCheck s (memRead s.bar tokenBase 512) = 0 → Gives (.applyToken v) s fun t =>
      t.life.tokenBusy = true ∧ t.life.fuseTarget = some (u8 (memRead s.bar tokenBase 512) 4) ∧ t.rtc.backup = Vector.replicate 64 0 ∧
      t.rtc.time = s.rtc.time) ∧
  (∀ v : Word, Does (.applyToken v) (fun _ => v.toNat / 2 ^ 16 ≠ 0x7340) id) ∧
  Does .bivouacNAssert (fun s => s.life.bivPrep = true) (fun s =>
    withRtc (fun r => { r with wakeWur := r.wakeWur || bit s.life.wakePend 0, wakeAlarm := r.wakeAlarm || bit s.life.wakePend 1 })
      (withLife (fun l => { l with
        bivPrep := false, bivouacN := false, wakeOut := l.wakeOut || l.wakePend != 0, wakeBy := Nat.lor l.wakeBy l.wakePend, wakePend := 0 }) s)) ∧
  (∀ s, Gives (.supplyRemoval true) s fun t =>
    t.life.mainUp = false ∧ t.life.aonUp = false ∧ t.life.wakeOut = false ∧ t.wur = State.reset.wur ∧ t.sec = State.reset.sec ∧
      t.dram = State.reset.dram ∧ t.rtc = { s.rtc with locked := true, armed := false, vddGoodAt := none }) ∧
  (∀ s, s.life.aonUp = true → Gives (.supplyRemoval false) s fun t =>
    t.life.mainUp = false ∧ t.life.aonUp = true ∧ t.life.armed = s.life.armed ∧ t.life.bivSources = s.life.bivSources ∧
      t.life.thermalHold = s.life.thermalHold ∧ t.wur.table = s.wur.table ∧ t.sec = State.reset.sec ∧ t.dram = State.reset.dram ∧
      t.rtc = { s.rtc with locked := true, armed := false, vddGoodAt := none }) ∧
  (∀ s, live s = true → s.glb.refLost = false → Gives .refLost s fun t =>
    t.glb.refLost = true ∧ t.life.refDrop = true ∧ t.host.link = .recovery ∧ t.rtc = s.rtc) ∧
  AlwaysDoes .refReturn (fun s => s.glb.refLost = true ∧ s.host.deferred = [])
    (fun s => withGlb (fun g => { g with refLost := false }) (withHost (fun h => { h with link := .l0 4 .x8 }) s))

/-! The host interface. -/

/-- R38 to R40, Tables 2.10, 2.11: a doorbell is refused for the first of NOT_READY, BAD_CQ and FULL that holds, with the refusal handle; one
that is taken counts on from 1 (0x1FFF_FFFF is followed by 1), answers the handle and queues what MBX_CMD holds. -/
def Obligations.DoorbellTakesOrRefuses : Prop :=
  ∀ (m : Fin 8) s, live s = true →
    let cq := (memByte s.bar (0x10000 + m * 0x1000 + 5)).toNat
    let refused (c : Nat) := exec (.mbxDoorbell m) s = .next (withMbx m (fun b => { b with refuse := c, status := BitVec.ofNat 32 (m * 2 ^ 29) }) s)
    (s.life.fwState ≠ .running → refused 2) ∧
    (s.life.fwState = .running → 8 ≤ cq ∨ (vget s.host.cq cq).en = false → refused 3) ∧
    (s.life.fwState = .running → cq < 8 → (vget s.host.cq cq).en = true → 256 ≤ outstanding m s → refused 1) ∧
    (s.life.fwState = .running → cq < 8 → (vget s.host.cq cq).en = true → outstanding m s < 256 →
      let n := if (vget s.host.mbx m).count + 1 < 2 ^ 29 then (vget s.host.mbx m).count + 1 else 1
      exec (.mbxDoorbell m) s = .next (withMbx m (fun b => { b with
        count := n, refuse := 0, status := BitVec.ofNat 32 (m * 2 ^ 29 + n)
        cmds := b.cmds ++ [{ handle := BitVec.ofNat 32 (m * 2 ^ 29 + n), hdr := memRead s.bar (0x10000 + m * 0x1000) 16,
                             params := memRead s.bar (0x10000 + m * 0x1000 + 16) 240, at_ := s.now, phase := .queued }] }) s))

/-- R5, R44, R46 to R50, R52, R470: the queues, the event ring and MSI-X. -/
def Obligations.HostEventsTakeEffect : Prop :=
  (∀ q : Fin 8, Does (.cqEnable q)
    (fun s => s.life.bivDone = none ∧
      (vget s.host.cq q).en = false ∧ 4 ≤ (vget s.host.cq q).sizeLog ∧ (vget s.host.cq q).sizeLog ≤ 12 ∧ (vget s.host.cq q).waiting = [])
    (withCq q fun w => { w with en := true, tail := 0 })) ∧
  (∀ q : Fin 8, Does (.cqEnable q) (fun s => s.life.bivDone = none ∧ ((vget s.host.cq q).sizeLog < 4 ∨ 12 < (vget s.host.cq q).sizeLog)) id) ∧
  (∀ q : Fin 8, Does (.cqDisable q) (fun _ => True) (withCq q fun w => { w with en := false })) ∧
  (∀ (q : Fin 8) h, Does (.cqHeadWrite q h) (fun s => s.life.bivDone = none ∧ (vget s.host.cq q).full = false) (withCq q fun w => { w with head := h })) ∧
  (∀ (q : Fin 8) h, Does (.cqHeadWrite q h) (fun s => s.life.bivDone = none ∧ (vget s.host.cq q).full = true)
    (fun s => drainCq q (withCq q (fun w => { w with head := h }) s))) ∧
  (∀ (q : Fin 8) c, Does (.completionWrite q)
    (fun s => s.life.bivDone = none ∧ cqRoom (vget s.host.cq q) = true ∧ (vget s.host.cq q).waiting.find? (cqTurn s) = some c)
    (fun s => withCq q (fun w => { w with waiting := w.waiting.erase c, full := w.full && !(w.waiting.erase c).isEmpty }) (writeCompletion q c s))) ∧
  (∀ q : Fin 8, Does (.completionWrite q)
    (fun s => s.life.bivDone = none ∧
      (vget s.host.cq q).en = true ∧ cqRoom (vget s.host.cq q) = false ∧ (vget s.host.cq q).full = false ∧ (vget s.host.cq q).waiting ≠ [])
    (fun s => raise .cqFull q [] (withCq q (fun w => { w with full := true }) s))) ∧
  -- POWER_ENTER_BIVOUAC's own completion, the last, lets its steps go on.
  (∀ q : Fin 8, Does (.completionWrite q) (fun s => bivouacDone (completionWrite q s) = true) (fun s =>
    let t := completionWrite q s
    withLife (fun l => { l with bivDone := none, bivPrep := true, armed := true, wakePend := 0, wakeBy := 0 })
      (bivouacWur t.life.bivSources t.life.bivRxMode (linkDown 1 2 (linkDown 0 2 (radiosOff t)))))) ∧
  (∀ n (i : BitVec 16) d, n ≠ .eventsLost → Does (.eventRaise n i d) (fun s => evSev n < s.host.evt.minSev)
    (withEvt fun w => { w with filtered := sat32 w.filtered })) ∧
  (∀ n (i : BitVec 16) d, Does (.eventRaise n i d)
    (fun s => s.host.evt.minSev ≤ evSev n ∧ s.host.evt.en = true ∧ s.host.evt.held = [] ∧ (s.host.evt.tail - s.host.evt.head).toNat < 2 ^ s.host.evt.sizeLog)
    (fun s => writeHeld (.ev (mkEvent n i.toNat d s)) s)) ∧
  (∀ n (i : BitVec 16) d, Does (.eventRaise n i d)
    (fun s => s.host.evt.minSev ≤ evSev n ∧ s.host.evt.en = false ∧ heldEvents s.host.evt.held < 64)
    (fun s => withEvt (fun w => { w with held := w.held ++ [.ev (mkEvent n i.toNat d s)] }) s)) ∧
  (∀ n (i : BitVec 16) d, Does (.eventRaise n i d)
    (fun s => s.host.evt.minSev ≤ evSev n ∧ s.host.evt.en = false ∧ 64 ≤ heldEvents s.host.evt.held)
    (withEvt fun w => { w with lost := sat32 w.lost, overflow := true, held := addLost w.held })) ∧
  (∀ h r, Does .eventWrite
    (fun s => s.host.evt.held = h :: r ∧ heldFiltered h s = false ∧ s.host.evt.en = true ∧
      (s.host.evt.tail - s.host.evt.head).toNat < 2 ^ s.host.evt.sizeLog)
    (fun s => let p := flushList r (writeHeld h s); withEvt (fun w => { w with held := p.1 }) p.2)) ∧
  (∀ h, Does (.evtHeadWrite h) (fun s => s.host.evt.held = []) (withEvt fun w => { w with head := h, held := [] })) ∧
  Does .evtEnable (fun s => s.host.evt.en = false ∧ 4 ≤ s.host.evt.sizeLog ∧ s.host.evt.sizeLog ≤ 12 ∧ s.host.evt.held = [])
    (withEvt fun w => { w with en := true, tail := 0, held := [] }) ∧
  Does .evtEnable (fun s => s.host.evt.sizeLog < 4 ∨ 12 < s.host.evt.sizeLog) id ∧
  Does .evtDisable (fun _ => True) (withEvt fun w => { w with en := false }) ∧
  Does .evtLostRead (fun _ => True) (withEvt fun w => { w with lost := 0 }) ∧
  Does .evtFilteredRead (fun _ => True) (withEvt fun w => { w with filtered := 0 }) ∧
  (∀ s, live s = true → s.life.fwState = .running ∨ s.life.fwState = .starting → Gives .watchdogExpiry s fun t =>
    t.life.fwState = .fault ∧ (∀ m < 8, (vget t.host.mbx m).cmds = []) ∧
      ∀ q < 8, ∀ c ∈ (vget t.host.cq q).waiting, c.status = .hwFault ∧ c.data = []) ∧
  (∀ c : Fin 137, Does (.coalesceTimeout c) (fun s => vget s.host.unsig c ≠ 0 ∧ routeCount s c ≠ 0)
    (fun s => sendMsix (routeVector s c) (withHost (fun h => { h with unsig := vset h.unsig c 0 }) s))) ∧
  Does (.msixDeferredSend .recovery) (fun _ => True) (withHost fun h => { h with link := .recovery }) ∧
  (∀ g w, Does (.msixDeferredSend (.l0 g w)) (fun s => s.glb.refLost = false ∧ s.host.deferred = [])
    (withHost fun h => { h with link := .l0 g w })) ∧
  (∀ g w a b v, Does (.msixDeferredSend (.l0 g w))
    (fun s => s.glb.refLost = false ∧ s.host.pcie.d3hot = false ∧ s.host.deferred = [.write a b, .msg v] ∧ s.host.msixEn = true ∧
      vecMasked s v = false)
    (fun s => msixOut v (emit (.hostWrite a b) (withHost (fun h => { h with link := .l0 g w, deferred := [] }) s)))) ∧
  (∀ v : Fin 64, Does (.msixUnmask v) (fun s => s.host.pba.getLsbD v = false)
    (withHost fun h => { h with msixTbl := vmod h.msixTbl (4 * v + 3) (· &&& ~~~1#32) })) ∧
  (∀ v : Fin 64, Does (.msixUnmask v)
    (fun s => s.host.pba.getLsbD v = true ∧ s.host.msixEn = true ∧ s.host.pcie.funcMask = false ∧ endpointUp s = true)
    (fun s => msixOut v (withHost (fun h => { h with
      msixTbl := vmod h.msixTbl (4 * v + 3) (· &&& ~~~1#32), pba := h.pba &&& ~~~(1#64 <<< v.val) }) s)))

/-! The Harrow lanes. -/

/-- Table 9.7, R215, R216, R224 to R226: what the format K instructions do. -/
def Obligations.FormatKInstructions : Prop :=
  KStep .harrowNop 0x00 (fun _ _ => True) (fun _ x => x) ∧
  (∀ (l : Fin 16) w s, AtWord l 0x01 w s → bits w 32 15 = 0 →
    exec (.halt l .ok) s = .next (haltLane l (withLane l (fun x =>
      { advance (afterFetch x) with steps := x.steps + stepCost x 0 false }) s))) ∧
  KJump .loop 0x02
    (fun w x => bits w 6 26 = 0 ∧ rd w < 16 ∧ x.f.loops.length < 2 ∧ (∀ v ∈ x.f.loops.head?, x.pc + bits w 0 6 + 1 ≤ v.last) ∧ (sreg x (rd w)).toNat = 0)
    (fun _ x => stepCost x 0 false) (fun w x => advanceFrom (x.pc + (bits w 0 6 + 1)) x) ∧
  KJump .loop 0x02
    (fun w x => bits w 6 26 = 0 ∧ rd w < 16 ∧ x.f.loops = [] ∧ x.handler = false ∧ (sreg x (rd w)).toNat ≠ 0)
    (fun _ x => stepCost x 0 false) (fun w x => { x with
      pc := x.pc + 1, cache := []
      f := { x.f with loops := [{ start := x.pc + 1, last := x.pc + (bits w 0 6 + 1), left := (sreg x (rd w)).toNat }] } }) ∧
  KJump .loop 0x02
    (fun w x => bits w 6 26 = 0 ∧ rd w < 16 ∧ (x.f.loops = [] ∧ x.handler = true ∨ ∃ v, x.f.loops = [v] ∧ x.pc + (bits w 0 6 + 1) ≤ v.last) ∧
      (sreg x (rd w)).toNat ≠ 0)
    (fun _ x => stepCost x 0 false) (fun w x => { x with
      pc := x.pc + 1
      f := { x.f with loops := { start := x.pc + 1, last := x.pc + (bits w 0 6 + 1), left := (sreg x (rd w)).toNat } :: x.f.loops } }) ∧
  KJump .br 0x03
    (fun w x => x.f.loops = [] ∧ (ra w = 0 ∨ rd w < 16 ∧ (ra w = 1 ∧ sreg x (rd w) = 0 ∨ ra w = 2 ∧ sreg x (rd w) ≠ 0 ∨
      ra w = 3 ∧ (sreg x (rd w)).toInt < 0)))
    (fun _ _ => 2) (fun w x => { x with pc := bits w 0 13 }) ∧
  KStep .br 0x03
    (fun w x => x.f.loops = [] ∧ rd w < 16 ∧ (ra w = 1 ∧ sreg x (rd w) ≠ 0 ∨ ra w = 2 ∧ sreg x (rd w) = 0 ∨
      ra w = 3 ∧ 0 ≤ (sreg x (rd w)).toInt))
    (fun _ x => x) ∧
  KStep .sli 0x04 (fun w _ => rd w < 16) (fun w x => setS (rd w) (BitVec.ofNat 32 w) x) ∧
  KStep .sadd 0x05 (fun w _ => rd w < 16 ∧ ra w < 16) (fun w x => setS (rd w) (sreg x (ra w) + BitVec.ofNat 32 w) x) ∧
  KStep .pset 0x06 (fun w _ => rd w < 8 ∧ ra w = 0 ∧ bits w 14 18 = 0) (fun w x => setP (rd w) { preg x (rd w) with base := bits w 0 14 } x) ∧
  KStep .pset 0x06 (fun w _ => rd w < 8 ∧ ra w = 1 ∧ bits w 15 17 = 0) (fun w x => setP (rd w) { preg x (rd w) with len := bits w 0 15 } x) ∧
  KStep .pset 0x06 (fun w _ => rd w < 8 ∧ ra w = 2 ∧ bits w 14 18 = 0)
    (fun w x => setP (rd w) { preg x (rd w) with step := (BitVec.ofNat 14 w).toInt } x) ∧
  KStep .pset 0x06 (fun w _ => rd w < 8 ∧ ra w = 3 ∧ bits w 4 28 = 0)
    (fun w x => setP (rd w) { preg x (rd w) with mode := bits w 0 2, mem := bits w 2 2 } x) ∧
  KStep .pset 0x06 (fun w _ => rd w < 8 ∧ ra w = 4 ∧ bits w 14 18 = 0) (fun w x => setP (rd w) { preg x (rd w) with addr := bits w 0 14 } x) ∧
  (∀ (l : Fin 16) w s, AtWord l 0x07 w s → bits w 32 15 = 0 → bits w 0 14 % 8 = 0 →
    let x := lane l s
    let c := bits w 52 2
    let g := dmaAt x (bits w 0 14)
    (vget x.chan c ≠ none → exec (.xfer l .ok) s = .next s) ∧
    (vget x.chan c = none → (x.fallback = true → bits w 0 14 + 7 < 4096) → segCheck x (jobLease x s) g = true →
      exec (.xfer l .ok) s = .next (withLane l (fun x =>
        { advance { afterFetch x with chan := vset x.chan c (some g) } with steps := x.steps + stepCost x 0 false }) s)) ∧
    (vget x.chan c = none → segCheck x (jobLease x s) g = false → exec (.xfer l .ok) s = .next (endJob l 2 s))) ∧
  KStep .xwait 0x08 (fun _ _ => True) (fun w x => { x with wait := if (vget x.chan (bits w 52 2)).isSome then some (bits w 52 2) else none }) ∧
  KStep .swi 0x09 (fun _ _ => True) (fun _ x => { x with pend := x.pend ||| 4 }) ∧
  KJump .rti 0x0A (fun _ x => x.handler = true) (fun _ x => stepCost x 0 false)
    (fun _ x => { swapBanks x with pc := x.saved, handler := false, group := none }) ∧
  KStep .tset 0x0B (fun w _ => bits w 0 32 = 0) (fun _ x => { x with timer := none }) ∧
  (∀ (l : Fin 16) w s, AtWord l 0x0B w s → bits w 32 15 = 0 → bits w 0 32 ≠ 0 → Gives (.tset l .ok) s fun t =>
    (lane l t).timer = some ((lane l t).steps + bits w 0 32) ∧ (lane l t).steps = (lane l s).steps + stepCost (lane l s) 0 false ∧
      (lane l t).f.s = (lane l s).f.s ∧ (lane l t).mem = (lane l s).mem) ∧
  KStep .expclr 0x0C (fun _ _ => True) (fun _ x => { x with expr := 15 }) ∧
  KStep .expget 0x0D (fun w _ => rd w < 16) (fun w x => setS (rd w) (BitVec.ofNat 32 x.expr) x) ∧
  KStep .idxset 0x0E (fun _ _ => True) (fun w x => { x with ibase := BitVec.ofNat 32 w, maxv := none, minv := none }) ∧
  KStep .mmget 0x0F (fun w _ => rd w < 16 ∧ ra w ≤ 3) (fun w x => setS (rd w)
    (match (if ra w < 2 then x.maxv else x.minv) with
     | some p => if ra w % 2 = 0 then p.1 else p.2
     | none => if ra w % 2 = 0 then 0 else 0xFFFFFFFF#32) x)

/-- Table 9.7, R219 to R224: what the format V instructions compute, each with its move slots. -/
def Obligations.FormatVInstructions : Prop :=
  let a (x : Lane) (w i : Nat) := el (vreg x (va w)) i
  let b (x : Lane) (w i : Nat) := el (vreg x (vb w)) i
  let acc (x : Lane) (w i : Nat) := accEl (areg x (accN w)) i
  let vec (i : Fin 16 → LaneCheck → Instr) (op : Nat) (r : Lane → Nat → Nat → Int) (m : Lane → Nat → Nat → Int) : Prop :=
    VStep i op (fun _ => True) (fun w => [vd w]) fun w x => setVec (vd w) (vecOf fun i => satElement (r x w i) (m x w i)) x
  VStep .move 0x20 (fun _ => True) (fun _ => []) (fun _ x => x) ∧
  vec .vadd 0x21 (fun x w i => re (a x w i) + re (b x w i)) (fun x w i => im (a x w i) + im (b x w i)) ∧
  vec .vsub 0x22 (fun x w i => re (a x w i) - re (b x w i)) (fun x w i => im (a x w i) - im (b x w i)) ∧
  vec .vmuln 0x23 (fun x w i => cr (re (a x w i) * re (b x w i) - im (a x w i) * im (b x w i)) 15)
    (fun x w i => cr (re (a x w i) * im (b x w i) + im (a x w i) * re (b x w i)) 15) ∧
  vec .vmulcn 0x24 (fun x w i => cr (re (a x w i) * re (b x w i) + im (a x w i) * im (b x w i)) 15)
    (fun x w i => cr (im (a x w i) * re (b x w i) - re (a x w i) * im (b x w i)) 15) ∧
  VStep .vmac 0x25 (fun _ => True) (fun _ => []) (fun w x => accumulate (accN w) (fun i =>
    (re (a x w i) * re (b x w i) - im (a x w i) * im (b x w i), re (a x w i) * im (b x w i) + im (a x w i) * re (b x w i))) x) ∧
  VStep .vmacc 0x26 (fun _ => True) (fun _ => []) (fun w x => accumulate (accN w) (fun i =>
    (re (a x w i) * re (b x w i) + im (a x w i) * im (b x w i), im (a x w i) * re (b x w i) - re (a x w i) * im (b x w i))) x) ∧
  VStep .vmsu 0x27 (fun _ => True) (fun _ => []) (fun w x => accumulate (accN w) (fun i =>
    (-(re (a x w i) * re (b x w i) - im (a x w i) * im (b x w i)), -(re (a x w i) * im (b x w i) + im (a x w i) * re (b x w i)))) x) ∧
  VStep .vmul0 0x28 (fun _ => True) (fun _ => []) (fun w x => setAcc (accN w) (Vector.ofFn fun i =>
    (BitVec.ofInt 40 (re (a x w i) * re (b x w i) - im (a x w i) * im (b x w i)),
     BitVec.ofInt 40 (re (a x w i) * im (b x w i) + im (a x w i) * re (b x w i)))) x) ∧
  VStep .vdotc 0x29 (fun _ => True) (fun _ => []) (fun w x => accumulate (accN w) (fun i => if i = 0 then
    (((List.range 8).map fun k => re (a x w k) * re (b x w k) + im (a x w k) * im (b x w k)).sum,
     ((List.range 8).map fun k => im (a x w k) * re (b x w k) - re (a x w k) * im (b x w k)).sum) else (0, 0)) x) ∧
  vec .vnrw 0x2A (fun x w i => cr (acc x w i).1.toInt (vb w)) (fun x w i => cr (acc x w i).2.toInt (vb w)) ∧
  vec .vsha 0x2B (fun x w i => if vb w < 16 then re (a x w i) * 2 ^ vb w else cr (re (a x w i)) (32 - vb w))
    (fun x w i => if vb w < 16 then im (a x w i) * 2 ^ vb w else cr (im (a x w i)) (32 - vb w)) ∧
  vec .vconj 0x2C (fun x w i => re (a x w i)) (fun x w i => -im (a x w i)) ∧
  vec .vneg 0x2D (fun x w i => -re (a x w i)) (fun x w i => -im (a x w i)) ∧
  VStep .vbfly 0x2E (fun w => vd w % 2 = 0 ∧ accN w = 0) (fun w => [vd w, vd w + 1]) (fun w x =>
    setVec (vd w + 1) (vecOf fun i => satElement (re (a x w i) - re (b x w i)) (im (a x w i) - im (b x w i)))
      (setVec (vd w) (vecOf fun i => satElement (re (a x w i) + re (b x w i)) (im (a x w i) + im (b x w i))) x)) ∧
  VStep .vbfly 0x2E (fun w => vd w % 2 = 0 ∧ accN w = 1) (fun w => [vd w, vd w + 1]) (fun w x =>
    setVec (vd w + 1) (vecOf fun i => satElement (cr (re (a x w i) - re (b x w i)) 1) (cr (im (a x w i) - im (b x w i)) 1))
      (setVec (vd w) (vecOf fun i => satElement (cr (re (a x w i) + re (b x w i)) 1) (cr (im (a x w i) + im (b x w i)) 1)) x)) ∧
  VStep .vperm 0x2F (fun w => vb w ≤ 3 ∨ 8 ≤ vb w ∧ vb w ≤ 15) (fun w => [vd w]) (fun w x =>
    setV (vd w) (Vector.ofFn fun i => a x w (match vb w with
      | 0 => 7 - i | 1 => if i.val % 2 = 0 then i + 1 else i - 1 | 2 => (i + 4) % 8 | 3 => [0, 4, 2, 6, 1, 5, 3, 7].getD i 0 | n => n - 8)) x) ∧
  VStep .bexp 0x30 (fun _ => True) (fun _ => []) (fun w x => { x with
    expr := (List.range 8).foldl (fun n i => min n (min (rsb (re (a x w i))) (rsb (im (a x w i))))) x.expr }) ∧
  VStep .vmaxi 0x31 (fun w => vb w ≤ 2 ∧ vd w ≤ 1) (fun _ => []) (fun w x => { x with
    maxv := runBest (fun p q => decide (q < p)) (vb w) (vreg x (va w)) x.ibase x.maxv, ibase := if vd w = 1 then x.ibase + 8 else x.ibase }) ∧
  VStep .vmini 0x32 (fun w => vb w ≤ 2 ∧ vd w ≤ 1) (fun _ => []) (fun w x => { x with
    minv := runBest (fun p q => decide (p < q)) (vb w) (vreg x (va w)) x.ibase x.minv, ibase := if vd w = 1 then x.ibase + 8 else x.ibase }) ∧
  VStep .vrcp 0x33 (fun _ => True) (fun w => [vd w]) (fun w x => setVec (vd w) (vecOf fun i =>
    if re (a x w i) < 0x4000 then (element 0x7FFF 0, true) else (element (rcpSeed (re (a x w i)).toNat) 0, false)) x) ∧
  VStep .vrsq 0x34 (fun _ => True) (fun w => [vd w]) (fun w x => setVec (vd w) (vecOf fun i =>
    if re (a x w i) < 0x2000 then (element 0x7FFF 0, true) else (element (rsqSeed (re (a x w i)).toNat) 0, false)) x) ∧
  VStep .vsplat 0x35 (fun w => va w ≤ 15) (fun w => [vd w]) (fun w x => setV (vd w) (Vector.replicate 8 (sreg x (va w))) x)

/-- R220, R218, R227, R228: an instruction with a reserved bit set, an illegal move slot or an undefined opcode ends its job with fault 1, a
fetch outside the sandbox with fault 2; a residue mismatch that a retry clears only counts; one that repeats, and a memory error, come
before the instruction. -/
def Obligations.LaneChecksAndFaults : Prop :=
  (∀ r ∈ laneRowsK, ∀ (l : Fin 16) w s, AtWord l r.1 w s → bits w 32 15 ≠ 0 → exec (r.2 l .ok) s = .next (endJob l 1 s)) ∧
  (∀ r ∈ laneRowsV, ∀ (l : Fin 16) w s, AtWord l r.1 w s → (bit w 0 = true ∨ slotsLegal w (lane l s) = false ∨ ¬(loaded w).Nodup) →
    exec (r.2 l .ok) s = .next (endJob l 1 s)) ∧
  (∀ (l : Fin 16) w s, AtWord l 0x02 w s → (lane l s).f.loops.length = 2 → exec (.loop l .ok) s = .next (endJob l 1 s)) ∧
  (∀ (l : Fin 16) w s, AtWord l 0x03 w s → (lane l s).f.loops ≠ [] → exec (.br l .ok) s = .next (endJob l 1 s)) ∧
  (∀ (l : Fin 16) w s, AtWord l 0x0A w s → (lane l s).handler = false → exec (.rti l .ok) s = .next (endJob l 1 s)) ∧
  (∀ op, (0x10 ≤ op ∧ op < 0x20) ∨ (0x36 ≤ op ∧ op < 0x80) → ∀ (l : Fin 16) w s, AtWord l op w s →
    exec (.harrowNop l .ok) s = .next (endJob l 1 s)) ∧
  (∀ (l : Fin 16) s, live s = true → mayIssue (lane l s) = true → budgetSpent (jobLease (lane l s) s) (lane l s) = false →
    (fetchIllegal (lane l s) = true → exec (.harrowNop l .ok) s = .next (endJob l 1 s)) ∧
    (fetchIllegal (lane l s) = false → fetchOutside (lane l s) = true → exec (.harrowNop l .ok) s = .next (endJob l 2 s))) ∧
  (∀ r ∈ laneRowsK ++ laneRowsV, ∀ (l : Fin 16) w s, AtWord l r.1 w s → r.1 ≠ 1 →
    exec (r.2 l .residue) s = .next (residueError l (hcount 6 1 s)) ∧
    (∀ b k, exec (r.2 l (.memory b k)) s = .next (memoryError l b k s)) ∧
    ∀ t, exec (r.2 l .ok) s = .next t → ∃ u, exec (r.2 l .retried) s = .next u ∧ u.harrow.ctr = (hcount 6 1 t).harrow.ctr ∧ lane l u = lane l t)

/-- R222: `cr x s` is the nearest integer to x / 2^s, and the even one of the two nearest at an exact half; with s = 0 nothing is rounded. -/
def Obligations.ConvergentRounding : Prop :=
  (∀ (x : Int) (k : Nat), 2 * (x - 2 ^ k * cr x k) ≤ 2 ^ k ∧ -(2 ^ k) ≤ 2 * (x - 2 ^ k * cr x k)) ∧
  (∀ (x : Int) (k : Nat), (2 * (x - 2 ^ k * cr x k) = 2 ^ k ∨ 2 * (x - 2 ^ k * cr x k) = -(2 ^ k)) → 0 < k → cr x k % 2 = 0) ∧
  (∀ x : Int, cr x 0 = x)

/-- R229 to R237, R225, R226, R232: what happens to jobs, transfers and leases between instructions. -/
def Obligations.HarrowEventsTakeEffect : Prop :=
  (∀ (l : Fin 16) (c : Fin 5) d, BuilminDoes (.jobStart l (some c) d) (fun s => bjobAllowed l c s = true ∧ (lane l s).owner = 0)
    (withLane l fun x => { x with bjob := some c.val, owner := 0 })) ∧
  (∀ (l : Fin 16) (c : Fin 5) d, BuilminDoes (.jobStart l (some c) d) (fun s => bjobAllowed l c s = true ∧ (lane l s).owner ≠ 0)
    (withLane l fun x => { wipedLane x with bjob := some c.val, owner := 0 })) ∧
  (∀ (l : Fin 16) d j, BuilminDoes (.jobStart l none d)
    (fun s => (lane l s).whole = false ∧ (lane l s).wiping = false ∧ (lane l s).job = none ∧ (lane l s).bjob = none ∧ nextJob l s = some j)
    (startHost l j d)) ∧
  (∀ (l : Fin 16) s j, live s = true → (lane l s).job = some j → (lane l s).phase = .outbound → (∀ c ∈ (lane l s).chan.toList, c = none) →
    exec (.jobComplete l .ok) s = .next (completeHost l j s)) ∧
  (∀ (l : Fin 16) s j f, live s = true → (lane l s).job = some j → (lane l s).phase = .ended f → (∀ c ∈ (lane l s).chan.toList, c = none) →
    exec (.jobComplete l .ok) s = .next (completeHost l j s)) ∧
  (∀ (l : Fin 16) c, Does (.jobComplete l .ok)
    (fun s => (lane l s).job = none ∧ (lane l s).bjob = some c ∧ (lane l s).phase = .idle ∧ (lane l s).cacheFenced = false)
    (fun s => hcount 0 1 (withLane l (fun x => { x with bjob := none }) s))) ∧
  (∀ (l : Fin 16) ps, let due (s : State) : Prop := (lane l s).canaryAt + 500000 ≤ s.now
    Does (.canaryMeasure l ps) (fun s => due s ∧ (mayIssue (lane l s) = false ∨ macOp (nextOp (lane l s)) = false))
      (fun s => withLane l (fun x => { x with canaryAt := s.now }) (withRel (fun x => { x with canaryPs := vset x.canaryPs l ps }) s)) ∧
    Does (.canaryMeasure l ps) (fun s => ¬ due s ∨ (mayIssue (lane l s) = true ∧ macOp (nextOp (lane l s)) = true)) id) ∧
  (∀ (l : Fin 16) ps, let waited (s : State) : Prop := (lane l s).canaryAt + 5500000 ≤ s.now
    Does (.telemSteal l ps) (fun s => (lane l s).job ≠ none ∧ waited s)
      (fun s => hcount 9 1 (withLane l (fun x => { x with canaryAt := s.now }) (withRel (fun x => { x with canaryPs := vset x.canaryPs l ps }) s))) ∧
    Does (.telemSteal l ps) (fun s => ¬ waited s) id) ∧
  (∀ (l : Fin 16), Does (.laneWipeDone l) (fun s => (lane l s).wiping = true ∧ (lane l s).job = none ∧ (lane l s).bjob = none ∧ (lane l s).slot = none)
    (withLane l fun x => { wipedLane x with wiping := false })) ∧
  (∀ (l : Fin 16) (c : Fin 4) d g j, Does (.dmaTransferDone l c d)
    (fun s => vget (lane l s).chan c = some g ∧ (lane l s).job = some j ∧ g.irq = false)
    (fun s => withLane l (fun y => { y with chan := vset y.chan c none, wait := if y.wait = some c.val then none else y.wait })
      (transfer l j.lease d g s))) ∧
  (∀ (l : Fin 16) n, Does (.stepTimerExpiry l) (fun s => (lane l s).timer = some n ∧ n ≤ (lane l s).steps)
    (withLane l fun x => { x with timer := none, pend := x.pend ||| 2 })) ∧
  (∀ (l : Fin 16) i j, Does (.interruptTaken l)
    (fun s => (lane l s).phase = .program ∧ dueSource (lane l s) = some i ∧ (lane l s).job = some j)
    (fun s => hcount 11 1 (withLane l (fun x =>
      { swapBanks x with saved := x.pc, pc := j.ivec.getD i 0, handler := true, pend := x.pend - 2 ^ i, group := none }) s))) ∧
  (∀ (l : Fin 16) j, Does (.jobBudget l)
    (fun s => (lane l s).job = some j ∧ mayIssue (lane l s) = true ∧ budgetSpent (jobLease (lane l s) s) (lane l s) = true)
    (fun s => raise .jobBudget l (le 4 j.handle.toNat ++ [byte j.lease])
      (endJob l 3 (withLane l (fun x => { x with steps := j.budget }) s))))

/-! Radios, the Headland and the PHY. -/

/-- R86 to R92, R100 to R112, Tables 4.3, 4.13, 4.16: what happens to a radio's state, its calibration, its channel and its coexistence
inputs. `n` is the radio's number. -/
def Obligations.RadioEventsTakeEffect : Prop :=
  ∀ r : Radio, let n := rnum r
  Does (.coexGrantsRead r) (fun _ => True) (fun s => { s with coex := { s.coex with grants := vset s.coex.grants n 0 } }) ∧
  Does (.coexReqChange r false) (fun s => (vget s.fe n).req = true) 
    (fun s => coexUpdate n (withFe n (fun e => { e with req := false, hold := false }) s)) ∧
  Does (.coexReqChange r true) (fun s => (vget s.fe n).req = false ∧ coexEn n s = true ∧ s.coex.toggle = 0)
    (fun s => coexUpdate n (withFe n (fun e => { e with req := true, reqAt := s.now, rises := s.now :: risesIn s.now e.rises }) s)) ∧
  Does (.coexReqChange r true) (fun s => (vget s.fe n).req = false ∧ coexEn n s = false)
    (fun s => withFe n (fun e => { e with req := true, reqAt := s.now }) s) ∧
  (∀ v, Does (.coexReqChange r v) (fun s => (vget s.fe n).req = v) id) ∧
  (∀ v, Does (.coexPriChange r v) (fun _ => True) (fun s => coexUpdate n (withFe n (fun e => { e with pri := v }) s))) ∧
  Does (.coexStuck r)
    (fun s => (vget s.fe n).req = true ∧ (vget s.fe n).hold = false ∧ coexEn n s = true ∧ (vget s.fe n).reqAt + 500 * s.coex.maxHold ≤ s.now)
    (fun s => raise .coexStuck n [] (feCount n 11 (coexUpdate n (withFe n (fun e => { e with hold := true })
      { s with coex := { s.coex with stuck := s.coex.stuck ||| (1#3 <<< n) } })))) ∧
  Does (.coexStuck r) (fun s => s.now < (vget s.fe n).reqAt + 500 * s.coex.maxHold) id ∧
  (∀ h want ret rest, BuilminDoes (.radioStateApply r)
    (fun s => let e := vget s.fe n
      e.stateReq = (h, want, ret) :: rest ∧ inExchange n s = false ∧ e.cal = none ∧ e.trans = none ∧ e.stateRun = none ∧ e.sw = none ∧
        (vget s.bf.radio n).running = false ∧ mayGo n want s = e.state ∧ e.state ≠ .off)
    (fun s => finish h .ok [] (withFe n (fun e => { e with stateReq := rest, ret := ret, goal := none, relocked := false }) s))) ∧
  (∀ h want ret rest, BuilminDoes (.radioStateApply r)
    (fun s => let e := vget s.fe n
      e.stateReq = (h, want, ret) :: rest ∧ inExchange n s = false ∧ e.cal = none ∧ e.trans = none ∧ e.stateRun = none ∧ e.sw = none ∧
        (vget s.bf.radio n).running = false ∧ e.txopHeld = false ∧
        mayGo n want s ≠ e.state ∧ mayGo n want s ≠ .off ∧ (e.state = .standby ∨ e.state = .rx))
    (fun s => withFe n (fun e => { e with
      stateReq := rest, ret := ret, goal := none, relocked := false, stateRun := some h, trans := some (mayGo n want s), locking := false }) s)) ∧
  (∀ h want ret rest, BuilminDoes (.radioStateApply r)
    (fun s => (vget s.fe n).stateReq = (h, want, ret) :: rest ∧ (inExchange n s = true ∨ (vget s.bf.radio n).running = true)) id) ∧
  (∀ want h, Does (.radioTransitionEnd r)
    (fun s => let e := vget s.fe n
      e.trans = some want ∧ want ≠ .tx ∧ mayGo n want s ≠ .off ∧ e.locking = false ∧ e.powering = false ∧ e.stateRun = some h ∧
        e.goal = none ∧ e.relocked = false)
    (fun s => coexUpdate n (finish h .ok [] (withFe n (fun e => { e with stateRun := none, relocked := false })
      (femEnter n (mayGo n want s) (withFe n (fun e => { e with state := mayGo n want s, trans := none, locking := false }) s)))))) ∧
  (∀ tx, Does (.radioAutoWake r tx)
    (fun s => let e := vget s.fe n
      e.state = .standby ∧ e.trans = none ∧ e.cal = none ∧ radioOut n s = false ∧ s.life.mode ≠ .startUp)
    (withFe n fun e => { e with trans := some (if tx then .tx else .rx), locking := false })) ∧
  (∀ t, Does (.synTempSample r t) (fun s => (vget s.fe n).state = .off) (withFe n fun e => { e with
    temp := t, segValid := Vector.ofFn fun (i : Fin 4) => e.segValid[i] && decide ((vget e.segTemp i - t).natAbs < 120) })) ∧
  (∀ t, Does (.synTempSample r t)
    (fun s => let e := vget s.fe n
      e.state ≠ .off ∧ vget e.segValid (segUse n e) = true ∧ 120 ≤ (vget e.segTemp (segUse n e) - t).natAbs)
    (fun s => withFe n (fun e => { e with
      temp := t, calPending := some s.now
      segValid := Vector.ofFn fun (i : Fin 4) => e.segValid[i] && decide ((vget e.segTemp i - t).natAbs < 120) }) s)) ∧
  Does (.calPendingStart r)
    (fun s => let e := vget s.fe n
      quietRadio n s = true ∧ e.txopHeld = false ∧ dueSoon n s = false ∧ e.calCmd = none ∧ e.calPending ≠ none ∧ e.state ≠ .rx)
    (withFe n fun e => { e with cal := some { seg := segUse n e, cause := .temp }, trans := none, powering := false, ctr := vadd e.ctr 3 1 }) ∧
  Does (.calPendingStart r)
    (fun s => let e := vget s.fe n
      quietRadio n s = true ∧ e.txopHeld = false ∧ dueSoon n s = false ∧ e.calPending ≠ none ∧ e.state = .rx)
    (withFe n fun e => { e with trans := some .standby, locking := false, goal := some .calibrate }) ∧
  (∀ t, Does (.calForced r)
    (fun s => let e := vget s.fe n
      quietRadio n s = true ∧ e.calCmd = none ∧ e.calPending = some t ∧ t + 10000000 ≤ s.now ∧ e.state ≠ .rx)
    (fun s => calTemp n (feCount n 6 (giveUpTxop n s)))) ∧
  (∀ t, Does (.calForced r)
    (fun s => let e := vget s.fe n
      e.calCmd = none ∧ e.calPending = some t ∧ s.now < t + 10000000)
    id) ∧
  (∀ c, Does (.synCalEnd r)
    (fun s => let e := vget s.fe n
      e.cal = some c ∧ c.cause = .temp ∧ c.seg = segUse n e)
    (fun s => calFollow n c (recipRepeat n (noteTuning n c.seg (raise .synCal n [] (withFe n (fun e => { e with
      segValid := vset e.segValid c.seg true, segTemp := vset e.segTemp c.seg e.temp, segCount := vadd e.segCount c.seg 1
      cal := none, calPending := none }) s)))))) ∧
  (∀ x q, Does (.channelSwitch r x)
    (fun s => let e := vget s.fe n
      e.chanReq = some q ∧ inExchange n s = false ∧ e.cal = none ∧ e.trans = none ∧ e.sw = none ∧ q.at_ = none ∧ e.state ≠ .off ∧
        (vget s.bf.radio n).running = false ∧ e.txopHeld = false ∧ e.femMap = [] ∧ segOf n q.centre = segUse n e ∧ q.force = false ∧ vget e.segValid (segUse n e) = true)
    (fun s => furrowDiscard n (withFe n (fun e => { e with
      chanReq := none, calPending := none, sw := some (q.handle, 0, 38), trans := some .standby, locking := true }) (storeChannel n q s)))) ∧
  (∀ c : Fin 16, Does (.derateResearch r c)
    (fun s => let k := vget (vget s.fe n).chains c
      chainOut k = false ∧ k.search = none ∧ k.judge = false ∧ (k.st = .derated3 ∨ k.st = .derated6) ∧ k.deratedAt + 30000000000 ≤ s.now)
    (fun s => startDue n (withChain n c (fun k => { k with searchDue := true }) s))) ∧
  (∀ c : Fin 16, Does (.derateResearch r c)
    (fun s => let k := vget (vget s.fe n).chains c
      chainOut k = false ∧ k.search = none ∧ k.judge = false ∧ (k.st = .derated3 ∨ k.st = .derated6) ∧ k.deratedAt + 30000000000 ≤ s.now ∧
        ((vget s.fe n).tx ≠ none ∨ (vget s.phy n).rx ≠ none))
    (withChain n c fun k => { k with searchDue := true })) ∧
  (∀ c : Fin 16, Does (.derateResearch r c) (fun s => s.now < (vget (vget s.fe n).chains c).deratedAt + 30000000000) id)

/-- R105, R107: GNT is EN and REQ' and the policy bit of PRI' and the activity class and no stuck hold; a rise of it counts, and ends a PPDU
of class 2; a fall does not. -/
def Obligations.CoexistenceGrant : Prop :=
  (∀ (n : Fin 3) s, (vget (coexUpdate n s).fe n).gnt = gntNow n s) ∧
  (∀ (n : Fin 3) s, gntNow n s = true → (vget s.fe n).gnt = false →
    (coexUpdate n s).coex.grants = vmod s.coex.grants n sat32 ∧
    ∀ x, (vget s.fe n).tx = some x → (vget (coexUpdate n s).fe n).tx =
      some (if kindProtected x.kind = false then { x with aborted := true } else x)) ∧
  (∀ (n : Fin 3) s, gntNow n s = false ∨ (vget s.fe n).gnt = true →
    (coexUpdate n s).coex = s.coex ∧ (vget (coexUpdate n s).fe n).tx = (vget s.fe n).tx) ∧
  (∀ n s, gntNow n s = true ↔
    s.coex.ctrl.getLsbD n = true ∧ (vget s.fe n).req = true ∧
      s.coex.policy.getLsbD (8 * n + ((if (vget s.fe n).pri then 4 else 0) + radioClass n s)) = true ∧ (vget s.fe n).hold = false)

/-- R17, R18, R26 to R30, R458, Tables 1.7, 19.3: the supply request and the Headland. -/
def Obligations.HeadlandEventsTakeEffect : Prop :=
  (∀ c, BuilminDoes (.canaryReplan c) (fun s => s.glb.avsPause = false) (fun s =>
    let mv := max 620 (min 880 (c + s.rel.ageGuard))
    let q := min 880 (mv + s.power.hlOffset)
    emit (.avs q) (withPower (fun p => { p with canaryAsk := c, canaryMv := mv, request := q, writePend := true, writeAt := s.now }) s))) ∧
  (∀ c, BuilminDoes (.canaryReplan c) (fun s => s.glb.avsPause = true) (fun s =>
    let mv := max 620 (min 880 (c + s.rel.ageGuard))
    withPower (fun p => { p with canaryAsk := c, canaryMv := mv, request := min 880 (mv + s.power.hlOffset) }) s)) ∧
  (let late (s : State) : Prop := s.power.writePend = true ∧ s.power.writeAt + 500000 ≤ s.now
   let paused (s : State) : State :=
     withPower (fun p => { p with writePend := false, pauseAt := s.power.writeAt + 500000 }) (withGlb (fun g => { g with avsFault := true, avsPause := true }) s)
   Does .avsFault (fun s => late s ∧ s.glb.avsFault = false) (fun s => raise .avsFault 0 [] (paused s)) ∧
   Does .avsFault (fun s => late s ∧ s.glb.avsFault = true) paused ∧
   Does .avsFault (fun s => s.power.writePend = false ∨ s.now < s.power.writeAt + 500000) id) ∧
  Does .avsPauseEnd (fun s => s.power.pauseAt + 500000000 ≤ s.now) (withGlb fun g => { g with avsPause := false }) ∧
  Does .avsPauseEnd (fun s => s.now < s.power.pauseAt + 500000000) id ∧
  (∀ v, Does (.avsAck v) (fun s => s.power.writePend = true) (fun s =>
    withPower (fun p => { p with writePend := false, readback := v }) (withGlb (fun g => { g with avsFault := false }) s))) ∧
  (∀ d, Does (.canarySample d) (fun s => ∀ t, s.rel.sampleAt = some t → t + 500000 ≤ s.now) (fun s => withRel (fun x => { x with
    canaryPs := Vector.ofFn fun i => d.getD i.val (vget s.rel.canaryPs i.val), sampleAt := some s.now }) s)) ∧
  (∀ r : Radio, let n := rnum r
    Does (.hlEvaluate r) (fun s => (vget s.hl n).evals ≠ 0) (fun s =>
      let p := p1Of (vget s.hl n).slacks
      hlTrigger n p false (withHl n (fun h => { h with
        p1 := p, since := 0, evals := h.evals + 1
        goodAt := match h.p1, p with
          | none, _ => h.goodAt
          | some a, some b => if 3000 < a ∧ 3000 < b then h.goodAt else s.now
          | some _, none => s.now }) s)) ∧
    Does (.hlEvaluate r) (fun s => (vget s.hl n).evals = 0) id ∧
    (let held (s : State) : Prop := (∃ p, (vget s.hl n).p1 = some p ∧ 3000 < p) ∧ (vget s.hl n).goodAt + 15000000000 ≤ s.now
     Does (.hlUndo r) (fun s => held s ∧ (vget s.hl n).userLimit < userTop n) (fun s =>
       let v := userPrev n (vget s.hl n).userLimit
       raise .hlStep n ([3, 1] ++ le 2 v ++ [0xFF]) (withHl n (fun h => { h with userLimit := v, goodAt := s.now }) s)) ∧
     Does (.hlUndo r) (fun s => held s ∧ userTop n ≤ (vget s.hl n).userLimit ∧ (vget s.hl n).baLimit < 256) (fun s =>
       raise .hlStep n ([2, 1] ++ le 2 256 ++ [0xFF]) (withHl n (fun h => { h with baLimit := 256, goodAt := s.now }) s)) ∧
     Does (.hlUndo r) (fun s => held s ∧ userTop n ≤ (vget s.hl n).userLimit ∧ 256 ≤ (vget s.hl n).baLimit ∧ (vget s.hl n).baLimit < 1024)
       (fun s => raise .hlStep n ([2, 1] ++ le 2 1024 ++ [0xFF]) (withHl n (fun h => { h with baLimit := 1024, goodAt := s.now }) s)) ∧
     Does (.hlUndo r) (fun s => hlClear s n = true ∧ 0 < s.power.hlOffset ∧ s.glb.avsPause = false ∧
         ∀ q < 3, hlClear s q = true ∧ ((vget s.hl q).p1 = none ∨ ∃ p, (vget s.hl q).p1 = some p ∧ 3000 < p) ∧
           (vget s.hl q).goodAt + 15000000000 ≤ s.now)
       (fun s =>
         let v := s.power.hlOffset - 5
         let q := min 880 (s.power.canaryMv + v)
         raise .hlStep 3 ([1, 1] ++ le 2 v ++ [0xFF]) (emit (.avs q) (withPower (fun p => { p with hlOffset := v, request := q, writePend := true, writeAt := s.now })
           { s with hl := s.hl.map fun h => { h with goodAt := s.now } }))) ∧
     Does (.hlUndo r) (fun s => s.now < (vget s.hl n).goodAt + 15000000000) id))

/-- R26: P1 of n slacks held is their k-th smallest, k = ceil(41 n / 4096): at most k - 1 of them are below it, and at least k at or below. -/
def Obligations.FirstPercentile : Prop :=
  (∀ l : List Nat, 0 < l.length → l.length ≤ 4096 → ∃ p, p1Of l = some p ∧ p ∈ l ∧
    (l.filter fun x => x < p).length < ceilDiv (41 * l.length) 4096 ∧ ceilDiv (41 * l.length) 4096 ≤ (l.filter fun x => x ≤ p).length) ∧
  p1Of [] = none

/-- R114 to R128, Tables 5.6, 5.13: detection, validation, restart, and LDPC decoding. -/
def Obligations.PhyEventsTakeEffect : Prop :=
  ∀ r : Radio, let n := rnum r
  (∀ pw levels, Does (.preambleDetect r ⟨pw, levels⟩ false)
    (fun s => searching n s = true ∧ 2 * (vget s.phy n).pdThresh ≤ pw - (vget s.phy n).femRxGain)
    (fun s => coexUpdate n (withPhy n (fun p => { p with
      ctr := vadd p.ctr 0 1
      rx := some {
        fmt := 1, refPow := pw - p.femRxGain, capture := p.captureEn, femGain := p.femRxGain, ldpcMax := p.ldpcMax
        gains := levels.map agcGain, stamps := stampIn (2 + n) s, ba := baStands s
        inWin := (vget s.fe n).awaits && decide (s.now < (vget s.mac.radio n).awaitTill) } }) (withRm n (fun m => { m with navRts := none }) s)))) ∧
  (∀ pw levels d, Does (.preambleDetect r ⟨pw, levels⟩ d)
    (fun s => searching n s = false ∨ pw - (vget s.phy n).femRxGain < 2 * (vget s.phy n).pdThresh) id) ∧
  (∀ pw levels, Does (.preambleDetect r ⟨pw, levels⟩ true) (fun s => bit (vget s.phy n).formats 0 = false) id) ∧
  (∀ x, Does (.searchResume r) (fun s => (vget s.phy n).rx = some x ∧ x.failed = true) (fun s =>
    coexUpdate n (withPhy n (fun p => { p with rx := none }) s))) ∧
  (∀ x pw levels us, Does (.restartDecision r ⟨pw, levels⟩ us)
    (fun s => (vget s.phy n).rx = some x ∧
      (x.valid = false ∧ 12 ≤ pw - x.femGain - x.refPow ∨ x.valid = true ∧ x.capture = true ∧ 20 ≤ pw - x.femGain - x.refPow))
    (fun s => coexUpdate n (beginRx n pw levels false (rxAbandoned n (x.got.foldl (mpduGood n x)
      (phyCount n (if x.valid then 3 else 2) 1 (writeReports n x true us s))))))) ∧
  (∀ x pw levels us, Does (.restartDecision r ⟨pw, levels⟩ us)
    (fun s => (vget s.phy n).rx = some x ∧
      (x.valid = false ∧ pw - x.femGain - x.refPow < 12 ∨ x.valid = true ∧ (x.capture = false ∨ pw - x.femGain - x.refPow < 20))) id) ∧
  (∀ w (k : Nat), Does (.ldpcDecode r w k) (fun _ => True) (withPhy n fun p =>
    let cut := decide (64 < k) || (p.ldpcCut && decide (16 ≤ k))
    let iter := match p.rx with | some x => x.ldpcMax | none => match p.tail with | some x => x.ldpcMax | none => p.ldpcMax
    { p with ldpcCut := cut, ctr := vadd (vadd (vadd p.ctr 17 (if cut then 1 else 0)) 16 (if ldpcMet (if cut then 4 else iter) w then 0 else 1)) 15 1 })) ∧
  (∀ g x, Does (.sigValidate r g)
    (fun s => (vget s.phy n).rx = some x ∧ x.valid = false ∧ x.failed = false ∧ x.late = false ∧ sigPass g = false)
    (fun s => coexUpdate n (withPhy n (fun p => { p with ctr := vadd p.ctr 1 1, rx := some { x with failed := true, gains := [] } }) s))) ∧
  (∀ g x, Does (.sigValidate r g)
    (fun s => (vget s.phy n).rx = some x ∧ x.valid = false ∧ x.failed = false ∧ sigPass g = true ∧ g.primary = true ∧ g.excluded = false ∧
      g.late = false ∧ formatCarried n (vget s.fe n) g.fmt g.bw = true ∧ (g.fmt = 3 → g.htLength ≠ 0) ∧ bit (vget s.phy n).formats g.fmt = true ∧
      (∀ u ∈ g.users, ruStreams g.users u ≤ liveChains n s ∧ (9 ≤ g.fmt → u.mcs < 14)) ∧ g.obss = none)
    (fun s => coexUpdate n (withPhy n (fun p => { p with
      ctr := vadd p.ctr 4 1
      rx := some { x with
        valid := true, fmt := g.fmt, bw := g.bw, skip := false, unsup := false, fmtOff := false, late := false, users := g.users
        endAt := s.now + g.endNs / 2 } }) s)))

/-! Medium access. -/

/-- R161, R171 to R183, R335, R336, Tables 7.6, 7.7: what Builmin answers to stations, TBTTs, service periods and the uplink. -/
def Obligations.MacEventsTakeEffect : Prop :=
  (∀ (q : Fin 8192) dialog size ssn x, let n := q.val / 8; let tid := q.val % 8
    let pol (s : State) : BaPol := (kget s.mac.baPol q).getD (vget s.mac.baDef tid)
    let grant (s : State) : Nat := min (min (if size = 0 then 1024 else size) (pol s).max)
      (((List.range 3).filter (bit x.links)).foldl (fun m i => min m (vget s.hl i).baLimit) 1024)
    BuilminDoes (.addbaRequest q dialog size ssn)
      (fun s => kget s.mac.sta n = some x ∧ (pol s).accept = true ∧ (s.mac.ba.length < 4096 ∨ khas s.mac.ba q = true))
      (fun s => sendAction n ([3, 1, dialog] ++ be 2 0 ++ be 2 (2 + 4 * tid + 64 * grant s % 65536) ++ be 2 0)
        (withMac (fun m => { m with ba := kset m.ba q { win := grant s, start := ssn.toNat, timeout := (pol s).timeout } }) s)) ∧
    BuilminDoes (.addbaRequest q dialog size ssn)
      (fun s => kget s.mac.sta n = some x ∧ ((pol s).accept = false ∨ 4096 ≤ s.mac.ba.length ∧ khas s.mac.ba q = false))
      (fun s => sendAction n ([3, 1, dialog] ++ be 2 37 ++ be 2 (2 + 4 * tid + 64 * grant s % 65536) ++ be 2 0)
        (macCount (staRadio x tid) 14 1 s))) ∧
  (∀ (sta : Fin 1024) dialog (flow : Fin 8) interval len (target : BitVec 64) restricted x,
    let b := linkBss x (staRadio x 0)
    let allowed (s : State) : Prop := (if restricted then (vget s.mac.bss b).twtRestr else (vget s.mac.bss b).twtInd) = true ∧
      (vget s.mac.bss b).twtMinWake ≤ interval ∧ len ≤ (vget s.mac.bss b).twtMaxSp
    let resp (c : Byte) : List Byte := [22, 6, dialog, c, byte flow] ++ be 4 interval ++ be 4 len ++ be 8 target.toNat
    let ask := Instr.twtSetupRequest sta dialog flow interval ⟨len, target⟩ restricted
    BuilminDoes ask
      (fun s => kget s.mac.sta sta = some x ∧ allowed s ∧
        (khas s.mac.twt (8 * sta + flow) = true ∨ s.mac.twt.length < 2048 ∧ (s.mac.twt.filter fun p => p.1 / 8 == sta.val).length < 8))
      (fun s => sendAction sta (resp 4) (withMac (fun m => { m with
        twt := kset m.twt (8 * sta + flow) { bss := b, interval := interval, len := len, restricted := restricted, next := target.toNat } }) s)) ∧
    BuilminDoes ask (fun s => kget s.mac.sta sta = some x ∧ ¬ allowed s) (fun s => sendAction sta (resp 7) s)) ∧
  (∀ (sta : Fin 1024) trans, BuilminDoes (.saQuery sta trans) (fun s => khas s.mac.sta sta = true) (sendAction sta ([8, 1] ++ be 2 trans.toNat))) ∧
  -- A TBTT takes a waiting MAC_SET_BSS or MAC_SET_BEACON first.
  (∀ b : Fin 48,
    let new (s : State) : Prop := atTbtt b s = true ∧ ownBeacons b (applyNext b s) = true ∧ atTbtt b (applyNext b s) = true ∧
      tbttServed b (applyNext b s) = false
    Does (.tbtt b ()) (fun s => atTbtt b s = false) id ∧
    Does (.tbtt b ()) (fun s => atTbtt b s = true ∧ (ownBeacons b (applyNext b s) = false ∨ atTbtt b (applyNext b s) = false)) (applyNext b) ∧
    Does (.tbtt b ())
      (fun s => atTbtt b s = true ∧ ownBeacons b (applyNext b s) = true ∧ atTbtt b (applyNext b s) = true ∧
        ∃ t, (vget (applyNext b s).mac.bss b).lastTbtt = some t ∧ tsfOf b (applyNext b s) ≤ t)
      (fun s => let u := applyNext b s
        { u with time := { u.time with ctr := vadd u.time.ctr 9 1 } }) ∧
    Does (.tbtt b ())
      (fun s => new s ∧ (beaconClear (bssRadio b) (beaconDue b (applyNext b s)) = false ∨ lowerFirst b (beaconDue b (applyNext b s)) = true))
      (fun s => beaconDue b (applyNext b s)) ∧
    Does (.tbtt b ())
      (fun s => new s ∧ beaconClear (bssRadio b) (beaconDue b (applyNext b s)) = true ∧ lowerFirst b (beaconDue b (applyNext b s)) = false)
      (fun s => sendBeacon b (beaconDue b (applyNext b s)))) ∧
  (∀ (q : Fin 8192) t x,
    let g (s : State) : Nat := min (64000 + (vget s.mac.bss t.bss).drift * (tbTotal 2 s - (x.contactS * 10 ^ 9 + x.contactNs)) / 10 ^ 6) 8000000
    Does (.twtSpStart q) (fun s => kget s.mac.twt q = some t ∧ kget s.mac.sta (q.val / 8) = some x ∧ t.next ≤ tsfOf t.bss s) (fun s =>
      raiseSta (q.val / 8) s (macCount (bssRadio t.bss) (if t.len * 1000 ≤ 2 * g s then 21 else 20) 1
        (withMac (fun m => { m with twt := kset m.twt q { t with next := t.next + t.interval } })
          (withSta (q.val / 8) (fun x => { x with sp := some { bss := t.bss, start := t.next, len := t.len, guard := g s } }) s)))) ∧
    Does (.twtSpStart q) (fun s => kget s.mac.twt q = some t ∧ tsfOf t.bss s < t.next) id) ∧
  (∀ r : Radio, let n := rnum r
    (∀ i, Does (.bcnDeferred r)
      (fun s => ((List.range 16).find? fun i => (vget s.mac.bss (16 * n + i)).bcnDue && ownBeacons (16 * n + i) s) = some i ∧
        beaconClear n s = true)
      (fun s => macCount n 16 1 (sendBeacon (16 * n + i) s))) ∧
    Does (.bcnDeferred r) (fun s => beaconClear n s = false) id ∧
    (∀ u t, let missed (s : State) : State := macCount n 22 1 (withRm n (fun m => { m with
          uplink := some { u with misses := u.misses + 1, expect := some (t + u.interval * 1024) } }) s)
      let past (s : State) : Prop := (vget s.mac.radio n).uplink = some u ∧ u.expect = some t ∧ u.lost = false ∧ upWindowEnd u t s ≤ tsfNs u.bss s
      Does (.uplBeaconWindowEnd r) (fun s => (vget s.mac.radio n).uplink = some u ∧ u.expect = some t ∧ (u.lost = true ∨ tsfNs u.bss s < upWindowEnd u t s))
        id ∧
      Does (.uplBeaconWindowEnd r) (fun s => past s ∧ u.misses + 1 < u.lossCount) missed ∧
      Does (.uplBeaconWindowEnd r) (fun s => past s ∧ u.lossCount ≤ u.misses + 1) (fun s =>
        raise .beaconLost n (pad 6 u.bssid ++ [byte u.lossCount]) (unplaceSta u.sta (macCount n 23 1 (leaveFurrows u.sta 0xFF 3 (dropUplink n u.sta
          (withRm n (fun m => { m with uplink := some { u with
            misses := u.misses + 1, expect := some (t + u.interval * 1024), lost := true } }) (missed s)))))))))

/-- R14, R22 to R26, R121, R130, R153, R157 to R165, Tables 5.11, 7.5: received MPDUs, the end of a PPDU, and the response at its commit
point. An MPDU's result may come before the PPDU's end or after it (`old`). -/
def Obligations.ReceptionTakesEffect : Prop :=
  ∀ r : Radio, let n := rnum r
  -- MPDUs.
  (∀ m, Does (.mpduRx r m) (fun s => m.old = false ∧ (vget s.phy n).rx = none) id) ∧
  (∀ m, Does (.mpduRx r m) (fun s => m.old = true ∧ (vget s.phy n).tail = none) id) ∧
  (∀ m x, Does (.mpduRx r m) (fun s => m.old = true ∧ (vget s.phy n).tail = some x) (lateResult n x m)) ∧
  (∀ m x, Does (.mpduRx r m) (fun s => m.old = false ∧ (vget s.phy n).rx = some x ∧ m.overflow = true) (rxOverflow n x)) ∧
  (∀ m x, Does (.mpduRx r m)
    (fun s => m.old = false ∧ (vget s.phy n).rx = some x ∧ m.overflow = false ∧
      (x.valid = false ∨ x.skip = true ∨ x.users[m.user]? = none ∨ ∃ u, x.users[m.user]? = some u ∧ (u.bad = true ∨ userUnsup n x.fmt x.users u s = true)))
    id) ∧
  (∀ m x u, let taken (s : State) : Prop := m.old = false ∧ (vget s.phy n).rx = some x ∧ m.overflow = false ∧ x.valid = true ∧ x.skip = false ∧
      x.users[m.user]? = some u ∧ u.bad = false ∧ userUnsup n x.fmt x.users u s = false
    let inPsdu : Prop := 4 ≤ x.fmt → m.start < (if x.fmt = 4 then 4692480 else if x.fmt ≤ 8 then 6500631 else 15523198)
    let limit := if x.fmt ≤ 3 then 4095 else 11454
    let failed (k : Nat) (s : State) : State := withPhy n (fun p => { p with
      ctr := vadd p.ctr k 1, rx := some { x with bad := x.bad ++ [m.user], fcsBad := x.fcsBad || k == 10 } }) s
    Does (.mpduRx r m) (fun s => taken s ∧ ¬ inPsdu) (failed 14) ∧
    Does (.mpduRx r m) (fun s => taken s ∧ inPsdu ∧ m.len = 0) id ∧
    Does (.mpduRx r m) (fun s => taken s ∧ inPsdu ∧ 0 < m.len ∧ m.len < 14) (failed 12) ∧
    Does (.mpduRx r m) (fun s => taken s ∧ inPsdu ∧ limit < m.len) (failed 13) ∧
    Does (.mpduRx r m) (fun s => taken s ∧ inPsdu ∧ 14 ≤ m.len ∧ m.len ≤ limit ∧ m.fcsOk = false) (failed 10) ∧
    Does (.mpduRx r m) (fun s => taken s ∧ inPsdu ∧ 14 ≤ m.len ∧ m.len ≤ limit ∧ m.fcsOk = true)
      (withPhy n fun p => { p with ctr := vadd p.ctr 9 1, rx := some { x with got := x.got ++ [m] } })) ∧
  -- What an accepted RTS to another station does to the NAV.
  (∀ m x s, m.kind = .rts → m.dur ≠ 0 → bssOfAddr n m.ra s = none → senderOf n m.ta s = none → groupAddr m.ra = false → intraBss n m s = false →
    ((vget s.mac.radio n).navBasic = none ∨ (vget s.mac.radio n).navBasicEnd < s.now + m.dur * 500 →
      mpduGood n x s m = macCount n 18 1 (withRm n (fun y => { y with
        navBasic := some m.ta, navBasicEnd := s.now + m.dur * 500, navRts := some false }) s)) ∧
    ((vget s.mac.radio n).navBasic ≠ none → s.now + m.dur * 500 ≤ (vget s.mac.radio n).navBasicEnd → mpduGood n x s m = s)) ∧
  -- A PPDU's end.
  (∀ e, Does (.rxPpduEnd r e) (fun s => (vget s.phy n).rx = none) id) ∧
  (∀ e x, Does (.rxPpduEnd r e) (fun s => (vget s.phy n).rx = some x ∧ e.overflow = true) (rxOverflow n x)) ∧
  (∀ e x, Does (.rxPpduEnd r e) (fun s => (vget s.phy n).rx = some x ∧ e.overflow = false ∧ (x.valid = false ∨ s.now < x.endAt)) id) ∧
  (∀ e x, e.csi = [] →
    let y := { x with due := e.due, judged := false }
    let ended (s : State) : State := trigNext n (x.got.foldl (mpduGood n x) (withRm n (fun m => { m with agg := { tb := e.tb } })
      (withPhy n (fun p => { p with rx := none, tail := if e.due = 0 then none else some y })
        (withRm n (fun m => { m with trigFor := false, trigSeen := false })
          ((x.users.zip e.users).foldl (filterEvm n x.femGain) (phyCount n 11 e.delimErr (writeReports n x false e.users s)))))))
    let whole (s : State) : Prop := (vget s.phy n).rx = some x ∧ x.valid = true ∧ x.skip = false ∧ e.overflow = false ∧ x.endAt ≤ s.now
    let asked (s : State) : Prop := (vget (ended s).mac.radio n).agg.resp ≠ 0 ∨ e.asks ≠ 0
    let owing (s : State) : State := noteEifs n y (withFe n (fun e => { e with owesResp := true }) (withRm n (fun m => { m with
      commit := some (s.now + commitNs n x / 2), stands := x.ba, respRate := if x.fmt = 0 then 8 else 4, respDone := none }) (ended s)))
    Does (.rxPpduEnd r e) (fun s => whole s ∧ asked s ∧ e.due ≠ 0) (fun s => coexUpdate n (owing s)) ∧
    Does (.rxPpduEnd r e) (fun s => whole s ∧ asked s ∧ e.due = 0) (fun s => closePpdu n y (owing s)) ∧
    Does (.rxPpduEnd r e) (fun s => whole s ∧ ¬ asked s ∧ e.due ≠ 0) (fun s => coexUpdate n (noteEifs n y (ended s))) ∧
    Does (.rxPpduEnd r e) (fun s => whole s ∧ ¬ asked s ∧ e.due = 0) (fun s => closePpdu n y (noteEifs n y (ended s)))) ∧
  -- The commit point.
  (∀ c, Does (.responderComplete r ()) (fun s => (vget s.mac.radio n).commit = some c) (fun s =>
    withRm n (fun m => { m with respDone := some (2 * (c - s.now)) }) s)) ∧
  Does (.responderComplete r ()) (fun s => (vget s.mac.radio n).commit = none) id ∧
  (let passed (s : State) : State := withRm n (fun m => { m with commit := none, respDone := none }) s
   let due (s : State) : Prop := (∃ c, (vget s.mac.radio n).commit = some c ∧ c ≤ s.now) ∧ ∀ x, (vget s.phy n).tail = some x → x.judged = true
   let stands (s : State) := (vget s.mac.radio n).stands
   let send (p : TxCur × State) : State := withRm n (fun m => { m with txNext := p.1 :: m.txNext }) p.2
   Does (.commitPoint r) (fun s => (vget s.mac.radio n).commit = none) id ∧
   (∀ c, Does (.commitPoint r) (fun s => (vget s.mac.radio n).commit = some c ∧ s.now < c) id) ∧
   (∀ k, Does (.commitPoint r) (fun s => due s ∧ (vget s.mac.radio n).agg.resp ≠ 0 ∧ (vget s.mac.radio n).respDone = some k) (fun s =>
     send (responsePpdu n (stands s) (hlResponse n k false (passed s))))) ∧
   Does (.commitPoint r)
     (fun s => let m := vget s.mac.radio n
       due s ∧ m.respDone = none ∧ (m.agg.resp = 3 ∨ m.agg.resp = 4))
     (fun s => settle n (responseSent n (hlTrigger n none true (macCount n 25 1 (passed s))))) ∧
   Does (.commitPoint r)
     (fun s => let m := vget s.mac.radio n
       due s ∧ m.respDone = none ∧ m.agg.resp ≠ 0 ∧ m.agg.resp ≠ 3 ∧ m.agg.resp ≠ 4)
     (fun s => send (responsePpdu n (stands s) (hlResponse n 0 true (raisePartial n (macCount n 25 1 (passed s)))))) ∧
   Does (.commitPoint r) (fun s => due s ∧ (vget s.mac.radio n).agg.resp = 0 ∧ (vget s.phy n).tail = none)
     (fun s => settle n (responseSent n (passed s))))

/-- R160, R163: an incomplete MSDU is discarded 100 ms after its first fragment; held MPDUs are released up to the next gap. -/
def Obligations.ReassemblyTimeoutsTakeEffect : Prop :=
  ∀ q : Fin 8192,
  (∀ d, Does (.defragTimeout q) (fun s => kget s.mac.defrag q = some d) (fun s =>
    macCount d.frame.port 13 1 (withMac (fun x => { x with defrag := kdel x.defrag q }) s))) ∧
  Does (.defragTimeout q) (fun s => kget s.mac.defrag q = none) id ∧
  (∀ b sn f l, Does (.reorderTimeout q) (fun s => kget s.mac.ba q = some b ∧ b.held = (sn, f) :: l) (fun s =>
    macCount f.port 12 1 (releaseRun f.port q (advanceWin f.port q (gapLen b.seen 1024 b.start) s)))) ∧
  (∀ b, Does (.reorderTimeout q) (fun s => kget s.mac.ba q = some b ∧ b.held = []) id)

/-- R15, R94, R95, R98, R107, R131, R145 to R158, R205 to R208: backoff, a PPDU's start, underrun and end, CCA, the NAV, and lifetimes. -/
def Obligations.TransmissionTakesEffect : Prop :=
  ∀ r : Radio, let n := rnum r
  -- A PPDU starts: its kind is on the air, the radio is in TX, and the stamps are those of the launch instant.
  (∀ x u staged blanked s, live s = true → txReady n s = true → nextPpdu n s = some (x, u) → x.rts = false → x.users = [] →
    ((vget u.fe n).gnt = false ∨ kindProtected x.kind = true) →
    txRejected n x (withFe n (fun e => { e with withheld := e.withheld && kindProtected x.kind }) (takePpdu n u)) = false →
    Gives (.txPpduStart r true staged blanked) s fun t =>
      (vget t.fe n).state = .tx ∧ (∃ y, (vget t.fe n).tx = some y ∧ y.kind = x.kind ∧ y.users = []) ∧
      (vget t.mac.radio n).navRts = none ∧ (vget t.mac.radio n).eifs = false ∧ (vget t.phy n).rx = none) ∧
  (∀ f staged blanked, Does (.txPpduStart r f staged blanked) (fun s => txReady n s = false ∨ nextPpdu n s = none) id) ∧
  (∀ x u f staged blanked, Does (.txPpduStart r f staged blanked)
    (fun s => txReady n s = true ∧ nextPpdu n s = some (x, u) ∧
      (vget u.fe n).gnt = true ∧ kindProtected x.kind = false ∧ x.kind ≠ .control ∧ (vget u.fe n).withheld = false)
    (fun _ => feCount n 10 (withFe n (fun e => { e with withheld := true }) u))) ∧
  (∀ x, Does (.txUnderrun r) (fun s => (vget s.fe n).tx = some x ∧ x.aborted = false) (fun s =>
    feCount n 1 (withFe n (fun e => { e with tx := some { x with aborted := true } }) s))) ∧
  Does (.txUnderrun r) (fun s => (vget s.fe n).tx = none) id ∧
  (∀ staged rl, Does (.txPpduEnd r ⟨staged, rl⟩) (fun s => (vget s.fe n).tx = none) id) ∧
  (∀ x staged rl,
    let out (s : State) : State := withFe n (fun e => { e with tx := none }) s
    let done (s : State) : State := if x.aborted then txFailed n .aborted x (out s) else txCompleted n x (measureTx n x rl (out s))
    let sent (s : State) : Prop := (vget s.fe n).tx = some x ∧ (vget s.fe n).state = .tx
    let toRx (s : State) : Prop := staysRx n (done s) = true ∨ mayGo n (vget (done s).fe n).ret (done s) = .rx
    Does (.txPpduEnd r ⟨staged, rl⟩) (fun s => sent s ∧ toRx s) (fun s =>
      settle n (turnToRx n staged (airEnds n (min 5 (vget s.fe n).rampDown) x.shape (done s)))) ∧
    Does (.txPpduEnd r ⟨staged, rl⟩) (fun s => sent s ∧ ¬ toRx s) (fun s =>
      settle n (withFe n (fun e => { e with trans := some (mayGo n (vget (done s).fe n).ret (done s)), locking := false })
        (airEnds n (vget s.fe n).rampDown x.shape (done s))))) ∧
  -- What the end of a completed PPDU does, by its kind.
  (∀ x s, let u := ndpSent n x s
    (x.sound = none → u = s) ∧
    (x.expects = false →
      (x.kind = .beacon → txCompleted n x s =
        (timBsss x.bss u).foldl (fun t i => withBss i (fun b => { b with dtimOpen := b.dtimCount == 0 }) t) u) ∧
      (x.kind = .response → txCompleted n x s = responseSent n u) ∧ (x.kind = .edca ∨ x.kind = .coord → txCompleted n x s = elementDone n true u)) ∧
    (x.expects = true → txCompleted n x s =
      withFe n (fun e => { e with awaits := true, owesResp := false }) (withRm n (fun m => { m with
        sent := some x, agg := {}, awaitTill := u.now + (extNs n x.fmt + respTimeout n x u) / 2 }) u))) ∧
  Does (.responseTimeout r)
    (fun s => (vget s.fe n).awaits = true ∧ (vget s.fe n).owesResp = false ∧ (vget s.mac.radio n).awaitTill ≤ s.now ∧ (vget s.phy n).rx = none ∧
      (vget s.phy n).tail = none)
    (fun s => settle n (exchangeFail n s)) ∧
  Does (.responseTimeout r) (fun s => (vget s.fe n).awaits = false) id ∧
  (∀ sub pw ppdu, Does (.ccaChange r sub pw ppdu) (fun s => sub.val < 2 ^ (vget s.fe n).bw) (fun s =>
    let m := vget s.mac.radio n
    let busy := if sub = (vget s.fe n).prim then decide (m.edPri ≤ pw) else decide (m.edSec ≤ pw) || (ppdu && decide (m.sdSec ≤ pw))
    coexUpdate n (withRm n (fun m => { m with
      energy := maskOf ((List.range 16).map fun i => if i = sub.val then busy else bit m.energy i)
      subAt := if bit m.energy sub && !busy then vset m.subAt sub s.now else m.subAt }) s))) ∧
  (∀ sub pw ppdu, Does (.ccaChange r sub pw ppdu) (fun s => 2 ^ (vget s.fe n).bw ≤ sub.val) id) ∧
  -- Backoff: a function whose slot has come counts down, and the highest at 0 wins.
  Does (.backoffSlot r () ()) (fun s => contends n s = false ∨ ccaBusy n s = true ∨ (vget s.fe n).txopHeld = true) id ∧
  (∀ a : Fin 4,
   let only (s : State) : Prop := contends n s = true ∧ ccaBusy n s = false ∧ (vget s.fe n).txopHeld = false ∧ (vget s.fe n).gnt = false ∧
     ∀ b < 4, (slotsPast n b s).isSome = decide (b = a.val)
   (∀ k j, Does (.backoffSlot r () ())
     (fun s => only s ∧ slotsPast n a s = some (j + 1) ∧ (vget (vget s.mac.radio n).bo a).counter = some (k + 2))
     (withRm n fun m => { m with bo := vmod m.bo a fun b => { b with counter := some (k + 1) } })) ∧
   (∀ j, Does (.backoffSlot r () ())
     (fun s => only s ∧ slotsPast n a s = some (j + 1) ∧ (vget (vget s.mac.radio n).bo a).counter = some 1)
     (fun s => txopWin n a (idleSubs n s) (withRm n (fun m => { m with bo := vmod m.bo a fun b => { b with counter := some 0 } }) s))) ∧
   Does (.backoffSlot r () ())
     (fun s => only s ∧ slotsPast n a s = some 0 ∧ (vget (vget s.mac.radio n).bo a).counter = some 0)
     (fun s => txopWin n a (idleSubs n s) s)) ∧
  (Does (.navRtsTimeout r) (fun s => (vget s.mac.radio n).navRts = some true) (fun s =>
    idleUpdate n (withRm n (fun m => { m with navIntra := none, navRts := none }) s))) ∧
  (Does (.navRtsTimeout r) (fun s => (vget s.mac.radio n).navRts = some false) (fun s =>
    idleUpdate n (withRm n (fun m => { m with navBasic := none, navRts := none }) s))) ∧
  Does (.navExpiry r true) (fun s => (vget s.mac.radio n).navIntraEnd ≤ s.now) (fun s => idleUpdate n (withRm n (fun m => { m with navIntra := none }) s)) ∧
  Does (.navExpiry r false) (fun s => (vget s.mac.radio n).navBasicEnd ≤ s.now) (fun s => idleUpdate n (withRm n (fun m => { m with navBasic := none }) s)) ∧
  Does (.furrowLateWindow r)
    (fun s => let k := vget s.sched.radio n
      k.lateFrom + 500000000 ≤ s.now ∧ k.lateAlarm * k.won < k.fell * 1000 ∧ ∀ t, k.lateAt = some t → t + 5000000000 ≤ s.now)
    (fun s => let k := vget s.sched.radio n
      raise .furrowLate n (le 4 k.fell ++ le 4 k.won) (withRs n (fun k => { k with won := 0, fell := 0, lateFrom := s.now, lateAt := some s.now }) s)) ∧
  Does (.furrowLateWindow r) (fun s => let k := vget s.sched.radio n
      k.lateFrom + 500000000 ≤ s.now ∧ k.fell * 1000 ≤ k.lateAlarm * k.won)
    (fun s => withRs n (fun k => { k with won := 0, fell := 0, lateFrom := s.now }) s) ∧
  Does (.furrowLateWindow r) (fun s => s.now < (vget s.sched.radio n).lateFrom + 500000000) id

/-- R158, R186, R192, R203, R403: an MSDU's lifetime, a low-latency TID's urgency and deadline, and the end of an uplink hold. Times are
those of TB2. -/
def Obligations.LatencyEventsTakeEffect : Prop :=
  (∀ (q : Fin 8384) x f rest, q.val < 8192 → let n := q.val / 8; let tid := q.val % 8; let r := staRadio x tid
    let waits (s : State) : Prop := kget s.mac.sta n = some x ∧ tidQueue q s = f :: rest ∧
      ∀ i < 3, (vget s.sched.radio i).ready = none ∧ (vget s.sched.radio i).building = none
    let old (s : State) : Prop := f.enq + vget (vget s.mac.radio r).lifeMs (acOfTid tid) * 1000000 < tbTotal 2 s
    Does (.msduLifetimeExpiry q) (fun s => waits s ∧ old s ∧ x.held = false)
      (fun s => frameDone f .timeout [] (barDue q f (llMiss r n tid (cwLow r (acOfTid tid)
        (macCount r (if x.doze then 19 else 3) 1 (setTidQueue q rest s)))))) ∧
    Does (.msduLifetimeExpiry q) (fun s => waits s ∧ ¬ old s) id) ∧
  (∀ (q : Fin 8384) x, q.val < 8192 → let n := q.val / 8; let tid := q.val % 8
    ∀ i < 3, ∀ k, Does (.msduLifetimeExpiry q)
      (fun s => kget s.mac.sta n = some x ∧ (vget s.sched.radio i).ready = some k ∧ claimsTid n tid k = true ∧
        (∃ g ∈ furrowTid n tid (some k), g.lost = none ∧ outlived (staRadio x tid) (acOfTid tid) g s = true) ∧
        ∀ j < i, (vget s.sched.radio j).ready = none ∧ (vget s.sched.radio j).building = none)
      (withRs i fun y => { y with ready := some (markClaimed n tid 0 k) })) ∧
  (∀ (q : Fin 8384) f rest, 8192 ≤ q.val → let g := q.val - 8192; let r := bssRadio (g / 4)
    Does (.msduLifetimeExpiry q)
      (fun s => (vget s.mac.bss (g / 4)).held = false ∧ groupQueue g s = f :: rest ∧
        f.enq + vget (vget s.mac.radio r).lifeMs (g % 4) * 1000000 < tbTotal 2 s)
      (fun s => frameDone f .timeout [] (cwLow r (g % 4) (macCount r 3 1 (setGroupQueue g rest s))))) ∧
  (∀ (q : Fin 8192) x, let n := q.val / 8; let t := q.val % 8
    (∀ f l, Does (.llUrgent false q)
      (fun s => kget s.mac.sta n = some x ∧ vget x.tll t ≠ 0 ∧ tidQueue q s = f :: l ∧ f.enq + vget x.tll t * 50000 ≤ tbTotal 2 s)
      (withSched fun c => { c with urgent := kset c.urgent q f.enq })) ∧
    (∀ d, 0 < d → Does (.llUrgent true q)
      (fun s => kget s.mac.sta n = some x ∧ vget x.tll t ≠ 0 ∧ vget x.demand (acOfTid t) = some d ∧
        s.now < vget x.demandAt (acOfTid t) + (vget s.sched.radio (staRadio x t)).bsrMaxAge * 500000 ∧
        vget x.lastUlRu t + vget x.tll t * 50000 ≤ tbTotal 2 s)
      (withSta n fun x => { x with ulUrgent := maskOf ((List.range 8).map fun i => bit x.ulUrgent i || i == t) })) ∧
    (∀ up, Does (.llUrgent up q) (fun s => kget s.mac.sta n = some x ∧ vget x.tll t = 0) id) ∧
    Does (.llDeadline true q)
      (fun s => kget s.mac.sta n = some x ∧ bit x.ulUrgent t = true ∧ bit x.ulMissed t = false ∧ 0 < vget x.tll t ∧
        vget x.lastUlRu t + vget x.tll t * 100000 ≤ tbTotal 2 s)
      (fun s => schedCount (staRadio x t) 13 1 (withSta n (fun x => { x with
        ulMissed := maskOf ((List.range 8).map fun i => bit x.ulMissed i || i == t) }) s)) ∧
    Does (.llDeadline false q) (fun s => kget s.mac.sta n = some x) id) ∧
  (∀ (n : Fin 1024) x s, live s = true → kget s.mac.sta n = some x → Gives (.ulHoldEnd n) s fun t =>
    kget t.mac.sta n = some (if x.ulHold = true ∧ x.ulHoldTill ≤ s.now then { x with ulHold := false, ulPoll := true } else x) ∧
    (∀ m, m ≠ n.val → kget t.mac.sta m = kget s.mac.sta m) ∧ t = { s with mac := { s.mac with sta := t.mac.sta } }) ∧
  (∀ n : Fin 1024, Does (.ulHoldEnd n) (fun s => kget s.mac.sta n = none) id)

/-- R190 to R204, R240, R245 to R254, R441, Table 10.4: furrows, sounding feedback, channel records, reciprocity calibration and groups. -/
def Obligations.FurrowAndSoundingEventsTakeEffect : Prop :=
  ∀ r : Radio, let n := rnum r
  (∀ coord, BuilminDoes (.furrowBuildStart r coord 0 0)
    (fun s => partFenced (0x18 + n) s = false ∧ ((vget s.sched.radio n).building ≠ none ∨ (vget s.sched.radio n).ready ≠ none ∨ (vget s.fe n).state = .off))
    id) ∧
  (∀ pa b q, BuilminDoes (.furrowBuildStart r false 0 0)
    (fun s => let t := rebase n s
      partFenced (0x18 + n) s = false ∧ (vget s.sched.radio n).building = none ∧ (vget s.sched.radio n).ready = none ∧ (vget s.fe n).state ≠ .off ∧
        planAc (offers n t) (groupOffers n t) = some pa ∧ chooseBss n pa (offers n t) (groupOffers n t) t = some b ∧
        groupFirst n pa b (groupOffers n t) (ranked n pa b (offers n t) t) t = some q)
    (fun s => let t := rebase n s
      withRs n (fun k => { k with
        building := some (buildGroup n q t).1, number := k.number + 1
        zeroNext := if (vget t.mac.bss b).share = 0 then b - 16 * n + 1 else k.zeroNext }) (buildGroup n q t).2)) ∧
  (∀ ns f, BuilminDoes (.furrowReady r ns)
    (fun s => (vget s.sched.radio n).building = some f ∧ ∀ j ∈ s.sec.jobs, j.kind = .txAir → j.unit ≠ n)
    (fun s => hlDiscard n (bfCount n 9 f.pre.length
      (withRs n (fun k => { k with building := none, ready := some { f with build := ns }, discarded := false }) s)))) ∧
  (∀ ns, BuilminDoes (.furrowReady r ns) (fun s => (vget s.sched.radio n).building = none) id) ∧
  -- Sounding.
  (∀ (sta : Fin 1024) c ask, BuilminDoes (.soundingFeedback r sta (some c)) (fun s => kget (vget s.bf.radio n).sounded sta = some ask ∧
      c.ng = ask.1 ∧ c.rank ≤ ask.2 ∧ c.rows = min 8 (liveChains n s)) (fun s =>
    let b := vget s.bf.radio n
    let m := makeCsi n 0 c (kget (vget s.bf.explicit n) sta) b.ndpS b.ndpNs (withRb n (fun b => { b with sounded := kdel b.sounded sta }) s)
    bfCount n 2 1 (withSta sta (fun x => { x with rate := vmod x.rate n fun y => { y with sndFail := 0 } })
      (withBf (fun x => { x with explicit := vmod x.explicit n fun k => kset k sta m.1 }) m.2)))) ∧
  (∀ (sta : Fin 1024) fb ask, BuilminDoes (.soundingFeedback r sta fb) (fun s => kget (vget s.bf.radio n).sounded sta = some ask ∧
      ∀ c : CsiIn, fb = some c → c.ng ≠ ask.1 ∨ ask.2 < c.rank ∨ c.rows ≠ min 8 (liveChains n s)) (fun s =>
    bfCount n 3 1 (withSta sta (fun x => { x with rate := vmod x.rate n fun y =>
      if y.sndFail + 1 ≥ 2 then { y with sndFail := 0, sndHold := s.now + 250000000 } else { y with sndFail := y.sndFail + 1 } })
      (withRb n (fun b => { b with sounded := kdel b.sounded sta }) s)))) ∧
  (∀ (sta : Fin 1024) fb, BuilminDoes (.soundingFeedback r sta fb) (fun s => kget (vget s.bf.radio n).sounded sta = none) id) ∧
  -- Records.
  (∀ i c, Does (.csiExpired r 0 i)
    (fun s => kget (vget s.bf.explicit n) i = some c ∧ c.aged = false ∧ c.capS * 10 ^ 9 + c.capNs + csiAge n c s ≤ tbTotal 2 s)
    (fun s => bfCount n 8 1 (withBf (fun b => { b with explicit := vmod b.explicit n fun m => kmod m i fun c => { c with aged := true } }) s))) ∧
  (∀ i c, Does (.csiExpired r 1 i)
    (fun s => kget (vget s.bf.recip n) i = some c ∧ c.aged = false ∧ c.capS * 10 ^ 9 + c.capNs + csiAge n c s ≤ tbTotal 2 s)
    (fun s => bfCount n 8 1 (withBf (fun b => { b with recip := vmod b.recip n fun m => kmod m i fun c => { c with aged := true } }) s))) ∧
  (∀ i c, Does (.csiExpired r 2 i)
    (fun s => (vget s.bf.overheard n)[i]? = some c ∧ c.aged = false ∧ c.capS * 10 ^ 9 + c.capNs + csiAge n c s ≤ tbTotal 2 s)
    (fun s => bfCount n 8 1 (withBf (fun b => { b with overheard := vmod b.overheard n fun l => l.set i { c with aged := true } }) s))) ∧
  -- Reciprocity calibration.
  BuilminDoes (.recipCalRequest r) (fun s => (vget s.bf.radio n).endAt = none) id ∧
  (∀ t, BuilminDoes (.recipCalRequest r) (fun s => (vget s.bf.radio n).endAt = some t ∧ s.now < t + 25000000000) id) ∧
  (∀ t, BuilminDoes (.recipCalRequest r) (fun s => (vget s.bf.radio n).endAt = some t ∧ t + 25000000000 ≤ s.now ∧ s.now < t + 30000000000)
    (fun s => withRb n (fun b => { b with pending := b.reciprocity, pendAt := if b.pending then b.pendAt else s.now }) s)) ∧
  (∀ t, BuilminDoes (.recipCalRequest r) (fun s => (vget s.bf.radio n).endAt = some t ∧ t + 30000000000 ≤ s.now) (recipStale n)) ∧
  (let runs (s : State) : State := coexUpdate n (withRb n (fun b => { b with running := true, startAt := s.now, pending := false, forced := false }) s)
   Does (.recipCalStart r) (fun s => recipMayStart n s = true ∧ (vget s.fe n).txopHeld = false ∧ dueSoon n s = false) runs ∧
   Does (.recipCalStart r) (fun s => recipMayStart n s = false ∨ (vget s.fe n).txopHeld = true ∨ dueSoon n s = true) id ∧
   Does (.recalForced r)
     (fun s => recipMayStart n s = true ∧ ((vget s.bf.radio n).forced = true ∨ (vget s.bf.radio n).pendAt + 50000000 ≤ s.now))
     (fun s => bfCount n 5 1 (runs (giveUpTxop n s))) ∧
   Does (.recalForced r)
     (fun s => recipMayStart n s = false ∨ (vget s.bf.radio n).forced = false ∧ s.now < (vget s.bf.radio n).pendAt + 50000000) id) ∧
  (∀ loops, Does (.recipCalEnd r loops) (fun s => (vget s.bf.radio n).running = false) id) ∧
  (∀ loops, Does (.recipCalEnd r loops) (fun s => s.now < (vget s.bf.radio n).startAt + (if n = 0 then 30000 else 60000)) id) ∧
  (∀ loops, Does (.recipCalEnd r loops) (fun s => (vget s.bf.radio n).running = true ∧ (vget s.bf.radio n).cmds = [] ∧
      (vget s.bf.radio n).startAt + (if n = 0 then 30000 else 60000) ≤ s.now) (fun s =>
    let off := vget (vget s.bf.radio n).femRecip (segUse n (vget s.fe n))
    let act := chainList (chainMask n s)
    let corr := (List.range (min act.length loops.length)).map fun i =>
      (act.getD i 0, corrections (loops.getD i []) (Config.polar (vget off (act.getD i 0)).1 (vget off (act.getD i 0)).2))
    settle n (bfCount n 4 1 (strikeGroups n (·.recip) (withRb n (fun b => { b with
      running := false, stale := false, pending := false, endAt := some s.now, corr := corr, cmds := [] }) s))))) ∧
  -- Groups.
  (∀ b : Fin 48, BuilminDoes (.groupRebuild r b) (fun s => bssRadio b ≠ n ∨ (vget s.sched.radio n).muMimo = false ∨ rebuildDue n b s = false) id) ∧
  (∀ b : Fin 48, BuilminDoes (.groupRebuild r b)
    (fun s => bssRadio b = n ∧ (vget s.sched.radio n).muMimo = true ∧ rebuildDue n b s = true ∧ staOfBss b s = [])
    (fun s => let old := (vget s.bf.radio n).groups.filter fun p => p.2.bss != b.val
      bfCount n 11 0 (withRb n (fun x => { x with groups := old, groupAt := kset x.groupAt b s.now }) s)))

/-! The rope. -/

/-- R289, R290, Table 12.3: the checks of a received Kennar frame in their order. A frame that fails one is counted and discarded; one that
passes them all marks its counter as seen. -/
def Obligations.RopeFramesAreChecked : Prop :=
  ∀ f open_ fresh s,
  (s.rope.role = .none → knCheck f open_ fresh s = (false, s)) ∧
  (s.rope.role ≠ .none →
    (f.version ≠ 1 ∨ f.rope ≠ s.rope.id ∨ f.fits = false → knCheck f open_ fresh s = (false, ropeCount 2 1 s)) ∧
    (f.version = 1 → f.rope = s.rope.id → f.fits = true →
      (open_ = false → (memberOf f.src s).map (·.epoch) ≠ some f.epoch → knCheck f open_ fresh s = (false, ropeCount 3 1 s)) ∧
      ((open_ = true ∨ (memberOf f.src s).map (·.epoch) = some f.epoch) →
        (f.tagOk = false ∨ phaseKey f.phase s = false → knCheck f open_ fresh s = (false, ropeCount 4 1 (knKey f s))) ∧
        (f.tagOk = true → phaseKey f.phase s = true →
          let w := winOf f s
          (f.counter + 63 < w.high → knCheck f open_ fresh s = (false, ropeCount 5 1 (knKey f s))) ∧
          (w.high ≤ f.counter + 63 → f.counter ≤ w.high → f.counter ∈ w.seen → knCheck f open_ fresh s = (false, ropeCount 6 1 (knKey f s))) ∧
          (w.high ≤ f.counter + 63 → (w.high < f.counter ∨ f.counter ∉ w.seen) →
            knCheck f open_ fresh s = (fresh, ropeCount (if fresh then 1 else 5) 1
              (withRope (fun x => { x with win := kset x.win f.src (winAccept f.counter w) }) (knKey f s))))))))

/-- R291 to R311, Tables 12.4 to 12.10: what a rope frame that passes its checks does. -/
def Obligations.RopeFramesTakeEffect : Prop :=
  let any (i : KnFrame → Instr) := Hears i fun _ => false
  let atLead (i : KnFrame → Instr) := Hears i fun s => s.rope.role == .lead
  let joining (i : KnFrame → Instr) := Hears i fun s => s.rope.role == .joining
  -- Joining.
  atLead .joinReq
    (fun f s => s.rope.role = .lead ∧ (memberOf f.src s = none ∨ (∃ m, memberOf f.src s = some m ∧ m.pitch = 0xFFFF) ∧
      f.src.val ≠ s.rope.index ∧ ∀ t, kget s.rope.seenAt f.src = some t → t + 2621440000 ≤ s.now) ∧ f.epoch ∉ (kget s.rope.epochs f.src).getD [])
    (fun f s =>
      let p := f.payload
      let nl := le 16 (draw 128 s).1.toNat
      let e : Member := { prio := u8 p 8, serial := be64 p 0, epoch := f.epoch, addr := slice p 28 6 }
      knUnicast 3 f.src ([0, 0] ++ be 2 s.rope.index ++ be 4 s.rope.term ++ be 4 s.rope.rosterVer ++ slice p 12 16 ++ nl)
        (withRope (fun x => { x with issued := kset x.issued f.src { nl := nl, at_ := s.now, entry := e } }) (draw 128 s).2)) ∧
  atLead .joinReq
    (fun f s => s.rope.role = .lead ∧ ∃ m, memberOf f.src s = some m ∧ m.serial ≠ be64 f.payload 0 ∧
      (f.src.val = s.rope.index ∨ ∃ t, kget s.rope.seenAt f.src = some t ∧ s.now < t + 2621440000))
    (fun f s =>
      knUnicast 3 f.src ([1, 0] ++ be 2 s.rope.index ++ be 4 s.rope.term ++ be 4 s.rope.rosterVer ++ slice f.payload 12 16 ++
        le 16 (draw 128 s).1.toNat) (ropeCount 12 1 (draw 128 s).2)) ∧
  atLead .joinReq (fun _ s => s.rope.role ≠ .lead) (fun _ s => s) ∧
  joining .joinAck (fun f s => s.rope.role = .joining ∧ slice f.payload 12 16 = s.rope.nm ∧ u8 f.payload 0 = 0)
    (fun f s => knUnicast 4 (be16 f.payload 2) (slice f.payload 28 16) (withRope (fun x => { x with
      accepted := true, leadIdx := be16 f.payload 2, term := be32 f.payload 4, rosterVer := be32 f.payload 8 }) s)) ∧
  joining .joinAck (fun f s => s.rope.role = .joining ∧ slice f.payload 12 16 = s.rope.nm ∧ u8 f.payload 0 = 1)
    (fun _ s => finishOpt s.rope.join .badParam [] (leaveRope s)) ∧
  joining .joinAck (fun f s => s.rope.role ≠ .joining ∨ slice f.payload 12 16 ≠ s.rope.nm) (fun _ s => s) ∧
  (∀ q : Issue, atLead .joinConfirm
    (fun f s => s.rope.role = .lead ∧ kget s.rope.issued f.src = some q ∧ q.nl = slice f.payload 0 16 ∧ s.now < q.at_ + 500000000 ∧
      q.entry.epoch = f.epoch ∧ ∀ m ∈ s.rope.roster, m.2.serial = q.entry.serial → m.1 = f.src.val)
    (fun f s => placePitches 0x0C (publish f.src { q.entry with lead := false } true (withRope (fun x => { x with
      issued := kdel x.issued f.src, seenAt := kset x.seenAt f.src s.now
      epochs := kset x.epochs f.src ((f.epoch :: (kget x.epochs f.src).getD []).take 16) }) s)))) ∧
  (∀ q : Issue, atLead .joinConfirm
    (fun f s => kget s.rope.issued f.src = some q ∧ (q.nl ≠ slice f.payload 0 16 ∨ q.at_ + 500000000 ≤ s.now ∨ q.entry.epoch ≠ f.epoch))
    (fun _ s => s)) ∧
  -- Leaving and the roster.
  any .leave (fun _ s => s.rope.role = .lead) (fun f s => removeMember f.src s) ∧
  any .leave (fun f s => s.rope.role = .member ∧ f.src.val = s.rope.leadIdx ∧ u8 f.payload 0 = 1 ∧ s.rope.succ.head? = some s.rope.index)
    (fun _ s => withRope (fun x => { x with handover := true }) s) ∧
  any .leave (fun f s => s.rope.role = .member ∧ f.src.val ≠ s.rope.leadIdx) (fun _ s => s) ∧
  any .rosterReq (fun _ s => s.rope.role = .lead ∧ s.rope.roster.length ≤ 60)
    (fun f s => knUnicast 7 f.src (be 4 s.rope.rosterVer ++ [0, 1, byte s.rope.roster.length, 0] ++
      (s.rope.roster.map fun m => entryBytes m.1 m.2 true).flatten) s) ∧
  any .rosterReq (fun _ s => s.rope.role ≠ .lead) (fun _ s => s) ∧
  let takes (f : KnFrame) (s : State) : Bool := s.rope.role == .joining || s.rope.role == .member && !s.rope.full && f.src.val == s.rope.leadIdx
  joining .roster (fun _ s => s.rope.role = .lead) (fun _ s => s) ∧
  (∀ f s, Accepted (takes f) f s →
    let t := heard (takes f) f s
    let entries := (List.range (u8 f.payload 6)).map fun k => slice f.payload (8 + 24 * k) 24
    t.rope.role = .member → t.rope.join = none → t.rope.rosterRx = [] → u8 f.payload 5 = 1 → Gives (.roster f) s fun v =>
      v.rope.rosterVer = be32 f.payload 0 ∧ v.rope.full = true ∧ v.rope.rosterAsk = false ∧ v.rope.rosterRx = [] ∧
      v.rope.roster = entries.foldl (fun (m : KMap Member) b =>
        if (readEntry b 0).2.1 then kset m (readEntry b 0).1 (readEntry b 0).2.2 else m) []) ∧
  -- Reports, neighbours and clients.
  any .report (fun _ s => s.rope.role ≠ .lead) (fun _ s => s) ∧
  any .report (fun _ s => s.rope.role = .lead) (fun f s =>
    let p := f.payload
    let b := u8 p 4
    let h := u8 p 5
    let o := 8 + 6 * b
    placePitches 0x0C (withRope (fun x => { x with
      reports := kset x.reports f.src {
        at_ := s.now, free := be16 p 0, busy := (u8 p 2, u8 p 3), own := (List.range b).map fun i => slice p (8 + 6 * i) 6
        heard := (List.range h).map fun i => (slice p (o + 8 * i) 6, i8 p (o + 8 * i + 6))
        direct := (List.range (u8 p 6)).map fun i => be16 p (o + 8 * h + 2 * i), startUp := bit (u8 p 7) 0 }
      seenAt := kset x.seenAt f.src s.now }) s)) ∧
  any .hello (fun _ _ => True) (fun f s => withRope (fun x => { x with hellos := kset x.hellos f.src (f.port.val, s.now) }) s) ∧
  (∀ f s, Accepted (fun _ => false) f s →
    let t := heard (fun _ => false) f s
    joined t = true → pitchOf f.src t = myPitch t → Gives (.clients f) s fun v =>
      ∃ c, kget v.rope.clients f.src = some c ∧ c.free = be16 f.payload 0 ∧ c.busy = (u8 f.payload 2, u8 f.payload 3) ∧
        (u8 f.payload 4 = 0 → c.own.length = u8 f.payload 6 ∧ c.heard.length = u8 f.payload 7)) ∧
  any .clients (fun f s => joined s = false ∨ pitchOf f.src s ≠ myPitch s) (fun _ s => s) ∧
  -- Time exchanges.
  any .tReq (fun _ s => joined s = true) (fun f s => withRope (fun x => { x with
    resp := x.resp ++ [{ dst := f.src, port := f.port, seq := be32 f.payload 0, t2 := (ropeStamp f s).toNat, at_ := s.now }] }) s) ∧
  any .tReq (fun _ s => joined s = false) (fun _ s => s) ∧
  (∀ (q raw x : Nat), any .tResp (fun f s => s.rope.treq = some (q, raw, x) ∧ (be32 f.payload 0 ≠ q ∨ s.rope.lost = true ∨ x + 5000000 ≤ s.now)) (fun _ s => s)) ∧
  (∀ (q raw x : Nat), let off (f : KnFrame) (s : State) : Int :=
      (((readTime16 f.payload 4 : Int) - ((raw : Int) + vget s.time.asymOut f.port)) - (ropeStamp f s - readTime16 f.payload 16)) / 2
    let del (f : KnFrame) (s : State) : Int :=
      ((ropeStamp f s - ((raw : Int) + vget s.time.asymOut f.port)) - ((readTime16 f.payload 16 : Int) - readTime16 f.payload 4)) / 2
    any .tResp
      (fun f s => s.rope.treq = some (q, raw, x) ∧ be32 f.payload 0 = q ∧ s.rope.lost = false ∧ s.now < x + 5000000 ∧ 6553600000 < (off f s).natAbs)
      (fun f s => withRope (fun x => { x with stepDue := some (off f s), stepSlot := slotNow s }) (ropeCount 14 1 (withRope (fun x => { x with
        treq := none, exch := ((off f s, del f s) :: x.exch).take 16, exchPort := f.port, goodAt := s.now, lostRun := 0 }) s))) ∧
    any .tResp
      (fun f s => s.rope.treq = some (q, raw, x) ∧ be32 f.payload 0 = q ∧ s.rope.lost = false ∧ s.now < x + 5000000 ∧ (off f s).natAbs ≤ 6553600000)
      (fun f s =>
        let t := ropeCount 14 1 (withRope (fun x => { x with
          treq := none, exch := ((off f s, del f s) :: x.exch).take 16, exchPort := f.port, goodAt := s.now, lostRun := 0 }) s)
        withTb (ropeTb s) (fun b => committed s.now { b with inc := (servoInc t).1 })
          (withRope (fun x => { x with servoLeft := 4 }) (servoInc t).2))) ∧
  -- Proposals and plans.
  any .proposal (fun f s => isAnchor s = false ∨ pitchOf f.src s ≠ myPitch s) (fun _ s => s) ∧
  any .proposal
    (fun f s => isAnchor s = true ∧ pitchOf f.src s = myPitch s ∧
      ((((readProp f.src f.payload).slot - 2) * 4096000 + 3072000 : Nat) : Int) ≤ ropeStamp f s / 65536)
    (fun _ s => ropeCount 18 1 s) ∧
  any .proposal
    (fun f s => isAnchor s = true ∧ pitchOf f.src s = myPitch s ∧
      ropeStamp f s / 65536 < ((((readProp f.src f.payload).slot - 2) * 4096000 + 3072000 : Nat) : Int))
    (fun f s => keepProp (readProp f.src f.payload) s) ∧
  any .plan (fun f s => coordMode s = true ∧ anchorOf (myPitch s) s = some f.src.val ∧ (be64 f.payload 0 - 1) * 4096000 ≤ ropeNs s)
    (fun _ s => ropeCount 19 1 s) ∧
  (∀ f s, Accepted (fun _ => false) f s →
    let t := heard (fun _ => false) f s
    coordMode t = true → anchorOf (myPitch t) t = some f.src.val → ropeNs t < (be64 f.payload 0 - 1) * 4096000 → Gives (.plan f) s fun v =>
      v.rope.planned = be64 f.payload 0 ∧ be64 f.payload 0 ∈ v.rope.planSlots ∧
      ∀ r : Nat, r = 1 ∨ r = 2 → planPitch r f.payload t ∈ (vget v.sched.radio r).pitch) ∧
  any .plan (fun f s => coordMode s = false ∨ anchorOf (myPitch s) s ≠ some f.src.val) (fun _ s => s)

/-- R291, R300 to R304, Table 12.7: a belay at the lead, at a joining device and at a member. Its BELAY_NUM is checked unless the device is
joining and has not yet stepped its rope time. -/
def Obligations.BelaysTakeEffect : Prop :=
  (∀ s f, running s = true →
    let open_ := s.rope.role == .joining || s.rope.role == .lead || s.rope.role == .member && !s.rope.full && f.src.val == s.rope.leadIdx
    let c := knCheck f open_ (belayFresh f s) s
    (c.1 = false → exec (.belay f) s = .next c.2) ∧
    (c.1 = true →
      let t := c.2
      let wins := belayWins (be32 f.payload 8) (u8 f.payload 14) (be64 f.payload 16) t
      (t.rope.role = .lead → wins = false → exec (.belay f) s = .next t) ∧
      (t.rope.role = .lead → wins = true → Gives (.belay f) s fun v =>
        v.rope.role = .joining ∧ v.rope.epoch = t.rope.epoch ∧ v.rope.roster = [] ∧ v.rope.form = false) ∧
      (t.rope.role = .member → wins = false → (be32 f.payload 8 ≠ t.rope.term ∨ be16 f.payload 12 ≠ t.rope.leadIdx) → exec (.belay f) s = .next t) ∧
      (t.rope.role = .member ∨ t.rope.role = .joining → wins = true → Gives (.belay f) s fun v =>
        v.rope.lastBelay = be64 f.payload 0 ∧ v.rope.term = be32 f.payload 8 ∧ v.rope.leadIdx = be16 f.payload 12 ∧
        v.rope.leadPrio = u8 f.payload 14 ∧ v.rope.leadSerial = be64 f.payload 16 ∧ v.rope.heardBelay = true ∧
        (t.rope.role = .joining → v.rope.stepped = true)))) ∧
  (∀ f s, belayFresh f s = true ↔ (s.rope.role = .joining ∧ s.rope.stepped = false) ∨
    ((ropeNs s / 102400000 : Nat) : Int) - 1 ≤ be64 f.payload 0 ∧ (be64 f.payload 0 : Int) ≤ ((ropeNs s / 102400000 : Nat) : Int) + 1)

/-- R294 to R302, R305 to R317, Tables 12.10 to 12.13: what the rope's instants do. -/
def Obligations.RopeInstantsTakeEffect : Prop :=
  -- Belays.
  BuilminDoes .belaySend (fun s => s.rope.role = .lead ∧ belayNow (followSource s) ≠ s.rope.lastBelay) (fun s =>
    let t := followSource s
    let u := switchKey (belayNow t) t
    withRope (fun x => { x with lastBelay := belayNow t }) (knRope 1 (belayPayload (belayNow t) false u) u)) ∧
  BuilminDoes .belaySend (fun s => s.rope.role ≠ .lead ∧ takesOver (belayNow s) s = none) id ∧
  (∀ s pos, running s = true → s.rope.role ≠ .lead → takesOver (belayNow s) s = some pos → Gives .belaySend s fun t =>
    t.rope.role = .lead ∧ t.rope.term = s.rope.term + 1 ∧ t.rope.leadIdx = s.rope.index ∧ t.rope.lastBelay = belayNow s ∧ t.rope.lost = false) ∧
  BuilminDoes .belaySend (fun s => s.rope.role = .lead ∧ belayNow (followSource s) = s.rope.lastBelay) followSource ∧
  let closed (s : State) : Nat := (ropeNs s - s.rope.belayWait * 1000000) / 102400000
  BuilminDoes .belayWindowClose (fun s => s.rope.role ≠ .member ∨ closed s ≤ s.rope.winNum) id ∧
  BuilminDoes .belayWindowClose (fun s => s.rope.role = .member ∧ s.rope.winNum < closed s ∧ s.rope.inWindow = true)
    (fun s => withRope (fun x => { x with winNum := closed s, inWindow := false }) s) ∧
  BuilminDoes .belayWindowClose
    (fun s => s.rope.role = .member ∧ s.rope.winNum < closed s ∧ s.rope.inWindow = false ∧ (s.rope.misses < 2 ∨ s.rope.lost = true))
    (fun s => ropeCount 8 1 (withRope (fun x => { x with winNum := closed s, misses := x.misses + 1, good := 0 }) s)) ∧
  (∀ s, running s = true → s.rope.role = .member → s.rope.winNum < closed s → s.rope.inWindow = false → 2 ≤ s.rope.misses → s.rope.lost = false →
    Gives .belayWindowClose s fun t => t.rope.lost = true ∧ t.rope.misses = s.rope.misses + 1 ∧ t.rope.role = .member ∧
      vget t.rope.ctr 8 = vget s.rope.ctr 8 + 1 ∧ vget t.rope.ctr 9 = vget s.rope.ctr 9 + 1) ∧
  BuilminDoes .keyPhaseExpiry (fun s => s.rope.switchedAt + 8 ≤ ropeNs s / 102400000) (withRope fun x => { x with oldPhase := false }) ∧
  BuilminDoes .keyPhaseExpiry (fun s => ropeNs s / 102400000 < s.rope.switchedAt + 8) id ∧
  -- Joining, reports.
  BuilminDoes .joinReqSend (fun s => s.rope.role = .joining ∧ s.rope.accepted = false ∧ ∀ t, s.rope.joinReqAt = some t → t + 51200000 ≤ s.now) (fun s =>
    let nm := le 16 (draw 128 s).1.toNat
    knRope 2 (be 8 s.glb.serial.toNat ++ [byte s.rope.prio, 0, 0, 0] ++ nm ++ pad 6 (knAddr s))
      (withRope (fun x => { x with nm := nm, joinReqAt := some s.now }) (draw 128 s).2)) ∧
  BuilminDoes .joinReqSend (fun s => s.rope.role ≠ .joining ∨ s.rope.accepted = true ∨ ∃ t, s.rope.joinReqAt = some t ∧ s.now < t + 51200000) id ∧
  BuilminDoes .joinTimeout (fun s => s.rope.role = .joining ∧ s.rope.accepted = false ∧ s.rope.began + 512000000 ≤ s.now ∧ (s.rope.form = false ∨ s.rope.heardBelay = true)) (fun s =>
    finishOpt s.rope.join .timeout [] (leaveRope s)) ∧
  BuilminDoes .joinTimeout (fun s => s.rope.role ≠ .joining ∨ s.rope.accepted = true ∨ s.now < s.rope.began + 512000000) id ∧
  (∀ s, running s = true → s.rope.role = .joining → s.rope.form = true → s.rope.heardBelay = false → s.rope.began + 153600000 ≤ s.now → Gives .ropeForm s fun t =>
    t.rope.role = .lead ∧ t.rope.term = 1 ∧ t.rope.rosterVer = 1 ∧ t.rope.leadIdx = s.rope.index ∧ t.rope.join = none ∧
    ∃ m, t.rope.roster = [(s.rope.index, m)] ∧ m.lead = true ∧ m.serial = s.glb.serial.toNat) ∧
  BuilminDoes .ropeForm (fun s => s.rope.role ≠ .joining ∨ s.rope.form = false ∨ s.rope.heardBelay = true ∨
    s.now < s.rope.began + 153600000) id ∧
  (∀ i : Fin 1024, BuilminDoes (.memberTimeout i) (fun s => s.rope.role = .lead ∧ i.val ≠ s.rope.index ∧ (memberOf i s).isSome = true ∧
      ∀ t, kget s.rope.seenAt i = some t → t + 2621440000 ≤ s.now)
    (fun s => removeMember i (ropeCount 13 1 s))) ∧
  (∀ i : Fin 1024, BuilminDoes (.memberTimeout i) (fun s => s.rope.role ≠ .lead ∨ i.val = s.rope.index ∨
    ∃ t, kget s.rope.seenAt i = some t ∧ s.now < t + 2621440000) id) ∧
  let due (last : Option Nat) (s : State) : Prop := ∀ t, last = some t → t + 524288000 ≤ s.now
  (∀ b c h, BuilminDoes (.reportSend b c h) (fun s => s.rope.role = .lead ∧ due s.rope.reportAt s) (fun s => withRope (fun x => { x with
    reportAt := some s.now, reports := kset x.reports x.index {
      at_ := s.now, free := freeStas s, busy := (b, c), heard := h.take 64, direct := directNow s, startUp := s.life.mode == .startUp
      own := ((List.range 48).filter fun b => (vget s.mac.bss b).en).map fun b => (vget s.mac.bss b).bssid } }) s)) ∧
  (∀ b c h, BuilminDoes (.reportSend b c h) (fun s => joined s = false ∨ ∃ t, s.rope.reportAt = some t ∧ s.now < t + 524288000) id) ∧
  BuilminDoes .helloSend (fun s => joined s = true ∧ due s.rope.helloAt s) (fun s =>
    (knPorts s).foldl (fun t p => knSendOn (2 ^ p) 9 0x3FF 3 ([byte p] ++ le 7 0) t) (withRope (fun x => { x with helloAt := some s.now }) s)) ∧
  BuilminDoes .helloSend (fun s => joined s = false ∨ ∃ t, s.rope.helloAt = some t ∧ s.now < t + 524288000) id ∧
  (∀ b c, BuilminDoes (.clientsSend b c) (fun s => joined s = false ∨ myPitch s = 0xFFFF) id) ∧
  (∀ b c, BuilminDoes (.clientsSend b c) (fun s => joined s = true ∧ myPitch s ≠ 0xFFFF ∧ ownClients s = [] ∧ heardClients s = [] ∧ clientsDue s = true)
    (fun s => knPitch 10 (be 2 (freeStas s) ++ [byte b, byte c, 0, 1, 0, 0])
      (withRope (fun x => { x with clientsAt := some (s.now, slotNow s), told := [] }) s))) ∧
  (∀ b c, BuilminDoes (.clientsSend b c) (fun s => ∃ t, s.rope.clientsAt = some (t, slotNow s)) id) ∧
  -- Rope time.
  BuilminDoes .tReqSend (fun s => slotNow s % 4 ≠ s.rope.index % 4) id ∧
  (∀ p, BuilminDoes .tReqSend (fun s => s.rope.lost = false ∧ timeParent s = some p ∧ slotNow s % 4 = s.rope.index % 4 ∧
      s.rope.treqSlot ≠ some (slotNow s)) (fun s =>
    knUnicast 13 p (be 4 s.rope.treqSeq ++ be 4 0) (withRope (fun x => { x with
      treqSeq := (s.rope.treqSeq + 1) % 2 ^ 32, treqSlot := some (slotNow s)
      treq := some (s.rope.treqSeq, (stamp16 (ropeTb s) 0 s).toNat, s.now) }) s))) ∧
  (∀ q l, BuilminDoes (.tRespSend true) (fun s => s.rope.resp = q :: l ∧ q.at_ + 50000 ≤ s.now) (fun s =>
    knUnicast 14 q.dst (be 4 q.seq ++ time16 q.t2 ++ time16 (q.t2 + 6553600000)) (withRope (fun x => { x with resp := l }) s))) ∧
  (∀ q l, BuilminDoes (.tRespSend false) (fun s => s.rope.resp = q :: l ∧ q.at_ + 50000 ≤ s.now) (fun s => ropeCount 16 1 (withRope (fun x => { x with resp := l }) s))) ∧
  let passed (s : State) : Prop := ∃ q raw t, s.rope.treq = some (q, raw, t) ∧ t + 5000000 ≤ s.now
  BuilminDoes .timeExchLost (fun s => ∀ q raw t, s.rope.treq = some (q, raw, t) → s.now < t + 5000000) id ∧
  BuilminDoes .timeExchLost (fun s => passed s ∧ s.rope.lostRun ≠ 3) (fun s =>
    ropeCount 15 1 (withRope (fun x => { x with treq := none, lostRun := x.lostRun + 1 }) s)) ∧
  BuilminDoes .timeExchLost (fun s => passed s ∧ s.rope.lostRun = 3) (fun s =>
    enterFreeRun (ropeTb s) 2 (ropeCount 15 1 (withRope (fun x => { x with treq := none, lostRun := 4 }) s))) ∧
  (∀ d, BuilminDoes .timeServoStep (fun s => s.rope.stepDue = some d ∧ slotNow s ≠ s.rope.stepSlot) (fun s =>
    stepTb (ropeTb s) d (withRope (fun x => { x with stepDue := none, exch := [], quiet := if s.rope.nowSlot = slotNow s then 2 else 3 }) s))) ∧
  BuilminDoes .timeServoStep (fun s => slotNow s = s.rope.stepSlot) id ∧
  -- Coordination slots.
  (∀ b c l, BuilminDoes (.proposalSend b c l) (fun s => coordMode s = true ∧ alignOk s = true ∧ isAnchor s = true ∧
      s.rope.propSlot ≠ some (slotNow s)) (fun s =>
    let m := slotNow s + 2
    let air (d : Nat) : Nat := if s.life.mode = .startUp ∨ s.life.mode = .test then 0 else d
    keepProp (readProp s.rope.index (propPayload m (air b) (air c) (serveIds l s) s))
      (withRope (fun x => { x with propSlot := some (slotNow s), serve := kset (x.serve.filter fun q => m ≤ q.1 + 2) m (serveIds l s) }) s))) ∧
  (∀ b c l, BuilminDoes (.proposalSend b c l) (fun s => coordMode s = false ∨ alignOk s = false ∨ s.rope.propSlot = some (slotNow s)) id) ∧
  BuilminDoes .proposalCutoff (fun s => ropeNs s % 4096000 < 3072000) id ∧
  BuilminDoes .proposalCutoff (fun s => coordMode s = true ∧ isAnchor s = true ∧ 3072000 ≤ ropeNs s % 4096000 ∧
      slotNow s + 2 ∉ s.rope.planSlots ∧ s.rope.merged = []) (fun s =>
    withRope (fun x => { x with merged := [(slotNow s + 2, mergePlan (slotNow s + 2) s)] }) s) ∧
  (∀ m p l, BuilminDoes .planSend (fun s => s.rope.merged = (m, p) :: l ∧ (coordMode s = false ∨ isAnchor s = false ∨ (m - 1) * 4096000 ≤ ropeNs s))
    (withRope fun x => { x with merged := l })) ∧
  (∀ m p l, BuilminDoes .planSend (fun s => s.rope.merged = (m, p) :: l ∧ coordMode s = true ∧ isAnchor s = true ∧ ropeNs s < (m - 1) * 4096000)
    (fun s => planAccept p (knPitch 12 p (withRope (fun x => { x with merged := l }) s)))) ∧
  BuilminDoes .coordSlotStart (fun s => joined s = false ∨ s.rope.role = .member ∧ slotNow s = s.rope.nowSlot) id ∧
  (∀ s, running s = true → s.rope.role = .member → s.rope.lost = false → myPitch s ≠ 0xFFFF → slotNow s ≠ s.rope.nowSlot →
    Gives .coordSlotStart s fun t => t.rope.nowSlot = slotNow s ∧ t.rope.quiet = s.rope.quiet - 1 ∧
      vget t.rope.ctr 20 = vget s.rope.ctr 20 + (if slotNow s + 1 ∈ s.rope.planSlots then 0 else 1) ∧
      ∀ r : Nat, r = 1 ∨ r = 2 → ∀ p ∈ (vget t.sched.radio r).pitch, slotNow s ≤ p.slot) ∧
  (∀ r : Radio, let n := rnum r
    (∀ v, BuilminDoes (.coordTxopStart r () v) (fun s => (vget s.sched.radio n).pitch = [] ∨ coordMode s = false ∨
      ∃ p rest, (vget s.sched.radio n).pitch = p :: rest ∧ ropeNs s < p.start + (p.txops.headD (0, 0, 0)).1) id) ∧
    (∀ v p rest f,
      let taken (s : State) : State := withRs n (fun k => { k with pitch := { p with txops := p.txops.drop 1 } :: rest }) s
      let ready (s : State) : Prop := (vget s.sched.radio n).pitch = p :: rest ∧ p.txops ≠ [] ∧ p.nulls = [] ∧ coordMode s = true ∧ alignOk s = true ∧
        (vget s.sched.radio n).ready = some f ∧ f.coord = true ∧ f.slot = some p.slot ∧ radioFree n s = true ∧
        p.start + (p.txops.headD (0, 0, 0)).1 ≤ ropeNs s ∧ precodersValid n f (taken s) = true ∧
        (vget s.fe n).cal = none ∧ (vget s.fe n).sw = none ∧ (vget s.fe n).trans = none ∧ (vget s.mac.radio n).survey = none ∧
        (vget s.bf.radio n).running = false
      let stays (s : State) : Furrow × State := leaveSp n f (withRope (fun x => { x with nullMiss := [] }) (taken s))
      BuilminDoes (.coordTxopStart r () v)
        (fun s => ready s ∧ pifsIdle n s = true ∧ (vget s.fe n).txopHeld = false ∧ (stays s).1.users ≠ [] ∧
          ((vget s.mac.radio n).navBasic = none ∧ (vget s.mac.radio n).navIntra = none ∨ v = true))
        (fun s => startFurrow n f.planAc (p.txops.headD (0, 0, 0)).2.1 (stays s).1 (ropeCount 21 1 (stays s).2)) ∧
      BuilminDoes (.coordTxopStart r () v) (fun s => ready s ∧ (pifsIdle n s = false ∨ (vget s.fe n).txopHeld = true))
        (fun s => skipTxop n p.slot (ropeCount 22 1 (taken s)))))

/-! Time bases. -/

/-- R319, R320, R322, R324, R325, R328 to R331, R339, Tables 13.3, 13.9: commits, captures, the master's loss and PPS. The commit events are
themselves the tick on which the write commits; a time base Builmin owns ignores the host's writes. -/
def Obligations.TimeBaseEventsTakeEffect : Prop :=
  (∀ n : Fin 4,
    let hosts (s : State) : Prop := tbRuns s = true ∧ (vget s.time.tb n).fwOwned = false
    let inc (v : Word) (s : State) : Nat := bits v.toNat 0 16 * 2 ^ 32 + (vget s.time.tb n).incLo.toNat
    let hi (v : Word) : State → State := withTb n fun t => { t with incHi := BitVec.ofNat 32 (bits v.toNat 0 16) }
    let per (v : Word) : Nat := bits v.toNat 0 24
    let dith (v : Word) : State → State := withTb n fun t => { t with dither := BitVec.ofNat 32 (put (bit v.toNat 31) 31 + per v) }
    -- SET and ADJ.
    (∀ v, AlwaysDoes (.tbCmdSet n v) (fun s => hosts s ∧ bit v.toNat 0 = true ∧ bit v.toNat 1 = false ∧ (vget s.time.tb n).setNs.toNat < 10 ^ 9)
      (fun s => rejudge n (timeCount 5 1 (withTb n (fun _ =>
        committed (s.now + 1) (tbAt (setValue (vget s.time.tb n)) (tickDither (vget s.time.tb n)))) (tickBut n s))))) ∧
    (∀ v, AlwaysDoes (.tbCmdSet n v) (fun s => hosts s ∧ bit v.toNat 0 = true ∧ 10 ^ 9 ≤ (vget s.time.tb n).setNs.toNat)
      (fun s => timeCount 7 (if bit v.toNat 1 then 2 else 1) (withTb n (fun t => { t with
        setInv := true, adjInv := t.adjInv || bit v.toNat 1 }) (tick s)))) ∧
    (∀ v, AlwaysDoes (.tbCmdSet n v) (fun s => tbRuns s = false ∨ (vget s.time.tb n).fwOwned = true) id) ∧
    (∀ v u, AlwaysDoes (.tbCmdAdj n v)
      (fun s => hosts s ∧ bit v.toNat 0 = false ∧ bit v.toNat 1 = true ∧ adjusted (vget (tick s).time.tb n) = some u)
      (fun s => rejudge n (timeCount 6 1 (withTb n (fun _ => committed (s.now + 1) u) (tick s))))) ∧
    (∀ v, AlwaysDoes (.tbCmdAdj n v)
      (fun s => hosts s ∧ bit v.toNat 0 = false ∧ bit v.toNat 1 = true ∧ adjusted (vget (tick s).time.tb n) = none)
      (fun s => timeCount 7 1 (withTb n (fun t => { t with adjInv := true }) (tick s)))) ∧
    (∀ v, AlwaysDoes (.tbCmdAdj n v) (fun s => (vget s.time.tb n).fwOwned = true) id) ∧
    -- INC and DITHER: the commit tick steps by the old ones.
    (∀ v, AlwaysDoes (.tbIncCommit n v) (fun s => hosts s ∧ 0x1FF00 ≤ inc v s ∧ inc v s ≤ 0x20100) (fun s =>
      withTb n (fun _ => committed (s.now + 1) { tickTb (vget (hi v s).time.tb n) with inc := inc v s }) (tick (hi v s)))) ∧
    (∀ v, AlwaysDoes (.tbIncCommit n v) (fun s => hosts s ∧ (inc v s < 0x1FF00 ∨ 0x20100 < inc v s)) (fun s =>
      timeCount 7 1 (withTb n (fun t => { t with incInv := true }) (tick (hi v s))))) ∧
    (∀ v, AlwaysDoes (.tbIncCommit n v) (fun s => (vget s.time.tb n).fwOwned = true) id) ∧
    (∀ v, AlwaysDoes (.tbDitherCommit n v) (fun s => hosts s ∧ per v ≠ 1) (fun s =>
      withTb n (fun _ => committed (s.now + 1) { tickTb (vget (dith v s).time.tb n) with
        dSub := bit v.toNat 31, dPeriod := per v, dCount := 0 }) (tick (dith v s)))) ∧
    (∀ v, AlwaysDoes (.tbDitherCommit n v) (fun s => hosts s ∧ per v = 1) (fun s =>
      timeCount 7 1 (withTb n (fun t => { t with incInv := true }) (tick (dith v s))))) ∧
    -- Reads, the largest value, the master.
    Does (.tbTimeRead n) (fun _ => True) (withTb n fun t => { t with snapS := t.sec, snapFrac := t.frac }) ∧
    AlwaysDoes (.tbSaturate n) (fun s => tbRuns s = true ∧ (tickTb (vget s.time.tb n)).sat = true) tick ∧
    Does (.tbMasterTimeout n)
      (fun s => let t := vget s.time.tb n
        t.role = .ptp ∧ t.timeout ≠ 0 ∧ t.freeRun = false ∧ max (t.last.getD 0) t.roleAt + t.timeout * 500000 ≤ s.now)
      (fun s => raise .tbFreeRun n [0, 0] (timeCount 8 1 (withTb n (fun t => { t with freeRun := true }) s))) ∧
    Does (.tbMasterTimeout n) (fun s => let t := vget s.time.tb n
      t.role ≠ .ptp ∨ t.timeout = 0 ∨ s.now < max (t.last.getD 0) t.roleAt + t.timeout * 500000) id) ∧
  (∀ v, Does (.tbCaptureGo v) (fun s => bit v.toNat 0 = true ∧ ∀ n : Fin 4, (vget s.time.tb n).ns < 10 ^ 9 ∧ (vget s.time.tb n).frac < 65536)
    (withTime fun t => { t with cap := t.tb.map fun b => (b.sec, b.ns, b.frac), capCount := (t.capCount + 1) % 65536 })) ∧
  (∀ v, Does (.tbCaptureGo v) (fun _ => bit v.toNat 0 = false) id) ∧
  -- PPS.
  Does .ppsInEdge (fun s => s.time.inEn = true ∧ ∀ t, s.time.inLast = some t → t + 250000000 ≤ s.now) (fun s =>
    timeCount 10 1 (withTime (fun t => { t with
      ppsCap := t.tb.map fun b => fields16 (tb16 b - t.inDelay * 65536), ppsCount := (t.ppsCount + 1) % 65536
      inLast := some s.now, ppsLost := false }) s)) ∧
  (∀ t, Does .ppsInEdge (fun s => s.time.inEn = true ∧ s.time.inLast = some t ∧ s.now < t + 250000000) (fun s =>
    timeCount 11 1 (withTime (fun t => { t with ppsEarly := true }) s))) ∧
  Does .ppsInEdge (fun s => s.time.inEn = false) id ∧
  let silent (s : State) : Prop := max (s.time.inLast.getD 0) s.time.inSince + 750000000 ≤ s.now
  Does .ppsInLost (fun s => s.time.inEn = true ∧ s.time.ppsLost = false ∧ silent s) (fun s =>
    raise .ppsInLost 0 [] (withTime (fun t => { t with ppsLost := true }) s)) ∧
  Does .ppsInLost (fun s => ¬ silent s) id ∧
  (∀ c, let waits (s : State) : Prop := s.time.outNext = some c ∧ s.time.riseNext = true
    let runs (s : State) : Prop := s.time.outNext = none ∧ s.time.rise = true ∧ s.time.out = c
    let takes (s : State) : State := withTime (fun t => { t with out := c, outNext := none, rise := false, riseNext := false }) s
    Does .ppsOutEdge (fun s => (waits s ∨ runs s) ∧ c.en = true) (fun s =>
      timeCount 12 1 (withTime (fun t => { t with ppsPin := true, riseAt := s.now, riseWidth := c.width }) (takes s))) ∧
    Does .ppsOutEdge (fun s => (waits s ∨ runs s) ∧ c.en = false) takes) ∧
  Does .ppsOutEdge (fun s => s.time.riseNext = false ∧ s.time.rise = false) id ∧
  Does .ppsOutFall (fun s => s.time.riseAt + s.time.riseWidth * 500 ≤ s.now ∨ nextRise s ≤ 100) (withTime fun t => { t with ppsPin := false }) ∧
  Does .ppsOutFall (fun s => s.now < s.time.riseAt + s.time.riseWidth * 500 ∧ 100 < nextRise s) id

/-- R321, R337, R338, R383, Table 4.6: launch-timed frames. `unit`: 0 and 1 are E0 and E1, 2 to 4 radios A to C. -/
def Obligations.LaunchesTakeEffect : Prop :=
  (∀ f n v s, f.launch = some (n, v) → v < 2 ^ 32 →
    (∀ unit, launchReached unit f s = true ↔ (v + 2 ^ 32 - (stampOut unit s).getD n 0 % 2 ^ 32) % 2 ^ 32 = 0 ∨
      2 ^ 31 ≤ (v + 2 ^ 32 - (stampOut unit s).getD n 0 % 2 ^ 32) % 2 ^ 32) ∧
    (isFuture f s = true ↔ 0 < (v + 2 ^ 32 - tbTotal n s % 2 ^ 32) % 2 ^ 32 ∧ (v + 2 ^ 32 - tbTotal n s % 2 ^ 32) % 2 ^ 32 < 2 ^ 31)) ∧
  (∀ (unit : Fin 5) f l,
    let judged (s : State) : Prop := launchQueue unit s = f :: l ∧ launchIsHeld unit s = false
    let held (s : State) : Prop := launchQueue unit s = f :: l ∧ launchIsHeld unit s = true ∧ launchReached unit f s = true
    let r := unit.val - 2
    Does (.launchInstant unit ()) (fun s => launchQueue unit s = f :: l ∧ launchReached unit f s = false) id ∧
    Does (.launchJudge unit) (fun s => judged s ∧ isFuture f s = true) (fun s => timeCount 0 1 (setHeld unit true s)) ∧
    Does (.launchJudge unit) (fun s => judged s ∧ isFuture f s = false ∧ f.lateSend = false) (fun s =>
      frameDone f .txLate [] (timeCount 3 1 (popLaunch unit s))) ∧
    Does (.launchJudge unit) (fun s => judged s ∧ isFuture f s = false ∧ f.lateSend = true ∧ unit.val < 2) (fun s =>
      timeCount 2 1 (withPort unit (fun p => { p with lateQ := p.lateQ ++ [f] }) (popLaunch unit s))) ∧
    Does (.launchJudge unit) (fun s => judged s ∧ isFuture f s = false ∧ f.lateSend = true ∧ 2 ≤ unit.val) (fun s =>
      timeCount 2 1 (withRm r (fun m => { m with lateQ := m.lateQ ++ [f] }) (popLaunch unit s))) ∧
    Does (.launchInstant unit ()) (fun s => held s ∧ unit.val < 2 ∧ portMisses (vget s.eth unit) f s.now = false) (fun s =>
      timeCount 1 1 (withPort unit (fun p => { p with
        dueQ := p.dueQ ++ [f], wireFree := s.now * 200 + (wireBytes f + 12) * byteTime p.speed }) (popLaunch unit s))) ∧
    Does (.launchInstant unit ()) (fun s => held s ∧ unit.val < 2 ∧ portMisses (vget s.eth unit) f s.now = true) (launchLate unit f) ∧
    (let free (s : State) : Prop := held s ∧ 2 ≤ unit.val ∧ radioWithheld r s = false ∧ pifsIdle r s = true ∧ (vget s.mac.radio r).navBasic = none ∧
        (vget s.mac.radio r).navIntra = none ∧ radioFree r s = true ∧ beaconAhead r s = false ∧ launchFree r f s = true
     (∀ g u, Does (.launchInstant unit ()) (fun s => free s ∧ numberLaunch r f s = some (g, u))
       (fun _ => timeCount 1 1 (withRm r (fun m => { m with txNext := m.txNext ++ [launchPpdu r g u] }) (popLaunch unit u)))) ∧
     Does (.launchInstant unit ()) (fun s => free s ∧ numberLaunch r f s = none)
       (fun s => frameDone f .keyExhausted [] (secCount 13 1 (popLaunch unit s)))) ∧
    Does (.launchInstant unit ())
      (fun s => held s ∧ 2 ≤ unit.val ∧ radioWithheld r s = false ∧
        (pifsIdle r s = false ∨ (vget s.mac.radio r).navBasic ≠ none ∨ (vget s.mac.radio r).navIntra ≠ none ∨ radioFree r s = false ∨
          beaconAhead r s = true ∨ launchFree r f s = false))
      (launchLate unit f) ∧
    Does (.launchInstant unit ()) (fun s => held s ∧ 2 ≤ unit.val ∧ radioWithheld r s = true) (fun s => launchLate unit f (feCount r 2 s))) ∧
  (∀ unit : Fin 5, Does (.launchJudge unit) (fun s => launchQueue unit s = []) id ∧ Does (.launchInstant unit ()) (fun s => launchQueue unit s = []) id)

/-! The Seeder, the router and the ports. -/

/-- R263 to R284, R474, Tables 11.1 to 11.8: evaluations, overload, forced re-placement, surveys and steering. -/
def Obligations.SeederEventsTakeEffect : Prop :=
  (∀ e, BuilminDoes (.seederEvaluation e) (fun s => s.life.mode = .startUp) id) ∧
  -- Evaluations fall on the grid counted from an object's first.
  (∀ e, BuilminDoes (.seederEvaluation e) (fun s => evalExists e s = false) id) ∧
  (∀ e, BuilminDoes (.seederEvaluation e) (fun s => ∃ t, kget s.seed.evalAt (placeKey (evalObject e).1 (evalObject e).2) = some t ∧
    (s.now - t) % evalPeriod (evalObject e).1 ≠ 0) id) ∧
  (∀ e, e ≠ .pitch → BuilminDoes (.seederEvaluation e)
    (fun s => s.life.mode ≠ .startUp ∧ evalExists e s = true ∧ kget s.seed.evalAt (placeKey (evalObject e).1 (evalObject e).2) = none)
    (fun s => let t := seedCount 0 1 (withSeed (fun x => { x with
        evalAt := kset x.evalAt (placeKey (evalObject e).1 (evalObject e).2) s.now }) (storeMeasure e s))
      match e with
      | .link n _ _ _ => linkRun n none t
      | .channel r _ => chanEvaluate (rnum r) t
      | .bank c ch _ _ _ => bankEvaluate (bankObject c ch) t
      | .lanes c _ => laneEvaluate c t
      | .pitch => t
      | .serving n => servingEvaluate n t)) ∧
  (∀ n a b c, BuilminDoes (.seederEvaluation (.link n a b c)) (fun s => s.life.mode ≠ .startUp ∧ evalDue 0 n s = true ∧
      ∃ x, kget s.mac.sta n = some x ∧ x.mld.isSome = true ∧ 2 ≤ popCount 3 x.links)
    (fun s => linkRun n none (decideOn 0 n (withSeed (fun x => { x with use3 := #v[a.val, b.val, c.val] }) s)))) ∧
  (∀ r l, BuilminDoes (.seederEvaluation (.channel r l)) (fun s => s.life.mode ≠ .startUp ∧ r ≠ .a ∧ evalDue 1 (rnum r) s = true ∧
      chanExcluded (rnum r) s = false ∧ bestChan (rnum r) (storeBusy l s) = none)
    (fun s => decideOn 1 (rnum r) (storeBusy l s))) ∧
  (∀ r l, BuilminDoes (.seederEvaluation (.channel r l))
    (fun s => s.life.mode ≠ .startUp ∧ r ≠ .a ∧ evalDue 1 (rnum r) s = true ∧ chanExcluded (rnum r) s = true)
    (fun s => chanForced (rnum r) (decideOn 1 (rnum r) (storeBusy l s)))) ∧
  (∀ (c : Fin 5) (ch : Fin 2) t k b, let o := bankObject c ch
    let heard (s : State) : State := decideOn 5 o (withSeed (fun x => { x with bankIn := kset x.bankIn o (t.val, k.val, b.val) }) s)
    let falls (s : State) : Prop := s.life.mode ≠ .startUp ∧ s.dram.ready = true ∧ evalDue 5 o s = true
    let worse (s : State) : Prop := falls s ∧ 100 < t.val ∧ 200 < k.val ∧ b.val ≠ 0 ∧ classMoves (o % 16) s = true ∧
      optOn 5 s = true ∧ placedAt 5 o s ≠ b.val ∧ (placeOf 5 o s).isSome = true
    BuilminDoes (.seederEvaluation (.bank c ch t k b)) (fun s => worse s ∧ inHold 5 o s = false) (fun s => place 5 2 0xFFFF o b false (heard s)) ∧
    BuilminDoes (.seederEvaluation (.bank c ch t k b)) (fun s => worse s ∧ inHold 5 o s = true) (fun s => seedCount 2 1 (heard s)) ∧
    BuilminDoes (.seederEvaluation (.bank c ch t k b)) (fun s => falls s ∧ (t.val ≤ 100 ∨ k.val ≤ 200)) heard) ∧
  (∀ (c : Fin 5) m, let v (s : State) : Nat := Nat.land m.toNat (ownLanes s)
    BuilminDoes (.seederEvaluation (.lanes c m))
      (fun s => s.life.mode ≠ .startUp ∧ evalDue 6 c s = true ∧ v s ≠ 0 ∧ placedAt 6 c s ≠ v s ∧ optOn 6 s = true ∧ (placeOf 6 c s).isSome = true ∧ inHold 6 c s = false)
      (fun s => place 6 2 0xFFFF c (v s) false (decideOn 6 c (withSeed (fun x => { x with laneIn := kset x.laneIn c.val m.toNat }) s)))) ∧
  (∀ n x, BuilminDoes (.seederEvaluation (.serving n))
    (fun s => s.life.mode ≠ .startUp ∧ kget s.mac.sta n = some x ∧ heardElsewhere n s = true ∧ evalDue 8 n s = true ∧
      (coordMode s = false ∨ optOn 8 s = false)) (decideOn 8 n)) ∧
  BuilminDoes (.seederEvaluation .pitch) (fun s => s.rope.role ≠ .lead) id ∧
  BuilminDoes (.seederEvaluation .pitch) (fun s => s.life.mode ≠ .startUp ∧ s.rope.role = .lead ∧ evalDue 7 0 s = true)
    (fun s => pitchEvaluate (pitchGrid s)) ∧
  -- Overload.
  (∀ d n rise l, BuilminDoes (.seederOverload d n rise l []) (fun _ => True) id) ∧
  (∀ d n rise l o, BuilminDoes (.seederOverload d n rise l o) (fun s => optOn (match d with | .queue => 2 | .cipher => 3 | .ring => 4) s = false) id) ∧
  (∀ n rise a b k w q, n = 0 ∨ n = 1 → let load := if n = 0 then [a, b] else [b, a]
    let hot (s : State) : Prop := optOn 2 s = true ∧ 850 < a ∧ b < 600 ∧ placedAt 2 k s = n ∧ entryTarget k s = some (true, q) ∧
      vget (vget s.router.pair q).member (1 - n) = true ∧ portUp (1 - n) s = true
    BuilminDoes (.seederOverload .queue (Fin.ofNat 64 n) rise load [(k, false, w)]) (fun s => hot s ∧ inHold 2 k s = false)
      (fun s => place 2 9 0xFFFF k (1 - n) false (seedCount 0 1 s)) ∧
    BuilminDoes (.seederOverload .queue (Fin.ofNat 64 n) rise load [(k, false, w)]) (fun s => hot s ∧ inHold 2 k s = true)
      (fun s => seedCount 2 1 (seedCount 0 1 s))) ∧
  -- Forced re-placement.
  (∀ f, BuilminDoes (.forcedReplacement f) (fun s => s.life.mode = .startUp) id) ∧
  (∀ r n, BuilminDoes (.forcedReplacement (.chains r)) (fun s => s.life.mode ≠ .startUp ∧ linkStas (rnum r) s = [n]) (fun s =>
    linkRun n (some (6, 0xFFFF)) (seedCount 0 1 s))) ∧
  (∀ r, BuilminDoes (.forcedReplacement (.channel r)) (fun s => s.life.mode ≠ .startUp) (chanForced (rnum r))) ∧
  BuilminDoes (.forcedReplacement .rope) (fun s => s.life.mode ≠ .startUp) (placePitches 0x0C) ∧
  (∀ g, BuilminDoes (.forcedReplacement (.cipher g)) (fun s => 5 ≤ groupCores g s) id) ∧
  (∀ p, BuilminDoes (.forcedReplacement (.portDown p)) (fun s => portUp p s = true) id) ∧
  -- Surveys and steering.
  (∀ r : Radio, let n := rnum r
    (∀ c bw prim, BuilminDoes (.surveyDwell r c bw prim)
      (fun s => let e := vget s.fe n
        r ≠ .a ∧ s.seed.surveyInt ≠ 0 ∧ optOn 1 s = true ∧ e.state = .rx ∧ quietRadio n s = true ∧ e.txopHeld = false ∧
          dueWithin 2100000 n s = false ∧
          (vget s.mac.radio n).survey = none ∧ fenceAllows n c bw prim s = some true ∧ (c, bw) ≠ (e.centre, e.bw) ∧ vget e.segValid (segOf n c) = true ∧
          (vget s.mac.radio n).surveyDone ≤ (s.now - (vget s.mac.radio n).surveyFrom) / (s.seed.surveyInt * 500000000))
      (fun s => withRm n (fun m => { m with survey := some c, surveyAt := s.now
                                            surveyDone := (s.now - m.surveyFrom) / (s.seed.surveyInt * 500000000) + 1 })
        (withFe n (fun e => { e with state := .cal }) s))) ∧
    (∀ c bw prim, BuilminDoes (.surveyDwell r c bw prim) (fun s => s.seed.surveyInt = 0 ∨ fenceAllows n c bw prim s ≠ some true ∨
      (s.now - (vget s.mac.radio n).surveyFrom) / (s.seed.surveyInt * 500000000) < (vget s.mac.radio n).surveyDone) id) ∧
    BuilminDoes (.surveySkip r) (fun s => r ≠ .a ∧ s.seed.surveyInt ≠ 0 ∧ optOn 1 s = true ∧
        (vget s.mac.radio n).surveyDone < (s.now - (vget s.mac.radio n).surveyFrom) / (s.seed.surveyInt * 500000000))
      (fun s => seedCount 8 1 (withRm n (fun m => { m with surveyDone := m.surveyDone + 1 }) s)) ∧
    (∀ l, BuilminDoes (.surveyDwellEnd r l) (fun s => (vget s.mac.radio n).survey ≠ none ∧ (vget s.mac.radio n).surveyAt + 1038000 ≤ s.now) (fun s =>
      withSeed (fun x => { x with busy := l.foldl (fun m q => kset m q.1 (q.2.val, s.now)) x.busy })
        (withRm n (fun m => { m with survey := none }) (withFe n (fun e => { e with state := .rx }) s)))) ∧
    (∀ l, BuilminDoes (.surveyDwellEnd r l) (fun s => (vget s.mac.radio n).survey = none ∨ s.now < (vget s.mac.radio n).surveyAt + 1038000) id)) ∧
  (∀ (n : Fin 1024) x c,
    let told (v : Nat) (s : State) : State :=
      withSeed (fun q => { q with place := kmod q.place (placeKey 8 n) fun p => { p with value := c + 2 ^ 16 * v } })
        (withSta n (fun x => { x with steerTo := none }) (seedCount 1 1 (logEntry 8 0x0B 0xFFFF n s.rope.index (c + 2 ^ 16 * v) s)))
    (∀ st, BuilminDoes (.steerResponse n st) (fun s => kget s.mac.sta n = some x ∧ x.steerTo = some c) (told st.toNat)) ∧
    BuilminDoes (.steerTimeout n) (fun s => kget s.mac.sta n = some x ∧ x.steerTo = some c ∧ ∀ t, x.steerAt = some t → t + 2500000000 ≤ s.now)
      (fun s => withSta n (fun x => { x with steerAt := none }) (told 0xFF s)) ∧
    (∀ t, BuilminDoes (.steerTimeout n) (fun s => kget s.mac.sta n = some x ∧ x.steerAt = some t ∧ s.now < t + 2500000000) id) ∧
    (∀ st, BuilminDoes (.steerResponse n st) (fun s => kget s.mac.sta n = some x ∧ x.steerTo = none) id))

/-- R340 to R368, R441, Tables 14.4, 14.12: classification, exceptions, the slow path for fragments, and ageing. -/
def Obligations.RouterEventsTakeEffect : Prop :=
  (∀ (pipe : Fin 8) mism bad rows, let k : Checks := { bad := bad, rows := rows }
    Does (.routerClassify pipe mism bad rows) (fun s => s.router.inq = []) id ∧
    (∀ f l, let taken (s : State) : State := withRouter (fun x => { x with inq := l }) s
      let counted (s : State) : State := rtCount 1 (etherBytes f).length (rtCount 0 1 (taken s))
      let goes (s : State) : Prop := s.router.inq = f :: l ∧ pipesOut s = false ∧ partFenced (0x10 + pipe) s = false ∧ mism = 0
      let parsed (s : State) : Except PErr Pkt := parsePkt s.router.vxlan s.router.gre (f.src != 0) (etherBytes f)
      Does (.routerClassify pipe mism bad rows) (fun s => s.router.inq = f :: l ∧ pipesOut s = true)
        (fun s => frameDone f .aborted [] (rtCount 16 1 (taken s))) ∧
      Does (.routerClassify pipe mism bad rows) (fun s => s.router.inq = f :: l ∧ pipesOut s = false ∧ partFenced (0x10 + pipe) s = true) id ∧
      Does (.routerClassify pipe mism bad rows) (fun s => s.router.inq = f :: l ∧ pipesOut s = false ∧ partFenced (0x10 + pipe) s = false ∧ mism = 2)
        (fun s => frameDone f .aborted [] (rtCount 16 1 (fencePart (0x10 + pipe) (relCount 0 1 (taken s))))) ∧
      (∀ n, Does (.routerClassify pipe mism bad rows) (fun s => goes s ∧ f.raw = true ∧ s.router.controlRing = some n)
        (fun s => frameArrived f (toRing n { f with ring := none, bytes := etherBytes f } (rtCount 2 1 (counted s))))) ∧
      Does (.routerClassify pipe mism bad rows) (fun s => goes s ∧ f.raw = true ∧ s.router.controlRing = none)
        (fun s => frameDone f .aborted [] (rtCount 18 1 (rtCount 2 1 (counted s)))) ∧
      Does (.routerClassify pipe mism bad rows) (fun s => goes s ∧ f.raw = false ∧ parsed s = .error .fail) (fun s => toException 1 f (counted s)) ∧
      Does (.routerClassify pipe mism bad rows) (fun s => goes s ∧ f.raw = false ∧ parsed s = .error .depth) (fun s => toException 2 f (counted s)) ∧
      (∀ p, Does (.routerClassify pipe mism bad rows)
        (fun s => let c := mkCtx f p (counted s)
          goes s ∧ f.raw = false ∧ parsed s = .ok p ∧ steerOf c (learn c (counted s)) = none ∧ p.fragHdr = none)
        (fun s =>
          let c := mkCtx f p (counted s)
          let d := classify k c (learn c (counted s))
          execute d.1 f p d.2)))) ∧
  -- The MP's part.
  BuilminDoes .exceptionDeliver (fun s => s.router.excq = []) id ∧
  (∀ e l n, BuilminDoes .exceptionDeliver (fun s => s.router.excq = e :: l ∧ s.router.excRing = some n) (fun s =>
    frameArrived e.frame (toRing n { e.frame with
      src := 2, raw := false, ring := none
      bytes := [byte e.reason, byte e.srcClass, 0, 0] ++ le 4 e.source ++ etherBytes e.frame } (withRouter (fun x => { x with excq := l }) s)))) ∧
  (∀ e l, BuilminDoes .exceptionDeliver (fun s => s.router.excq = e :: l ∧ s.router.excRing = none) (fun s =>
    frameDone e.frame .aborted [] (rtCount 18 1 (withRouter (fun x => { x with excq := l }) s)))) ∧
  (∀ bad rows, BuilminDoes (.fragmentSlowPath bad rows) (fun s => s.router.fragIn = []) id ∧
    ∀ f l h, let taken (s : State) : State := withRouter (fun x => { x with fragIn := l }) s
      let frag (s : State) : Prop := s.router.fragIn = f :: l ∧ (reparse f s).fragHdr = some h
      let key := fragKey (etherBytes f) h
      (∀ d, BuilminDoes (.fragmentSlowPath bad rows) (fun s => frag s ∧ (slowGet key s).bind (·.dec) = some d ∧ isLater h = true)
        (fun s => execute d f (reparse f s) (taken s))) ∧
      BuilminDoes (.fragmentSlowPath bad rows) (fun s => frag s ∧ (slowGet key s).bind (·.dec) = none ∧ isLater h = true)
        (fun s => slowHold key f (taken s)) ∧
      BuilminDoes (.fragmentSlowPath bad rows) (fun s => frag s ∧ isLater h = false)
        (fun s =>
          let d := classify { bad := bad, rows := rows } (mkCtx f (reparse f s) (taken s)) (taken s)
          slowDecide key d.1 (execute d.1 f (reparse f s) d.2))) ∧
  BuilminDoes .slowFragTimeout (fun s => ∀ d ∈ s.router.slow, d.dec ≠ none ∨ s.now < d.at_ + 1000000000) id ∧
  (∀ g, BuilminDoes .slowFragTimeout (fun s => s.router.slow.find? (slowDue s.now) = some g ∧ g.held = [])
    (withRouter fun x => { x with slow := x.slow.erase g })) ∧
  (∀ g f, BuilminDoes .slowFragTimeout (fun s => s.router.slow.find? (slowDue s.now) = some g ∧ g.held = [f]) (fun s =>
    frameDone f .aborted [] (rtCount 23 1 (withRouter (fun x => { x with slow := x.slow.erase g }) s)))) ∧
  -- Ageing.
  (let old (s : State) (p : Nat × Flow) : Prop := p.2.idle ≠ 0 ∧ p.2.hitAt + p.2.idle * 500000000 ≤ s.now
   let aged (s : State) : State := withRouter (fun x => { x with agedAt := some s.now }) s
   Does .flowAgeCheck (fun s => ∃ t, s.router.agedAt = some t ∧ s.now < t + 500000000) id ∧
   Does .flowAgeCheck (fun s => ageDue s = true ∧ ∀ p ∈ s.router.flows, ¬ old s p) aged ∧
   ∀ a b p, Does .flowAgeCheck (fun s => ageDue s = true ∧ s.router.flows = a ++ p :: b ∧ old s p ∧ (∀ q ∈ a, ¬ old s q) ∧ ∀ q ∈ b, ¬ old s q)
     (fun s => rtCount 13 1 (flowRemove p.1 (aged s)))) ∧
  (∀ (d : Fin 64) mac e, Does (.fdbAge d mac) (fun s => fdbGet d mac s = some e ∧ e.kind = 2 ∧ e.seen + s.router.fdbAge * 500000000 ≤ s.now)
    (fun s => rtCount 12 1 (withRouter (fun x => { x with fdb := x.fdb.filter fun e => !(e.domain == d.val && e.mac == mac) }) s))) ∧
  (∀ (d : Fin 64) mac e, Does (.fdbAge d mac) (fun s => fdbGet d mac s = some e ∧ (e.kind ≠ 2 ∨ s.now < e.seen + s.router.fdbAge * 500000000)) id)

/-- R371 to R386, Tables 15.1 to 15.7: frames in and out, PAUSE, the link, preemption and fallow stepping of a port. -/
def Obligations.PortEventsTakeEffect : Prop :=
  ∀ p : Fin 2,
  let x (s : State) : Port := port p s
  let cnt (i : Nat) : State → State := portCount p i 1
  let set (f : Port → Port) : State → State := withPort p f
  -- Reception (R376, Table 15.3).
  (∀ b ok ex fr er fec ut,
    let rx : Instr := .ethFrameRx p b ok ex fr er fec ut
    let t (s : State) : State := portCount p 22 fec (portCount p 16 fr s)
    let here (s : State) : Prop := (x s).up = true ∧ (x s).stepping = none
    Does rx (fun s => (x s).up = false ∨ (x s).stepping ≠ none) id ∧
    Does rx (fun s => here s ∧ er = 1) (fun s => cnt 17 (t s)) ∧
    Does rx (fun s => here s ∧ er = 2) (fun s => cnt 18 (t s)) ∧
    Does rx (fun s => here s ∧ er = 0 ∧ b.length < 64) (fun s => cnt 3 (t s)) ∧
    Does rx (fun s => here s ∧ er = 0 ∧ 64 ≤ b.length ∧ (x s).maxFrame + 4 * tagCount b < b.length) (fun s => cnt 4 (t s)) ∧
    Does rx (fun s => here s ∧ er = 0 ∧ 64 ≤ b.length ∧ b.length ≤ (x s).maxFrame + 4 * tagCount b ∧ ok = false) (fun s => cnt 2 (t s)) ∧
    (let body := b.take (b.length - 4)
     let et := be16 body 12
     let good (s : State) : Prop := here s ∧ er = 0 ∧ 64 ≤ b.length ∧ b.length ≤ (x s).maxFrame + 4 * tagCount b ∧ ok = true ∧
       et ≠ 0x8808 ∧ et ≠ 0x88B6
     let room (s : State) : Prop := bufferUse p s + ((x s).maxFrame + 4 * tagCount b) ≤ 131072 - (if ex then 0 else 16384)
     let f (s : State) : Frame := { bytes := body, src := 1, port := p, stamps := stampIn p s, arrived := s.now, express := ex }
     Does rx (fun s => good s ∧ ¬ room s) (fun s => cnt 6 (t s)) ∧
     Does rx (fun s => good s ∧ room s ∧ filterPass (x s) (slice body 0 6) = false) (fun s => cnt 5 (t s)) ∧
     Does rx (fun s => good s ∧ room s ∧ filterPass (x s) (slice body 0 6) = true ∧ ((vget s.sec.port p).en = false ∨ et = 0x888E))
       (fun s => toRouter (f s) (portCount p 1 b.length (portCount p 0 1 (t s)))) ∧
     Does rx (fun s => good s ∧ room s ∧ filterPass (x s) (slice body 0 6) = true ∧ (vget s.sec.port p).en = true ∧ et ≠ 0x888E ∧ et ≠ 0x88E5)
       (fun s => secCount 7 1 (t s)) ∧
     Does rx (fun s => good s ∧ room s ∧ filterPass (x s) (slice body 0 6) = true ∧ (vget s.sec.port p).en = true ∧ et = 0x88E5)
       (fun s => withSec (fun y => { y with jobs := y.jobs ++ [{ kind := .rxWire, unit := p, slot := none, frame := f s }] }) (t s)))) ∧
  -- PAUSE (R379).
  (∀ q, Does (.pauseRx p q) (fun s => (x s).up = true ∧ (x s).pauseEn = false) (cnt 7) ∧
    Does (.pauseRx p q) (fun s => (x s).up = true ∧ (x s).pauseEn = true ∧ (x s).pause = none ∧ q ≠ 0) (fun s =>
      set (fun y => { y with pause := some (s.now, q.toNat * 64 * byteTime y.speed / 100) }) (cnt 7 s)) ∧
    (∀ t n, Does (.pauseRx p q) (fun s => (x s).up = true ∧ (x s).pauseEn = true ∧ (x s).pause = some (t, n) ∧ q = 0) (fun s =>
      portCount p 13 (min n ((s.now - t) * 2)) (set (fun y => { y with pause := none }) (cnt 7 s))))) ∧
  (∀ t n, Does (.pauseEnd p) (fun s => (x s).pause = some (t, n) ∧ n ≤ (s.now - t) * 2) (fun s =>
    portCount p 13 n (set (fun y => { y with pause := none }) s))) ∧
  (∀ t n, Does (.pauseEnd p) (fun s => (x s).pause = some (t, n) ∧ (s.now - t) * 2 < n) id) ∧
  -- Transmission (R377, R380 to R383).
  (∀ fr q f, let sends (s : State) : Prop := (x s).up = true ∧ (x s).stepping = none ∧ nextFrame p s = some (q, f)
    Does (.ethFrameTx p fr) (fun s => sends s ∧ (x s).maxFrame + 4 * tagCount f.bytes < f.bytes.length + 4)
      (fun s => cnt 11 (frameDone f .badParam [] (set (takeFrame q) s))) ∧
    Does (.ethFrameTx p fr) (fun s => sends s ∧ f.bytes.length + 4 ≤ (x s).maxFrame + 4 * tagCount f.bytes ∧ (f.express = true ∨ (x s).preempt = false))
      (fun s => frameDone f .ok (stampOut p s) (portCount p 14 (if f.express then 1 else 0)
        (emit (.eth p (f.bytes ++ List.replicate (60 - f.bytes.length) 0)) (portCount p 10 (wireBytes f) (cnt 9
          (set (takeWire q f s.now) (set (takeFrame q) s)))))))) ∧
  -- The wire holds one frame at a time, and an express one in front of a preempted one.
  (∀ q f s, nextFrame p s = some (q, f) → q ≠ .due →
    (if f.express = true ∧ (x s).preempt = true then (x s).expBusy else (x s).wireBusy) ≤ s.now * 200 ∧ mayStart (x s) f s = true) ∧
  (∀ fr, Does (.ethFrameTx p fr) (fun s => (x s).up = false ∨ (x s).stepping ≠ none ∨ nextFrame p s = none) id) ∧
  (∀ f left, let adv (s : State) : Nat := (64 * (1 + (x s).addFrag) + 84) * byteTime (x s).speed
    Does (.launchWireHold p)
      (fun s => holdLeft (x s) s = some (f, left) ∧ (x s).up = true ∧ f.express = true ∧ (x s).preempt = true ∧ (x s).wireHold = false ∧ left * 100 ≤ adv s)
      (fun s => cnt 19 (set (fun y => { y with wireHold := true }) s)) ∧
    Does (.launchWireHold p) (fun s => holdLeft (x s) s = some (f, left) ∧ adv s < left * 100) id) ∧
  -- The link (R371 to R373).
  (∀ sp fec af v c, Does (.ethLinkUp p sp fec af) (fun s => (x s).up = false ∧ linkMode (x s) sp fec = some (v, c)) (fun s =>
    raise .ethLink p [1, byte v, byte c, 0] (set (fun y => { y with
      up := true, speed := v, fec := c, anDone := y.mode == 1, upAt := s.now, calmFrom := s.now, wireBusy := 0, expBusy := 0, preempt := false, verifies := 0, verifyDone := false
      addFrag := af.val }) s))) ∧
  (∀ sp fec af, Does (.ethLinkUp p sp fec af) (fun s => (x s).up = true) id) ∧
  (∀ c, Does (.ethLinkDown p c) (fun s => (x s).up = true ∧ portFrames (x s) = []) (fun s =>
    raise .ethLink p [0, 0, 0, byte c] (cnt 21 (portCount p 12 0 (set (fun y => { y with
      up := false, speed := 0, fec := 0, anDone := false, preempt := false, stepping := none, freq := none, capsAt := none
      fallow := y.fallow && (y.keepFallow || y.stepping.isNone), keepFallow := true
      dueQ := [], expQ := [], lateQ := [], launchQ := [], txQ := [], launchHeld := false, wireHold := false }) s))))) ∧
  (∀ c, Does (.ethLinkDown p c) (fun s => (x s).up = false) id) ∧
  -- Preemption (R380).
  (let due (s : State) : Prop := (x s).up = true ∧ (x s).preemptEn = true ∧ (x s).verifyDone = false ∧
     ((x s).verifies = 0 ∨ (x s).verifyAt + (x s).verifyTime * 500000 ≤ s.now)
   Does (.preemptVerify p) (fun s => due s ∧ (x s).verifies < 3) (fun s =>
     emit (.mpacket p false) (set (fun y => { y with verifies := y.verifies + 1, verifyAt := s.now }) s)) ∧
   Does (.preemptVerify p) (fun s => due s ∧ 3 ≤ (x s).verifies) (fun s => cnt 20 (set (fun y => { y with verifyDone := true }) s)) ∧
   Does (.preemptVerify p) (fun s => (x s).verifies ≠ 0 ∧ s.now < (x s).verifyAt + (x s).verifyTime * 500000) id) ∧
  Does (.respondMpacket p true) (fun s => (x s).up = true ∧ (x s).preemptEn = true ∧ 0 < (x s).verifies ∧ (x s).verifyDone = false)
    (set fun y => { y with preempt := true, verifyDone := true }) ∧
  Does (.respondMpacket p false) (fun s => (x s).up = true ∧ (x s).preemptEn = true) (emit (.mpacket p true)) ∧
  (∀ v, Does (.respondMpacket p v) (fun s => (x s).up = false ∨ (x s).preemptEn = false) id) ∧
  -- Fallow stepping (R384 to R386).
  (let fallowFrame (type target seq : Nat) (s : State) : State :=
     portCount p 10 64 (portCount p 9 1 (emit (.fallow p type (put (x s).fallow 0 + put (pitchTraffic p s) 1) target seq) s))
   let asks (target : Nat) (s : State) : State := fallowFrame 1 target (x s).fseq
     (set (fun y => { y with freq := some (y.fseq, target), freqAt := s.now, fseq := (y.fseq + 1) % 2 ^ 32 }) s)
   let mayAsk (s : State) : Prop := (x s).up = true ∧ (x s).mode = 1 ∧ bit (x s).anSpeeds 2 = true ∧ (x s).capsAt ≠ none ∧ (x s).freq = none ∧
     (x s).stepping = none
   Does (.capsSend p)
     (fun s => (x s).up = true ∧ mayStep (x s) = true ∧ (x s).stepping = none ∧ ∀ t, (x s).capsSent = some t → t + 500000000 ≤ s.now)
     (fun s => fallowFrame 0 0 0 (set (fun y => { y with capsSent := some s.now }) s)) ∧
   (∀ t, Does (.capsSend p) (fun s => (x s).capsSent = some t ∧ s.now < t + 500000000) id) ∧
   (∀ fl sn, Does (.caps p fl sn) (fun _ => True) (fun s =>
     set (fun y => { y with peer := sn.toNat, capsAt := if bit fl.toNat 0 then some s.now else y.capsAt }) s)) ∧
   (∀ t, Does (.fallowCapsTimeout p) (fun s => (x s).capsAt = some t ∧ t + 1500000000 ≤ s.now) (set fun y => { y with capsAt := none }) ∧
     Does (.fallowCapsTimeout p) (fun s => (x s).capsAt = some t ∧ s.now < t + 1500000000) id) ∧
   Does (.fallowDownTrigger p)
     (fun s => mayAsk s ∧ (x s).calmFrom + 15000000000 ≤ s.now ∧ (x s).fallow = true ∧ 1 < (x s).speed ∧ s.glb.serial.toNat < (x s).peer ∧ pitchTraffic p s = false)
     (fun s => asks ((x s).speed - 1) s) ∧
   Does (.fallowDownTrigger p) (fun s => s.now < (x s).calmFrom + 15000000000 ∨ (x s).fallow = false ∨ (x s).peer ≤ s.glb.serial.toNat ∨ pitchTraffic p s = true) id ∧
   Does (.fallowUpTrigger p) (fun s => mayAsk s ∧ (x s).fallow = true ∧ (x s).speed < 3) (fun s => asks ((x s).speed + 1) s) ∧
   Does (.fallowUpTrigger p) (fun s => 3 ≤ (x s).speed) id ∧
   (∀ (tg : Fin 4) sq ut, let hears (s : State) : Prop := (x s).up = true ∧ mayStep (x s) = true
     Does (.stepReq p tg sq ut)
       (fun s => hears s ∧ ((x s).stepping ≠ none ∨ tg.val < (x s).speed ∧ ((x s).fallow = false ∨ pitchTraffic p s = true ∨ 100 ≤ ut.val)))
       (fallowFrame 3 tg sq.toNat) ∧
     Does (.stepReq p tg sq ut)
       (fun s => hears s ∧ (x s).stepping = none ∧
         ((x s).speed ≤ tg.val ∨ (x s).fallow = true ∧ pitchTraffic p s = false ∧ ut.val < 100))
       (fun s => set (fun y => { y with stepping := some (y.speed, tg.val), freq := none }) (fallowFrame 2 tg sq.toNat s))) ∧
   (∀ sq tg, Does (.stepAck p sq) (fun s => (x s).freq = some (sq.toNat, tg) ∧ (x s).stepping = none)
     (set fun y => { y with stepping := some (y.speed, tg), freq := none })) ∧
   (∀ sq q tg, Does (.stepAck p sq) (fun s => (x s).freq = some (q, tg) ∧ q ≠ sq.toNat) id) ∧
   (∀ sq tg, Does (.stepNak p sq) (fun s => (x s).freq = some (sq.toNat, tg)) (set fun y => { y with freq := none })) ∧
   Does (.stepReqTimeout p) (fun s => (x s).freqAt + 5000000 ≤ s.now) (set fun y => { y with freq := none }) ∧
   Does (.stepReqTimeout p) (fun s => s.now < (x s).freqAt + 5000000) id ∧
   (∀ (fec : Fin 4) old new, Does (.ethFallow p fec)
     (fun s => (x s).stepping = some (old, new) ∧ (x s).keepFallow = true ∧ ((x s).upDue = false ∨ 3 ≤ new))
     (fun s => raise .ethFallow p [byte old, byte new] (cnt 23 (set (fun y => { y with
       speed := new, fec := fec, stepping := none, calmFrom := s.now, keepFallow := true, upDue := false }) s)))) ∧
   (∀ fec : Fin 4, Does (.ethFallow p fec) (fun s => (x s).stepping = none) id))

/-! Cipher engine, host rings, DRAM, reliability, wake receiver, registers. -/

/-- R167, R389, R394, R400, R402 to R407, R441: a frame on a core of the cipher engine, a key hold, an idle SAE context, and the generator's
health test. `rest` is what the end of a deletion that waited for the frame adds. -/
def Obligations.CipherEventsTakeEffect : Prop :=
  (∀ (core : Fin 160) j mism ok, let run : Instr := .cipherFrame core j mism ok
    let rest : State → State := deleteDone
    Does run (fun s => s.sec.jobs[j]? = none) id ∧
    (∀ x, let first (s : State) : Prop := s.sec.jobs[j]? = some x ∧ ∀ y ∈ s.sec.jobs.take j,
        y.kind = x.kind → y.unit = x.unit ∨ x.kind = .rxAir → y.slot ≠ x.slot
      let may (s : State) : Prop := first s ∧ coreServes core x.slot s = true
      let taken (s : State) : State := withSec (fun y => { y with jobs := y.jobs.take j ++ y.jobs.drop (j + 1) }) s
      Does run (fun s => s.sec.jobs[j]? = some x ∧ ((∃ y ∈ s.sec.jobs.take j,
        y.kind = x.kind ∧ (y.unit = x.unit ∨ x.kind = .rxAir) ∧ y.slot = x.slot) ∨ coreServes core x.slot s = false)) id ∧
      Does run (fun s => may s ∧ mism = 2) (fun s => fencePart (0x20 + core) (relCount 0 1 s)) ∧
      Does run (fun s => may s ∧ mism = 0 ∧ x.kind = .txAir ∧ x.frame.slot ≠ none) (fun s => rest (secCount 0 1 (taken s))) ∧
      Does run (fun s => may s ∧ mism = 1 ∧ x.kind = .txAir ∧ x.frame.slot ≠ none) (fun s => rest (secCount 0 1 (taken (relCount 0 1 s)))) ∧
      (∀ k ks, let f := x.frame
        let rx (s : State) : Prop := may s ∧ mism = 0 ∧ x.kind = .rxAir ∧ f.slot = some k ∧ kget s.sec.slots k = some ks
        let old := (kget ks.rxPn (pnCounter f)).getD 0
        let all := f.pns ++ [f.pn]
        let stale := ((List.range all.length).filter fun i => (old :: all.take i).any fun q => decide (all.getD i 0 ≤ q)).length
        let fresh : Prop := (stale = 0)
        let good (s : State) : State := deliverClear f (withSlot k (fun x => { x with rxPn := kset x.rxPn (pnCounter f) f.pn }) (secCount 1 1 (taken s)))
        let clear (s : State) : Prop := f.raw = true ∨ streamOf f s = none
        Does run (fun s => rx s ∧ clear s ∧ ok = true ∧ fresh) (fun s => rest (good s)) ∧
        Does run (fun s => rx s ∧ clear s ∧ ok = true ∧ ¬ fresh) (fun s => rest (macCount x.unit 11 stale (secCount 1 1 (taken s)))) ∧
        Does run (fun s => rx s ∧ clear s ∧ ok = false) (fun s => rest (secCount (if isBip ks.suite then 5 else 2) 1 (taken s))) ∧
        (∀ n len, let streams (s : State) : Prop := rx s ∧ f.raw = false ∧ streamOf f s = some (n, len)
          Does run (fun s => streams s ∧ ¬ fresh) (fun s => rest (macCount x.unit 11 stale (taken s))) ∧
          Does run (fun s => streams s ∧ fresh ∧ ok = true) (fun s => rest (good s)) ∧
          Does run (fun s => streams s ∧ fresh ∧ ok = false ∧ len ≤ f.bytes.length)
            (fun s => rest (toRing n { f with authFail := true } (secCount 4 1 (taken s)))) ∧
          Does run (fun s => streams s ∧ fresh ∧ ok = false ∧ f.bytes.length < len) (fun s => rest (secCount 2 1 (taken s))))) ∧
      Does run (fun s => may s ∧ mism = 0 ∧ x.kind = .rxWire ∧ (vget s.sec.port x.unit).en = true ∧ rxSa x.unit x.frame.bytes s = none)
        (fun s => rest (secCount 8 1 (taken s))) ∧
      Does run (fun s => may s ∧ mism = 0 ∧ x.kind = .txWire ∧ (vget s.sec.port x.unit).en = true ∧ activeSa x.unit s = none) id)) ∧
  (∀ p : Fin 2,
    Does (.keyHoldTimeout p) (fun s => (vget s.sec.port p).en = false) id ∧
    ∀ j, let held (s : State) : Prop := (vget s.sec.port p).en = true ∧ (∀ q, activeSa p s = some q → pnLeft q.2.slot s = 0) ∧
        (s.sec.jobs.find? fun j => j.kind == .txWire && j.unit == p.val) = some j
      Does (.keyHoldTimeout p) (fun s => held s ∧ s.now < max j.at_ (vget s.sec.port p).noKeyAt + 50000000) id ∧
      Does (.keyHoldTimeout p) (fun s => held s ∧ max j.at_ (vget s.sec.port p).noKeyAt + 50000000 ≤ s.now)
      (fun s => frameDone j.frame .keyExhausted [] (secCount 13 1 (withSec (fun x => { x with jobs := x.jobs.erase j }) s)))) ∧
  (∀ (i : Fin 64) x, Does (.saeContextTimeout i) (fun s => kget s.sec.sae i = some x ∧ x.usedAt + 1000000000 ≤ s.now)
      (withSec fun y => { y with sae := kdel y.sae i }) ∧
    Does (.saeContextTimeout i) (fun s => kget s.sec.sae i = some x ∧ s.now < x.usedAt + 1000000000) id) ∧
  Does .trngHealthFail (fun _ => True) (withSec fun x => { x with trngBad := true })

/-- R53 to R59, Tables 2.20 to 2.24: the host data rings. -/
def Obligations.HostRingsTakeEffect : Prop :=
  (∀ tx (n : Fin 64),
    let g (s : State) : Ring := ringOf tx n s
    let size (s : State) : Nat := 2 ^ (g s).sizeLog
    let breach (s : State) : Prop := size s < ((g s).prod - (g s).cons).toNat
    let halts (s t : State) : State :=
      let u := raise .hringError n [] (withRing tx n (fun x => { x with halted := true, errIndex := (g s).cons + BitVec.ofNat 16 (size s) }) t)
      if tx then u else dropPart n false u
    (∀ v, Does (.hringProdWrite tx n v) (fun s => (g s).halted = true ∨ (v - (g s).cons).toNat ≤ size s)
      (withRing tx n fun g => { g with prod := v })) ∧
    (∀ v, Does (.hringProdWrite tx n v) (fun s => (g s).halted = false ∧ size s < (v - (g s).cons).toNat)
      (fun s => halts s (withRing tx n (fun g => { g with prod := v }) s))) ∧
    Does (.hringEnable tx n) (fun s => (g s).en = false ∧ 6 ≤ (g s).sizeLog ∧ (g s).sizeLog ≤ 14 ∧ ((g s).halted = true ∨ ¬ breach s))
      (withRing tx n fun g => { g with en := true, idle := false, fetched := g.cons }) ∧
    Does (.hringEnable tx n) (fun s => (g s).en = false ∧ 6 ≤ (g s).sizeLog ∧ (g s).sizeLog ≤ 14 ∧ (g s).halted = false ∧ breach s)
      (fun s => halts s (withRing tx n (fun g => { g with en := true, idle := false, fetched := g.cons }) s)) ∧
    Does (.hringEnable tx n) (fun s => (g s).en = true ∨ (g s).sizeLog < 6 ∨ 14 < (g s).sizeLog) id ∧
    Does (.hringIdle tx n) (fun s => (g s).en = false) (withRing tx n fun g => { g with idle := true }) ∧
    Does (.hringIdle tx n) (fun s => (g s).en = true) id ∧
    Does (.hringResume tx n) (fun s => (g s).halted = false) id ∧
    Does (.hringResume tx n) (fun s => (g s).halted = true ∧ (g s).en = false) (withRing tx n fun g => { g with halted := false }) ∧
    (let resumed (s : State) : State :=
       if tx then withHtx n (fun g => { g with fetched := g.cons, inflight := [] }) (withdraw n (withHtx n (fun g => { g with halted := false }) s))
       else withHrx n (fun g => { g with halted := false }) s
     Does (.hringResume tx n) (fun s => (g s).halted = true ∧ (g s).en = true ∧ ¬ breach s) resumed ∧
     Does (.hringResume tx n) (fun s => (g s).halted = true ∧ (g s).en = true ∧ breach s) (fun s => halts s (resumed s))) ∧
    Does (.hringDisable tx n) (fun s => (g s).en = false) id) ∧
  (∀ n : Fin 64,
    Does (.hringDisable false n) (fun s => (vget s.rings.hrx n).en = true ∧ (vget s.rings.hrx n).cur = none) (withHrx n fun g => { g with en := false }) ∧
    (∀ p, Does (.hringDisable false n)
      (fun s => (vget s.rings.hrx n).en = true ∧ (vget s.rings.hrx n).cur = some p ∧ (vget s.rings.hrx n).hostStream = false) (fun s =>
      frameDone p.frame .aborted [] (withHrx n (fun g => { g with ctrB := g.ctrB + 1 }) (withHrx n (fun g => { g with en := false, cur := none }) s)))) ∧
    Does (.hringDisable true n) (fun s => (vget s.rings.htx n).en = true) (fun s =>
      let u := withdraw n (unfetched n (withHtx n (fun g => { g with en := false }) s))
      (vget u.rings.htx n).inflight.foldl (fun v f => completeTx n f.id .aborted 0 v) u) ∧
    -- Transmit.
    (∀ ds data, Does (.htxFrameFetch n ds data) (fun s => (vget s.rings.htx n).en = false ∨ (vget s.rings.htx n).halted = true) id) ∧
    (∀ ds data l,
      let g (s : State) : Ring := vget s.rings.htx n
      let id_ (s : State) : Nat := s.rings.nextId
      let copied (s : State) : State := withHtx n (fun g => { g with
        inflight := g.inflight ++ [{ id := id_ s, first := g.fetched, ndesc := l.length }], fetched := g.fetched + BitVec.ofNat 16 l.length })
        { s with rings := { s.rings with nextId := id_ s + 1 } }
      let f (s : State) : Frame := hostFrame n (id_ s) (l.headD []) (pad (l.map dLen).sum data) s.now
      let counted (s : State) : State := withHtx n (fun g => { g with frames := g.frames + 1, bytes := g.bytes + (f s).bytes.length }) (copied s)
      let whole (s : State) : Prop := (g s).en = true ∧ (g s).halted = false ∧ frameDescs (ds.take ((g s).prod - (g s).fetched).toNat) = some l
      Does (.htxFrameFetch n ds data) (fun s => whole s ∧ (frameBad l = true ∨ destBad (l.headD []) = true))
        (fun s => completeTx n (id_ s) .badParam 0 (copied s)) ∧
      Does (.htxFrameFetch n ds data) (fun s => whole s ∧ frameBad l = false ∧ destBad (l.headD []) = false ∧ (f s).ring = none)
        (fun s => dispatchHost (f s) (completeTx n (id_ s) .ok 0 (counted s))) ∧
      Does (.htxFrameFetch n ds data) (fun s => whole s ∧ frameBad l = false ∧ destBad (l.headD []) = false ∧ (f s).ring ≠ none)
        (fun s => dispatchHost (f s) (counted s))) ∧
    -- Receive.
    (∀ ds, Does (.hrxFrameDeliver n ds) (fun s => (vget s.rings.hrx n).cur = none ∧ vget s.rings.rxq n = []) id) ∧
    (∀ ds p, Does (.hrxFrameDeliver n ds) (fun s => (vget s.rings.hrx n).cur = some p) (fillPart n p ds)) ∧
    (∀ ds f rest,
      let g (s : State) : Ring := vget s.rings.hrx n
      let posted (s : State) : Nat := ((g s).prod - (g s).cons).toNat
      let taken (s : State) : State := { s with rings := { s.rings with rxq := vset s.rings.rxq n rest } }
      let takes (s : State) : Prop := (g s).cur = none ∧ vget s.rings.rxq n = f :: rest ∧ (g s).en = true ∧ (g s).halted = false ∧ (g s).prod ≠ (g s).cons
      Does (.hrxFrameDeliver n ds)
        (fun s => (g s).cur = none ∧ vget s.rings.rxq n = f :: rest ∧ ((g s).en = false ∨ (g s).halted = true ∨ (g s).prod = (g s).cons))
        (fun s => frameDone f .aborted [] (withHrx n (fun g => { g with ctrA := g.ctrA + 1 }) (taken s))) ∧
      (∀ l b,
        let part (s : State) : State := writeBufs l false (withHrx n (fun g => { g with cur := some { frame := f, filled := l, left := b } }) (taken s))
        let run := Instr.hrxFrameDeliver n ds
        Does run (fun s => takes s ∧ l ≠ [] ∧ f.authFail = false ∧ fillBufs (posted s) ds f.bytes = (l, .done, b))
          (fun s => completeRx n f l (withHrx n (fun g => { g with cur := none }) (part s))) ∧
        Does run (fun s => takes s ∧ fillBufs (posted s) ds f.bytes = (l, .more, b)) part ∧
        Does run (fun s => takes s ∧ fillBufs (posted s) ds f.bytes = (l, .dry, b)) (fun s => dropPart n true (part s)) ∧
        Does run (fun s => takes s ∧ fillBufs (posted s) ds f.bytes = (l, .bad, b)) (fun s => dropPart n false (raise .hringError n []
          (withHrx n (fun h => { h with halted := true, errIndex := (g s).cons + BitVec.ofNat 16 l.length }) (part s)))))))


/-! DRAM, reliability, wake receiver, registers. -/

/-- R410, R413 to R416, R422, R423, Table 17.3: initialisation, requests, their check, alerts and replays of a DRAM channel. -/
def Obligations.DramRequestsAndAlerts : Prop :=
  (∀ fail, BuilminDoes (.dramInitDone fail) (fun s => s.dram.job = none) id) ∧
  (∀ h (st : Fin 8) c r, st ≠ 0 → BuilminDoes (.dramInitDone (some (st, c, r))) (fun s => s.dram.job = some h)
    (fun s => finish h .hwFault (configData s.dram.cfg st c r)
      (withDram (fun d => { d with job := none, chan := d.chan.map fun x => { x with state := 0 } }) s))) ∧
  (∀ h s, running s = true → s.dram.job = some h → s.life.mode = .startUp → Gives (.dramInitDone none) s fun t =>
    t.dram.job = none ∧ t.dram.ready = true ∧ (chan 0 t).state = 2 ∧ (chan 0 t).rate = u8 s.dram.cfg 3 ∧ (chan 0 t).mem = [] ∧
      (chan 1 t).state = (if m1Present s.dram.cfg then 2 else 0) ∧ t.dram.pkt = cfgGib s.dram.cfg * 1024 - chanTaken s.dram.cfg) ∧
  (∀ c : Fin 2,
    let x (s : State) : Chan := chan c s
    (∀ a u, let run : Instr := .dramRead c (.arrive a u)
      let queued (s : State) : Option DramReq := ((x s).reqs.filter fun q => q.write && q.addr == burstOf a).getLast?
      Does run (fun s => (x s).state = 3) (readerAction c u none) ∧
      (∀ q, Does run (fun s => (x s).state = 2 ∧ rateChanging s = false ∧ queued s = some q)
        (fun s => chanCount c 20 1 (withChan c (fun y => { y with answer := q.data }) s))) ∧
      Does run (fun s => (x s).state = 2 ∧ rateChanging s = false ∧ queued s = none)
        (fun s => arriveReq c { addr := burstOf a, use := u, at_ := s.now } s)) ∧
    (∀ a u d, let run : Instr := .dramWrite c (.arrive a u d)
      Does run (fun s => 64 ≤ wqLen (x s)) id ∧
      Does run (fun s => (x s).state = 2 ∧ rateChanging s = false ∧ wqLen (x s) < 64)
        (fun s => arriveReq c { write := true, addr := burstOf a, use := u, data := pad 64 d, at_ := s.now } s)) ∧
    (∀ q pro f,
      let may (s : State) : Prop := pickReq (x s) s.now = some (q, pro) ∧ chanOpen c s = true ∧ q.write = false
      let served (s : State) : State := withChan c (fun x => { x with answer := memRead x.mem q.addr 64 }) (chanCount c 0 1 (takeReq c q pro s))
      Does (.dramRead c (.serve .clean f)) (fun s => may s ∧ kget (x s).poison q.addr = none) served ∧
      (∀ d, Does (.dramRead c (.serve (.one d) f)) (fun s => may s ∧ kget (x s).poison q.addr = none)
        (fun s => chanCount c 2 1 (noteError c 0 q.addr d (served s)))) ∧
      (∀ a b, Does (.dramRead c (.serve (.two a b) f)) (fun s => may s ∧ kget (x s).poison q.addr = none)
        (fun s => readerAction c q.use f (dramUncorr c q.addr (bufClass q.use) a b (served s)))) ∧
      (∀ e b, Does (.dramRead c (.serve e f)) (fun s => may s ∧ kget (x s).poison q.addr = some b)
        (fun s => readerAction c q.use f (dramUncorr c q.addr (bufClass q.use) 0xFF b (served s)))) ∧
      Does (.dramWrite c .serve) (fun s => pickReq (x s) s.now = some (q, pro) ∧ chanOpen c s = true ∧ q.write = true)
        (fun s => storeBurst c q (takeReq c q pro s))) ∧
    (∀ crc, let run : Instr := .alertFall c crc
      let low (s : State) : State :=
        withChan c (fun y => { y with errors := (alertFall.alertRecord crc s :: y.errors).take 16 })
          (chanCount c (if crc then 6 else 5) 1 (withChan c (fun x => { x with alertLow := true }) s))
      let up (s : State) : Prop := (x s).state = 2 ∧ (x s).alertLow = false
      let again (s : State) : State := chanCount c 8 1 (withChan c (fun y => { y with replaying := false, fails := (x s).fails + 1 }) (low s))
      Does run (fun s => up s ∧ (x s).replaying = false) low ∧
      Does run (fun s => up s ∧ (x s).replaying = true ∧ (x s).lastTry = false) again ∧
      Does run (fun s => up s ∧ (x s).replaying = true ∧ (x s).lastTry = true) (fun s => chanFail c (again s))) ∧
    (
      let high (s : State) : State := withChan c (fun y => { y with alertLow := false, rows := [] }) s
      Does (.alertRise c) (fun s => (x s).state = 2 ∧ (x s).alertLow = true ∧ (x s).fails < 3)
        (fun s => chanCount c 7 1 (withChan c (fun x => { x with replaying := true, lastTry := false }) (high s))) ∧
      Does (.alertRise c) (fun s => (x s).state = 2 ∧ (x s).alertLow = true ∧ 3 ≤ (x s).fails)
        (fun s => raise .dramRetrain c [0] (chanCount c 9 1 (withChan c (fun y => { y with training := some .replay, trainOf := none }) (high s))))))

/-- R417 to R421, Table 17.4: refresh, temperature, calibration, retraining and rate change of a DRAM channel. -/
def Obligations.DramUpkeepTakesEffect : Prop :=
  (∀ c : Fin 2,
    let x (s : State) : Chan := chan c s
    (∀ r : Fin 2,
      let interval (s : State) : Nat := if (x s).hot then 1950 else 3900
      let due (s : State) : Prop := (x s).state = 2 ∧ hasRank r s = true ∧ ∀ t, kget (x s).refAt r = some t → t + interval s ≤ s.now
      let noted (s : State) : State := withChan c (fun y => { y with
        refAt := kset y.refAt r (match kget y.refAt r with | some t => t + interval s | none => s.now) }) s
      -- REFs run back to back, tRFC1 apart; requests for the rank wait for them.
      let runs (n : Nat) (s : State) : State := chanCount c 12 n (withChan c (fun y => { y with
        refEnd := kset y.refEnd r (s.now + n * rfcTicks c s), rows := y.rows.filter fun p => p.1 / 16 != r.val }) s)
      Does (.refDue c r) (fun s => due s ∧ 0 < vget (x s).ahead r) (fun s =>
        withChan c (fun y => { y with ahead := vset y.ahead r (vget y.ahead r - 1) }) (noted s)) ∧
      Does (.refDue c r) (fun s => due s ∧ vget (x s).ahead r = 0 ∧ vget (x s).owed r = 0)
        (fun s => withChan c (fun y => { y with owed := vset y.owed r 1 }) (noted s)) ∧
      Does (.refDue c r) (fun s => due s ∧ vget (x s).ahead r = 0 ∧ 0 < vget (x s).owed r ∧ vget (x s).owed r < 8)
        (fun s => withChan c (fun y => { y with owed := vset y.owed r (vget (x s).owed r + 1) }) (chanCount c 13 1 (noted s))) ∧
      Does (.refDue c r) (fun s => due s ∧ vget (x s).ahead r = 0 ∧ 8 ≤ vget (x s).owed r)
        (fun s => chanCount c 14 1 (runs 8 (withChan c (fun y => { y with owed := vset y.owed r 1 }) (chanCount c 13 1 (noted s))))) ∧
      (∀ t, Does (.refDue c r) (fun s => kget (x s).refAt r = some t ∧ s.now < t + interval s) id) ∧
      Does (.refIssue c r) (fun s => chanOpen c s = true ∧ 0 < vget (x s).owed r ∧ rankQuiet c r s = true ∧ rankFree (x s) r s.now = true)
        (fun s => runs 1 (issued c (withChan c (fun y => { y with owed := vset y.owed r (vget y.owed r - 1) }) s))) ∧
      Does (.refPullIn c r)
        (fun s => chanOpen c s = true ∧ hasRank r s = true ∧ vget (x s).owed r = 0 ∧ vget (x s).ahead r < 8 ∧ rankQuiet c r s = true ∧
          rankIdle (x s) r s.now = true)
        (fun s => chanCount c 15 1 (runs 1
          (issued c (withChan c (fun y => { y with ahead := vset y.ahead r (vget y.ahead r + 1) }) s)))) ∧
      (∀ q pro s, pickReq (x s) s.now = some (q, pro) → ∀ t, kget (x s).refEnd (dramRank q.addr) = some t → t ≤ s.now)) ∧
    (let reads (s : State) : Prop := (x s).state = 2 ∧ upkeepDue (x s) (x s).tempAt 16000000 32000000 s.now = true
     Does (.tempRead c true) (fun s => reads s ∧ (x s).hot = false)
       (fun s => withChan c (fun y => { y with hot := true, cool := 0, hotAt := s.now, tempAt := some s.now }) s) ∧
     Does (.tempRead c false) (fun s => reads s ∧ (x s).hot = false)
       (fun s => withChan c (fun y => { y with cool := min 2 (y.cool + 1), tempAt := some s.now }) s) ∧
     Does (.tempRead c false) (fun s => reads s ∧ (x s).hot = true ∧ 1 ≤ (x s).cool)
       (fun s => withChan c (fun y => { y with cool := min 2 (y.cool + 1), hot := false, tempAt := some s.now }) (hotCount c s)) ∧
     Does (.tempRead c false) (fun s => reads s ∧ (x s).hot = true ∧ (x s).cool = 0)
       (fun s => withChan c (fun y => { y with cool := 1, tempAt := some s.now }) (hotCount c s)) ∧
     (∀ h t, Does (.tempRead c h) (fun s => (x s).tempAt = some t ∧ s.now < t + 16000000) id)) ∧
    Does (.zqCal c) (fun s => chanOpen c s = true ∧ upkeepDue (x s) (x s).zqAt 64000000 64500000 s.now = true)
      (fun s => withChan c (fun y => { y with rows := [], zqAt := some s.now }) s) ∧
    (∀ t, Does (.zqCal c) (fun s => (x s).zqAt = some t ∧ (s.now < t + 64000000 ∨ (x s).reqs ≠ [] ∧ s.now < t + 64500000)) id) ∧
    Does (.retrainDue c) (fun s => (x s).state = 2 ∧ (x s).training = none ∧ (x s).due = none ∧ (x s).trainedAt + (x s).interval * 500000000 ≤ s.now)
      (fun s => withChan c (fun y => { y with due := some s.now }) s) ∧
    Does (.retrainDue c) (fun s => s.now < (x s).trainedAt + (x s).interval * 500000000) id ∧
    (∀ last,
      let ready (s : State) : Prop := (x s).state = 2 ∧ (x s).training = none ∧ (chan (1 - c.val) s).training = none ∧ (x s).alertLow = false ∧
        (x s).replaying = false ∧ rateChanging s = false
      let starts (k : Training) (q : Option TrainReq) (s : State) : State := withChan c (fun y => { y with
        training := some k, trainOf := q.map (·.handle), trainReqs := y.trainReqs.drop 1, due := none, rows := [] }) s
      let measured (s : State) : State := noteLast c last (replanInterval c (marginLoss c last s) s)
      (∀ q, Does (.retrainStart c last) (fun s => ready s ∧ (x s).trainReqs.head? = some q ∧ q.force = true ∧ q.full = true)
        (fun s => chanCount c 9 1 (starts .full (some q) s))) ∧
      (∀ q, Does (.retrainStart c last) (fun s => ready s ∧ (x s).trainReqs.head? = some q ∧ q.force = true ∧ q.full = false)
        (fun s => chanCount c 10 1 (starts .periodic (some q) (measured s)))) ∧
      Does (.retrainStart c last) (fun s => ready s ∧ (x s).trainReqs = [] ∧ (x s).due ≠ none ∧ quiet10 c s = true)
        (fun s => chanCount c 10 1 (starts .periodic none (measured s))) ∧
      (∀ t, Does (.retrainStart c last) (fun s => ready s ∧ (x s).trainReqs = [] ∧ (x s).due = some t ∧ quiet10 c s = false ∧ t + 50000000 ≤ s.now)
        (fun s => chanCount c 11 1 (chanCount c 10 1 (starts .periodic none (measured s))))) ∧
      (∀ t, Does (.retrainStart c last) (fun s => (x s).trainReqs = [] ∧ (x s).due = some t ∧ quiet10 c s = false ∧ s.now < t + 50000000) id)) ∧
    (∀ tr,
      let ended (s : State) : State := withChan c (fun y => { y with training := none, trainOf := none, trainedAt := s.now }) s
      Does (.retrainDone c true tr) (fun s => (x s).training = some .replay)
        (fun s => chanCount c 7 1 (withChan c (fun x => { x with replaying := true, lastTry := true }) (ended (noteTrained c tr s)))) ∧
      Does (.retrainDone c false tr) (fun s => (x s).training = some .replay) (fun s => chanFail c (ended s)) ∧
      Does (.retrainDone c true tr) (fun s => (x s).training = some .full ∨ (x s).training = some .periodic)
        (fun s => finishOpt (x s).trainOf .ok [] (ended (noteTrained c tr s))) ∧
      Does (.retrainDone c false tr) (fun s => (x s).training = some .full ∨ (x s).training = some .periodic)
        (fun s => finishOpt (x s).trainOf .hwFault [] (ended s)))) ∧
  Does .rateChange (fun s => s.dram.rateReqs = []) id ∧
  (∀ h w r, Does .rateChange (fun s => s.dram.rateReqs = (h, w) :: r ∧ rateChanging s = true) (fun s =>
    let rate := if w = 0 then u8 s.dram.cfg 3 else u8 s.dram.cfg 4
    finish h .ok [byte rate] (withDram (fun d => { d with rateReqs := r }) (changeChan 1 rate (changeChan 0 rate s)))))

/-- R442 to R449, R451, Tables 19.2, 19.4: errors in arrays and rows, the Gleaner, ageing. -/
def Obligations.ReliabilityEventsTakeEffect : Prop :=
  (∀ a w, Does (.arrayWriteback (.single a w)) (fun _ => True)
    (fun s => withRel (fun x => { x with writeback := (x.writeback.filter (· != (a.val, w))) ++ [(a.val, w)] })
      (noteCorrected a w (relCount 2 1 s)))) ∧
  (∀ a w, Does (.arrayWriteback (.overwritten a w)) (fun _ => True)
    (withRel fun x => { x with writeback := x.writeback.filter (· != (a.val, w)) })) ∧
  Does (.arrayWriteback .slot) (fun _ => True) (withRel fun x => { x with writeback := x.writeback.tail }) ∧
  (∀ w k, Does (.arrayWriteback (.uncorr w (.key k))) (fun s => khas s.sec.slots k = true)
    (fun s => slotErase k (unbindSlot k (arrayUncorr (partCode (.key k)) w s)))) ∧
  (∀ w q, Does (.arrayWriteback (.uncorr w (.tidQueue q))) (fun _ => True) (fun s => queueLost q false (arrayUncorr (partCode (.tidQueue q)) w s))) ∧
  (∀ w l b, Does (.arrayWriteback (.uncorr w (.bank l b))) (fun _ => True) (memoryError l b w)) ∧
  Does (.arrayWriteback (.uncorr 0 .mp)) (fun _ => True)
    (fun s => withLife (fun l => { l with mpStopped := true }) (arrayUncorr (partCode .mp) 0 s)) ∧
  (∀ i : Fin 1024, let bad (s : State) : Prop := s.rel.badRows.contains i.val = true
    Does (.ternaryRepair i false) bad (fun s => relCount 5 1 (withRel (fun x => { x with badRows := x.badRows.filter (· != i.val) }) s)) ∧
    Does (.ternaryRepair i true) bad (fun s => ruleLost i (arrayUncorr 0x0B i s)) ∧
    (∀ b, Does (.ternaryRepair i b) (fun s => ¬ bad s) id)) ∧
  (∀ (a : Fin 18) w, Does (.gleanerAccess a w .clean) (fun _ => True) id ∧
    (a.val < 16 → Does (.gleanerAccess a w (.single true)) (fun _ => True) (fun s => noteCorrected a w (relCount 2 1 s)) ∧
      Does (.gleanerAccess a w (.single false)) (fun _ => True) (fun s => relCount 8 1 (noteCorrected a w (relCount 2 1 s)))) ∧
    (∀ l, partCode l = a.val → Does (.gleanerAccess a w (.uncorr l)) (fun _ => True) (wordLost w l)) ∧
    (∀ addr cls, 16 ≤ a.val →
      let fine (s : State) : Prop := (chan (a.val - 16) s).state = 2 ∧ kget (chan (a.val - 16) s).poison (burstOf addr) = none
      (∀ d, Does (.gleanerAccess a w (.burst addr cls (.one d))) fine
        (fun s => relCount 8 1 (chanCount (a.val - 16) 2 1 (noteError (a.val - 16) 0 (burstOf addr) d s)))) ∧
      (∀ d e, Does (.gleanerAccess a w (.burst addr cls (.two d e))) fine (dramUncorr (a.val - 16) (burstOf addr) cls d e)))) ∧
  (∀ (i : Fin 256) (w : Fin 512) f, Does (.weakRegionScrub i w f) (fun s => s.rel.weak[i.val]? = none) id ∧
    ∀ g, Does (.weakRegionScrub i w f) (fun s => s.rel.weak[i.val]? = some g) (scrub g.array (512 * g.region + w) f)) ∧
  (∀ a : Fin 18,
    let runs (s : State) : Prop := a.val < 16 ∨ (chan (a.val - 16) s).state = 2
    Does (.gleanerPassEnd a) runs (fun s => relCount 6 1 (withRel (fun x => { x with passes := vset x.passes a { began := s.now } }) s)) ∧
    Does (.gleanerEscalate a) (fun s => runs s ∧ (vget s.rel.passes a).escalated = false ∧ (vget s.rel.passes a).began + hourTicks ≤ s.now)
      (fun s => raise .gleanerEsc a []
        (relCount 7 1 (withRel (fun x => { x with passes := vset x.passes a { vget x.passes a with escalated := true } }) s))) ∧
    Does (.gleanerEscalate a) (fun s => (vget s.rel.passes a).escalated = true ∨ s.now < (vget s.rel.passes a).began + hourTicks) id) ∧
  (∀ tj, Does (.stressSample tj) (fun s => ∀ t, s.rel.stressAt = some t → t + 500000000 ≤ s.now) (fun s => withRel (fun x => { x with
      bootStress := x.bootStress + stressRate tj s.power.readback, bootS := x.bootS + 1, stressAt := some s.now }) s) ∧
    ∀ t, Does (.stressSample tj) (fun s => s.rel.stressAt = some t ∧ s.now < t + 500000000) id) ∧
  (∀ d d0 t, Does (.marginReplan d d0) (fun s => s.rel.replanAt = some t ∧ s.now < t + 300000000000) id) ∧
  (∀ d d0, 0 < d0 → Does (.marginReplan d d0) (fun s => ∀ t, s.rel.replanAt = some t → t + 300000000000 ≤ s.now) (fun s => withRel (fun x => { x with
    replanAt := some s.now, ageGuard := guardFor (stressNow s), t1 := max 2000 (min 2500 (2000 * d / d0)), t2 := max 1000 (min 1250 (1000 * d / d0)) }) s)) ∧
  (∀ (r : Radio) (c : Fin 16) gain need,
    let k (s : State) : Chain := vget (vget s.fe (rnum r)).chains c
    let works (s : State) : Prop := c.val < chainCount (rnum r) ∧ chainOut (k s) = false ∧
      ∀ t, kget s.rel.gainAt (chainSlot (rnum r) c) = some t → t + s.rel.gainInt * 500000000 ≤ s.now
    let noted (n : Nat → Nat) (s : State) : State :=
      withRel (fun x => { x with
        gainAt := kset x.gainAt (chainSlot (rnum r) c) s.now, chainGain := vset x.chainGain (chainSlot (rnum r) c) gain
        gainInt := n x.gainInt }) s
    Does (.gainCal r c gain need) (fun s => works s ∧ need = (k s).ageDerate ∧ need ≤ 12) (noted fun g => min 600 (g * 2)) ∧
    Does (.gainCal r c gain need) (fun s => works s ∧ need ≠ (k s).ageDerate ∧ need ≤ 12)
      (fun s => relCount 10 1 (chainBoundary (rnum r) (withChain (rnum r) c (fun k => { k with ageNext := some need }) (noted (fun g => max 60 (g / 2)) s)))) ∧
    Does (.gainCal r c gain need) (fun s => works s ∧ 12 < need)
      (fun s => setChainState (rnum r) c .fallowAge (noted (fun g => min 600 (g * 2)) s))) ∧
  (let due (s : State) : Nat := s.life.runningAt + (s.rel.cairnsTold + 1) * dayTicks
   BuilminDoes .cairnReady (fun s => due s ≤ s.now) (fun s =>
     raise .cairnReady 0 (le 8 (s.rel.exportSeq + 1)) (withRel (fun x => { x with cairnsTold := x.cairnsTold + 1 }) s)) ∧
   BuilminDoes .cairnReady (fun s => s.now < due s) id)

/-- R134, R136, R138, R139, R141, R142, R144: wake-up frames, windows and copies. -/
def Obligations.WakeEventsTakeEffect : Prop :=
  (∀ f,
    let began (s : State) : Nat := s.now - wurTicks f.high f.body
    let hears (s : State) : Prop := wurTicks f.high f.body ≤ s.now ∧ wurOn s = true ∧ s.wur.mode ≠ 0 ∧ s.wur.modeAt ≤ began s ∧
      (s.wur.mode = 2 → inWindow s.wur (began s) = true) ∧ (vget s.fe 0).tx = none ∧ s.wur.blankTill ≤ began s
    let table (s : State) : Vector WurEntry 64 := match s.wur.olds.find? fun p => began s < p.1 with | some p => p.2 | none => s.wur.table
    let run : Instr := .wurFrameRx f
    AlwaysDoes run (fun s => ¬ hears s) id ∧
    AlwaysDoes run (fun s => hears s ∧ f.fcsOk = false) (fun s => wurCount 1 (wurCount 0 s)) ∧
    AlwaysDoes run (fun s => hears s ∧ f.fcsOk = true ∧ ∀ i, i < 64 → wurEntryMatch (vget (table s) i) f = false) (fun s => wurCount 3 (wurCount 0 s)) ∧
    (∀ e, let first (s : State) : Prop := hears s ∧ f.fcsOk = true ∧ e < 64 ∧ wurEntryMatch (vget (table s) e) f = true ∧
        ∀ i, i < e → wurEntryMatch (vget (table s) i) f = false
      let matched (s : State) : State := wurCount 2 (wurCount 0 s)
      AlwaysDoes run (fun s => first s ∧ s.life.armed = true) (fun s => driveWake 0 (wurCount 0 s)) ∧
      AlwaysDoes run (fun s => first s ∧ s.life.armed = false ∧ ∀ t, kget s.wur.lastEvt e = some t → t + 50000000 ≤ s.now)
        (fun s => raise .wurMatch e (wurData f) (withWur (fun w => { w with lastEvt := kset w.lastEvt e s.now }) (matched s))) ∧
      (∀ t, AlwaysDoes run (fun s => first s ∧ s.life.armed = false ∧ kget s.wur.lastEvt e = some t ∧ s.now < t + 50000000) matched))) ∧
  (∀ o,
    let agrees (s : State) : Prop := decide (4 * (s.now - s.wur.modeAt) / 1953125 % s.wur.period < s.wur.on) = o
    AlwaysDoes (.wurWindow o) (fun s => wurOn s = true ∧ s.wur.mode = 2 ∧ agrees s) (withWur fun w => { w with window := o }) ∧
    AlwaysDoes (.wurWindow o) (fun s => wurOn s = false ∨ s.wur.mode ≠ 2 ∨ ¬ agrees s) id) ∧
  (∀ b : Fin 16, BuilminDoes (.wurCopyDue b) (fun s => kget s.wur.tx b = none) id ∧
    ∀ x,
      let next (s : State) : State := withWur (fun w => { w with tx := kset w.tx b { x with left := x.left - 1, next := x.next + 1, waiting := true } }) s
      let due (s : State) : Prop := kget s.wur.tx b = some x ∧ 0 < x.left ∧ x.t0 + x.next * x.interval * 512000 ≤ s.now
      BuilminDoes (.wurCopyDue b) (fun s => kget s.wur.tx b = some x ∧ (x.left = 0 ∨ s.now < x.t0 + x.next * x.interval * 512000)) id ∧
      BuilminDoes (.wurCopyDue b) (fun s => due s ∧ x.waiting = false) next ∧
      BuilminDoes (.wurCopyDue b) (fun s => due s ∧ x.waiting = true) (fun s => next (wurCount 6 s)))

/-- R4, R31, R33, R34, R66: which host writes act. A misaligned one, one of another size or past the end of BAR0 is dropped and logged through
AER; eight bytes are two writes, the lower address first; a write where no table defines a register is ignored, and so is every write during a
wipe but a W1C to GLB_RESET_CAUSE. BAR0 is written in D0. Configuration space follows. -/
def Obligations.RegisterWritesReachTheMap : Prop :=
  let d0 (s : State) : Prop := s.host.pcie.d3hot = false
  (∀ a size v s, powered s = true → a % size ≠ 0 ∨ 0x1000000 < a + size ∨ (size ≠ 4 ∧ size ≠ 8) →
    exec (.registerWrite (.bar a size v)) s = .next (withPcie (fun p => { p with aerUr := true }) s)) ∧
  (∀ a v s t u, a % 8 = 0 → a + 8 ≤ 0x1000000 →
    exec (.registerWrite (.bar a 4 (BitVec.ofNat 64 (v.toNat % 2 ^ 32)))) s = .next t →
    exec (.registerWrite (.bar (a + 4) 4 (BitVec.ofNat 64 (v.toNat / 2 ^ 32)))) t = .next u → exec (.registerWrite (.bar a 8 v)) s = .next u) ∧
  (∀ a v s, d0 s → a % 4 = 0 → a < 0x1000000 → regAt a = none → exec (.registerWrite (.bar a 4 v)) s = .next s) ∧
  (∀ a v s, d0 s → a % 4 = 0 → a < 0x1000000 → live s = false → a ≠ 0x0C → exec (.registerWrite (.bar a 4 v)) s = .next s) ∧
  (∀ v s, d0 s → powered s = true → exec (.registerWrite (.bar 0x0C 4 v)) s =
    .next (withGlb (fun g => { g with resetCause := g.resetCause &&& ~~~BitVec.ofNat 9 (v.toNat % 2 ^ 32) }) s)) ∧
  -- Configuration space.
  (∀ s, powered s = true →
    (∀ on, exec (.registerWrite (.msixEnable on)) s = .next (sendAllPending (withHost (fun h => { h with msixEn := on }) s))) ∧
    (∀ on, exec (.registerWrite (.functionMask on)) s = .next (sendAllPending (withPcie (fun p => { p with funcMask := on }) s))) ∧
    (∀ on, exec (.registerWrite (.powerState on)) s = .next (flushTx (withPcie (fun p => { p with d3hot := on }) s))) ∧
    (∀ on, exec (.registerWrite (.aspm on)) s = .next (withPcie (fun p => { p with aspmL1 := on }) s)) ∧
    (∀ m q, exec (.registerWrite (.deviceControl m q)) s = .next (withPcie (fun p => { p with mps := m, mrrs := q }) s)) ∧
    (∀ g c, exec (.registerWrite (.ecrc g c)) s = .next (withPcie (fun p => { p with ecrcGen := g, ecrcChk := c }) s)) ∧
    exec (.registerWrite .aerClear) s = .next (withPcie (fun p => { p with aerUr := false }) s)) ∧
  -- What no table defines, and what the host may only read.
  ∀ a v s, a ∈ [0x00, 0x04, 0x08, 0x10, 0x14, 0x18, 0x1010, 0x101C, 0x1020, 0x1024, 0x10104, 0x10108, 0x20014, 0x20018, 0x100014,
      0x200000, 0x200004, 0x200008, 0x200104, 0x200110, 0x201000, 0x20100C, 0x203000, 0x203008, 0x37F004, 0xF00800] →
    (a < 0x201000 ∨ 0x201080 ≤ a ∨ s.rtc.armed = false) → d0 s → exec (.registerWrite (.bar a 4 v)) s = .next s

/-- Tables 2.3, 2.13, 2.15, 2.19, 2.20, 3.5, 3.10, 4.15, 13.1, 18.1 and R3, R326, R425, R440: a four-byte write of each register, where its
fields are writable: reserved bits are dropped, W1C bits clear, and a register with a command of its own acts as that command. -/
def Obligations.RegisterWritesTakeEffect : Prop :=
  ∀ v : Word,
    let w (a : Nat) : Instr := .registerWrite (.bar a 4 (BitVec.ofNat 64 v.toNat))
    let d0 (s : State) : Prop := s.host.pcie.d3hot = false
    let takes (a : Nat) (cond : State → Prop) (f : State → State) : Prop := Does (w a) (fun s => d0 s ∧ cond s) f
    let acts (a : Nat) (cond : State → Prop) (i : Instr) : Prop := ∀ s, live s = true → d0 s → cond s → exec (w a) s = exec i s
    let any (_ : State) : Prop := True
    -- Event ring, sources, vectors.
    takes 0x1000 any (withEvt fun e => { e with base := baseLo e.base v.toNat }) ∧
    takes 0x1004 any (withEvt fun e => { e with base := baseHi e.base v.toNat }) ∧
    takes 0x1008 any (withEvt fun e => { e with sizeLog := bits v.toNat 0 4 }) ∧
    acts 0x100C any (.evtHeadWrite (v.setWidth 16)) ∧
    takes 0x1014 (fun _ => bit v.toNat 0 = false) (withEvt fun e => { e with minSev := bits v.toNat 4 2, en := false }) ∧
    (∀ s, live s = true → d0 s → bit v.toNat 0 = true →
      exec (w 0x1014) s = exec .evtEnable (withEvt (fun e => { e with minSev := bits v.toNat 4 2 }) s)) ∧
    takes 0x1018 any (withEvt fun e => { e with overflow := e.overflow && !bit v.toNat 0 }) ∧
    (∀ i, i < 137 → takes (0x1100 + 4 * i) any (withHost fun h => { h with route := vset h.route i (v &&& 0x0FFFFF3F#32) })) ∧
    (∀ i, i < 256 → i % 4 = 1 ∨ i % 4 = 2 → takes (0xF00000 + 4 * i) any (withHost fun h => { h with msixTbl := vset h.msixTbl i v })) ∧
    -- Mailboxes, completion queues, host rings.
    (∀ (m : Fin 8) o, o < 0x100 → o % 4 = 0 →
      takes (0x10000 + 0x1000 * m + o) any fun s => { s with bar := memWrite s.bar (0x10000 + 0x1000 * m + o) (le 4 v.toNat) }) ∧
    (∀ m : Fin 8, acts (0x10100 + 0x1000 * m) (fun _ => bit v.toNat 0 = true) (.mbxDoorbell m) ∧
      takes (0x10100 + 0x1000 * m) (fun _ => bit v.toNat 0 = false) id) ∧
    (∀ q : Fin 8, takes (0x20000 + 64 * q) any (withCq q fun x => { x with base := baseLo x.base v.toNat }) ∧
      takes (0x20004 + 64 * q) any (withCq q fun x => { x with base := baseHi x.base v.toNat }) ∧
      takes (0x20008 + 64 * q) any (withCq q fun x => { x with sizeLog := bits v.toNat 0 4 }) ∧
      acts (0x2000C + 64 * q) (fun _ => bit v.toNat 0 = true) (.cqEnable q) ∧ acts (0x2000C + 64 * q) (fun _ => bit v.toNat 0 = false) (.cqDisable q) ∧
      acts (0x20010 + 64 * q) any (.cqHeadWrite q (v.setWidth 16))) ∧
    (∀ tx (n : Fin 64),
      let a : Nat := (if tx then 0x100000 else 0x101000) + 64 * n
      let control (s : State) : State := withRing tx n (fun g => { g with hostStream := bit v.toNat 1 && !tx, stampTb := Fin.ofNat 4 (bits v.toNat 4 2) }) s
      takes a any (withRing tx n fun g => { g with base := baseLo g.base v.toNat }) ∧
      takes (a + 4) any (withRing tx n fun g => { g with base := baseHi g.base v.toNat }) ∧
      takes (a + 8) any (withRing tx n fun g => { g with sizeLog := bits v.toNat 0 4 }) ∧
      (∀ s, live s = true → d0 s → exec (w (a + 12)) s = exec (if bit v.toNat 0 then .hringEnable tx n else .hringDisable tx n) (control s)) ∧
      acts (a + 16) any (.hringProdWrite tx n (v.setWidth 16)) ∧ acts (a + 24) (fun _ => bit v.toNat 31 = true) (.hringResume tx n) ∧
      takes (a + 24) (fun _ => bit v.toNat 31 = false) id) ∧
    -- Time bases.
    (∀ n : Fin 4,
      let a : Nat := 0x200000 + 64 * n
      let free (s : State) : Prop := (vget s.time.tb n).fwOwned = false
      takes (a + 0x10) free (withTb n fun t => { t with incLo := v }) ∧ acts (a + 0x14) any (.tbIncCommit n v) ∧
      acts (a + 0x18) any (.tbDitherCommit n v) ∧ acts (a + 0x1C) (fun _ => bit v.toNat 0 = true) (.tbCmdSet n v) ∧
      acts (a + 0x1C) (fun _ => bit v.toNat 0 = false) (.tbCmdAdj n v) ∧
      takes (a + 0x20) free (withTb n fun t => { t with setNs := v }) ∧ takes (a + 0x24) free (withTb n fun t => { t with setLo := v }) ∧
      takes (a + 0x28) free (withTb n fun t => { t with setHi := v }) ∧ takes (a + 0x30) free (withTb n fun t => { t with adjNs := v }) ∧
      takes (a + 0x34) free (withTb n fun t => { t with adjS := v }) ∧
      (∀ k ∈ [0x10, 0x14, 0x18, 0x1C, 0x20, 0x24, 0x28, 0x30, 0x34], takes (a + k) (fun s => ¬ free s) id) ∧
      takes (a + 0x0C) any (withTb n fun t => { t with
        sat := t.sat && !bit v.toNat 11, incInv := t.incInv && !bit v.toNat 10, adjInv := t.adjInv && !bit v.toNat 9
        setInv := t.setInv && !bit v.toNat 8 })) ∧
    acts 0x200100 any (.tbCaptureGo v) ∧
    takes 0x200108 any (withTime fun t => { t with ppsEarly := t.ppsEarly && !bit v.toNat 1 }) ∧
    -- RTC: an unlocked interface takes the write, a locked one only notes that the unlock sequence is broken.
    (let open_ (s : State) : Prop := s.rtc.locked = false
      let sets (a : Nat) (f : Rtc → Rtc) : Prop := takes a open_ (withRtc fun r => { f r with armed := false }) ∧
        takes a (fun s => ¬ open_ s) (withRtc fun r => { r with armed := false })
      sets 0x201010 (fun r => { r with holdDate := v &&& 0x01FF0F1F#32 }) ∧ sets 0x201014 (fun r => { r with holdTime := v &&& 0x001F3F00#32 }) ∧
      acts 0x201018 any (.rtcCommit v) ∧ sets 0x201020 (fun r => { r with alarm := v &&& 0x009F9FBF#32 }) ∧
      (let sel := if bits v.toNat 0 3 ≤ 4 then bits v.toNat 0 3 else 0
       sets 0x20101C fun r => { r with alarmEn := bit v.toNat 4, sqwSel := sel, sqwNew := r.sqwNew || sel != r.sqwSel }) ∧
      sets 0x201024 (fun r => { r with alarmHit := r.alarmHit && !bit v.toNat 3, yearWrap := r.yearWrap && !bit v.toNat 2
                                       dateInvalid := r.dateInvalid && !bit v.toNat 1 }) ∧
      sets 0x201028 (fun r => { r with wakeWur := r.wakeWur && !bit v.toNat 0, wakeAlarm := r.wakeAlarm && !bit v.toNat 1 }) ∧
      acts 0x20102C any (.rtcUnlock v) ∧
      (∀ i, i < 16 → sets (0x201040 + 4 * i)
        (fun r => { r with backup := vset (vset (vset (vset r.backup (4 * i) (byte v.toNat)) (4 * i + 1) (byte (v.toNat / 2 ^ 8)))
          (4 * i + 2) (byte (v.toNat / 2 ^ 16))) (4 * i + 3) (byte (v.toNat / 2 ^ 24)) }))) ∧
    -- Coexistence, life cycle, firmware load.
    takes 0x202000 any (fun s => coexAll { s with
      coex := { s.coex with ctrl := v &&& 0x0000FFF7#32 }
      fe := Vector.ofFn fun (r : Fin 3) => if bit v.toNat r && !coexEn r s then { s.fe[r] with reqAt := s.now } else s.fe[r] }) ∧
    takes 0x202004 any (fun s => coexAll { s with coex := { s.coex with policy := v &&& 0x00FFFFFF#32 } }) ∧
    takes 0x202008 any (fun s => { s with coex := { s.coex with maxHold := min 1000000 (max 1 (v.toNat % 2 ^ 20)) } }) ∧
    takes 0x20200C any (fun s => { s with coex := { s.coex with toggle := v.toNat % 2 ^ 16 } }) ∧
    takes 0x202010 any (fun s => { s with coex := { s.coex with
      stuck := s.coex.stuck &&& ~~~(v.extractLsb' 8 3), fast := s.coex.fast &&& ~~~(v.extractLsb' 11 3) } }) ∧
    acts 0x203004 (fun _ => bit v.toNat 0 = false) (.sysReset v) ∧ acts 0x203004 (fun _ => bit v.toNat 1 = false) (.applyToken v) ∧
    takes 0x203018 any (withLife fun l => { l with lcWdt := v &&& 0x1FF#32 }) ∧
    (∀ o, o < 0x200 → o % 4 = 0 → takes (0x203200 + o) any fun s => { s with bar := memWrite s.bar (0x203200 + o) (le 4 v.toNat) }) ∧
    (∀ o, o < 0x7F000 → o % 4 = 0 →
      takes (0x300000 + o) (fun s => windowOpen s = true) (fun s => { s with mpRam := memWrite s.mpRam o (le 4 v.toNat) }) ∧
      takes (0x300000 + o) (fun s => windowOpen s = false) id) ∧
    (∀ o, 0x7F000 ≤ o → o < 0x7FF000 → o % 4 = 0 →
      takes (0x301000 + o) (fun s => windowOpen s = true) (fun s => { s with mpRam := memWrite s.mpRam o (le 4 v.toNat) }) ∧
      takes (0x301000 + o) (fun s => windowOpen s = false) id) ∧
    acts 0x37F000 (fun _ => bit v.toNat 0 = true) .fwlStart

/-! The whole block. -/

/-- A step takes the command at the front of the queue and runs it on the state with the queue's rest; an empty queue lets one tick of the
air-timing clock pass (the model's choice, log entry 1). -/
def Obligations.StepTakesTheFrontCommand : Prop :=
  (∀ c rest s, s.pending = c :: rest → step s = exec c { s with pending := rest }) ∧ (∀ s, s.pending = [] → step s = .next (tick s))

/-- Every command answers a next state, in every state, and leaves the queue to `step`: no fault, no refusal. -/
def Obligations.EveryCommandAnswers : Prop := ∀ i s, ∃ t, exec i s = .next t ∧ t.pending = s.pending

/-- R3, R11, R37, R42, R45, R78: a mailbox row starts only its mailbox's next command, only while Builmin runs, and only its own opcode; the
checks come in order, the first failure is the status, and a command that fails any of them makes no change. -/
def Obligations.CommandsAreCheckedInOrder : Prop :=
  ∀ i m buf f run, mailboxRow i = some (m, buf, f, run) → ∀ s,
    (running s = false ∨ nextCmd (vget s.host.mbx m).cmds = none → exec i s = .next s) ∧
    ∀ r, running s = true → nextCmd (vget s.host.mbx m).cmds = some r →
      let ps := cmdParams f r buf
      let ends (st : Status) : Prop := exec i s = .next (finish r.handle st [] s)
      let passes : Prop := hdrOpcode r = f.opcode ∧ lengthOk f r ps = true ∧ paramOk f r ps = true ∧ (needsDram f.opcode = true → s.dram.ready = true)
      (opcodeDefined (hdrOpcode r) = false → exec (.nop m buf) s = .next (finish r.handle .badOpcode [] s)) ∧
      (opcodeDefined (hdrOpcode r) = true → hdrOpcode r ≠ f.opcode → exec i s = .next s) ∧
      (hdrOpcode r = f.opcode → lengthOk f r ps = false → ends .badLength) ∧
      (hdrOpcode r = f.opcode → lengthOk f r ps = true → paramOk f r ps = false → ends .badParam) ∧
      (hdrOpcode r = f.opcode → lengthOk f r ps = true → paramOk f r ps = true → needsDram f.opcode = true → s.dram.ready = false →
        ends .wrongState) ∧
      (∀ st, passes → run (cmdOf f m buf r) (begun r s) = .fail st → ends st) ∧
      (∀ st data t, passes → run (cmdOf f m buf r) (begun r s) = .complete st data t → exec i s = .next (finish r.handle st data t)) ∧
      (∀ t, passes → run (cmdOf f m buf r) (begun r s) = .hold t → exec i s = .next t)

/-- R33, R34: outside D3hot, a write of MBX_CMD, of the unlock token or of the open load window changes the four bytes it names, lowest
first, and no other byte of the BAR0 memories or of MP RAM; the memories keep their canonical form. -/
def Obligations.MemoryWritesAreLocal : Prop :=
  ∀ (v : Word) s a, live s = true → s.host.pcie.d3hot = false → memWf s.bar = true → memWf s.mpRam = true → a % 4 = 0 →
    let run : Instr := .registerWrite (.bar a 4 (BitVec.ofNat 64 v.toNat))
    let stored (m n : Mem) (b : Nat) : Prop := memWf n = true ∧ (∀ k, k < 4 → memByte n (b + k) = byte (v.toNat / 2 ^ (8 * k))) ∧
      ∀ c, c < b ∨ b + 4 ≤ c → memByte n c = memByte m c
    (0x203200 ≤ a ∧ a < 0x203400 ∨ (0x10000 ≤ a ∧ a < 0x18000 ∧ a % 0x1000 < 0x100) →
      Gives run s fun t => stored s.bar t.bar a ∧ t.mpRam = s.mpRam) ∧
    (∀ o, (a = 0x300000 + o ∧ o < 0x7F000 ∨ a = 0x301000 + o ∧ 0x7F000 ≤ o ∧ o < 0x7FF000) → windowOpen s = true →
      Gives run s fun t => stored s.mpRam t.mpRam o ∧ t.bar = s.bar)

/-- R66: while the device is held in reset (a wipe runs, PERST_N is low, or a supply is missing), every command changes nothing but those
of the reset logic, the supplies, the reference, the battery domain, the wake receiver, and the register writes of R66. -/
def Obligations.HeldInReset : Prop := ∀ i s, live s = false → worksInReset i = false → exec i s = .next s

/-- The reset state is sound. -/
def Obligations.ResetIsSound : Prop := Sound State.reset

/-- Every step keeps the state sound: the memories canonical (R33), the calendar and a waiting commit valid (R428, R434), and no reserved bit
set in a register of the RTC (R3). -/
def Obligations.EveryStepKeepsSound : Prop := ∀ s t, Sound s → step s = .next t → Sound t
end

