-- ==== Sys2Proof/Laws/Command.lean ====
section
/-!
SUPPORT. What the shared operations do, said once: the two guards, the mailbox command, the step.
-/
namespace Sys2Proof.Machine
open Sys2Proof

theorem whenLive_live {s : State} {f : State → State} (h : live s = true) : whenLive s f = .next (f s) := by simp [whenLive, h]

theorem whenLive_dead {s : State} {f : State → State} (h : live s = false) : whenLive s f = .next s := by simp [whenLive, h]

theorem whenRunning_running {s : State} {f : State → State} (h : running s = true) : whenRunning s f = .next (f s) := by
  simp [whenRunning, h]

theorem whenRunning_idle {s : State} {f : State → State} (h : running s = false) : whenRunning s f = .next s := by
  simp [whenRunning, h]

theorem whenLive_next (s : State) (f : State → State) : ∃ t, whenLive s f = .next t := ⟨_, rfl⟩

theorem whenRunning_next (s : State) (f : State → State) : ∃ t, whenRunning s f = .next t := ⟨_, rfl⟩

theorem running_live {s : State} (h : running s = true) : live s = true := by
  simp only [running, Bool.and_eq_true] at h
  exact h.1.1

/-- A command always answers a next state. -/
theorem command_next (f : Form) (m : Nat) (buf : List Byte) (s : State) (run : Cmd → State → Effect) :
    ∃ t, command f m buf s run = .next t := by
  unfold command
  split
  · exact ⟨_, rfl⟩
  · split
    · exact ⟨_, rfl⟩
    · split
      · exact ⟨_, rfl⟩
      · dsimp only
        split
        · exact ⟨_, rfl⟩
        · split <;> exact ⟨_, rfl⟩

/-- A ready command is what its run makes of it. -/
theorem command_ready {f : Form} {m : Fin 8} {buf : List Byte} {r : CmdRec} {s : State} (run : Cmd → State → Effect)
    (h : Ready f m buf r s) :
    command f m buf s run =
      match run (cmdOf f m buf r) (begun r s) with
      | .fail st => .next (finish r.handle st [] s)
      | .complete st data t => .next (finish r.handle st data t)
      | .ahead st data t => .next (finishAhead r st data t)
      | .hold t => .next t := by
  obtain ⟨h1, h2, h3, h4⟩ := h
  unfold command
  rw [if_neg (by simp [h1]), h2]
  simp only [h3, ne_eq, not_true_eq_false, if_false, h4]
  rfl

/-- A mailbox whose next command is another one, or none, is left alone. -/
theorem command_other {f : Form} {m : Nat} {buf : List Byte} {s : State} (run : Cmd → State → Effect)
    (h : ∀ r, nextCmd (vget s.host.mbx m).cmds = some r → hdrOpcode r ≠ f.opcode) : command f m buf s run = .next s := by
  unfold command
  split
  · rfl
  · split
    · rfl
    · next r hr => simp [h r hr]

/-- A command that fails one of its checks ends with that status and changes nothing else. -/
theorem command_failed {f : Form} {m : Nat} {buf : List Byte} {r : CmdRec} {s : State} {st : Status} (run : Cmd → State → Effect)
    (h1 : running s = true) (h2 : nextCmd (vget s.host.mbx m).cmds = some r) (h3 : hdrOpcode r = f.opcode)
    (h4 : cmdCheck f r (cmdParams f r buf) s = some st) : command f m buf s run = .next (finish r.handle st [] s) := by
  unfold command
  rw [if_neg (by simp [h1]), h2]
  simp only [h3, ne_eq, not_true_eq_false, if_false, h4]

/-- A step on a queue with a command at its front. -/
theorem step_cons {s : State} {c : Instr} {rest : List Instr} (h : s.pending = c :: rest) :
    step s = exec c { s with pending := rest } := by
  unfold step; rw [h]

theorem step_nil {s : State} (h : s.pending = []) : step s = .next (tick s) := by
  unfold step; rw [h]

end Sys2Proof.Machine
end

