-- ==== Sys2Proof/Laws/Lane.lean ====
section
/-!
SUPPORT. The issue of a lane's next instruction, said once: under what a lane must be for its row's instruction to come next, each result of the
row is what becomes of the lane.
-/
namespace Sys2Proof.Machine
open Sys2Proof

theorem withLane_const (l : Nat) (f : Lane → Lane) (s : State) : withLane l f s = withLane l (fun _ => f (lane l s)) s := rfl

theorem AtWord.nextOp_eq {l op w : Nat} {s : State} (h : AtWord l op w s) : nextOp (lane l s) = op := by
  simp [nextOp, h.inC, h.inReach, h.word, h.op]

/-- With nothing found by the checks, the row of the next opcode decides. -/
theorem AtWord.issue_eq {l op w : Nat} {s : State} (h : AtWord l op w s) {own : Nat → Bool} (ho : own op = true)
    (run : Lease → FreeMove → Lane → LaneRes) :
    issue l .ok own run s =
      match run (jobLease (lane l s) s) (freeMoves (lane l s) s).1 (lane l s) with
      | .hold => s
      | .illegal => endJob l 1 s
      | .sandbox => endJob l 2 s
      | .done c z => withLane l (fun _ => { z with steps := (lane l s).steps + c }) (freeMoves (lane l s) s).2 := by
  unfold issue
  exact if_neg (by simp [h.may, h.nextOp_eq, ho, h.budget])

/-- Another row's instruction is left alone. -/
theorem issue_other {l : Nat} {chk : LaneCheck} {own : Nat → Bool} {run : Lease → FreeMove → Lane → LaneRes} {s : State}
    (h : own (nextOp (lane l s)) = false) : issue l chk own run s = s := by
  unfold issue
  rw [if_pos (by simp [h])]

/-- A format K row takes no moves and draws no value. -/
theorem freeMoves_scalar {x : Lane} {s : State} (h : opOf (fetched x) < 0x20) : freeMoves x s = (noFree, s) := by
  unfold freeMoves
  rw [if_neg (by simp; omega)]

/-- The values under a running transfer are drawn; nothing of Harrow changes. -/
@[simp] theorem freeMoves_harrow (x : Lane) (s : State) : (freeMoves x s).2.harrow = s.harrow := by
  unfold freeMoves
  split <;> rfl

@[simp] theorem lane_freeMoves (l : Nat) (x : Lane) (s : State) : lane l (freeMoves x s).2 = lane l s := by simp [lane]

theorem AtWord.row {l : Fin 16} {op w : Nat} {s : State} (h : AtWord l op w s) (run : Nat → FreeMove → Lane → LaneRes) :
    laneRow op l .ok run s =
      .next (match run w (freeMoves (lane l s) s).1 (lane l s) with
        | .hold => s
        | .illegal => endJob l 1 s
        | .sandbox => endJob l 2 s
        | .done c z => withLane l (fun _ => { z with steps := (lane l s).steps + c }) (freeMoves (lane l s) s).2) := by
  unfold laneRow whenLive
  rw [if_pos h.live, h.issue_eq (by simp)]
  simp only [h.word]

theorem AtWord.rowK {l : Fin 16} {op w : Nat} {s : State} (h : AtWord l op w s) (hk : op < 0x20) (run : Nat → Lane → LaneRes) :
    laneRowK op l .ok run s =
      .next (match run w (lane l s) with
        | .hold => s
        | .illegal => endJob l 1 s
        | .sandbox => endJob l 2 s
        | .done c z => withLane l (fun _ => { z with steps := (lane l s).steps + c }) s) := by
  unfold laneRowK
  rw [h.row, freeMoves_scalar (by rw [h.word, h.op]; exact hk)]

theorem kRes_done {w : Nat} {ok : Bool} {run : Lane → Lane} {x : Lane} (h : bits w 32 15 = 0) (ho : ok = true) :
    kRes w ok run x = .done (stepCost x 0 false) (advance (run (afterFetch x))) := by simp [kRes, h, ho]

theorem kJump_done {w : Nat} {ok : Bool} {cost : Nat} {run : Lane → Lane} {x : Lane} (h : bits w 32 15 = 0) (ho : ok = true) :
    kJump w ok cost run x = .done cost (run (afterFetch x)) := by simp [kJump, h, ho]

theorem vRes_done {w : Nat} {ok : Bool} {dests : List Nat} {run : Lane → Lane} {free : FreeMove} {x : Lane} (h : bit w 0 = false)
    (ho : ok = true) (hs : slotsLegal w x = true) (hn : (loaded w ++ dests).Nodup)
    (hf : x.fallback = true → ∀ q ∈ touched w x, q.2 < 4096) :
    vRes w ok dests run free x =
      .done (stepCost x (activeSlots w).length (slotAt w 2).en) (advance (doMoves w x free (run (afterFetch x)))) := by
  unfold vRes
  rw [if_neg (by simp [h, ho, hs, hn]), if_neg]
  intro hc
  simp only [Bool.and_eq_true, List.any_eq_true, decide_eq_true_eq] at hc
  obtain ⟨h1, q, hq, h2⟩ := hc
  have := hf h1 q hq
  omega

theorem kRes_illegal {w : Nat} {ok : Bool} {run : Lane → Lane} {x : Lane} (h : bits w 32 15 ≠ 0 ∨ ok = false) : kRes w ok run x = .illegal := by
  unfold kRes; rw [if_pos (by rcases h with h | h <;> simp [h])]

theorem vRes_illegal {w : Nat} {ok : Bool} {dests : List Nat} {run : Lane → Lane} {free : FreeMove} {x : Lane}
    (h : bit w 0 = true ∨ slotsLegal w x = false ∨ ¬ (loaded w).Nodup) : vRes w ok dests run free x = .illegal := by
  unfold vRes
  rw [if_pos]
  rcases h with h | h | h
  · simp [h]
  · simp [h]
  · have : ¬ (loaded w ++ dests).Nodup := fun c => h (List.nodup_append.mp c).1
    simp [this]

end Sys2Proof.Machine
end

