-- ==== Sys2Proof/Laws/Memory.lean ====
section
/-!
SUPPORT. Sparse tables and the byte memory: reads after writes, and every memory operation keeps the canonical form.
-/
namespace Sys2Proof.Machine
open Sys2Proof

/-- Every key of the table is above `a`. -/
def kabove {α : Type} (a : Nat) (m : KMap α) : Prop := ∀ p ∈ m, a < p.1

theorem ksorted_cons {α : Type} (a : Nat) (v : α) (m : KMap α) :
    ksorted ((a, v) :: m) = true ↔ kabove a m ∧ ksorted m = true := by
  induction m generalizing a v with
  | nil => simp [ksorted, kabove]
  | cons p r ih =>
    obtain ⟨b, w⟩ := p
    simp only [ksorted, Bool.and_eq_true, decide_eq_true_eq]
    constructor
    · rintro ⟨h, hs⟩
      refine ⟨?_, hs⟩
      intro q hq
      rcases List.mem_cons.mp hq with rfl | hq
      · exact h
      · exact Nat.lt_trans h (((ih b w).mp hs).1 q hq)
    · rintro ⟨h, hs⟩
      exact ⟨h (b, w) (List.mem_cons_self ..), hs⟩

theorem kget_above {α : Type} {a : Nat} {m : KMap α} (h : kabove a m) : kget m a = none := by
  induction m with
  | nil => rfl
  | cons p r ih =>
    obtain ⟨b, w⟩ := p
    have hb : a < b := h (b, w) (List.mem_cons_self ..)
    simp only [kget]
    rw [if_neg (by omega)]
    exact ih fun q hq => h q (List.mem_cons_of_mem _ hq)

@[simp] theorem kget_kset_same {α : Type} (m : KMap α) (i : Nat) (a : α) : kget (kset m i a) i = some a := by
  induction m with
  | nil => simp [kset, kget]
  | cons p r ih =>
    obtain ⟨k, v⟩ := p
    simp only [kset]
    split
    · simp [kget]
    · split
      · simp [kget]
      · simp [kget, *]

theorem kget_kset_other {α : Type} (m : KMap α) {i j : Nat} (a : α) (h : j ≠ i) : kget (kset m i a) j = kget m j := by
  induction m with
  | nil => simp [kset, kget, h]
  | cons p r ih =>
    obtain ⟨k, v⟩ := p
    simp only [kset]
    split
    · simp [kget, h]
    · split
      · subst k; simp [kget, h]
      · simp only [kget, ih]

theorem mem_kset {α : Type} {m : KMap α} {i : Nat} {a : α} {p : Nat × α} (h : p ∈ kset m i a) : p = (i, a) ∨ p ∈ m := by
  induction m with
  | nil => simpa [kset] using h
  | cons q r ih =>
    obtain ⟨k, v⟩ := q
    simp only [kset] at h
    split at h
    · rcases List.mem_cons.mp h with rfl | h
      · exact .inl rfl
      · exact .inr h
    · split at h
      · rcases List.mem_cons.mp h with rfl | h
        · exact .inl rfl
        · exact .inr (List.mem_cons_of_mem _ h)
      · rcases List.mem_cons.mp h with rfl | h
        · exact .inr (List.mem_cons_self ..)
        · exact (ih h).imp id (List.mem_cons_of_mem _)

/-- Setting a key keeps the keys rising. -/
theorem ksorted_kset {α : Type} {m : KMap α} (i : Nat) (a : α) (h : ksorted m = true) : ksorted (kset m i a) = true := by
  induction m with
  | nil => rfl
  | cons q r ih =>
    obtain ⟨k, v⟩ := q
    have hs := (ksorted_cons k v r).mp h
    simp only [kset]
    split
    · rename_i hik
      refine (ksorted_cons i a _).mpr ⟨?_, h⟩
      intro p hp
      rcases List.mem_cons.mp hp with rfl | hp
      · exact hik
      · exact Nat.lt_trans hik (hs.1 p hp)
    · split
      · subst k; exact (ksorted_cons i a r).mpr hs
      · refine (ksorted_cons k v _).mpr ⟨?_, ih hs.2⟩
        intro p hp
        rcases mem_kset hp with rfl | hp
        · simp only; omega
        · exact hs.1 p hp

/-- Removing keys keeps the rest rising. -/
theorem ksorted_filter {α : Type} {m : KMap α} (q : Nat × α → Bool) (h : ksorted m = true) : ksorted (m.filter q) = true := by
  induction m with
  | nil => rfl
  | cons p r ih =>
    obtain ⟨k, v⟩ := p
    have hs := (ksorted_cons k v r).mp h
    simp only [List.filter]
    split
    · refine (ksorted_cons k v _).mpr ⟨?_, ih hs.2⟩
      intro x hx
      exact hs.1 x (List.mem_filter.mp hx).1
    · exact ih hs.2

theorem ksorted_kdel {α : Type} {m : KMap α} (i : Nat) (h : ksorted m = true) : ksorted (kdel m i) = true := ksorted_filter _ h

/-- Changing values keeps the keys rising. -/
theorem ksorted_kmod {α : Type} {m : KMap α} (i : Nat) (f : α → α) (h : ksorted m = true) : ksorted (kmod m i f) = true := by
  induction m with
  | nil => rfl
  | cons p r ih =>
    obtain ⟨k, v⟩ := p
    have hs := (ksorted_cons k v r).mp h
    have hk : kmod ((k, v) :: r) i f = (k, if k = i then f v else v) :: kmod r i f := by
      simp only [kmod, List.map_cons]; split <;> rfl
    rw [hk]
    refine (ksorted_cons k _ _).mpr ⟨?_, ih hs.2⟩
    intro x hx
    obtain ⟨y, hy, rfl⟩ := List.mem_map.mp hx
    have := hs.1 y hy
    split <;> exact this

theorem kget_kdel_same {α : Type} (m : KMap α) (i : Nat) : kget (kdel m i) i = none := by
  induction m with
  | nil => rfl
  | cons p r ih =>
    obtain ⟨k, v⟩ := p
    by_cases h : k = i
    · subst k; simpa [kdel] using ih
    · have : kdel ((k, v) :: r) i = (k, v) :: kdel r i := by simp [kdel, h]
      rw [this]
      simp only [kget]
      rw [if_neg (Ne.symm h)]
      exact ih

theorem kget_kdel_other {α : Type} (m : KMap α) {i j : Nat} (h : j ≠ i) : kget (kdel m i) j = kget m j := by
  induction m with
  | nil => rfl
  | cons p r ih =>
    obtain ⟨k, v⟩ := p
    by_cases hk : k = i
    · subst k
      have : kdel ((i, v) :: r) i = kdel r i := by simp [kdel]
      rw [this, ih]; simp [kget, h]
    · have : kdel ((k, v) :: r) i = (k, v) :: kdel r i := by simp [kdel, hk]
      rw [this]; simp only [kget, ih]

/-! The byte memory. -/

theorem memWf_iff (m : Mem) : memWf m = true ↔ ksorted m = true ∧ ∀ p ∈ m, p.2 ≠ 0 := by
  simp [memWf, List.all_eq_true]

/-- A byte store keeps the canonical form. -/
theorem memSet_wf {m : Mem} (a : Nat) (b : Byte) (h : memWf m = true) : memWf (memSet m a b) = true := by
  obtain ⟨hs, hz⟩ := (memWf_iff m).mp h
  unfold memSet
  split
  · refine (memWf_iff _).mpr ⟨ksorted_kdel a hs, ?_⟩
    intro p hp
    exact hz p (List.mem_filter.mp hp).1
  · rename_i hb
    refine (memWf_iff _).mpr ⟨ksorted_kset a b hs, ?_⟩
    intro p hp
    rcases mem_kset hp with rfl | hp
    · exact hb
    · exact hz p hp

/-- A store of bytes keeps the canonical form. -/
theorem memWrite_wf {m : Mem} (l : List Byte) (a : Nat) (h : memWf m = true) : memWf (memWrite m a l) = true := by
  induction l generalizing m a with
  | nil => exact h
  | cons b r ih => exact ih (a + 1) (memSet_wf a b h)

@[simp] theorem memByte_memSet_same (m : Mem) (a : Nat) (b : Byte) : memByte (memSet m a b) a = b := by
  unfold memByte memSet
  split
  · subst b; simp [kget_kdel_same]
  · simp

theorem memByte_memSet_other (m : Mem) {a c : Nat} (b : Byte) (h : c ≠ a) : memByte (memSet m a b) c = memByte m c := by
  unfold memByte memSet
  split
  · rw [kget_kdel_other m h]
  · rw [kget_kset_other m b h]

/-- A byte below a store reads as before. -/
theorem memByte_memWrite_below (m : Mem) (a : Nat) (l : List Byte) {c : Nat} (h : c < a) : memByte (memWrite m a l) c = memByte m c := by
  induction l generalizing m a with
  | nil => rfl
  | cons b r ih =>
    show memByte (memWrite (memSet m a b) (a + 1) r) c = memByte m c
    rw [ih (memSet m a b) (a + 1) (by omega), memByte_memSet_other m b (by omega)]

/-- A byte above a store reads as before. -/
theorem memByte_memWrite_above (m : Mem) (a : Nat) (l : List Byte) {c : Nat} (h : a + l.length ≤ c) :
    memByte (memWrite m a l) c = memByte m c := by
  induction l generalizing m a with
  | nil => rfl
  | cons b r ih =>
    show memByte (memWrite (memSet m a b) (a + 1) r) c = memByte m c
    simp only [List.length_cons] at h
    rw [ih (memSet m a b) (a + 1) (by omega), memByte_memSet_other m b (by omega)]

/-- A byte of a store reads back. -/
theorem memByte_memWrite_at (m : Mem) (a : Nat) (l : List Byte) (i : Nat) (h : i < l.length) :
    memByte (memWrite m a l) (a + i) = l[i] := by
  induction l generalizing m a i with
  | nil => simp at h
  | cons b r ih =>
    show memByte (memWrite (memSet m a b) (a + 1) r) (a + i) = (b :: r)[i]
    cases i with
    | zero =>
      show memByte (memWrite (memSet m a b) (a + 1) r) a = b
      rw [memByte_memWrite_below _ _ _ (by omega), memByte_memSet_same]
    | succ k =>
      have := ih (memSet m a b) (a + 1) k (by simpa using h)
      rw [show a + (k + 1) = a + 1 + k by omega, this]; rfl

/-! Indexed registers. -/

@[simp] theorem vget_vset_same {α : Type} [Inhabited α] {n : Nat} (v : Vector α n) (i : Nat) (a : α) (h : i < n) : vget (vset v i a) i = a := by
  simp [vget, vset, h]

theorem vget_vset_other {α : Type} [Inhabited α] {n : Nat} (v : Vector α n) {i j : Nat} (a : α) (h : j ≠ i) :
    vget (vset v i a) j = vget v j := by
  simp [vget, vset, Vector.getElem?_setIfInBounds, Ne.symm h]

@[simp] theorem vget_vmod_same {α : Type} [Inhabited α] {n : Nat} (v : Vector α n) (i : Nat) (f : α → α) (h : i < n) :
    vget (vmod v i f) i = f (vget v i) := by simp [vmod, h]

theorem vget_vmod_other {α : Type} [Inhabited α] {n : Nat} (v : Vector α n) {i j : Nat} (f : α → α) (h : j ≠ i) :
    vget (vmod v i f) j = vget v j := vget_vset_other v _ h

/-- Two changes of one register are one. -/
theorem vmod_vmod {α : Type} [Inhabited α] {n : Nat} (v : Vector α n) (i : Nat) (f g : α → α) :
    vmod (vmod v i f) i g = vmod v i fun x => g (f x) := by
  ext k hk
  by_cases h : k = i
  · subst h; simp [vmod, vset, vget, hk]
  · simp [vmod, vset, Vector.getElem_setIfInBounds, Ne.symm h]

end Sys2Proof.Machine
end

