-- ==== Sys2Proof/WellFormed.lean ====
section
/-!
DEFINITION. Which commands are well formed: what their operand types do not bound by themselves. `Instr.bytes`: how many bytes the
world outside brings with a command (a host buffer, a frame, a payload); no buffer or frame of the manual is longer than 65,536 bytes
(R37, R54). `Instr.ranges`: the sizes of host accesses (R34), descriptors (Tables 2.20, 2.23), event data (Table 2.16), Kennar payloads.
-/
namespace Sys2Proof
open Sys2Proof

/-- One access to BAR0: one to eight bytes inside it (Table 2.1). R34 says which of them act. -/
def regWriteWf (w : RegWrite) : Bool :=
  match w with
  | .bar offset size _ => 1 ≤ size && size ≤ 8 && offset + size ≤ 0x1000000
  | _ => true

/-- A word of a lane's memories or of its loop cache (R213). -/
def checkWf (c : LaneCheck) : Bool :=
  match c with
  | .ok | .retried | .residue => true
  | .memory _ word => word < 8192
  | .cache word => word < 64

/-- Addresses of six bytes. -/
def mpduWf (m : Mpdu) : Bool := [m.ra, m.ta, m.bssid, m.da, m.sa].all fun a => a.length == 6 || a.isEmpty

/-- Bytes that come with a command. -/
def Instr.bytes : Instr → Nat
  | .nop _ buf => buf.length
  | .getVersion _ buf => buf.length
  | .abortCommand _ buf => buf.length
  | .hostGetCounters _ buf => buf.length
  | .radioGetState _ buf => buf.length
  | .radioSetState _ buf => buf.length
  | .radioSetChannel _ buf => buf.length
  | .radioCalibrate _ buf => buf.length
  | .radioSetFemMap _ buf => buf.length
  | .radioSetRamp _ buf => buf.length
  | .radioSetChain _ buf => buf.length
  | .radioRestoreChain _ buf => buf.length
  | .radioGetChain _ buf => buf.length
  | .radioGetCounters _ buf => buf.length
  | .radioRffeTransfer _ buf _ => buf.length
  | .phySetRx _ buf => buf.length
  | .phySetFormats _ buf => buf.length
  | .phyGetConfig _ buf => buf.length
  | .phyGetReport _ buf => buf.length
  | .phyReadHistory _ buf => buf.length
  | .phyGetCounters _ buf => buf.length
  | .phyTestTx _ buf => buf.length
  | .macSetBss _ buf => buf.length
  | .macSetBeacon _ buf => buf.length
  | .macSetEdca _ buf => buf.length
  | .macSetCca _ buf => buf.length
  | .macAddSta _ buf => buf.length
  | .macDelSta _ buf => buf.length
  | .macSetBaPolicy _ buf => buf.length
  | .macSetMld _ buf => buf.length
  | .macSetTwt _ buf => buf.length
  | .macSetUplink _ buf => buf.length
  | .macSetRetry _ buf => buf.length
  | .macGetCounters _ buf => buf.length
  | .macGetSta _ buf => buf.length
  | .schedSetAcWeights _ buf => buf.length
  | .schedSetBssShare _ buf => buf.length
  | .schedSetSta _ buf => buf.length
  | .schedSetLimits _ buf => buf.length
  | .schedGetFurrow _ buf => buf.length
  | .schedGetSta _ buf => buf.length
  | .schedFlushQueue _ buf => buf.length
  | .schedGetCounters _ buf => buf.length
  | .harrowLease _ buf => buf.length
  | .harrowRelease _ buf => buf.length
  | .harrowSubmitJob _ buf => buf.length
  | .harrowStopJob _ buf => buf.length
  | .harrowGetStatus _ buf => buf.length
  | .harrowGetCounters _ buf => buf.length
  | .bfSetSounding _ buf => buf.length
  | .bfSetAgeing _ buf => buf.length
  | .bfSetPrecoder _ buf => buf.length
  | .bfRecalibrate _ buf => buf.length
  | .bfSetFemRecip _ buf => buf.length
  | .bfGetCsi _ buf => buf.length
  | .bfGetGroups _ buf => buf.length
  | .bfGetStatus _ buf => buf.length
  | .bfGetCounters _ buf => buf.length
  | .seederGetStatus _ buf => buf.length
  | .seederSetParams _ buf => buf.length
  | .seederGetPlacement _ buf => buf.length
  | .seederReadLog _ buf => buf.length
  | .seederSetFence _ buf => buf.length
  | .seederClearFence _ buf => buf.length
  | .seederGetFence _ buf => buf.length
  | .seederEvaluate _ buf => buf.length
  | .seederGetCounters _ buf => buf.length
  | .ropeJoin _ buf => buf.length
  | .ropeLeave _ buf => buf.length
  | .ropeGetStatus _ buf => buf.length
  | .ropeSetKey _ buf => buf.length
  | .ropeGetMember _ buf => buf.length
  | .ropeGetPitch _ buf => buf.length
  | .ropeGetCounters _ buf => buf.length
  | .timeSetRole _ buf => buf.length
  | .timeSetAsym _ buf => buf.length
  | .timeSetTsf _ buf => buf.length
  | .timeSetPps _ buf => buf.length
  | .timeGetStatus _ buf => buf.length
  | .timeGetTsf _ buf => buf.length
  | .timeGetCounters _ buf => buf.length
  | .routerSetParams _ buf => buf.length
  | .routerSetFlow _ buf => buf.length
  | .routerDelFlow _ buf => buf.length
  | .routerGetFlow _ buf => buf.length
  | .routerSetRule _ buf => buf.length
  | .routerSetRoute _ buf => buf.length
  | .routerSetNeigh _ buf => buf.length
  | .routerSetFdb _ buf => buf.length
  | .routerFlushFdb _ buf => buf.length
  | .routerSetDomain _ buf => buf.length
  | .routerSetPortPair _ buf => buf.length
  | .routerSetRingGroup _ buf => buf.length
  | .routerSetHash _ buf => buf.length
  | .routerSetIndirection _ buf => buf.length
  | .routerSetExcLimit _ buf => buf.length
  | .routerGetCounters _ buf => buf.length
  | .routerGetRule _ buf => buf.length
  | .ethConfigurePort _ buf => buf.length
  | .ethSetFilter _ buf => buf.length
  | .ethGetStatus _ buf _ _ => buf.length
  | .ethSetFallow _ buf => buf.length
  | .ethGetCounters _ buf => buf.length
  | .secGetIdentity _ buf => buf.length
  | .secOpenSession _ buf _ => buf.length
  | .secLoadKey _ buf => buf.length
  | .secDeleteKey _ buf => buf.length
  | .secBindKey _ buf => buf.length
  | .secGetKeyState _ buf => buf.length
  | .secSetStream _ buf => buf.length
  | .secMacsecPort _ buf => buf.length
  | .secMacsecSetSa _ buf => buf.length
  | .secSae _ buf _ _ => buf.length
  | .sec4way _ buf _ => buf.length
  | .secEapol _ buf _ => buf.length
  | .secGetCounters _ buf => buf.length
  | .dramConfigure _ buf => buf.length
  | .dramSetPolicy _ buf => buf.length
  | .dramSetRate _ buf => buf.length
  | .dramRetrain _ buf => buf.length
  | .dramGetStatus _ buf => buf.length
  | .dramGetErrors _ buf => buf.length
  | .dramGetCounters _ buf => buf.length
  | .relGetStatus _ buf => buf.length
  | .cairnRestore _ buf _ _ => buf.length
  | .cairnExport _ buf => buf.length
  | .relGetCounters _ buf => buf.length
  | .sysGetState _ buf => buf.length
  | .sysSetMode _ buf => buf.length
  | .powerEnterBivouac _ buf => buf.length
  | .wurSetRx _ buf => buf.length
  | .wurSetMatch _ buf => buf.length
  | .wurGetStatus _ buf => buf.length
  | .wurSend _ buf => buf.length
  | .wurGetCounters _ buf => buf.length
  | .dmaTransferDone _ _ data => data.length
  | .jobStart _ _ data => (data.map List.length).sum
  | .eventRaise _ _ data => data.length
  | .htxFrameFetch _ descs data => (descs.map List.length).sum + data.length
  | .hrxFrameDeliver _ descs => (descs.map List.length).sum
  | .mpduRx _ m => m.whole.length
  | .belay f => f.payload.length
  | .joinReq f => f.payload.length
  | .joinAck f => f.payload.length
  | .joinConfirm f => f.payload.length
  | .leave f => f.payload.length
  | .rosterReq f => f.payload.length
  | .roster f => f.payload.length
  | .report f => f.payload.length
  | .reportSend _ _ heard => (heard.map fun p => p.1.length).sum
  | .hello f => f.payload.length
  | .clients f => f.payload.length
  | .tReq f => f.payload.length
  | .tResp f => f.payload.length
  | .proposal f => f.payload.length
  | .plan f => f.payload.length
  | .fdbAge _ mac => mac.length
  | .ethFrameRx _ bytes _ _ _ _ _ _ => bytes.length
  | .harrowNop _ _ | .halt _ _ | .loop _ _ | .br _ _ | .sli _ _ | .sadd _ _
  | .pset _ _ | .xfer _ _ | .xwait _ _ | .swi _ _ | .rti _ _ | .tset _ _
  | .expclr _ _ | .expget _ _ | .idxset _ _ | .mmget _ _ | .move _ _ | .vadd _ _
  | .vsub _ _ | .vmuln _ _ | .vmulcn _ _ | .vmac _ _ | .vmacc _ _ | .vmsu _ _
  | .vmul0 _ _ | .vdotc _ _ | .vnrw _ _ | .vsha _ _ | .vconj _ _ | .vneg _ _
  | .vbfly _ _ | .vperm _ _ | .bexp _ _ | .vmaxi _ _ | .vmini _ _ | .vrcp _ _
  | .vrsq _ _ | .vsplat _ _ | .stepTimerExpiry _ | .interruptTaken _ | .jobBudget _ | .jobComplete _ _
  | .canaryMeasure _ _ | .telemSteal _ _ | .mbxDoorbell _ | .completionWrite _ | .cqHeadWrite _ _ | .cqEnable _
  | .cqDisable _ | .eventWrite | .evtHeadWrite _ | .evtEnable | .evtDisable | .evtLostRead
  | .evtFilteredRead | .coexGrantsRead _ | .watchdogExpiry | .coalesceTimeout _ | .msixDeferredSend _ | .msixUnmask _
  | .hringProdWrite _ _ _ | .hringEnable _ _ | .hringDisable _ _ | .hringIdle _ _ | .hringResume _ _ | .registerWrite _
  | .powerOnReset | .perstAssert | .perstRelease | .hotReset | .flr | .sysReset _
  | .wdtAutoReset | .thermalTrip | .thermalHoldClear | .thermalWarn _ | .wipeEnd | .applyToken _
  | .fuseProgramDone | .fwlStart | .imageVerified | .fwReady | .bivouacNAssert | .supplyRemoval _
  | .canaryReplan _ | .avsFault | .avsPauseEnd | .avsAck _ | .refLost | .refReturn
  | .commitPoint _ | .responderComplete _ _ | .hlEvaluate _ | .hlUndo _ | .radioStateApply _ | .radioTransitionEnd _
  | .radioAutoWake _ _ | .synTempSample _ _ | .calPendingStart _ | .calForced _ | .synCalEnd _ | .channelSwitch _ _
  | .derateResearch _ _ | .coexReqChange _ _ | .coexPriChange _ _ | .coexStuck _ | .preambleDetect _ _ _ | .sigValidate _ _
  | .searchResume _ | .restartDecision _ _ _ | .ldpcDecode _ _ _ | .rxPpduEnd _ _ | .txPpduStart _ _ _ _ | .txUnderrun _
  | .txPpduEnd _ _ | .wurFrameRx _ | .wurWindow _ | .wurCopyDue _ | .responseTimeout _ | .ccaChange _ _ _ _
  | .backoffSlot _ _ _ | .navRtsTimeout _ | .msduLifetimeExpiry _ | .defragTimeout _ | .reorderTimeout _ | .addbaRequest _ _ _ _
  | .twtSetupRequest _ _ _ _ _ _ | .saQuery _ _ | .tbtt _ _ | .bcnDeferred _ | .twtSpStart _ | .uplBeaconWindowEnd _
  | .furrowBuildStart _ _ _ _ | .furrowReady _ _ | .furrowLateWindow _ | .llUrgent _ _ | .llDeadline _ _ | .ulHoldEnd _
  | .coordTxopStart _ _ _ | .soundingFeedback _ _ _ | .csiExpired _ _ _ | .recipCalRequest _ | .recipCalStart _ | .recalForced _
  | .recipCalEnd _ _ | .groupRebuild _ _ | .seederEvaluation _ | .seederOverload _ _ _ _ _ | .forcedReplacement _ | .surveyDwell _ _ _ _
  | .surveySkip _ | .steerResponse _ _ | .steerTimeout _ | .belaySend | .belayWindowClose | .joinReqSend
  | .joinTimeout | .ropeForm | .helloSend | .clientsSend _ _ | .memberTimeout _ | .tReqSend
  | .tRespSend _ | .timeExchLost | .timeServoStep | .proposalSend _ _ _ | .proposalCutoff | .planSend
  | .coordSlotStart | .keyPhaseExpiry | .tbCmdSet _ _ | .tbCmdAdj _ _ | .tbIncCommit _ _ | .tbDitherCommit _ _
  | .tbTimeRead _ | .tbCaptureGo _ | .tbSaturate _ | .tbMasterTimeout _ | .ppsInEdge | .ppsInLost
  | .ppsOutEdge | .ppsOutFall | .launchJudge _ | .launchInstant _ _ | .routerClassify _ _ _ _ | .exceptionDeliver
  | .fragmentSlowPath _ _ | .slowFragTimeout | .flowAgeCheck | .pauseRx _ _ | .pauseEnd _ | .ethFrameTx _ _
  | .launchWireHold _ | .ethLinkUp _ _ _ _ | .ethLinkDown _ _ | .preemptVerify _ | .capsSend _ | .caps _ _ _
  | .fallowCapsTimeout _ | .fallowDownTrigger _ | .fallowUpTrigger _ | .stepReq _ _ _ _ | .stepAck _ _ | .stepNak _ _
  | .stepReqTimeout _ | .ethFallow _ _ | .cipherFrame _ _ _ _ | .keyHoldTimeout _ | .saeContextTimeout _ | .dramInitDone _
  | .dramRead _ _ | .dramWrite _ _ | .alertFall _ _ | .alertRise _ | .refDue _ _ | .refIssue _ _
  | .refPullIn _ _ | .tempRead _ _ | .zqCal _ | .retrainDue _ | .retrainStart _ _ | .retrainDone _ _ _
  | .rtcTime0Read _ | .rtcTime2Read | .rtcSnapshotExpiry | .rtcCommit _ | .rtcCommitLoad | .rtcUnlock _
  | .rtcLock | .vddIoGood | .batteryPowerUp | .rtcSecondTick | .oscStop _ | .oscResume
  | .gleanerAccess _ _ _ | .gleanerPassEnd _ | .gleanerEscalate _ | .weakRegionScrub _ _ _ | .arrayWriteback _ | .ternaryRepair _ _
  | .canarySample _ | .stressSample _ | .marginReplan _ _ | .gainCal _ _ _ _ | .cairnReady | .navExpiry _ _
  | .laneWipeDone _ | .surveyDwellEnd _ _ | .rateChange | .respondMpacket _ _ | .trngHealthFail => 0

/-- Ranges of a command's operands beyond their types. -/
def Instr.ranges : Instr → Bool
  | .harrowNop _ chk => checkWf chk
  | .halt _ chk => checkWf chk
  | .loop _ chk => checkWf chk
  | .br _ chk => checkWf chk
  | .sli _ chk => checkWf chk
  | .sadd _ chk => checkWf chk
  | .pset _ chk => checkWf chk
  | .xfer _ chk => checkWf chk
  | .xwait _ chk => checkWf chk
  | .swi _ chk => checkWf chk
  | .rti _ chk => checkWf chk
  | .tset _ chk => checkWf chk
  | .expclr _ chk => checkWf chk
  | .expget _ chk => checkWf chk
  | .idxset _ chk => checkWf chk
  | .mmget _ chk => checkWf chk
  | .move _ chk => checkWf chk
  | .vadd _ chk => checkWf chk
  | .vsub _ chk => checkWf chk
  | .vmuln _ chk => checkWf chk
  | .vmulcn _ chk => checkWf chk
  | .vmac _ chk => checkWf chk
  | .vmacc _ chk => checkWf chk
  | .vmsu _ chk => checkWf chk
  | .vmul0 _ chk => checkWf chk
  | .vdotc _ chk => checkWf chk
  | .vnrw _ chk => checkWf chk
  | .vsha _ chk => checkWf chk
  | .vconj _ chk => checkWf chk
  | .vneg _ chk => checkWf chk
  | .vbfly _ chk => checkWf chk
  | .vperm _ chk => checkWf chk
  | .bexp _ chk => checkWf chk
  | .vmaxi _ chk => checkWf chk
  | .vmini _ chk => checkWf chk
  | .vrcp _ chk => checkWf chk
  | .vrsq _ chk => checkWf chk
  | .vsplat _ chk => checkWf chk
  | .jobComplete _ chk => checkWf chk
  | .eventRaise _ _ data => data.length ≤ 16
  | .htxFrameFetch _ descs _ => descs.all (·.length == 32)
  | .hrxFrameDeliver _ descs => descs.all (·.length == 32)
  | .registerWrite w => regWriteWf w
  | .sigValidate _ sig => (sig.users.all (·.mcs ≤ 15))
  | .mpduRx _ m => mpduWf m
  | .belay f => f.payload.length ≤ 1500
  | .joinReq f => f.payload.length ≤ 1500
  | .joinAck f => f.payload.length ≤ 1500
  | .joinConfirm f => f.payload.length ≤ 1500
  | .leave f => f.payload.length ≤ 1500
  | .rosterReq f => f.payload.length ≤ 1500
  | .roster f => f.payload.length ≤ 1500
  | .report f => f.payload.length ≤ 1500
  | .reportSend _ _ heard => heard.all (·.1.length == 6)
  | .hello f => f.payload.length ≤ 1500
  | .clients f => f.payload.length ≤ 1500
  | .tReq f => f.payload.length ≤ 1500
  | .tResp f => f.payload.length ≤ 1500
  | .proposal f => f.payload.length ≤ 1500
  | .plan f => f.payload.length ≤ 1500
  | .fdbAge _ mac => mac.length == 6
  | .nop _ _ | .getVersion _ _ | .abortCommand _ _ | .hostGetCounters _ _ | .radioGetState _ _ | .radioSetState _ _
  | .radioSetChannel _ _ | .radioCalibrate _ _ | .radioSetFemMap _ _ | .radioSetRamp _ _ | .radioSetChain _ _ | .radioRestoreChain _ _
  | .radioGetChain _ _ | .radioGetCounters _ _ | .radioRffeTransfer _ _ _ | .phySetRx _ _ | .phySetFormats _ _ | .phyGetConfig _ _
  | .phyGetReport _ _ | .phyReadHistory _ _ | .phyGetCounters _ _ | .phyTestTx _ _ | .macSetBss _ _ | .macSetBeacon _ _
  | .macSetEdca _ _ | .macSetCca _ _ | .macAddSta _ _ | .macDelSta _ _ | .macSetBaPolicy _ _ | .macSetMld _ _
  | .macSetTwt _ _ | .macSetUplink _ _ | .macSetRetry _ _ | .macGetCounters _ _ | .macGetSta _ _ | .schedSetAcWeights _ _
  | .schedSetBssShare _ _ | .schedSetSta _ _ | .schedSetLimits _ _ | .schedGetFurrow _ _ | .schedGetSta _ _ | .schedFlushQueue _ _
  | .schedGetCounters _ _ | .harrowLease _ _ | .harrowRelease _ _ | .harrowSubmitJob _ _ | .harrowStopJob _ _ | .harrowGetStatus _ _
  | .harrowGetCounters _ _ | .bfSetSounding _ _ | .bfSetAgeing _ _ | .bfSetPrecoder _ _ | .bfRecalibrate _ _ | .bfSetFemRecip _ _
  | .bfGetCsi _ _ | .bfGetGroups _ _ | .bfGetStatus _ _ | .bfGetCounters _ _ | .seederGetStatus _ _ | .seederSetParams _ _
  | .seederGetPlacement _ _ | .seederReadLog _ _ | .seederSetFence _ _ | .seederClearFence _ _ | .seederGetFence _ _ | .seederEvaluate _ _
  | .seederGetCounters _ _ | .ropeJoin _ _ | .ropeLeave _ _ | .ropeGetStatus _ _ | .ropeSetKey _ _ | .ropeGetMember _ _
  | .ropeGetPitch _ _ | .ropeGetCounters _ _ | .timeSetRole _ _ | .timeSetAsym _ _ | .timeSetTsf _ _ | .timeSetPps _ _
  | .timeGetStatus _ _ | .timeGetTsf _ _ | .timeGetCounters _ _ | .routerSetParams _ _ | .routerSetFlow _ _ | .routerDelFlow _ _
  | .routerGetFlow _ _ | .routerSetRule _ _ | .routerSetRoute _ _ | .routerSetNeigh _ _ | .routerSetFdb _ _ | .routerFlushFdb _ _
  | .routerSetDomain _ _ | .routerSetPortPair _ _ | .routerSetRingGroup _ _ | .routerSetHash _ _ | .routerSetIndirection _ _ | .routerSetExcLimit _ _
  | .routerGetCounters _ _ | .routerGetRule _ _ | .ethConfigurePort _ _ | .ethSetFilter _ _ | .ethGetStatus _ _ _ _ | .ethSetFallow _ _
  | .ethGetCounters _ _ | .secGetIdentity _ _ | .secOpenSession _ _ _ | .secLoadKey _ _ | .secDeleteKey _ _ | .secBindKey _ _
  | .secGetKeyState _ _ | .secSetStream _ _ | .secMacsecPort _ _ | .secMacsecSetSa _ _ | .secSae _ _ _ _ | .sec4way _ _ _
  | .secEapol _ _ _ | .secGetCounters _ _ | .dramConfigure _ _ | .dramSetPolicy _ _ | .dramSetRate _ _ | .dramRetrain _ _
  | .dramGetStatus _ _ | .dramGetErrors _ _ | .dramGetCounters _ _ | .relGetStatus _ _ | .cairnRestore _ _ _ _ | .cairnExport _ _
  | .relGetCounters _ _ | .sysGetState _ _ | .sysSetMode _ _ | .powerEnterBivouac _ _ | .wurSetRx _ _ | .wurSetMatch _ _
  | .wurGetStatus _ _ | .wurSend _ _ | .wurGetCounters _ _ | .dmaTransferDone _ _ _ | .stepTimerExpiry _ | .interruptTaken _
  | .jobBudget _ | .jobStart _ _ _ | .canaryMeasure _ _ | .telemSteal _ _ | .mbxDoorbell _ | .completionWrite _
  | .cqHeadWrite _ _ | .cqEnable _ | .cqDisable _ | .eventWrite | .evtHeadWrite _ | .evtEnable
  | .evtDisable | .evtLostRead | .evtFilteredRead | .coexGrantsRead _ | .watchdogExpiry | .coalesceTimeout _
  | .msixDeferredSend _ | .msixUnmask _ | .hringProdWrite _ _ _ | .hringEnable _ _ | .hringDisable _ _ | .hringIdle _ _
  | .hringResume _ _ | .powerOnReset | .perstAssert | .perstRelease | .hotReset | .flr
  | .sysReset _ | .wdtAutoReset | .thermalTrip | .thermalHoldClear | .thermalWarn _ | .wipeEnd
  | .applyToken _ | .fuseProgramDone | .fwlStart | .imageVerified | .fwReady | .bivouacNAssert
  | .supplyRemoval _ | .canaryReplan _ | .avsFault | .avsPauseEnd | .avsAck _ | .refLost
  | .refReturn | .commitPoint _ | .responderComplete _ _ | .hlEvaluate _ | .hlUndo _ | .radioStateApply _
  | .radioTransitionEnd _ | .radioAutoWake _ _ | .synTempSample _ _ | .calPendingStart _ | .calForced _ | .synCalEnd _
  | .channelSwitch _ _ | .derateResearch _ _ | .coexReqChange _ _ | .coexPriChange _ _ | .coexStuck _ | .preambleDetect _ _ _
  | .searchResume _ | .restartDecision _ _ _ | .ldpcDecode _ _ _ | .rxPpduEnd _ _ | .txPpduStart _ _ _ _ | .txUnderrun _
  | .txPpduEnd _ _ | .wurFrameRx _ | .wurWindow _ | .wurCopyDue _ | .responseTimeout _ | .ccaChange _ _ _ _
  | .backoffSlot _ _ _ | .navRtsTimeout _ | .msduLifetimeExpiry _ | .defragTimeout _ | .reorderTimeout _ | .addbaRequest _ _ _ _
  | .twtSetupRequest _ _ _ _ _ _ | .saQuery _ _ | .tbtt _ _ | .bcnDeferred _ | .twtSpStart _ | .uplBeaconWindowEnd _
  | .furrowBuildStart _ _ _ _ | .furrowReady _ _ | .furrowLateWindow _ | .llUrgent _ _ | .llDeadline _ _ | .ulHoldEnd _
  | .coordTxopStart _ _ _ | .soundingFeedback _ _ _ | .csiExpired _ _ _ | .recipCalRequest _ | .recipCalStart _ | .recalForced _
  | .recipCalEnd _ _ | .groupRebuild _ _ | .seederEvaluation _ | .seederOverload _ _ _ _ _ | .forcedReplacement _ | .surveyDwell _ _ _ _
  | .surveySkip _ | .steerResponse _ _ | .steerTimeout _ | .belaySend | .belayWindowClose | .joinReqSend
  | .joinTimeout | .ropeForm | .helloSend | .clientsSend _ _ | .memberTimeout _ | .tReqSend
  | .tRespSend _ | .timeExchLost | .timeServoStep | .proposalSend _ _ _ | .proposalCutoff | .planSend
  | .coordSlotStart | .keyPhaseExpiry | .tbCmdSet _ _ | .tbCmdAdj _ _ | .tbIncCommit _ _ | .tbDitherCommit _ _
  | .tbTimeRead _ | .tbCaptureGo _ | .tbSaturate _ | .tbMasterTimeout _ | .ppsInEdge | .ppsInLost
  | .ppsOutEdge | .ppsOutFall | .launchJudge _ | .launchInstant _ _ | .routerClassify _ _ _ _ | .exceptionDeliver
  | .fragmentSlowPath _ _ | .slowFragTimeout | .flowAgeCheck | .ethFrameRx _ _ _ _ _ _ _ _ | .pauseRx _ _ | .pauseEnd _
  | .ethFrameTx _ _ | .launchWireHold _ | .ethLinkUp _ _ _ _ | .ethLinkDown _ _ | .preemptVerify _ | .capsSend _
  | .caps _ _ _ | .fallowCapsTimeout _ | .fallowDownTrigger _ | .fallowUpTrigger _ | .stepReq _ _ _ _ | .stepAck _ _
  | .stepNak _ _ | .stepReqTimeout _ | .ethFallow _ _ | .cipherFrame _ _ _ _ | .keyHoldTimeout _ | .saeContextTimeout _
  | .dramInitDone _ | .dramRead _ _ | .dramWrite _ _ | .alertFall _ _ | .alertRise _ | .refDue _ _
  | .refIssue _ _ | .refPullIn _ _ | .tempRead _ _ | .zqCal _ | .retrainDue _ | .retrainStart _ _
  | .retrainDone _ _ _ | .rtcTime0Read _ | .rtcTime2Read | .rtcSnapshotExpiry | .rtcCommit _ | .rtcCommitLoad
  | .rtcUnlock _ | .rtcLock | .vddIoGood | .batteryPowerUp | .rtcSecondTick | .oscStop _
  | .oscResume | .gleanerAccess _ _ _ | .gleanerPassEnd _ | .gleanerEscalate _ | .weakRegionScrub _ _ _ | .arrayWriteback _
  | .ternaryRepair _ _ | .canarySample _ | .stressSample _ | .marginReplan _ _ | .gainCal _ _ _ _ | .cairnReady
  | .navExpiry _ _ | .laneWipeDone _ | .surveyDwellEnd _ _ | .rateChange | .respondMpacket _ _ | .trngHealthFail => true

/-- A well-formed command. -/
def Instr.wf (i : Instr) : Bool := decide (i.bytes ≤ 65536) && i.ranges

end Sys2Proof
end

