-- ==== Sys2Proof/Laws/PerInstr.lean ====
section
/-!
SUPPORT. What holds of every command as syntax, one lemma per constructor: a well-formed command brings at most 65,536 bytes with it.
-/
namespace Sys2Proof.Laws.WellFormedSizes
open Sys2Proof

/-- A well-formed command brings at most 65,536 bytes. -/
def Statement (i : Instr) : Prop := i.wf = true → i.bytes ≤ 65536

theorem of_wf (i : Instr) : Statement i := fun h => by
  simp only [Instr.wf, Bool.and_eq_true, decide_eq_true_eq] at h
  exact h.1

theorem nop (m : Fin 8) (buf : List Byte) : Statement (.nop m buf) := of_wf _
theorem getVersion (m : Fin 8) (buf : List Byte) : Statement (.getVersion m buf) := of_wf _
theorem abortCommand (m : Fin 8) (buf : List Byte) : Statement (.abortCommand m buf) := of_wf _
theorem hostGetCounters (m : Fin 8) (buf : List Byte) : Statement (.hostGetCounters m buf) := of_wf _
theorem radioGetState (m : Fin 8) (buf : List Byte) : Statement (.radioGetState m buf) := of_wf _
theorem radioSetState (m : Fin 8) (buf : List Byte) : Statement (.radioSetState m buf) := of_wf _
theorem radioSetChannel (m : Fin 8) (buf : List Byte) : Statement (.radioSetChannel m buf) := of_wf _
theorem radioCalibrate (m : Fin 8) (buf : List Byte) : Statement (.radioCalibrate m buf) := of_wf _
theorem radioSetFemMap (m : Fin 8) (buf : List Byte) : Statement (.radioSetFemMap m buf) := of_wf _
theorem radioSetRamp (m : Fin 8) (buf : List Byte) : Statement (.radioSetRamp m buf) := of_wf _
theorem radioSetChain (m : Fin 8) (buf : List Byte) : Statement (.radioSetChain m buf) := of_wf _
theorem radioRestoreChain (m : Fin 8) (buf : List Byte) : Statement (.radioRestoreChain m buf) := of_wf _
theorem radioGetChain (m : Fin 8) (buf : List Byte) : Statement (.radioGetChain m buf) := of_wf _
theorem radioGetCounters (m : Fin 8) (buf : List Byte) : Statement (.radioGetCounters m buf) := of_wf _
theorem radioRffeTransfer (m : Fin 8) (buf : List Byte) (rd : RffeAnswer) : Statement (.radioRffeTransfer m buf rd) := of_wf _
theorem phySetRx (m : Fin 8) (buf : List Byte) : Statement (.phySetRx m buf) := of_wf _
theorem phySetFormats (m : Fin 8) (buf : List Byte) : Statement (.phySetFormats m buf) := of_wf _
theorem phyGetConfig (m : Fin 8) (buf : List Byte) : Statement (.phyGetConfig m buf) := of_wf _
theorem phyGetReport (m : Fin 8) (buf : List Byte) : Statement (.phyGetReport m buf) := of_wf _
theorem phyReadHistory (m : Fin 8) (buf : List Byte) : Statement (.phyReadHistory m buf) := of_wf _
theorem phyGetCounters (m : Fin 8) (buf : List Byte) : Statement (.phyGetCounters m buf) := of_wf _
theorem phyTestTx (m : Fin 8) (buf : List Byte) : Statement (.phyTestTx m buf) := of_wf _
theorem macSetBss (m : Fin 8) (buf : List Byte) : Statement (.macSetBss m buf) := of_wf _
theorem macSetBeacon (m : Fin 8) (buf : List Byte) : Statement (.macSetBeacon m buf) := of_wf _
theorem macSetEdca (m : Fin 8) (buf : List Byte) : Statement (.macSetEdca m buf) := of_wf _
theorem macSetCca (m : Fin 8) (buf : List Byte) : Statement (.macSetCca m buf) := of_wf _
theorem macAddSta (m : Fin 8) (buf : List Byte) : Statement (.macAddSta m buf) := of_wf _
theorem macDelSta (m : Fin 8) (buf : List Byte) : Statement (.macDelSta m buf) := of_wf _
theorem macSetBaPolicy (m : Fin 8) (buf : List Byte) : Statement (.macSetBaPolicy m buf) := of_wf _
theorem macSetMld (m : Fin 8) (buf : List Byte) : Statement (.macSetMld m buf) := of_wf _
theorem macSetTwt (m : Fin 8) (buf : List Byte) : Statement (.macSetTwt m buf) := of_wf _
theorem macSetUplink (m : Fin 8) (buf : List Byte) : Statement (.macSetUplink m buf) := of_wf _
theorem macSetRetry (m : Fin 8) (buf : List Byte) : Statement (.macSetRetry m buf) := of_wf _
theorem macGetCounters (m : Fin 8) (buf : List Byte) : Statement (.macGetCounters m buf) := of_wf _
theorem macGetSta (m : Fin 8) (buf : List Byte) : Statement (.macGetSta m buf) := of_wf _
theorem schedSetAcWeights (m : Fin 8) (buf : List Byte) : Statement (.schedSetAcWeights m buf) := of_wf _
theorem schedSetBssShare (m : Fin 8) (buf : List Byte) : Statement (.schedSetBssShare m buf) := of_wf _
theorem schedSetSta (m : Fin 8) (buf : List Byte) : Statement (.schedSetSta m buf) := of_wf _
theorem schedSetLimits (m : Fin 8) (buf : List Byte) : Statement (.schedSetLimits m buf) := of_wf _
theorem schedGetFurrow (m : Fin 8) (buf : List Byte) : Statement (.schedGetFurrow m buf) := of_wf _
theorem schedGetSta (m : Fin 8) (buf : List Byte) : Statement (.schedGetSta m buf) := of_wf _
theorem schedFlushQueue (m : Fin 8) (buf : List Byte) : Statement (.schedFlushQueue m buf) := of_wf _
theorem schedGetCounters (m : Fin 8) (buf : List Byte) : Statement (.schedGetCounters m buf) := of_wf _
theorem harrowLease (m : Fin 8) (buf : List Byte) : Statement (.harrowLease m buf) := of_wf _
theorem harrowRelease (m : Fin 8) (buf : List Byte) : Statement (.harrowRelease m buf) := of_wf _
theorem harrowSubmitJob (m : Fin 8) (buf : List Byte) : Statement (.harrowSubmitJob m buf) := of_wf _
theorem harrowStopJob (m : Fin 8) (buf : List Byte) : Statement (.harrowStopJob m buf) := of_wf _
theorem harrowGetStatus (m : Fin 8) (buf : List Byte) : Statement (.harrowGetStatus m buf) := of_wf _
theorem harrowGetCounters (m : Fin 8) (buf : List Byte) : Statement (.harrowGetCounters m buf) := of_wf _
theorem bfSetSounding (m : Fin 8) (buf : List Byte) : Statement (.bfSetSounding m buf) := of_wf _
theorem bfSetAgeing (m : Fin 8) (buf : List Byte) : Statement (.bfSetAgeing m buf) := of_wf _
theorem bfSetPrecoder (m : Fin 8) (buf : List Byte) : Statement (.bfSetPrecoder m buf) := of_wf _
theorem bfRecalibrate (m : Fin 8) (buf : List Byte) : Statement (.bfRecalibrate m buf) := of_wf _
theorem bfSetFemRecip (m : Fin 8) (buf : List Byte) : Statement (.bfSetFemRecip m buf) := of_wf _
theorem bfGetCsi (m : Fin 8) (buf : List Byte) : Statement (.bfGetCsi m buf) := of_wf _
theorem bfGetGroups (m : Fin 8) (buf : List Byte) : Statement (.bfGetGroups m buf) := of_wf _
theorem bfGetStatus (m : Fin 8) (buf : List Byte) : Statement (.bfGetStatus m buf) := of_wf _
theorem bfGetCounters (m : Fin 8) (buf : List Byte) : Statement (.bfGetCounters m buf) := of_wf _
theorem seederGetStatus (m : Fin 8) (buf : List Byte) : Statement (.seederGetStatus m buf) := of_wf _
theorem seederSetParams (m : Fin 8) (buf : List Byte) : Statement (.seederSetParams m buf) := of_wf _
theorem seederGetPlacement (m : Fin 8) (buf : List Byte) : Statement (.seederGetPlacement m buf) := of_wf _
theorem seederReadLog (m : Fin 8) (buf : List Byte) : Statement (.seederReadLog m buf) := of_wf _
theorem seederSetFence (m : Fin 8) (buf : List Byte) : Statement (.seederSetFence m buf) := of_wf _
theorem seederClearFence (m : Fin 8) (buf : List Byte) : Statement (.seederClearFence m buf) := of_wf _
theorem seederGetFence (m : Fin 8) (buf : List Byte) : Statement (.seederGetFence m buf) := of_wf _
theorem seederEvaluate (m : Fin 8) (buf : List Byte) : Statement (.seederEvaluate m buf) := of_wf _
theorem seederGetCounters (m : Fin 8) (buf : List Byte) : Statement (.seederGetCounters m buf) := of_wf _
theorem ropeJoin (m : Fin 8) (buf : List Byte) : Statement (.ropeJoin m buf) := of_wf _
theorem ropeLeave (m : Fin 8) (buf : List Byte) : Statement (.ropeLeave m buf) := of_wf _
theorem ropeGetStatus (m : Fin 8) (buf : List Byte) : Statement (.ropeGetStatus m buf) := of_wf _
theorem ropeSetKey (m : Fin 8) (buf : List Byte) : Statement (.ropeSetKey m buf) := of_wf _
theorem ropeGetMember (m : Fin 8) (buf : List Byte) : Statement (.ropeGetMember m buf) := of_wf _
theorem ropeGetPitch (m : Fin 8) (buf : List Byte) : Statement (.ropeGetPitch m buf) := of_wf _
theorem ropeGetCounters (m : Fin 8) (buf : List Byte) : Statement (.ropeGetCounters m buf) := of_wf _
theorem timeSetRole (m : Fin 8) (buf : List Byte) : Statement (.timeSetRole m buf) := of_wf _
theorem timeSetAsym (m : Fin 8) (buf : List Byte) : Statement (.timeSetAsym m buf) := of_wf _
theorem timeSetTsf (m : Fin 8) (buf : List Byte) : Statement (.timeSetTsf m buf) := of_wf _
theorem timeSetPps (m : Fin 8) (buf : List Byte) : Statement (.timeSetPps m buf) := of_wf _
theorem timeGetStatus (m : Fin 8) (buf : List Byte) : Statement (.timeGetStatus m buf) := of_wf _
theorem timeGetTsf (m : Fin 8) (buf : List Byte) : Statement (.timeGetTsf m buf) := of_wf _
theorem timeGetCounters (m : Fin 8) (buf : List Byte) : Statement (.timeGetCounters m buf) := of_wf _
theorem routerSetParams (m : Fin 8) (buf : List Byte) : Statement (.routerSetParams m buf) := of_wf _
theorem routerSetFlow (m : Fin 8) (buf : List Byte) : Statement (.routerSetFlow m buf) := of_wf _
theorem routerDelFlow (m : Fin 8) (buf : List Byte) : Statement (.routerDelFlow m buf) := of_wf _
theorem routerGetFlow (m : Fin 8) (buf : List Byte) : Statement (.routerGetFlow m buf) := of_wf _
theorem routerSetRule (m : Fin 8) (buf : List Byte) : Statement (.routerSetRule m buf) := of_wf _
theorem routerSetRoute (m : Fin 8) (buf : List Byte) : Statement (.routerSetRoute m buf) := of_wf _
theorem routerSetNeigh (m : Fin 8) (buf : List Byte) : Statement (.routerSetNeigh m buf) := of_wf _
theorem routerSetFdb (m : Fin 8) (buf : List Byte) : Statement (.routerSetFdb m buf) := of_wf _
theorem routerFlushFdb (m : Fin 8) (buf : List Byte) : Statement (.routerFlushFdb m buf) := of_wf _
theorem routerSetDomain (m : Fin 8) (buf : List Byte) : Statement (.routerSetDomain m buf) := of_wf _
theorem routerSetPortPair (m : Fin 8) (buf : List Byte) : Statement (.routerSetPortPair m buf) := of_wf _
theorem routerSetRingGroup (m : Fin 8) (buf : List Byte) : Statement (.routerSetRingGroup m buf) := of_wf _
theorem routerSetHash (m : Fin 8) (buf : List Byte) : Statement (.routerSetHash m buf) := of_wf _
theorem routerSetIndirection (m : Fin 8) (buf : List Byte) : Statement (.routerSetIndirection m buf) := of_wf _
theorem routerSetExcLimit (m : Fin 8) (buf : List Byte) : Statement (.routerSetExcLimit m buf) := of_wf _
theorem routerGetCounters (m : Fin 8) (buf : List Byte) : Statement (.routerGetCounters m buf) := of_wf _
theorem routerGetRule (m : Fin 8) (buf : List Byte) : Statement (.routerGetRule m buf) := of_wf _
theorem ethConfigurePort (m : Fin 8) (buf : List Byte) : Statement (.ethConfigurePort m buf) := of_wf _
theorem ethSetFilter (m : Fin 8) (buf : List Byte) : Statement (.ethSetFilter m buf) := of_wf _
theorem ethGetStatus (m : Fin 8) (buf : List Byte) (tx : Fin 1001) (rx : Fin 1001) : Statement (.ethGetStatus m buf tx rx) := of_wf _
theorem ethSetFallow (m : Fin 8) (buf : List Byte) : Statement (.ethSetFallow m buf) := of_wf _
theorem ethGetCounters (m : Fin 8) (buf : List Byte) : Statement (.ethGetCounters m buf) := of_wf _
theorem secGetIdentity (m : Fin 8) (buf : List Byte) : Statement (.secGetIdentity m buf) := of_wf _
theorem secOpenSession (m : Fin 8) (buf : List Byte) (pass : Bool) : Statement (.secOpenSession m buf pass) := of_wf _
theorem secLoadKey (m : Fin 8) (buf : List Byte) : Statement (.secLoadKey m buf) := of_wf _
theorem secDeleteKey (m : Fin 8) (buf : List Byte) : Statement (.secDeleteKey m buf) := of_wf _
theorem secBindKey (m : Fin 8) (buf : List Byte) : Statement (.secBindKey m buf) := of_wf _
theorem secGetKeyState (m : Fin 8) (buf : List Byte) : Statement (.secGetKeyState m buf) := of_wf _
theorem secSetStream (m : Fin 8) (buf : List Byte) : Statement (.secSetStream m buf) := of_wf _
theorem secMacsecPort (m : Fin 8) (buf : List Byte) : Statement (.secMacsecPort m buf) := of_wf _
theorem secMacsecSetSa (m : Fin 8) (buf : List Byte) : Statement (.secMacsecSetSa m buf) := of_wf _
theorem secSae (m : Fin 8) (buf : List Byte) (pass : Bool) (mism : Fin 3) : Statement (.secSae m buf pass mism) := of_wf _
theorem sec4way (m : Fin 8) (buf : List Byte) (mism : Fin 3) : Statement (.sec4way m buf mism) := of_wf _
theorem secEapol (m : Fin 8) (buf : List Byte) (mism : Fin 3) : Statement (.secEapol m buf mism) := of_wf _
theorem secGetCounters (m : Fin 8) (buf : List Byte) : Statement (.secGetCounters m buf) := of_wf _
theorem dramConfigure (m : Fin 8) (buf : List Byte) : Statement (.dramConfigure m buf) := of_wf _
theorem dramSetPolicy (m : Fin 8) (buf : List Byte) : Statement (.dramSetPolicy m buf) := of_wf _
theorem dramSetRate (m : Fin 8) (buf : List Byte) : Statement (.dramSetRate m buf) := of_wf _
theorem dramRetrain (m : Fin 8) (buf : List Byte) : Statement (.dramRetrain m buf) := of_wf _
theorem dramGetStatus (m : Fin 8) (buf : List Byte) : Statement (.dramGetStatus m buf) := of_wf _
theorem dramGetErrors (m : Fin 8) (buf : List Byte) : Statement (.dramGetErrors m buf) := of_wf _
theorem dramGetCounters (m : Fin 8) (buf : List Byte) : Statement (.dramGetCounters m buf) := of_wf _
theorem relGetStatus (m : Fin 8) (buf : List Byte) : Statement (.relGetStatus m buf) := of_wf _
theorem cairnRestore (m : Fin 8) (buf : List Byte) (d : Nat) (d0 : Nat) : Statement (.cairnRestore m buf d d0) := of_wf _
theorem cairnExport (m : Fin 8) (buf : List Byte) : Statement (.cairnExport m buf) := of_wf _
theorem relGetCounters (m : Fin 8) (buf : List Byte) : Statement (.relGetCounters m buf) := of_wf _
theorem sysGetState (m : Fin 8) (buf : List Byte) : Statement (.sysGetState m buf) := of_wf _
theorem sysSetMode (m : Fin 8) (buf : List Byte) : Statement (.sysSetMode m buf) := of_wf _
theorem powerEnterBivouac (m : Fin 8) (buf : List Byte) : Statement (.powerEnterBivouac m buf) := of_wf _
theorem wurSetRx (m : Fin 8) (buf : List Byte) : Statement (.wurSetRx m buf) := of_wf _
theorem wurSetMatch (m : Fin 8) (buf : List Byte) : Statement (.wurSetMatch m buf) := of_wf _
theorem wurGetStatus (m : Fin 8) (buf : List Byte) : Statement (.wurGetStatus m buf) := of_wf _
theorem wurSend (m : Fin 8) (buf : List Byte) : Statement (.wurSend m buf) := of_wf _
theorem wurGetCounters (m : Fin 8) (buf : List Byte) : Statement (.wurGetCounters m buf) := of_wf _
theorem harrowNop (l : Fin 16) (chk : LaneCheck) : Statement (.harrowNop l chk) := of_wf _
theorem halt (l : Fin 16) (chk : LaneCheck) : Statement (.halt l chk) := of_wf _
theorem loop (l : Fin 16) (chk : LaneCheck) : Statement (.loop l chk) := of_wf _
theorem br (l : Fin 16) (chk : LaneCheck) : Statement (.br l chk) := of_wf _
theorem sli (l : Fin 16) (chk : LaneCheck) : Statement (.sli l chk) := of_wf _
theorem sadd (l : Fin 16) (chk : LaneCheck) : Statement (.sadd l chk) := of_wf _
theorem pset (l : Fin 16) (chk : LaneCheck) : Statement (.pset l chk) := of_wf _
theorem xfer (l : Fin 16) (chk : LaneCheck) : Statement (.xfer l chk) := of_wf _
theorem xwait (l : Fin 16) (chk : LaneCheck) : Statement (.xwait l chk) := of_wf _
theorem swi (l : Fin 16) (chk : LaneCheck) : Statement (.swi l chk) := of_wf _
theorem rti (l : Fin 16) (chk : LaneCheck) : Statement (.rti l chk) := of_wf _
theorem tset (l : Fin 16) (chk : LaneCheck) : Statement (.tset l chk) := of_wf _
theorem expclr (l : Fin 16) (chk : LaneCheck) : Statement (.expclr l chk) := of_wf _
theorem expget (l : Fin 16) (chk : LaneCheck) : Statement (.expget l chk) := of_wf _
theorem idxset (l : Fin 16) (chk : LaneCheck) : Statement (.idxset l chk) := of_wf _
theorem mmget (l : Fin 16) (chk : LaneCheck) : Statement (.mmget l chk) := of_wf _
theorem move (l : Fin 16) (chk : LaneCheck) : Statement (.move l chk) := of_wf _
theorem vadd (l : Fin 16) (chk : LaneCheck) : Statement (.vadd l chk) := of_wf _
theorem vsub (l : Fin 16) (chk : LaneCheck) : Statement (.vsub l chk) := of_wf _
theorem vmuln (l : Fin 16) (chk : LaneCheck) : Statement (.vmuln l chk) := of_wf _
theorem vmulcn (l : Fin 16) (chk : LaneCheck) : Statement (.vmulcn l chk) := of_wf _
theorem vmac (l : Fin 16) (chk : LaneCheck) : Statement (.vmac l chk) := of_wf _
theorem vmacc (l : Fin 16) (chk : LaneCheck) : Statement (.vmacc l chk) := of_wf _
theorem vmsu (l : Fin 16) (chk : LaneCheck) : Statement (.vmsu l chk) := of_wf _
theorem vmul0 (l : Fin 16) (chk : LaneCheck) : Statement (.vmul0 l chk) := of_wf _
theorem vdotc (l : Fin 16) (chk : LaneCheck) : Statement (.vdotc l chk) := of_wf _
theorem vnrw (l : Fin 16) (chk : LaneCheck) : Statement (.vnrw l chk) := of_wf _
theorem vsha (l : Fin 16) (chk : LaneCheck) : Statement (.vsha l chk) := of_wf _
theorem vconj (l : Fin 16) (chk : LaneCheck) : Statement (.vconj l chk) := of_wf _
theorem vneg (l : Fin 16) (chk : LaneCheck) : Statement (.vneg l chk) := of_wf _
theorem vbfly (l : Fin 16) (chk : LaneCheck) : Statement (.vbfly l chk) := of_wf _
theorem vperm (l : Fin 16) (chk : LaneCheck) : Statement (.vperm l chk) := of_wf _
theorem bexp (l : Fin 16) (chk : LaneCheck) : Statement (.bexp l chk) := of_wf _
theorem vmaxi (l : Fin 16) (chk : LaneCheck) : Statement (.vmaxi l chk) := of_wf _
theorem vmini (l : Fin 16) (chk : LaneCheck) : Statement (.vmini l chk) := of_wf _
theorem vrcp (l : Fin 16) (chk : LaneCheck) : Statement (.vrcp l chk) := of_wf _
theorem vrsq (l : Fin 16) (chk : LaneCheck) : Statement (.vrsq l chk) := of_wf _
theorem vsplat (l : Fin 16) (chk : LaneCheck) : Statement (.vsplat l chk) := of_wf _
theorem dmaTransferDone (l : Fin 16) (ch : Fin 4) (data : List Byte) : Statement (.dmaTransferDone l ch data) := of_wf _
theorem stepTimerExpiry (l : Fin 16) : Statement (.stepTimerExpiry l) := of_wf _
theorem interruptTaken (l : Fin 16) : Statement (.interruptTaken l) := of_wf _
theorem jobBudget (l : Fin 16) : Statement (.jobBudget l) := of_wf _
theorem jobStart (l : Fin 16) (cls : Option (Fin 5)) (data : List (List Byte)) : Statement (.jobStart l cls data) := of_wf _
theorem jobComplete (l : Fin 16) (chk : LaneCheck) : Statement (.jobComplete l chk) := of_wf _
theorem canaryMeasure (l : Fin 16) (ps : Nat) : Statement (.canaryMeasure l ps) := of_wf _
theorem telemSteal (l : Fin 16) (ps : Nat) : Statement (.telemSteal l ps) := of_wf _
theorem mbxDoorbell (m : Fin 8) : Statement (.mbxDoorbell m) := of_wf _
theorem completionWrite (q : Fin 8) : Statement (.completionWrite q) := of_wf _
theorem cqHeadWrite (q : Fin 8) (head : BitVec 16) : Statement (.cqHeadWrite q head) := of_wf _
theorem cqEnable (q : Fin 8) : Statement (.cqEnable q) := of_wf _
theorem cqDisable (q : Fin 8) : Statement (.cqDisable q) := of_wf _
theorem eventRaise (name : EvName) (inst : BitVec 16) (data : List Byte) : Statement (.eventRaise name inst data) := of_wf _
theorem eventWrite : Statement .eventWrite := of_wf _
theorem evtHeadWrite (head : BitVec 16) : Statement (.evtHeadWrite head) := of_wf _
theorem evtEnable : Statement .evtEnable := of_wf _
theorem evtDisable : Statement .evtDisable := of_wf _
theorem evtLostRead : Statement .evtLostRead := of_wf _
theorem evtFilteredRead : Statement .evtFilteredRead := of_wf _
theorem coexGrantsRead (r : Radio) : Statement (.coexGrantsRead r) := of_wf _
theorem watchdogExpiry : Statement .watchdogExpiry := of_wf _
theorem coalesceTimeout (src : Fin 137) : Statement (.coalesceTimeout src) := of_wf _
theorem msixDeferredSend (link : PcieLink) : Statement (.msixDeferredSend link) := of_wf _
theorem msixUnmask (v : Fin 64) : Statement (.msixUnmask v) := of_wf _
theorem hringProdWrite (tx : Bool) (n : Fin 64) (value : BitVec 16) : Statement (.hringProdWrite tx n value) := of_wf _
theorem hringEnable (tx : Bool) (n : Fin 64) : Statement (.hringEnable tx n) := of_wf _
theorem hringDisable (tx : Bool) (n : Fin 64) : Statement (.hringDisable tx n) := of_wf _
theorem hringIdle (tx : Bool) (n : Fin 64) : Statement (.hringIdle tx n) := of_wf _
theorem hringResume (tx : Bool) (n : Fin 64) : Statement (.hringResume tx n) := of_wf _
theorem htxFrameFetch (n : Fin 64) (descs : List (List Byte)) (data : List Byte) : Statement (.htxFrameFetch n descs data) := of_wf _
theorem hrxFrameDeliver (n : Fin 64) (descs : List (List Byte)) : Statement (.hrxFrameDeliver n descs) := of_wf _
theorem registerWrite (w : RegWrite) : Statement (.registerWrite w) := of_wf _
theorem powerOnReset : Statement .powerOnReset := of_wf _
theorem perstAssert : Statement .perstAssert := of_wf _
theorem perstRelease : Statement .perstRelease := of_wf _
theorem hotReset : Statement .hotReset := of_wf _
theorem flr : Statement .flr := of_wf _
theorem sysReset (value : Word) : Statement (.sysReset value) := of_wf _
theorem wdtAutoReset : Statement .wdtAutoReset := of_wf _
theorem thermalTrip : Statement .thermalTrip := of_wf _
theorem thermalHoldClear : Statement .thermalHoldClear := of_wf _
theorem thermalWarn (high : Bool) : Statement (.thermalWarn high) := of_wf _
theorem wipeEnd : Statement .wipeEnd := of_wf _
theorem applyToken (value : Word) : Statement (.applyToken value) := of_wf _
theorem fuseProgramDone : Statement .fuseProgramDone := of_wf _
theorem fwlStart : Statement .fwlStart := of_wf _
theorem imageVerified : Statement .imageVerified := of_wf _
theorem fwReady : Statement .fwReady := of_wf _
theorem bivouacNAssert : Statement .bivouacNAssert := of_wf _
theorem supplyRemoval (aon : Bool) : Statement (.supplyRemoval aon) := of_wf _
theorem canaryReplan (canary : Nat) : Statement (.canaryReplan canary) := of_wf _
theorem avsFault : Statement .avsFault := of_wf _
theorem avsPauseEnd : Statement .avsPauseEnd := of_wf _
theorem avsAck (readback : Nat) : Statement (.avsAck readback) := of_wf _
theorem refLost : Statement .refLost := of_wf _
theorem refReturn : Statement .refReturn := of_wf _
theorem commitPoint (r : Radio) : Statement (.commitPoint r) := of_wf _
theorem responderComplete (r : Radio) (d : NoData) : Statement (.responderComplete r d) := of_wf _
theorem hlEvaluate (r : Radio) : Statement (.hlEvaluate r) := of_wf _
theorem hlUndo (r : Radio) : Statement (.hlUndo r) := of_wf _
theorem radioStateApply (r : Radio) : Statement (.radioStateApply r) := of_wf _
theorem radioTransitionEnd (r : Radio) : Statement (.radioTransitionEnd r) := of_wf _
theorem radioAutoWake (r : Radio) (tx : Bool) : Statement (.radioAutoWake r tx) := of_wf _
theorem synTempSample (r : Radio) (temp : Int) : Statement (.synTempSample r temp) := of_wf _
theorem calPendingStart (r : Radio) : Statement (.calPendingStart r) := of_wf _
theorem calForced (r : Radio) : Statement (.calForced r) := of_wf _
theorem synCalEnd (r : Radio) : Statement (.synCalEnd r) := of_wf _
theorem channelSwitch (r : Radio) (extra : Nat) : Statement (.channelSwitch r extra) := of_wf _
theorem derateResearch (r : Radio) (c : Fin 16) : Statement (.derateResearch r c) := of_wf _
theorem coexReqChange (r : Radio) (level : Bool) : Statement (.coexReqChange r level) := of_wf _
theorem coexPriChange (r : Radio) (level : Bool) : Statement (.coexPriChange r level) := of_wf _
theorem coexStuck (r : Radio) : Statement (.coexStuck r) := of_wf _
theorem preambleDetect (r : Radio) (power : RxLevels) (dsss : Bool) : Statement (.preambleDetect r power dsss) := of_wf _
theorem sigValidate (r : Radio) (sig : SigInfo) : Statement (.sigValidate r sig) := of_wf _
theorem searchResume (r : Radio) : Statement (.searchResume r) := of_wf _
theorem restartDecision (r : Radio) (power : RxLevels) (users : List UserMeas) : Statement (.restartDecision r power users) := of_wf _
theorem ldpcDecode (r : Radio) (w : LdpcWord) (waiting : Nat) : Statement (.ldpcDecode r w waiting) := of_wf _
theorem mpduRx (r : Radio) (m : Mpdu) : Statement (.mpduRx r m) := of_wf _
theorem rxPpduEnd (r : Radio) (e : PpduEnd) : Statement (.rxPpduEnd r e) := of_wf _
theorem txPpduStart (r : Radio) (fifo : Bool) (staged : Bool) (blanked : Bool) : Statement (.txPpduStart r fifo staged blanked) := of_wf _
theorem txUnderrun (r : Radio) : Statement (.txUnderrun r) := of_wf _
theorem txPpduEnd (r : Radio) (e : TxTail) : Statement (.txPpduEnd r e) := of_wf _
theorem wurFrameRx (f : WurFrame) : Statement (.wurFrameRx f) := of_wf _
theorem wurWindow (isOpen : Bool) : Statement (.wurWindow isOpen) := of_wf _
theorem wurCopyDue (bss : Fin 16) : Statement (.wurCopyDue bss) := of_wf _
theorem responseTimeout (r : Radio) : Statement (.responseTimeout r) := of_wf _
theorem ccaChange (r : Radio) (sub : Fin 16) (power : Int) (ppdu : Bool) : Statement (.ccaChange r sub power ppdu) := of_wf _
theorem backoffSlot (r : Radio) (d0 : NoData) (d1 : NoData) : Statement (.backoffSlot r d0 d1) := of_wf _
theorem navRtsTimeout (r : Radio) : Statement (.navRtsTimeout r) := of_wf _
theorem msduLifetimeExpiry (q : Fin 8384) : Statement (.msduLifetimeExpiry q) := of_wf _
theorem defragTimeout (q : Fin 8192) : Statement (.defragTimeout q) := of_wf _
theorem reorderTimeout (q : Fin 8192) : Statement (.reorderTimeout q) := of_wf _
theorem addbaRequest (q : Fin 8192) (dialog : Byte) (size : Nat) (ssn : BitVec 12) : Statement (.addbaRequest q dialog size ssn) := of_wf _
theorem twtSetupRequest (sta : Fin 1024) (dialog : Byte) (flow : Fin 8) (interval : Nat) (sp : TwtSpan) (restricted : Bool) :
    Statement (.twtSetupRequest sta dialog flow interval sp restricted) := of_wf _
theorem saQuery (sta : Fin 1024) (transId : BitVec 16) : Statement (.saQuery sta transId) := of_wf _
theorem tbtt (b : Fin 48) (d : NoData) : Statement (.tbtt b d) := of_wf _
theorem bcnDeferred (r : Radio) : Statement (.bcnDeferred r) := of_wf _
theorem twtSpStart (q : Fin 8192) : Statement (.twtSpStart q) := of_wf _
theorem uplBeaconWindowEnd (r : Radio) : Statement (.uplBeaconWindowEnd r) := of_wf _
theorem furrowBuildStart (r : Radio) (coord : Bool) (mism : Fin 3) (fbMism : Fin 3) : Statement (.furrowBuildStart r coord mism fbMism) := of_wf _
theorem furrowReady (r : Radio) (ns : Nat) : Statement (.furrowReady r ns) := of_wf _
theorem furrowLateWindow (r : Radio) : Statement (.furrowLateWindow r) := of_wf _
theorem llUrgent (uplink : Bool) (q : Fin 8192) : Statement (.llUrgent uplink q) := of_wf _
theorem llDeadline (uplink : Bool) (q : Fin 8192) : Statement (.llDeadline uplink q) := of_wf _
theorem ulHoldEnd (sta : Fin 1024) : Statement (.ulHoldEnd sta) := of_wf _
theorem coordTxopStart (r : Radio) (d : NoData) (navPitch : Bool) : Statement (.coordTxopStart r d navPitch) := of_wf _
theorem soundingFeedback (r : Radio) (sta : Fin 1024) (fb : Option CsiIn) : Statement (.soundingFeedback r sta fb) := of_wf _
theorem csiExpired (r : Radio) (kind : Fin 3) (index : Nat) : Statement (.csiExpired r kind index) := of_wf _
theorem recipCalRequest (r : Radio) : Statement (.recipCalRequest r) := of_wf _
theorem recipCalStart (r : Radio) : Statement (.recipCalStart r) := of_wf _
theorem recalForced (r : Radio) : Statement (.recalForced r) := of_wf _
theorem recipCalEnd (r : Radio) (loops : List (List Loopback)) : Statement (.recipCalEnd r loops) := of_wf _
theorem groupRebuild (r : Radio) (b : Fin 48) : Statement (.groupRebuild r b) := of_wf _
theorem seederEvaluation (e : Eval) : Statement (.seederEvaluation e) := of_wf _
theorem seederOverload (d : OverDom) (target : Fin 64) (rising : Bool) (load : List Nat) (objs : List (Nat × Bool × Nat)) :
    Statement (.seederOverload d target rising load objs) := of_wf _
theorem forcedReplacement (f : Forced) : Statement (.forcedReplacement f) := of_wf _
theorem surveyDwell (r : Radio) (centre : Nat) (bw : Nat) (prim : Nat) : Statement (.surveyDwell r centre bw prim) := of_wf _
theorem surveySkip (r : Radio) : Statement (.surveySkip r) := of_wf _
theorem steerResponse (sta : Fin 1024) (status : Byte) : Statement (.steerResponse sta status) := of_wf _
theorem steerTimeout (sta : Fin 1024) : Statement (.steerTimeout sta) := of_wf _
theorem belaySend : Statement .belaySend := of_wf _
theorem belay (f : KnFrame) : Statement (.belay f) := of_wf _
theorem belayWindowClose : Statement .belayWindowClose := of_wf _
theorem joinReq (f : KnFrame) : Statement (.joinReq f) := of_wf _
theorem joinReqSend : Statement .joinReqSend := of_wf _
theorem joinAck (f : KnFrame) : Statement (.joinAck f) := of_wf _
theorem joinConfirm (f : KnFrame) : Statement (.joinConfirm f) := of_wf _
theorem joinTimeout : Statement .joinTimeout := of_wf _
theorem ropeForm : Statement .ropeForm := of_wf _
theorem leave (f : KnFrame) : Statement (.leave f) := of_wf _
theorem rosterReq (f : KnFrame) : Statement (.rosterReq f) := of_wf _
theorem roster (f : KnFrame) : Statement (.roster f) := of_wf _
theorem report (f : KnFrame) : Statement (.report f) := of_wf _
theorem reportSend (busyB : Nat) (busyC : Nat) (heard : List (List Byte × Int)) : Statement (.reportSend busyB busyC heard) := of_wf _
theorem hello (f : KnFrame) : Statement (.hello f) := of_wf _
theorem helloSend : Statement .helloSend := of_wf _
theorem clients (f : KnFrame) : Statement (.clients f) := of_wf _
theorem clientsSend (busyB : Nat) (busyC : Nat) : Statement (.clientsSend busyB busyC) := of_wf _
theorem memberTimeout (ix : Fin 1024) : Statement (.memberTimeout ix) := of_wf _
theorem tReqSend : Statement .tReqSend := of_wf _
theorem tReq (f : KnFrame) : Statement (.tReq f) := of_wf _
theorem tRespSend (onTime : Bool) : Statement (.tRespSend onTime) := of_wf _
theorem tResp (f : KnFrame) : Statement (.tResp f) := of_wf _
theorem timeExchLost : Statement .timeExchLost := of_wf _
theorem timeServoStep : Statement .timeServoStep := of_wf _
theorem proposalSend (demandB : Nat) (demandC : Nat) (serve : List (Fin 1024 × Radio)) : Statement (.proposalSend demandB demandC serve) := of_wf _
theorem proposal (f : KnFrame) : Statement (.proposal f) := of_wf _
theorem proposalCutoff : Statement .proposalCutoff := of_wf _
theorem planSend : Statement .planSend := of_wf _
theorem plan (f : KnFrame) : Statement (.plan f) := of_wf _
theorem coordSlotStart : Statement .coordSlotStart := of_wf _
theorem keyPhaseExpiry : Statement .keyPhaseExpiry := of_wf _
theorem tbCmdSet (n : Fin 4) (value : Word) : Statement (.tbCmdSet n value) := of_wf _
theorem tbCmdAdj (n : Fin 4) (value : Word) : Statement (.tbCmdAdj n value) := of_wf _
theorem tbIncCommit (n : Fin 4) (value : Word) : Statement (.tbIncCommit n value) := of_wf _
theorem tbDitherCommit (n : Fin 4) (value : Word) : Statement (.tbDitherCommit n value) := of_wf _
theorem tbTimeRead (n : Fin 4) : Statement (.tbTimeRead n) := of_wf _
theorem tbCaptureGo (value : Word) : Statement (.tbCaptureGo value) := of_wf _
theorem tbSaturate (n : Fin 4) : Statement (.tbSaturate n) := of_wf _
theorem tbMasterTimeout (n : Fin 4) : Statement (.tbMasterTimeout n) := of_wf _
theorem ppsInEdge : Statement .ppsInEdge := of_wf _
theorem ppsInLost : Statement .ppsInLost := of_wf _
theorem ppsOutEdge : Statement .ppsOutEdge := of_wf _
theorem ppsOutFall : Statement .ppsOutFall := of_wf _
theorem launchJudge (unit : Fin 5) : Statement (.launchJudge unit) := of_wf _
theorem launchInstant (unit : Fin 5) (d : NoData) : Statement (.launchInstant unit d) := of_wf _
theorem routerClassify (pipe : Fin 8) (mism : Fin 3) (bad : List (RtTab × Nat)) (rows : List (Fin 1024)) :
    Statement (.routerClassify pipe mism bad rows) := of_wf _
theorem exceptionDeliver : Statement .exceptionDeliver := of_wf _
theorem fragmentSlowPath (bad : List (RtTab × Nat)) (rows : List (Fin 1024)) : Statement (.fragmentSlowPath bad rows) := of_wf _
theorem slowFragTimeout : Statement .slowFragTimeout := of_wf _
theorem flowAgeCheck : Statement .flowAgeCheck := of_wf _
theorem fdbAge (d : Fin 64) (mac : List Byte) : Statement (.fdbAge d mac) := of_wf _
theorem ethFrameRx (p : Fin 2) (bytes : List Byte) (fcsOk : Bool) (express : Bool) (frags : Nat) (err : Fin 3) (fec : Nat) (util : Fin 1001) :
    Statement (.ethFrameRx p bytes fcsOk express frags err fec util) := of_wf _
theorem pauseRx (p : Fin 2) (q : BitVec 16) : Statement (.pauseRx p q) := of_wf _
theorem pauseEnd (p : Fin 2) : Statement (.pauseEnd p) := of_wf _
theorem ethFrameTx (p : Fin 2) (frags : Nat) : Statement (.ethFrameTx p frags) := of_wf _
theorem launchWireHold (p : Fin 2) : Statement (.launchWireHold p) := of_wf _
theorem ethLinkUp (p : Fin 2) (speed : Fin 4) (fec : Fin 4) (addFrag : Fin 4) : Statement (.ethLinkUp p speed fec addFrag) := of_wf _
theorem ethLinkDown (p : Fin 2) (cause : Fin 4) : Statement (.ethLinkDown p cause) := of_wf _
theorem preemptVerify (p : Fin 2) : Statement (.preemptVerify p) := of_wf _
theorem capsSend (p : Fin 2) : Statement (.capsSend p) := of_wf _
theorem caps (p : Fin 2) (flags : Byte) (serial : BitVec 64) : Statement (.caps p flags serial) := of_wf _
theorem fallowCapsTimeout (p : Fin 2) : Statement (.fallowCapsTimeout p) := of_wf _
theorem fallowDownTrigger (p : Fin 2) : Statement (.fallowDownTrigger p) := of_wf _
theorem fallowUpTrigger (p : Fin 2) : Statement (.fallowUpTrigger p) := of_wf _
theorem stepReq (p : Fin 2) (target : Fin 4) (seq : Word) (util : Fin 1001) : Statement (.stepReq p target seq util) := of_wf _
theorem stepAck (p : Fin 2) (seq : Word) : Statement (.stepAck p seq) := of_wf _
theorem stepNak (p : Fin 2) (seq : Word) : Statement (.stepNak p seq) := of_wf _
theorem stepReqTimeout (p : Fin 2) : Statement (.stepReqTimeout p) := of_wf _
theorem ethFallow (p : Fin 2) (fec : Fin 4) : Statement (.ethFallow p fec) := of_wf _
theorem cipherFrame (core : Fin 160) (j : Nat) (mism : Fin 3) (ok : Bool) : Statement (.cipherFrame core j mism ok) := of_wf _
theorem keyHoldTimeout (p : Fin 2) : Statement (.keyHoldTimeout p) := of_wf _
theorem saeContextTimeout (ix : Fin 64) : Statement (.saeContextTimeout ix) := of_wf _
theorem dramInitDone (fail : Option (Fin 8 × Fin 2 × Fin 2)) : Statement (.dramInitDone fail) := of_wf _
theorem dramRead (c : Fin 2) (op : RdOp) : Statement (.dramRead c op) := of_wf _
theorem dramWrite (c : Fin 2) (op : WrOp) : Statement (.dramWrite c op) := of_wf _
theorem alertFall (c : Fin 2) (crc : Bool) : Statement (.alertFall c crc) := of_wf _
theorem alertRise (c : Fin 2) : Statement (.alertRise c) := of_wf _
theorem refDue (c : Fin 2) (r : Fin 2) : Statement (.refDue c r) := of_wf _
theorem refIssue (c : Fin 2) (r : Fin 2) : Statement (.refIssue c r) := of_wf _
theorem refPullIn (c : Fin 2) (r : Fin 2) : Statement (.refPullIn c r) := of_wf _
theorem tempRead (c : Fin 2) (hot : Bool) : Statement (.tempRead c hot) := of_wf _
theorem zqCal (c : Fin 2) : Statement (.zqCal c) := of_wf _
theorem retrainDue (c : Fin 2) : Statement (.retrainDue c) := of_wf _
theorem retrainStart (c : Fin 2) (last : List (Nat × Nat)) : Statement (.retrainStart c last) := of_wf _
theorem retrainDone (c : Fin 2) (ok : Bool) (trained : List (Nat × Nat)) : Statement (.retrainDone c ok trained) := of_wf _
theorem rtcTime0Read (presc : BitVec 15) : Statement (.rtcTime0Read presc) := of_wf _
theorem rtcTime2Read : Statement .rtcTime2Read := of_wf _
theorem rtcSnapshotExpiry : Statement .rtcSnapshotExpiry := of_wf _
theorem rtcCommit (value : Word) : Statement (.rtcCommit value) := of_wf _
theorem rtcCommitLoad : Statement .rtcCommitLoad := of_wf _
theorem rtcUnlock (value : Word) : Statement (.rtcUnlock value) := of_wf _
theorem rtcLock : Statement .rtcLock := of_wf _
theorem vddIoGood : Statement .vddIoGood := of_wf _
theorem batteryPowerUp : Statement .batteryPowerUp := of_wf _
theorem rtcSecondTick : Statement .rtcSecondTick := of_wf _
theorem oscStop (presc : BitVec 15) : Statement (.oscStop presc) := of_wf _
theorem oscResume : Statement .oscResume := of_wf _
theorem gleanerAccess (a : Fin 18) (word : Nat) (find : ScrubFind) : Statement (.gleanerAccess a word find) := of_wf _
theorem gleanerPassEnd (a : Fin 18) : Statement (.gleanerPassEnd a) := of_wf _
theorem gleanerEscalate (a : Fin 18) : Statement (.gleanerEscalate a) := of_wf _
theorem weakRegionScrub (ix : Fin 256) (word : Fin 512) (find : ScrubFind) : Statement (.weakRegionScrub ix word find) := of_wf _
theorem arrayWriteback (op : WordOp) : Statement (.arrayWriteback op) := of_wf _
theorem ternaryRepair (ix : Fin 1024) (shadowBad : Bool) : Statement (.ternaryRepair ix shadowBad) := of_wf _
theorem canarySample (delays : List Nat) : Statement (.canarySample delays) := of_wf _
theorem stressSample (tj : Int) : Statement (.stressSample tj) := of_wf _
theorem marginReplan (d : Nat) (d0 : Nat) : Statement (.marginReplan d d0) := of_wf _
theorem gainCal (r : Radio) (c : Fin 16) (gain : Int) (need : Nat) : Statement (.gainCal r c gain need) := of_wf _
theorem cairnReady : Statement .cairnReady := of_wf _
theorem navExpiry (r : Radio) (intra : Bool) : Statement (.navExpiry r intra) := of_wf _
theorem laneWipeDone (l : Fin 16) : Statement (.laneWipeDone l) := of_wf _
theorem surveyDwellEnd (r : Radio) (busy : List (Nat × Fin 1001)) : Statement (.surveyDwellEnd r busy) := of_wf _
theorem rateChange : Statement .rateChange := of_wf _
theorem respondMpacket (p : Fin 2) (respond : Bool) : Statement (.respondMpacket p respond) := of_wf _
theorem trngHealthFail : Statement .trngHealthFail := of_wf _

end Sys2Proof.Laws.WellFormedSizes
end

