-- ==== Sys2Proof/Laws/State.lean ====
section
/-!
SUPPORT. What each update of the state leaves alone and what it writes, field by field; all true by rfl. Proofs rewrite with these and
never unfold a record update.
-/
namespace Sys2Proof.Machine
open Sys2Proof

/-! withGlb -/

@[simp] theorem withGlb_pending (f : Glb → Glb) (s : State) : (withGlb f s).pending = s.pending := rfl
@[simp] theorem withGlb_now (f : Glb → Glb) (s : State) : (withGlb f s).now = s.now := rfl
@[simp] theorem withGlb_free (f : Glb → Glb) (s : State) : (withGlb f s).free = s.free := rfl
@[simp] theorem withGlb_out (f : Glb → Glb) (s : State) : (withGlb f s).out = s.out := rfl
@[simp] theorem withGlb_glb (f : Glb → Glb) (s : State) : (withGlb f s).glb = f s.glb := rfl
@[simp] theorem withGlb_host (f : Glb → Glb) (s : State) : (withGlb f s).host = s.host := rfl
@[simp] theorem withGlb_rings (f : Glb → Glb) (s : State) : (withGlb f s).rings = s.rings := rfl
@[simp] theorem withGlb_life (f : Glb → Glb) (s : State) : (withGlb f s).life = s.life := rfl
@[simp] theorem withGlb_power (f : Glb → Glb) (s : State) : (withGlb f s).power = s.power := rfl
@[simp] theorem withGlb_fe (f : Glb → Glb) (s : State) : (withGlb f s).fe = s.fe := rfl
@[simp] theorem withGlb_hl (f : Glb → Glb) (s : State) : (withGlb f s).hl = s.hl := rfl
@[simp] theorem withGlb_coex (f : Glb → Glb) (s : State) : (withGlb f s).coex = s.coex := rfl
@[simp] theorem withGlb_phy (f : Glb → Glb) (s : State) : (withGlb f s).phy = s.phy := rfl
@[simp] theorem withGlb_mac (f : Glb → Glb) (s : State) : (withGlb f s).mac = s.mac := rfl
@[simp] theorem withGlb_sched (f : Glb → Glb) (s : State) : (withGlb f s).sched = s.sched := rfl
@[simp] theorem withGlb_bf (f : Glb → Glb) (s : State) : (withGlb f s).bf = s.bf := rfl
@[simp] theorem withGlb_rope (f : Glb → Glb) (s : State) : (withGlb f s).rope = s.rope := rfl
@[simp] theorem withGlb_eth (f : Glb → Glb) (s : State) : (withGlb f s).eth = s.eth := rfl
@[simp] theorem withGlb_harrow (f : Glb → Glb) (s : State) : (withGlb f s).harrow = s.harrow := rfl
@[simp] theorem withGlb_seed (f : Glb → Glb) (s : State) : (withGlb f s).seed = s.seed := rfl
@[simp] theorem withGlb_router (f : Glb → Glb) (s : State) : (withGlb f s).router = s.router := rfl
@[simp] theorem withGlb_sec (f : Glb → Glb) (s : State) : (withGlb f s).sec = s.sec := rfl
@[simp] theorem withGlb_dram (f : Glb → Glb) (s : State) : (withGlb f s).dram = s.dram := rfl
@[simp] theorem withGlb_wur (f : Glb → Glb) (s : State) : (withGlb f s).wur = s.wur := rfl
@[simp] theorem withGlb_rtc (f : Glb → Glb) (s : State) : (withGlb f s).rtc = s.rtc := rfl
@[simp] theorem withGlb_rel (f : Glb → Glb) (s : State) : (withGlb f s).rel = s.rel := rfl
@[simp] theorem withGlb_time (f : Glb → Glb) (s : State) : (withGlb f s).time = s.time := rfl
@[simp] theorem withGlb_bar (f : Glb → Glb) (s : State) : (withGlb f s).bar = s.bar := rfl
@[simp] theorem withGlb_mpRam (f : Glb → Glb) (s : State) : (withGlb f s).mpRam = s.mpRam := rfl

/-! withLife -/

@[simp] theorem withLife_pending (f : Life → Life) (s : State) : (withLife f s).pending = s.pending := rfl
@[simp] theorem withLife_now (f : Life → Life) (s : State) : (withLife f s).now = s.now := rfl
@[simp] theorem withLife_free (f : Life → Life) (s : State) : (withLife f s).free = s.free := rfl
@[simp] theorem withLife_out (f : Life → Life) (s : State) : (withLife f s).out = s.out := rfl
@[simp] theorem withLife_glb (f : Life → Life) (s : State) : (withLife f s).glb = s.glb := rfl
@[simp] theorem withLife_host (f : Life → Life) (s : State) : (withLife f s).host = s.host := rfl
@[simp] theorem withLife_rings (f : Life → Life) (s : State) : (withLife f s).rings = s.rings := rfl
@[simp] theorem withLife_life (f : Life → Life) (s : State) : (withLife f s).life = f s.life := rfl
@[simp] theorem withLife_power (f : Life → Life) (s : State) : (withLife f s).power = s.power := rfl
@[simp] theorem withLife_fe (f : Life → Life) (s : State) : (withLife f s).fe = s.fe := rfl
@[simp] theorem withLife_hl (f : Life → Life) (s : State) : (withLife f s).hl = s.hl := rfl
@[simp] theorem withLife_coex (f : Life → Life) (s : State) : (withLife f s).coex = s.coex := rfl
@[simp] theorem withLife_phy (f : Life → Life) (s : State) : (withLife f s).phy = s.phy := rfl
@[simp] theorem withLife_mac (f : Life → Life) (s : State) : (withLife f s).mac = s.mac := rfl
@[simp] theorem withLife_sched (f : Life → Life) (s : State) : (withLife f s).sched = s.sched := rfl
@[simp] theorem withLife_bf (f : Life → Life) (s : State) : (withLife f s).bf = s.bf := rfl
@[simp] theorem withLife_rope (f : Life → Life) (s : State) : (withLife f s).rope = s.rope := rfl
@[simp] theorem withLife_eth (f : Life → Life) (s : State) : (withLife f s).eth = s.eth := rfl
@[simp] theorem withLife_harrow (f : Life → Life) (s : State) : (withLife f s).harrow = s.harrow := rfl
@[simp] theorem withLife_seed (f : Life → Life) (s : State) : (withLife f s).seed = s.seed := rfl
@[simp] theorem withLife_router (f : Life → Life) (s : State) : (withLife f s).router = s.router := rfl
@[simp] theorem withLife_sec (f : Life → Life) (s : State) : (withLife f s).sec = s.sec := rfl
@[simp] theorem withLife_dram (f : Life → Life) (s : State) : (withLife f s).dram = s.dram := rfl
@[simp] theorem withLife_wur (f : Life → Life) (s : State) : (withLife f s).wur = s.wur := rfl
@[simp] theorem withLife_rtc (f : Life → Life) (s : State) : (withLife f s).rtc = s.rtc := rfl
@[simp] theorem withLife_rel (f : Life → Life) (s : State) : (withLife f s).rel = s.rel := rfl
@[simp] theorem withLife_time (f : Life → Life) (s : State) : (withLife f s).time = s.time := rfl
@[simp] theorem withLife_bar (f : Life → Life) (s : State) : (withLife f s).bar = s.bar := rfl
@[simp] theorem withLife_mpRam (f : Life → Life) (s : State) : (withLife f s).mpRam = s.mpRam := rfl

/-! withPower -/

@[simp] theorem withPower_pending (f : Power → Power) (s : State) : (withPower f s).pending = s.pending := rfl
@[simp] theorem withPower_now (f : Power → Power) (s : State) : (withPower f s).now = s.now := rfl
@[simp] theorem withPower_free (f : Power → Power) (s : State) : (withPower f s).free = s.free := rfl
@[simp] theorem withPower_out (f : Power → Power) (s : State) : (withPower f s).out = s.out := rfl
@[simp] theorem withPower_glb (f : Power → Power) (s : State) : (withPower f s).glb = s.glb := rfl
@[simp] theorem withPower_host (f : Power → Power) (s : State) : (withPower f s).host = s.host := rfl
@[simp] theorem withPower_rings (f : Power → Power) (s : State) : (withPower f s).rings = s.rings := rfl
@[simp] theorem withPower_life (f : Power → Power) (s : State) : (withPower f s).life = s.life := rfl
@[simp] theorem withPower_power (f : Power → Power) (s : State) : (withPower f s).power = f s.power := rfl
@[simp] theorem withPower_fe (f : Power → Power) (s : State) : (withPower f s).fe = s.fe := rfl
@[simp] theorem withPower_hl (f : Power → Power) (s : State) : (withPower f s).hl = s.hl := rfl
@[simp] theorem withPower_coex (f : Power → Power) (s : State) : (withPower f s).coex = s.coex := rfl
@[simp] theorem withPower_phy (f : Power → Power) (s : State) : (withPower f s).phy = s.phy := rfl
@[simp] theorem withPower_mac (f : Power → Power) (s : State) : (withPower f s).mac = s.mac := rfl
@[simp] theorem withPower_sched (f : Power → Power) (s : State) : (withPower f s).sched = s.sched := rfl
@[simp] theorem withPower_bf (f : Power → Power) (s : State) : (withPower f s).bf = s.bf := rfl
@[simp] theorem withPower_rope (f : Power → Power) (s : State) : (withPower f s).rope = s.rope := rfl
@[simp] theorem withPower_eth (f : Power → Power) (s : State) : (withPower f s).eth = s.eth := rfl
@[simp] theorem withPower_harrow (f : Power → Power) (s : State) : (withPower f s).harrow = s.harrow := rfl
@[simp] theorem withPower_seed (f : Power → Power) (s : State) : (withPower f s).seed = s.seed := rfl
@[simp] theorem withPower_router (f : Power → Power) (s : State) : (withPower f s).router = s.router := rfl
@[simp] theorem withPower_sec (f : Power → Power) (s : State) : (withPower f s).sec = s.sec := rfl
@[simp] theorem withPower_dram (f : Power → Power) (s : State) : (withPower f s).dram = s.dram := rfl
@[simp] theorem withPower_wur (f : Power → Power) (s : State) : (withPower f s).wur = s.wur := rfl
@[simp] theorem withPower_rtc (f : Power → Power) (s : State) : (withPower f s).rtc = s.rtc := rfl
@[simp] theorem withPower_rel (f : Power → Power) (s : State) : (withPower f s).rel = s.rel := rfl
@[simp] theorem withPower_time (f : Power → Power) (s : State) : (withPower f s).time = s.time := rfl
@[simp] theorem withPower_bar (f : Power → Power) (s : State) : (withPower f s).bar = s.bar := rfl
@[simp] theorem withPower_mpRam (f : Power → Power) (s : State) : (withPower f s).mpRam = s.mpRam := rfl

/-! withHost -/

@[simp] theorem withHost_pending (f : HostIf → HostIf) (s : State) : (withHost f s).pending = s.pending := rfl
@[simp] theorem withHost_now (f : HostIf → HostIf) (s : State) : (withHost f s).now = s.now := rfl
@[simp] theorem withHost_free (f : HostIf → HostIf) (s : State) : (withHost f s).free = s.free := rfl
@[simp] theorem withHost_out (f : HostIf → HostIf) (s : State) : (withHost f s).out = s.out := rfl
@[simp] theorem withHost_glb (f : HostIf → HostIf) (s : State) : (withHost f s).glb = s.glb := rfl
@[simp] theorem withHost_host (f : HostIf → HostIf) (s : State) : (withHost f s).host = f s.host := rfl
@[simp] theorem withHost_rings (f : HostIf → HostIf) (s : State) : (withHost f s).rings = s.rings := rfl
@[simp] theorem withHost_life (f : HostIf → HostIf) (s : State) : (withHost f s).life = s.life := rfl
@[simp] theorem withHost_power (f : HostIf → HostIf) (s : State) : (withHost f s).power = s.power := rfl
@[simp] theorem withHost_fe (f : HostIf → HostIf) (s : State) : (withHost f s).fe = s.fe := rfl
@[simp] theorem withHost_hl (f : HostIf → HostIf) (s : State) : (withHost f s).hl = s.hl := rfl
@[simp] theorem withHost_coex (f : HostIf → HostIf) (s : State) : (withHost f s).coex = s.coex := rfl
@[simp] theorem withHost_phy (f : HostIf → HostIf) (s : State) : (withHost f s).phy = s.phy := rfl
@[simp] theorem withHost_mac (f : HostIf → HostIf) (s : State) : (withHost f s).mac = s.mac := rfl
@[simp] theorem withHost_sched (f : HostIf → HostIf) (s : State) : (withHost f s).sched = s.sched := rfl
@[simp] theorem withHost_bf (f : HostIf → HostIf) (s : State) : (withHost f s).bf = s.bf := rfl
@[simp] theorem withHost_rope (f : HostIf → HostIf) (s : State) : (withHost f s).rope = s.rope := rfl
@[simp] theorem withHost_eth (f : HostIf → HostIf) (s : State) : (withHost f s).eth = s.eth := rfl
@[simp] theorem withHost_harrow (f : HostIf → HostIf) (s : State) : (withHost f s).harrow = s.harrow := rfl
@[simp] theorem withHost_seed (f : HostIf → HostIf) (s : State) : (withHost f s).seed = s.seed := rfl
@[simp] theorem withHost_router (f : HostIf → HostIf) (s : State) : (withHost f s).router = s.router := rfl
@[simp] theorem withHost_sec (f : HostIf → HostIf) (s : State) : (withHost f s).sec = s.sec := rfl
@[simp] theorem withHost_dram (f : HostIf → HostIf) (s : State) : (withHost f s).dram = s.dram := rfl
@[simp] theorem withHost_wur (f : HostIf → HostIf) (s : State) : (withHost f s).wur = s.wur := rfl
@[simp] theorem withHost_rtc (f : HostIf → HostIf) (s : State) : (withHost f s).rtc = s.rtc := rfl
@[simp] theorem withHost_rel (f : HostIf → HostIf) (s : State) : (withHost f s).rel = s.rel := rfl
@[simp] theorem withHost_time (f : HostIf → HostIf) (s : State) : (withHost f s).time = s.time := rfl
@[simp] theorem withHost_bar (f : HostIf → HostIf) (s : State) : (withHost f s).bar = s.bar := rfl
@[simp] theorem withHost_mpRam (f : HostIf → HostIf) (s : State) : (withHost f s).mpRam = s.mpRam := rfl

/-! withEvt -/

@[simp] theorem withEvt_pending (f : Evt → Evt) (s : State) : (withEvt f s).pending = s.pending := rfl
@[simp] theorem withEvt_now (f : Evt → Evt) (s : State) : (withEvt f s).now = s.now := rfl
@[simp] theorem withEvt_free (f : Evt → Evt) (s : State) : (withEvt f s).free = s.free := rfl
@[simp] theorem withEvt_out (f : Evt → Evt) (s : State) : (withEvt f s).out = s.out := rfl
@[simp] theorem withEvt_glb (f : Evt → Evt) (s : State) : (withEvt f s).glb = s.glb := rfl
@[simp] theorem withEvt_rings (f : Evt → Evt) (s : State) : (withEvt f s).rings = s.rings := rfl
@[simp] theorem withEvt_life (f : Evt → Evt) (s : State) : (withEvt f s).life = s.life := rfl
@[simp] theorem withEvt_power (f : Evt → Evt) (s : State) : (withEvt f s).power = s.power := rfl
@[simp] theorem withEvt_fe (f : Evt → Evt) (s : State) : (withEvt f s).fe = s.fe := rfl
@[simp] theorem withEvt_hl (f : Evt → Evt) (s : State) : (withEvt f s).hl = s.hl := rfl
@[simp] theorem withEvt_coex (f : Evt → Evt) (s : State) : (withEvt f s).coex = s.coex := rfl
@[simp] theorem withEvt_phy (f : Evt → Evt) (s : State) : (withEvt f s).phy = s.phy := rfl
@[simp] theorem withEvt_mac (f : Evt → Evt) (s : State) : (withEvt f s).mac = s.mac := rfl
@[simp] theorem withEvt_sched (f : Evt → Evt) (s : State) : (withEvt f s).sched = s.sched := rfl
@[simp] theorem withEvt_bf (f : Evt → Evt) (s : State) : (withEvt f s).bf = s.bf := rfl
@[simp] theorem withEvt_rope (f : Evt → Evt) (s : State) : (withEvt f s).rope = s.rope := rfl
@[simp] theorem withEvt_eth (f : Evt → Evt) (s : State) : (withEvt f s).eth = s.eth := rfl
@[simp] theorem withEvt_harrow (f : Evt → Evt) (s : State) : (withEvt f s).harrow = s.harrow := rfl
@[simp] theorem withEvt_seed (f : Evt → Evt) (s : State) : (withEvt f s).seed = s.seed := rfl
@[simp] theorem withEvt_router (f : Evt → Evt) (s : State) : (withEvt f s).router = s.router := rfl
@[simp] theorem withEvt_sec (f : Evt → Evt) (s : State) : (withEvt f s).sec = s.sec := rfl
@[simp] theorem withEvt_dram (f : Evt → Evt) (s : State) : (withEvt f s).dram = s.dram := rfl
@[simp] theorem withEvt_wur (f : Evt → Evt) (s : State) : (withEvt f s).wur = s.wur := rfl
@[simp] theorem withEvt_rtc (f : Evt → Evt) (s : State) : (withEvt f s).rtc = s.rtc := rfl
@[simp] theorem withEvt_rel (f : Evt → Evt) (s : State) : (withEvt f s).rel = s.rel := rfl
@[simp] theorem withEvt_time (f : Evt → Evt) (s : State) : (withEvt f s).time = s.time := rfl
@[simp] theorem withEvt_bar (f : Evt → Evt) (s : State) : (withEvt f s).bar = s.bar := rfl
@[simp] theorem withEvt_mpRam (f : Evt → Evt) (s : State) : (withEvt f s).mpRam = s.mpRam := rfl

/-! withMbx -/

@[simp] theorem withMbx_pending (m : Nat) (f : Mailbox → Mailbox) (s : State) : (withMbx m f s).pending = s.pending := rfl
@[simp] theorem withMbx_now (m : Nat) (f : Mailbox → Mailbox) (s : State) : (withMbx m f s).now = s.now := rfl
@[simp] theorem withMbx_free (m : Nat) (f : Mailbox → Mailbox) (s : State) : (withMbx m f s).free = s.free := rfl
@[simp] theorem withMbx_out (m : Nat) (f : Mailbox → Mailbox) (s : State) : (withMbx m f s).out = s.out := rfl
@[simp] theorem withMbx_glb (m : Nat) (f : Mailbox → Mailbox) (s : State) : (withMbx m f s).glb = s.glb := rfl
@[simp] theorem withMbx_rings (m : Nat) (f : Mailbox → Mailbox) (s : State) : (withMbx m f s).rings = s.rings := rfl
@[simp] theorem withMbx_life (m : Nat) (f : Mailbox → Mailbox) (s : State) : (withMbx m f s).life = s.life := rfl
@[simp] theorem withMbx_power (m : Nat) (f : Mailbox → Mailbox) (s : State) : (withMbx m f s).power = s.power := rfl
@[simp] theorem withMbx_fe (m : Nat) (f : Mailbox → Mailbox) (s : State) : (withMbx m f s).fe = s.fe := rfl
@[simp] theorem withMbx_hl (m : Nat) (f : Mailbox → Mailbox) (s : State) : (withMbx m f s).hl = s.hl := rfl
@[simp] theorem withMbx_coex (m : Nat) (f : Mailbox → Mailbox) (s : State) : (withMbx m f s).coex = s.coex := rfl
@[simp] theorem withMbx_phy (m : Nat) (f : Mailbox → Mailbox) (s : State) : (withMbx m f s).phy = s.phy := rfl
@[simp] theorem withMbx_mac (m : Nat) (f : Mailbox → Mailbox) (s : State) : (withMbx m f s).mac = s.mac := rfl
@[simp] theorem withMbx_sched (m : Nat) (f : Mailbox → Mailbox) (s : State) : (withMbx m f s).sched = s.sched := rfl
@[simp] theorem withMbx_bf (m : Nat) (f : Mailbox → Mailbox) (s : State) : (withMbx m f s).bf = s.bf := rfl
@[simp] theorem withMbx_rope (m : Nat) (f : Mailbox → Mailbox) (s : State) : (withMbx m f s).rope = s.rope := rfl
@[simp] theorem withMbx_eth (m : Nat) (f : Mailbox → Mailbox) (s : State) : (withMbx m f s).eth = s.eth := rfl
@[simp] theorem withMbx_harrow (m : Nat) (f : Mailbox → Mailbox) (s : State) : (withMbx m f s).harrow = s.harrow := rfl
@[simp] theorem withMbx_seed (m : Nat) (f : Mailbox → Mailbox) (s : State) : (withMbx m f s).seed = s.seed := rfl
@[simp] theorem withMbx_router (m : Nat) (f : Mailbox → Mailbox) (s : State) : (withMbx m f s).router = s.router := rfl
@[simp] theorem withMbx_sec (m : Nat) (f : Mailbox → Mailbox) (s : State) : (withMbx m f s).sec = s.sec := rfl
@[simp] theorem withMbx_dram (m : Nat) (f : Mailbox → Mailbox) (s : State) : (withMbx m f s).dram = s.dram := rfl
@[simp] theorem withMbx_wur (m : Nat) (f : Mailbox → Mailbox) (s : State) : (withMbx m f s).wur = s.wur := rfl
@[simp] theorem withMbx_rtc (m : Nat) (f : Mailbox → Mailbox) (s : State) : (withMbx m f s).rtc = s.rtc := rfl
@[simp] theorem withMbx_rel (m : Nat) (f : Mailbox → Mailbox) (s : State) : (withMbx m f s).rel = s.rel := rfl
@[simp] theorem withMbx_time (m : Nat) (f : Mailbox → Mailbox) (s : State) : (withMbx m f s).time = s.time := rfl
@[simp] theorem withMbx_bar (m : Nat) (f : Mailbox → Mailbox) (s : State) : (withMbx m f s).bar = s.bar := rfl
@[simp] theorem withMbx_mpRam (m : Nat) (f : Mailbox → Mailbox) (s : State) : (withMbx m f s).mpRam = s.mpRam := rfl

/-! withCq -/

@[simp] theorem withCq_pending (q : Nat) (f : Cq → Cq) (s : State) : (withCq q f s).pending = s.pending := rfl
@[simp] theorem withCq_now (q : Nat) (f : Cq → Cq) (s : State) : (withCq q f s).now = s.now := rfl
@[simp] theorem withCq_free (q : Nat) (f : Cq → Cq) (s : State) : (withCq q f s).free = s.free := rfl
@[simp] theorem withCq_out (q : Nat) (f : Cq → Cq) (s : State) : (withCq q f s).out = s.out := rfl
@[simp] theorem withCq_glb (q : Nat) (f : Cq → Cq) (s : State) : (withCq q f s).glb = s.glb := rfl
@[simp] theorem withCq_rings (q : Nat) (f : Cq → Cq) (s : State) : (withCq q f s).rings = s.rings := rfl
@[simp] theorem withCq_life (q : Nat) (f : Cq → Cq) (s : State) : (withCq q f s).life = s.life := rfl
@[simp] theorem withCq_power (q : Nat) (f : Cq → Cq) (s : State) : (withCq q f s).power = s.power := rfl
@[simp] theorem withCq_fe (q : Nat) (f : Cq → Cq) (s : State) : (withCq q f s).fe = s.fe := rfl
@[simp] theorem withCq_hl (q : Nat) (f : Cq → Cq) (s : State) : (withCq q f s).hl = s.hl := rfl
@[simp] theorem withCq_coex (q : Nat) (f : Cq → Cq) (s : State) : (withCq q f s).coex = s.coex := rfl
@[simp] theorem withCq_phy (q : Nat) (f : Cq → Cq) (s : State) : (withCq q f s).phy = s.phy := rfl
@[simp] theorem withCq_mac (q : Nat) (f : Cq → Cq) (s : State) : (withCq q f s).mac = s.mac := rfl
@[simp] theorem withCq_sched (q : Nat) (f : Cq → Cq) (s : State) : (withCq q f s).sched = s.sched := rfl
@[simp] theorem withCq_bf (q : Nat) (f : Cq → Cq) (s : State) : (withCq q f s).bf = s.bf := rfl
@[simp] theorem withCq_rope (q : Nat) (f : Cq → Cq) (s : State) : (withCq q f s).rope = s.rope := rfl
@[simp] theorem withCq_eth (q : Nat) (f : Cq → Cq) (s : State) : (withCq q f s).eth = s.eth := rfl
@[simp] theorem withCq_harrow (q : Nat) (f : Cq → Cq) (s : State) : (withCq q f s).harrow = s.harrow := rfl
@[simp] theorem withCq_seed (q : Nat) (f : Cq → Cq) (s : State) : (withCq q f s).seed = s.seed := rfl
@[simp] theorem withCq_router (q : Nat) (f : Cq → Cq) (s : State) : (withCq q f s).router = s.router := rfl
@[simp] theorem withCq_sec (q : Nat) (f : Cq → Cq) (s : State) : (withCq q f s).sec = s.sec := rfl
@[simp] theorem withCq_dram (q : Nat) (f : Cq → Cq) (s : State) : (withCq q f s).dram = s.dram := rfl
@[simp] theorem withCq_wur (q : Nat) (f : Cq → Cq) (s : State) : (withCq q f s).wur = s.wur := rfl
@[simp] theorem withCq_rtc (q : Nat) (f : Cq → Cq) (s : State) : (withCq q f s).rtc = s.rtc := rfl
@[simp] theorem withCq_rel (q : Nat) (f : Cq → Cq) (s : State) : (withCq q f s).rel = s.rel := rfl
@[simp] theorem withCq_time (q : Nat) (f : Cq → Cq) (s : State) : (withCq q f s).time = s.time := rfl
@[simp] theorem withCq_bar (q : Nat) (f : Cq → Cq) (s : State) : (withCq q f s).bar = s.bar := rfl
@[simp] theorem withCq_mpRam (q : Nat) (f : Cq → Cq) (s : State) : (withCq q f s).mpRam = s.mpRam := rfl

/-! withHtx -/

@[simp] theorem withHtx_pending (n : Nat) (f : Ring → Ring) (s : State) : (withHtx n f s).pending = s.pending := rfl
@[simp] theorem withHtx_now (n : Nat) (f : Ring → Ring) (s : State) : (withHtx n f s).now = s.now := rfl
@[simp] theorem withHtx_free (n : Nat) (f : Ring → Ring) (s : State) : (withHtx n f s).free = s.free := rfl
@[simp] theorem withHtx_out (n : Nat) (f : Ring → Ring) (s : State) : (withHtx n f s).out = s.out := rfl
@[simp] theorem withHtx_glb (n : Nat) (f : Ring → Ring) (s : State) : (withHtx n f s).glb = s.glb := rfl
@[simp] theorem withHtx_host (n : Nat) (f : Ring → Ring) (s : State) : (withHtx n f s).host = s.host := rfl
@[simp] theorem withHtx_life (n : Nat) (f : Ring → Ring) (s : State) : (withHtx n f s).life = s.life := rfl
@[simp] theorem withHtx_power (n : Nat) (f : Ring → Ring) (s : State) : (withHtx n f s).power = s.power := rfl
@[simp] theorem withHtx_fe (n : Nat) (f : Ring → Ring) (s : State) : (withHtx n f s).fe = s.fe := rfl
@[simp] theorem withHtx_hl (n : Nat) (f : Ring → Ring) (s : State) : (withHtx n f s).hl = s.hl := rfl
@[simp] theorem withHtx_coex (n : Nat) (f : Ring → Ring) (s : State) : (withHtx n f s).coex = s.coex := rfl
@[simp] theorem withHtx_phy (n : Nat) (f : Ring → Ring) (s : State) : (withHtx n f s).phy = s.phy := rfl
@[simp] theorem withHtx_mac (n : Nat) (f : Ring → Ring) (s : State) : (withHtx n f s).mac = s.mac := rfl
@[simp] theorem withHtx_sched (n : Nat) (f : Ring → Ring) (s : State) : (withHtx n f s).sched = s.sched := rfl
@[simp] theorem withHtx_bf (n : Nat) (f : Ring → Ring) (s : State) : (withHtx n f s).bf = s.bf := rfl
@[simp] theorem withHtx_rope (n : Nat) (f : Ring → Ring) (s : State) : (withHtx n f s).rope = s.rope := rfl
@[simp] theorem withHtx_eth (n : Nat) (f : Ring → Ring) (s : State) : (withHtx n f s).eth = s.eth := rfl
@[simp] theorem withHtx_harrow (n : Nat) (f : Ring → Ring) (s : State) : (withHtx n f s).harrow = s.harrow := rfl
@[simp] theorem withHtx_seed (n : Nat) (f : Ring → Ring) (s : State) : (withHtx n f s).seed = s.seed := rfl
@[simp] theorem withHtx_router (n : Nat) (f : Ring → Ring) (s : State) : (withHtx n f s).router = s.router := rfl
@[simp] theorem withHtx_sec (n : Nat) (f : Ring → Ring) (s : State) : (withHtx n f s).sec = s.sec := rfl
@[simp] theorem withHtx_dram (n : Nat) (f : Ring → Ring) (s : State) : (withHtx n f s).dram = s.dram := rfl
@[simp] theorem withHtx_wur (n : Nat) (f : Ring → Ring) (s : State) : (withHtx n f s).wur = s.wur := rfl
@[simp] theorem withHtx_rtc (n : Nat) (f : Ring → Ring) (s : State) : (withHtx n f s).rtc = s.rtc := rfl
@[simp] theorem withHtx_rel (n : Nat) (f : Ring → Ring) (s : State) : (withHtx n f s).rel = s.rel := rfl
@[simp] theorem withHtx_time (n : Nat) (f : Ring → Ring) (s : State) : (withHtx n f s).time = s.time := rfl
@[simp] theorem withHtx_bar (n : Nat) (f : Ring → Ring) (s : State) : (withHtx n f s).bar = s.bar := rfl
@[simp] theorem withHtx_mpRam (n : Nat) (f : Ring → Ring) (s : State) : (withHtx n f s).mpRam = s.mpRam := rfl

/-! withHrx -/

@[simp] theorem withHrx_pending (n : Nat) (f : Ring → Ring) (s : State) : (withHrx n f s).pending = s.pending := rfl
@[simp] theorem withHrx_now (n : Nat) (f : Ring → Ring) (s : State) : (withHrx n f s).now = s.now := rfl
@[simp] theorem withHrx_free (n : Nat) (f : Ring → Ring) (s : State) : (withHrx n f s).free = s.free := rfl
@[simp] theorem withHrx_out (n : Nat) (f : Ring → Ring) (s : State) : (withHrx n f s).out = s.out := rfl
@[simp] theorem withHrx_glb (n : Nat) (f : Ring → Ring) (s : State) : (withHrx n f s).glb = s.glb := rfl
@[simp] theorem withHrx_host (n : Nat) (f : Ring → Ring) (s : State) : (withHrx n f s).host = s.host := rfl
@[simp] theorem withHrx_life (n : Nat) (f : Ring → Ring) (s : State) : (withHrx n f s).life = s.life := rfl
@[simp] theorem withHrx_power (n : Nat) (f : Ring → Ring) (s : State) : (withHrx n f s).power = s.power := rfl
@[simp] theorem withHrx_fe (n : Nat) (f : Ring → Ring) (s : State) : (withHrx n f s).fe = s.fe := rfl
@[simp] theorem withHrx_hl (n : Nat) (f : Ring → Ring) (s : State) : (withHrx n f s).hl = s.hl := rfl
@[simp] theorem withHrx_coex (n : Nat) (f : Ring → Ring) (s : State) : (withHrx n f s).coex = s.coex := rfl
@[simp] theorem withHrx_phy (n : Nat) (f : Ring → Ring) (s : State) : (withHrx n f s).phy = s.phy := rfl
@[simp] theorem withHrx_mac (n : Nat) (f : Ring → Ring) (s : State) : (withHrx n f s).mac = s.mac := rfl
@[simp] theorem withHrx_sched (n : Nat) (f : Ring → Ring) (s : State) : (withHrx n f s).sched = s.sched := rfl
@[simp] theorem withHrx_bf (n : Nat) (f : Ring → Ring) (s : State) : (withHrx n f s).bf = s.bf := rfl
@[simp] theorem withHrx_rope (n : Nat) (f : Ring → Ring) (s : State) : (withHrx n f s).rope = s.rope := rfl
@[simp] theorem withHrx_eth (n : Nat) (f : Ring → Ring) (s : State) : (withHrx n f s).eth = s.eth := rfl
@[simp] theorem withHrx_harrow (n : Nat) (f : Ring → Ring) (s : State) : (withHrx n f s).harrow = s.harrow := rfl
@[simp] theorem withHrx_seed (n : Nat) (f : Ring → Ring) (s : State) : (withHrx n f s).seed = s.seed := rfl
@[simp] theorem withHrx_router (n : Nat) (f : Ring → Ring) (s : State) : (withHrx n f s).router = s.router := rfl
@[simp] theorem withHrx_sec (n : Nat) (f : Ring → Ring) (s : State) : (withHrx n f s).sec = s.sec := rfl
@[simp] theorem withHrx_dram (n : Nat) (f : Ring → Ring) (s : State) : (withHrx n f s).dram = s.dram := rfl
@[simp] theorem withHrx_wur (n : Nat) (f : Ring → Ring) (s : State) : (withHrx n f s).wur = s.wur := rfl
@[simp] theorem withHrx_rtc (n : Nat) (f : Ring → Ring) (s : State) : (withHrx n f s).rtc = s.rtc := rfl
@[simp] theorem withHrx_rel (n : Nat) (f : Ring → Ring) (s : State) : (withHrx n f s).rel = s.rel := rfl
@[simp] theorem withHrx_time (n : Nat) (f : Ring → Ring) (s : State) : (withHrx n f s).time = s.time := rfl
@[simp] theorem withHrx_bar (n : Nat) (f : Ring → Ring) (s : State) : (withHrx n f s).bar = s.bar := rfl
@[simp] theorem withHrx_mpRam (n : Nat) (f : Ring → Ring) (s : State) : (withHrx n f s).mpRam = s.mpRam := rfl

/-! withFe -/

@[simp] theorem withFe_pending (r : Nat) (f : RadioFe → RadioFe) (s : State) : (withFe r f s).pending = s.pending := rfl
@[simp] theorem withFe_now (r : Nat) (f : RadioFe → RadioFe) (s : State) : (withFe r f s).now = s.now := rfl
@[simp] theorem withFe_free (r : Nat) (f : RadioFe → RadioFe) (s : State) : (withFe r f s).free = s.free := rfl
@[simp] theorem withFe_out (r : Nat) (f : RadioFe → RadioFe) (s : State) : (withFe r f s).out = s.out := rfl
@[simp] theorem withFe_glb (r : Nat) (f : RadioFe → RadioFe) (s : State) : (withFe r f s).glb = s.glb := rfl
@[simp] theorem withFe_host (r : Nat) (f : RadioFe → RadioFe) (s : State) : (withFe r f s).host = s.host := rfl
@[simp] theorem withFe_rings (r : Nat) (f : RadioFe → RadioFe) (s : State) : (withFe r f s).rings = s.rings := rfl
@[simp] theorem withFe_life (r : Nat) (f : RadioFe → RadioFe) (s : State) : (withFe r f s).life = s.life := rfl
@[simp] theorem withFe_power (r : Nat) (f : RadioFe → RadioFe) (s : State) : (withFe r f s).power = s.power := rfl
@[simp] theorem withFe_fe (r : Nat) (f : RadioFe → RadioFe) (s : State) : (withFe r f s).fe = vmod s.fe r f := rfl
@[simp] theorem withFe_hl (r : Nat) (f : RadioFe → RadioFe) (s : State) : (withFe r f s).hl = s.hl := rfl
@[simp] theorem withFe_coex (r : Nat) (f : RadioFe → RadioFe) (s : State) : (withFe r f s).coex = s.coex := rfl
@[simp] theorem withFe_phy (r : Nat) (f : RadioFe → RadioFe) (s : State) : (withFe r f s).phy = s.phy := rfl
@[simp] theorem withFe_mac (r : Nat) (f : RadioFe → RadioFe) (s : State) : (withFe r f s).mac = s.mac := rfl
@[simp] theorem withFe_sched (r : Nat) (f : RadioFe → RadioFe) (s : State) : (withFe r f s).sched = s.sched := rfl
@[simp] theorem withFe_bf (r : Nat) (f : RadioFe → RadioFe) (s : State) : (withFe r f s).bf = s.bf := rfl
@[simp] theorem withFe_rope (r : Nat) (f : RadioFe → RadioFe) (s : State) : (withFe r f s).rope = s.rope := rfl
@[simp] theorem withFe_eth (r : Nat) (f : RadioFe → RadioFe) (s : State) : (withFe r f s).eth = s.eth := rfl
@[simp] theorem withFe_harrow (r : Nat) (f : RadioFe → RadioFe) (s : State) : (withFe r f s).harrow = s.harrow := rfl
@[simp] theorem withFe_seed (r : Nat) (f : RadioFe → RadioFe) (s : State) : (withFe r f s).seed = s.seed := rfl
@[simp] theorem withFe_router (r : Nat) (f : RadioFe → RadioFe) (s : State) : (withFe r f s).router = s.router := rfl
@[simp] theorem withFe_sec (r : Nat) (f : RadioFe → RadioFe) (s : State) : (withFe r f s).sec = s.sec := rfl
@[simp] theorem withFe_dram (r : Nat) (f : RadioFe → RadioFe) (s : State) : (withFe r f s).dram = s.dram := rfl
@[simp] theorem withFe_wur (r : Nat) (f : RadioFe → RadioFe) (s : State) : (withFe r f s).wur = s.wur := rfl
@[simp] theorem withFe_rtc (r : Nat) (f : RadioFe → RadioFe) (s : State) : (withFe r f s).rtc = s.rtc := rfl
@[simp] theorem withFe_rel (r : Nat) (f : RadioFe → RadioFe) (s : State) : (withFe r f s).rel = s.rel := rfl
@[simp] theorem withFe_time (r : Nat) (f : RadioFe → RadioFe) (s : State) : (withFe r f s).time = s.time := rfl
@[simp] theorem withFe_bar (r : Nat) (f : RadioFe → RadioFe) (s : State) : (withFe r f s).bar = s.bar := rfl
@[simp] theorem withFe_mpRam (r : Nat) (f : RadioFe → RadioFe) (s : State) : (withFe r f s).mpRam = s.mpRam := rfl

/-! withChain -/

@[simp] theorem withChain_pending (r c : Nat) (f : Chain → Chain) (s : State) : (withChain r c f s).pending = s.pending := rfl
@[simp] theorem withChain_now (r c : Nat) (f : Chain → Chain) (s : State) : (withChain r c f s).now = s.now := rfl
@[simp] theorem withChain_free (r c : Nat) (f : Chain → Chain) (s : State) : (withChain r c f s).free = s.free := rfl
@[simp] theorem withChain_out (r c : Nat) (f : Chain → Chain) (s : State) : (withChain r c f s).out = s.out := rfl
@[simp] theorem withChain_glb (r c : Nat) (f : Chain → Chain) (s : State) : (withChain r c f s).glb = s.glb := rfl
@[simp] theorem withChain_host (r c : Nat) (f : Chain → Chain) (s : State) : (withChain r c f s).host = s.host := rfl
@[simp] theorem withChain_rings (r c : Nat) (f : Chain → Chain) (s : State) : (withChain r c f s).rings = s.rings := rfl
@[simp] theorem withChain_life (r c : Nat) (f : Chain → Chain) (s : State) : (withChain r c f s).life = s.life := rfl
@[simp] theorem withChain_power (r c : Nat) (f : Chain → Chain) (s : State) : (withChain r c f s).power = s.power := rfl
@[simp] theorem withChain_hl (r c : Nat) (f : Chain → Chain) (s : State) : (withChain r c f s).hl = s.hl := rfl
@[simp] theorem withChain_coex (r c : Nat) (f : Chain → Chain) (s : State) : (withChain r c f s).coex = s.coex := rfl
@[simp] theorem withChain_phy (r c : Nat) (f : Chain → Chain) (s : State) : (withChain r c f s).phy = s.phy := rfl
@[simp] theorem withChain_mac (r c : Nat) (f : Chain → Chain) (s : State) : (withChain r c f s).mac = s.mac := rfl
@[simp] theorem withChain_sched (r c : Nat) (f : Chain → Chain) (s : State) : (withChain r c f s).sched = s.sched := rfl
@[simp] theorem withChain_bf (r c : Nat) (f : Chain → Chain) (s : State) : (withChain r c f s).bf = s.bf := rfl
@[simp] theorem withChain_rope (r c : Nat) (f : Chain → Chain) (s : State) : (withChain r c f s).rope = s.rope := rfl
@[simp] theorem withChain_eth (r c : Nat) (f : Chain → Chain) (s : State) : (withChain r c f s).eth = s.eth := rfl
@[simp] theorem withChain_harrow (r c : Nat) (f : Chain → Chain) (s : State) : (withChain r c f s).harrow = s.harrow := rfl
@[simp] theorem withChain_seed (r c : Nat) (f : Chain → Chain) (s : State) : (withChain r c f s).seed = s.seed := rfl
@[simp] theorem withChain_router (r c : Nat) (f : Chain → Chain) (s : State) : (withChain r c f s).router = s.router := rfl
@[simp] theorem withChain_sec (r c : Nat) (f : Chain → Chain) (s : State) : (withChain r c f s).sec = s.sec := rfl
@[simp] theorem withChain_dram (r c : Nat) (f : Chain → Chain) (s : State) : (withChain r c f s).dram = s.dram := rfl
@[simp] theorem withChain_wur (r c : Nat) (f : Chain → Chain) (s : State) : (withChain r c f s).wur = s.wur := rfl
@[simp] theorem withChain_rtc (r c : Nat) (f : Chain → Chain) (s : State) : (withChain r c f s).rtc = s.rtc := rfl
@[simp] theorem withChain_rel (r c : Nat) (f : Chain → Chain) (s : State) : (withChain r c f s).rel = s.rel := rfl
@[simp] theorem withChain_time (r c : Nat) (f : Chain → Chain) (s : State) : (withChain r c f s).time = s.time := rfl
@[simp] theorem withChain_bar (r c : Nat) (f : Chain → Chain) (s : State) : (withChain r c f s).bar = s.bar := rfl
@[simp] theorem withChain_mpRam (r c : Nat) (f : Chain → Chain) (s : State) : (withChain r c f s).mpRam = s.mpRam := rfl

/-! withHl -/

@[simp] theorem withHl_pending (r : Nat) (f : RadioHl → RadioHl) (s : State) : (withHl r f s).pending = s.pending := rfl
@[simp] theorem withHl_now (r : Nat) (f : RadioHl → RadioHl) (s : State) : (withHl r f s).now = s.now := rfl
@[simp] theorem withHl_free (r : Nat) (f : RadioHl → RadioHl) (s : State) : (withHl r f s).free = s.free := rfl
@[simp] theorem withHl_out (r : Nat) (f : RadioHl → RadioHl) (s : State) : (withHl r f s).out = s.out := rfl
@[simp] theorem withHl_glb (r : Nat) (f : RadioHl → RadioHl) (s : State) : (withHl r f s).glb = s.glb := rfl
@[simp] theorem withHl_host (r : Nat) (f : RadioHl → RadioHl) (s : State) : (withHl r f s).host = s.host := rfl
@[simp] theorem withHl_rings (r : Nat) (f : RadioHl → RadioHl) (s : State) : (withHl r f s).rings = s.rings := rfl
@[simp] theorem withHl_life (r : Nat) (f : RadioHl → RadioHl) (s : State) : (withHl r f s).life = s.life := rfl
@[simp] theorem withHl_power (r : Nat) (f : RadioHl → RadioHl) (s : State) : (withHl r f s).power = s.power := rfl
@[simp] theorem withHl_fe (r : Nat) (f : RadioHl → RadioHl) (s : State) : (withHl r f s).fe = s.fe := rfl
@[simp] theorem withHl_hl (r : Nat) (f : RadioHl → RadioHl) (s : State) : (withHl r f s).hl = vmod s.hl r f := rfl
@[simp] theorem withHl_coex (r : Nat) (f : RadioHl → RadioHl) (s : State) : (withHl r f s).coex = s.coex := rfl
@[simp] theorem withHl_phy (r : Nat) (f : RadioHl → RadioHl) (s : State) : (withHl r f s).phy = s.phy := rfl
@[simp] theorem withHl_mac (r : Nat) (f : RadioHl → RadioHl) (s : State) : (withHl r f s).mac = s.mac := rfl
@[simp] theorem withHl_sched (r : Nat) (f : RadioHl → RadioHl) (s : State) : (withHl r f s).sched = s.sched := rfl
@[simp] theorem withHl_bf (r : Nat) (f : RadioHl → RadioHl) (s : State) : (withHl r f s).bf = s.bf := rfl
@[simp] theorem withHl_rope (r : Nat) (f : RadioHl → RadioHl) (s : State) : (withHl r f s).rope = s.rope := rfl
@[simp] theorem withHl_eth (r : Nat) (f : RadioHl → RadioHl) (s : State) : (withHl r f s).eth = s.eth := rfl
@[simp] theorem withHl_harrow (r : Nat) (f : RadioHl → RadioHl) (s : State) : (withHl r f s).harrow = s.harrow := rfl
@[simp] theorem withHl_seed (r : Nat) (f : RadioHl → RadioHl) (s : State) : (withHl r f s).seed = s.seed := rfl
@[simp] theorem withHl_router (r : Nat) (f : RadioHl → RadioHl) (s : State) : (withHl r f s).router = s.router := rfl
@[simp] theorem withHl_sec (r : Nat) (f : RadioHl → RadioHl) (s : State) : (withHl r f s).sec = s.sec := rfl
@[simp] theorem withHl_dram (r : Nat) (f : RadioHl → RadioHl) (s : State) : (withHl r f s).dram = s.dram := rfl
@[simp] theorem withHl_wur (r : Nat) (f : RadioHl → RadioHl) (s : State) : (withHl r f s).wur = s.wur := rfl
@[simp] theorem withHl_rtc (r : Nat) (f : RadioHl → RadioHl) (s : State) : (withHl r f s).rtc = s.rtc := rfl
@[simp] theorem withHl_rel (r : Nat) (f : RadioHl → RadioHl) (s : State) : (withHl r f s).rel = s.rel := rfl
@[simp] theorem withHl_time (r : Nat) (f : RadioHl → RadioHl) (s : State) : (withHl r f s).time = s.time := rfl
@[simp] theorem withHl_bar (r : Nat) (f : RadioHl → RadioHl) (s : State) : (withHl r f s).bar = s.bar := rfl
@[simp] theorem withHl_mpRam (r : Nat) (f : RadioHl → RadioHl) (s : State) : (withHl r f s).mpRam = s.mpRam := rfl

/-! withPhy -/

@[simp] theorem withPhy_pending (r : Nat) (f : RadioPhy → RadioPhy) (s : State) : (withPhy r f s).pending = s.pending := rfl
@[simp] theorem withPhy_now (r : Nat) (f : RadioPhy → RadioPhy) (s : State) : (withPhy r f s).now = s.now := rfl
@[simp] theorem withPhy_free (r : Nat) (f : RadioPhy → RadioPhy) (s : State) : (withPhy r f s).free = s.free := rfl
@[simp] theorem withPhy_out (r : Nat) (f : RadioPhy → RadioPhy) (s : State) : (withPhy r f s).out = s.out := rfl
@[simp] theorem withPhy_glb (r : Nat) (f : RadioPhy → RadioPhy) (s : State) : (withPhy r f s).glb = s.glb := rfl
@[simp] theorem withPhy_host (r : Nat) (f : RadioPhy → RadioPhy) (s : State) : (withPhy r f s).host = s.host := rfl
@[simp] theorem withPhy_rings (r : Nat) (f : RadioPhy → RadioPhy) (s : State) : (withPhy r f s).rings = s.rings := rfl
@[simp] theorem withPhy_life (r : Nat) (f : RadioPhy → RadioPhy) (s : State) : (withPhy r f s).life = s.life := rfl
@[simp] theorem withPhy_power (r : Nat) (f : RadioPhy → RadioPhy) (s : State) : (withPhy r f s).power = s.power := rfl
@[simp] theorem withPhy_fe (r : Nat) (f : RadioPhy → RadioPhy) (s : State) : (withPhy r f s).fe = s.fe := rfl
@[simp] theorem withPhy_hl (r : Nat) (f : RadioPhy → RadioPhy) (s : State) : (withPhy r f s).hl = s.hl := rfl
@[simp] theorem withPhy_coex (r : Nat) (f : RadioPhy → RadioPhy) (s : State) : (withPhy r f s).coex = s.coex := rfl
@[simp] theorem withPhy_phy (r : Nat) (f : RadioPhy → RadioPhy) (s : State) : (withPhy r f s).phy = vmod s.phy r f := rfl
@[simp] theorem withPhy_mac (r : Nat) (f : RadioPhy → RadioPhy) (s : State) : (withPhy r f s).mac = s.mac := rfl
@[simp] theorem withPhy_sched (r : Nat) (f : RadioPhy → RadioPhy) (s : State) : (withPhy r f s).sched = s.sched := rfl
@[simp] theorem withPhy_bf (r : Nat) (f : RadioPhy → RadioPhy) (s : State) : (withPhy r f s).bf = s.bf := rfl
@[simp] theorem withPhy_rope (r : Nat) (f : RadioPhy → RadioPhy) (s : State) : (withPhy r f s).rope = s.rope := rfl
@[simp] theorem withPhy_eth (r : Nat) (f : RadioPhy → RadioPhy) (s : State) : (withPhy r f s).eth = s.eth := rfl
@[simp] theorem withPhy_harrow (r : Nat) (f : RadioPhy → RadioPhy) (s : State) : (withPhy r f s).harrow = s.harrow := rfl
@[simp] theorem withPhy_seed (r : Nat) (f : RadioPhy → RadioPhy) (s : State) : (withPhy r f s).seed = s.seed := rfl
@[simp] theorem withPhy_router (r : Nat) (f : RadioPhy → RadioPhy) (s : State) : (withPhy r f s).router = s.router := rfl
@[simp] theorem withPhy_sec (r : Nat) (f : RadioPhy → RadioPhy) (s : State) : (withPhy r f s).sec = s.sec := rfl
@[simp] theorem withPhy_dram (r : Nat) (f : RadioPhy → RadioPhy) (s : State) : (withPhy r f s).dram = s.dram := rfl
@[simp] theorem withPhy_wur (r : Nat) (f : RadioPhy → RadioPhy) (s : State) : (withPhy r f s).wur = s.wur := rfl
@[simp] theorem withPhy_rtc (r : Nat) (f : RadioPhy → RadioPhy) (s : State) : (withPhy r f s).rtc = s.rtc := rfl
@[simp] theorem withPhy_rel (r : Nat) (f : RadioPhy → RadioPhy) (s : State) : (withPhy r f s).rel = s.rel := rfl
@[simp] theorem withPhy_time (r : Nat) (f : RadioPhy → RadioPhy) (s : State) : (withPhy r f s).time = s.time := rfl
@[simp] theorem withPhy_bar (r : Nat) (f : RadioPhy → RadioPhy) (s : State) : (withPhy r f s).bar = s.bar := rfl
@[simp] theorem withPhy_mpRam (r : Nat) (f : RadioPhy → RadioPhy) (s : State) : (withPhy r f s).mpRam = s.mpRam := rfl

/-! withRx -/

@[simp] theorem withRx_pending (r : Nat) (f : RxCur → RxCur) (s : State) : (withRx r f s).pending = s.pending := rfl
@[simp] theorem withRx_now (r : Nat) (f : RxCur → RxCur) (s : State) : (withRx r f s).now = s.now := rfl
@[simp] theorem withRx_free (r : Nat) (f : RxCur → RxCur) (s : State) : (withRx r f s).free = s.free := rfl
@[simp] theorem withRx_out (r : Nat) (f : RxCur → RxCur) (s : State) : (withRx r f s).out = s.out := rfl
@[simp] theorem withRx_glb (r : Nat) (f : RxCur → RxCur) (s : State) : (withRx r f s).glb = s.glb := rfl
@[simp] theorem withRx_host (r : Nat) (f : RxCur → RxCur) (s : State) : (withRx r f s).host = s.host := rfl
@[simp] theorem withRx_rings (r : Nat) (f : RxCur → RxCur) (s : State) : (withRx r f s).rings = s.rings := rfl
@[simp] theorem withRx_life (r : Nat) (f : RxCur → RxCur) (s : State) : (withRx r f s).life = s.life := rfl
@[simp] theorem withRx_power (r : Nat) (f : RxCur → RxCur) (s : State) : (withRx r f s).power = s.power := rfl
@[simp] theorem withRx_fe (r : Nat) (f : RxCur → RxCur) (s : State) : (withRx r f s).fe = s.fe := rfl
@[simp] theorem withRx_hl (r : Nat) (f : RxCur → RxCur) (s : State) : (withRx r f s).hl = s.hl := rfl
@[simp] theorem withRx_coex (r : Nat) (f : RxCur → RxCur) (s : State) : (withRx r f s).coex = s.coex := rfl
@[simp] theorem withRx_mac (r : Nat) (f : RxCur → RxCur) (s : State) : (withRx r f s).mac = s.mac := rfl
@[simp] theorem withRx_sched (r : Nat) (f : RxCur → RxCur) (s : State) : (withRx r f s).sched = s.sched := rfl
@[simp] theorem withRx_bf (r : Nat) (f : RxCur → RxCur) (s : State) : (withRx r f s).bf = s.bf := rfl
@[simp] theorem withRx_rope (r : Nat) (f : RxCur → RxCur) (s : State) : (withRx r f s).rope = s.rope := rfl
@[simp] theorem withRx_eth (r : Nat) (f : RxCur → RxCur) (s : State) : (withRx r f s).eth = s.eth := rfl
@[simp] theorem withRx_harrow (r : Nat) (f : RxCur → RxCur) (s : State) : (withRx r f s).harrow = s.harrow := rfl
@[simp] theorem withRx_seed (r : Nat) (f : RxCur → RxCur) (s : State) : (withRx r f s).seed = s.seed := rfl
@[simp] theorem withRx_router (r : Nat) (f : RxCur → RxCur) (s : State) : (withRx r f s).router = s.router := rfl
@[simp] theorem withRx_sec (r : Nat) (f : RxCur → RxCur) (s : State) : (withRx r f s).sec = s.sec := rfl
@[simp] theorem withRx_dram (r : Nat) (f : RxCur → RxCur) (s : State) : (withRx r f s).dram = s.dram := rfl
@[simp] theorem withRx_wur (r : Nat) (f : RxCur → RxCur) (s : State) : (withRx r f s).wur = s.wur := rfl
@[simp] theorem withRx_rtc (r : Nat) (f : RxCur → RxCur) (s : State) : (withRx r f s).rtc = s.rtc := rfl
@[simp] theorem withRx_rel (r : Nat) (f : RxCur → RxCur) (s : State) : (withRx r f s).rel = s.rel := rfl
@[simp] theorem withRx_time (r : Nat) (f : RxCur → RxCur) (s : State) : (withRx r f s).time = s.time := rfl
@[simp] theorem withRx_bar (r : Nat) (f : RxCur → RxCur) (s : State) : (withRx r f s).bar = s.bar := rfl
@[simp] theorem withRx_mpRam (r : Nat) (f : RxCur → RxCur) (s : State) : (withRx r f s).mpRam = s.mpRam := rfl

/-! withMac -/

@[simp] theorem withMac_pending (f : Mac → Mac) (s : State) : (withMac f s).pending = s.pending := rfl
@[simp] theorem withMac_now (f : Mac → Mac) (s : State) : (withMac f s).now = s.now := rfl
@[simp] theorem withMac_free (f : Mac → Mac) (s : State) : (withMac f s).free = s.free := rfl
@[simp] theorem withMac_out (f : Mac → Mac) (s : State) : (withMac f s).out = s.out := rfl
@[simp] theorem withMac_glb (f : Mac → Mac) (s : State) : (withMac f s).glb = s.glb := rfl
@[simp] theorem withMac_host (f : Mac → Mac) (s : State) : (withMac f s).host = s.host := rfl
@[simp] theorem withMac_rings (f : Mac → Mac) (s : State) : (withMac f s).rings = s.rings := rfl
@[simp] theorem withMac_life (f : Mac → Mac) (s : State) : (withMac f s).life = s.life := rfl
@[simp] theorem withMac_power (f : Mac → Mac) (s : State) : (withMac f s).power = s.power := rfl
@[simp] theorem withMac_fe (f : Mac → Mac) (s : State) : (withMac f s).fe = s.fe := rfl
@[simp] theorem withMac_hl (f : Mac → Mac) (s : State) : (withMac f s).hl = s.hl := rfl
@[simp] theorem withMac_coex (f : Mac → Mac) (s : State) : (withMac f s).coex = s.coex := rfl
@[simp] theorem withMac_phy (f : Mac → Mac) (s : State) : (withMac f s).phy = s.phy := rfl
@[simp] theorem withMac_mac (f : Mac → Mac) (s : State) : (withMac f s).mac = f s.mac := rfl
@[simp] theorem withMac_sched (f : Mac → Mac) (s : State) : (withMac f s).sched = s.sched := rfl
@[simp] theorem withMac_bf (f : Mac → Mac) (s : State) : (withMac f s).bf = s.bf := rfl
@[simp] theorem withMac_rope (f : Mac → Mac) (s : State) : (withMac f s).rope = s.rope := rfl
@[simp] theorem withMac_eth (f : Mac → Mac) (s : State) : (withMac f s).eth = s.eth := rfl
@[simp] theorem withMac_harrow (f : Mac → Mac) (s : State) : (withMac f s).harrow = s.harrow := rfl
@[simp] theorem withMac_seed (f : Mac → Mac) (s : State) : (withMac f s).seed = s.seed := rfl
@[simp] theorem withMac_router (f : Mac → Mac) (s : State) : (withMac f s).router = s.router := rfl
@[simp] theorem withMac_sec (f : Mac → Mac) (s : State) : (withMac f s).sec = s.sec := rfl
@[simp] theorem withMac_dram (f : Mac → Mac) (s : State) : (withMac f s).dram = s.dram := rfl
@[simp] theorem withMac_wur (f : Mac → Mac) (s : State) : (withMac f s).wur = s.wur := rfl
@[simp] theorem withMac_rtc (f : Mac → Mac) (s : State) : (withMac f s).rtc = s.rtc := rfl
@[simp] theorem withMac_rel (f : Mac → Mac) (s : State) : (withMac f s).rel = s.rel := rfl
@[simp] theorem withMac_time (f : Mac → Mac) (s : State) : (withMac f s).time = s.time := rfl
@[simp] theorem withMac_bar (f : Mac → Mac) (s : State) : (withMac f s).bar = s.bar := rfl
@[simp] theorem withMac_mpRam (f : Mac → Mac) (s : State) : (withMac f s).mpRam = s.mpRam := rfl

/-! withRm -/

@[simp] theorem withRm_pending (r : Nat) (f : RadioMac → RadioMac) (s : State) : (withRm r f s).pending = s.pending := rfl
@[simp] theorem withRm_now (r : Nat) (f : RadioMac → RadioMac) (s : State) : (withRm r f s).now = s.now := rfl
@[simp] theorem withRm_free (r : Nat) (f : RadioMac → RadioMac) (s : State) : (withRm r f s).free = s.free := rfl
@[simp] theorem withRm_out (r : Nat) (f : RadioMac → RadioMac) (s : State) : (withRm r f s).out = s.out := rfl
@[simp] theorem withRm_glb (r : Nat) (f : RadioMac → RadioMac) (s : State) : (withRm r f s).glb = s.glb := rfl
@[simp] theorem withRm_host (r : Nat) (f : RadioMac → RadioMac) (s : State) : (withRm r f s).host = s.host := rfl
@[simp] theorem withRm_rings (r : Nat) (f : RadioMac → RadioMac) (s : State) : (withRm r f s).rings = s.rings := rfl
@[simp] theorem withRm_life (r : Nat) (f : RadioMac → RadioMac) (s : State) : (withRm r f s).life = s.life := rfl
@[simp] theorem withRm_power (r : Nat) (f : RadioMac → RadioMac) (s : State) : (withRm r f s).power = s.power := rfl
@[simp] theorem withRm_fe (r : Nat) (f : RadioMac → RadioMac) (s : State) : (withRm r f s).fe = s.fe := rfl
@[simp] theorem withRm_hl (r : Nat) (f : RadioMac → RadioMac) (s : State) : (withRm r f s).hl = s.hl := rfl
@[simp] theorem withRm_coex (r : Nat) (f : RadioMac → RadioMac) (s : State) : (withRm r f s).coex = s.coex := rfl
@[simp] theorem withRm_phy (r : Nat) (f : RadioMac → RadioMac) (s : State) : (withRm r f s).phy = s.phy := rfl
@[simp] theorem withRm_sched (r : Nat) (f : RadioMac → RadioMac) (s : State) : (withRm r f s).sched = s.sched := rfl
@[simp] theorem withRm_bf (r : Nat) (f : RadioMac → RadioMac) (s : State) : (withRm r f s).bf = s.bf := rfl
@[simp] theorem withRm_rope (r : Nat) (f : RadioMac → RadioMac) (s : State) : (withRm r f s).rope = s.rope := rfl
@[simp] theorem withRm_eth (r : Nat) (f : RadioMac → RadioMac) (s : State) : (withRm r f s).eth = s.eth := rfl
@[simp] theorem withRm_harrow (r : Nat) (f : RadioMac → RadioMac) (s : State) : (withRm r f s).harrow = s.harrow := rfl
@[simp] theorem withRm_seed (r : Nat) (f : RadioMac → RadioMac) (s : State) : (withRm r f s).seed = s.seed := rfl
@[simp] theorem withRm_router (r : Nat) (f : RadioMac → RadioMac) (s : State) : (withRm r f s).router = s.router := rfl
@[simp] theorem withRm_sec (r : Nat) (f : RadioMac → RadioMac) (s : State) : (withRm r f s).sec = s.sec := rfl
@[simp] theorem withRm_dram (r : Nat) (f : RadioMac → RadioMac) (s : State) : (withRm r f s).dram = s.dram := rfl
@[simp] theorem withRm_wur (r : Nat) (f : RadioMac → RadioMac) (s : State) : (withRm r f s).wur = s.wur := rfl
@[simp] theorem withRm_rtc (r : Nat) (f : RadioMac → RadioMac) (s : State) : (withRm r f s).rtc = s.rtc := rfl
@[simp] theorem withRm_rel (r : Nat) (f : RadioMac → RadioMac) (s : State) : (withRm r f s).rel = s.rel := rfl
@[simp] theorem withRm_time (r : Nat) (f : RadioMac → RadioMac) (s : State) : (withRm r f s).time = s.time := rfl
@[simp] theorem withRm_bar (r : Nat) (f : RadioMac → RadioMac) (s : State) : (withRm r f s).bar = s.bar := rfl
@[simp] theorem withRm_mpRam (r : Nat) (f : RadioMac → RadioMac) (s : State) : (withRm r f s).mpRam = s.mpRam := rfl

/-! withBss -/

@[simp] theorem withBss_pending (b : Nat) (f : Bss → Bss) (s : State) : (withBss b f s).pending = s.pending := rfl
@[simp] theorem withBss_now (b : Nat) (f : Bss → Bss) (s : State) : (withBss b f s).now = s.now := rfl
@[simp] theorem withBss_free (b : Nat) (f : Bss → Bss) (s : State) : (withBss b f s).free = s.free := rfl
@[simp] theorem withBss_out (b : Nat) (f : Bss → Bss) (s : State) : (withBss b f s).out = s.out := rfl
@[simp] theorem withBss_glb (b : Nat) (f : Bss → Bss) (s : State) : (withBss b f s).glb = s.glb := rfl
@[simp] theorem withBss_host (b : Nat) (f : Bss → Bss) (s : State) : (withBss b f s).host = s.host := rfl
@[simp] theorem withBss_rings (b : Nat) (f : Bss → Bss) (s : State) : (withBss b f s).rings = s.rings := rfl
@[simp] theorem withBss_life (b : Nat) (f : Bss → Bss) (s : State) : (withBss b f s).life = s.life := rfl
@[simp] theorem withBss_power (b : Nat) (f : Bss → Bss) (s : State) : (withBss b f s).power = s.power := rfl
@[simp] theorem withBss_fe (b : Nat) (f : Bss → Bss) (s : State) : (withBss b f s).fe = s.fe := rfl
@[simp] theorem withBss_hl (b : Nat) (f : Bss → Bss) (s : State) : (withBss b f s).hl = s.hl := rfl
@[simp] theorem withBss_coex (b : Nat) (f : Bss → Bss) (s : State) : (withBss b f s).coex = s.coex := rfl
@[simp] theorem withBss_phy (b : Nat) (f : Bss → Bss) (s : State) : (withBss b f s).phy = s.phy := rfl
@[simp] theorem withBss_sched (b : Nat) (f : Bss → Bss) (s : State) : (withBss b f s).sched = s.sched := rfl
@[simp] theorem withBss_bf (b : Nat) (f : Bss → Bss) (s : State) : (withBss b f s).bf = s.bf := rfl
@[simp] theorem withBss_rope (b : Nat) (f : Bss → Bss) (s : State) : (withBss b f s).rope = s.rope := rfl
@[simp] theorem withBss_eth (b : Nat) (f : Bss → Bss) (s : State) : (withBss b f s).eth = s.eth := rfl
@[simp] theorem withBss_harrow (b : Nat) (f : Bss → Bss) (s : State) : (withBss b f s).harrow = s.harrow := rfl
@[simp] theorem withBss_seed (b : Nat) (f : Bss → Bss) (s : State) : (withBss b f s).seed = s.seed := rfl
@[simp] theorem withBss_router (b : Nat) (f : Bss → Bss) (s : State) : (withBss b f s).router = s.router := rfl
@[simp] theorem withBss_sec (b : Nat) (f : Bss → Bss) (s : State) : (withBss b f s).sec = s.sec := rfl
@[simp] theorem withBss_dram (b : Nat) (f : Bss → Bss) (s : State) : (withBss b f s).dram = s.dram := rfl
@[simp] theorem withBss_wur (b : Nat) (f : Bss → Bss) (s : State) : (withBss b f s).wur = s.wur := rfl
@[simp] theorem withBss_rtc (b : Nat) (f : Bss → Bss) (s : State) : (withBss b f s).rtc = s.rtc := rfl
@[simp] theorem withBss_rel (b : Nat) (f : Bss → Bss) (s : State) : (withBss b f s).rel = s.rel := rfl
@[simp] theorem withBss_time (b : Nat) (f : Bss → Bss) (s : State) : (withBss b f s).time = s.time := rfl
@[simp] theorem withBss_bar (b : Nat) (f : Bss → Bss) (s : State) : (withBss b f s).bar = s.bar := rfl
@[simp] theorem withBss_mpRam (b : Nat) (f : Bss → Bss) (s : State) : (withBss b f s).mpRam = s.mpRam := rfl

/-! withSta -/

@[simp] theorem withSta_pending (n : Nat) (f : Sta → Sta) (s : State) : (withSta n f s).pending = s.pending := rfl
@[simp] theorem withSta_now (n : Nat) (f : Sta → Sta) (s : State) : (withSta n f s).now = s.now := rfl
@[simp] theorem withSta_free (n : Nat) (f : Sta → Sta) (s : State) : (withSta n f s).free = s.free := rfl
@[simp] theorem withSta_out (n : Nat) (f : Sta → Sta) (s : State) : (withSta n f s).out = s.out := rfl
@[simp] theorem withSta_glb (n : Nat) (f : Sta → Sta) (s : State) : (withSta n f s).glb = s.glb := rfl
@[simp] theorem withSta_host (n : Nat) (f : Sta → Sta) (s : State) : (withSta n f s).host = s.host := rfl
@[simp] theorem withSta_rings (n : Nat) (f : Sta → Sta) (s : State) : (withSta n f s).rings = s.rings := rfl
@[simp] theorem withSta_life (n : Nat) (f : Sta → Sta) (s : State) : (withSta n f s).life = s.life := rfl
@[simp] theorem withSta_power (n : Nat) (f : Sta → Sta) (s : State) : (withSta n f s).power = s.power := rfl
@[simp] theorem withSta_fe (n : Nat) (f : Sta → Sta) (s : State) : (withSta n f s).fe = s.fe := rfl
@[simp] theorem withSta_hl (n : Nat) (f : Sta → Sta) (s : State) : (withSta n f s).hl = s.hl := rfl
@[simp] theorem withSta_coex (n : Nat) (f : Sta → Sta) (s : State) : (withSta n f s).coex = s.coex := rfl
@[simp] theorem withSta_phy (n : Nat) (f : Sta → Sta) (s : State) : (withSta n f s).phy = s.phy := rfl
@[simp] theorem withSta_sched (n : Nat) (f : Sta → Sta) (s : State) : (withSta n f s).sched = s.sched := rfl
@[simp] theorem withSta_bf (n : Nat) (f : Sta → Sta) (s : State) : (withSta n f s).bf = s.bf := rfl
@[simp] theorem withSta_rope (n : Nat) (f : Sta → Sta) (s : State) : (withSta n f s).rope = s.rope := rfl
@[simp] theorem withSta_eth (n : Nat) (f : Sta → Sta) (s : State) : (withSta n f s).eth = s.eth := rfl
@[simp] theorem withSta_harrow (n : Nat) (f : Sta → Sta) (s : State) : (withSta n f s).harrow = s.harrow := rfl
@[simp] theorem withSta_seed (n : Nat) (f : Sta → Sta) (s : State) : (withSta n f s).seed = s.seed := rfl
@[simp] theorem withSta_router (n : Nat) (f : Sta → Sta) (s : State) : (withSta n f s).router = s.router := rfl
@[simp] theorem withSta_sec (n : Nat) (f : Sta → Sta) (s : State) : (withSta n f s).sec = s.sec := rfl
@[simp] theorem withSta_dram (n : Nat) (f : Sta → Sta) (s : State) : (withSta n f s).dram = s.dram := rfl
@[simp] theorem withSta_wur (n : Nat) (f : Sta → Sta) (s : State) : (withSta n f s).wur = s.wur := rfl
@[simp] theorem withSta_rtc (n : Nat) (f : Sta → Sta) (s : State) : (withSta n f s).rtc = s.rtc := rfl
@[simp] theorem withSta_rel (n : Nat) (f : Sta → Sta) (s : State) : (withSta n f s).rel = s.rel := rfl
@[simp] theorem withSta_time (n : Nat) (f : Sta → Sta) (s : State) : (withSta n f s).time = s.time := rfl
@[simp] theorem withSta_bar (n : Nat) (f : Sta → Sta) (s : State) : (withSta n f s).bar = s.bar := rfl
@[simp] theorem withSta_mpRam (n : Nat) (f : Sta → Sta) (s : State) : (withSta n f s).mpRam = s.mpRam := rfl

/-! withSched -/

@[simp] theorem withSched_pending (f : Sched → Sched) (s : State) : (withSched f s).pending = s.pending := rfl
@[simp] theorem withSched_now (f : Sched → Sched) (s : State) : (withSched f s).now = s.now := rfl
@[simp] theorem withSched_free (f : Sched → Sched) (s : State) : (withSched f s).free = s.free := rfl
@[simp] theorem withSched_out (f : Sched → Sched) (s : State) : (withSched f s).out = s.out := rfl
@[simp] theorem withSched_glb (f : Sched → Sched) (s : State) : (withSched f s).glb = s.glb := rfl
@[simp] theorem withSched_host (f : Sched → Sched) (s : State) : (withSched f s).host = s.host := rfl
@[simp] theorem withSched_rings (f : Sched → Sched) (s : State) : (withSched f s).rings = s.rings := rfl
@[simp] theorem withSched_life (f : Sched → Sched) (s : State) : (withSched f s).life = s.life := rfl
@[simp] theorem withSched_power (f : Sched → Sched) (s : State) : (withSched f s).power = s.power := rfl
@[simp] theorem withSched_fe (f : Sched → Sched) (s : State) : (withSched f s).fe = s.fe := rfl
@[simp] theorem withSched_hl (f : Sched → Sched) (s : State) : (withSched f s).hl = s.hl := rfl
@[simp] theorem withSched_coex (f : Sched → Sched) (s : State) : (withSched f s).coex = s.coex := rfl
@[simp] theorem withSched_phy (f : Sched → Sched) (s : State) : (withSched f s).phy = s.phy := rfl
@[simp] theorem withSched_mac (f : Sched → Sched) (s : State) : (withSched f s).mac = s.mac := rfl
@[simp] theorem withSched_sched (f : Sched → Sched) (s : State) : (withSched f s).sched = f s.sched := rfl
@[simp] theorem withSched_bf (f : Sched → Sched) (s : State) : (withSched f s).bf = s.bf := rfl
@[simp] theorem withSched_rope (f : Sched → Sched) (s : State) : (withSched f s).rope = s.rope := rfl
@[simp] theorem withSched_eth (f : Sched → Sched) (s : State) : (withSched f s).eth = s.eth := rfl
@[simp] theorem withSched_harrow (f : Sched → Sched) (s : State) : (withSched f s).harrow = s.harrow := rfl
@[simp] theorem withSched_seed (f : Sched → Sched) (s : State) : (withSched f s).seed = s.seed := rfl
@[simp] theorem withSched_router (f : Sched → Sched) (s : State) : (withSched f s).router = s.router := rfl
@[simp] theorem withSched_sec (f : Sched → Sched) (s : State) : (withSched f s).sec = s.sec := rfl
@[simp] theorem withSched_dram (f : Sched → Sched) (s : State) : (withSched f s).dram = s.dram := rfl
@[simp] theorem withSched_wur (f : Sched → Sched) (s : State) : (withSched f s).wur = s.wur := rfl
@[simp] theorem withSched_rtc (f : Sched → Sched) (s : State) : (withSched f s).rtc = s.rtc := rfl
@[simp] theorem withSched_rel (f : Sched → Sched) (s : State) : (withSched f s).rel = s.rel := rfl
@[simp] theorem withSched_time (f : Sched → Sched) (s : State) : (withSched f s).time = s.time := rfl
@[simp] theorem withSched_bar (f : Sched → Sched) (s : State) : (withSched f s).bar = s.bar := rfl
@[simp] theorem withSched_mpRam (f : Sched → Sched) (s : State) : (withSched f s).mpRam = s.mpRam := rfl

/-! withRs -/

@[simp] theorem withRs_pending (r : Nat) (f : RadioSched → RadioSched) (s : State) : (withRs r f s).pending = s.pending := rfl
@[simp] theorem withRs_now (r : Nat) (f : RadioSched → RadioSched) (s : State) : (withRs r f s).now = s.now := rfl
@[simp] theorem withRs_free (r : Nat) (f : RadioSched → RadioSched) (s : State) : (withRs r f s).free = s.free := rfl
@[simp] theorem withRs_out (r : Nat) (f : RadioSched → RadioSched) (s : State) : (withRs r f s).out = s.out := rfl
@[simp] theorem withRs_glb (r : Nat) (f : RadioSched → RadioSched) (s : State) : (withRs r f s).glb = s.glb := rfl
@[simp] theorem withRs_host (r : Nat) (f : RadioSched → RadioSched) (s : State) : (withRs r f s).host = s.host := rfl
@[simp] theorem withRs_rings (r : Nat) (f : RadioSched → RadioSched) (s : State) : (withRs r f s).rings = s.rings := rfl
@[simp] theorem withRs_life (r : Nat) (f : RadioSched → RadioSched) (s : State) : (withRs r f s).life = s.life := rfl
@[simp] theorem withRs_power (r : Nat) (f : RadioSched → RadioSched) (s : State) : (withRs r f s).power = s.power := rfl
@[simp] theorem withRs_fe (r : Nat) (f : RadioSched → RadioSched) (s : State) : (withRs r f s).fe = s.fe := rfl
@[simp] theorem withRs_hl (r : Nat) (f : RadioSched → RadioSched) (s : State) : (withRs r f s).hl = s.hl := rfl
@[simp] theorem withRs_coex (r : Nat) (f : RadioSched → RadioSched) (s : State) : (withRs r f s).coex = s.coex := rfl
@[simp] theorem withRs_phy (r : Nat) (f : RadioSched → RadioSched) (s : State) : (withRs r f s).phy = s.phy := rfl
@[simp] theorem withRs_mac (r : Nat) (f : RadioSched → RadioSched) (s : State) : (withRs r f s).mac = s.mac := rfl
@[simp] theorem withRs_bf (r : Nat) (f : RadioSched → RadioSched) (s : State) : (withRs r f s).bf = s.bf := rfl
@[simp] theorem withRs_rope (r : Nat) (f : RadioSched → RadioSched) (s : State) : (withRs r f s).rope = s.rope := rfl
@[simp] theorem withRs_eth (r : Nat) (f : RadioSched → RadioSched) (s : State) : (withRs r f s).eth = s.eth := rfl
@[simp] theorem withRs_harrow (r : Nat) (f : RadioSched → RadioSched) (s : State) : (withRs r f s).harrow = s.harrow := rfl
@[simp] theorem withRs_seed (r : Nat) (f : RadioSched → RadioSched) (s : State) : (withRs r f s).seed = s.seed := rfl
@[simp] theorem withRs_router (r : Nat) (f : RadioSched → RadioSched) (s : State) : (withRs r f s).router = s.router := rfl
@[simp] theorem withRs_sec (r : Nat) (f : RadioSched → RadioSched) (s : State) : (withRs r f s).sec = s.sec := rfl
@[simp] theorem withRs_dram (r : Nat) (f : RadioSched → RadioSched) (s : State) : (withRs r f s).dram = s.dram := rfl
@[simp] theorem withRs_wur (r : Nat) (f : RadioSched → RadioSched) (s : State) : (withRs r f s).wur = s.wur := rfl
@[simp] theorem withRs_rtc (r : Nat) (f : RadioSched → RadioSched) (s : State) : (withRs r f s).rtc = s.rtc := rfl
@[simp] theorem withRs_rel (r : Nat) (f : RadioSched → RadioSched) (s : State) : (withRs r f s).rel = s.rel := rfl
@[simp] theorem withRs_time (r : Nat) (f : RadioSched → RadioSched) (s : State) : (withRs r f s).time = s.time := rfl
@[simp] theorem withRs_bar (r : Nat) (f : RadioSched → RadioSched) (s : State) : (withRs r f s).bar = s.bar := rfl
@[simp] theorem withRs_mpRam (r : Nat) (f : RadioSched → RadioSched) (s : State) : (withRs r f s).mpRam = s.mpRam := rfl

/-! withBf -/

@[simp] theorem withBf_pending (f : Bf → Bf) (s : State) : (withBf f s).pending = s.pending := rfl
@[simp] theorem withBf_now (f : Bf → Bf) (s : State) : (withBf f s).now = s.now := rfl
@[simp] theorem withBf_free (f : Bf → Bf) (s : State) : (withBf f s).free = s.free := rfl
@[simp] theorem withBf_out (f : Bf → Bf) (s : State) : (withBf f s).out = s.out := rfl
@[simp] theorem withBf_glb (f : Bf → Bf) (s : State) : (withBf f s).glb = s.glb := rfl
@[simp] theorem withBf_host (f : Bf → Bf) (s : State) : (withBf f s).host = s.host := rfl
@[simp] theorem withBf_rings (f : Bf → Bf) (s : State) : (withBf f s).rings = s.rings := rfl
@[simp] theorem withBf_life (f : Bf → Bf) (s : State) : (withBf f s).life = s.life := rfl
@[simp] theorem withBf_power (f : Bf → Bf) (s : State) : (withBf f s).power = s.power := rfl
@[simp] theorem withBf_fe (f : Bf → Bf) (s : State) : (withBf f s).fe = s.fe := rfl
@[simp] theorem withBf_hl (f : Bf → Bf) (s : State) : (withBf f s).hl = s.hl := rfl
@[simp] theorem withBf_coex (f : Bf → Bf) (s : State) : (withBf f s).coex = s.coex := rfl
@[simp] theorem withBf_phy (f : Bf → Bf) (s : State) : (withBf f s).phy = s.phy := rfl
@[simp] theorem withBf_mac (f : Bf → Bf) (s : State) : (withBf f s).mac = s.mac := rfl
@[simp] theorem withBf_sched (f : Bf → Bf) (s : State) : (withBf f s).sched = s.sched := rfl
@[simp] theorem withBf_bf (f : Bf → Bf) (s : State) : (withBf f s).bf = f s.bf := rfl
@[simp] theorem withBf_rope (f : Bf → Bf) (s : State) : (withBf f s).rope = s.rope := rfl
@[simp] theorem withBf_eth (f : Bf → Bf) (s : State) : (withBf f s).eth = s.eth := rfl
@[simp] theorem withBf_harrow (f : Bf → Bf) (s : State) : (withBf f s).harrow = s.harrow := rfl
@[simp] theorem withBf_seed (f : Bf → Bf) (s : State) : (withBf f s).seed = s.seed := rfl
@[simp] theorem withBf_router (f : Bf → Bf) (s : State) : (withBf f s).router = s.router := rfl
@[simp] theorem withBf_sec (f : Bf → Bf) (s : State) : (withBf f s).sec = s.sec := rfl
@[simp] theorem withBf_dram (f : Bf → Bf) (s : State) : (withBf f s).dram = s.dram := rfl
@[simp] theorem withBf_wur (f : Bf → Bf) (s : State) : (withBf f s).wur = s.wur := rfl
@[simp] theorem withBf_rtc (f : Bf → Bf) (s : State) : (withBf f s).rtc = s.rtc := rfl
@[simp] theorem withBf_rel (f : Bf → Bf) (s : State) : (withBf f s).rel = s.rel := rfl
@[simp] theorem withBf_time (f : Bf → Bf) (s : State) : (withBf f s).time = s.time := rfl
@[simp] theorem withBf_bar (f : Bf → Bf) (s : State) : (withBf f s).bar = s.bar := rfl
@[simp] theorem withBf_mpRam (f : Bf → Bf) (s : State) : (withBf f s).mpRam = s.mpRam := rfl

/-! withRb -/

@[simp] theorem withRb_pending (r : Nat) (f : RadioBf → RadioBf) (s : State) : (withRb r f s).pending = s.pending := rfl
@[simp] theorem withRb_now (r : Nat) (f : RadioBf → RadioBf) (s : State) : (withRb r f s).now = s.now := rfl
@[simp] theorem withRb_free (r : Nat) (f : RadioBf → RadioBf) (s : State) : (withRb r f s).free = s.free := rfl
@[simp] theorem withRb_out (r : Nat) (f : RadioBf → RadioBf) (s : State) : (withRb r f s).out = s.out := rfl
@[simp] theorem withRb_glb (r : Nat) (f : RadioBf → RadioBf) (s : State) : (withRb r f s).glb = s.glb := rfl
@[simp] theorem withRb_host (r : Nat) (f : RadioBf → RadioBf) (s : State) : (withRb r f s).host = s.host := rfl
@[simp] theorem withRb_rings (r : Nat) (f : RadioBf → RadioBf) (s : State) : (withRb r f s).rings = s.rings := rfl
@[simp] theorem withRb_life (r : Nat) (f : RadioBf → RadioBf) (s : State) : (withRb r f s).life = s.life := rfl
@[simp] theorem withRb_power (r : Nat) (f : RadioBf → RadioBf) (s : State) : (withRb r f s).power = s.power := rfl
@[simp] theorem withRb_fe (r : Nat) (f : RadioBf → RadioBf) (s : State) : (withRb r f s).fe = s.fe := rfl
@[simp] theorem withRb_hl (r : Nat) (f : RadioBf → RadioBf) (s : State) : (withRb r f s).hl = s.hl := rfl
@[simp] theorem withRb_coex (r : Nat) (f : RadioBf → RadioBf) (s : State) : (withRb r f s).coex = s.coex := rfl
@[simp] theorem withRb_phy (r : Nat) (f : RadioBf → RadioBf) (s : State) : (withRb r f s).phy = s.phy := rfl
@[simp] theorem withRb_mac (r : Nat) (f : RadioBf → RadioBf) (s : State) : (withRb r f s).mac = s.mac := rfl
@[simp] theorem withRb_sched (r : Nat) (f : RadioBf → RadioBf) (s : State) : (withRb r f s).sched = s.sched := rfl
@[simp] theorem withRb_rope (r : Nat) (f : RadioBf → RadioBf) (s : State) : (withRb r f s).rope = s.rope := rfl
@[simp] theorem withRb_eth (r : Nat) (f : RadioBf → RadioBf) (s : State) : (withRb r f s).eth = s.eth := rfl
@[simp] theorem withRb_harrow (r : Nat) (f : RadioBf → RadioBf) (s : State) : (withRb r f s).harrow = s.harrow := rfl
@[simp] theorem withRb_seed (r : Nat) (f : RadioBf → RadioBf) (s : State) : (withRb r f s).seed = s.seed := rfl
@[simp] theorem withRb_router (r : Nat) (f : RadioBf → RadioBf) (s : State) : (withRb r f s).router = s.router := rfl
@[simp] theorem withRb_sec (r : Nat) (f : RadioBf → RadioBf) (s : State) : (withRb r f s).sec = s.sec := rfl
@[simp] theorem withRb_dram (r : Nat) (f : RadioBf → RadioBf) (s : State) : (withRb r f s).dram = s.dram := rfl
@[simp] theorem withRb_wur (r : Nat) (f : RadioBf → RadioBf) (s : State) : (withRb r f s).wur = s.wur := rfl
@[simp] theorem withRb_rtc (r : Nat) (f : RadioBf → RadioBf) (s : State) : (withRb r f s).rtc = s.rtc := rfl
@[simp] theorem withRb_rel (r : Nat) (f : RadioBf → RadioBf) (s : State) : (withRb r f s).rel = s.rel := rfl
@[simp] theorem withRb_time (r : Nat) (f : RadioBf → RadioBf) (s : State) : (withRb r f s).time = s.time := rfl
@[simp] theorem withRb_bar (r : Nat) (f : RadioBf → RadioBf) (s : State) : (withRb r f s).bar = s.bar := rfl
@[simp] theorem withRb_mpRam (r : Nat) (f : RadioBf → RadioBf) (s : State) : (withRb r f s).mpRam = s.mpRam := rfl

/-! withRope -/

@[simp] theorem withRope_pending (f : Rope → Rope) (s : State) : (withRope f s).pending = s.pending := rfl
@[simp] theorem withRope_now (f : Rope → Rope) (s : State) : (withRope f s).now = s.now := rfl
@[simp] theorem withRope_free (f : Rope → Rope) (s : State) : (withRope f s).free = s.free := rfl
@[simp] theorem withRope_out (f : Rope → Rope) (s : State) : (withRope f s).out = s.out := rfl
@[simp] theorem withRope_glb (f : Rope → Rope) (s : State) : (withRope f s).glb = s.glb := rfl
@[simp] theorem withRope_host (f : Rope → Rope) (s : State) : (withRope f s).host = s.host := rfl
@[simp] theorem withRope_rings (f : Rope → Rope) (s : State) : (withRope f s).rings = s.rings := rfl
@[simp] theorem withRope_life (f : Rope → Rope) (s : State) : (withRope f s).life = s.life := rfl
@[simp] theorem withRope_power (f : Rope → Rope) (s : State) : (withRope f s).power = s.power := rfl
@[simp] theorem withRope_fe (f : Rope → Rope) (s : State) : (withRope f s).fe = s.fe := rfl
@[simp] theorem withRope_hl (f : Rope → Rope) (s : State) : (withRope f s).hl = s.hl := rfl
@[simp] theorem withRope_coex (f : Rope → Rope) (s : State) : (withRope f s).coex = s.coex := rfl
@[simp] theorem withRope_phy (f : Rope → Rope) (s : State) : (withRope f s).phy = s.phy := rfl
@[simp] theorem withRope_mac (f : Rope → Rope) (s : State) : (withRope f s).mac = s.mac := rfl
@[simp] theorem withRope_sched (f : Rope → Rope) (s : State) : (withRope f s).sched = s.sched := rfl
@[simp] theorem withRope_bf (f : Rope → Rope) (s : State) : (withRope f s).bf = s.bf := rfl
@[simp] theorem withRope_rope (f : Rope → Rope) (s : State) : (withRope f s).rope = f s.rope := rfl
@[simp] theorem withRope_eth (f : Rope → Rope) (s : State) : (withRope f s).eth = s.eth := rfl
@[simp] theorem withRope_harrow (f : Rope → Rope) (s : State) : (withRope f s).harrow = s.harrow := rfl
@[simp] theorem withRope_seed (f : Rope → Rope) (s : State) : (withRope f s).seed = s.seed := rfl
@[simp] theorem withRope_router (f : Rope → Rope) (s : State) : (withRope f s).router = s.router := rfl
@[simp] theorem withRope_sec (f : Rope → Rope) (s : State) : (withRope f s).sec = s.sec := rfl
@[simp] theorem withRope_dram (f : Rope → Rope) (s : State) : (withRope f s).dram = s.dram := rfl
@[simp] theorem withRope_wur (f : Rope → Rope) (s : State) : (withRope f s).wur = s.wur := rfl
@[simp] theorem withRope_rtc (f : Rope → Rope) (s : State) : (withRope f s).rtc = s.rtc := rfl
@[simp] theorem withRope_rel (f : Rope → Rope) (s : State) : (withRope f s).rel = s.rel := rfl
@[simp] theorem withRope_time (f : Rope → Rope) (s : State) : (withRope f s).time = s.time := rfl
@[simp] theorem withRope_bar (f : Rope → Rope) (s : State) : (withRope f s).bar = s.bar := rfl
@[simp] theorem withRope_mpRam (f : Rope → Rope) (s : State) : (withRope f s).mpRam = s.mpRam := rfl

/-! withPort -/

@[simp] theorem withPort_pending (p : Nat) (f : Port → Port) (s : State) : (withPort p f s).pending = s.pending := rfl
@[simp] theorem withPort_now (p : Nat) (f : Port → Port) (s : State) : (withPort p f s).now = s.now := rfl
@[simp] theorem withPort_free (p : Nat) (f : Port → Port) (s : State) : (withPort p f s).free = s.free := rfl
@[simp] theorem withPort_out (p : Nat) (f : Port → Port) (s : State) : (withPort p f s).out = s.out := rfl
@[simp] theorem withPort_glb (p : Nat) (f : Port → Port) (s : State) : (withPort p f s).glb = s.glb := rfl
@[simp] theorem withPort_host (p : Nat) (f : Port → Port) (s : State) : (withPort p f s).host = s.host := rfl
@[simp] theorem withPort_rings (p : Nat) (f : Port → Port) (s : State) : (withPort p f s).rings = s.rings := rfl
@[simp] theorem withPort_life (p : Nat) (f : Port → Port) (s : State) : (withPort p f s).life = s.life := rfl
@[simp] theorem withPort_power (p : Nat) (f : Port → Port) (s : State) : (withPort p f s).power = s.power := rfl
@[simp] theorem withPort_fe (p : Nat) (f : Port → Port) (s : State) : (withPort p f s).fe = s.fe := rfl
@[simp] theorem withPort_hl (p : Nat) (f : Port → Port) (s : State) : (withPort p f s).hl = s.hl := rfl
@[simp] theorem withPort_coex (p : Nat) (f : Port → Port) (s : State) : (withPort p f s).coex = s.coex := rfl
@[simp] theorem withPort_phy (p : Nat) (f : Port → Port) (s : State) : (withPort p f s).phy = s.phy := rfl
@[simp] theorem withPort_mac (p : Nat) (f : Port → Port) (s : State) : (withPort p f s).mac = s.mac := rfl
@[simp] theorem withPort_sched (p : Nat) (f : Port → Port) (s : State) : (withPort p f s).sched = s.sched := rfl
@[simp] theorem withPort_bf (p : Nat) (f : Port → Port) (s : State) : (withPort p f s).bf = s.bf := rfl
@[simp] theorem withPort_rope (p : Nat) (f : Port → Port) (s : State) : (withPort p f s).rope = s.rope := rfl
@[simp] theorem withPort_eth (p : Nat) (f : Port → Port) (s : State) : (withPort p f s).eth = vmod s.eth p f := rfl
@[simp] theorem withPort_harrow (p : Nat) (f : Port → Port) (s : State) : (withPort p f s).harrow = s.harrow := rfl
@[simp] theorem withPort_seed (p : Nat) (f : Port → Port) (s : State) : (withPort p f s).seed = s.seed := rfl
@[simp] theorem withPort_router (p : Nat) (f : Port → Port) (s : State) : (withPort p f s).router = s.router := rfl
@[simp] theorem withPort_sec (p : Nat) (f : Port → Port) (s : State) : (withPort p f s).sec = s.sec := rfl
@[simp] theorem withPort_dram (p : Nat) (f : Port → Port) (s : State) : (withPort p f s).dram = s.dram := rfl
@[simp] theorem withPort_wur (p : Nat) (f : Port → Port) (s : State) : (withPort p f s).wur = s.wur := rfl
@[simp] theorem withPort_rtc (p : Nat) (f : Port → Port) (s : State) : (withPort p f s).rtc = s.rtc := rfl
@[simp] theorem withPort_rel (p : Nat) (f : Port → Port) (s : State) : (withPort p f s).rel = s.rel := rfl
@[simp] theorem withPort_time (p : Nat) (f : Port → Port) (s : State) : (withPort p f s).time = s.time := rfl
@[simp] theorem withPort_bar (p : Nat) (f : Port → Port) (s : State) : (withPort p f s).bar = s.bar := rfl
@[simp] theorem withPort_mpRam (p : Nat) (f : Port → Port) (s : State) : (withPort p f s).mpRam = s.mpRam := rfl

/-! withHarrow -/

@[simp] theorem withHarrow_pending (f : Harrow → Harrow) (s : State) : (withHarrow f s).pending = s.pending := rfl
@[simp] theorem withHarrow_now (f : Harrow → Harrow) (s : State) : (withHarrow f s).now = s.now := rfl
@[simp] theorem withHarrow_free (f : Harrow → Harrow) (s : State) : (withHarrow f s).free = s.free := rfl
@[simp] theorem withHarrow_out (f : Harrow → Harrow) (s : State) : (withHarrow f s).out = s.out := rfl
@[simp] theorem withHarrow_glb (f : Harrow → Harrow) (s : State) : (withHarrow f s).glb = s.glb := rfl
@[simp] theorem withHarrow_host (f : Harrow → Harrow) (s : State) : (withHarrow f s).host = s.host := rfl
@[simp] theorem withHarrow_rings (f : Harrow → Harrow) (s : State) : (withHarrow f s).rings = s.rings := rfl
@[simp] theorem withHarrow_life (f : Harrow → Harrow) (s : State) : (withHarrow f s).life = s.life := rfl
@[simp] theorem withHarrow_power (f : Harrow → Harrow) (s : State) : (withHarrow f s).power = s.power := rfl
@[simp] theorem withHarrow_fe (f : Harrow → Harrow) (s : State) : (withHarrow f s).fe = s.fe := rfl
@[simp] theorem withHarrow_hl (f : Harrow → Harrow) (s : State) : (withHarrow f s).hl = s.hl := rfl
@[simp] theorem withHarrow_coex (f : Harrow → Harrow) (s : State) : (withHarrow f s).coex = s.coex := rfl
@[simp] theorem withHarrow_phy (f : Harrow → Harrow) (s : State) : (withHarrow f s).phy = s.phy := rfl
@[simp] theorem withHarrow_mac (f : Harrow → Harrow) (s : State) : (withHarrow f s).mac = s.mac := rfl
@[simp] theorem withHarrow_sched (f : Harrow → Harrow) (s : State) : (withHarrow f s).sched = s.sched := rfl
@[simp] theorem withHarrow_bf (f : Harrow → Harrow) (s : State) : (withHarrow f s).bf = s.bf := rfl
@[simp] theorem withHarrow_rope (f : Harrow → Harrow) (s : State) : (withHarrow f s).rope = s.rope := rfl
@[simp] theorem withHarrow_eth (f : Harrow → Harrow) (s : State) : (withHarrow f s).eth = s.eth := rfl
@[simp] theorem withHarrow_harrow (f : Harrow → Harrow) (s : State) : (withHarrow f s).harrow = f s.harrow := rfl
@[simp] theorem withHarrow_seed (f : Harrow → Harrow) (s : State) : (withHarrow f s).seed = s.seed := rfl
@[simp] theorem withHarrow_router (f : Harrow → Harrow) (s : State) : (withHarrow f s).router = s.router := rfl
@[simp] theorem withHarrow_sec (f : Harrow → Harrow) (s : State) : (withHarrow f s).sec = s.sec := rfl
@[simp] theorem withHarrow_dram (f : Harrow → Harrow) (s : State) : (withHarrow f s).dram = s.dram := rfl
@[simp] theorem withHarrow_wur (f : Harrow → Harrow) (s : State) : (withHarrow f s).wur = s.wur := rfl
@[simp] theorem withHarrow_rtc (f : Harrow → Harrow) (s : State) : (withHarrow f s).rtc = s.rtc := rfl
@[simp] theorem withHarrow_rel (f : Harrow → Harrow) (s : State) : (withHarrow f s).rel = s.rel := rfl
@[simp] theorem withHarrow_time (f : Harrow → Harrow) (s : State) : (withHarrow f s).time = s.time := rfl
@[simp] theorem withHarrow_bar (f : Harrow → Harrow) (s : State) : (withHarrow f s).bar = s.bar := rfl
@[simp] theorem withHarrow_mpRam (f : Harrow → Harrow) (s : State) : (withHarrow f s).mpRam = s.mpRam := rfl

/-! withLane -/

@[simp] theorem withLane_pending (l : Nat) (f : Lane → Lane) (s : State) : (withLane l f s).pending = s.pending := rfl
@[simp] theorem withLane_now (l : Nat) (f : Lane → Lane) (s : State) : (withLane l f s).now = s.now := rfl
@[simp] theorem withLane_free (l : Nat) (f : Lane → Lane) (s : State) : (withLane l f s).free = s.free := rfl
@[simp] theorem withLane_out (l : Nat) (f : Lane → Lane) (s : State) : (withLane l f s).out = s.out := rfl
@[simp] theorem withLane_glb (l : Nat) (f : Lane → Lane) (s : State) : (withLane l f s).glb = s.glb := rfl
@[simp] theorem withLane_host (l : Nat) (f : Lane → Lane) (s : State) : (withLane l f s).host = s.host := rfl
@[simp] theorem withLane_rings (l : Nat) (f : Lane → Lane) (s : State) : (withLane l f s).rings = s.rings := rfl
@[simp] theorem withLane_life (l : Nat) (f : Lane → Lane) (s : State) : (withLane l f s).life = s.life := rfl
@[simp] theorem withLane_power (l : Nat) (f : Lane → Lane) (s : State) : (withLane l f s).power = s.power := rfl
@[simp] theorem withLane_fe (l : Nat) (f : Lane → Lane) (s : State) : (withLane l f s).fe = s.fe := rfl
@[simp] theorem withLane_hl (l : Nat) (f : Lane → Lane) (s : State) : (withLane l f s).hl = s.hl := rfl
@[simp] theorem withLane_coex (l : Nat) (f : Lane → Lane) (s : State) : (withLane l f s).coex = s.coex := rfl
@[simp] theorem withLane_phy (l : Nat) (f : Lane → Lane) (s : State) : (withLane l f s).phy = s.phy := rfl
@[simp] theorem withLane_mac (l : Nat) (f : Lane → Lane) (s : State) : (withLane l f s).mac = s.mac := rfl
@[simp] theorem withLane_sched (l : Nat) (f : Lane → Lane) (s : State) : (withLane l f s).sched = s.sched := rfl
@[simp] theorem withLane_bf (l : Nat) (f : Lane → Lane) (s : State) : (withLane l f s).bf = s.bf := rfl
@[simp] theorem withLane_rope (l : Nat) (f : Lane → Lane) (s : State) : (withLane l f s).rope = s.rope := rfl
@[simp] theorem withLane_eth (l : Nat) (f : Lane → Lane) (s : State) : (withLane l f s).eth = s.eth := rfl
@[simp] theorem withLane_seed (l : Nat) (f : Lane → Lane) (s : State) : (withLane l f s).seed = s.seed := rfl
@[simp] theorem withLane_router (l : Nat) (f : Lane → Lane) (s : State) : (withLane l f s).router = s.router := rfl
@[simp] theorem withLane_sec (l : Nat) (f : Lane → Lane) (s : State) : (withLane l f s).sec = s.sec := rfl
@[simp] theorem withLane_dram (l : Nat) (f : Lane → Lane) (s : State) : (withLane l f s).dram = s.dram := rfl
@[simp] theorem withLane_wur (l : Nat) (f : Lane → Lane) (s : State) : (withLane l f s).wur = s.wur := rfl
@[simp] theorem withLane_rtc (l : Nat) (f : Lane → Lane) (s : State) : (withLane l f s).rtc = s.rtc := rfl
@[simp] theorem withLane_rel (l : Nat) (f : Lane → Lane) (s : State) : (withLane l f s).rel = s.rel := rfl
@[simp] theorem withLane_time (l : Nat) (f : Lane → Lane) (s : State) : (withLane l f s).time = s.time := rfl
@[simp] theorem withLane_bar (l : Nat) (f : Lane → Lane) (s : State) : (withLane l f s).bar = s.bar := rfl
@[simp] theorem withLane_mpRam (l : Nat) (f : Lane → Lane) (s : State) : (withLane l f s).mpRam = s.mpRam := rfl

/-! withLease -/

@[simp] theorem withLease_pending (k : Nat) (f : Lease → Lease) (s : State) : (withLease k f s).pending = s.pending := rfl
@[simp] theorem withLease_now (k : Nat) (f : Lease → Lease) (s : State) : (withLease k f s).now = s.now := rfl
@[simp] theorem withLease_free (k : Nat) (f : Lease → Lease) (s : State) : (withLease k f s).free = s.free := rfl
@[simp] theorem withLease_out (k : Nat) (f : Lease → Lease) (s : State) : (withLease k f s).out = s.out := rfl
@[simp] theorem withLease_glb (k : Nat) (f : Lease → Lease) (s : State) : (withLease k f s).glb = s.glb := rfl
@[simp] theorem withLease_host (k : Nat) (f : Lease → Lease) (s : State) : (withLease k f s).host = s.host := rfl
@[simp] theorem withLease_rings (k : Nat) (f : Lease → Lease) (s : State) : (withLease k f s).rings = s.rings := rfl
@[simp] theorem withLease_life (k : Nat) (f : Lease → Lease) (s : State) : (withLease k f s).life = s.life := rfl
@[simp] theorem withLease_power (k : Nat) (f : Lease → Lease) (s : State) : (withLease k f s).power = s.power := rfl
@[simp] theorem withLease_fe (k : Nat) (f : Lease → Lease) (s : State) : (withLease k f s).fe = s.fe := rfl
@[simp] theorem withLease_hl (k : Nat) (f : Lease → Lease) (s : State) : (withLease k f s).hl = s.hl := rfl
@[simp] theorem withLease_coex (k : Nat) (f : Lease → Lease) (s : State) : (withLease k f s).coex = s.coex := rfl
@[simp] theorem withLease_phy (k : Nat) (f : Lease → Lease) (s : State) : (withLease k f s).phy = s.phy := rfl
@[simp] theorem withLease_mac (k : Nat) (f : Lease → Lease) (s : State) : (withLease k f s).mac = s.mac := rfl
@[simp] theorem withLease_sched (k : Nat) (f : Lease → Lease) (s : State) : (withLease k f s).sched = s.sched := rfl
@[simp] theorem withLease_bf (k : Nat) (f : Lease → Lease) (s : State) : (withLease k f s).bf = s.bf := rfl
@[simp] theorem withLease_rope (k : Nat) (f : Lease → Lease) (s : State) : (withLease k f s).rope = s.rope := rfl
@[simp] theorem withLease_eth (k : Nat) (f : Lease → Lease) (s : State) : (withLease k f s).eth = s.eth := rfl
@[simp] theorem withLease_seed (k : Nat) (f : Lease → Lease) (s : State) : (withLease k f s).seed = s.seed := rfl
@[simp] theorem withLease_router (k : Nat) (f : Lease → Lease) (s : State) : (withLease k f s).router = s.router := rfl
@[simp] theorem withLease_sec (k : Nat) (f : Lease → Lease) (s : State) : (withLease k f s).sec = s.sec := rfl
@[simp] theorem withLease_dram (k : Nat) (f : Lease → Lease) (s : State) : (withLease k f s).dram = s.dram := rfl
@[simp] theorem withLease_wur (k : Nat) (f : Lease → Lease) (s : State) : (withLease k f s).wur = s.wur := rfl
@[simp] theorem withLease_rtc (k : Nat) (f : Lease → Lease) (s : State) : (withLease k f s).rtc = s.rtc := rfl
@[simp] theorem withLease_rel (k : Nat) (f : Lease → Lease) (s : State) : (withLease k f s).rel = s.rel := rfl
@[simp] theorem withLease_time (k : Nat) (f : Lease → Lease) (s : State) : (withLease k f s).time = s.time := rfl
@[simp] theorem withLease_bar (k : Nat) (f : Lease → Lease) (s : State) : (withLease k f s).bar = s.bar := rfl
@[simp] theorem withLease_mpRam (k : Nat) (f : Lease → Lease) (s : State) : (withLease k f s).mpRam = s.mpRam := rfl

/-! withSeed -/

@[simp] theorem withSeed_pending (f : Seed → Seed) (s : State) : (withSeed f s).pending = s.pending := rfl
@[simp] theorem withSeed_now (f : Seed → Seed) (s : State) : (withSeed f s).now = s.now := rfl
@[simp] theorem withSeed_free (f : Seed → Seed) (s : State) : (withSeed f s).free = s.free := rfl
@[simp] theorem withSeed_out (f : Seed → Seed) (s : State) : (withSeed f s).out = s.out := rfl
@[simp] theorem withSeed_glb (f : Seed → Seed) (s : State) : (withSeed f s).glb = s.glb := rfl
@[simp] theorem withSeed_host (f : Seed → Seed) (s : State) : (withSeed f s).host = s.host := rfl
@[simp] theorem withSeed_rings (f : Seed → Seed) (s : State) : (withSeed f s).rings = s.rings := rfl
@[simp] theorem withSeed_life (f : Seed → Seed) (s : State) : (withSeed f s).life = s.life := rfl
@[simp] theorem withSeed_power (f : Seed → Seed) (s : State) : (withSeed f s).power = s.power := rfl
@[simp] theorem withSeed_fe (f : Seed → Seed) (s : State) : (withSeed f s).fe = s.fe := rfl
@[simp] theorem withSeed_hl (f : Seed → Seed) (s : State) : (withSeed f s).hl = s.hl := rfl
@[simp] theorem withSeed_coex (f : Seed → Seed) (s : State) : (withSeed f s).coex = s.coex := rfl
@[simp] theorem withSeed_phy (f : Seed → Seed) (s : State) : (withSeed f s).phy = s.phy := rfl
@[simp] theorem withSeed_mac (f : Seed → Seed) (s : State) : (withSeed f s).mac = s.mac := rfl
@[simp] theorem withSeed_sched (f : Seed → Seed) (s : State) : (withSeed f s).sched = s.sched := rfl
@[simp] theorem withSeed_bf (f : Seed → Seed) (s : State) : (withSeed f s).bf = s.bf := rfl
@[simp] theorem withSeed_rope (f : Seed → Seed) (s : State) : (withSeed f s).rope = s.rope := rfl
@[simp] theorem withSeed_eth (f : Seed → Seed) (s : State) : (withSeed f s).eth = s.eth := rfl
@[simp] theorem withSeed_harrow (f : Seed → Seed) (s : State) : (withSeed f s).harrow = s.harrow := rfl
@[simp] theorem withSeed_seed (f : Seed → Seed) (s : State) : (withSeed f s).seed = f s.seed := rfl
@[simp] theorem withSeed_router (f : Seed → Seed) (s : State) : (withSeed f s).router = s.router := rfl
@[simp] theorem withSeed_sec (f : Seed → Seed) (s : State) : (withSeed f s).sec = s.sec := rfl
@[simp] theorem withSeed_dram (f : Seed → Seed) (s : State) : (withSeed f s).dram = s.dram := rfl
@[simp] theorem withSeed_wur (f : Seed → Seed) (s : State) : (withSeed f s).wur = s.wur := rfl
@[simp] theorem withSeed_rtc (f : Seed → Seed) (s : State) : (withSeed f s).rtc = s.rtc := rfl
@[simp] theorem withSeed_rel (f : Seed → Seed) (s : State) : (withSeed f s).rel = s.rel := rfl
@[simp] theorem withSeed_time (f : Seed → Seed) (s : State) : (withSeed f s).time = s.time := rfl
@[simp] theorem withSeed_bar (f : Seed → Seed) (s : State) : (withSeed f s).bar = s.bar := rfl
@[simp] theorem withSeed_mpRam (f : Seed → Seed) (s : State) : (withSeed f s).mpRam = s.mpRam := rfl

/-! withRouter -/

@[simp] theorem withRouter_pending (f : Router → Router) (s : State) : (withRouter f s).pending = s.pending := rfl
@[simp] theorem withRouter_now (f : Router → Router) (s : State) : (withRouter f s).now = s.now := rfl
@[simp] theorem withRouter_free (f : Router → Router) (s : State) : (withRouter f s).free = s.free := rfl
@[simp] theorem withRouter_out (f : Router → Router) (s : State) : (withRouter f s).out = s.out := rfl
@[simp] theorem withRouter_glb (f : Router → Router) (s : State) : (withRouter f s).glb = s.glb := rfl
@[simp] theorem withRouter_host (f : Router → Router) (s : State) : (withRouter f s).host = s.host := rfl
@[simp] theorem withRouter_rings (f : Router → Router) (s : State) : (withRouter f s).rings = s.rings := rfl
@[simp] theorem withRouter_life (f : Router → Router) (s : State) : (withRouter f s).life = s.life := rfl
@[simp] theorem withRouter_power (f : Router → Router) (s : State) : (withRouter f s).power = s.power := rfl
@[simp] theorem withRouter_fe (f : Router → Router) (s : State) : (withRouter f s).fe = s.fe := rfl
@[simp] theorem withRouter_hl (f : Router → Router) (s : State) : (withRouter f s).hl = s.hl := rfl
@[simp] theorem withRouter_coex (f : Router → Router) (s : State) : (withRouter f s).coex = s.coex := rfl
@[simp] theorem withRouter_phy (f : Router → Router) (s : State) : (withRouter f s).phy = s.phy := rfl
@[simp] theorem withRouter_mac (f : Router → Router) (s : State) : (withRouter f s).mac = s.mac := rfl
@[simp] theorem withRouter_sched (f : Router → Router) (s : State) : (withRouter f s).sched = s.sched := rfl
@[simp] theorem withRouter_bf (f : Router → Router) (s : State) : (withRouter f s).bf = s.bf := rfl
@[simp] theorem withRouter_rope (f : Router → Router) (s : State) : (withRouter f s).rope = s.rope := rfl
@[simp] theorem withRouter_eth (f : Router → Router) (s : State) : (withRouter f s).eth = s.eth := rfl
@[simp] theorem withRouter_harrow (f : Router → Router) (s : State) : (withRouter f s).harrow = s.harrow := rfl
@[simp] theorem withRouter_seed (f : Router → Router) (s : State) : (withRouter f s).seed = s.seed := rfl
@[simp] theorem withRouter_router (f : Router → Router) (s : State) : (withRouter f s).router = f s.router := rfl
@[simp] theorem withRouter_sec (f : Router → Router) (s : State) : (withRouter f s).sec = s.sec := rfl
@[simp] theorem withRouter_dram (f : Router → Router) (s : State) : (withRouter f s).dram = s.dram := rfl
@[simp] theorem withRouter_wur (f : Router → Router) (s : State) : (withRouter f s).wur = s.wur := rfl
@[simp] theorem withRouter_rtc (f : Router → Router) (s : State) : (withRouter f s).rtc = s.rtc := rfl
@[simp] theorem withRouter_rel (f : Router → Router) (s : State) : (withRouter f s).rel = s.rel := rfl
@[simp] theorem withRouter_time (f : Router → Router) (s : State) : (withRouter f s).time = s.time := rfl
@[simp] theorem withRouter_bar (f : Router → Router) (s : State) : (withRouter f s).bar = s.bar := rfl
@[simp] theorem withRouter_mpRam (f : Router → Router) (s : State) : (withRouter f s).mpRam = s.mpRam := rfl

/-! withSec -/

@[simp] theorem withSec_pending (f : Sec → Sec) (s : State) : (withSec f s).pending = s.pending := rfl
@[simp] theorem withSec_now (f : Sec → Sec) (s : State) : (withSec f s).now = s.now := rfl
@[simp] theorem withSec_free (f : Sec → Sec) (s : State) : (withSec f s).free = s.free := rfl
@[simp] theorem withSec_out (f : Sec → Sec) (s : State) : (withSec f s).out = s.out := rfl
@[simp] theorem withSec_glb (f : Sec → Sec) (s : State) : (withSec f s).glb = s.glb := rfl
@[simp] theorem withSec_host (f : Sec → Sec) (s : State) : (withSec f s).host = s.host := rfl
@[simp] theorem withSec_rings (f : Sec → Sec) (s : State) : (withSec f s).rings = s.rings := rfl
@[simp] theorem withSec_life (f : Sec → Sec) (s : State) : (withSec f s).life = s.life := rfl
@[simp] theorem withSec_power (f : Sec → Sec) (s : State) : (withSec f s).power = s.power := rfl
@[simp] theorem withSec_fe (f : Sec → Sec) (s : State) : (withSec f s).fe = s.fe := rfl
@[simp] theorem withSec_hl (f : Sec → Sec) (s : State) : (withSec f s).hl = s.hl := rfl
@[simp] theorem withSec_coex (f : Sec → Sec) (s : State) : (withSec f s).coex = s.coex := rfl
@[simp] theorem withSec_phy (f : Sec → Sec) (s : State) : (withSec f s).phy = s.phy := rfl
@[simp] theorem withSec_mac (f : Sec → Sec) (s : State) : (withSec f s).mac = s.mac := rfl
@[simp] theorem withSec_sched (f : Sec → Sec) (s : State) : (withSec f s).sched = s.sched := rfl
@[simp] theorem withSec_bf (f : Sec → Sec) (s : State) : (withSec f s).bf = s.bf := rfl
@[simp] theorem withSec_rope (f : Sec → Sec) (s : State) : (withSec f s).rope = s.rope := rfl
@[simp] theorem withSec_eth (f : Sec → Sec) (s : State) : (withSec f s).eth = s.eth := rfl
@[simp] theorem withSec_harrow (f : Sec → Sec) (s : State) : (withSec f s).harrow = s.harrow := rfl
@[simp] theorem withSec_seed (f : Sec → Sec) (s : State) : (withSec f s).seed = s.seed := rfl
@[simp] theorem withSec_router (f : Sec → Sec) (s : State) : (withSec f s).router = s.router := rfl
@[simp] theorem withSec_sec (f : Sec → Sec) (s : State) : (withSec f s).sec = f s.sec := rfl
@[simp] theorem withSec_dram (f : Sec → Sec) (s : State) : (withSec f s).dram = s.dram := rfl
@[simp] theorem withSec_wur (f : Sec → Sec) (s : State) : (withSec f s).wur = s.wur := rfl
@[simp] theorem withSec_rtc (f : Sec → Sec) (s : State) : (withSec f s).rtc = s.rtc := rfl
@[simp] theorem withSec_rel (f : Sec → Sec) (s : State) : (withSec f s).rel = s.rel := rfl
@[simp] theorem withSec_time (f : Sec → Sec) (s : State) : (withSec f s).time = s.time := rfl
@[simp] theorem withSec_bar (f : Sec → Sec) (s : State) : (withSec f s).bar = s.bar := rfl
@[simp] theorem withSec_mpRam (f : Sec → Sec) (s : State) : (withSec f s).mpRam = s.mpRam := rfl

/-! withSlot -/

@[simp] theorem withSlot_pending (k : Nat) (f : KeySlot → KeySlot) (s : State) : (withSlot k f s).pending = s.pending := rfl
@[simp] theorem withSlot_now (k : Nat) (f : KeySlot → KeySlot) (s : State) : (withSlot k f s).now = s.now := rfl
@[simp] theorem withSlot_free (k : Nat) (f : KeySlot → KeySlot) (s : State) : (withSlot k f s).free = s.free := rfl
@[simp] theorem withSlot_out (k : Nat) (f : KeySlot → KeySlot) (s : State) : (withSlot k f s).out = s.out := rfl
@[simp] theorem withSlot_glb (k : Nat) (f : KeySlot → KeySlot) (s : State) : (withSlot k f s).glb = s.glb := rfl
@[simp] theorem withSlot_host (k : Nat) (f : KeySlot → KeySlot) (s : State) : (withSlot k f s).host = s.host := rfl
@[simp] theorem withSlot_rings (k : Nat) (f : KeySlot → KeySlot) (s : State) : (withSlot k f s).rings = s.rings := rfl
@[simp] theorem withSlot_life (k : Nat) (f : KeySlot → KeySlot) (s : State) : (withSlot k f s).life = s.life := rfl
@[simp] theorem withSlot_power (k : Nat) (f : KeySlot → KeySlot) (s : State) : (withSlot k f s).power = s.power := rfl
@[simp] theorem withSlot_fe (k : Nat) (f : KeySlot → KeySlot) (s : State) : (withSlot k f s).fe = s.fe := rfl
@[simp] theorem withSlot_hl (k : Nat) (f : KeySlot → KeySlot) (s : State) : (withSlot k f s).hl = s.hl := rfl
@[simp] theorem withSlot_coex (k : Nat) (f : KeySlot → KeySlot) (s : State) : (withSlot k f s).coex = s.coex := rfl
@[simp] theorem withSlot_phy (k : Nat) (f : KeySlot → KeySlot) (s : State) : (withSlot k f s).phy = s.phy := rfl
@[simp] theorem withSlot_mac (k : Nat) (f : KeySlot → KeySlot) (s : State) : (withSlot k f s).mac = s.mac := rfl
@[simp] theorem withSlot_sched (k : Nat) (f : KeySlot → KeySlot) (s : State) : (withSlot k f s).sched = s.sched := rfl
@[simp] theorem withSlot_bf (k : Nat) (f : KeySlot → KeySlot) (s : State) : (withSlot k f s).bf = s.bf := rfl
@[simp] theorem withSlot_rope (k : Nat) (f : KeySlot → KeySlot) (s : State) : (withSlot k f s).rope = s.rope := rfl
@[simp] theorem withSlot_eth (k : Nat) (f : KeySlot → KeySlot) (s : State) : (withSlot k f s).eth = s.eth := rfl
@[simp] theorem withSlot_harrow (k : Nat) (f : KeySlot → KeySlot) (s : State) : (withSlot k f s).harrow = s.harrow := rfl
@[simp] theorem withSlot_seed (k : Nat) (f : KeySlot → KeySlot) (s : State) : (withSlot k f s).seed = s.seed := rfl
@[simp] theorem withSlot_router (k : Nat) (f : KeySlot → KeySlot) (s : State) : (withSlot k f s).router = s.router := rfl
@[simp] theorem withSlot_dram (k : Nat) (f : KeySlot → KeySlot) (s : State) : (withSlot k f s).dram = s.dram := rfl
@[simp] theorem withSlot_wur (k : Nat) (f : KeySlot → KeySlot) (s : State) : (withSlot k f s).wur = s.wur := rfl
@[simp] theorem withSlot_rtc (k : Nat) (f : KeySlot → KeySlot) (s : State) : (withSlot k f s).rtc = s.rtc := rfl
@[simp] theorem withSlot_rel (k : Nat) (f : KeySlot → KeySlot) (s : State) : (withSlot k f s).rel = s.rel := rfl
@[simp] theorem withSlot_time (k : Nat) (f : KeySlot → KeySlot) (s : State) : (withSlot k f s).time = s.time := rfl
@[simp] theorem withSlot_bar (k : Nat) (f : KeySlot → KeySlot) (s : State) : (withSlot k f s).bar = s.bar := rfl
@[simp] theorem withSlot_mpRam (k : Nat) (f : KeySlot → KeySlot) (s : State) : (withSlot k f s).mpRam = s.mpRam := rfl

/-! withDram -/

@[simp] theorem withDram_pending (f : Dram → Dram) (s : State) : (withDram f s).pending = s.pending := rfl
@[simp] theorem withDram_now (f : Dram → Dram) (s : State) : (withDram f s).now = s.now := rfl
@[simp] theorem withDram_free (f : Dram → Dram) (s : State) : (withDram f s).free = s.free := rfl
@[simp] theorem withDram_out (f : Dram → Dram) (s : State) : (withDram f s).out = s.out := rfl
@[simp] theorem withDram_glb (f : Dram → Dram) (s : State) : (withDram f s).glb = s.glb := rfl
@[simp] theorem withDram_host (f : Dram → Dram) (s : State) : (withDram f s).host = s.host := rfl
@[simp] theorem withDram_rings (f : Dram → Dram) (s : State) : (withDram f s).rings = s.rings := rfl
@[simp] theorem withDram_life (f : Dram → Dram) (s : State) : (withDram f s).life = s.life := rfl
@[simp] theorem withDram_power (f : Dram → Dram) (s : State) : (withDram f s).power = s.power := rfl
@[simp] theorem withDram_fe (f : Dram → Dram) (s : State) : (withDram f s).fe = s.fe := rfl
@[simp] theorem withDram_hl (f : Dram → Dram) (s : State) : (withDram f s).hl = s.hl := rfl
@[simp] theorem withDram_coex (f : Dram → Dram) (s : State) : (withDram f s).coex = s.coex := rfl
@[simp] theorem withDram_phy (f : Dram → Dram) (s : State) : (withDram f s).phy = s.phy := rfl
@[simp] theorem withDram_mac (f : Dram → Dram) (s : State) : (withDram f s).mac = s.mac := rfl
@[simp] theorem withDram_sched (f : Dram → Dram) (s : State) : (withDram f s).sched = s.sched := rfl
@[simp] theorem withDram_bf (f : Dram → Dram) (s : State) : (withDram f s).bf = s.bf := rfl
@[simp] theorem withDram_rope (f : Dram → Dram) (s : State) : (withDram f s).rope = s.rope := rfl
@[simp] theorem withDram_eth (f : Dram → Dram) (s : State) : (withDram f s).eth = s.eth := rfl
@[simp] theorem withDram_harrow (f : Dram → Dram) (s : State) : (withDram f s).harrow = s.harrow := rfl
@[simp] theorem withDram_seed (f : Dram → Dram) (s : State) : (withDram f s).seed = s.seed := rfl
@[simp] theorem withDram_router (f : Dram → Dram) (s : State) : (withDram f s).router = s.router := rfl
@[simp] theorem withDram_sec (f : Dram → Dram) (s : State) : (withDram f s).sec = s.sec := rfl
@[simp] theorem withDram_dram (f : Dram → Dram) (s : State) : (withDram f s).dram = f s.dram := rfl
@[simp] theorem withDram_wur (f : Dram → Dram) (s : State) : (withDram f s).wur = s.wur := rfl
@[simp] theorem withDram_rtc (f : Dram → Dram) (s : State) : (withDram f s).rtc = s.rtc := rfl
@[simp] theorem withDram_rel (f : Dram → Dram) (s : State) : (withDram f s).rel = s.rel := rfl
@[simp] theorem withDram_time (f : Dram → Dram) (s : State) : (withDram f s).time = s.time := rfl
@[simp] theorem withDram_bar (f : Dram → Dram) (s : State) : (withDram f s).bar = s.bar := rfl
@[simp] theorem withDram_mpRam (f : Dram → Dram) (s : State) : (withDram f s).mpRam = s.mpRam := rfl

/-! withChan -/

@[simp] theorem withChan_pending (c : Nat) (f : Chan → Chan) (s : State) : (withChan c f s).pending = s.pending := rfl
@[simp] theorem withChan_now (c : Nat) (f : Chan → Chan) (s : State) : (withChan c f s).now = s.now := rfl
@[simp] theorem withChan_free (c : Nat) (f : Chan → Chan) (s : State) : (withChan c f s).free = s.free := rfl
@[simp] theorem withChan_out (c : Nat) (f : Chan → Chan) (s : State) : (withChan c f s).out = s.out := rfl
@[simp] theorem withChan_glb (c : Nat) (f : Chan → Chan) (s : State) : (withChan c f s).glb = s.glb := rfl
@[simp] theorem withChan_host (c : Nat) (f : Chan → Chan) (s : State) : (withChan c f s).host = s.host := rfl
@[simp] theorem withChan_rings (c : Nat) (f : Chan → Chan) (s : State) : (withChan c f s).rings = s.rings := rfl
@[simp] theorem withChan_life (c : Nat) (f : Chan → Chan) (s : State) : (withChan c f s).life = s.life := rfl
@[simp] theorem withChan_power (c : Nat) (f : Chan → Chan) (s : State) : (withChan c f s).power = s.power := rfl
@[simp] theorem withChan_fe (c : Nat) (f : Chan → Chan) (s : State) : (withChan c f s).fe = s.fe := rfl
@[simp] theorem withChan_hl (c : Nat) (f : Chan → Chan) (s : State) : (withChan c f s).hl = s.hl := rfl
@[simp] theorem withChan_coex (c : Nat) (f : Chan → Chan) (s : State) : (withChan c f s).coex = s.coex := rfl
@[simp] theorem withChan_phy (c : Nat) (f : Chan → Chan) (s : State) : (withChan c f s).phy = s.phy := rfl
@[simp] theorem withChan_mac (c : Nat) (f : Chan → Chan) (s : State) : (withChan c f s).mac = s.mac := rfl
@[simp] theorem withChan_sched (c : Nat) (f : Chan → Chan) (s : State) : (withChan c f s).sched = s.sched := rfl
@[simp] theorem withChan_bf (c : Nat) (f : Chan → Chan) (s : State) : (withChan c f s).bf = s.bf := rfl
@[simp] theorem withChan_rope (c : Nat) (f : Chan → Chan) (s : State) : (withChan c f s).rope = s.rope := rfl
@[simp] theorem withChan_eth (c : Nat) (f : Chan → Chan) (s : State) : (withChan c f s).eth = s.eth := rfl
@[simp] theorem withChan_harrow (c : Nat) (f : Chan → Chan) (s : State) : (withChan c f s).harrow = s.harrow := rfl
@[simp] theorem withChan_seed (c : Nat) (f : Chan → Chan) (s : State) : (withChan c f s).seed = s.seed := rfl
@[simp] theorem withChan_router (c : Nat) (f : Chan → Chan) (s : State) : (withChan c f s).router = s.router := rfl
@[simp] theorem withChan_sec (c : Nat) (f : Chan → Chan) (s : State) : (withChan c f s).sec = s.sec := rfl
@[simp] theorem withChan_wur (c : Nat) (f : Chan → Chan) (s : State) : (withChan c f s).wur = s.wur := rfl
@[simp] theorem withChan_rtc (c : Nat) (f : Chan → Chan) (s : State) : (withChan c f s).rtc = s.rtc := rfl
@[simp] theorem withChan_rel (c : Nat) (f : Chan → Chan) (s : State) : (withChan c f s).rel = s.rel := rfl
@[simp] theorem withChan_time (c : Nat) (f : Chan → Chan) (s : State) : (withChan c f s).time = s.time := rfl
@[simp] theorem withChan_bar (c : Nat) (f : Chan → Chan) (s : State) : (withChan c f s).bar = s.bar := rfl
@[simp] theorem withChan_mpRam (c : Nat) (f : Chan → Chan) (s : State) : (withChan c f s).mpRam = s.mpRam := rfl

/-! withWur -/

@[simp] theorem withWur_pending (f : Wur → Wur) (s : State) : (withWur f s).pending = s.pending := rfl
@[simp] theorem withWur_now (f : Wur → Wur) (s : State) : (withWur f s).now = s.now := rfl
@[simp] theorem withWur_free (f : Wur → Wur) (s : State) : (withWur f s).free = s.free := rfl
@[simp] theorem withWur_out (f : Wur → Wur) (s : State) : (withWur f s).out = s.out := rfl
@[simp] theorem withWur_glb (f : Wur → Wur) (s : State) : (withWur f s).glb = s.glb := rfl
@[simp] theorem withWur_host (f : Wur → Wur) (s : State) : (withWur f s).host = s.host := rfl
@[simp] theorem withWur_rings (f : Wur → Wur) (s : State) : (withWur f s).rings = s.rings := rfl
@[simp] theorem withWur_life (f : Wur → Wur) (s : State) : (withWur f s).life = s.life := rfl
@[simp] theorem withWur_power (f : Wur → Wur) (s : State) : (withWur f s).power = s.power := rfl
@[simp] theorem withWur_fe (f : Wur → Wur) (s : State) : (withWur f s).fe = s.fe := rfl
@[simp] theorem withWur_hl (f : Wur → Wur) (s : State) : (withWur f s).hl = s.hl := rfl
@[simp] theorem withWur_coex (f : Wur → Wur) (s : State) : (withWur f s).coex = s.coex := rfl
@[simp] theorem withWur_phy (f : Wur → Wur) (s : State) : (withWur f s).phy = s.phy := rfl
@[simp] theorem withWur_mac (f : Wur → Wur) (s : State) : (withWur f s).mac = s.mac := rfl
@[simp] theorem withWur_sched (f : Wur → Wur) (s : State) : (withWur f s).sched = s.sched := rfl
@[simp] theorem withWur_bf (f : Wur → Wur) (s : State) : (withWur f s).bf = s.bf := rfl
@[simp] theorem withWur_rope (f : Wur → Wur) (s : State) : (withWur f s).rope = s.rope := rfl
@[simp] theorem withWur_eth (f : Wur → Wur) (s : State) : (withWur f s).eth = s.eth := rfl
@[simp] theorem withWur_harrow (f : Wur → Wur) (s : State) : (withWur f s).harrow = s.harrow := rfl
@[simp] theorem withWur_seed (f : Wur → Wur) (s : State) : (withWur f s).seed = s.seed := rfl
@[simp] theorem withWur_router (f : Wur → Wur) (s : State) : (withWur f s).router = s.router := rfl
@[simp] theorem withWur_sec (f : Wur → Wur) (s : State) : (withWur f s).sec = s.sec := rfl
@[simp] theorem withWur_dram (f : Wur → Wur) (s : State) : (withWur f s).dram = s.dram := rfl
@[simp] theorem withWur_wur (f : Wur → Wur) (s : State) : (withWur f s).wur = f s.wur := rfl
@[simp] theorem withWur_rtc (f : Wur → Wur) (s : State) : (withWur f s).rtc = s.rtc := rfl
@[simp] theorem withWur_rel (f : Wur → Wur) (s : State) : (withWur f s).rel = s.rel := rfl
@[simp] theorem withWur_time (f : Wur → Wur) (s : State) : (withWur f s).time = s.time := rfl
@[simp] theorem withWur_bar (f : Wur → Wur) (s : State) : (withWur f s).bar = s.bar := rfl
@[simp] theorem withWur_mpRam (f : Wur → Wur) (s : State) : (withWur f s).mpRam = s.mpRam := rfl

/-! withRtc -/

@[simp] theorem withRtc_pending (f : Rtc → Rtc) (s : State) : (withRtc f s).pending = s.pending := rfl
@[simp] theorem withRtc_now (f : Rtc → Rtc) (s : State) : (withRtc f s).now = s.now := rfl
@[simp] theorem withRtc_free (f : Rtc → Rtc) (s : State) : (withRtc f s).free = s.free := rfl
@[simp] theorem withRtc_out (f : Rtc → Rtc) (s : State) : (withRtc f s).out = s.out := rfl
@[simp] theorem withRtc_glb (f : Rtc → Rtc) (s : State) : (withRtc f s).glb = s.glb := rfl
@[simp] theorem withRtc_host (f : Rtc → Rtc) (s : State) : (withRtc f s).host = s.host := rfl
@[simp] theorem withRtc_rings (f : Rtc → Rtc) (s : State) : (withRtc f s).rings = s.rings := rfl
@[simp] theorem withRtc_life (f : Rtc → Rtc) (s : State) : (withRtc f s).life = s.life := rfl
@[simp] theorem withRtc_power (f : Rtc → Rtc) (s : State) : (withRtc f s).power = s.power := rfl
@[simp] theorem withRtc_fe (f : Rtc → Rtc) (s : State) : (withRtc f s).fe = s.fe := rfl
@[simp] theorem withRtc_hl (f : Rtc → Rtc) (s : State) : (withRtc f s).hl = s.hl := rfl
@[simp] theorem withRtc_coex (f : Rtc → Rtc) (s : State) : (withRtc f s).coex = s.coex := rfl
@[simp] theorem withRtc_phy (f : Rtc → Rtc) (s : State) : (withRtc f s).phy = s.phy := rfl
@[simp] theorem withRtc_mac (f : Rtc → Rtc) (s : State) : (withRtc f s).mac = s.mac := rfl
@[simp] theorem withRtc_sched (f : Rtc → Rtc) (s : State) : (withRtc f s).sched = s.sched := rfl
@[simp] theorem withRtc_bf (f : Rtc → Rtc) (s : State) : (withRtc f s).bf = s.bf := rfl
@[simp] theorem withRtc_rope (f : Rtc → Rtc) (s : State) : (withRtc f s).rope = s.rope := rfl
@[simp] theorem withRtc_eth (f : Rtc → Rtc) (s : State) : (withRtc f s).eth = s.eth := rfl
@[simp] theorem withRtc_harrow (f : Rtc → Rtc) (s : State) : (withRtc f s).harrow = s.harrow := rfl
@[simp] theorem withRtc_seed (f : Rtc → Rtc) (s : State) : (withRtc f s).seed = s.seed := rfl
@[simp] theorem withRtc_router (f : Rtc → Rtc) (s : State) : (withRtc f s).router = s.router := rfl
@[simp] theorem withRtc_sec (f : Rtc → Rtc) (s : State) : (withRtc f s).sec = s.sec := rfl
@[simp] theorem withRtc_dram (f : Rtc → Rtc) (s : State) : (withRtc f s).dram = s.dram := rfl
@[simp] theorem withRtc_wur (f : Rtc → Rtc) (s : State) : (withRtc f s).wur = s.wur := rfl
@[simp] theorem withRtc_rtc (f : Rtc → Rtc) (s : State) : (withRtc f s).rtc = f s.rtc := rfl
@[simp] theorem withRtc_rel (f : Rtc → Rtc) (s : State) : (withRtc f s).rel = s.rel := rfl
@[simp] theorem withRtc_time (f : Rtc → Rtc) (s : State) : (withRtc f s).time = s.time := rfl
@[simp] theorem withRtc_bar (f : Rtc → Rtc) (s : State) : (withRtc f s).bar = s.bar := rfl
@[simp] theorem withRtc_mpRam (f : Rtc → Rtc) (s : State) : (withRtc f s).mpRam = s.mpRam := rfl

/-! withRel -/

@[simp] theorem withRel_pending (f : Rel → Rel) (s : State) : (withRel f s).pending = s.pending := rfl
@[simp] theorem withRel_now (f : Rel → Rel) (s : State) : (withRel f s).now = s.now := rfl
@[simp] theorem withRel_free (f : Rel → Rel) (s : State) : (withRel f s).free = s.free := rfl
@[simp] theorem withRel_out (f : Rel → Rel) (s : State) : (withRel f s).out = s.out := rfl
@[simp] theorem withRel_glb (f : Rel → Rel) (s : State) : (withRel f s).glb = s.glb := rfl
@[simp] theorem withRel_host (f : Rel → Rel) (s : State) : (withRel f s).host = s.host := rfl
@[simp] theorem withRel_rings (f : Rel → Rel) (s : State) : (withRel f s).rings = s.rings := rfl
@[simp] theorem withRel_life (f : Rel → Rel) (s : State) : (withRel f s).life = s.life := rfl
@[simp] theorem withRel_power (f : Rel → Rel) (s : State) : (withRel f s).power = s.power := rfl
@[simp] theorem withRel_fe (f : Rel → Rel) (s : State) : (withRel f s).fe = s.fe := rfl
@[simp] theorem withRel_hl (f : Rel → Rel) (s : State) : (withRel f s).hl = s.hl := rfl
@[simp] theorem withRel_coex (f : Rel → Rel) (s : State) : (withRel f s).coex = s.coex := rfl
@[simp] theorem withRel_phy (f : Rel → Rel) (s : State) : (withRel f s).phy = s.phy := rfl
@[simp] theorem withRel_mac (f : Rel → Rel) (s : State) : (withRel f s).mac = s.mac := rfl
@[simp] theorem withRel_sched (f : Rel → Rel) (s : State) : (withRel f s).sched = s.sched := rfl
@[simp] theorem withRel_bf (f : Rel → Rel) (s : State) : (withRel f s).bf = s.bf := rfl
@[simp] theorem withRel_rope (f : Rel → Rel) (s : State) : (withRel f s).rope = s.rope := rfl
@[simp] theorem withRel_eth (f : Rel → Rel) (s : State) : (withRel f s).eth = s.eth := rfl
@[simp] theorem withRel_harrow (f : Rel → Rel) (s : State) : (withRel f s).harrow = s.harrow := rfl
@[simp] theorem withRel_seed (f : Rel → Rel) (s : State) : (withRel f s).seed = s.seed := rfl
@[simp] theorem withRel_router (f : Rel → Rel) (s : State) : (withRel f s).router = s.router := rfl
@[simp] theorem withRel_sec (f : Rel → Rel) (s : State) : (withRel f s).sec = s.sec := rfl
@[simp] theorem withRel_dram (f : Rel → Rel) (s : State) : (withRel f s).dram = s.dram := rfl
@[simp] theorem withRel_wur (f : Rel → Rel) (s : State) : (withRel f s).wur = s.wur := rfl
@[simp] theorem withRel_rtc (f : Rel → Rel) (s : State) : (withRel f s).rtc = s.rtc := rfl
@[simp] theorem withRel_rel (f : Rel → Rel) (s : State) : (withRel f s).rel = f s.rel := rfl
@[simp] theorem withRel_time (f : Rel → Rel) (s : State) : (withRel f s).time = s.time := rfl
@[simp] theorem withRel_bar (f : Rel → Rel) (s : State) : (withRel f s).bar = s.bar := rfl
@[simp] theorem withRel_mpRam (f : Rel → Rel) (s : State) : (withRel f s).mpRam = s.mpRam := rfl

/-! withTime -/

@[simp] theorem withTime_pending (f : TimeSt → TimeSt) (s : State) : (withTime f s).pending = s.pending := rfl
@[simp] theorem withTime_now (f : TimeSt → TimeSt) (s : State) : (withTime f s).now = s.now := rfl
@[simp] theorem withTime_free (f : TimeSt → TimeSt) (s : State) : (withTime f s).free = s.free := rfl
@[simp] theorem withTime_out (f : TimeSt → TimeSt) (s : State) : (withTime f s).out = s.out := rfl
@[simp] theorem withTime_glb (f : TimeSt → TimeSt) (s : State) : (withTime f s).glb = s.glb := rfl
@[simp] theorem withTime_host (f : TimeSt → TimeSt) (s : State) : (withTime f s).host = s.host := rfl
@[simp] theorem withTime_rings (f : TimeSt → TimeSt) (s : State) : (withTime f s).rings = s.rings := rfl
@[simp] theorem withTime_life (f : TimeSt → TimeSt) (s : State) : (withTime f s).life = s.life := rfl
@[simp] theorem withTime_power (f : TimeSt → TimeSt) (s : State) : (withTime f s).power = s.power := rfl
@[simp] theorem withTime_fe (f : TimeSt → TimeSt) (s : State) : (withTime f s).fe = s.fe := rfl
@[simp] theorem withTime_hl (f : TimeSt → TimeSt) (s : State) : (withTime f s).hl = s.hl := rfl
@[simp] theorem withTime_coex (f : TimeSt → TimeSt) (s : State) : (withTime f s).coex = s.coex := rfl
@[simp] theorem withTime_phy (f : TimeSt → TimeSt) (s : State) : (withTime f s).phy = s.phy := rfl
@[simp] theorem withTime_mac (f : TimeSt → TimeSt) (s : State) : (withTime f s).mac = s.mac := rfl
@[simp] theorem withTime_sched (f : TimeSt → TimeSt) (s : State) : (withTime f s).sched = s.sched := rfl
@[simp] theorem withTime_bf (f : TimeSt → TimeSt) (s : State) : (withTime f s).bf = s.bf := rfl
@[simp] theorem withTime_rope (f : TimeSt → TimeSt) (s : State) : (withTime f s).rope = s.rope := rfl
@[simp] theorem withTime_eth (f : TimeSt → TimeSt) (s : State) : (withTime f s).eth = s.eth := rfl
@[simp] theorem withTime_harrow (f : TimeSt → TimeSt) (s : State) : (withTime f s).harrow = s.harrow := rfl
@[simp] theorem withTime_seed (f : TimeSt → TimeSt) (s : State) : (withTime f s).seed = s.seed := rfl
@[simp] theorem withTime_router (f : TimeSt → TimeSt) (s : State) : (withTime f s).router = s.router := rfl
@[simp] theorem withTime_sec (f : TimeSt → TimeSt) (s : State) : (withTime f s).sec = s.sec := rfl
@[simp] theorem withTime_dram (f : TimeSt → TimeSt) (s : State) : (withTime f s).dram = s.dram := rfl
@[simp] theorem withTime_wur (f : TimeSt → TimeSt) (s : State) : (withTime f s).wur = s.wur := rfl
@[simp] theorem withTime_rtc (f : TimeSt → TimeSt) (s : State) : (withTime f s).rtc = s.rtc := rfl
@[simp] theorem withTime_rel (f : TimeSt → TimeSt) (s : State) : (withTime f s).rel = s.rel := rfl
@[simp] theorem withTime_time (f : TimeSt → TimeSt) (s : State) : (withTime f s).time = f s.time := rfl
@[simp] theorem withTime_bar (f : TimeSt → TimeSt) (s : State) : (withTime f s).bar = s.bar := rfl
@[simp] theorem withTime_mpRam (f : TimeSt → TimeSt) (s : State) : (withTime f s).mpRam = s.mpRam := rfl

/-! withTb -/

@[simp] theorem withTb_pending (n : Nat) (f : Tb → Tb) (s : State) : (withTb n f s).pending = s.pending := rfl
@[simp] theorem withTb_now (n : Nat) (f : Tb → Tb) (s : State) : (withTb n f s).now = s.now := rfl
@[simp] theorem withTb_free (n : Nat) (f : Tb → Tb) (s : State) : (withTb n f s).free = s.free := rfl
@[simp] theorem withTb_out (n : Nat) (f : Tb → Tb) (s : State) : (withTb n f s).out = s.out := rfl
@[simp] theorem withTb_glb (n : Nat) (f : Tb → Tb) (s : State) : (withTb n f s).glb = s.glb := rfl
@[simp] theorem withTb_host (n : Nat) (f : Tb → Tb) (s : State) : (withTb n f s).host = s.host := rfl
@[simp] theorem withTb_rings (n : Nat) (f : Tb → Tb) (s : State) : (withTb n f s).rings = s.rings := rfl
@[simp] theorem withTb_life (n : Nat) (f : Tb → Tb) (s : State) : (withTb n f s).life = s.life := rfl
@[simp] theorem withTb_power (n : Nat) (f : Tb → Tb) (s : State) : (withTb n f s).power = s.power := rfl
@[simp] theorem withTb_fe (n : Nat) (f : Tb → Tb) (s : State) : (withTb n f s).fe = s.fe := rfl
@[simp] theorem withTb_hl (n : Nat) (f : Tb → Tb) (s : State) : (withTb n f s).hl = s.hl := rfl
@[simp] theorem withTb_coex (n : Nat) (f : Tb → Tb) (s : State) : (withTb n f s).coex = s.coex := rfl
@[simp] theorem withTb_phy (n : Nat) (f : Tb → Tb) (s : State) : (withTb n f s).phy = s.phy := rfl
@[simp] theorem withTb_mac (n : Nat) (f : Tb → Tb) (s : State) : (withTb n f s).mac = s.mac := rfl
@[simp] theorem withTb_sched (n : Nat) (f : Tb → Tb) (s : State) : (withTb n f s).sched = s.sched := rfl
@[simp] theorem withTb_bf (n : Nat) (f : Tb → Tb) (s : State) : (withTb n f s).bf = s.bf := rfl
@[simp] theorem withTb_rope (n : Nat) (f : Tb → Tb) (s : State) : (withTb n f s).rope = s.rope := rfl
@[simp] theorem withTb_eth (n : Nat) (f : Tb → Tb) (s : State) : (withTb n f s).eth = s.eth := rfl
@[simp] theorem withTb_harrow (n : Nat) (f : Tb → Tb) (s : State) : (withTb n f s).harrow = s.harrow := rfl
@[simp] theorem withTb_seed (n : Nat) (f : Tb → Tb) (s : State) : (withTb n f s).seed = s.seed := rfl
@[simp] theorem withTb_router (n : Nat) (f : Tb → Tb) (s : State) : (withTb n f s).router = s.router := rfl
@[simp] theorem withTb_sec (n : Nat) (f : Tb → Tb) (s : State) : (withTb n f s).sec = s.sec := rfl
@[simp] theorem withTb_dram (n : Nat) (f : Tb → Tb) (s : State) : (withTb n f s).dram = s.dram := rfl
@[simp] theorem withTb_wur (n : Nat) (f : Tb → Tb) (s : State) : (withTb n f s).wur = s.wur := rfl
@[simp] theorem withTb_rtc (n : Nat) (f : Tb → Tb) (s : State) : (withTb n f s).rtc = s.rtc := rfl
@[simp] theorem withTb_rel (n : Nat) (f : Tb → Tb) (s : State) : (withTb n f s).rel = s.rel := rfl
@[simp] theorem withTb_bar (n : Nat) (f : Tb → Tb) (s : State) : (withTb n f s).bar = s.bar := rfl
@[simp] theorem withTb_mpRam (n : Nat) (f : Tb → Tb) (s : State) : (withTb n f s).mpRam = s.mpRam := rfl

/-! emit -/

@[simp] theorem emit_pending (o : Output) (s : State) : (emit o s).pending = s.pending := rfl
@[simp] theorem emit_now (o : Output) (s : State) : (emit o s).now = s.now := rfl
@[simp] theorem emit_free (o : Output) (s : State) : (emit o s).free = s.free := rfl
@[simp] theorem emit_out (o : Output) (s : State) : (emit o s).out = o :: s.out := rfl
@[simp] theorem emit_glb (o : Output) (s : State) : (emit o s).glb = s.glb := rfl
@[simp] theorem emit_host (o : Output) (s : State) : (emit o s).host = s.host := rfl
@[simp] theorem emit_rings (o : Output) (s : State) : (emit o s).rings = s.rings := rfl
@[simp] theorem emit_life (o : Output) (s : State) : (emit o s).life = s.life := rfl
@[simp] theorem emit_power (o : Output) (s : State) : (emit o s).power = s.power := rfl
@[simp] theorem emit_fe (o : Output) (s : State) : (emit o s).fe = s.fe := rfl
@[simp] theorem emit_hl (o : Output) (s : State) : (emit o s).hl = s.hl := rfl
@[simp] theorem emit_coex (o : Output) (s : State) : (emit o s).coex = s.coex := rfl
@[simp] theorem emit_phy (o : Output) (s : State) : (emit o s).phy = s.phy := rfl
@[simp] theorem emit_mac (o : Output) (s : State) : (emit o s).mac = s.mac := rfl
@[simp] theorem emit_sched (o : Output) (s : State) : (emit o s).sched = s.sched := rfl
@[simp] theorem emit_bf (o : Output) (s : State) : (emit o s).bf = s.bf := rfl
@[simp] theorem emit_rope (o : Output) (s : State) : (emit o s).rope = s.rope := rfl
@[simp] theorem emit_eth (o : Output) (s : State) : (emit o s).eth = s.eth := rfl
@[simp] theorem emit_harrow (o : Output) (s : State) : (emit o s).harrow = s.harrow := rfl
@[simp] theorem emit_seed (o : Output) (s : State) : (emit o s).seed = s.seed := rfl
@[simp] theorem emit_router (o : Output) (s : State) : (emit o s).router = s.router := rfl
@[simp] theorem emit_sec (o : Output) (s : State) : (emit o s).sec = s.sec := rfl
@[simp] theorem emit_dram (o : Output) (s : State) : (emit o s).dram = s.dram := rfl
@[simp] theorem emit_wur (o : Output) (s : State) : (emit o s).wur = s.wur := rfl
@[simp] theorem emit_rtc (o : Output) (s : State) : (emit o s).rtc = s.rtc := rfl
@[simp] theorem emit_rel (o : Output) (s : State) : (emit o s).rel = s.rel := rfl
@[simp] theorem emit_time (o : Output) (s : State) : (emit o s).time = s.time := rfl
@[simp] theorem emit_bar (o : Output) (s : State) : (emit o s).bar = s.bar := rfl
@[simp] theorem emit_mpRam (o : Output) (s : State) : (emit o s).mpRam = s.mpRam := rfl

end Sys2Proof.Machine
end

