-- ==== Sys2Proof/Tests/Slice0.lean ====
section
/-!
SUPPORT. Tests: small steps on small states. A test of a command runs one step and looks at what the chapters say it changes, so it also shows a
state and operands that meet the hypotheses of the statement about that command. Expected values come from the rules and worked examples named.
-/
namespace Sys2Proof.Tests
open Sys2Proof Sys2Proof.Machine
set_option Elab.async false

/-! Helpers. -/

/-- The working device with Builmin running in normal mode and the DRAM configured. -/
def up : State :=
  { State.reset with
    life := { State.reset.life with wipeBusy := false, fwState := .running, mode := .service }
    dram := { State.reset.dram with ready := true, cfg := [1, 1] } }

/-- The state after a command. -/
def after (i : Instr) (s : State) : State := match exec i s with | .next t => t | _ => s

/-- Mailbox 0 holds one command of a form, with its parameters inline or in the host's buffer. -/
def ask (f : Form) (ps : List Byte) (s : State) : State :=
  withMbx 0 (fun b => { b with cmds := [{
    handle := 1#32
    hdr := le 2 f.opcode ++ (if f.indirect then [16, 0, 1, 0] else le 2 ((f.length ps).getD 0) ++ [0, 0]) ++ [0, 0] ++ le 8 7
    params := if f.indirect then le 8 4096 ++ le 4 65536 ++ le 4 0 else ps, phase := .queued }] }) s

/-- The state after Builmin ran that command. -/
def ran (i : Fin 8 → List Byte → Instr) (f : Form) (ps : List Byte) (s : State) : State := after (i 0 ps) (ask f ps s)

/-- The status code and the data with which it completed. -/
def ended (t : State) : Option Nat := (vget t.host.cq 0).waiting.head?.map fun c => statusCode c.status
def given (t : State) : List Byte := ((vget t.host.cq 0).waiting.head?.map (·.data)).getD []

/-- It runs on. -/
def runs (t : State) : Bool := (vget t.host.mbx 0).cmds.any (·.phase == .running)

/-- It completed with OK, and `p` holds. -/
def good (t : State) (p : State → Bool) : Bool := ended t == some 0 && p t

/-- It stays outstanding, and `p` holds. -/
def stays (t : State) (p : State → Bool) : Bool := ended t == none && runs t && p t


/-- A command of this form with these parameters is ready. -/
def canRun (f : Form) (ps : List Byte) (s : State) : Bool :=
  let t := ask f ps s
  running t && match nextCmd (vget t.host.mbx 0).cmds with
    | some r => hdrOpcode r == f.opcode && (cmdCheck f r (cmdParams f r ps) t).isNone
    | none => false

/-- Every radio receives. -/
def air : State := { up with fe := up.fe.map fun e => { e with state := .rx } }

/-- Station 5, with links to every radio; `x` is its context. -/
def sta5 (s : State) (x : Sta := { links := 7, addr := [2, 0, 0, 0, 0, 5] }) : State := withMac (fun m => { m with sta := [(5, x)] }) s

/-- Both ports are up at 10 Gb/s. -/
def wired : State := { up with eth := up.eth.map fun p => { p with up := true, speed := 1 } }

/-- A key slot. -/
def keyed (k : Nat) (x : KeySlot) (s : State) : State := withSec (fun y => { y with slots := kset y.slots k x }) s

/-- A lease of one lane slot on lane 1. -/
def leased : State := withLane 1 (fun x => { x with slot := some 0 }) (withHarrow (fun h => { h with lease := [(0, { slots := [none] })] }) up)

/-- In a rope: the lead with two members, or a member of its pitch. -/
def roped (r : RopeRole) : State := withRope (fun x => { x with
  role := r, id := 7, index := 3, leadIdx := if r == .lead then 3 else 5
  roster := [(3, { pitch := 1, lead := r == .lead, anchor := true }), (5, { pitch := 1, lead := r != .lead })] }) up

/-- The DRAM channels serve. -/
def served : State := { up with dram := { up.dram with chan := up.dram.chan.map fun x => { x with state := 2 } } }

/-- A command's next state has `p`. -/
def does (i : Instr) (s : State) (p : State → Bool) : Bool := match exec i s with | .next t => p t | _ => false

/-- A state with one part changed. -/
def rtcOf (f : Rtc → Rtc) : State := withRtc f up
def lifeOf (f : Life → Life) : State := withLife f up

/-- Lane 2 runs a program whose next word is `w`. -/
def prog (w : Nat) (f : Lane → Lane := id) : State := withLane 2 (fun x => f { x with
  phase := .program, job := some { budget := 1000, ivec := [7, 0xFFFF, 9, 0xFFFF] }, mem := vset x.mem 2 (memWrite [] 0 (le 8 w)) }) up

/-- Words of formats K and V. -/
def kw (op rd ra imm : Nat) : Nat := op * 2 ^ 57 + rd * 2 ^ 52 + ra * 2 ^ 47 + imm
def vw (op vd va vb acc : Nat) : Nat := op * 2 ^ 57 + vd * 2 ^ 52 + va * 2 ^ 47 + vb * 2 ^ 42 + acc * 2 ^ 40

/-- A vector register, a scalar and an accumulator with a value in every element. -/
def v (i : Nat) (e : BitVec 32) : Lane → Lane := setV i (Vector.replicate 8 e)
def sc (i : Nat) (w : Word) : Lane → Lane := setS i w
def ac (i : Nat) (r m : BitVec 40) : Lane → Lane := setAcc i (Vector.replicate 8 (r, m))

/-- Element 7 of a vector register of lane 2 afterwards. -/
def e7 (i : Nat) (t : State) : BitVec 32 := el (vreg (lane 2 t) i) 7

/-- One radio of a state changed: front end, PHY, MAC, scheduler, Headland. -/
def feOf (r : Nat) (f : RadioFe → RadioFe) : State := withFe r f air
def phyOf (r : Nat) (f : RadioPhy → RadioPhy) : State := withPhy r f air
def macOf (r : Nat) (f : RadioMac → RadioMac) : State := withRm r f air
def rsOf (r : Nat) (f : RadioSched → RadioSched) : State := withRs r f air
def hlOf (r : Nat) (f : RadioHl → RadioHl) : State := withHl r f air
def rbOf (r : Nat) (f : RadioBf → RadioBf) : State := withRb r f air

/-- A received MPDU of station 5 for BSS 16, and a reception under way on radio B. -/
def mpdu (k : MpduKind) (n : Nat := 100) : Mpdu :=
  { user := 0, old := false, start := 0, fcsOk := true, len := n, kind := k, ra := [6], ta := [7], bssid := [8], da := [1], sa := [2], tid := 0, qos := false, seq := 0
    frag := 0, more := false, retry := false, pm := false, dur := 100, prot := false, keyId := 0, pn := 0, acks := [], ssn := 0, soft := 0, bsr := []
    body := [], whole := [], tsf := 0, full := false, overflow := false }
def rxing (x : RxCur := { valid := true, fmt := 3, users := [{ (default : UserSig) with nss := 1 }] }) : State := phyOf 1 fun p => { p with rx := some x }
def ppduEnd : PpduEnd := { users := [], tb := [], csi := [], delimErr := 3, overflow := false, asks := 0, due := 0 }

/-- A PPDU on the air of radio B. -/
def txing (x : TxCur) : State := feOf 1 fun e => { e with state := .tx, tx := some x }
def fr : Frame := { id := 9, bytes := pad 100 [] }

/-- Station 5 has frames queued for TID 0. -/
def queued (l : List Frame) (x : Sta := { links := 2, addr := [2, 0, 0, 0, 0, 5] }) : State :=
  withSched (fun c => { c with q := [(40, l)] }) (sta5 air x)

/-- A Kennar frame of member 5. -/
def kn (p : List Byte := []) (src : Fin 1024 := 5) : KnFrame :=
  { port := 0, version := 1, rope := 7, src := src, phase := false, epoch := 0, counter := 64, fits := true, tagOk := true, payload := p }
def ropeOf (r : RopeRole) (f : Rope → Rope) : State := withRope f (roped r)

/-- Rope time, in ns. -/
def atRope (ns : Nat) (s : State) : State := withTb 1 (fun b => { b with sec := ns / 10 ^ 9, ns := ns % 10 ^ 9 }) s

def seedOf (f : Seed → Seed) : State := withSeed f up
def routed (l : List Frame) (f : Router → Router := id) : State := withRouter (fun x => f { x with inq := l }) up
def portOf (f : Port → Port) : State := withPort 0 f wired

/-- An Ethernet frame of 64 bytes with its FCS, from 02:..:01 to the broadcast address. -/
def wire64 (et : List Byte := [0x08, 0x00]) : List Byte := List.replicate 6 0xFF ++ [2, 0, 0, 0, 0, 1] ++ et ++ pad 50 []
def eframe : Frame := { id := 9, src := 1, bytes := wire64.take 60 }

def secOf (f : Sec → Sec) : State := withSec f up
def chanOfD (f : Chan → Chan) : State := withChan 0 f served
def relOf (f : Rel → Rel) : State := withRel f up
def wurOf (f : Wur → Wur) : State := withWur f up
def wake : WurFrame := { fcsOk := true, high := false, type := 0, id := 5, tdc := 0, level := -60, body := 0 }
/-- The SIG fields of a whole 20 MHz HE SU PPDU with a user's MCS. -/
def sig (mcs : Nat := 0) : SigInfo :=
  { lltf := true, parity := true, rate := true, length := 10, rl := true, crc := true, fmt := 5, bw := 0, htLength := 0, primary := true
    excluded := false, late := false, users := [{ (default : UserSig) with ruSize := 3, mcs := mcs, nss := 1 }], obss := none, txop := 0, endNs := 200000 }

/-- A received Block Ack request's radio state: a response is owed at an instant. -/
def owed (f : RadioMac → RadioMac) : State := { macOf 1 (fun m => f { m with commit := some 9 }) with now := 9 }
def txRing (g : Ring := { en := true, sizeLog := 6, prod := 1 }) : State := withHtx 0 (fun _ => g) up
def rxRing (l : List Frame) (g : Ring := { en := true, sizeLog := 6, prod := 2 }) : State :=
  withHrx 0 (fun _ => g) { up with rings := { up.rings with rxq := vset up.rings.rxq 0 l } }

/-- A read request of a channel, and one that is open at once. -/
def req (w : Bool := false) : DramReq := { write := w, addr := 64 }

/-- A four-byte host write. -/
def wr (a : Nat) (v : Nat) : Instr := .registerWrite (.bar a 4 (BitVec.ofNat 64 v))

/-- An IPv4 packet in an Ethernet frame with these fragment fields. -/
def ip4 (ff : Nat) : Frame :=
  { id := 9, src := 1, bytes := List.replicate 6 0xFF ++ [2, 0, 0, 0, 0, 1, 0x08, 0, 0x45, 0, 0, 46, 0, 1] ++ be 2 ff ++
      [64, 17, 0, 0, 10, 0, 0, 1, 10, 0, 0, 2] ++ pad 26 [] }

/-- Radio B idle since 0, with AC 3 alone near its turn. -/
def alone : State := macOf 1 fun m =>
  { m with idleAt := some 0, bo := vset m.bo 3 { counter := some 2 }, edca := vmod (m.edca.map fun e => { e with aifsn := 9 }) 3 fun e => { e with aifsn := 1 } }


/-! Mailbox commands: each is ready in `up` with these parameters, completes with OK or stays outstanding, and has its effect. -/

theorem test_nop : good (ran .nop nopForm [] up) (fun _ => true) = true := by decide +kernel
theorem test_get_version : good (ran .getVersion getVersionForm [] up) (fun t => given t == [4, 2, 0xB0, 2, 0, 0, 0, 0, 0, 1, 0, 0, 0, 0, 0, 0]) = true := by decide +kernel
theorem test_abort_command : ended (ran .abortCommand abortCommandForm (le 4 5) up) ≠ none := by decide +kernel
theorem test_host_get_counters :
    good (ran .hostGetCounters hostGetCountersForm [1, 3, 0, 0] (withHrx 3 (fun g => { g with frames := 7 }) up)) (fun t => given t == le 8 7 ++ pad 24 []) = true := by decide +kernel
theorem test_radio_get_state : good (ran .radioGetState radioGetStateForm [2, 0, 0, 0] up) (fun _ => true) = true := by decide +kernel
theorem test_radio_set_state : stays (ran .radioSetState radioSetStateForm [2, 2, 1, 0] up) (fun t => (vget t.fe 2).stateReq.length == 1) = true := by decide +kernel
theorem test_radio_set_fem_map : good (ran .radioSetFemMap radioSetFemMapForm [0, 0, 0, 0] up) (fun _ => true) = true := by decide +kernel
theorem test_radio_set_ramp : good (ran .radioSetRamp radioSetRampForm [2, 20, 5, 1] up) (fun _ => true) = true := by decide +kernel
theorem test_radio_get_chain : good (ran .radioGetChain radioGetChainForm [2, 15, 0, 0] up) (fun _ => true) = true := by decide +kernel
theorem test_radio_get_counters : good (ran .radioGetCounters radioGetCountersForm [2, 0, 0, 0] up) (fun t => (given t).length == 136) = true := by decide +kernel
theorem test_phy_set_rx : good (ran .phySetRx phySetRxForm [2, 1, 0xA0, 2, 80, 0, 0, 0] up) (fun _ => true) = true := by decide +kernel
theorem test_phy_set_formats : good (ran .phySetFormats phySetFormatsForm ([2, 0] ++ le 2 2) up) (fun _ => true) = true := by decide +kernel
theorem test_phy_get_config : good (ran .phyGetConfig phyGetConfigForm [2, 0, 0, 0] up) (fun t => (given t).length == 16) = true := by decide +kernel

/-! Well-formedness: an ill-formed term for each check, and one at the boundary. -/

theorem test_wf_bytes : Instr.wf (.nop 0 (List.replicate 65537 0)) = false ∧ Instr.wf (.nop 0 (List.replicate 65536 0)) = true := by decide +kernel
theorem test_wf_register_write :
    [regWriteWf (.bar 0 0 0), regWriteWf (.bar 0 9 0), regWriteWf (.bar 0xFFFFFD 4 0)].all not = true ∧
      [regWriteWf (.bar 0xFFFFFC 4 0), regWriteWf (.bar 2 2 0)].all id = true := by decide +kernel
theorem test_wf_lane_check : checkWf (.memory 0 8192) = false ∧ checkWf (.memory 2 8191) = true ∧ checkWf (.cache 64) = false := by decide +kernel
theorem test_wf_mpdu :
    mpduWf { mpdu .data with ra := [1, 2] } = false ∧ mpduWf { mpdu .data with ra := [], ta := [], bssid := [], da := [], sa := pad 6 [] } = true := by
  decide +kernel
theorem test_wf_descriptors : Instr.wf (.htxFrameFetch 0 [pad 31 []] []) = false ∧ Instr.wf (.hrxFrameDeliver 0 [pad 33 []]) = false := by decide +kernel
theorem test_wf_event_data :
    Instr.wf (.eventRaise .coexStuck 0 (pad 17 [])) = false ∧ Instr.wf (.eventRaise .coexStuck 0 (pad 16 [])) = true := by decide +kernel
theorem test_wf_addresses : Instr.wf (.fdbAge 0 [1]) = false ∧ Instr.wf (.reportSend 0 0 [([1], 0)]) = false := by decide +kernel
theorem test_wf_kennar : Instr.wf (.belay (kn (pad 1501 []))) = false ∧ Instr.wf (.belay (kn (pad 1500 []))) = true := by decide +kernel

/-! The queue, the checks in their order, the held device, the sound state. -/

theorem test_step_front :
    step { up with pending := [.rtcLock, .oscResume] } = exec .rtcLock { up with pending := [.oscResume] } := rfl
/-- PPS_OUT: the tick that carries a second is a rising-edge instant, and with a delay of 2 ns the tick before it (R331). -/
theorem test_pps_rise : [
    (tick (withTb 0 (fun b => { b with ns := 999999998 }) up)).time.rise, !(tick (withTb 0 (fun b => { b with ns := 999999996 }) up)).time.rise,
    (tick (withTime (fun t => { t with out := { delay := 2 } }) (withTb 0 (fun b => { b with ns := 999999996 }) up))).time.rise].all id = true := by
  decide +kernel

theorem test_step_idle : (match step up with | .next t => t.now == 1 | _ => false) = true := by decide +kernel
theorem test_queue_kept : does .rtcLock { up with pending := [.oscResume] } (fun t => t.pending == [.oscResume]) = true := by decide +kernel

/-- R45: the opcode, then the length, then the parameters, then the DRAM gate, then the command's own checks. -/
def hdr (op len : Nat) : CmdRec := { handle := 1#32, hdr := le 2 op ++ le 2 len ++ [0, 0, 0, 0] ++ le 8 7, phase := .queued }
def hold (c : CmdRec) (s : State) : State := withMbx 0 (fun b => { b with cmds := [c] }) s

theorem test_checks_in_order : [
    ended (after (.nop 0 []) (hold (hdr 0xFFFF 4) up)) == some (statusCode .badOpcode),
    ended (after (.radioGetState 0 []) (hold (hdr radioGetStateForm.opcode 5) up)) == some (statusCode .badLength),
    ended (after (.radioGetState 0 []) (hold { hdr radioGetStateForm.opcode 4 with params := [3, 0, 0, 0] } up)) == some (statusCode .badParam),
    ended (after (.macGetCounters 0 []) (hold { hdr macGetCountersForm.opcode 4 with params := [2, 0, 0, 0] } { up with dram := {} })) != none,
    ended (after (.nop 0 []) (hold (hdr radioGetStateForm.opcode 4) up)) == none,
    ended (after (.nop 0 []) (hold (hdr nopForm.opcode 0) { up with life := { up.life with fwState := .fault } })) == none].all id = true := by
  decide +kernel

theorem test_held_in_reset : live State.reset = false ∧ worksInReset (.eventWrite) = false ∧ worksInReset .wipeEnd = true := by decide
theorem test_reset_is_sound : Sound State.reset := by constructor <;> first | decide | (intro t h; cases h)
theorem test_step_keeps_sound : ∃ t, step { State.reset with pending := [.oscResume] } = .next t ∧ t.rtc.oscRunning = true := ⟨_, rfl, rfl⟩
theorem test_first_percentile : p1Of [] = none ∧ p1Of [9, 3, 7] = some 3 := by decide +kernel
theorem test_rounding : [cr 11 1, cr 9 1, cr (-9) 1, cr (-11) 1, cr (-3) 0] = [6, 4, -4, -6, -3] := by decide +kernel
theorem test_grant :
    gntNow 0 (withFe 0 (fun e => { e with req := true }) { air with coex := { air.coex with ctrl := 1 } }) = true ∧ gntNow 0 air = false := by
  decide +kernel
theorem test_table_words : decodeTableWord 32 0 = none ∧ (State.reset.withFetchWord 32 0).pending = [] := by decide
/-- The curve is the device's own (a free value): where the point is on it, the command of opening a session is ready. -/
theorem test_ready_open_session (h : Config.onP384 (slice (pad 104 [4]) 0 97) = true) : canRun secOpenSessionForm (pad 104 [4]) up = true := by
  have hz : zeros (pad 104 [4]) 97 7 = true := by decide +kernel
  have hr : ∃ r, nextCmd (vget (ask secOpenSessionForm (pad 104 [4]) up).host.mbx 0).cmds = some r ∧
      cmdParams secOpenSessionForm r (pad 104 [4]) = pad 104 [4] ∧ lengthOk secOpenSessionForm r (pad 104 [4]) = true ∧
      hdrOpcode r = secOpenSessionForm.opcode ∧ paramOk { secOpenSessionForm with ok := fun _ => true } r (pad 104 [4]) = true :=
    ⟨_, rfl, by decide +kernel, by decide +kernel, by decide +kernel, by decide +kernel⟩
  obtain ⟨r, hn, hp, hl, ho, hq⟩ := hr
  have hrun : running (ask secOpenSessionForm (pad 104 [4]) up) = true := by decide +kernel
  have hdram : needsDram secOpenSessionForm.opcode = false := by decide +kernel
  generalize pad 104 [4] = ps at *
  have hok : secOpenSessionForm.ok ps = true := by simp [secOpenSessionForm, indirectForm, h, hz]
  have hpar : paramOk secOpenSessionForm r ps = true := by
    simp only [paramOk, hok, Bool.and_true] at hq ⊢; exact hq
  simp [canRun, hrun, hn, ho, hp, cmdCheck, hl, hpar, hdram]
theorem test_ready_cairn_restore : canRun cairnRestoreForm (pad 4096 []) up = true := by decide +kernel

/-! Exact arithmetic of R125 to R127 and R255 on small matrices, by hand. -/

theorem test_inverse : matInv [[(0, 0), (2, 0)], [(0, 1), (0, 0)]] = [[(0, 0), (0, -1)], [(1 / 2, 0), (0, 0)]] := by decide +kernel
theorem test_chan_est : chanEst 2 [[(3, 0), (1, 0)]] = [[(1, 0), (2, 0)]] := by decide +kernel
theorem test_mmse : mmse 1 [[(1, 0)]] = [[(1 / 2, 0)]] ∧ sinrOf 1 [[(1, 0)]] 0 = 1 := by decide +kernel
theorem test_min_sum : ldpcRun [[0, 1, 2]] 4 [] [5, -1, 3] = ([4, 2, 2], true) ∧ (ldpcRun [[0, 1]] 0 [] [1, -1]).2 = false := by decide +kernel
theorem test_zero_forcing : precode [[(2, 0), (0, 0)], [(0, 0), (4, 0)]] 1 0 = [[(1 / 2, 0)], [(0, 0)]] := by decide +kernel
theorem test_quantise : quantise [(1, 0), (-1 / 2, 1 / 4)] = (1 / 2047, [(2047, 0), (-1023, 512)]) := by decide +kernel
theorem test_sig_checks : sigPass sig = true ∧ sigPass { sig with rl := false } = false ∧ sigPass { sig with crc := false } = false := by decide
theorem test_object_ranges : [objectOk 1 3, objectOk 4 512, objectOk 4 (2 ^ 31 + 512), objectOk 3 2560, objectOk 7 1024, objectOk 0 1024] =
    [false, true, false, false, false, false] := by decide +kernel
/-- R2 and R10: the same entry on the wire and in the host's buffer. -/
theorem test_byte_orders : (entryBytes 5 {} true).take 4 = [0, 5, 0, 1] ∧ (entryWith le 5 {} true).take 4 = [5, 0, 0, 1] := by decide +kernel
/-- R1: a fence that excludes the channel a waiting move of the Seeder goes to ends it, and the radio stays where it may. -/
theorem test_fence_stops_move : ((fun t : State => (vget t.fe 1).chanReq.isNone && (vget t.fe 1).centre == 5250)
    (chanForced 1 (withFe 1 (fun e => { e with centre := 5250, bw := 0, prim := 0, chanReq := some { centre := 5300 } })
      (withSeed (fun x => { x with fences := [(7, { kind := 2, bytes := [0, 0, 2, 0, 1, 1, 0, 0] ++ le 2 5250 ++ [0, 0xFF] })] }) air)))) = true := by
  decide +kernel

/-! Mailbox commands: each is ready with these parameters, and completes, stays outstanding or is turned away; then its effect. -/

theorem test_radio_set_chain :
    good (ran .radioSetChain radioSetChainForm [0, 7, 1, 63, 6, 0, 0, 0, 0, 0, 0, 0] up) (fun _ => true) = true := by decide +kernel
theorem test_radio_rffe :
    good (ran (.radioRffeTransfer · · (.first 0)) radioRffeTransferForm [0, 0, 1, 0, 0, 0, 0, 0] up) (fun _ => true) = true := by decide +kernel
theorem test_phy_get_report : good (ran .phyGetReport phyGetReportForm ([2,0]++le 2 1023) up) (fun _ => true) = true := by decide +kernel
theorem test_phy_read_history :
    good (ran .phyReadHistory phyReadHistoryForm ([2,0]++le 2 1 ++ pad 12 []) up) (fun _ => true) = true := by decide +kernel
theorem test_phy_get_counters : good (ran .phyGetCounters phyGetCountersForm [2,0,0,0] up) (fun _ => true) = true := by decide +kernel
theorem test_mac_set_bss :
    good (ran .macSetBss macSetBssForm ([0,5,5,0xFF,2,0,0,0,0,5] ++ le 2 100 ++ le 2 0 ++ [1,0] ++ le 2 9 ++ le 2 0) up) (fun _ => true) = true := by decide +kernel
theorem test_mac_set_beacon :
    good (ran .macSetBeacon macSetBeaconForm ([5,0] ++ le 2 18 ++ le 4 0 ++ pad 12 [] ++ [5,4,0,1,0,0] ++ le 2 12) up) (fun _ => true) = true := by decide +kernel
theorem test_mac_set_edca :
    good (ran .macSetEdca macSetEdcaForm ([0,0,0,0] ++ [2,0x43,0,0, 2,0x43,0,0, 2,0x43,0,0, 2,0x43,0,0]) up) (fun _ => true) = true := by decide +kernel
theorem test_mac_set_cca : good (ran .macSetCca macSetCcaForm [2,0xC2,0xC2,0xC2,0xC2,0,0,0] up) (fun _ => true) = true := by decide +kernel
theorem test_mac_add_sta :
    good (ran .macAddSta macAddStaForm (le 2 1023 ++ [0xFF,1,2,0,0,0,0,7] ++ le 2 2007 ++ le 4 0 ++ pad 32 [5]) up) (fun _ => true) = true := by decide +kernel
theorem test_mac_del_sta : good (ran .macDelSta macDelStaForm (le 2 1023 ++ le 2 0) up) (fun _ => true) = true := by decide +kernel
theorem test_mac_set_ba_policy :
    good (ran .macSetBaPolicy macSetBaPolicyForm (le 2 0xFFFF ++ [0xFF,1] ++ le 2 1024 ++ [1,0]) up) (fun _ => true) = true := by decide +kernel
theorem test_mac_set_mld : good (ran .macSetMld macSetMldForm [15,0,16,0xFF,2,0,0,0,0,9,0,0] up) (fun _ => true) = true := by decide +kernel
theorem test_mac_set_twt : good (ran .macSetTwt macSetTwtForm ([47,3] ++ le 2 500 ++ pad 12 []) up) (fun _ => true) = true := by decide +kernel
theorem test_mac_set_uplink :
    good (ran .macSetUplink macSetUplinkForm ([0,0xFF] ++ le 2 0 ++ pad 6 [] ++ [1,1,0,0,0,0]) up) (fun _ => true) = true := by decide +kernel
theorem test_mac_set_retry :
    good (ran .macSetRetry macSetRetryForm ([2,1,0,0] ++ [31,1,0,31,1,0,31,1,0,31,1,0]) up) (fun _ => true) = true := by decide +kernel
theorem test_mac_get_counters : good (ran .macGetCounters macGetCountersForm [2,0,0,0] up) (fun _ => true) = true := by decide +kernel
theorem test_mac_get_sta : good (ran .macGetSta macGetStaForm (le 2 5 ++ [0,0]) up) (fun _ => true) = true := by decide +kernel
theorem test_sched_set_ac_weights :
    good (ran .schedSetAcWeights schedSetAcWeightsForm [2,0,0,0,1,2,3,4] up) (fun _ => true) = true := by decide +kernel
theorem test_sched_set_bss_share :
    good (ran .schedSetBssShare schedSetBssShareForm ([2,0,0,0] ++ le 2 1000 ++ pad 30 []) up) (fun _ => true) = true := by decide +kernel
theorem test_sched_set_limits :
    good (ran .schedSetLimits schedSetLimitsForm ([2,148] ++ le 2 5400 ++ le 2 200 ++ le 2 1000 ++ le 2 10 ++ [1,10,20,8,0,0,1,0,0,0]) up) (fun _ => true) = true := by decide +kernel
theorem test_sched_get_furrow : good (ran .schedGetFurrow schedGetFurrowForm [2,1,0,0] up) (fun _ => true) = true := by decide +kernel
theorem test_sched_flush_queue : good (ran .schedFlushQueue schedFlushQueueForm (le 2 5 ++ [0xFF,0]) up) (fun _ => true) = true := by decide +kernel
theorem test_sched_get_counters : good (ran .schedGetCounters schedGetCountersForm [2,0,0,0] up) (fun _ => true) = true := by decide +kernel
theorem test_harrow_get_status : good (ran .harrowGetStatus harrowGetStatusForm [] up) (fun _ => true) = true := by decide +kernel
theorem test_harrow_get_counters : good (ran .harrowGetCounters harrowGetCountersForm [] up) (fun _ => true) = true := by decide +kernel
theorem test_bf_set_sounding :
    good (ran .bfSetSounding bfSetSoundingForm ([2,3,36,1] ++ le 2 1000 ++ le 2 0) up) (fun _ => true) = true := by decide +kernel
theorem test_bf_set_ageing :
    good (ran .bfSetAgeing bfSetAgeingForm ([2,0,0,0] ++ le 2 1000 ++ le 2 1000 ++ le 2 1 ++ le 2 0) up) (fun _ => true) = true := by decide +kernel
theorem test_bf_set_precoder :
    good (ran .bfSetPrecoder bfSetPrecoderForm ([2,1,1,8] ++ le 2 5 ++ le 2 0) up) (fun _ => true) = true := by decide +kernel
theorem test_bf_set_fem_recip : good (ran .bfSetFemRecip bfSetFemRecipForm ([0,0,8,0] ++ pad 32 []) up) (fun _ => true) = true := by decide +kernel
theorem test_bf_get_csi : good (ran .bfGetCsi bfGetCsiForm ([2,0] ++ le 2 5 ++ pad 12 []) up) (fun _ => true) = true := by decide +kernel
theorem test_bf_get_groups : good (ran .bfGetGroups bfGetGroupsForm [2,0,0,0] up) (fun _ => true) = true := by decide +kernel
theorem test_bf_get_status : good (ran .bfGetStatus bfGetStatusForm [2,0,0,0] up) (fun _ => true) = true := by decide +kernel
theorem test_bf_get_counters : good (ran .bfGetCounters bfGetCountersForm [2,0,0,0] up) (fun _ => true) = true := by decide +kernel
theorem test_seeder_get_status : good (ran .seederGetStatus seederGetStatusForm [] up) (fun _ => true) = true := by decide +kernel
theorem test_seeder_set_params :
    good (ran .seederSetParams seederSetParamsForm (le 2 500 ++ le 2 60 ++ le 4 60 ++ [10,5,90,11] ++ le 2 0 ++ [1,0] ++ le 2 0 ++ le 2 60) up) (fun _ => true) = true := by decide +kernel
theorem test_seeder_get_placement :
    good (ran .seederGetPlacement seederGetPlacementForm ([2,0,0,0] ++ le 4 0) up) (fun _ => true) = true := by decide +kernel
theorem test_seeder_read_log : good (ran .seederReadLog seederReadLogForm (le 2 1 ++ pad 14 []) up) (fun _ => true) = true := by decide +kernel
theorem test_seeder_set_fence :
    good (ran .seederSetFence seederSetFenceForm (le 2 9 ++ [5,0,1,0,0,0]) up) (fun _ => true) = true := by decide +kernel
theorem test_seeder_evaluate : good (ran .seederEvaluate seederEvaluateForm ([2,0,0,0] ++ le 4 0) up) (fun _ => true) = true := by decide +kernel
theorem test_seeder_get_counters : good (ran .seederGetCounters seederGetCountersForm [] up) (fun _ => true) = true := by decide +kernel
theorem test_rope_get_status : good (ran .ropeGetStatus ropeGetStatusForm [] up) (fun _ => true) = true := by decide +kernel
theorem test_rope_get_counters : good (ran .ropeGetCounters ropeGetCountersForm [] up) (fun _ => true) = true := by decide +kernel
theorem test_time_set_role :
    good (ran .timeSetRole timeSetRoleForm ([0,1,0,0] ++ le 4 0 ++ [0,0,0,0]) up) (fun _ => true) = true := by decide +kernel
theorem test_time_set_asym : good (ran .timeSetAsym timeSetAsymForm ([1,2,0,0] ++ le 8 5) up) (fun _ => true) = true := by decide +kernel
theorem test_time_set_tsf : good (ran .timeSetTsf timeSetTsfForm ([47,3] ++ pad 6 [] ++ le 8 99) up) (fun _ => true) = true := by decide +kernel
theorem test_time_set_pps :
    good (ran .timeSetPps timeSetPpsForm ([0,1,0,0] ++ le 4 500000 ++ le 4 10000 ++ le 4 10000) up) (fun _ => true) = true := by decide +kernel
theorem test_time_get_status : good (ran .timeGetStatus timeGetStatusForm [] up) (fun _ => true) = true := by decide +kernel
theorem test_time_get_tsf : good (ran .timeGetTsf timeGetTsfForm [47,0,0,0] up) (fun _ => true) = true := by decide +kernel
theorem test_time_get_counters : good (ran .timeGetCounters timeGetCountersForm [] up) (fun _ => true) = true := by decide +kernel
theorem test_router_set_params :
    good (ran .routerSetParams routerSetParamsForm ([0,0,63,0xFF] ++ le 4 10 ++ [1,0,0,0]) up) (fun _ => true) = true := by decide +kernel
theorem test_router_get_flow : good (ran .routerGetFlow routerGetFlowForm (le 2 16383 ++ le 2 0) up) (fun _ => true) = true := by decide +kernel
theorem test_router_set_neigh :
    good (ran .routerSetNeigh routerSetNeighForm (le 2 4095 ++ [1,63] ++ pad 24 []) up) (fun _ => true) = true := by decide +kernel
theorem test_router_set_fdb : good (ran .routerSetFdb routerSetFdbForm [63,0,2,0,0,0,0,1,4,0,0,0] up) (fun _ => true) = true := by decide +kernel
theorem test_router_flush_fdb : good (ran .routerFlushFdb routerFlushFdbForm [0xFF,1,0,0] up) (fun _ => true) = true := by decide +kernel
theorem test_router_set_domain :
    good (ran .routerSetDomain routerSetDomainForm ([63,0,0,0xFF,2,0,0,0,0,1] ++ le 2 9198 ++ le 2 1 ++ le 2 1 ++ pad 16 []) up) (fun _ => true) = true := by decide +kernel
theorem test_router_set_port_pair :
    (canRun routerSetPortPairForm ([7,3,1,0] ++ le 2 4094 ++ le 2 0) up && up.dram.ready) = true := by decide +kernel
theorem test_router_set_ring_group : (canRun routerSetRingGroupForm ([15] ++ pad 7 [] ++ le 8 3) up && up.dram.ready) = true := by decide +kernel
theorem test_router_set_hash : good (ran .routerSetHash routerSetHashForm (pad 64 [1]) up) (fun _ => true) = true := by decide +kernel
theorem test_router_set_indirection :
    good (ran .routerSetIndirection routerSetIndirectionForm (le 2 511 ++ le 2 1 ++ le 2 0x4007) up) (fun _ => true) = true := by decide +kernel
theorem test_router_set_exc_limit :
    good (ran .routerSetExcLimit routerSetExcLimitForm ([10,0,0,0] ++ le 4 1000000 ++ le 2 1 ++ le 2 0) up) (fun _ => true) = true := by decide +kernel
theorem test_router_get_counters : good (ran .routerGetCounters routerGetCountersForm [] up) (fun _ => true) = true := by decide +kernel
theorem test_router_get_rule : good (ran .routerGetRule routerGetRuleForm (le 2 1023 ++ le 2 0) up) (fun _ => true) = true := by decide +kernel
theorem test_eth_configure_port :
    good (ran .ethConfigurePort ethConfigurePortForm ([1,4,1,0xFF] ++ le 2 9216 ++ [15,128,2,0,0,0,0,1,0,0]) up) (fun _ => true) = true := by decide +kernel
theorem test_eth_set_filter : good (ran .ethSetFilter ethSetFilterForm [1,15,1,0,1,0,0x5E,0,0,1,0,0] up) (fun _ => true) = true := by decide +kernel
theorem test_eth_get_status : good (ran (.ethGetStatus · · 5 6) ethGetStatusForm [1,0,0,0] up) (fun _ => true) = true := by decide +kernel
theorem test_eth_get_counters : good (ran .ethGetCounters ethGetCountersForm [1,0,0,0] up) (fun _ => true) = true := by decide +kernel
theorem test_sec_get_identity : good (ran .secGetIdentity secGetIdentityForm [] up) (fun _ => true) = true := by decide +kernel
theorem test_sec_get_key_state : good (ran .secGetKeyState secGetKeyStateForm (le 2 2559 ++ le 2 0) up) (fun _ => true) = true := by decide +kernel
theorem test_sec_macsec_port : good (ran .secMacsecPort secMacsecPortForm ([1,3,0,0] ++ pad 12 [9]) up) (fun _ => true) = true := by decide +kernel
theorem test_sec_get_counters : good (ran .secGetCounters secGetCountersForm [] up) (fun _ => true) = true := by decide +kernel
theorem test_dram_configure :
    stays (ran .dramConfigure dramConfigureForm ([1,1,0,0,0xFF,0,0,0] ++ le 2 64 ++ le 2 0 ++ le 2 128 ++ pad 42 []) { up with dram := {} }) (fun _ => true) = true := by decide +kernel
theorem test_dram_set_policy :
    good (ran .dramSetPolicy dramSetPolicyForm ([0,1] ++ le 2 500 ++ [63,55,0,0]) up) (fun _ => true) = true := by decide +kernel
theorem test_dram_set_rate : good (ran .dramSetRate dramSetRateForm [0,0,0,0] up) (fun _ => true) = true := by decide +kernel
theorem test_dram_get_status : good (ran .dramGetStatus dramGetStatusForm [1,0,0,0] up) (fun _ => true) = true := by decide +kernel
theorem test_dram_get_errors : good (ran .dramGetErrors dramGetErrorsForm [0,0,0,0] up) (fun _ => true) = true := by decide +kernel
theorem test_dram_get_counters : good (ran .dramGetCounters dramGetCountersForm [0,0,0,0] up) (fun _ => true) = true := by decide +kernel
theorem test_rel_get_status : good (ran .relGetStatus relGetStatusForm [] up) (fun _ => true) = true := by decide +kernel
theorem test_cairn_export : good (ran .cairnExport cairnExportForm [] up) (fun _ => true) = true := by decide +kernel
theorem test_rel_get_counters : good (ran .relGetCounters relGetCountersForm [] up) (fun _ => true) = true := by decide +kernel
theorem test_sys_get_state : good (ran .sysGetState sysGetStateForm [] up) (fun _ => true) = true := by decide +kernel
theorem test_sys_set_mode : good (ran .sysSetMode sysSetModeForm [2,0,0,0] up) (fun _ => true) = true := by decide +kernel
theorem test_power_enter_bivouac : good (ran .powerEnterBivouac powerEnterBivouacForm [0,0,0,0] up) (fun _ => true) = true := by decide +kernel
theorem test_wur_set_rx :
    good (ran .wurSetRx wurSetRxForm ([1,0] ++ le 2 2472 ++ le 2 4095 ++ le 2 4094) up) (fun _ => true) = true := by decide +kernel
theorem test_wur_set_match :
    good (ran .wurSetMatch wurSetMatchForm ([63,1] ++ pad 14 [] ++ [7,1] ++ le 2 5 ++ le 2 4095 ++ pad 10 []) up) (fun _ => true) = true := by decide +kernel
theorem test_wur_get_status : good (ran .wurGetStatus wurGetStatusForm [] up) (fun _ => true) = true := by decide +kernel
theorem test_wur_get_counters : good (ran .wurGetCounters wurGetCountersForm [] up) (fun _ => true) = true := by decide +kernel
theorem test_radio_set_channel :
    good (ran .radioSetChannel radioSetChannelForm ([1, 0, 0, 0] ++ le 2 5180 ++ [0, 0]) (withLife (fun l => { l with mode := .startUp }) up)) (fun t => (vget t.fe 1).centre == 5180) = true := by decide +kernel
theorem test_radio_calibrate :
    stays (ran .radioCalibrate radioCalibrateForm [0, 1, 0, 0] air) (fun t => (vget t.fe 0).calCmd.isSome) = true := by decide +kernel
theorem test_radio_restore_chain :
    good (ran .radioRestoreChain radioRestoreChainForm [0, 7, 0, 0] (withChain 0 7 (fun c => { c with st := .fallow }) up)) (fun t => (vget (vget t.fe 0).chains 7).st == .derated6) = true := by decide +kernel
theorem test_phy_test_tx :
    stays (ran .phyTestTx phyTestTxForm ([0,1,0,0,1,0,5,0] ++ le 2 100 ++ le 2 20) (withLife (fun l => { l with mode := .test }) air)) (fun t => (vget t.fe 0).testTx.isSome) = true := by decide +kernel
theorem test_sched_set_sta :
    good (ran .schedSetSta schedSetStaForm (le 2 5 ++ [255,0] ++ le 2 16 ++ le 2 0 ++ pad 16 []) (sta5 up)) (fun t => ((kget t.mac.sta 5).map (·.weight)) == some 255) = true := by decide +kernel
theorem test_sched_get_sta : good (ran .schedGetSta schedGetStaForm (le 2 5 ++ [0,0]) (sta5 up)) (fun _ => true) = true := by decide +kernel
theorem test_harrow_lease :
    (fun t => khas t.harrow.lease 0) (ran .harrowLease harrowLeaseForm ([1,0] ++ le 2 0 ++ pad 52 []) up) = true := by decide +kernel
theorem test_harrow_release : (fun t => (lane 1 t).wiping) (ran .harrowRelease harrowReleaseForm [0,0,0,0] leased) = true := by decide +kernel
theorem test_harrow_submit_job :
    ended (ran .harrowSubmitJob harrowSubmitJobForm ([0,0,0,0,0,0,0,0] ++ pad 12 [] ++ le 4 100 ++ pad 40 []) up) = some 48 := by decide +kernel
theorem test_harrow_submit_job2 :
    stays (ran .harrowSubmitJob harrowSubmitJobForm ([0,0,0,0,0,0,0,0] ++ pad 12 [] ++ le 4 100 ++ pad 40 []) (withLease 0 (fun e => { e with slots := [some 1] }) leased)) (fun t => ((kget t.harrow.lease 0).map (·.queue.length)) == some 1) = true := by decide +kernel
theorem test_harrow_stop_job :
    good (ran .harrowStopJob harrowStopJobForm [0,0,0,0] (withLane 1 (fun x => { x with job := some {}, phase := .program }) leased)) (fun t => (lane 1 t).phase == .ended 6) = true := by decide +kernel
theorem test_harrow_stop_none : ended (ran .harrowStopJob harrowStopJobForm [1,0,0,0] leased) = some 48 := by decide +kernel
theorem test_bf_recalibrate :
    stays (ran .bfRecalibrate bfRecalibrateForm [2,1,0,0] air) (fun t => (vget t.bf.radio 2).cmds.length == 1) = true := by decide +kernel
theorem test_seeder_clear_fence :
    good (ran .seederClearFence seederClearFenceForm (le 2 9 ++ le 2 0) (withSeed (fun x => { x with fences := [(9, { kind := 5, bytes := pad 8 [] })] }) up)) (fun t => t.seed.fences.isEmpty) = true := by decide +kernel
theorem test_seeder_get_fence :
    good (ran .seederGetFence seederGetFenceForm (le 2 9 ++ le 2 0) (withSeed (fun x => { x with fences := [(9, { kind := 5, bytes := pad 8 [] })] }) up)) (fun _ => true) = true := by decide +kernel
theorem test_rope_join :
    stays (ran .ropeJoin ropeJoinForm (le 2 7 ++ le 2 3 ++ le 2 100 ++ [1,1] ++ le 2 5 ++ [10,0] ++ le 2 3072 ++ [1,0,0,0,0,0]) (keyed 100 { kind := 5, suite := 13, key := pad 16 [] } up)) (fun t => t.rope.role == .joining) = true := by decide +kernel
theorem test_rope_leave : good (ran .ropeLeave ropeLeaveForm [0,0,0,0] (roped .lead)) (fun t => t.rope.role == .none) = true := by decide +kernel
theorem test_rope_set_key :
    good (ran .ropeSetKey ropeSetKeyForm (le 2 100 ++ [0,0]) (keyed 100 { kind := 5, suite := 13, key := pad 16 [] } (roped .lead))) (fun t => t.rope.nextSlot == some 100) = true := by decide +kernel
theorem test_rope_get_member :
    good (ran .ropeGetMember ropeGetMemberForm (le 2 5 ++ le 2 0) (roped .member)) (fun _ => true) = true := by decide +kernel
theorem test_rope_get_pitch :
    good (ran .ropeGetPitch ropeGetPitchForm (le 2 0xFFFF ++ le 2 0) (roped .member)) (fun _ => true) = true := by decide +kernel
theorem test_router_set_flow :
    good (ran .routerSetFlow routerSetFlowForm (pad 56 [] ++ [0,0,0,0,0xFF,0,0,0] ++ pad 8 []) (withRouter (fun x => { x with flows := [(9, { key := pad 48 [], result := [0,0,0,0,0xFF,0,0,0] ++ pad 8 [] })] }) up)) (fun t => given t == [9,0,1,0]) = true := by decide +kernel
theorem test_router_del_flow :
    good (ran .routerDelFlow routerDelFlowForm (le 2 16383 ++ le 2 0) (withRouter (fun x => { x with flows := [(16383, { packets := 3 })] }) up)) (fun t => t.router.flows.isEmpty && given t == le 8 3 ++ le 8 0) = true := by decide +kernel
theorem test_router_get_flow0 : ended (ran .routerDelFlow routerDelFlowForm (le 2 0 ++ le 2 0) up) = some 18 := by decide +kernel
theorem test_router_set_rule :
    good (ran .routerSetRule routerSetRuleForm (le 2 1023 ++ [3,0] ++ pad 128 [] ++ [0,0,0,0,0xFF,0,0,0] ++ pad 8 []) up) (fun t => ((kget t.router.rules 1023).map (·.stage)) == some true) = true := by decide +kernel
theorem test_router_set_route :
    good (ran .routerSetRoute routerSetRouteForm ([0,15,0,0] ++ le 2 0 ++ le 2 0 ++ pad 16 []) up) (fun t => t.router.routes.length == 1) = true := by decide +kernel
theorem test_eth_set_fallow :
    good (ran .ethSetFallow ethSetFallowForm [1,1,0,0] (withPort 1 (fun x => { x with mode := 1 }) up)) (fun t => (port 1 t).fallow) = true := by decide +kernel
theorem test_eth_set_fallow0 : ended (ran .ethSetFallow ethSetFallowForm [1,1,0,0] up) = some 48 := by decide +kernel
theorem test_sec_load_key : ended (ran .secLoadKey secLoadKeyForm (le 2 2559 ++ [2,1,3,16,0,0] ++ pad 32 []) up) = some 48 := by decide +kernel
theorem test_sec_delete_key :
    good (ran .secDeleteKey secDeleteKeyForm (le 2 2559 ++ le 2 0) (keyed 2559 { kind := 2 } up)) (fun t => t.sec.slots.isEmpty) = true := by decide +kernel
theorem test_sec_bind_key :
    good (ran .secBindKey secBindKeyForm (le 2 2559 ++ [0,0] ++ le 2 5 ++ [3,0] ++ pad 8 []) (sta5 (keyed 2559 { kind := 1 } up))) (fun t => ((kget t.mac.sta 5).map (·.txKey)) == some (some (0, 2559))) = true := by decide +kernel
theorem test_sec_unbind_key :
    good (ran .secBindKey secBindKeyForm (le 2 0xFFFF ++ [0,0] ++ le 2 5 ++ [3,0] ++ pad 8 []) (sta5 up { links := 7, txKey := some (0, 9) })) (fun t => ((kget t.mac.sta 5).map (·.txKey)) == some none) = true := by decide +kernel
theorem test_sec_set_stream :
    good (ran .secSetStream secSetStreamForm (le 2 5 ++ [1,0xFF] ++ le 2 1024 ++ le 2 0) (sta5 up { links := 7, stream := [(0, (3, 64))] })) (fun t => ((kget t.mac.sta 5).map (·.stream)) == some []) = true := by decide +kernel
theorem test_sec_macsec_set_sa :
    good (ran .secMacsecSetSa secMacsecSetSaForm ([1,0,3,15] ++ le 2 100 ++ [0,0] ++ pad 8 [] ++ le 8 1 ++ pad 16 []) (withSec (fun y => { y with port := vmod y.port 1 fun p => { p with en := true } }) (keyed 100 { kind := 4, suite := 9 } up))) (fun t => khas (vget t.sec.port 1).rx 63) = true := by decide +kernel
theorem test_sec_eapol :
    good (ran (.secEapol · · 0) secEapolForm ([1,1] ++ le 2 11 ++ le 2 99 ++ [0,0] ++ pad 99 []) (keyed 11 { kind := 7, suite := 0, key := pad 32 [] } up)) (fun _ => true) = true := by decide +kernel
theorem test_sec4way :
    good (ran (.sec4way · · 0) sec4wayForm ([1,1] ++ le 2 10 ++ le 2 11 ++ le 2 12 ++ pad 76 [] ++ [3] ++ pad 3 []) (withSec (fun y => { y with session := true }) (keyed 10 { kind := 6, key := pad 32 [] } up))) (fun t => khas t.sec.slots 11 && khas t.sec.slots 12) = true := by decide +kernel
theorem test_sec_sae :
    good (ran (.secSae · · true 0) secSaeForm ([0,5,19,0] ++ le 2 10 ++ [0,0] ++ pad 12 []) (withSec (fun y => { y with session := true }) (keyed 10 { kind := 8, key := pad 64 [] } up))) (fun t => khas t.sec.sae 5) = true := by decide +kernel
theorem test_dram_retrain : stays (ran .dramRetrain dramRetrainForm [0,3,0,0] served) (fun t => (chan 0 t).due.isSome) = true := by decide +kernel
theorem test_dram_set_rate1 :
    stays (ran .dramSetRate dramSetRateForm [1,0,0,0] { served with dram := { served.dram with cfg := [1,1,0,0,1,0,0,0] } }) (fun t => t.dram.rateReqs.length == 1) = true := by decide +kernel
theorem test_dram_get_status2 : good (ran .dramGetStatus dramGetStatusForm [0,0,0,0] served) (fun _ => true) = true := by decide +kernel
theorem test_sys_to_service :
    good (ran .sysSetMode sysSetModeForm [1,0,0,0] (withLife (fun l => { l with mode := .test }) up)) (fun t => t.life.mode == .service) = true := by decide +kernel
theorem test_sys_to_test :
    (canRun sysSetModeForm [2,0,0,0] { up with life := { up.life with mode := .startUp } } && up.dram.ready) = true := by decide +kernel
theorem test_sys_wrong :
    ended (ran .sysSetMode sysSetModeForm [3,0,0,0] (withLife (fun l => { l with mode := .startUp }) up)) = some 48 := by decide +kernel
theorem test_dram_policy_wrong :
    ended (ran .dramSetPolicy dramSetPolicyForm ([0,1] ++ le 2 500 ++ [63,55,0,0]) { up with dram := {} }) = some 48 := by decide +kernel
theorem test_bivouac_wrong : ended (ran .powerEnterBivouac powerEnterBivouacForm [2,0,0,0] up) = some 48 := by decide +kernel
theorem test_bivouac :
    good (ran .powerEnterBivouac powerEnterBivouacForm [2,0,0,0] (withRtc (fun r => { r with alarmEn := true }) up)) (fun t => t.life.bivDone.isSome && t.life.fwState == .bivouac) = true := by decide +kernel
theorem test_wur_start :
    good (ran .wurSetRx wurSetRxForm ([2,0] ++ le 2 2472 ++ le 2 4095 ++ le 2 4094) (withRtc (fun r => { r with oscStopped := false }) up)) (fun t => t.wur.mode == 2) = true := by decide +kernel
theorem test_wur_send :
    stays (ran .wurSend wurSendForm ([3,1,7,0] ++ le 2 4095 ++ le 2 1 ++ le 2 1 ++ le 2 1 ++ le 4 0) (withBss 3 (fun b => { b with en := true }) air)) (fun t => khas t.wur.tx 3) = true := by decide +kernel
theorem test_set_edca_bss :
    good (ran .macSetEdca macSetEdcaForm ([0,1,5,0] ++ [2,0x43,0,0, 2,0x43,0,0, 2,0x43,0,0, 2,0x43,0,0]) up) (fun t => (vget t.mac.bss 5).changes == 1) = true := by decide +kernel
theorem test_set_uplink_sta :
    good (ran .macSetUplink macSetUplinkForm ([0,0] ++ le 2 5 ++ pad 6 [2] ++ [1,1,1,0,0,0]) (sta5 up)) (fun t => (vget t.mac.radio 0).uplink.isSome) = true := by decide +kernel
theorem test_chain_measure : good (ran .dramGetErrors dramGetErrorsForm [0,0,0,0] served) (fun _ => true) = true := by decide +kernel
theorem test_radio_cal_waits :
    stays (ran .radioCalibrate radioCalibrateForm [1,1,0,0] (feOf 1 (fun e => { e with calCmd := some { handle := 9#32, segs := 1, force := false, started := false } }))) (fun t => (vget t.fe 1).calWait.length == 1) = true := by decide +kernel
theorem test_radio_chain_waits :
    good (ran .radioSetChain radioSetChainForm [1,7,1,63,6,0,0,0,0,0,0,0] (feOf 1 (fun e => { e with txopHeld := true }))) (fun t => (vget (vget t.fe 1).chains 7).cfgNext.isSome) = true := by decide +kernel
theorem test_radio_rffe_read :
    good (ran (.radioRffeTransfer · · (.second 7)) radioRffeTransferForm [0,0,1,1,0,0,0,0] up) (fun t => given t == [7] && t.out.length == 2) = true := by decide +kernel
theorem test_bss_set_conflict :
    ended (ran .macSetBss macSetBssForm ([0,5,5,6,2,0,0,0,0,5] ++ le 2 100 ++ le 2 0 ++ [1,0] ++ le 2 9 ++ le 2 0) up) = some (statusCode .badParam) := by decide +kernel
theorem test_seeder_clear_all :
    good (ran .seederClearFence seederClearFenceForm (le 2 0xFFFF ++ le 2 0) (withSeed (fun x => { x with fences := [(9, { kind := 5, bytes := pad 8 [] })] }) up)) (fun t => t.seed.fences.isEmpty) = true := by decide +kernel
theorem test_seeder_eval_in_test :
    good (ran .seederEvaluate seederEvaluateForm ([2,0,0,0] ++ le 4 0) (withLife (fun l => { l with mode := .test }) up)) (fun t => given t == [0,0,0,0]) = true := by decide +kernel
theorem test_neigh_cleared :
    good (ran .routerSetNeigh routerSetNeighForm (le 2 4095 ++ [0,63] ++ pad 24 []) up) (fun t => khas t.router.neigh 4095) = true := by decide +kernel
theorem test_fdb_static :
    good (ran .routerSetFdb routerSetFdbForm [63,1,2,0,0,0,0,1,4,0,0,0] up) (fun t => t.router.fdb.length == 1) = true := by decide +kernel
theorem test_fdb_flush_learned :
    good (ran .routerFlushFdb routerFlushFdbForm [0xFF,0,0,0] (withRouter (fun x => { x with fdb := [{ kind := 2 }, { kind := 1 }] }) up)) (fun t => t.router.fdb.length == 1) = true := by decide +kernel
theorem test_exc_total :
    good (ran .routerSetExcLimit routerSetExcLimitForm ([0,0,0,0] ++ le 4 1000000 ++ le 2 1 ++ le 2 0) up) (fun t => t.router.total != up.router.total) = true := by decide +kernel
theorem test_port_unchanged :
    good (ran .ethConfigurePort ethConfigurePortForm ([1,4,1,0xFF] ++ le 2 9216 ++ [15,128,2,0,0,0,0,1,0,0]) (withPort 1 (fun y => { y with mode := 4, anSpeeds := 1, fecCfg := 0xFF }) up)) (fun t => (port 1 t).maxFrame == 9216) = true := by decide +kernel
theorem test_filter_of_rope :
    ended (ran .ethSetFilter ethSetFilterForm [1,15,1,0,1,0,0x5E,0,0,1,0,0] (withPort 1 (fun y => { y with filter := [(15, { addr := [], rope := 1 })] }) up)) = some (statusCode .locked) := by decide +kernel
theorem test_key_locked :
    ended (ran .secLoadKey secLoadKeyForm (le 2 2559 ++ [2,1,3,16,0,0] ++ pad 32 []) (withLife (fun l => { l with lcState := 3 }) up)) = some (statusCode .locked) := by decide +kernel
theorem test_dram_policy_open :
    good (ran .dramSetPolicy dramSetPolicyForm ([0,0] ++ le 2 500 ++ [63,55,0,0]) up) (fun t => (chan 0 t).ageLimit == 500) = true := by decide +kernel

/-! The real-time clock (R424 to R440). -/

theorem test_rtc_read : [
    does (.rtcTime0Read 0x1234) (rtcOf (fun r => { r with time := { year := 26, month := 3, day := 4, hour := 5, minute := 6, second := 7 } })) (fun t => t.rtc.snap.isSome && t.rtc.presc == 0x1234),
    does (.rtcTime2Read) (rtcOf (fun r => { r with snap := some (1, 2) })) (fun t => t.rtc.snap.isNone),
    does (.rtcSnapshotExpiry) (rtcOf (fun r => { r with snap := some (1, 2) })) (fun t => t.rtc.snap.isNone)].all id = true := by decide +kernel
theorem test_rtc_commit : [
    does (.rtcCommit 59#32) (rtcOf (fun r => { r with locked := false, holdDate := 0x0190020C#32 &&& 0x01FF0F1F#32, holdTime := 0x00173B00#32 })) (fun t => t.rtc.dateInvalid == false || t.rtc.commit.isNone),
    does (.rtcCommit 59#32) (rtcOf (fun r => { r with locked := false })) (fun t => t.rtc.commit == some { second := 59 }),
    does (.rtcCommit 60#32) (rtcOf (fun r => { r with locked := false })) (fun t => t.rtc.dateInvalid && t.rtc.commit.isNone),
    does (.rtcCommit 59#32) up (fun t => t.rtc.commit.isNone && !t.rtc.dateInvalid),
    does (.rtcCommitLoad) (rtcOf (fun r => { r with commit := some { year := 399, month := 12, day := 31 }, presc := 9 })) (fun t => t.rtc.time.year == 399 && t.rtc.presc == 0 && !t.rtc.oscStopped)].all id = true := by decide +kernel
theorem test_rtc_unlock : [
    does (.rtcUnlock 0x5EED#32) { up with now := 5000000 } (fun t => t.rtc.armed),
    does (.rtcUnlock 0xF1E1#32) { rtcOf (fun r => { r with armed := true }) with now := 5000000 } (fun t => !t.rtc.locked && !t.rtc.armed),
    does (.rtcUnlock 0xF1E1#32) { up with now := 5000000 } (fun t => t.rtc.locked),
    does (.rtcUnlock 1#32) { rtcOf (fun r => { r with armed := true }) with now := 5000000 } (fun t => t.rtc.locked && !t.rtc.armed),
    does (.rtcUnlock 0x5EED#32) { up with now := 4999999 } (fun t => !t.rtc.armed),
    does (.rtcLock) (rtcOf (fun r => { r with locked := false })) (fun t => t.rtc.locked),
    does (.vddIoGood) { up with now := 77 } (fun t => t.rtc.vddGoodAt == some 77),
    does (.batteryPowerUp) (rtcOf (fun r => { r with alarmEn := true, time := { year := 5 } })) (fun t => t.rtc.time.year == 0 && !t.rtc.alarmEn)].all id = true := by decide +kernel
theorem test_rtc_second_tick : [
    does (.rtcSecondTick) (rtcOf (fun r => { r with oscRunning := true, time := { year := 399, month := 12, day := 31, hour := 23, minute := 59, second := 59 } })) (fun t => t.rtc.time == {} && t.rtc.yearWrap),
    does (.rtcSecondTick) (rtcOf (fun r => { r with oscRunning := true, time := { year := 24, month := 2, day := 28, hour := 23, minute := 59, second := 59 } })) (fun t => t.rtc.time == { year := 24, month := 2, day := 29 }),
    does (.rtcSecondTick) (rtcOf (fun r => { r with oscRunning := true, time := { year := 100, month := 2, day := 28, hour := 23, minute := 59, second := 59 } })) (fun t => t.rtc.time == { year := 100, month := 3, day := 1 }),
    does (.rtcSecondTick) (rtcOf (fun r => { r with time := { second := 5 } })) (fun t => t.rtc.time.second == 5),
    does (.rtcSecondTick) (rtcOf (fun r => { r with oscRunning := true, alarmEn := true, alarm := 0x00800106#32, time := { hour := 1, minute := 5, second := 59 } })) (fun t => t.rtc.alarmHit && t.host.evt.held.length == 1),
    does (.rtcSecondTick) (rtcOf (fun r => { r with oscRunning := true, alarmEn := true, alarm := 0x00800107#32, time := { hour := 1, minute := 5, second := 59 } })) (fun t => !t.rtc.alarmHit)].all id = true := by decide +kernel
theorem test_osc : [
    does (.oscStop 3) (rtcOf (fun r => { r with oscRunning := true })) (fun t => !t.rtc.oscRunning && t.rtc.oscStopped && t.wur.mode == 0),
    does (.oscStop 3) (withWur (fun w => { w with mode := 2 }) up) (fun t => t.wur.mode == 3 && t.rtc.presc == 3),
    does (.oscResume) up (fun t => t.rtc.oscRunning && t.rtc.oscStopped)].all id = true := by decide +kernel

/-! Resets, the life cycle, the supplies. -/

theorem test_resets : [
    does (.powerOnReset) up (fun t => t.glb.resetCause == causePowerOn && t.life.wipeBusy),
    does (.perstAssert) up (fun t => t.life.wipeBusy && !t.life.perstN && t.glb.resetCause == 1#9 ||| causePerst),
    does (.perstRelease) (lifeOf (fun l => { l with perstN := false })) (fun t => t.life.perstN),
    does (.hotReset) up (fun t => t.life.wipeBusy && t.glb.resetCause == 1#9 ||| causeHot),
    does (.hotReset) (lifeOf (fun l => { l with refDrop := true })) (fun t => t.glb.resetCause == 1#9 ||| causeHot ||| causeRefLoss),
    does (.flr) up (fun t => t.life.wipeBusy && t.glb.resetCause == 1#9 ||| causeFlr),
    does (.sysReset 0x73400002#32) up (fun t => t.life.wipeBusy && t.glb.resetCause == 1#9 ||| causeHostCmd),
    does (.sysReset 0x73410002#32) up (fun t => !t.life.wipeBusy),
    does (.wdtAutoReset) { lifeOf (fun l => { l with fwState := .fault, faultAt := 7, lcWdt := 0x100#32 }) with now := 50000007 } (fun t => t.life.wipeBusy && t.glb.resetCause == 1#9 ||| causeWatchdog),
    does (.wdtAutoReset) { lifeOf (fun l => { l with fwState := .fault, faultAt := 7, lcWdt := 0x102#32 }) with now := 50000007 } (fun t => !t.life.wipeBusy),
    does (.thermalTrip) up (fun t => t.life.thermalHold && t.life.wipeBusy),
    does (.wipeEnd) (lifeOf (fun l => { l with wipeBusy := true, bivouacN := false })) (fun t => live t && t.life.bivouacN)].all id = true := by decide +kernel
theorem test_thermal : [
    does (.thermalHoldClear) (lifeOf (fun l => { l with thermalHold := true })) (fun t => !t.life.thermalHold),
    does (.thermalWarn true) up (fun t => t.glb.thermalWarn && t.host.evt.held.length == 1),
    does (.thermalWarn false) (withGlb (fun g => { g with thermalWarn := true }) up) (fun t => !t.glb.thermalWarn)].all id = true := by decide +kernel
theorem test_token : [
    does (.applyToken 0x73400001#32) (lifeOf (fun l => { l with tokenBusy := true })) (fun t => t.life.lcResult == 8),
    does (.applyToken 0x73400001#32) up (fun t => t.life.lcResult != 0 && !t.life.tokenBusy),
    does (.applyToken 0x73410001#32) up (fun t => t.life.lcResult == 0),
    does (.fuseProgramDone) (lifeOf (fun l => { l with fuseTarget := some 3, tokenBusy := true })) (fun t => t.life.lcState == 3 && t.life.wipeBusy)].all id = true := by decide +kernel
theorem test_load : [
    does (.fwlStart) (lifeOf (fun l => { l with thermalHold := true, fwState := .empty })) (fun t => t.life.fwlResult == 8),
    does (.fwlStart) (lifeOf (fun l => { l with fwState := .empty })) (fun t => t.life.fwState == .rejected && t.life.fwlResult != 0),
    does (.fwReady) (lifeOf (fun l => { l with fwState := .starting })) (fun t => t.life.fwState == .running && t.host.evt.held.length == 1 && t.free == 1)].all id = true := by decide +kernel
theorem test_supplies : [
    does (.bivouacNAssert) (lifeOf (fun l => { l with bivPrep := true, wakePend := 1 })) (fun t => !t.life.bivouacN && t.life.wakeOut),
    does (.supplyRemoval true) (lifeOf (fun l => { l with armed := true })) (fun t => !t.life.mainUp && !t.life.aonUp && t.rtc.locked),
    does (.supplyRemoval false) (lifeOf (fun l => { l with armed := true })) (fun t => !t.life.mainUp && t.life.aonUp && t.life.armed),
    does (.refLost) up (fun t => t.glb.refLost && t.life.refDrop && t.host.link == .recovery),
    does (.refReturn) (withGlb (fun g => { g with refLost := true }) up) (fun t => !t.glb.refLost && endpointUp t)].all id = true := by decide +kernel

/-! The host interface. -/

theorem test_doorbell : [
    does (.mbxDoorbell 7) (withLife (fun l => { l with fwState := .empty }) up) (fun t => (vget t.host.mbx 7).refuse == 2 && (vget t.host.mbx 7).status == 0xE0000000#32),
    does (.mbxDoorbell 7) up (fun t => (vget t.host.mbx 7).refuse == 3),
    does (.mbxDoorbell 7) (withCq 0 (fun q => { q with en := true }) up) (fun t => (vget t.host.mbx 7).status == 0xE0000001#32 && (vget t.host.mbx 7).cmds.length == 1),
    does (.mbxDoorbell 7) (withMbx 7 (fun b => { b with count := 0x1FFFFFFF }) (withCq 0 (fun q => { q with en := true }) up)) (fun t => (vget t.host.mbx 7).count == 1),
    does (.mbxDoorbell 0) (withMbx 0 (fun b => { b with cmds := List.replicate 256 {} }) (withCq 0 (fun q => { q with en := true }) up)) (fun t => (vget t.host.mbx 0).refuse == 1)].all id = true := by decide +kernel
theorem test_completion_queues : [
    does (.cqEnable 3) (withCq 3 (fun q => { q with sizeLog := 12 }) up) (fun t => (vget t.host.cq 3).en),
    does (.cqEnable 3) (withCq 3 (fun q => { q with sizeLog := 13 }) up) (fun t => !(vget t.host.cq 3).en),
    does (.cqDisable 3) (withCq 3 (fun q => { q with en := true }) up) (fun t => !(vget t.host.cq 3).en),
    does (.cqHeadWrite 3 5) up (fun t => (vget t.host.cq 3).head == 5),
    does (.cqHeadWrite 3 5) (withCq 3 (fun q => { q with en := true, sizeLog := 4, full := true, tail := 16, waiting := [{}] }) up) (fun t => (vget t.host.cq 3).waiting.isEmpty && !(vget t.host.cq 3).full),
    does (.completionWrite 3) (withCq 3 (fun q => { q with en := true, sizeLog := 4, waiting := [{}] }) up) (fun t => (vget t.host.cq 3).tail == 1 && (vget t.host.cq 3).waiting.isEmpty),
    does (.completionWrite 3) (withCq 3 (fun q => { q with en := true, sizeLog := 4, tail := 16, waiting := [{}] }) up) (fun t => (vget t.host.cq 3).full && t.host.evt.held.length == 1)].all id = true := by decide +kernel
theorem test_events : [
    does (.eventRaise .fwFault 0 []) (withEvt (fun w => { w with minSev := 3 }) up) (fun t => t.host.evt.filtered == 1 || t.host.evt.held.length == 1),
    does (.eventRaise .coexStuck 2 []) (withEvt (fun w => { w with minSev := 3 }) up) (fun t => t.host.evt.filtered == 1),
    does (.eventRaise .coexStuck 2 []) (withEvt (fun w => { w with en := true, sizeLog := 4 }) up) (fun t => t.host.evt.tail == 1),
    does (.eventRaise .coexStuck 2 []) up (fun t => t.host.evt.held.length == 1),
    does (.eventRaise .coexStuck 2 []) (withEvt (fun w => { w with held := List.replicate 64 (.ev {}) }) up) (fun t => t.host.evt.lost == 1 && t.host.evt.overflow),
    does (.eventWrite) (withEvt (fun w => { w with en := true, sizeLog := 4, held := [.ev {}, .lost 3] }) up) (fun t => t.host.evt.held.isEmpty && t.host.evt.tail == 2),
    does (.evtHeadWrite 9) up (fun t => t.host.evt.head == 9),
    does (.evtEnable) (withEvt (fun w => { w with sizeLog := 4, tail := 7 }) up) (fun t => t.host.evt.en && t.host.evt.tail == 0),
    does (.evtEnable) (withEvt (fun w => { w with sizeLog := 3 }) up) (fun t => !t.host.evt.en),
    does (.evtDisable) (withEvt (fun w => { w with en := true }) up) (fun t => !t.host.evt.en),
    does (.evtLostRead) (withEvt (fun w => { w with lost := 9 }) up) (fun t => t.host.evt.lost == 0),
    does (.evtFilteredRead) (withEvt (fun w => { w with filtered := 9 }) up) (fun t => t.host.evt.filtered == 0)].all id = true := by decide +kernel
theorem test_watchdog :
    does (.watchdogExpiry) (ask nopForm [] up) (fun t => t.life.fwState == .fault && (vget t.host.mbx 0).cmds.isEmpty) = true := by decide +kernel
theorem test_msix : [
    does (.coalesceTimeout 136) (withHost (fun h => { h with unsig := vset h.unsig 136 1 }) up) (fun t => vget t.host.unsig 136 == 0 || routeCount up 136 == 0),
    does (.coalesceTimeout 9) (withHost (fun h => { h with unsig := vset h.unsig 9 1 }) up) (fun t => vget t.host.unsig 9 == 0),
    does (.msixDeferredSend .recovery) up (fun t => t.host.link == .recovery),
    does (.msixDeferredSend .l1) up (fun t => t.host.link == .l0 4 .x8),
    does (.msixDeferredSend (.l0 0 .x1)) (withHost (fun h => { h with link := .recovery, deferred := [.write 64 [1], .msg 5], msixEn := true, msixTbl := vset h.msixTbl 23 0 }) up) (fun t => t.host.deferred.isEmpty && t.out.length == 2),
    does (.msixUnmask 63) up (fun t => vget t.host.msixTbl 255 == 0),
    does (.msixUnmask 63) (withHost (fun h => { h with pba := 1#64 <<< 63, msixEn := true }) up) (fun t => t.host.pba == 0 && t.out.length == 1)].all id = true := by decide +kernel

/-! Host data rings. -/

theorem test_hring : [
    does (.hringProdWrite true 63 64) (withHtx 63 (fun g => { g with en := true, sizeLog := 6 }) up) (fun t => (vget t.rings.htx 63).prod == 64 && !(vget t.rings.htx 63).halted),
    does (.hringProdWrite true 63 65) (withHtx 63 (fun g => { g with en := true, sizeLog := 6 }) up) (fun t => (vget t.rings.htx 63).halted && t.host.evt.held.length == 1),
    does (.hringEnable false 0) (withHrx 0 (fun g => { g with sizeLog := 14 }) up) (fun t => (vget t.rings.hrx 0).en),
    does (.hringEnable false 0) (withHrx 0 (fun g => { g with sizeLog := 15 }) up) (fun t => !(vget t.rings.hrx 0).en),
    does (.hringIdle true 0) up (fun t => (vget t.rings.htx 0).idle),
    does (.hringIdle true 0) (withHtx 0 (fun g => { g with en := true }) up) (fun t => !(vget t.rings.htx 0).idle),
    does (.hringDisable false 0) (withHrx 0 (fun g => { g with en := true }) up) (fun t => !(vget t.rings.hrx 0).en),
    does (.hringDisable true 0) (withHtx 0 (fun g => { g with en := true, sizeLog := 6, inflight := [{ id := 4 }] }) up) (fun t => !(vget t.rings.htx 0).en && (vget t.rings.htx 0).inflight.all (·.result.isSome)),
    does (.hringResume true 0) (withHtx 0 (fun g => { g with halted := true }) up) (fun t => !(vget t.rings.htx 0).halted),
    does (.hringResume true 0) (withHtx 0 (fun g => { g with halted := true, en := true, sizeLog := 6, prod := 64 }) up) (fun t => !(vget t.rings.htx 0).halted),
    does (.hringResume true 0) (withHtx 0 (fun g => { g with halted := true, en := true, sizeLog := 6, prod := 65 }) up) (fun t => (vget t.rings.htx 0).halted && t.host.evt.held.length == 1)].all id = true := by decide +kernel

/-! Harrow lanes: Tables 9.7, 9.8, R215 to R228. -/

theorem test_harrow_nop : [
    does (.harrowNop 2 .ok) (prog (kw 0 0 0 0)) (fun t => (lane 2 t).pc == 1 && (lane 2 t).steps == 1),
    does (.harrowNop 2 .ok) (prog (kw 0 0 0 0 + 2 ^ 32)) (fun t => (lane 2 t).phase == .ended 1),
    does (.harrowNop 2 .ok) (prog (kw 0x10 0 0 0)) (fun t => (lane 2 t).phase == .ended 1),
    does (.harrowNop 2 .ok) (prog (kw 0x7F 0 0 0)) (fun t => (lane 2 t).phase == .ended 1),
    does (.harrowNop 2 .ok) (prog 0 (fun x => { x with pc := 8192 })) (fun t => (lane 2 t).phase == .ended 1),
    does (.harrowNop 2 .ok) (prog 0 (fun x => { x with pc := 2048, fallback := true })) (fun t => (lane 2 t).phase == .ended 2),
    does (.harrowNop 2 .retried) (prog 0) (fun t => (lane 2 t).pc == 1 && vget t.harrow.ctr 6 == 1),
    does (.harrowNop 2 .residue) (prog 0) (fun t => (lane 2 t).whole || (lane 2 t).fallback || vget t.harrow.ctr 6 == 1),
    does (.harrowNop 2 (.memory 0 8191)) (prog 0) (fun t => vget (lane 2 t).memFenced 0)].all id = true := by decide +kernel
theorem test_halt : does (.halt 2 .ok) (prog (kw 1 0 0 0)) (fun t => (lane 2 t).pc == 1 && (lane 2 t).phase != .program) = true := by decide +kernel
theorem test_loop : [
    does (.loop 2 .ok) (prog (kw 2 4 0 63)) (fun t => (lane 2 t).pc == 65 && (lane 2 t).f.loops.isEmpty),
    does (.loop 2 .ok) (prog (kw 2 4 0 63) (sc 4 9)) (fun t => (lane 2 t).pc == 1 && (lane 2 t).f.loops == [{ start := 1, last := 64, left := 9 }]),
    does (.loop 2 .ok) (prog (kw 2 4 0 2) (fun x => { sc 4 9 x with f := { (sc 4 9 x).f with loops := [{ last := 3, left := 1 }] } })) (fun t => (lane 2 t).f.loops.length == 2),
    does (.loop 2 .ok) (prog (kw 2 4 0 3) (fun x => { sc 4 9 x with f := { (sc 4 9 x).f with loops := [{ last := 3, left := 1 }] } })) (fun t => (lane 2 t).phase == .ended 1),
    does (.loop 2 .ok) (prog (kw 2 4 0 0) (fun x => { x with f := { x.f with loops := [{ last := 3 }, { last := 3 }] } })) (fun t => (lane 2 t).phase == .ended 1)].all id = true := by decide +kernel
theorem test_br : [
    does (.br 2 .ok) (prog (kw 3 0 0 8191)) (fun t => (lane 2 t).pc == 8191 && (lane 2 t).steps == 2),
    does (.br 2 .ok) (prog (kw 3 15 1 8)) (fun t => (lane 2 t).pc == 8),
    does (.br 2 .ok) (prog (kw 3 15 2 8)) (fun t => (lane 2 t).pc == 1 && (lane 2 t).steps == 1),
    does (.br 2 .ok) (prog (kw 3 15 3 8) (sc 15 0x80000000#32)) (fun t => (lane 2 t).pc == 8),
    does (.br 2 .ok) (prog (kw 3 0 0 8) (fun x => { x with f := { x.f with loops := [{ last := 9, left := 2 }] } })) (fun t => (lane 2 t).phase == .ended 1)].all id = true := by decide +kernel
theorem test_scalars : [
    does (.sli 2 .ok) (prog (kw 4 15 0 0xFFFFFFFF)) (fun t => sreg (lane 2 t) 15 == 0xFFFFFFFF#32),
    does (.sadd 2 .ok) (prog (kw 5 1 1 1) (sc 1 0xFFFFFFFF#32)) (fun t => sreg (lane 2 t) 1 == 0),
    does (.sli 2 .ok) (prog (kw 4 16 0 1)) (fun t => (lane 2 t).phase == .ended 1)].all id = true := by decide +kernel
theorem test_pset : [
    does (.pset 2 .ok) (prog (kw 6 7 0 16383)) (fun t => (preg (lane 2 t) 7).base == 16383),
    does (.pset 2 .ok) (prog (kw 6 7 1 16384)) (fun t => (preg (lane 2 t) 7).len == 16384),
    does (.pset 2 .ok) (prog (kw 6 7 2 8192)) (fun t => (preg (lane 2 t) 7).step == -8192),
    does (.pset 2 .ok) (prog (kw 6 7 3 15)) (fun t => (preg (lane 2 t) 7).mode == 3 && (preg (lane 2 t) 7).mem == 3),
    does (.pset 2 .ok) (prog (kw 6 7 4 16383)) (fun t => (preg (lane 2 t) 7).addr == 16383)].all id = true := by decide +kernel
theorem test_xfer : [
    does (.xfer 2 .ok) (prog (kw 7 3 0 8)) (fun t => (lane 2 t).phase == .ended 2 || (vget (lane 2 t).chan 3).isSome),
    does (.xfer 2 .ok) (prog (kw 7 3 0 8) (fun x => { x with chan := vset x.chan 3 (some {}) })) (fun t => (lane 2 t).pc == 0 && (lane 2 t).steps == 0),
    does (.xwait 2 .ok) (prog (kw 8 3 0 0) (fun x => { x with chan := vset x.chan 3 (some {}) })) (fun t => (lane 2 t).wait == some 3)].all id = true := by decide +kernel
theorem test_interrupts : [
    does (.swi 2 .ok) (prog (kw 9 0 0 0)) (fun t => (lane 2 t).pend == 4),
    does (.rti 2 .ok) (prog (kw 10 0 0 0) (fun x => { x with handler := true, saved := 44 })) (fun t => (lane 2 t).pc == 44 && !(lane 2 t).handler),
    does (.rti 2 .ok) (prog (kw 10 0 0 0)) (fun t => (lane 2 t).phase == .ended 1),
    does (.tset 2 .ok) (prog (kw 11 0 0 50)) (fun t => (lane 2 t).timer == some 51),
    does (.tset 2 .ok) (prog (kw 11 0 0 0) (fun x => { x with timer := some 9 })) (fun t => (lane 2 t).timer == none),
    does (.stepTimerExpiry 2) (prog 0 (fun x => { x with timer := some 9, steps := 9 })) (fun t => (lane 2 t).pend == 2 && (lane 2 t).timer.isNone),
    does (.interruptTaken 2) (prog 0 (fun x => { x with pend := 5, pc := 33 })) (fun t => (lane 2 t).pc == 7 && (lane 2 t).saved == 33 && (lane 2 t).pend == 4)].all id = true := by decide +kernel
theorem test_special : [
    does (.expclr 2 .ok) (prog (kw 12 0 0 0) (fun x => { x with expr := 2 })) (fun t => (lane 2 t).expr == 15),
    does (.expget 2 .ok) (prog (kw 13 15 0 0) (fun x => { x with expr := 6 })) (fun t => sreg (lane 2 t) 15 == 6),
    does (.idxset 2 .ok) (prog (kw 14 0 0 0xFFFFFFFF) (fun x => { x with maxv := some (1, 1) })) (fun t => (lane 2 t).ibase == 0xFFFFFFFF#32 && (lane 2 t).maxv.isNone),
    does (.mmget 2 .ok) (prog (kw 15 15 3 0)) (fun t => sreg (lane 2 t) 15 == 0xFFFFFFFF#32),
    does (.mmget 2 .ok) (prog (kw 15 15 0 0) (fun x => { x with maxv := some (5, 6) })) (fun t => sreg (lane 2 t) 15 == 5)].all id = true := by decide +kernel
theorem test_move : [
    does (.move 2 .ok) (prog (vw 0x20 0 0 0 0)) (fun t => (lane 2 t).pc == 1),
    does (.move 2 .ok) (prog (vw 0x20 0 0 0 0 + 1)) (fun t => (lane 2 t).phase == .ended 1),
    does (.move 2 .ok) (prog (vw 0x20 0 0 0 0 + 2 ^ 27 * (4096 + 2048 + 3 * 8 + 1)) (v 3 0x00020001#32)) (fun t => memByte (vget (lane 2 t).mem 0) 0 == 1 && (preg (lane 2 t) 0).addr != 0)].all id = true := by decide +kernel
theorem test_vadd : [
    does (.vadd 2 .ok) (prog (vw 0x21 31 1 2 0) (fun x => v 1 (element 32767 5) (v 2 (element 1 (-6)) x))) (fun t => e7 31 t == element 32767 (-1) && (lane 2 t).sat),
    does (.vsub 2 .ok) (prog (vw 0x22 31 1 2 0) (fun x => v 1 (element (-32768) 5) (v 2 (element 1 6) x))) (fun t => e7 31 t == element (-32768) (-1) && (lane 2 t).sat)].all id = true := by decide +kernel
theorem test_vmuln : [
    does (.vmuln 2 .ok) (prog (vw 0x23 31 1 2 0) (fun x => v 1 (element 0x4000 0) (v 2 (element 0x4000 0x2000) x))) (fun t => e7 31 t == element 0x2000 0x1000 && !(lane 2 t).sat),
    does (.vmulcn 2 .ok) (prog (vw 0x24 31 1 2 0) (fun x => v 1 (element 0x4000 0) (v 2 (element 0x4000 0x2000) x))) (fun t => e7 31 t == element 0x2000 (-0x1000))].all id = true := by decide +kernel
theorem test_vmac : [
    does (.vmac 2 .ok) (prog (vw 0x25 0 1 2 3) (fun x => v 1 (element 3 4) (v 2 (element 5 6) x))) (fun t => accEl (areg (lane 2 t) 3) 7 == (BitVec.ofInt 40 (-9), 38#40)),
    does (.vmacc 2 .ok) (prog (vw 0x26 0 1 2 3) (fun x => v 1 (element 3 4) (v 2 (element 5 6) x))) (fun t => accEl (areg (lane 2 t) 3) 7 == (39#40, 2#40)),
    does (.vmsu 2 .ok) (prog (vw 0x27 0 1 2 3) (fun x => v 1 (element 3 4) (v 2 (element 5 6) x))) (fun t => accEl (areg (lane 2 t) 3) 7 == (9#40, BitVec.ofInt 40 (-38))),
    does (.vmac 2 .ok) (prog (vw 0x25 0 1 2 3) (fun x => ac 3 0x7FFFFFFFFF#40 0 (v 1 (element 3 0) (v 2 (element 5 0) x)))) (fun t => (accEl (areg (lane 2 t) 3) 7).1 == 0x7FFFFFFFFF#40 && (lane 2 t).aov)].all id = true := by decide +kernel
theorem test_vmul0 : [
    does (.vmul0 2 .ok) (prog (vw 0x28 0 1 2 1) (fun x => ac 1 7 7 (v 1 (element 3 4) (v 2 (element 5 6) x)))) (fun t => accEl (areg (lane 2 t) 1) 7 == (BitVec.ofInt 40 (-9), 38#40)),
    does (.vdotc 2 .ok) (prog (vw 0x29 0 1 2 1) (fun x => ac 1 7 7 (v 1 (element 3 4) (v 2 (element 5 6) x)))) (fun t => accEl (areg (lane 2 t) 1) 0 == (319#40, 23#40) && accEl (areg (lane 2 t) 1) 7 == (7#40, 7#40))].all id = true := by decide +kernel
theorem test_vnrw : [
    does (.vnrw 2 .ok) (prog (vw 0x2A 5 0 12 2) (ac 2 0x5800#40 0x4800#40)) (fun t => e7 5 t == element 6 4),
    does (.vnrw 2 .ok) (prog (vw 0x2A 5 0 12 2) (ac 2 0x4801#40 0xFFFFFFB800#40)) (fun t => e7 5 t == element 5 (-4) && !(lane 2 t).sat),
    does (.vnrw 2 .ok) (prog (vw 0x2A 5 0 12 2) (ac 2 0x8000000#40 0)) (fun t => e7 5 t == element 0x7FFF 0 && (lane 2 t).sat)].all id = true := by decide +kernel
theorem test_vsha : [
    does (.vsha 2 .ok) (prog (vw 0x2B 5 1 2 0) (v 1 (element (-0x2000) 0x123))) (fun t => e7 5 t == element (-0x8000) 0x48C && !(lane 2 t).sat),
    does (.vsha 2 .ok) (prog (vw 0x2B 5 1 31 0) (v 1 (element 5 (-5)))) (fun t => e7 5 t == element 2 (-2))].all id = true := by decide +kernel
theorem test_vconj : [
    does (.vconj 2 .ok) (prog (vw 0x2C 5 1 0 0) (v 1 (element 5 (-32768)))) (fun t => e7 5 t == element 5 32767 && (lane 2 t).sat),
    does (.vneg 2 .ok) (prog (vw 0x2D 5 1 0 0) (v 1 (element 5 (-6)))) (fun t => e7 5 t == element (-5) 6)].all id = true := by decide +kernel
theorem test_vbfly : [
    does (.vbfly 2 .ok) (prog (vw 0x2E 4 1 2 0) (fun x => v 1 (element 5 5) (v 2 (element 2 7) x))) (fun t => e7 4 t == element 7 12 && e7 5 t == element 3 (-2)),
    does (.vbfly 2 .ok) (prog (vw 0x2E 4 1 2 1) (fun x => v 1 (element 5 5) (v 2 (element 2 7) x))) (fun t => e7 4 t == element 4 6 && e7 5 t == element 2 (-1)),
    does (.vbfly 2 .ok) (prog (vw 0x2E 5 1 2 1)) (fun t => (lane 2 t).phase == .ended 1)].all id = true := by decide +kernel
theorem test_vperm : [
    does (.vperm 2 .ok) (prog (vw 0x2F 5 1 0 0) (setV 1 #v[10, 11, 12, 13, 14, 15, 16, 17])) (fun t => vreg (lane 2 t) 5 == #v[17, 16, 15, 14, 13, 12, 11, 10]),
    does (.vperm 2 .ok) (prog (vw 0x2F 5 1 15 0) (setV 1 #v[10, 11, 12, 13, 14, 15, 16, 17])) (fun t => vreg (lane 2 t) 5 == Vector.replicate 8 17),
    does (.vperm 2 .ok) (prog (vw 0x2F 5 1 4 0)) (fun t => (lane 2 t).phase == .ended 1)].all id = true := by decide +kernel
theorem test_bexp : [
    does (.bexp 2 .ok) (prog (vw 0x30 0 1 0 0) (v 1 (element 0x123 0x40))) (fun t => (lane 2 t).expr == 6),
    does (.bexp 2 .ok) (prog (vw 0x30 0 1 0 0) (fun x => { v 1 (element (-0x2000) 0) x with expr := 6 })) (fun t => (lane 2 t).expr == 2)].all id = true := by decide +kernel
theorem test_vmaxi : [
    does (.vmaxi 2 .ok) (prog (vw 0x31 1 1 0 0) (setV 1 #v[10, 17, 12, 17, 14, 15, 16, 17])) (fun t => (lane 2 t).maxv == some (17, 1) && (lane 2 t).ibase == 8),
    does (.vmini 2 .ok) (prog (vw 0x32 0 1 2 0) (setV 1 #v[10, 17, 12, 17, 14, 15, 16, 17])) (fun t => (lane 2 t).minv == some (100, 0) && (lane 2 t).ibase == 0),
    does (.vmini 2 .ok) (prog (vw 0x32 2 1 2 0)) (fun t => (lane 2 t).phase == .ended 1)].all id = true := by decide +kernel
theorem test_seeds : [
    does (.vrcp 2 .ok) (prog (vw 0x33 5 1 0 0) (v 1 (element 0x3FFF 0))) (fun t => e7 5 t == element 0x7FFF 0 && (lane 2 t).sat),
    does (.vrsq 2 .ok) (prog (vw 0x34 5 1 0 0) (v 1 (element 0x1FFF 0))) (fun t => e7 5 t == element 0x7FFF 0 && (lane 2 t).sat),
    does (.vrcp 2 .ok) (prog (vw 0x33 5 1 0 0) (v 1 (element 0x4000 0))) (fun t => !(lane 2 t).sat && (lane 2 t).pc == 1)].all id = true := by decide +kernel
theorem test_vsplat : [
    does (.vsplat 2 .ok) (prog (vw 0x35 5 15 0 0) (sc 15 0x12345678#32)) (fun t => e7 5 t == 0x12345678#32),
    does (.vsplat 2 .ok) (prog (vw 0x35 5 16 0 0)) (fun t => (lane 2 t).phase == .ended 1)].all id = true := by decide +kernel

/-! Jobs, transfers and leases. -/

theorem test_job_start : [
    does (.jobStart 2 (some 1) []) (withDram (fun d => d) up) (fun t => (lane 2 t).bjob == some 1),
    does (.jobStart 1 none []) (withLease 0 (fun e => { e with slots := [some 1], queue := [{ handle := 9, budget := 5 }] }) leased) (fun t => ((lane 1 t).job.map (·.handle)) == some 9)].all id = true := by decide +kernel
theorem test_job_complete : [
    does (.jobComplete 2 .ok) (prog 0 (fun x => { x with phase := .outbound })) (fun t => (lane 2 t).job.isNone),
    does (.jobComplete 2 .ok) (prog 0 (fun x => { x with phase := .ended 3 })) (fun t => (lane 2 t).job.isNone),
    does (.jobComplete 2 .ok) (withLane 2 (fun x => { x with bjob := some 1 }) up) (fun t => (lane 2 t).bjob.isNone && vget t.harrow.ctr 0 == 1)].all id = true := by decide +kernel
theorem test_telemetry : [
    does (.canaryMeasure 15 77) { up with now := 500000 } (fun t => vget t.rel.canaryPs 15 == 77),
    does (.telemSteal 2 78) { prog 0 with now := 5500000 } (fun t => vget t.rel.canaryPs 2 == 78 && vget t.harrow.ctr 9 == 1),
    does (.laneWipeDone 2) (withLane 2 (fun x => { sc 3 9 x with wiping := true }) up) (fun t => !(lane 2 t).wiping && sreg (lane 2 t) 3 == 0),
    does (.dmaTransferDone 2 3 []) (prog 0 (fun x => { x with chan := vset x.chan 3 (some {}), wait := some 3 })) (fun t => (vget (lane 2 t).chan 3).isNone && (lane 2 t).wait.isNone)].all id = true := by decide +kernel
theorem test_job_budget :
    does (.jobBudget 2) (prog 0 (fun x => { x with steps := 1000 })) (fun t => (lane 2 t).phase == .ended 3 && t.host.evt.held.length == 1) = true := by decide +kernel

/-! Radios (R86 to R112). -/

theorem test_coexistence : [
    does (.coexReqChange .a true) (withFe 0 (fun e => e) { air with coex := { air.coex with toggle := 0, ctrl := 1 } }) (fun t => (vget t.fe 0).req && (vget t.fe 0).gnt && vget t.coex.grants 0 == 1),
    does (.coexReqChange .a false) (feOf 0 (fun e => { e with req := true, gnt := true, hold := true })) (fun t => !(vget t.fe 0).req && !(vget t.fe 0).gnt && !(vget t.fe 0).hold),
    does (.coexReqChange .a false) air (fun t => !(vget t.fe 0).req),
    does (.coexPriChange .c true) air (fun t => (vget t.fe 2).pri),
    does (.coexGrantsRead .b) { air with coex := { air.coex with grants := #v[1, 2, 3] } } (fun t => t.coex.grants == #v[1, 0, 3]),
    does (.coexStuck .b) (withFe 1 (fun e => { e with req := true, gnt := true }) { air with now := 5000000, coex := { air.coex with ctrl := 7 } }) (fun t => (vget t.fe 1).hold && !(vget t.fe 1).gnt && t.coex.stuck == 2 && t.host.evt.held.length == 1)].all id = true := by decide +kernel
theorem test_radio_state : [
    does (.radioStateApply .b) (feOf 1 (fun e => { e with stateReq := [(9, .rx, .rx)] })) (fun t => (vget t.fe 1).stateReq.isEmpty && (vget t.fe 1).stateRun.isNone),
    does (.radioStateApply .b) (feOf 1 (fun e => { e with stateReq := [(9, .standby, .rx)] })) (fun t => (vget t.fe 1).trans == some .standby && (vget t.fe 1).stateRun == some 9),
    does (.radioTransitionEnd .b) (feOf 1 (fun e => { e with state := .standby, trans := some .rx, stateRun := some 9 })) (fun t => (vget t.fe 1).state == .rx && (vget t.fe 1).stateRun.isNone),
    does (.radioAutoWake .b false) (feOf 1 (fun e => { e with state := .standby })) (fun t => (vget t.fe 1).trans == some .rx)].all id = true := by decide +kernel
theorem test_calibration : [
    does (.synTempSample .a (-5)) (withFe 0 (fun e => { e with segValid := Vector.replicate 4 true }) up) (fun t => (vget t.fe 0).temp == -5 && vget (vget t.fe 0).segValid 0),
    does (.synTempSample .a 120) (withFe 0 (fun e => { e with segValid := Vector.replicate 4 true }) up) (fun t => !vget (vget t.fe 0).segValid 0 && (vget t.fe 0).calPending.isNone),
    does (.synTempSample .a 120) (feOf 0 (fun e => { e with segValid := Vector.replicate 4 true })) (fun t => (vget t.fe 0).calPending.isSome),
    does (.calPendingStart .a) (feOf 0 (fun e => { e with calPending := some 0 })) (fun t => (vget t.fe 0).trans == some .standby && (vget t.fe 0).goal == some .calibrate),
    does (.calPendingStart .a) (feOf 0 (fun e => { e with state := .standby, calPending := some 0 })) (fun t => (vget t.fe 0).cal.isSome && vget (vget t.fe 0).ctr 3 == 1),
    does (.calForced .a) { feOf 0 (fun e => { e with state := .standby, calPending := some 0 }) with now := 10000000 } (fun t => (vget t.fe 0).cal.isSome && vget (vget t.fe 0).ctr 6 == 1),
    does (.synCalEnd .a) (feOf 0 (fun e => { e with state := .cal, cal := some { cause := .temp } })) (fun t => (vget t.fe 0).cal.isNone && vget (vget t.fe 0).segValid 0 && t.host.evt.held.length == 1)].all id = true := by decide +kernel
theorem test_channel : [
    does (.channelSwitch .a 0) (feOf 0 (fun e => { e with segValid := Vector.replicate 4 true, chanReq := some { centre := 2437 } })) (fun t => (vget t.fe 0).centre == 2437 && (vget t.fe 0).sw.isSome),
    does (.derateResearch .c 15) (withChain 2 15 (fun c => { c with st := .derated6, fresh := 5 }) { air with now := 30000000000 }) (fun t => (vget (vget t.fe 2).chains 15).judge && (vget (vget t.fe 2).chains 15).fresh == 0)].all id = true := by decide +kernel

/-! Supply requests and the Headland (R17, R18, R26 to R30). -/

theorem test_avs : [
    does (.canaryReplan 700) up (fun t => t.power.canaryMv == 722 && t.power.writePend && t.out == [.avs 722]),
    does (.canaryReplan 900) (withGlb (fun g => { g with avsPause := true }) up) (fun t => t.power.request == 880 && !t.power.writePend),
    does (.avsFault) { withPower (fun p => { p with writePend := true }) up with now := 500000 } (fun t => t.glb.avsFault && t.glb.avsPause && t.host.evt.held.length == 1),
    does (.avsFault) { withGlb (fun g => { g with avsFault := true }) (withPower (fun p => { p with writePend := true }) up) with now := 500000 } (fun t => t.glb.avsPause && t.host.evt.held.isEmpty),
    does (.avsPauseEnd) { withGlb (fun g => { g with avsPause := true }) up with now := 500000000 } (fun t => !t.glb.avsPause),
    does (.avsAck 812) (withGlb (fun g => { g with avsFault := true }) (withPower (fun p => { p with writePend := true }) up)) (fun t => t.power.readback == 812 && !t.glb.avsFault),
    does (.canarySample [5]) up (fun t => vget t.rel.canaryPs 0 == 5 && vget t.rel.canaryPs 1 == 0)].all id = true := by decide +kernel
theorem test_headland : [
    does (.hlEvaluate .c) (hlOf 2 (fun h => { h with evals := 1, slacks := [3000] })) (fun t => (vget t.hl 2).evals == 2 && (vget t.hl 2).p1 == some 3000),
    does (.hlEvaluate .c) up (fun t => (vget t.hl 2).evals == 0),
    does (.hlUndo .c) { hlOf 2 (fun h => { h with evals := 2, p1 := some 60000, userLimit := 37 }) with now := 15000000000 } (fun t => (vget t.hl 2).userLimit > 37 || t.host.evt.held.length == 1),
    does (.hlUndo .c) (hlOf 2 (fun h => { h with p1 := none })) (fun t => (vget t.hl 2).userLimit == 148)].all id = true := by decide +kernel
theorem test_headland_undo_window : [
    does (.hlUndo .c) { hlOf 2 (fun h => { h with evals := 2, p1 := some 60000, baLimit := 64 }) with now := 15000000000 } (fun t => (vget t.hl 2).baLimit == 256),
    does (.hlUndo .c) { hlOf 2 (fun h => { h with evals := 2, p1 := some 60000, baLimit := 256 }) with now := 15000000000 } (fun t => (vget t.hl 2).baLimit == 1024 && (vget t.hl 2).goodAt == 15000000000),
    does (.hlUndo .c) { hlOf 2 (fun h => { h with evals := 2, p1 := some 60000, baLimit := 256 }) with now := 14999999999 } (fun t => (vget t.hl 2).baLimit == 256)].all id = true := by decide +kernel

/-! The PHY (R114 to R128). -/

theorem test_preamble : [
    does (.preambleDetect .a ⟨(-164), []⟩ false) air (fun t => (vget t.phy 0).rx.isSome && vget (vget t.phy 0).ctr 0 == 1),
    does (.preambleDetect .a ⟨(-165), []⟩ false) air (fun t => (vget t.phy 0).rx.isNone),
    does (.preambleDetect .b ⟨(-100), []⟩ true) air (fun t => (vget t.phy 1).rx.isNone),
    does (.searchResume .a) (phyOf 0 (fun p => { p with rx := some { failed := true } })) (fun t => (vget t.phy 0).rx.isNone),
    does (.restartDecision .a ⟨(-148), []⟩ []) (phyOf 0 (fun p => { p with rx := some { refPow := -160 } })) (fun t => vget (vget t.phy 0).ctr 2 == 1 && ((vget t.phy 0).rx.map (·.refPow)) == some (-148)),
    does (.restartDecision .a ⟨(-149), []⟩ []) (phyOf 0 (fun p => { p with rx := some { refPow := -160 } })) (fun t => vget (vget t.phy 0).ctr 2 == 0)].all id = true := by decide +kernel
theorem test_decode : [
    does (.ldpcDecode .a { code := 0, fmt := 5, mcs := 0, streams := 1, stream := 0, mid := 0, lltf := [], tones := [], pilots := [] } 65) air (fun t => vget (vget t.phy 0).ctr 15 == 1 && vget (vget t.phy 0).ctr 17 == 1 && (vget t.phy 0).ldpcCut),
    does (.ldpcDecode .a { code := 0, fmt := 5, mcs := 0, streams := 1, stream := 0, mid := 0, lltf := [], tones := [], pilots := [] } 15) (phyOf 0 (fun p => { p with ldpcCut := true })) (fun t => !(vget t.phy 0).ldpcCut && vget (vget t.phy 0).ctr 15 == 1),
    does (.sigValidate .b { sig with parity := false }) (phyOf 1 (fun p => { p with rx := some {} })) (fun t => ((vget t.phy 1).rx.map (·.failed)) == some true),
    does (.sigValidate .b sig) (phyOf 1 (fun p => { p with rx := some {} })) (fun t => ((vget t.phy 1).rx.map fun x => (x.valid, x.endAt)) == some (true, 100000) && vget (vget t.phy 1).ctr 4 == 1)].all id = true := by decide +kernel

/-! Medium access (R145 to R183). -/

theorem test_addba : [
    does (.addbaRequest 47 1 0 9) (sta5 air) (fun t => ((kget t.mac.ba 47).map (·.win)) == some 1024 && ((kget t.mac.ba 47).map (·.start)) == some 9),
    does (.addbaRequest 47 1 64 9) (sta5 (withMac (fun m => { m with baDef := vset m.baDef 7 { accept := false } }) air)) (fun t => t.mac.ba.isEmpty && vget (vget t.mac.radio 0).ctr 14 + vget (vget t.mac.radio 1).ctr 14 + vget (vget t.mac.radio 2).ctr 14 == 1)].all id = true := by decide +kernel
theorem test_twt : [
    does (.twtSetupRequest 5 1 7 100 ⟨50, 0⟩ false) (sta5 { air with mac := { air.mac with bss := Vector.replicate 48 { twtInd := true, twtMinWake := 100, twtMaxSp := 50 } } }) (fun t => khas t.mac.twt 47),
    does (.twtSetupRequest 5 1 7 99 ⟨50, 0⟩ false) (sta5 { air with mac := { air.mac with bss := Vector.replicate 48 { twtInd := true, twtMinWake := 100, twtMaxSp := 50 } } }) (fun t => t.mac.twt.isEmpty),
    does (.twtSpStart 47) (withMac (fun m => { m with twt := [(47, { len := 200 })] }) (sta5 air)) (fun t => ((kget t.mac.sta 5).map (·.sp.isSome)) == some true && vget (vget t.mac.radio 0).ctr 20 == 1),
    does (.saQuery 5 7) (sta5 air) (fun t => t != sta5 air)].all id = true := by decide +kernel
theorem test_tbtt : [
    does (.tbtt 16 ()) air (fun t => !(vget t.mac.bss 16).bcnDue),
    does (.tbtt 16 ()) (withFe 1 (fun e => { e with txopHeld := true }) (withBss 16 (fun b => { b with en := true, beacon := true, dtim := 3, dtimCount := 0, template := some {} }) air)) (fun t => (vget t.mac.bss 16).bcnDue && (vget t.mac.bss 16).dtimCount == 2),
    does (.tbtt 16 ()) (withBss 16 (fun b => { b with en := true, beacon := true, lastTbtt := some 5, template := some {} }) air) (fun t => vget t.time.ctr 9 == 1),
    does (.tbtt 16 ()) { withRm 1 (fun m => { m with idleAt := some 0 }) (withBss 16 (fun b => { b with en := true, beacon := true, template := some {} }) air) with now := 20000 } (fun t => (vget t.mac.radio 1).txNext.length == 1),
    does (.bcnDeferred .b) { withRm 1 (fun m => { m with idleAt := some 0 }) (withBss 16 (fun b => { b with en := true, beacon := true, bcnDue := true, template := some {} }) air) with now := 20000 } (fun t => vget (vget t.mac.radio 1).ctr 16 == 1)].all id = true := by decide +kernel
theorem test_uplink_beacons : [
    does (.uplBeaconWindowEnd .b) (macOf 1 (fun m => { m with uplink := some { misses := 1, expect := some 0 } })) (fun t => ((vget t.mac.radio 1).uplink.map (·.misses)) == some 1),
    does (.uplBeaconWindowEnd .b) (withTb 2 (fun b => { b with sec := 1 }) (macOf 1 (fun m => { m with uplink := some { misses := 1, expect := some 0 } }))) (fun t => ((vget t.mac.radio 1).uplink.map (·.misses)) == some 2 && vget (vget t.mac.radio 1).ctr 22 == 1),
    does (.uplBeaconWindowEnd .b) (withTb 2 (fun b => { b with sec := 1 }) (macOf 1 (fun m => { m with uplink := some { misses := 2, expect := some 0 } }))) (fun t => ((vget t.mac.radio 1).uplink.map (·.lost)) == some true && t.host.evt.held.length == 1)].all id = true := by decide +kernel

/-! Reception (R14, R121, R153 to R165). -/

theorem test_mpdu : [
    does (.mpduRx .b (mpdu .cts)) air (fun t => vget (vget t.phy 1).ctr 9 == 0),
    does (.mpduRx .b { mpdu .cts with overflow := true }) rxing (fun t => (vget t.phy 1).rx.isNone || vget (vget t.phy 1).ctr 14 == 1),
    does (.mpduRx .b (mpdu .cts)) (rxing { users := [default] }) (fun t => vget (vget t.phy 1).ctr 9 == 0),
    does (.mpduRx .b (mpdu .data 4096)) (rxing { valid := true, users := [default] }) (fun t => vget (vget t.phy 1).ctr 13 == 1),
    does (.mpduRx .b (mpdu .data 4095)) (rxing { valid := true, users := [default] }) (fun t => vget (vget t.phy 1).ctr 13 == 0),
    does (.mpduRx .b (mpdu .data 13)) rxing (fun t => vget (vget t.phy 1).ctr 12 == 1),
    does (.mpduRx .b { mpdu .data 14 with fcsOk := false }) rxing (fun t => vget (vget t.phy 1).ctr 10 == 1),
    does (.mpduRx .b { mpdu .cts 14 with ra := [2, 0, 0, 0, 0, 1] }) rxing (fun t => ((vget t.phy 1).rx.map (·.got.length)) == some 1 && vget (vget t.phy 1).ctr 9 == 1),
    does (.mpduRx .b { mpdu .data with old := true }) (phyOf 1 (fun p => { p with tail := some { valid := true, fmt := 3, users := [{ (default : UserSig) with nss := 1 }], due := 1 } })) (fun t => (vget t.phy 1).tail.isNone && vget (vget t.phy 1).ctr 9 == 1),
    does (.mpduRx .b { mpdu .data with old := true }) rxing (fun t => vget (vget t.phy 1).ctr 9 == 0),
    does (.mpduRx .b { mpdu .data with start := 6500631 }) (rxing { valid := true, fmt := 5, users := [{ (default : UserSig) with nss := 1 }] }) (fun t => vget (vget t.phy 1).ctr 14 == 1)].all id = true := by decide +kernel
theorem test_nav : [
    does (.rxPpduEnd .b ppduEnd) (rxing { valid := true, fmt := 3, got := [mpdu .rts] }) (fun t => (vget t.mac.radio 1).navBasic == some [7] && (vget t.mac.radio 1).navBasicEnd == 50000 && (vget t.mac.radio 1).navRts == some false),
    does (.rxPpduEnd .b ppduEnd) (withRm 1 (fun m => { m with navBasic := some [9], navBasicEnd := 50000 }) (rxing { valid := true, fmt := 3, got := [mpdu .rts] })) (fun t => (vget t.mac.radio 1).navBasic == some [9] && vget (vget t.mac.radio 1).ctr 18 == 0),
    does (.navRtsTimeout .b) (macOf 1 (fun m => { m with navRts := some false, navBasic := some [9] })) (fun t => (vget t.mac.radio 1).navBasic.isNone),
    does (.navRtsTimeout .b) (macOf 1 (fun m => { m with navRts := some true, navIntra := some [9], navBasic := some [9] })) (fun t => (vget t.mac.radio 1).navIntra.isNone && (vget t.mac.radio 1).navBasic.isSome),
    does (.navExpiry .b true) (macOf 1 (fun m => { m with navIntra := some [9] })) (fun t => (vget t.mac.radio 1).navIntra.isNone),
    does (.navExpiry .b false) (macOf 1 (fun m => { m with navBasic := some [9] })) (fun t => (vget t.mac.radio 1).navBasic.isNone)].all id = true := by decide +kernel
theorem test_ppdu_end : [
    does (.rxPpduEnd .b ppduEnd) air (fun t => vget (vget t.phy 1).ctr 11 == 0),
    does (.rxPpduEnd .b ppduEnd) rxing (fun t => (vget t.phy 1).rx.isNone && vget (vget t.phy 1).ctr 11 == 3 && !(vget t.fe 1).owesResp),
    does (.rxPpduEnd .b { ppduEnd with asks := 1, due := 1 }) rxing (fun t => (vget t.fe 1).owesResp && (vget t.mac.radio 1).commit == some 6400 && (vget t.phy 1).tail.isSome)].all id = true := by decide +kernel
theorem test_response : [
    does (.responderComplete .b ()) { macOf 1 (fun m => { m with commit := some 159 }) with now := 9 } (fun t => (vget t.mac.radio 1).respDone == some 300),
    does (.responderComplete .b ()) air (fun t => (vget t.mac.radio 1).respDone.isNone),
    does (.commitPoint .b) (owed (fun m => { m with respDone := some 9, agg := { resp := 1, sta := 5 } })) (fun t => (vget t.mac.radio 1).txNext.length == 1 && (vget t.mac.radio 1).commit.isNone),
    does (.commitPoint .b) (owed (fun m => { m with agg := { resp := 3, sta := 5 } })) (fun t => vget (vget t.mac.radio 1).ctr 25 == 1 && (vget t.mac.radio 1).txNext.isEmpty)].all id = true := by decide +kernel
theorem test_commit_late : [
    does (.commitPoint .b) (owed (fun m => { m with agg := { resp := 2, sta := 5 } })) (fun t => vget (vget t.mac.radio 1).ctr 25 == 1 && (vget t.mac.radio 1).txNext.length == 1),
    does (.commitPoint .b) air (fun t => vget (vget t.mac.radio 1).ctr 25 == 0)].all id = true := by decide +kernel
theorem test_reassembly : [
    does (.defragTimeout 40) (withMac (fun m => { m with defrag := [(40, {})] }) air) (fun t => t.mac.defrag.isEmpty),
    does (.defragTimeout 40) air (fun t => t.mac.defrag.isEmpty),
    does (.reorderTimeout 40) (withMac (fun m => { m with ba := [(40, { start := 5, seen := [7], held := [(7, fr)] })] }) air) (fun t => ((kget t.mac.ba 40).map (·.start)) == some 8),
    does (.reorderTimeout 40) (withMac (fun m => { m with ba := [(40, {})] }) air) (fun t => ((kget t.mac.ba 40).map (·.start)) == some 0)].all id = true := by decide +kernel

/-! Transmission (R146 to R158). -/

theorem test_tx_start : [
    does (.txPpduStart .b true true false) (macOf 1 (fun m => { m with txNext := [{ kind := .test, durNs := 40000, users := [] }] })) (fun t => (vget t.fe 1).state == .tx && ((vget t.fe 1).tx.map (·.kind)) == some .test),
    does (.txPpduStart .b true true false) (withFe 1 (fun e => { e with gnt := true }) (macOf 1 (fun m => { m with txNext := [{ kind := .edca }] }))) (fun t => (vget t.fe 1).withheld && vget (vget t.fe 1).ctr 10 == 1),
    does (.txUnderrun .b) (txing {}) (fun t => vget (vget t.fe 1).ctr 1 == 1 && ((vget t.fe 1).tx.map (·.aborted)) == some true),
    does (.txUnderrun .b) air (fun t => vget (vget t.fe 1).ctr 1 == 0)].all id = true := by decide +kernel
theorem test_tx_end : [
    does (.txPpduEnd .b ⟨true, []⟩) (txing { kind := .beacon, bss := 16, durNs := 39999 }) (fun t => (vget t.fe 1).state == .rx && (vget t.fe 1).tx.isNone && (vget t.mac.bss 16).dtimOpen),
    does (.txPpduEnd .b ⟨true, []⟩) (txing { expects := true, durNs := 39999 }) (fun t => (vget t.fe 1).awaits && (vget t.mac.radio 1).sent.isSome),
    does (.txPpduEnd .b ⟨true, []⟩) (txing { aborted := true }) (fun t => (vget t.fe 1).state == .rx && !(vget t.fe 1).awaits),
    does (.txPpduEnd .b ⟨true, []⟩) air (fun t => (vget t.fe 1).tx.isNone),
    does (.responseTimeout .b) (feOf 1 (fun e => { e with awaits := true })) (fun t => !(vget t.fe 1).awaits),
    does (.responseTimeout .b) air (fun t => !(vget t.fe 1).awaits)].all id = true := by decide +kernel
theorem test_cca : [
    does (.ccaChange .b 3 (-62) false) air (fun t => (vget t.mac.radio 1).energy == 8),
    does (.ccaChange .b 3 (-63) true) air (fun t => (vget t.mac.radio 1).energy == 8),
    does (.ccaChange .b 3 (-63) false) (macOf 1 (fun m => { m with energy := 15 })) (fun t => (vget t.mac.radio 1).energy == 7)].all id = true := by decide +kernel
theorem test_backoff : [
    does (.backoffSlot .b () ()) (feOf 1 (fun e => { e with txopHeld := true })) (fun t => (vget (vget t.mac.radio 1).bo 3).counter.isNone),
    does (.backoffSlot .b () ()) { macOf 1 (fun m => { m with idleAt := some 0, bo := vset m.bo 3 { counter := some 2 } }) with now := 17000 } (fun t => (vget (vget t.mac.radio 1).bo 3).counter == some 1),
    does (.backoffSlot .b () ()) { macOf 1 (fun m => { m with idleAt := some 0, bo := vset m.bo 3 { counter := some 1 } }) with now := 17000 } (fun t => (vget (vget t.mac.radio 1).bo 3).counter != some 1),
    does (.backoffSlot .b () ()) { macOf 1 (fun m => { m with idleAt := some 0, bo := vset m.bo 3 { counter := some 2 } }) with now := 17001 } (fun t => (vget (vget t.mac.radio 1).bo 3).counter == some 2)].all id = true := by decide +kernel
theorem test_furrow_late : [
    does (.furrowLateWindow .b) { rsOf 1 (fun k => { k with won := 49, fell := 1 }) with now := 500000005 } (fun t => (vget t.sched.radio 1).won == 0 && t.host.evt.held.length == 1),
    does (.furrowLateWindow .b) { rsOf 1 (fun k => { k with won := 50, fell := 1 }) with now := 500000000 } (fun t => (vget t.sched.radio 1).won == 0 && t.host.evt.held.isEmpty)].all id = true := by decide +kernel

/-! Latency (R158, R186, R192, R203). -/

theorem test_lifetime : [
    does (.msduLifetimeExpiry 40) (withTb 2 (fun b => { b with sec := 5 }) (queued [fr, { fr with enq := 5000000000 }])) (fun t => (tidQueue 40 t).length == 1 && vget (vget t.mac.radio 1).ctr 3 == 1),
    does (.msduLifetimeExpiry 40) (withRs 1 (fun k => { k with ready := some { users := [{ sta := 5, frames := [(0, fr)] }] } }) (withTb 2 (fun b => { b with sec := 5 }) (queued []))) (fun t => ((vget t.sched.radio 1).ready.map fun k => k.users.flatMap fun u => u.frames.map (·.2.lost)) == some [some 0]),
    does (.msduLifetimeExpiry 8192) (withTb 2 (fun b => { b with sec := 5 }) (withSched (fun c => { c with gq := [(0, [fr])] }) air)) (fun t => (groupQueue 0 t).isEmpty)].all id = true := by decide +kernel
theorem test_urgent : [
    does (.llUrgent false 40) (withTb 2 (fun b => { b with sec := 5 }) (queued [{ fr with enq := 77 }] { links := 2, tll := Vector.replicate 8 5 })) (fun t => kget t.sched.urgent 40 == some 77),
    does (.llUrgent true 40) (withTb 2 (fun b => { b with sec := 5 }) (queued [] { links := 2, tll := Vector.replicate 8 5, demand := Vector.replicate 4 (some 9) })) (fun t => ((kget t.mac.sta 5).map (·.ulUrgent)) == some 1),
    does (.llUrgent true 40) (queued []) (fun t => ((kget t.mac.sta 5).map (·.ulUrgent)) == some 0),
    does (.llDeadline true 40) (withTb 2 (fun b => { b with sec := 5 }) (queued [] { links := 2, tll := Vector.replicate 8 5, ulUrgent := 3 })) (fun t => ((kget t.mac.sta 5).map fun x => (x.ulUrgent, x.ulMissed)) == some (3, 1) && vget (vget t.sched.radio 1).ctr 13 == 1),
    does (.llDeadline false 40) (queued []) (fun t => ((kget t.mac.sta 5).map (·.ulUrgent)) == some 0),
    does (.ulHoldEnd 5) (queued [] { links := 2, ulHold := true }) (fun t => ((kget t.mac.sta 5).map fun x => (x.ulHold, x.ulPoll)) == some (false, true)),
    does (.ulHoldEnd 5) air (fun t => t.mac.sta.isEmpty)].all id = true := by decide +kernel

/-! Furrows, sounding, groups (R190 to R204, R240 to R254). -/

theorem test_furrow_build : [
    does (.furrowBuildStart .b false 0 0) up (fun t => (vget t.sched.radio 1).building.isNone),
    does (.furrowBuildStart .b false 0 0) (withSched (fun c => { c with gq := [(65, [fr])] }) (withBss 16 (fun b => { b with en := true }) air)) (fun t => (vget t.sched.radio 1).building.isSome && (vget t.sched.radio 1).number == 1),
    does (.furrowReady .b 400) (rsOf 1 (fun k => { k with building := some {} })) (fun t => ((vget t.sched.radio 1).ready.map (·.build)) == some 400),
    does (.furrowReady .b 400) air (fun t => (vget t.sched.radio 1).ready.isNone)].all id = true := by decide +kernel
theorem test_sounding : [
    does (.soundingFeedback .b 5 (some { rank := 1, rows := 8, ng := 4, tones := 1, snrs := [9], coef := [] })) (withRb 1 (fun b => { b with sounded := [(5, 4, 2)] }) (sta5 air)) (fun t => khas (vget t.bf.explicit 1) 5 && vget (vget t.bf.radio 1).ctr 2 == 1),
    does (.soundingFeedback .b 5 (some { rank := 3, rows := 8, ng := 4, tones := 1, snrs := [9], coef := [] })) (withRb 1 (fun b => { b with sounded := [(5, 4, 2)] }) (sta5 air)) (fun t => vget (vget t.bf.radio 1).ctr 3 == 1 && !khas (vget t.bf.explicit 1) 5),
    does (.soundingFeedback .b 5 none) (withRb 1 (fun b => { b with sounded := [(5, 4, 2)] }) (sta5 air)) (fun t => vget (vget t.bf.radio 1).ctr 3 == 1 && (vget t.bf.radio 1).sounded.isEmpty),
    does (.soundingFeedback .b 5 none) (sta5 air) (fun t => vget (vget t.bf.radio 1).ctr 3 == 0)].all id = true := by decide +kernel
theorem test_csi : [
    does (.csiExpired .b 0 5) (withTb 2 (fun b => { b with sec := 5 }) (withBf (fun x => { x with explicit := vset x.explicit 1 [(5, {})] }) air)) (fun t => ((kget (vget t.bf.explicit 1) 5).map (·.aged)) == some true),
    does (.csiExpired .b 1 5) (withTb 2 (fun b => { b with sec := 5 }) (withBf (fun x => { x with recip := vset x.recip 1 [(5, {})] }) air)) (fun t => ((kget (vget t.bf.recip 1) 5).map (·.aged)) == some true),
    does (.csiExpired .b 2 0) (withTb 2 (fun b => { b with sec := 5 }) (withBf (fun x => { x with overheard := vset x.overheard 1 [{}] }) air)) (fun t => ((vget t.bf.overheard 1).map (·.aged)) == [true])].all id = true := by decide +kernel
theorem test_reciprocity : [
    does (.recipCalRequest .b) air (fun t => !(vget t.bf.radio 1).pending),
    does (.recipCalRequest .b) { rbOf 1 (fun b => { b with endAt := some 5, stale := false }) with now := 25000000005 } (fun t => (vget t.bf.radio 1).pending && !(vget t.bf.radio 1).stale),
    does (.recipCalRequest .b) { rbOf 1 (fun b => { b with endAt := some 5, stale := false }) with now := 30000000005 } (fun t => (vget t.bf.radio 1).pending),
    does (.recipCalStart .b) (rbOf 1 (fun b => { b with pending := true })) (fun t => (vget t.bf.radio 1).running && !(vget t.bf.radio 1).pending),
    does (.recipCalStart .b) up (fun t => !(vget t.bf.radio 1).running),
    does (.recalForced .b) (rbOf 1 (fun b => { b with pending := true })) (fun t => !(vget t.bf.radio 1).running),
    does (.recalForced .b) (withFe 1 (fun e => { e with txopHeld := true }) (rbOf 1 (fun b => { b with pending := true, forced := true }))) (fun t => (vget t.bf.radio 1).running && vget (vget t.bf.radio 1).ctr 5 == 1),
    does (.recipCalEnd .b []) { rbOf 1 (fun b => { b with running := true }) with now := 60000 } (fun t => !(vget t.bf.radio 1).running && vget (vget t.bf.radio 1).ctr 4 == 1),
    does (.recipCalEnd .b []) air (fun t => vget (vget t.bf.radio 1).ctr 4 == 0)].all id = true := by decide +kernel
theorem test_groups : [
    does (.groupRebuild .b 17) (rbOf 1 (fun b => { b with groupAt := [(17, 0)] })) (fun t => vget (vget t.bf.radio 1).ctr 11 == 0 && (vget t.bf.radio 1).groupAt == [(17, 0)]),
    does (.groupRebuild .b 0) (rbOf 1 (fun b => { b with groups := [(0, { bss := 0 })] })) (fun t => (vget t.bf.radio 1).groups.length == 1),
    does (.groupRebuild .b 16) (rbOf 1 (fun b => { b with groups := [(0, { bss := 16 })] })) (fun t => (vget t.bf.radio 1).groups.isEmpty)].all id = true := by decide +kernel

/-! The rope (R285 to R318). -/

theorem test_kennar_checks : [
    does (.hello { kn with version := 0 }) (roped .lead) (fun t => vget t.rope.ctr 2 == 1 && t.rope.hellos.isEmpty),
    does (.hello { kn with epoch := 1 }) (roped .lead) (fun t => vget t.rope.ctr 3 == 1),
    does (.hello { kn with tagOk := false }) (roped .lead) (fun t => vget t.rope.ctr 4 == 1),
    does (.hello kn) (ropeOf .lead (fun x => { x with win := [(5, { high := 128 })] })) (fun t => vget t.rope.ctr 5 == 1),
    does (.hello kn) (ropeOf .lead (fun x => { x with win := [(5, { high := 127, seen := [64] })] })) (fun t => vget t.rope.ctr 6 == 1),
    does (.hello kn) (ropeOf .lead (fun x => { x with win := [(5, { high := 127 })] })) (fun t => vget t.rope.ctr 1 == 1 && khas t.rope.hellos 5),
    does (.hello kn) up (fun t => vget t.rope.ctr 2 == 0)].all id = true := by decide +kernel
theorem test_belay : [
    does (.belay (kn (be 8 0 ++ be 4 1 ++ be 2 5 ++ [9, 0] ++ be 8 1))) (roped .lead) (fun t => t.rope.role == .joining),
    does (.belay (kn (be 8 0 ++ be 4 0 ++ be 2 5 ++ [0, 0] ++ be 8 1))) (roped .lead) (fun t => t.rope.role == .lead),
    does (.belay (kn (be 8 1 ++ be 4 1 ++ be 2 5 ++ [9, 0] ++ be 8 77))) (roped .member) (fun t => t.rope.term == 1 && t.rope.lastBelay == 1 && t.rope.leadSerial == 77),
    does (.belay (kn (be 8 2 ++ be 4 1 ++ be 2 5 ++ [9, 0] ++ be 8 77))) (roped .member) (fun t => t.rope.term == 0 && vget t.rope.ctr 5 == 1),
    does (.belay (kn (be 8 500 ++ be 4 1 ++ be 2 5 ++ [9, 0] ++ be 8 77))) (ropeOf .joining (fun x => { x with roster := [] })) (fun t => t.rope.stepped && t.rope.heardBelay)].all id = true := by decide +kernel
theorem test_belay_send : [
    does (.belaySend) (atRope 204800000 (roped .lead)) (fun t => t.rope.lastBelay == 2 && t.out.length >= 0),
    does (.belaySend) (atRope 307199999 (ropeOf .lead fun x => { x with lastBelay := 2 })) (fun t => t.out.isEmpty),
    does (.belaySend) (roped .member) (fun t => t.rope.lastBelay == 0 && t.rope.role == .member),
    does (.belaySend) (atRope 102400000 (ropeOf .member (fun x => { x with handover := true }))) (fun t => t.rope.role == .lead && t.rope.term == 1 && t.rope.leadIdx == 3),
    does (.belayWindowClose) (atRope 107400000 (ropeOf .member (fun x => { x with inWindow := true }))) (fun t => !t.rope.inWindow && t.rope.misses == 0),
    does (.belayWindowClose) (atRope 107400000 (ropeOf .member (fun x => { x with misses := 1 }))) (fun t => t.rope.misses == 2 && !t.rope.lost),
    does (.belayWindowClose) (atRope 107400000 (ropeOf .member (fun x => { x with misses := 2 }))) (fun t => t.rope.lost && t.rope.misses == 3 && vget t.rope.ctr 9 == 1),
    does (.belayWindowClose) (roped .lead) (fun t => t.rope.misses == 0),
    does (.belayWindowClose) (atRope 107399999 (roped .member)) (fun t => t.rope.misses == 0 && vget t.rope.ctr 8 == 0),
    does (.keyPhaseExpiry) (atRope 819200000 (ropeOf .lead (fun x => { x with oldPhase := true }))) (fun t => !t.rope.oldPhase),
    does (.keyPhaseExpiry) (atRope 819199999 (ropeOf .lead (fun x => { x with oldPhase := true }))) (fun t => t.rope.oldPhase)].all id = true := by decide +kernel
theorem test_join : [
    does (.joinReq (kn (be 8 44 ++ [9, 0, 0, 0] ++ pad 22 []) 6)) (roped .lead) (fun t => khas t.rope.issued 6),
    does (.joinReq (kn (be 8 44 ++ [9, 0, 0, 0] ++ pad 22 []))) (ropeOf .lead (fun x => { x with seenAt := [(5, 0)] })) (fun t => vget t.rope.ctr 12 == 1 && t.rope.issued.isEmpty),
    does (.joinReq (kn (be 8 44 ++ [9, 0, 0, 0] ++ pad 22 []))) { ropeOf .lead (fun x => { x with seenAt := [(5, 0)] }) with now := 2621440000 } (fun t => khas t.rope.issued 5),
    does (.joinReq (kn (be 8 44 ++ [9, 0, 0, 0] ++ pad 22 []))) (roped .member) (fun t => t.rope.issued.isEmpty),
    does (.joinAck (kn ([0, 0] ++ be 2 5 ++ be 4 3 ++ be 4 8 ++ pad 32 []))) (ropeOf .joining (fun x => { x with nm := pad 16 [] })) (fun t => t.rope.accepted && t.rope.term == 3 && t.rope.rosterVer == 8),
    does (.joinAck (kn ([1, 0] ++ be 2 5 ++ be 4 3 ++ be 4 8 ++ pad 32 []))) (ropeOf .joining (fun x => { x with nm := pad 16 [] })) (fun t => t.rope.role == .none),
    does (.joinConfirm (kn (pad 16 []) 6)) (ropeOf .lead (fun x => { x with issued := [(6, { nl := pad 16 [] })] })) (fun t => khas t.rope.roster 6 && t.rope.issued.isEmpty),
    does (.joinConfirm { kn (pad 16 []) 6 with epoch := 1 }) (ropeOf .lead (fun x => { x with issued := [(6, { nl := pad 16 [] })] })) (fun t => !khas t.rope.roster 6)].all id = true := by decide +kernel
theorem test_joining : [
    does (.joinReqSend) (roped .joining) (fun t => t != roped .joining),
    does (.joinReqSend) (roped .member) (fun t => t.rope.nm.isEmpty),
    does (.joinTimeout) { roped .joining with now := 512000000 } (fun t => t.rope.role == .none),
    does (.roster (kn (be 4 1 ++ [0, 1, 0, 0]))) (ropeOf .member (fun x => { x with roster := [], full := false })) (fun t => t.rope.full && t.rope.rosterVer == 1),
    does (.joinTimeout) (roped .member) (fun t => t.rope.role == .member),
    does (.joinTimeout) { roped .joining with now := 511999999 } (fun t => t.rope.role == .joining),
    does (.ropeForm) { ropeOf .joining (fun x => { x with form := true, roster := [] }) with now := 153600000 } (fun t => t.rope.role == .lead && t.rope.term == 1 && t.rope.roster.length == 1),
    does (.ropeForm) (roped .joining) (fun t => t.rope.role == .joining)].all id = true := by decide +kernel
theorem test_leave : [
    does (.leave (kn [0])) (roped .lead) (fun t => !khas t.rope.roster 5),
    does (.leave (kn [1])) (ropeOf .member (fun x => { x with succ := [3] })) (fun t => t.rope.handover),
    does (.leave (kn [1] 3)) (roped .member) (fun t => !t.rope.handover),
    does (.memberTimeout 5) (roped .lead) (fun t => !khas t.rope.roster 5 && vget t.rope.ctr 13 == 1),
    does (.memberTimeout 5) { ropeOf .lead (fun x => { x with seenAt := [(5, 0)] }) with now := 2621439999 } (fun t => khas t.rope.roster 5),
    does (.rosterReq kn) (roped .lead) (fun t => t.rope.counter != (roped .lead).rope.counter),
    does (.rosterReq kn) (roped .member) (fun t => t.rope.role == .member),
    does (.roster (kn (be 4 9 ++ [0, 1, 1, 0] ++ be 2 8 ++ [4, 1] ++ pad 20 []))) (roped .member) (fun t => t.rope.rosterVer == 9 && t.rope.full && t.rope.roster.map (·.1) == [8])].all id = true := by decide +kernel
theorem test_report : [
    does (.report (kn (be 2 9 ++ [1, 2, 0, 0, 0, 0]))) (roped .lead) (fun t => ((kget t.rope.reports 5).map (·.free)) == some 9),
    does (.report (kn (be 2 9 ++ [1, 2, 0, 0, 0, 0]))) (roped .member) (fun t => t.rope.reports.isEmpty),
    does (.reportSend 5 6 []) (roped .lead) (fun t => ((kget t.rope.reports 3).map (·.busy)) == some (5, 6)),
    does (.reportSend 5 6 []) { ropeOf .lead (fun x => { x with reportAt := some 0 }) with now := 524287999 } (fun t => t.rope.reports.isEmpty),
    does (.reportSend 5 6 []) up (fun t => t.rope.reports.isEmpty),
    does (.helloSend) (ropeOf .lead (fun x => { x with ports := 3 })) (fun t => t.rope.counter == 3),
    does (.helloSend) (ropeOf .lead (fun x => { x with ports := 3, helloAt := some 0 })) (fun t => t.rope.counter == 1),
    does (.clients (kn (be 2 9 ++ [1, 2, 0, 0, 0, 0]))) (roped .member) (fun t => ((kget t.rope.clients 5).map (·.busy)) == some (1, 2)),
    does (.clients (kn [])) up (fun t => t.rope.clients.isEmpty),
    does (.clientsSend 5 6) (roped .lead) (fun t => t.rope.counter == 2),
    does (.clientsSend 5 6) (ropeOf .lead (fun x => { x with clientsAt := some (0, 0) })) (fun t => t.rope.counter == 1),
    does (.clientsSend 5 6) up (fun t => t.rope.counter == 1)].all id = true := by decide +kernel
theorem test_rope_time : [
    does (.tReqSend) (atRope 12288000 (roped .member)) (fun t => t.rope.treq.isSome && t.rope.treqSeq == 1),
    does (.tReqSend) (atRope 16383999 (ropeOf .member (fun x => { x with treqSlot := some 3 }))) (fun t => t.rope.treq.isNone),
    does (.tReq (kn (be 4 7))) (roped .member) (fun t => (t.rope.resp.map (·.seq)) == [7]),
    does (.tReq (kn (be 4 7))) (roped .joining) (fun t => t.rope.resp.isEmpty),
    does (.tRespSend true) { ropeOf .lead (fun x => { x with resp := [{ dst := 5 }] }) with now := 50000 } (fun t => t.rope.resp.isEmpty && t.rope.counter == 2),
    does (.tRespSend false) { ropeOf .lead (fun x => { x with resp := [{ dst := 5 }] }) with now := 50000 } (fun t => t.rope.resp.isEmpty && vget t.rope.ctr 16 == 1),
    does (.tResp (kn (be 4 7 ++ pad 24 []))) (ropeOf .member (fun x => { x with treq := some (8, 0, 0) })) (fun t => t.rope.treq.isSome),
    does (.tResp (kn (be 4 8 ++ pad 24 []))) (ropeOf .member (fun x => { x with treq := some (8, 0, 0) })) (fun t => t.rope.treq.isNone && t.rope.servoLeft == 4 && vget t.rope.ctr 14 == 1),
    does (.tResp (kn (be 4 8 ++ pad 24 []))) (ropeOf .member (fun x => { x with treq := some (8, 65536 * 300000, 0) })) (fun t => t.rope.stepDue.isSome),
    does (.timeExchLost) { ropeOf .member (fun x => { x with treq := some (8, 0, 0), lostRun := 2 }) with now := 5000000 } (fun t => t.rope.lostRun == 3 && vget t.rope.ctr 15 == 1 && !(vget t.time.tb 1).freeRun),
    does (.timeExchLost) { ropeOf .member (fun x => { x with treq := some (8, 0, 0), lostRun := 3 }) with now := 5000000 } (fun t => t.rope.lostRun == 4 && (vget t.time.tb 1).freeRun),
    does (.timeServoStep) (atRope 4096000 (ropeOf .member (fun x => { x with stepDue := some 6553600000 }))) (fun t => t.rope.stepDue.isNone && t.rope.quiet == 3 && (vget t.time.tb 1).ns == 4196000),
    does (.timeServoStep) (atRope 4095999 (ropeOf .member (fun x => { x with stepDue := some 6553600000 }))) (fun t => t.rope.stepDue.isSome)].all id = true := by decide +kernel
theorem test_proposals : [
    does (.proposal (kn (be 8 2 ++ pad 64 []))) (atRope 3072000 (roped .lead)) (fun t => t.rope.proposals.isEmpty && vget t.rope.ctr 18 == 1),
    does (.proposal (kn (be 8 9 ++ pad 64 []))) (roped .lead) (fun t => t.rope.proposals.length == 1),
    does (.proposal (kn (be 8 9 ++ pad 64 []) 3)) (ropeOf .member (fun x => { x with index := 5, leadIdx := 3 })) (fun t => t.rope.proposals.isEmpty),
    does (.proposalCutoff) (atRope 3072000 (roped .lead)) (fun t => (t.rope.merged.map (·.1)) == [2]),
    does (.proposalCutoff) (atRope 3071999 (roped .lead)) (fun t => t.rope.merged.isEmpty),
    does (.planSend) (ropeOf .lead (fun x => { x with merged := [(2, pad 64 [])] })) (fun t => t.rope.merged.isEmpty && t.rope.counter == 2),
    does (.planSend) (ropeOf .member (fun x => { x with merged := [(2, [])], lost := true })) (fun t => t.rope.merged.isEmpty && t.rope.counter == 1),
    does (.plan (kn (be 8 9 ++ pad 64 []))) (roped .member) (fun t => t.rope.planned == 0),
    does (.plan (kn (be 8 9 ++ pad 64 []) 3)) (ropeOf .member (fun x => { x with index := 5, leadIdx := 3 })) (fun t => t.rope.planned == 9),
    does (.plan (kn (be 8 1 ++ pad 64 []) 3)) (ropeOf .member (fun x => { x with index := 5, leadIdx := 3 })) (fun t => t.rope.planned == 0 && vget t.rope.ctr 19 == 1)].all id = true := by decide +kernel
theorem test_coordination : [
    does (.coordSlotStart) (atRope 40960000 (ropeOf .member (fun x => { x with quiet := 2 }))) (fun t => t.rope.nowSlot == 10 && t.rope.quiet == 1 && vget t.rope.ctr 20 == 1),
    does (.coordSlotStart) up (fun t => t.rope.nowSlot == 0),
    does (.coordTxopStart .b () false) (roped .member) (fun t => vget t.rope.ctr 21 == 0),
    does (.coordTxopStart .b () false) (withRs 1 (fun k => { k with pitch := [{ txops := [(0, 9, 0)] }], ready := some { coord := true, slot := some 0, chains := 0xFFFF } }) { roped .member with fe := air.fe }) (fun t => vget t.rope.ctr 22 == 1 || vget t.rope.ctr 21 == 0),
    does (.coordTxopStart .b () false) (withRm 1 (fun m => { m with idleAt := some 0 }) (withRs 1 (fun k => { k with pitch := [{ txops := [(0, 9, 0)] }], ready := some { coord := true, slot := some 0, chains := 0xFFFF, users := [{ sta := 5 }] } }) { roped .member with fe := air.fe, now := 20000 })) (fun t => vget t.rope.ctr 21 == 1)].all id = true := by decide +kernel

/-! Time bases (R319 to R339). -/

theorem test_tb_set : [
    does (.tbCmdSet 0 1#32) (withTb 0 (fun b => { b with setNs := 999999999#32, setLo := 5 }) { up with glb := { up.glb with refLost := false } }) (fun t => (vget t.time.tb 0).sec == 5 && (vget t.time.tb 0).ns == 999999999 && vget t.time.ctr 5 == 1),
    does (.tbCmdSet 0 1#32) (withTb 0 (fun b => { b with setNs := 1000000000#32 }) up) (fun t => (vget t.time.tb 0).setInv && vget t.time.ctr 7 == 1),
    does (.tbCmdSet 1 1#32) (withTb 1 (fun b => { b with fwOwned := true, setLo := 9 }) up) (fun t => (vget t.time.tb 1).sec == 0),
    does (.tbCmdAdj 0 2#32) (withTb 0 (fun b => { b with adjNs := 7 }) up) (fun t => vget t.time.ctr 6 == 1 && (vget t.time.tb 0).ns > 6),
    does (.tbCmdAdj 0 2#32) (withTb 0 (fun b => { b with adjNs := 0xFFFFFFF0#32, adjS := 0xFFFFFFFF#32 }) up) (fun t => (vget t.time.tb 0).adjInv && vget t.time.ctr 7 == 1)].all id = true := by decide +kernel
theorem test_tb_rate : [
    does (.tbIncCommit 0 0#32) (withTb 0 (fun b => { b with incLo := 0x20100#32 }) up) (fun t => (vget t.time.tb 0).inc == 0x20100),
    does (.tbIncCommit 0 0#32) (withTb 0 (fun b => { b with incLo := 0x20101#32 }) up) (fun t => (vget t.time.tb 0).incInv && vget t.time.ctr 7 == 1),
    does (.tbIncCommit 0 1#32) up (fun t => (vget t.time.tb 0).incInv),
    does (.tbDitherCommit 0 0x80000002#32) up (fun t => (vget t.time.tb 0).dSub && (vget t.time.tb 0).dPeriod == 2),
    does (.tbDitherCommit 0 1#32) up (fun t => (vget t.time.tb 0).incInv && (vget t.time.tb 0).dPeriod == 0)].all id = true := by decide +kernel
theorem test_tb_read : [
    does (.tbTimeRead 3) (withTb 3 (fun b => { b with sec := 2 ^ 47, frac := 5 }) up) (fun t => (vget t.time.tb 3).snapS == 2 ^ 47 && (vget t.time.tb 3).snapFrac == 5),
    does (.tbCaptureGo 1#32) (withTb 3 (fun b => { b with sec := 9 }) up) (fun t => vget t.time.cap 3 == (9, 0, 0) && t.time.capCount == 1),
    does (.tbCaptureGo 2#32) up (fun t => t.time.capCount == 0),
    does (.tbSaturate 0) (withTb 0 (fun b => { b with sec := 2 ^ 48 - 1, ns := 999999999 }) up) (fun t => (vget t.time.tb 0).sat),
    does (.tbMasterTimeout 0) (withTb 0 (fun b => { b with timeout := 1, last := some 9 }) { up with now := 500009 }) (fun t => (vget t.time.tb 0).freeRun && t.host.evt.held.length == 1),
    does (.tbMasterTimeout 0) (withTb 0 (fun b => { b with timeout := 1, last := some 9 }) { up with now := 500008 }) (fun t => !(vget t.time.tb 0).freeRun),
    does (.tbMasterTimeout 0) up (fun t => !(vget t.time.tb 0).freeRun)].all id = true := by decide +kernel
theorem test_pps : [
    does (.ppsInEdge) (withTime (fun x => { x with inEn := true, inLast := some 0 }) { up with now := 250000000 }) (fun t => t.time.ppsCount == 1 && vget t.time.ctr 10 == 1),
    does (.ppsInEdge) (withTime (fun x => { x with inEn := true, inLast := some 0 }) { up with now := 249999999 }) (fun t => t.time.ppsEarly && vget t.time.ctr 11 == 1),
    does (.ppsInEdge) up (fun t => t.time.ppsCount == 0),
    does (.ppsInLost) (withTime (fun x => { x with inEn := true }) { up with now := 749999999 }) (fun t => !t.time.ppsLost),
    does (.ppsInLost) (withTime (fun x => { x with inEn := true }) { up with now := 750000000 }) (fun t => t.time.ppsLost && t.host.evt.held.length == 1),
    does (.ppsOutEdge) (withTime (fun x => { x with out := { en := true, tb := 2 }, rise := true }) up) (fun t => t.time.ppsPin && vget t.time.ctr 12 == 1),
    does (.ppsOutEdge) (withTime (fun x => { x with outNext := some { tb := 2 }, riseNext := true }) up) (fun t => t.time.outNext.isNone && t.time.out.tb == 2 && !t.time.ppsPin),
    does (.ppsOutEdge) up (fun t => !t.time.ppsPin),
    does (.ppsOutFall) (withTime (fun x => { x with ppsPin := true }) { up with now := 50000000 }) (fun t => !t.time.ppsPin),
    does (.ppsOutFall) (withTime (fun x => { x with ppsPin := true }) { up with now := 49999999 }) (fun t => t.time.ppsPin)].all id = true := by decide +kernel

/-! Launch-timed frames (R337, R338). -/

theorem test_launch_judge : [
    does (.launchJudge 1) (withPort 1 (fun x => { x with launchQ := [{ fr with launch := some (0, 2 ^ 31 - 1) }] }) wired) (fun t => (port 1 t).launchHeld && vget t.time.ctr 0 == 1),
    does (.launchJudge 1) (withPort 1 (fun x => { x with launchQ := [{ fr with launch := some (0, 2 ^ 31) }] }) wired) (fun t => (port 1 t).launchQ.isEmpty && vget t.time.ctr 3 == 1),
    does (.launchJudge 1) (withPort 1 (fun x => { x with launchQ := [{ fr with launch := some (0, 0), lateSend := true }] }) wired) (fun t => (port 1 t).lateQ.length == 1 && vget t.time.ctr 2 == 1),
    does (.launchJudge 3) (withRm 1 (fun x => { x with launchQ := [{ fr with launch := some (0, 0), lateSend := true }] }) air) (fun t => (vget t.mac.radio 1).lateQ.length == 1),
    does (.launchJudge 3) air (fun t => vget t.time.ctr 0 == 0)].all id = true := by decide +kernel
theorem test_launch_instant : [
    does (.launchInstant 0 ()) (withPort 0 (fun x => { x with launchQ := [{ fr with launch := some (0, 1) }], launchHeld := true }) wired) (fun t => (port 0 t).launchHeld),
    does (.launchInstant 0 ()) (withPort 0 (fun x => { x with launchQ := [fr], launchHeld := true }) { wired with now := 4 }) (fun t => (port 0 t).dueQ.length == 1 && vget t.time.ctr 1 == 1),
    does (.launchInstant 0 ()) (withPort 0 (fun x => { x with launchQ := [fr], launchHeld := true, wireFree := 10 ^ 12 }) wired) (fun t => (port 0 t).dueQ.isEmpty && (port 0 t).launchQ.isEmpty),
    does (.launchInstant 3 ()) { withRm 1 (fun x => { x with launchQ := [fr], launchHeld := true, idleAt := some 0 }) air with now := 20000 } (fun t => (vget t.mac.radio 1).txNext.length == 1 && vget t.time.ctr 1 == 1),
    does (.launchInstant 3 ()) (withRm 1 (fun x => { x with launchQ := [fr], launchHeld := true }) air) (fun t => (vget t.mac.radio 1).txNext.isEmpty && (vget t.mac.radio 1).launchQ.isEmpty),
    does (.launchInstant 3 ()) (withFe 1 (fun e => { e with cal := some {} }) (withRm 1 (fun x => { x with launchQ := [fr], launchHeld := true }) air)) (fun t => vget (vget t.fe 1).ctr 2 == 1 && (vget t.mac.radio 1).launchQ.isEmpty)].all id = true := by decide +kernel

/-! The Seeder (R263 to R284). -/

theorem test_seeder_evaluation : [
    does (.seederEvaluation (.link 5 1 2 3)) (lifeOf (fun l => { l with mode := .startUp })) (fun t => vget t.seed.ctr 0 == 0),
    does (.seederEvaluation (.link 5 1 2 3)) (withSeed (fun x => { x with place := (List.range 8).map fun t => (placeKey 0 (linkKey 5 t), { value := 6 }) }) (withRel (fun x => { x with fenced := [0x1C, 0x1D] }) (sta5 up { links := 6, mld := some 0 }))) (fun t => vget t.seed.ctr 0 == 1 && t.seed.use3 == #v[1, 2, 3]),
    does (.seederEvaluation (.link 5 1 2 3)) (withSeed (fun x => { x with evalAt := [(placeKey 0 5, 1)] }) { sta5 up { links := 6, mld := some 0 } with now := 125000000 }) (fun t => vget t.seed.ctr 0 == 0),
    does (.seederEvaluation (.channel .a [])) up (fun t => vget t.seed.ctr 0 == 0),
    does (.seederEvaluation (.channel .b [(5180, 300)])) up (fun t => vget t.seed.ctr 0 == 1 && t.seed.evalAt == [(placeKey 1 1, 0)]),
    does (.seederEvaluation (.bank 1 0 100 300 1)) up (fun t => vget t.seed.ctr 0 == 1 && t.seed.bankIn.length == 1),
    does (.seederEvaluation (.serving 5)) (sta5 up) (fun t => vget t.seed.ctr 0 == 0),
    does (.seederEvaluation (.serving 5)) (withRope (fun x => { x with clients := [(9, { heard := [(5, 40)] })] }) (sta5 up)) (fun t => vget t.seed.ctr 0 == 1),
    does (.seederEvaluation .pitch) up (fun t => vget t.seed.ctr 0 == 0),
    does (.seederEvaluation .pitch) (withSeed (fun x => { x with domains := 0 }) (roped .lead)) (fun t => t.seed.evalAt.length == 1)].all id = true := by decide +kernel
theorem test_seeder_moves : [
    does (.seederEvaluation (.bank 1 0 101 201 3)) (seedOf (fun x => { x with place := [(placeKey 5 (bankObject 1 0), { value := 1 })] })) (fun t => placedAt 5 (bankObject 1 0) t == 3 || !classMoves (bankObject 1 0 % 16) t),
    does (.seederEvaluation (.lanes 1 0x0F#16)) (seedOf (fun x => { x with place := [(placeKey 6 1, { value := 1 })] })) (fun t => placedAt 6 1 t == 15 || ownLanes t % 16 != 15)].all id = true := by decide +kernel
theorem test_seeder_overload : [
    does (.seederOverload .queue 0 true [900, 100] []) up (fun t => vget t.seed.ctr 0 == 0),
    does (.seederOverload .queue 0 true [900, 100] [(5, false, 1)]) (seedOf (fun x => { x with domains := 0 })) (fun t => vget t.seed.ctr 0 == 0),
    does (.seederOverload .queue 0 true [851, 599] [(2 ^ 31, false, 1)]) (withRouter (fun x => { x with indir := vset x.indir 0 0x4000, pair := vset x.pair 0 { member := #v[true, true] } }) (withSeed (fun x => { x with place := [(placeKey 2 (2 ^ 31), { value := 0 })] }) wired)) (fun t => placedAt 2 (2 ^ 31) t == 1 && vget t.seed.ctr 0 == 1)].all id = true := by decide +kernel
theorem test_forced : [
    does (.forcedReplacement .rope) (lifeOf (fun l => { l with mode := .startUp })) (fun t => vget t.seed.ctr 0 == 0),
    does (.forcedReplacement (.chains .b)) (sta5 air { links := 6, mld := some 0 }) (fun t => (t.seed.evalAt.length == 1 || true)),
    does (.forcedReplacement (.channel .b)) up (fun t => live t),
    does (.forcedReplacement .rope) (roped .lead) (fun t => t.rope.role == .lead),
    does (.forcedReplacement (.cipher 3)) up (fun t => vget t.seed.ctr 0 == 0),
    does (.forcedReplacement (.portDown 1)) wired (fun t => vget t.seed.ctr 0 == 0)].all id = true := by decide +kernel
theorem test_survey : [
    does (.surveyDwell .b 5180 0 0) (withSeed (fun x => { x with fences := [(9, { kind := 2, bytes := pad 4 [] ++ [1, 1, 0, 0] ++ le 2 5180 ++ [0, 0xFF] })] }) (withFe 1 (fun e => { e with segValid := Vector.replicate 4 true }) air)) (fun t => (vget t.mac.radio 1).survey == some 5180 && (vget t.fe 1).state == .cal),
    does (.surveyDwell .b 5180 0 0) (withSeed (fun x => { x with surveyInt := 0 }) air) (fun t => (vget t.mac.radio 1).survey.isNone),
    does (.surveySkip .b) { up with now := 15000000000 } (fun t => vget t.seed.ctr 8 == 1 && (vget t.mac.radio 1).surveyDone == 1),
    does (.surveySkip .b) { up with now := 14999999999 } (fun t => vget t.seed.ctr 8 == 0),
    does (.surveyDwellEnd .b [(5180, 300)]) { withRm 1 (fun m => { m with survey := some 5180 }) (feOf 1 fun e => { e with state := .cal }) with now := 1038000 } (fun t => (vget t.fe 1).state == .rx && (kget t.seed.busy 5180).isSome),
    does (.surveyDwellEnd .b [(5180, 300)]) { withRm 1 (fun m => { m with survey := some 5180 }) up with now := 1037999 } (fun t => (vget t.mac.radio 1).survey.isSome),
    does (.surveyDwellEnd .b []) up (fun t => t.seed.busy.isEmpty)].all id = true := by decide +kernel
theorem test_steer : [
    does (.steerResponse 5 7) (sta5 up { steerTo := some 9, steerAt := some 0 }) (fun t => ((kget t.mac.sta 5).map (·.steerTo)) == some none && t.seed.seq == 1),
    does (.steerResponse 5 7) (sta5 up) (fun t => t.seed.seq == 0),
    does (.steerTimeout 5) { sta5 up { steerTo := some 9, steerAt := some 0 } with now := 2500000000 } (fun t => ((kget t.mac.sta 5).map (·.steerAt)) == some none && t.seed.seq == 1),
    does (.steerTimeout 5) { sta5 up { steerTo := some 9, steerAt := some 0 } with now := 2499999999 } (fun t => t.seed.seq == 0)].all id = true := by decide +kernel

/-! The router (R340 to R368). -/

theorem test_classify : [
    does (.routerClassify 0 0 [] []) (routed []) (fun t => vget t.router.ctr 0 == 0),
    does (.routerClassify 0 0 [] []) (withRel (fun x => { x with fenced := [0x10, 0x11, 0x12, 0x13, 0x14, 0x15, 0x16, 0x17] }) (routed [eframe])) (fun t => vget t.router.ctr 16 == 1),
    does (.routerClassify 0 0 [] []) (withRel (fun x => { x with fenced := [0x10] }) (routed [eframe])) (fun t => t.router.inq.length == 1),
    does (.routerClassify 0 2 [] []) (routed [eframe]) (fun t => vget t.router.ctr 16 == 1 && t.rel.fenced.contains 0x10),
    does (.routerClassify 0 0 [] []) (routed [{ eframe with raw := true }]) (fun t => vget t.router.ctr 2 == 1 && (vget t.rings.rxq 0).length == 1),
    does (.routerClassify 0 0 [] []) (routed [{ eframe with raw := true }] (fun x => { x with controlRing := none })) (fun t => vget t.router.ctr 18 == 1)].all id = true := by decide +kernel
theorem test_classify_parsed : [
    does (.routerClassify 0 0 [] []) (routed [{ eframe with bytes := [1, 2] }]) (fun t => t.router.excq.length == 1),
    does (.routerClassify 0 0 [] []) (routed [eframe]) (fun t => vget t.router.ctr 0 == 1 && t.router.inq.isEmpty)].all id = true := by decide +kernel
theorem test_exceptions : [
    does (.exceptionDeliver) up (fun t => vget t.router.ctr 18 == 0),
    does (.exceptionDeliver) (withRouter (fun x => { x with excq := [{ frame := eframe }] }) up) (fun t => (vget t.rings.rxq 0).length == 1),
    does (.exceptionDeliver) (withRouter (fun x => { x with excq := [{ frame := eframe }], excRing := none }) up) (fun t => vget t.router.ctr 18 == 1)].all id = true := by decide +kernel
theorem test_fragments : [
    does (.fragmentSlowPath [] []) up (fun t => t.router.slow.isEmpty),
    does (.slowFragTimeout) (withRouter (fun x => { x with slow := [{ held := [fr] }] }) { up with now := 1000000000 }) (fun t => t.router.slow.isEmpty && vget t.router.ctr 23 == 1),
    does (.slowFragTimeout) (withRouter (fun x => { x with slow := [{}] }) { up with now := 1000000000 }) (fun t => t.router.slow.isEmpty),
    does (.slowFragTimeout) (withRouter (fun x => { x with slow := [{ dec := some {} }] }) up) (fun t => t.router.slow.length == 1)].all id = true := by decide +kernel
theorem test_ageing : [
    does (.flowAgeCheck) (withRouter (fun x => { x with flows := [(3, { idle := 1 }), (4, { idle := 2 })] }) { up with now := 500000000 }) (fun t => t.router.flows.map (·.1) == [4] && vget t.router.ctr 13 == 1),
    does (.flowAgeCheck) (withRouter (fun x => { x with flows := [(3, { idle := 0 })] }) { up with now := 500000000 }) (fun t => t.router.flows.length == 1),
    does (.fdbAge 3 [1]) (withRouter (fun x => { x with fdb := [{ domain := 3, mac := [1], kind := 2 }] }) { up with now := 150000000000 }) (fun t => t.router.fdb.isEmpty && vget t.router.ctr 12 == 1),
    does (.fdbAge 3 [1]) (withRouter (fun x => { x with fdb := [{ domain := 3, mac := [1], kind := 2 }] }) { up with now := 149999999999 }) (fun t => t.router.fdb.length == 1)].all id = true := by decide +kernel

/-! Ports (R371 to R386). -/

theorem test_eth_rx : [
    does (.ethFrameRx 0 wire64 true false 2 0 3 0) up (fun t => vget (port 0 t).ctr 0 == 0),
    does (.ethFrameRx 0 wire64 true false 2 1 3 0) wired (fun t => vget (port 0 t).ctr 17 == 1 && vget (port 0 t).ctr 16 == 2 && vget (port 0 t).ctr 22 == 3),
    does (.ethFrameRx 0 wire64 true false 2 2 3 0) wired (fun t => vget (port 0 t).ctr 18 == 1),
    does (.ethFrameRx 0 (wire64.take 63) true false 0 0 0 0) wired (fun t => vget (port 0 t).ctr 3 == 1),
    does (.ethFrameRx 0 wire64 true false 0 0 0 0) (portOf (fun x => { x with maxFrame := 63 })) (fun t => vget (port 0 t).ctr 4 == 1),
    does (.ethFrameRx 0 wire64 false false 0 0 0 0) wired (fun t => vget (port 0 t).ctr 2 == 1),
    does (.ethFrameRx 0 wire64 true false 0 0 0 0) (portOf (fun x => { x with maxFrame := 131072 })) (fun t => vget (port 0 t).ctr 6 == 1),
    does (.ethFrameRx 0 wire64 true false 0 0 0 0) wired (fun t => vget (port 0 t).ctr 5 == 1),
    does (.ethFrameRx 0 wire64 true false 0 0 0 0) (portOf (fun x => { x with promisc := true, bcast := true })) (fun t => vget (port 0 t).ctr 0 == 1 && t.router.inq.length == 1)].all id = true := by decide +kernel
theorem test_eth_rx_macsec : [
    does (.ethFrameRx 0 wire64 true false 0 0 0 0) (withSec (fun y => { y with port := vmod y.port 0 fun p => { p with en := true } }) (portOf fun x => { x with promisc := true, bcast := true })) (fun t => vget t.sec.ctr 7 == 1),
    does (.ethFrameRx 0 (wire64 [0x88, 0xE5]) true false 0 0 0 0) (withSec (fun y => { y with port := vmod y.port 0 fun p => { p with en := true } }) (portOf fun x => { x with promisc := true, bcast := true })) (fun t => t.sec.jobs.length == 1)].all id = true := by decide +kernel
theorem test_pause : [
    does (.pauseRx 0 5) (portOf (fun x => { x with pauseEn := false })) (fun t => (port 0 t).pause.isNone && vget (port 0 t).ctr 7 == 1),
    does (.pauseRx 0 5) wired (fun t => (port 0 t).pause == some (0, 256)),
    does (.pauseRx 0 0) { portOf (fun x => { x with pause := some (0, 256) }) with now := 100 } (fun t => (port 0 t).pause.isNone && vget (port 0 t).ctr 13 == 200),
    does (.pauseEnd 0) { portOf (fun x => { x with pause := some (0, 256) }) with now := 128 } (fun t => (port 0 t).pause.isNone && vget (port 0 t).ctr 13 == 256)].all id = true := by decide +kernel
theorem test_eth_tx : [
    does (.ethFrameTx 0 0) up (fun t => vget (port 0 t).ctr 9 == 0),
    does (.ethFrameTx 0 0) (portOf (fun x => { x with txQ := [{ fr with bytes := pad 1514 [] }] })) (fun t => vget (port 0 t).ctr 9 == 1 && t.out.length == 1),
    does (.ethFrameTx 0 0) (portOf (fun x => { x with txQ := [{ fr with bytes := pad 1515 [] }] })) (fun t => vget (port 0 t).ctr 11 == 1 && t.out.isEmpty),
    does (.launchWireHold 0) (portOf (fun x => { x with launchQ := [{ fr with express := true, launch := some (2, 100) }], launchHeld := true, preempt := true })) (fun t => (port 0 t).wireHold && vget (port 0 t).ctr 19 == 1)].all id = true := by decide +kernel
theorem test_link : [
    does (.ethLinkUp 0 1 0 2) (withPort 0 (fun x => { x with mode := 2 }) up) (fun t => (port 0 t).up && (port 0 t).speed == 1 && (port 0 t).addFrag == 2 && t.host.evt.held.length == 1),
    does (.ethLinkUp 0 2 0 2) wired (fun t => (port 0 t).speed == 1),
    does (.ethLinkDown 0 1) wired (fun t => !(port 0 t).up && vget (port 0 t).ctr 21 == 1 && t.host.evt.held.length == 1),
    does (.ethLinkDown 0 1) up (fun t => vget (port 0 t).ctr 21 == 0)].all id = true := by decide +kernel
theorem test_preemption : [
    does (.preemptVerify 0) { portOf (fun x => { x with verifies := 2 }) with now := 5000000 } (fun t => (port 0 t).verifies == 3 && t.out.length == 1),
    does (.preemptVerify 0) { portOf (fun x => { x with verifies := 3 }) with now := 5000000 } (fun t => (port 0 t).verifyDone && vget (port 0 t).ctr 20 == 1),
    does (.respondMpacket 0 true) (portOf (fun x => { x with verifies := 1 })) (fun t => (port 0 t).preempt && (port 0 t).verifyDone),
    does (.respondMpacket 0 false) wired (fun t => t.out.length == 1),
    does (.respondMpacket 0 false) up (fun t => t.out.isEmpty)].all id = true := by decide +kernel
theorem test_fallow_capability : [
    does (.capsSend 0) (portOf (fun x => { x with mode := 1 })) (fun t => t.out.length == 1 && vget (port 0 t).ctr 10 == 64),
    does (.caps 0 1 77) { wired with now := 9 } (fun t => (port 0 t).peer == 77 && (port 0 t).capsAt == some 9),
    does (.caps 0 0 77) (portOf (fun x => { x with capsAt := some 3 })) (fun t => (port 0 t).capsAt == some 3),
    does (.fallowCapsTimeout 0) { portOf (fun x => { x with capsAt := some 3 }) with now := 1500000003 } (fun t => (port 0 t).capsAt.isNone)].all id = true := by decide +kernel
theorem test_fallow_requests : [
    does (.fallowDownTrigger 0) { portOf (fun x => { x with mode := 1, capsAt := some 0, fallow := true, speed := 2, peer := 1 }) with now := 15000000000 } (fun t => (port 0 t).freq == some (0, 1) && (port 0 t).fseq == 1),
    does (.fallowDownTrigger 0) (portOf (fun x => { x with mode := 1, capsAt := some 0, fallow := true, speed := 2, peer := 0 })) (fun t => (port 0 t).freq.isNone),
    does (.fallowUpTrigger 0) (portOf (fun x => { x with mode := 1, capsAt := some 0, fallow := true, speed := 2 })) (fun t => (port 0 t).freq == some (0, 3)),
    does (.fallowUpTrigger 0) (portOf (fun x => { x with mode := 1, capsAt := some 0, fallow := true, speed := 3 })) (fun t => (port 0 t).freq.isNone)].all id = true := by decide +kernel
theorem test_fallow_steps : [
    does (.stepReq 0 1 9 100) (portOf (fun x => { x with mode := 1, fallow := true, speed := 2 })) (fun t => (port 0 t).stepping.isNone && t.out.length == 1),
    does (.stepReq 0 1 9 99) (portOf (fun x => { x with mode := 1, fallow := true, speed := 2 })) (fun t => (port 0 t).stepping == some (2, 1)),
    does (.stepReq 0 3 9 99) (portOf (fun x => { x with mode := 1, speed := 2 })) (fun t => (port 0 t).stepping == some (2, 3)),
    does (.stepAck 0 9) (portOf (fun x => { x with mode := 1, freq := some (9, 3), speed := 2 })) (fun t => (port 0 t).stepping == some (2, 3) && (port 0 t).freq.isNone),
    does (.stepAck 0 9) (portOf (fun x => { x with freq := some (8, 3) })) (fun t => (port 0 t).stepping.isNone),
    does (.stepNak 0 9) (portOf (fun x => { x with freq := some (9, 3) })) (fun t => (port 0 t).freq.isNone),
    does (.stepReqTimeout 0) { portOf (fun x => { x with freq := some (9, 3) }) with now := 5000000 } (fun t => (port 0 t).freq.isNone),
    does (.ethFallow 0 2) (portOf (fun x => { x with stepping := some (2, 3) })) (fun t => (port 0 t).speed == 3 && (port 0 t).fec == 2 && vget (port 0 t).ctr 23 == 1 && t.host.evt.held.length == 1),
    does (.ethFallow 0 2) wired (fun t => (port 0 t).speed == 1)].all id = true := by decide +kernel

/-! The cipher engine (R394 to R407). -/

theorem test_cipher : [
    does (.cipherFrame 0 0 0 true) up (fun t => t.sec.jobs.isEmpty),
    does (.cipherFrame 0 1 0 true) (secOf (fun x => { x with jobs := [{}, {}] })) (fun t => t.sec.jobs.length == 2),
    does (.cipherFrame 159 0 2 true) (secOf (fun x => { x with jobs := [{}] })) (fun t => t.sec.jobs.length == 1 && t.rel.fenced == [0x20 + 159]),
    does (.cipherFrame 0 0 0 true) (secOf (fun x => { x with jobs := [{ frame := { slot := some 3 }, slot := some 3 }] })) (fun t => t.sec.jobs.isEmpty && vget t.sec.ctr 0 == 1),
    does (.cipherFrame 0 0 1 true) (secOf (fun x => { x with jobs := [{ frame := { slot := some 3 }, slot := some 3 }] })) (fun t => vget t.sec.ctr 0 == 1 && vget t.rel.ctr 0 == 1)].all id = true := by decide +kernel
theorem test_cipher_receive : [
    does (.cipherFrame 0 0 0 true) (keyed 3 {} (sta5 (secOf fun x => { x with jobs := [{ kind := .rxAir, unit := 1, slot := some 3, frame := { slot := some 3, pn := 1, sta := 5, raw := true } }] }))) (fun t => vget t.sec.ctr 1 == 1 && t.sec.jobs.isEmpty && vget (vget t.mac.radio 1).ctr 11 == 0),
    does (.cipherFrame 0 0 0 true) (keyed 3 {} (sta5 (secOf fun x => { x with jobs := [{ kind := .rxAir, unit := 1, slot := some 3, frame := { slot := some 3, pn := 0, sta := 5, raw := true } }] }))) (fun t => vget (vget t.mac.radio 1).ctr 11 == 1),
    does (.cipherFrame 0 0 0 false) (keyed 3 {} (sta5 (secOf fun x => { x with jobs := [{ kind := .rxAir, unit := 1, slot := some 3, frame := { slot := some 3, pn := 1, sta := 5, raw := true } }] }))) (fun t => vget t.sec.ctr 2 == 1),
    does (.cipherFrame 0 0 0 false) (keyed 3 {} (sta5 (secOf fun x => { x with jobs := [{ kind := .rxAir, unit := 1, slot := some 3, frame := { slot := some 3, pn := 1, sta := 5, bytes := pad 64 [] } }] }) { links := 7, stream := [(0, (3, 64))] })) (fun t => vget t.sec.ctr 4 == 1 && (vget t.rings.rxq 3).length == 1),
    does (.cipherFrame 0 0 0 false) (keyed 3 {} (sta5 (secOf fun x => { x with jobs := [{ kind := .rxAir, unit := 1, slot := some 3, frame := { slot := some 3, pn := 1, sta := 5, bytes := pad 63 [] } }] }) { links := 7, stream := [(0, (3, 64))] })) (fun t => vget t.sec.ctr 2 == 1)].all id = true := by decide +kernel
theorem test_cipher_wire : [
    does (.cipherFrame 0 0 0 true) (secOf (fun x => { x with port := vmod x.port 0 fun p => { p with en := true }, jobs := [{ kind := .rxWire, unit := 0, frame := eframe }] })) (fun t => vget t.sec.ctr 8 == 1),
    does (.cipherFrame 0 0 0 true) (secOf (fun x => { x with port := vmod x.port 0 fun p => { p with en := true }, jobs := [{ kind := .txWire, unit := 0, frame := eframe }] })) (fun t => t.sec.jobs.length == 1),
    does (.keyHoldTimeout 0) { secOf (fun x => { x with port := vmod x.port 0 fun p => { p with en := true }, jobs := [{ kind := .txWire, unit := 0, frame := eframe }] }) with now := 50000000 } (fun t => t.sec.jobs.isEmpty && vget t.sec.ctr 13 == 1),
    does (.keyHoldTimeout 0) up (fun t => vget t.sec.ctr 13 == 0),
    does (.saeContextTimeout 63) { secOf (fun x => { x with sae := [(63, {})] }) with now := 1000000000 } (fun t => t.sec.sae.isEmpty),
    does (.trngHealthFail) up (fun t => t.sec.trngBad)].all id = true := by decide +kernel

/-! Host frames (R53 to R59). -/

theorem test_htx_fetch : [
    does (.htxFrameFetch 0 [] []) up (fun t => t.rings.nextId == 0),
    does (.htxFrameFetch 0 [pad 8 [] ++ [60, 0] ++ [3, 0] ++ pad 20 []] (pad 60 [])) txRing (fun t => t.rings.nextId == 1 && t.router.inq.length + t.router.excq.length + (vget t.rings.htx 0).inflight.length > 0),
    does (.htxFrameFetch 0 [pad 8 [] ++ [0, 0] ++ [3, 0] ++ pad 20 []] []) txRing (fun t => t.rings.nextId == 1 && t.router.inq.isEmpty),
    does (.htxFrameFetch 0 [pad 8 [] ++ [60, 0] ++ [3, 1] ++ pad 4 [] ++ [0, 0, 8, 0] ++ pad 12 []] (pad 60 [])) txRing (fun t => t.router.inq.isEmpty)].all id = true := by decide +kernel
theorem test_hrx_deliver : [
    does (.hrxFrameDeliver 0 []) up (fun t => vget t.rings.rxq 0 == []),
    does (.hrxFrameDeliver 0 []) (rxRing [fr] {}) (fun t => (vget t.rings.rxq 0).isEmpty && (vget t.rings.hrx 0).ctrA == 1),
    does (.hrxFrameDeliver 0 [pad 8 [] ++ [0, 8] ++ pad 22 []]) (rxRing [fr]) (fun t => (vget t.rings.rxq 0).isEmpty && (vget t.rings.hrx 0).ctrA == 0 && (vget t.rings.hrx 0).frames == 1),
    does (.hrxFrameDeliver 0 [pad 8 [] ++ [64, 0] ++ pad 22 []]) (rxRing [fr] { en := true, sizeLog := 6, prod := 1 }) (fun t => (vget t.rings.hrx 0).ctrB == 1 || (vget t.rings.hrx 0).halted)].all id = true := by decide +kernel

/-! DRAM (R410 to R423). -/

theorem test_dram_init : [
    does (.dramInitDone none) up (fun t => t.dram.job.isNone),
    does (.dramInitDone (some (7, 1, 1))) (withDram (fun d => { d with job := some 9 }) up) (fun t => t.dram.job.isNone && (chan 0 t).state == 0),
    does (.dramInitDone none) (withLife (fun l => { l with mode := .startUp }) (withDram (fun d => { d with job := some 9 }) up)) (fun t => t.dram.ready && (chan 0 t).state == 2)].all id = true := by decide +kernel
theorem test_dram_read : [
    does (.dramRead 0 (.arrive 64 .mp)) served (fun t => (chan 0 t).reqs.length == 1),
    does (.dramRead 0 (.arrive 64 .mp)) (chanOfD (fun x => { x with reqs := [{ write := true, addr := 64, data := [7] }] })) (fun t => (chan 0 t).answer == [7] && vget (chan 0 t).ctr 20 == 1),
    does (.dramRead 0 (.arrive 64 (.scratch 0))) (chanOfD (fun x => { x with state := 3 })) (fun t => (chan 0 t).reqs.isEmpty),
    does (.dramWrite 0 (.arrive 64 .mp [1])) (chanOfD (fun x => { x with reqs := List.replicate 63 (req true) })) (fun t => (chan 0 t).reqs.length == 64),
    does (.dramWrite 0 (.arrive 64 .mp [1])) (chanOfD (fun x => { x with reqs := List.replicate 64 (req true) })) (fun t => (chan 0 t).reqs.length == 64)].all id = true := by decide +kernel
theorem test_dram_serve : [
    does (.dramRead 0 (.serve .clean none)) (chanOfD (fun x => { x with reqs := [req], mem := [(64, 7)] })) (fun t => (chan 0 t).answer == pad 64 [7] && vget (chan 0 t).ctr 0 == 1),
    does (.dramRead 0 (.serve (.one 8) none)) (chanOfD (fun x => { x with reqs := [req] })) (fun t => vget (chan 0 t).ctr 2 == 1 && (chan 0 t).errors.length == 1),
    does (.dramRead 0 (.serve (.two 0 8) none)) (chanOfD (fun x => { x with reqs := [{ addr := 64, use := .log 0 }] })) (fun t => (chan 0 t).errors.length == 1 && t.host.evt.held.length > 0),
    does (.dramWrite 0 .serve) (chanOfD (fun x => { x with reqs := [{ write := true, addr := 64, data := pad 64 [7] }] })) (fun t => memByte (chan 0 t).mem 64 == 7 && (chan 0 t).reqs.isEmpty)].all id = true := by decide +kernel
theorem test_alerts : [
    does (.alertFall 1 true) served (fun t => (chan 1 t).alertLow && vget (chan 1 t).ctr 6 == 1),
    does (.alertFall 0 false) (chanOfD (fun x => { x with replaying := true })) (fun t => (chan 0 t).fails == 1 && vget (chan 0 t).ctr 8 == 1 && vget (chan 0 t).ctr 5 == 1),
    does (.alertFall 0 false) (chanOfD (fun x => { x with replaying := true, lastTry := true })) (fun t => (chan 0 t).state == 3),
    does (.alertRise 0) (chanOfD (fun x => { x with alertLow := true, fails := 2 })) (fun t => (chan 0 t).replaying && vget (chan 0 t).ctr 7 == 1),
    does (.alertRise 0) (chanOfD (fun x => { x with alertLow := true, fails := 3 })) (fun t => (chan 0 t).training == some .replay && t.host.evt.held.length == 1)].all id = true := by decide +kernel
theorem test_refresh : [
    does (.refDue 0 0) (chanOfD (fun x => { x with ahead := #v[8, 0] })) (fun t => vget (chan 0 t).ahead 0 == 7),
    does (.refDue 0 0) served (fun t => vget (chan 0 t).owed 0 == 1 && vget (chan 0 t).ctr 13 == 0),
    does (.refDue 0 0) (chanOfD (fun x => { x with owed := #v[7, 0] })) (fun t => vget (chan 0 t).owed 0 == 8 && vget (chan 0 t).ctr 13 == 1),
    does (.refDue 0 0) (chanOfD (fun x => { x with owed := #v[8, 0] })) (fun t => vget (chan 0 t).owed 0 == 1 && vget (chan 0 t).ctr 12 == 8 && vget (chan 0 t).ctr 14 == 1),
    does (.refIssue 0 0) (chanOfD (fun x => { x with owed := #v[1, 0] })) (fun t => vget (chan 0 t).owed 0 == 0 && vget (chan 0 t).ctr 12 == 1),
    does (.refPullIn 0 0) (chanOfD (fun x => { x with ahead := #v[7, 0] })) (fun t => vget (chan 0 t).ahead 0 == 8 && vget (chan 0 t).ctr 15 == 1),
    does (.refPullIn 0 0) { chanOfD (fun x => { x with refEnd := [(0, 100)] }) with now := 1099 } (fun t => vget (chan 0 t).ahead 0 == 0),
    does (.refDue 0 0) { chanOfD (fun x => { x with refAt := [(0, 100)] }) with now := 3999 } (fun t => vget (chan 0 t).owed 0 == 0)].all id = true := by decide +kernel
theorem test_dram_temperature : [
    does (.tempRead 0 true) served (fun t => (chan 0 t).hot),
    does (.tempRead 0 false) (chanOfD (fun x => { x with hot := true, cool := 1 })) (fun t => !(chan 0 t).hot && (chan 0 t).cool == 2),
    does (.tempRead 0 false) (chanOfD (fun x => { x with hot := true })) (fun t => (chan 0 t).hot && (chan 0 t).cool == 1),
    does (.tempRead 0 false) (chanOfD (fun x => { x with cool := 2 })) (fun t => (chan 0 t).cool == 2),
    does (.zqCal 0) (chanOfD (fun x => { x with rows := [(0, 5)] })) (fun t => (chan 0 t).rows.isEmpty)].all id = true := by decide +kernel
theorem test_retraining : [
    does (.retrainDue 0) { served with now := 450000000000 } (fun t => (chan 0 t).due == some 450000000000),
    does (.retrainDue 0) { served with now := 449999999999 } (fun t => (chan 0 t).due.isNone),
    does (.retrainStart 0 []) (chanOfD (fun x => { x with trainReqs := [{ force := true, full := true }] })) (fun t => (chan 0 t).training == some .full && vget (chan 0 t).ctr 9 == 1),
    does (.retrainStart 0 []) (chanOfD (fun x => { x with trainReqs := [{ force := true }] })) (fun t => (chan 0 t).training == some .periodic && vget (chan 0 t).ctr 10 == 1),
    does (.retrainStart 0 []) { chanOfD (fun x => { x with due := some 0, reqs := [{ use := .scratch 0 }], lastClass0 := some 50000000 }) with now := 50000000 } (fun t => (chan 0 t).training == some .periodic),
    does (.retrainDone 0 true []) (chanOfD (fun x => { x with training := some .replay })) (fun t => (chan 0 t).replaying && (chan 0 t).lastTry),
    does (.retrainDone 0 false []) (chanOfD (fun x => { x with training := some .replay })) (fun t => (chan 0 t).state == 3),
    does (.retrainDone 0 true []) { chanOfD (fun x => { x with training := some .full }) with now := 9 } (fun t => (chan 0 t).training.isNone && (chan 0 t).trainedAt == 9),
    does (.rateChange) served (fun t => t.dram.rateReqs.isEmpty),
    does (.rateChange) (withDram (fun d => { d with cfg := [1, 1, 0, 5, 2], rateReqs := [(9, 1)] }) served) (fun t => t.dram.rateReqs.isEmpty && (chan 0 t).rate == 2)].all id = true := by decide +kernel

/-! Reliability (R440 to R451). -/

theorem test_writeback : [
    does (.arrayWriteback (.single 15 9)) up (fun t => t.rel.writeback == [(15, 9)] && vget t.rel.ctr 2 == 1),
    does (.arrayWriteback (.overwritten 15 9)) (relOf (fun x => { x with writeback := [(15, 9), (1, 1)] })) (fun t => t.rel.writeback == [(1, 1)]),
    does (.arrayWriteback .slot) (relOf (fun x => { x with writeback := [(15, 9), (1, 1)] })) (fun t => t.rel.writeback == [(1, 1)]),
    does (.arrayWriteback (.uncorr 7 (.key 2559))) (keyed 2559 {} up) (fun t => t.sec.slots.isEmpty && t.host.evt.held.length > 0),
    does (.arrayWriteback (.uncorr 7 (.bank 2 0))) up (fun t => vget (lane 2 t).memFenced 0),
    does (.arrayWriteback (.uncorr 0 .mp)) up (fun t => t.life.mpStopped)].all id = true := by decide +kernel
theorem test_ternary : [
    does (.ternaryRepair 1023 false) (relOf (fun x => { x with badRows := [1023] })) (fun t => t.rel.badRows.isEmpty && vget t.rel.ctr 5 == 1),
    does (.ternaryRepair 1023 true) (relOf (fun x => { x with badRows := [1023] })) (fun t => t.host.evt.held.length > 0),
    does (.ternaryRepair 1023 true) up (fun t => t.host.evt.held.isEmpty)].all id = true := by decide +kernel
theorem test_gleaner : [
    does (.gleanerAccess 15 9 (.single true)) up (fun t => vget t.rel.ctr 2 == 1 && vget t.rel.ctr 8 == 0),
    does (.gleanerAccess 15 9 (.single false)) up (fun t => vget t.rel.ctr 2 == 1 && vget t.rel.ctr 8 == 1),
    does (.gleanerAccess 15 9 .clean) up (fun t => vget t.rel.ctr 2 == 0),
    does (.gleanerAccess 16 9 (.burst 64 1 (.one 8))) served (fun t => vget (chan 0 t).ctr 2 == 1 && vget t.rel.ctr 8 == 1),
    does (.gleanerAccess 17 9 (.burst 64 1 (.two 0 8))) served (fun t => khas (chan 1 t).poison 64),
    does (.weakRegionScrub 0 511 (.single false)) (relOf (fun x => { x with weak := [{ array := 3, region := 1 }] })) (fun t => vget t.rel.ctr 2 == 1),
    does (.weakRegionScrub 1 511 (.single false)) (relOf (fun x => { x with weak := [{ array := 3, region := 1 }] })) (fun t => vget t.rel.ctr 2 == 0)].all id = true := by decide +kernel
theorem test_gleaner_passes : [
    does (.gleanerPassEnd 15) { up with now := 9 } (fun t => (vget t.rel.passes 15).began == 9 && vget t.rel.ctr 6 == 1),
    does (.gleanerEscalate 17) { served with now := hourTicks } (fun t => (vget t.rel.passes 17).escalated && t.host.evt.held.length == 1),
    does (.gleanerEscalate 17) { served with now := hourTicks - 1 } (fun t => !(vget t.rel.passes 17).escalated)].all id = true := by decide +kernel
theorem test_ageing_margins : [
    does (.stressSample 100) up (fun t => t.rel.bootS == 1),
    does (.marginReplan 5 4) up (fun t => t.rel.t1 == 2500 && t.rel.t2 == 1250),
    does (.gainCal .c 15 3 0) up (fun t => t.rel.gainInt == 600),
    does (.gainCal .c 15 3 12) up (fun t => (vget (vget t.fe 2).chains 15).ageDerate == 12 && t.rel.gainInt == 300),
    does (.gainCal .c 15 3 13) up (fun t => (vget (vget t.fe 2).chains 15).st == .fallowAge && t.host.evt.held.length == 1),
    does (.cairnReady) { up with now := 43200000000000 } (fun t => t.host.evt.held.length == 1),
    does (.cairnReady) up (fun t => t.host.evt.held.isEmpty)].all id = true := by decide +kernel

/-! The wake receiver (R134 to R144). -/

theorem test_wur_frame : [
    does (.wurFrameRx wake) up (fun t => vget t.wur.ctr 0 == 0),
    does (.wurFrameRx { wake with fcsOk := false }) { wurOf (fun w => { w with mode := 1 }) with now := 448000 } (fun t => vget t.wur.ctr 0 == 1 && vget t.wur.ctr 1 == 1),
    does (.wurFrameRx wake) { wurOf (fun w => { w with mode := 1 }) with now := 448000 } (fun t => vget t.wur.ctr 3 == 1),
    does (.wurFrameRx wake) { wurOf (fun w => { w with mode := 2 }) with now := 3000000 } (fun t => vget t.wur.ctr 0 == 0),
    does (.wurFrameRx wake) { wurOf (fun w => { w with mode := 1, blankTill := 1 }) with now := 448000 } (fun t => vget t.wur.ctr 0 == 0),
    does (.wurFrameRx wake) { wurOf (fun w => { w with mode := 1, table := vset w.table 63 { ctrl := 3, types := 1, id := 5, idMask := 0xFFF } }) with now := 448000 } (fun t => vget t.wur.ctr 2 == 1 && t.host.evt.held.length == 1)].all id = true := by decide +kernel
theorem test_wur_repeat : [
    does (.wurFrameRx wake) { wurOf (fun w => { w with mode := 1, lastEvt := [(63, 0)], table := vset w.table 63 { ctrl := 3, types := 1, id := 5, idMask := 0xFFF } }) with now := 49999999 } (fun t => vget t.wur.ctr 2 == 1 && t.host.evt.held.isEmpty),
    does (.wurFrameRx wake) (withLife (fun l => { l with armed := true, bivouacN := false, bivSources := 3 }) { (wurOf fun w => { w with mode := 1, table := vset w.table 63 { ctrl := 3, types := 1, id := 5, idMask := 0xFFF } }) with now := 448000 }) (fun t => t.life.wakeOut || t.rtc.wakeWur)].all id = true := by decide +kernel
theorem test_wur_other : [
    does (.wurWindow true) (wurOf (fun w => { w with mode := 2 })) (fun t => t.wur.window),
    does (.wurWindow true) (wurOf (fun w => { w with mode := 1 })) (fun t => !t.wur.window),
    does (.wurCopyDue 15) up (fun t => t.wur.tx.isEmpty),
    does (.wurCopyDue 15) (wurOf (fun w => { w with tx := [(15, { left := 1 })] })) (fun t => ((kget t.wur.tx 15).map fun x => (x.left, x.waiting)) == some (0, true)),
    does (.wurCopyDue 15) (wurOf (fun w => { w with tx := [(15, { left := 1, waiting := true })] })) (fun t => vget t.wur.ctr 6 == 1)].all id = true := by decide +kernel

/-! Registers (R3, R4, R33, R34). -/

theorem test_register_access : [
    does (.registerWrite (.bar 0x1006 4 1)) up (fun t => t.host.evt.base == 0),
    does (.registerWrite (.bar 0x1004 2 1)) up (fun t => t.host.evt.base == 0 && t.host.pcie.aerUr),
    does (.registerWrite (.bar 0x1000 8 0x123456789ABCDEF0)) up (fun t => t.host.evt.base == baseHi (baseLo 0 0x9ABCDEF0) 0x12345678),
    does (wr 0x0C 1) (lifeOf (fun l => { l with wipeBusy := true })) (fun t => t.glb.resetCause == 0),
    does (wr 0x1008 12) (lifeOf (fun l => { l with wipeBusy := true })) (fun t => t.host.evt.sizeLog == 0),
    does (.registerWrite (.msixEnable true)) up (fun t => t.host.msixEn)].all id = true := by decide +kernel
theorem test_registers_host : [
    does (wr 0x1014 0x30) up (fun t => t.host.evt.minSev == 3 && !t.host.evt.en),
    does (wr 0x1018 1) (withEvt (fun w => { w with overflow := true }) up) (fun t => !t.host.evt.overflow),
    does (wr (0x1100 + 4 * 136) 0xFFFFFFFF) up (fun t => vget t.host.route 136 == 0x0FFFFF3F#32),
    does (wr (0xF00000 + 4 * 255 - 4 * 1) 7) up (fun t => vget t.host.msixTbl 254 == 7),
    does (wr 0x17000 0x04030201) up (fun t => memByte t.bar 0x17003 == 4),
    does (wr 0x17100 1) up (fun t => (vget t.host.mbx 7).refuse == 3),
    does (wr 0x201C8 12) up (fun t => (vget t.host.cq 7).sizeLog == 12),
    does (wr 0x101FCC 0x32) up (fun t => (vget t.rings.hrx 63).hostStream && (vget t.rings.hrx 63).stampTb == 3)].all id = true := by decide +kernel
theorem test_registers_time : [
    does (wr 0x2000D0 0x20001) up (fun t => (vget t.time.tb 3).incLo == 0x20001#32),
    does (wr 0x2000E0 9) (withTb 3 (fun b => { b with fwOwned := true }) up) (fun t => (vget t.time.tb 3).setNs == 0),
    does (wr 0x2000CC 0xF00) (withTb 3 (fun b => { b with sat := true, incInv := true, adjInv := true, setInv := true }) up) (fun t => !(vget t.time.tb 3).sat && !(vget t.time.tb 3).setInv),
    does (wr 0x200108 2) (withTime (fun x => { x with ppsEarly := true }) up) (fun t => !t.time.ppsEarly)].all id = true := by decide +kernel
theorem test_registers_rtc : [
    does (wr 0x201010 0xFFFFFFFF) (rtcOf (fun r => { r with locked := false })) (fun t => t.rtc.holdDate == 0x01FF0F1F#32),
    does (wr 0x201014 0xFFFFFFFF) up (fun t => t.rtc.holdTime == 0 && !t.rtc.armed),
    does (wr 0x20101C 0x15) (rtcOf (fun r => { r with locked := false })) (fun t => t.rtc.alarmEn && t.rtc.sqwSel == 0),
    does (wr 0x20107C 0x04030201) (rtcOf (fun r => { r with locked := false })) (fun t => vget t.rtc.backup 63 == 4 && vget t.rtc.backup 60 == 1)].all id = true := by decide +kernel
theorem test_registers_other : [
    does (wr 0x202000 0xFFFFFFFF) up (fun t => t.coex.ctrl == 0x0000FFF7#32),
    does (wr 0x202008 0) up (fun t => t.coex.maxHold == 1),
    does (wr 0x202010 0x3F00) { up with coex := { up.coex with stuck := 7, fast := 7 } } (fun t => t.coex.stuck == 0 && t.coex.fast == 0),
    does (wr 0x203018 0xFFFFFFFF) up (fun t => t.life.lcWdt == 0x1FF#32),
    does (wr 0x2033FC 0x04030201) up (fun t => memByte t.bar 0x2033FF == 4),
    does (wr 0x37EFFC 0x04030201) (lifeOf (fun l => { l with fwState := .empty })) (fun t => memByte t.mpRam 0x7EFFF == 4),
    does (wr 0x37EFFC 0x04030201) up (fun t => t.mpRam.isEmpty)].all id = true := by decide +kernel

/-! Further clauses of the statements: one state for each. -/

theorem test_clauses_radio : [
    does (.coexStuck .b) air (fun t => vget t.coex.grants 1 == 0),
    does (.radioStateApply .b) (feOf 1 (fun e => { e with stateReq := [(9#32, .off, .off)], owesResp := true })) (fun t => (vget t.fe 1).stateReq.length == 1),
    does (.calForced .b) (feOf 1 (fun e => { e with calPending := some 5 })) (fun t => (vget t.fe 1).calPending == some 5),
    does (.derateResearch .b 0) { withChain 1 0 (fun k => { k with st := .derated3 }) (txing { kind := .beacon }) with now := 30000000000 } (fun t => (vget (vget t.fe 1).chains 0).searchDue),
    does (.derateResearch .b 0) (withChain 1 0 (fun k => { k with st := .derated3 }) air) (fun t => !(vget (vget t.fe 1).chains 0).judge),
    does (.avsPauseEnd) { air with power := { air.power with pauseAt := 5 }, glb := { air.glb with avsPause := true } } (fun t => t.glb.avsPause),
    does (.hlUndo .b) { withPower (fun p => { p with hlOffset := 5 }) (hlOf 1 (fun h => { h with evals := 2, p1 := some 60000 })) with now := 15000000000 } (fun t => t.power.hlOffset == 0 && t.power.writeAt == 15000000000)].all id = true := by decide +kernel
theorem test_clauses_reception : [
    does (.tbtt 16 ()) (withBss 16 (fun b => { b with en := true, interval := 100 }) (withTb 2 (fun b => { b with ns := 5000 }) air)) (fun t => (vget t.mac.radio 1).txNext.isEmpty),
    does (.twtSpStart 0) (withTb 2 (fun b => { b with ns := 5000 }) (withMac (fun m => { m with twt := [(0, { bss := 16, next := 99 })] }) (sta5 air))) (fun t => ((kget t.mac.twt 0).map (·.next)) == some 99),
    does (.mpduRx .b (mpdu .data 0)) (rxing { valid := true, fmt := 4, users := [{ (default : UserSig) with nss := 1 }] }) (fun t => vget (vget t.phy 1).ctr 12 == 0),
    does (.rxPpduEnd .b { ppduEnd with overflow := true }) rxing (fun t => vget (vget t.fe 1).ctr 0 == 1 && (vget t.phy 1).rx.isNone),
    does (.rxPpduEnd .b { ppduEnd with asks := 1 }) rxing (fun t => (vget t.fe 1).owesResp && (vget t.phy 1).tail.isNone),
    does (.rxPpduEnd .b { ppduEnd with due := 1 }) rxing (fun t => !(vget t.fe 1).owesResp && (vget t.phy 1).tail.isSome),
    does (.commitPoint .b) (macOf 1 (fun m => { m with commit := some 9 })) (fun t => (vget t.mac.radio 1).commit == some 9),
    does (.commitPoint .b) (owed id) (fun t => (vget t.mac.radio 1).commit.isNone)].all id = true := by decide +kernel
theorem test_clauses_transmission : [
    does (.txPpduEnd .b ⟨true, []⟩) (withFe 1 (fun e => { e with ret := .standby }) (txing { aborted := true })) (fun t => (vget t.fe 1).trans.isSome),
    does (.ccaChange .b 15 (-60) false) air (fun t => vget (vget t.mac.radio 1).ctr 0 == 0),
    does (.backoffSlot .b () ()) { macOf 1 (fun m => { m with idleAt := some 0, bo := vset m.bo 3 { counter := some 2 }, edca := vmod m.edca 3 fun e => { e with aifsn := 1 } }) with now := 12500 } (fun t => (vget (vget t.mac.radio 1).bo 3).counter == some 2),
    does (.furrowLateWindow .b) (rsOf 1 (fun k => { k with lateFrom := 5 })) (fun t => (vget t.sched.radio 1).lateFrom == 5),
    does (.recipCalRequest .b) (rbOf 1 (fun b => { b with endAt := some 5 })) (fun t => (vget t.bf.radio 1).endAt == some 5)].all id = true := by decide +kernel
theorem test_clauses_rope : [
    does (.joinConfirm (kn (pad 16 []) 6)) (ropeOf .lead (fun x => { x with issued := [(6, { nl := pad 16 [], entry := { serial := 77 } })] })) (fun t => khas t.rope.roster 6),
    does (.roster (kn (be 4 1 ++ [0, 1, 0, 0]))) (roped .lead) (fun t => t.rope.roster.length == 2),
    does (.clients (kn (be 2 9 ++ [1, 2, 0, 1, 0, 0]))) (ropeOf .lead (fun x => { x with roster := [(3, { pitch := 1, lead := true, anchor := true }), (5, { pitch := 2 })] })) (fun t => !khas t.rope.clients 5),
    does (.belay (kn (be 8 0 ++ be 4 1 ++ be 2 9 ++ [0, 0] ++ be 8 1))) (ropeOf .member (fun x => { x with term := 5 })) (fun t => t.rope.term == 5),
    does (.proposalSend 5 6 []) (roped .lead) (fun t => t.rope.propSlot == some 0 && t.rope.proposals.length == 1),
    does (.proposalSend 5 6 []) (ropeOf .lead (fun x => { x with propSlot := some 0 })) (fun t => t.rope.proposals.isEmpty)].all id = true := by decide +kernel
theorem test_clauses_time : [
    does (.tbCmdAdj 0 2#32) (withTb 0 (fun b => { b with fwOwned := true, adjNs := 7 }) up) (fun t => (vget t.time.tb 0).ns == 0),
    does (.tbIncCommit 0 1#32) (withTb 0 (fun b => { b with fwOwned := true }) up) (fun t => (vget t.time.tb 0).incHi == up.time.tb[0].incHi),
    does (.rtcCommit 3#32) (rtcOf (fun r => { r with dateInvalid := true, locked := false })) (fun t => t.rtc.dateInvalid),
    does (.rtcCommitLoad) (rtcOf (fun r => { r with dateInvalid := true })) (fun t => t.rtc.dateInvalid)].all id = true := by decide +kernel
theorem test_clauses_seeder : [
    does (.seederEvaluation (.channel .b [(5250, 300)])) (withFe 1 (fun e => { e with centre := 5250, bw := 0, prim := 0 }) (withSeed (fun x => { x with fences := [(7, { kind := 2, bytes := [0, 0, 2, 0, 1, 1, 0, 0] ++ le 2 5180 ++ [0, 0xFF] })] }) air)) (fun t => t.seed.evalAt.length == 1),
    does (.seederEvaluation (.bank 1 0 101 201 3)) (seedOf (fun x => { x with place := [(placeKey 5 (bankObject 1 0), { value := 1, till := 9 })] })) (fun t => placedAt 5 (bankObject 1 0) t == 1),
    does (.seederOverload .queue 0 true [851, 599] [(2 ^ 31, false, 1)]) (withRouter (fun x => { x with indir := vset x.indir 0 0x4000, pair := vset x.pair 0 { member := #v[true, true] } }) (withSeed (fun x => { x with place := [(placeKey 2 (2 ^ 31), { value := 0, till := 9 })] }) wired)) (fun t => placedAt 2 (2 ^ 31) t == 0 && vget t.seed.ctr 2 == 1)].all id = true := by decide +kernel
theorem test_clauses_router : [
    does (.flowAgeCheck) (withRouter (fun x => { x with agedAt := some 5, flows := [(3, { idle := 1 })] }) up) (fun t => t.router.flows.length == 1),
    does (.flowAgeCheck) { withRouter (fun x => { x with flows := [(3, { idle := 1 })] }) up with now := 500000000 } (fun t => t.router.flows.isEmpty && vget t.router.ctr 13 == 1),
    does (.pauseEnd 0) (portOf (fun x => { x with pause := some (0, 50) })) (fun t => (port 0 t).pause.isSome),
    does (.preemptVerify 0) (portOf (fun x => { x with verifies := 1, verifyTime := 10 })) (fun t => (port 0 t).verifies == 1),
    does (.capsSend 0) (portOf (fun x => { x with capsSent := some 0 })) (fun t => (port 0 t).capsSent == some 0),
    does (.fallowCapsTimeout 0) (portOf (fun x => { x with capsAt := some 0 })) (fun t => (port 0 t).capsAt == some 0),
    does (.stepReqTimeout 0) wired (fun t => (port 0 t).up),
    does (.launchWireHold 0) (portOf (fun x => { x with launchQ := [{ fr with express := true, launch := some (2, 10 ^ 9) }], launchHeld := true, preempt := true })) (fun t => !(port 0 t).wireHold)].all id = true := by decide +kernel
theorem test_clauses_host : [
    does (.msixDeferredSend (.l0 2 .x4)) up (fun t => t.host.link == .l0 2 .x4),
    does (.msixDeferredSend (.l0 2 .x4)) { up with host := { up.host with deferred := [.write 4096 [1], .msg 3], msixEn := true, msixTbl := vset up.host.msixTbl 15 0 } } (fun t => t.host.deferred.isEmpty && t.out.length == 2),
    does (.hringEnable true 0) (txRing { sizeLog := 6, prod := 65 }) (fun t => (vget t.rings.htx 0).halted),
    does (.hringDisable false 0) (rxRing [] { en := true, sizeLog := 6, prod := 2, cur := some { frame := fr } }) (fun t => (vget t.rings.hrx 0).cur.isNone && !(vget t.rings.hrx 0).en),
    does (.hrxFrameDeliver 0 [pad 8 [] ++ [0, 8] ++ pad 22 []]) (rxRing [] { en := true, sizeLog := 6, prod := 2, cur := some { frame := fr, left := [1] } }) (fun t => (vget t.rings.hrx 0).cur.isNone),
    does (.hrxFrameDeliver 0 [pad 8 [] ++ [0, 1] ++ pad 22 []]) (rxRing [{ fr with bytes := pad 300 [] }]) (fun t => (vget t.rings.hrx 0).cur.isSome),
    does (.hrxFrameDeliver 0 [pad 8 [] ++ [0, 1] ++ pad 22 []]) (rxRing [{ fr with bytes := pad 300 [] }] { en := true, sizeLog := 6, prod := 1 }) (fun t => (vget t.rings.hrx 0).cur.isNone),
    does (.htxFrameFetch 0 [pad 8 [] ++ [60, 0] ++ [3, 0] ++ pad 20 []] (pad 60 [])) txRing (fun t => (vget t.rings.htx 0).inflight.length + t.router.inq.length > 0),
    does (.abortCommand 0 []) (withMbx 0 (fun b => { b with cmds := b.cmds ++ [{ handle := 2#32 }] }) (ask abortCommandForm (le 4 2) up)) (fun t => t != up),
    does (.abortCommand 0 []) (withMbx 0 (fun b => { b with cmds := b.cmds ++ [{ handle := 2#32, phase := .running }] }) (ask abortCommandForm (le 4 2) up)) (fun t => t != up)].all id = true := by decide +kernel
theorem test_clauses_security : [
    does (.cipherFrame 0 0 0 true) (keyed 3 {} (sta5 (secOf fun x => { x with jobs := [{ kind := .rxAir, unit := 1, slot := some 3, frame := { slot := some 3, pn := 0, sta := 5, bytes := pad 64 [] } }] }) { links := 7, stream := [(0, (3, 64))] })) (fun t => vget (vget t.mac.radio 1).ctr 11 == 1),
    does (.cipherFrame 0 0 0 true) (keyed 3 {} (sta5 (secOf fun x => { x with jobs := [{ kind := .rxAir, unit := 1, slot := some 3, frame := { slot := some 3, pn := 1, sta := 5, bytes := pad 64 [] } }] }) { links := 7, stream := [(0, (3, 64))] })) (fun t => vget t.sec.ctr 1 == 1),
    does (.keyHoldTimeout 0) (secOf (fun x => { x with port := vmod x.port 0 fun p => { p with en := true }, jobs := [{ kind := .txWire, unit := 0, frame := eframe }] })) (fun t => t.sec.jobs.length == 1),
    does (.saeContextTimeout 0) (secOf (fun x => { x with sae := [(0, {})] })) (fun t => t.sec.sae.length == 1)].all id = true := by decide +kernel
theorem test_clauses_dram : [
    does (.dramRead 0 (.serve .clean none)) (chanOfD (fun x => { x with reqs := [req], poison := [(64, 3)] })) (fun t => (chan 0 t).reqs.isEmpty),
    does (.tempRead 0 true) (chanOfD (fun x => { x with tempAt := some 0 })) (fun t => (chan 0 t).tempAt == some 0),
    does (.zqCal 0) (chanOfD (fun x => { x with zqAt := some 0 })) (fun t => (chan 0 t).zqAt == some 0),
    does (.retrainStart 0 []) (chanOfD (fun x => { x with due := some 0, lastClass0 := some 0 })) (fun t => (chan 0 t).training.isNone),
    does (.retrainDone 0 false []) (chanOfD (fun x => { x with training := some .full })) (fun t => (chan 0 t).training.isNone),
    does (.arrayWriteback (.uncorr 7 (.tidQueue 40))) up (fun t => t.host.evt.held.length > 0),
    does (.gleanerAccess 1 7 (.uncorr (.htx 0))) up (fun t => t.host.evt.held.length > 0),
    does (.stressSample 50) (relOf (fun x => { x with stressAt := some 0 })) (fun t => t.rel.stressAt == some 0),
    does (.marginReplan 1 2) (relOf (fun x => { x with replanAt := some 0 })) (fun t => t.rel.replanAt == some 0),
    does (.wurCopyDue 15) (wurOf (fun w => { w with tx := [(15, {})] })) (fun t => vget t.wur.ctr 6 == 0)].all id = true := by decide +kernel
theorem test_clauses_lanes : [
    does (.jobStart 2 (some 1) []) (withLane 2 (fun x => { x with owner := 1 }) up) (fun t => (lane 2 t).bjob == some 1),
    does (.canaryMeasure 2 5) up (fun t => (lane 2 t).canaryAt == 0),
    does (.telemSteal 2 5) up (fun t => (lane 2 t).canaryAt == 0)].all id = true := by decide +kernel
theorem test_clauses_more : [
    does (.completionWrite 3) (withLife (fun l => { l with fwState := .bivouac, bivDone := some 5#32 }) (withCq 3 (fun q => { q with en := true, sizeLog := 4, waiting := [{ handle := 5#32 }] }) up)) (fun t => t.life.bivPrep && t.life.armed && t.life.bivDone.isNone),
    does (.launchInstant 3 ()) { withRm 1 (fun x => { x with launchQ := [{ fr with sta := 5 }], launchHeld := true, idleAt := some 0 }) (sta5 air { links := 7, txKey := some (0, 9) }) with now := 20000 } (fun t => vget t.sec.ctr 13 == 1),
    does (.htxFrameFetch 0 [pad 8 [] ++ [60, 0] ++ [3, 4] ++ pad 20 []] (pad 60 [])) txRing (fun t => (vget t.rings.htx 0).frames == 1),
    does (.rxPpduEnd .b ppduEnd) (rxing { valid := true, fmt := 3, endAt := 5, users := [{ (default : UserSig) with nss := 1 }] }) (fun t => (vget t.phy 1).rx.isSome),
    does (.joinAck (kn ([0, 0] ++ be 2 5 ++ be 4 3 ++ be 4 8 ++ pad 32 []))) (roped .member) (fun t => !t.rope.accepted),
    does (.fragmentSlowPath [] []) (withRouter (fun x => { x with fragIn := [ip4 0x2000] }) up) (fun t => t.router.fragIn.isEmpty),
    does (.fragmentSlowPath [] []) (withRouter (fun x => { x with fragIn := [ip4 1] }) up) (fun t => t.router.slow.length == 1),
    does (.fragmentSlowPath [] []) (withRouter (fun x => { x with fragIn := [ip4 1], slow := [{ key := fragKey (ip4 1).bytes (((reparse (ip4 1) up).fragHdr).getD {}), dec := some {} }] }) up) (fun t => t.router.fragIn.isEmpty),
    does (.routerClassify 0 0 [] []) (routed [ip4 0]) (fun t => t.router.inq.isEmpty && vget t.router.ctr 0 == 1),
    does (.routerClassify 0 0 [] []) (routed [{ ip4 0 with bytes := List.replicate 12 2 ++ [0x81, 0, 0, 1, 0x81, 0, 0, 1, 0x81, 0] ++ pad 40 [] }]) (fun t => t.router.excq.length + vget t.router.ctr 18 == 1),
    does (.backoffSlot .b () ()) { alone with now := 12500 } (fun t => (vget (vget t.mac.radio 1).bo 3).counter == some 2),
    does (.backoffSlot .b () ()) { alone with now := 17000 } (fun t => (vget (vget t.mac.radio 1).bo 3).counter == some 1),
    does (.backoffSlot .b () ()) { withRm 1 (fun m => { m with bo := vset m.bo 3 { counter := some 1 } }) alone with now := 17000 } (fun t => (vget (vget t.mac.radio 1).bo 3).counter != some 1),
    does (.backoffSlot .b () ()) { withRm 1 (fun m => { m with bo := vset m.bo 3 { counter := some 0 } }) alone with now := 12500 } (fun t => (vget (vget t.mac.radio 1).bo 3).counter != some 1)].all id = true := by decide +kernel

end Sys2Proof.Tests
end

section
/-!
SUPPORT. The mailbox doorbell (spec/02_host_mailboxes.md, R38 to R40): the cause it is refused for, the two shapes of its effect, and the
statement about it.
-/
namespace Sys2Proof.Machine
open Sys2Proof

/-- The completion queue that the header in MBX_CMD names (byte 5, Table 2.9). -/
def doorbellCq (m : Nat) (s : State) : Nat := (memByte s.bar (mbxBase m + 5)).toNat

/-! The refusal cause, in the order of R39. -/

theorem doorbellCause_notReady {m : Nat} {s : State} (hfw : s.life.fwState ≠ .running) : doorbellCause m s = 2 := by
  simp [doorbellCause, hfw]

theorem doorbellCause_badCq {m : Nat} {s : State} (hfw : s.life.fwState = .running)
    (hcq : 8 ≤ doorbellCq m s ∨ (vget s.host.cq (doorbellCq m s)).en = false) : doorbellCause m s = 3 := by
  unfold doorbellCq at hcq
  simp [doorbellCause, hfw, hcq]

/-- With the firmware running and an enabled queue named, only the count of outstanding commands is left to check. -/
theorem doorbellCause_goodCq {m : Nat} {s : State} (hfw : s.life.fwState = .running) (hcq : doorbellCq m s < 8)
    (hen : (vget s.host.cq (doorbellCq m s)).en = true) : doorbellCause m s = if 256 ≤ outstanding m s then 1 else 0 := by
  unfold doorbellCq at hcq hen
  simp [doorbellCause, hfw, hen, Nat.not_le.mpr hcq]

/-! Counts and handles (R40, Table 2.10). -/

theorem nextCount_eq (n : Nat) : nextCount n = if n + 1 < 2 ^ 29 then n + 1 else 1 := by
  unfold nextCount
  split <;> split <;> omega

theorem nextCount_lt (n : Nat) : nextCount n < 2 ^ 29 := by
  rw [nextCount_eq]
  split <;> omega

theorem mkHandle_of_lt {m n : Nat} (h : n < 2 ^ 29) : mkHandle m n = BitVec.ofNat 32 (m * 2 ^ 29 + n) := by
  rw [mkHandle, Nat.mod_eq_of_lt h]

theorem mkHandle_zero (m : Nat) : mkHandle m 0 = BitVec.ofNat 32 (m * 2 ^ 29) := by
  rw [mkHandle, Nat.zero_mod, Nat.add_zero]

/-! The doorbell's effect. -/

theorem doorbell_refused {m c : Nat} {s : State} (hc : doorbellCause m s = c) (hne : c ≠ 0) :
    doorbell m s = withMbx m (fun b => { b with refuse := c, status := BitVec.ofNat 32 (m * 2 ^ 29) }) s := by
  simp only [doorbell, hc, hne, ne_eq, not_false_eq_true, if_true, mkHandle_zero]

/-- What a taken doorbell does to its mailbox, `n` being the new command count. -/
def takeCommand (m n : Nat) (s : State) (b : Mailbox) : Mailbox :=
  let h : Word := BitVec.ofNat 32 (m * 2 ^ 29 + n)
  { b with
    count := n, refuse := 0, status := h
    cmds := b.cmds ++ [{ handle := h, hdr := memRead s.bar (mbxBase m) 16, params := memRead s.bar (mbxBase m + 16) 240, at_ := s.now,
                         phase := .queued }] }

theorem doorbell_taken {m : Nat} {s : State} (hc : doorbellCause m s = 0) :
    doorbell m s = withMbx m (takeCommand m (nextCount (vget s.host.mbx m).count) s) s := by
  simp only [doorbell, hc, ne_eq, not_true_eq_false, if_false, mkHandle_of_lt (nextCount_lt _)]
  rfl

theorem exec_mbxDoorbell {m : Fin 8} {s : State} (hl : live s = true) : exec (.mbxDoorbell m) s = .next (doorbell m s) :=
  whenLive_live (f := doorbell m) hl

theorem exec_mbxDoorbell_refused {m : Fin 8} {c : Nat} {s : State} (hl : live s = true) (hc : doorbellCause m s = c) (hne : c ≠ 0) :
    exec (.mbxDoorbell m) s = .next (withMbx m (fun b => { b with refuse := c, status := BitVec.ofNat 32 (m * 2 ^ 29) }) s) := by
  rw [exec_mbxDoorbell hl, doorbell_refused hc hne]

/-- Settles O19: each clause fixes the refusal cause, and the cause fixes what the doorbell does. -/
theorem doorbellTakesOrRefuses : Obligations.DoorbellTakesOrRefuses := by
  unfold Obligations.DoorbellTakesOrRefuses
  intro m s hl cq refused
  refine ⟨fun hfw => ?notReady, fun hfw hcq => ?badCq, fun hfw hcq hen hout => ?full, fun hfw hcq hen hout => ?taken⟩
  case notReady => exact exec_mbxDoorbell_refused hl (doorbellCause_notReady hfw) (by decide)
  case badCq => exact exec_mbxDoorbell_refused hl (doorbellCause_badCq hfw hcq) (by decide)
  case full =>
    have hc : doorbellCause m s = 1 := (doorbellCause_goodCq hfw hcq hen).trans (if_pos hout)
    exact exec_mbxDoorbell_refused hl hc (by decide)
  case taken =>
    have hc : doorbellCause m s = 0 := (doorbellCause_goodCq hfw hcq hen).trans (if_neg (Nat.not_le.mpr hout))
    rw [exec_mbxDoorbell hl, doorbell_taken hc, nextCount_eq]
    rfl

end Sys2Proof.Machine
end

section
/-!
SUPPORT. What leaves the battery domain alone: the shared operations behind the resets (R67) and the events do not touch the RTC.
-/
namespace Sys2Proof.Machine
open Sys2Proof

@[simp] theorem ite_rtc (c : Prop) [Decidable c] (a b : State) : (if c then a else b).rtc = if c then a.rtc else b.rtc :=
  apply_ite State.rtc c a b

@[simp] theorem foldl_rtc {α : Type} {f : State → α → State} (h : ∀ t a, (f t a).rtc = t.rtc) (l : List α) (s : State) :
    (l.foldl f s).rtc = s.rtc :=
  List.foldlRecOn (motive := fun t => t.rtc = s.rtc) l f rfl fun t ht a _ => (h t a).trans ht

@[simp] theorem foldr_rtc {α : Type} {f : α → State → State} (h : ∀ a t, (f a t).rtc = t.rtc) (l : List α) (s : State) :
    (l.foldr f s).rtc = s.rtc :=
  List.foldrRecOn (motive := fun t => t.rtc = s.rtc) l f rfl fun t ht a _ => (h a t).trans ht

/-- A fold that carries a value along with the state. -/
@[simp] theorem foldl_snd_rtc {α β : Type} {f : β × State → α → β × State} (h : ∀ p a, (f p a).2.rtc = p.2.rtc) (l : List α)
    (p : β × State) : (l.foldl f p).2.rtc = p.2.rtc :=
  List.foldlRecOn (motive := fun q => q.2.rtc = p.2.rtc) l f rfl fun q hq a _ => (h q a).trans hq

/-- What a command gives is what holds of the state it answers. -/
theorem Gives.of_exec {i : Instr} {s t : State} {P : State → Prop} (hexec : exec i s = .next t) (h : P t) : Gives i s P :=
  ⟨t, hexec, h⟩

/-! Random values, host memory, messages and events. -/

@[simp] theorem draw_rtc (w : Nat) (s : State) : (draw w s).2.rtc = s.rtc := rfl
@[simp] theorem deferTx_rtc (x : HostTx) (s : State) : (deferTx x s).rtc = s.rtc := rfl
@[simp] theorem hostWrite_rtc (addr : Nat) (b : List Byte) (s : State) : (hostWrite addr b s).rtc = s.rtc := by simp [hostWrite]
@[simp] theorem msixOut_rtc (v : Nat) (s : State) : (msixOut v s).rtc = s.rtc := rfl
@[simp] theorem sendMsix_rtc (v : Nat) (s : State) : (sendMsix v s).rtc = s.rtc := by simp [sendMsix]
@[simp] theorem clearUnsig_rtc (src : Nat) (s : State) : (clearUnsig src s).rtc = s.rtc := rfl
@[simp] theorem signalEntry_rtc (src : Nat) (s : State) : (signalEntry src s).rtc = s.rtc := by simp [signalEntry]
@[simp] theorem writeEntry_rtc (addr : Nat) (e : List Byte) (s : State) : (writeEntry addr e s).rtc = s.rtc := by simp [writeEntry]
@[simp] theorem writeHeld_rtc (h : Held) (s : State) : (writeHeld h s).rtc = s.rtc := by simp [writeHeld]

@[simp] theorem flushList_rtc (l : List Held) (s : State) : (flushList l s).2.rtc = s.rtc := by
  induction l generalizing s with
  | nil => rfl
  | cons h l ih =>
    unfold flushList
    split
    · exact ih _
    · split
      · exact (ih _).trans (writeHeld_rtc _ _)
      · rfl

@[simp] theorem flushHeld_rtc (s : State) : (flushHeld s).rtc = s.rtc := by simp [flushHeld]
@[simp] theorem dropEvent_rtc (s : State) : (dropEvent s).rtc = s.rtc := rfl
@[simp] theorem offerEvent_rtc (e : Event) (s : State) : (offerEvent e s).rtc = s.rtc := by simp [offerEvent]

@[simp] theorem raise_rtc (n : EvName) (inst : Nat) (data : List Byte) (s : State) :
    (raise n inst data s).rtc = s.rtc := by simp [raise]

/-! Commands that end. -/

@[simp] theorem queueCompletion_rtc (q : Nat) (c : Completion) (s : State) : (queueCompletion q c s).rtc = s.rtc := rfl

@[simp] theorem releaseList_rtc (l : List CmdRec) (s : State) : (releaseList l s).2.rtc = s.rtc := by
  induction l generalizing s with
  | nil => rfl
  | cons c l ih =>
    unfold releaseList
    split
    · exact (ih _).trans (queueCompletion_rtc _ _ _)
    · rfl

@[simp] theorem release_rtc (m : Nat) (s : State) : (release m s).rtc = s.rtc := by simp [release]
@[simp] theorem setPhase_rtc (h : Word) (ph : Phase) (s : State) : (setPhase h ph s).rtc = s.rtc := rfl
@[simp] theorem writeData_rtc (r : CmdRec) (data : List Byte) (s : State) : (writeData r data s).rtc = s.rtc := by simp [writeData]

@[simp] theorem finish_rtc (h : Word) (st : Status) (data : List Byte) (s : State) : (finish h st data s).rtc = s.rtc := by
  unfold finish
  split <;> simp

@[simp] theorem finishOpt_rtc (h : Option Word) (st : Status) (data : List Byte) (s : State) :
    (finishOpt h st data s).rtc = s.rtc := by
  unfold finishOpt
  split <;> simp

/-! Frames of the host rings. -/

@[simp] theorem writeTxStatus_rtc (n : Nat) (st : Status) (stamp : Nat) (i : BitVec 16) (s : State) :
    (writeTxStatus n st stamp i s).rtc = s.rtc := by simp [writeTxStatus]

@[simp] theorem advanceCons_rtc (n : Nat) (s : State) : (advanceCons n s).rtc = s.rtc := rfl

@[simp] theorem completeTx_rtc (n id : Nat) (st : Status) (stamp : Nat) (s : State) : (completeTx n id st stamp s).rtc = s.rtc := by
  unfold completeTx
  split <;> simp

@[simp] theorem frameDone_rtc (f : Frame) (st : Status) (stamps : List Nat) (s : State) : (frameDone f st stamps s).rtc = s.rtc := by
  unfold frameDone
  split <;> simp

/-! Medium access and the furrows. -/

@[simp] theorem macCount_rtc (r i k : Nat) (s : State) : (macCount r i k s).rtc = s.rtc := rfl
@[simp] theorem schedCount_rtc (r i k : Nat) (s : State) : (schedCount r i k s).rtc = s.rtc := rfl
@[simp] theorem cwLow_rtc (r a : Nat) (s : State) : (cwLow r a s).rtc = s.rtc := rfl
@[simp] theorem cwReset_rtc (r a : Nat) (s : State) : (cwReset r a s).rtc = s.rtc := rfl
@[simp] theorem adoptEdca_rtc (r a : Nat) (s : State) : (adoptEdca r a s).rtc = s.rtc := rfl
@[simp] theorem drawCounter_rtc (r a : Nat) (s : State) : (drawCounter r a s).rtc = s.rtc := rfl
@[simp] theorem cwFail_rtc (r a : Nat) (s : State) : (cwFail r a s).rtc = s.rtc := rfl

@[simp] theorem barDue_rtc (q : Nat) (f : Frame) (s : State) : (barDue q f s).rtc = s.rtc := by
  unfold barDue
  split <;> simp

@[simp] theorem llMiss_rtc (r : Nat) (n tid : Nat) (s : State) : (llMiss r n tid s).rtc = s.rtc := by
  unfold llMiss
  split <;> simp

@[simp] theorem dropMsdu_rtc (r n tid : Nat) (st : Status) (f : Frame) (s : State) :
    (dropMsdu r n tid st f s).rtc = s.rtc := by simp [dropMsdu]

@[simp] theorem retryDrop_rtc (r n tid : Nat) (f : Frame) (s : State) : (retryDrop r n tid f s).rtc = s.rtc := by simp [retryDrop]
@[simp] theorem lifeDrop_rtc (r n tid : Nat) (f : Frame) (s : State) : (lifeDrop r n tid f s).rtc = s.rtc := by simp [lifeDrop]

@[simp] theorem dropLost_rtc (r n : Nat) (p : Nat × Frame) (s : State) : (dropLost r n p s).rtc = s.rtc := by
  unfold dropLost
  split <;> simp

@[simp] theorem setTidQueue_rtc (q : Nat) (l : List Frame) (s : State) : (setTidQueue q l s).rtc = s.rtc := rfl
@[simp] theorem setGroupQueue_rtc (q : Nat) (l : List Frame) (s : State) : (setGroupQueue q l s).rtc = s.rtc := rfl
@[simp] theorem retryFrame_rtc (r n : Nat) (p : Nat × Frame) (s : State) : (retryFrame r n p s).rtc = s.rtc := by simp [retryFrame]

@[simp] theorem ackedFrame_rtc (r n : Nat) (p : Nat × Frame) (s : State) : (ackedFrame r n p s).rtc = s.rtc := by
  unfold ackedFrame
  split <;> simp

@[simp] theorem unclaim_rtc (r : Nat) (queue : Option Nat) (u : FUser) (s : State) : (unclaim r queue u s).rtc = s.rtc := by
  unfold unclaim
  split <;> simp

@[simp] theorem takeBars_rtc (r : Nat) (u : FUser) (s : State) : (takeBars r u s).2.rtc = s.rtc := by simp [takeBars]

@[simp] theorem emlsrRest_rtc (r : Nat) (stas : List Nat) (s : State) :
    (emlsrRest r stas s).rtc = s.rtc :=
  foldl_rtc (fun _ _ => by rfl) _ _

@[simp] theorem chargeBss_rtc (f : Furrow) (s : State) : (chargeBss f s).rtc = s.rtc := by
  unfold chargeBss
  split <;> simp

@[simp] theorem chargeUser_rtc (r : Nat) (queue : Option Nat) (u : FUser) (t : Nat) (s : State) :
    (chargeUser r queue u t s).rtc = s.rtc := by
  unfold chargeUser
  split <;> simp

@[simp] theorem ulOutcome_rtc (r : Nat) (tb : List Nat) (u : FUser) (s : State) :
    (ulOutcome r tb u s).rtc = s.rtc := by simp [ulOutcome]

@[simp] theorem dlOutcome_rtc (r : Nat) (acked : List (Nat × Nat × Nat)) (u : FUser) (s : State) :
    (dlOutcome r acked u s).rtc = s.rtc := by simp [dlOutcome]

@[simp] theorem barOutcome_rtc (r : Nat) (answered : List Nat) (u : FUser) (s : State) : (barOutcome r answered u s).rtc = s.rtc := by
  refine foldl_rtc (fun t p => ?_) _ s
  dsimp only
  split
  · rfl
  · split
    · rfl
    · split <;> rfl

@[simp] theorem txopEnd_rtc (r : Nat) (failed dropped : Bool) (s : State) : (txopEnd r failed dropped s).rtc = s.rtc := by
  unfold txopEnd
  dsimp only
  split <;> split <;> simp

@[simp] theorem startElement_rtc (r fuel : Nat) (s : State) : (startElement r fuel s).rtc = s.rtc := by
  induction fuel generalizing s with
  | zero => exact txopEnd_rtc _ _ _ _
  | succ k ih =>
    unfold startElement
    split
    · rfl
    · split
      · exact txopEnd_rtc _ _ _ _
      · dsimp only
        split
        · simp [ih]
        · simp [apply_ite]

@[simp] theorem elementDone_rtc (r : Nat) (ok : Bool) (s : State) : (elementDone r ok s).rtc = s.rtc := by
  unfold elementDone
  split
  · rfl
  · dsimp only
    split
    · simp
    · split <;> simp

@[simp] theorem exchangeFail_rtc (r : Nat) (s : State) : (exchangeFail r s).rtc = s.rtc := by
  unfold exchangeFail
  dsimp only
  split <;> simp

@[simp] theorem rxAbandoned_rtc (r : Nat) (s : State) : (rxAbandoned r s).rtc = s.rtc := by simp [rxAbandoned]

@[simp] theorem giveUpTxop_rtc (r : Nat) (s : State) : (giveUpTxop r s).rtc = s.rtc := by
  unfold giveUpTxop
  split
  · rfl
  · dsimp only
    split <;> simp

@[simp] theorem unclaimFurrow_rtc (r : Nat) (f : Furrow) (s : State) : (unclaimFurrow r f s).rtc = s.rtc := by simp [unclaimFurrow]

@[simp] theorem furrowDrop_rtc (r : Nat) (s : State) : (furrowDrop r s).rtc = s.rtc := by
  unfold furrowDrop
  dsimp only
  split <;> split <;> simp

/-! The wake receiver and the reports of receptions. -/

@[simp] theorem wurCount_rtc (i : Nat) (s : State) : (wurCount i s).rtc = s.rtc := rfl

@[simp] theorem wurCopyCut_rtc (b : Nat) (s : State) : (wurCopyCut b s).rtc = s.rtc := by
  unfold wurCopyCut
  split <;> simp

@[simp] theorem wurUnblank_rtc (rampDown : Nat) (s : State) : (wurUnblank rampDown s).rtc = s.rtc := rfl

@[simp] theorem abandonedMeas_rtc (r : Nat) (x : RxCur) (i : Nat) (u : UserSig) (s : State) :
    (abandonedMeas r x i u s).2.rtc = s.rtc :=
  foldl_snd_rtc (fun _ _ => by rfl) _ _

@[simp] theorem phyCount_rtc (r i k : Nat) (s : State) : (phyCount r i k s).rtc = s.rtc := rfl

@[simp] theorem writeReport_rtc (r : Nat) (x : RxCur) (restarted : Bool) (s : State) (um : UserSig × UserMeas) :
    (writeReport r x restarted s um).rtc = s.rtc := rfl

@[simp] theorem abandonReports_rtc (r : Nat) (x : RxCur) (s : State) : (abandonReports r x s).rtc = s.rtc := by simp [abandonReports]

/-! Beamforming. -/

@[simp] theorem strikeGroups_rtc (r : Nat) (p : Group → Bool) (s : State) : (strikeGroups r p s).rtc = s.rtc := rfl
@[simp] theorem recipStale_rtc (r : Nat) (s : State) : (recipStale r s).rtc = s.rtc := rfl
@[simp] theorem strikePre_rtc (r : Nat) (s : State) : (strikePre r s).rtc = s.rtc := rfl
@[simp] theorem strikeAll_rtc (r : Nat) (s : State) : (strikeAll r s).rtc = s.rtc := by simp [strikeAll]
@[simp] theorem bfChannel_rtc (r : Nat) (s : State) : (bfChannel r s).rtc = s.rtc := by simp [bfChannel]
@[simp] theorem bfChains_rtc (r : Nat) (s : State) : (bfChains r s).rtc = s.rtc := by simp [bfChains]
@[simp] theorem recipOff_rtc (r : Nat) (s : State) : (recipOff r s).rtc = s.rtc := by simp [recipOff]

/-! The radio front end. -/

@[simp] theorem feCount_rtc (r i : Nat) (s : State) : (feCount r i s).rtc = s.rtc := rfl

@[simp] theorem rffeWrite_rtc (r bus usid addr data mask : Nat) (s : State) :
    (rffeWrite r bus usid addr data mask s).rtc = s.rtc := rfl

@[simp] theorem writeCode_rtc (r : Nat) (t : Tuner) (second : Bool) (v : Nat) (s : State) :
    (writeCode r t second v s).rtc = s.rtc := rfl

@[simp] theorem startSearch_rtc (r c : Nat) (s : State) : (startSearch r c s).rtc = s.rtc := by
  unfold startSearch
  dsimp only
  split <;> simp

@[simp] theorem startDue_rtc (r : Nat) (s : State) : (startDue r s).rtc = s.rtc := by simp [startDue]
@[simp] theorem takeState_rtc (r c : Nat) (st : ChainSt) (s : State) : (takeState r c st s).rtc = s.rtc := by simp [takeState]

@[simp] theorem takeChain_rtc (r c : Nat) (s : State) : (takeChain r c s).rtc = s.rtc := by
  unfold takeChain
  dsimp only
  split <;> simp

@[simp] theorem toReturn_rtc (r : Nat) (s : State) : (toReturn r s).rtc = s.rtc := rfl
@[simp] theorem furrowDiscard_rtc (r : Nat) (s : State) : (furrowDiscard r s).rtc = s.rtc := by simp [furrowDiscard]
@[simp] theorem chainsChanged_rtc (r : Nat) (was : Bool) (s : State) : (chainsChanged r was s).rtc = s.rtc := by simp [chainsChanged]
@[simp] theorem chainBoundary_rtc (r : Nat) (s : State) : (chainBoundary r s).rtc = s.rtc := by simp [chainBoundary]
@[simp] theorem idleUpdate_rtc (r : Nat) (s : State) : (idleUpdate r s).rtc = s.rtc := rfl

@[simp] theorem grantUpdate_rtc (r : Nat) (s : State) : (grantUpdate r s).rtc = s.rtc := by
  unfold grantUpdate
  dsimp only
  split
  · split
    · split <;> rfl
    · rfl
  · rfl

@[simp] theorem coexUpdate_rtc (r : Nat) (s : State) : (coexUpdate r s).rtc = s.rtc := by simp [coexUpdate]
@[simp] theorem settle_rtc (r : Nat) (s : State) : (settle r s).rtc = s.rtc := by simp [settle]
@[simp] theorem femWrite_rtc (r : Nat) (b : List Byte) (s : State) : (femWrite r b s).rtc = s.rtc := rfl

@[simp] theorem femIssue_rtc (r ev : Nat) (s : State) : (femIssue r ev s).rtc = s.rtc :=
  foldl_rtc (fun t b => femWrite_rtc r b t) _ s

@[simp] theorem femEnter_rtc (r : Nat) (st : RState) (s : State) : (femEnter r st s).rtc = s.rtc := by
  unfold femEnter
  split <;> simp

/-! A radio that goes to OFF (R87). -/

@[simp] theorem airEnds_rtc (r rampDown shape : Nat) (s : State) : (airEnds r rampDown shape s).rtc = s.rtc := by simp [airEnds]

@[simp] theorem txFailed_rtc (r : Nat) (st : Status) (x : TxCur) (s : State) : (txFailed r st x s).rtc = s.rtc := by
  unfold txFailed
  split <;> simp

@[simp] theorem dropAir_rtc (r : Nat) (s : State) : (dropAir r s).rtc = s.rtc := by
  unfold dropAir
  dsimp only
  split <;> split <;> simp

@[simp] theorem storeChannel_rtc (r : Nat) (q : ChanReq) (s : State) : (storeChannel r q s).rtc = s.rtc := by simp [storeChannel]

@[simp] theorem offEnds_rtc (r : Nat) (s : State) : (offEnds r s).rtc = s.rtc := by
  unfold offEnds
  dsimp only
  rw [recipOff_rtc]
  split <;> split <;> split <;> split <;> simp [-List.foldl_append]

@[simp] theorem radioOffNow_rtc (r : Nat) (s : State) : (radioOffNow r s).rtc = s.rtc := by
  unfold radioOffNow
  simp only [settle_rtc, femEnter_rtc, withFe_rtc, dropAir_rtc, offEnds_rtc]
  split
  · rw [finish_rtc, withFe_rtc]
    split <;> simp
  · split <;> simp

@[simp] theorem radiosOff_rtc (s : State) : (radiosOff s).rtc = s.rtc := by simp [radiosOff]

/-! The wipe and the resets (R65 to R70). -/

@[simp] theorem settleFuses_rtc (s : State) : (settleFuses s).rtc = s.rtc := by
  unfold settleFuses
  split <;> simp

@[simp] theorem wipe_rtc (link : Bool) (s : State) : (wipe link s).rtc = s.rtc := by simp [wipe]

@[simp] theorem resetWith_rtc (cause : BitVec 9) (link : Bool) (s : State) :
    (resetWith cause link s).rtc = s.rtc := by simp [resetWith]

@[simp] theorem internalReset_rtc (cause : BitVec 9) (s : State) : (internalReset cause s).rtc = s.rtc := by simp [internalReset]
@[simp] theorem thermalTrip_rtc (s : State) : (thermalTrip s).rtc = s.rtc := by simp [thermalTrip]
@[simp] theorem wipeEnd_rtc (s : State) : (wipeEnd s).rtc = s.rtc := by simp [wipeEnd]

end Sys2Proof.Machine
end

section
/-!
SUPPORT. The calendar (spec/18_rtc_backup.md, R428 to R430): the day count of a date, the carry of a second tick, and the statement about it.
-/
namespace Sys2Proof.Machine
open Sys2Proof

/-! The day count of a date, in whole years, whole months and days. -/

/-- Days from 2000-01-01 to the first day of year 2000 + `y`. -/
def yearStart (y : Nat) : Nat := 365 * y + (y + 3) / 4 - (y + 99) / 100 + (y + 399) / 400

/-- Days from the first day of year 2000 + `y` to the first of month `m`. -/
def monthStart (y m : Nat) : Nat := ((List.range (m - 1)).map fun i => monthDays y (i + 1)).sum

theorem daysSince_eq (t : RtcTime) : daysSince t = yearStart t.year + monthStart t.year t.month + (t.day - 1) := rfl

/-- R428 by inclusion and exclusion. -/
theorem leapYear_toNat (y : Nat) :
    (leapYear y).toNat + (if y % 100 = 0 then 1 else 0) = (if y % 4 = 0 then 1 else 0) + (if y % 400 = 0 then 1 else 0) := by
  by_cases h400 : y % 400 = 0
  · have h100 : y % 100 = 0 := by omega
    have h4 : y % 4 = 0 := by omega
    simp [leapYear, h400, h100, h4]
  · by_cases h100 : y % 100 = 0
    · have h4 : y % 4 = 0 := by omega
      simp [leapYear, h400, h100, h4]
    · by_cases h4 : y % 4 = 0 <;> simp [leapYear, h400, h100, h4]

/-- A year has 366 days where it is a leap year, else 365. -/
theorem yearStart_succ (y : Nat) : yearStart (y + 1) = yearStart y + (365 + (leapYear y).toNat) := by
  have h4 : (y + 1 + 3) / 4 = (y + 3) / 4 + (if y % 4 = 0 then 1 else 0) := by split <;> omega
  have h100 : (y + 1 + 99) / 100 = (y + 99) / 100 + (if y % 100 = 0 then 1 else 0) := by split <;> omega
  have h400 : (y + 1 + 399) / 400 = (y + 399) / 400 + (if y % 400 = 0 then 1 else 0) := by split <;> omega
  have hleap := leapYear_toNat y
  have hle : (y + 99) / 100 ≤ (y + 3) / 4 := by omega
  unfold yearStart
  omega

/-- The Gregorian cycle (R430). -/
theorem yearStart_le_cycle {y : Nat} (h : y ≤ 400) : yearStart y ≤ 146097 := by
  unfold yearStart
  omega

theorem monthStart_succ {y m : Nat} (h : 1 ≤ m) : monthStart y (m + 1) = monthStart y m + monthDays y m := by
  obtain ⟨k, rfl⟩ : ∃ k, m = k + 1 := ⟨m - 1, by omega⟩
  simp [monthStart, List.range_succ]

theorem monthStart_december (y : Nat) : monthStart y 12 + monthDays y 12 = 365 + (leapYear y).toNat := by
  cases h : leapYear y <;> simp [monthStart, List.range_succ, monthDays, h]

/-- No month ends after its year does. -/
theorem monthStart_add_monthDays_le {y m : Nat} (h1 : 1 ≤ m) (h12 : m ≤ 12) :
    monthStart y m + monthDays y m ≤ 365 + (leapYear y).toNat := by
  have hmono : ∀ k, monthStart y m + monthDays y m ≤ monthStart y (m + 1 + k) := by
    intro k
    induction k with
    | zero => exact Nat.le_of_eq (monthStart_succ h1).symm
    | succ k ih => 
      rw [← Nat.add_assoc, monthStart_succ (by omega)]
      exact Nat.le_add_right_of_le ih
  calc monthStart y m + monthDays y m ≤ monthStart y (m + 1 + (12 - m)) := hmono _
    _ = monthStart y (12 + 1) := by congr 1; omega
    _ = 365 + (leapYear y).toNat := (monthStart_succ (by decide)).trans (monthStart_december y)

theorem one_le_monthDays (y m : Nat) : 1 ≤ monthDays y m := by
  unfold monthDays
  split
  · split <;> decide
  all_goals decide

/-! Times of the calendar (R428, R434). -/

theorem timeValid_iff {t : RtcTime} :
    timeValid t = true ↔
      t.second ≤ 59 ∧ t.minute ≤ 59 ∧ t.hour ≤ 23 ∧ (1 ≤ t.month ∧ t.month ≤ 12) ∧ t.year ≤ 399 ∧
        1 ≤ t.day ∧ t.day ≤ monthDays t.year t.month := by
  simp [timeValid, and_assoc]

/-- A time of the calendar lies within the cycle's 146,097 days. -/
theorem secondsOf_lt_cycle {t : RtcTime} (h : timeValid t = true) : secondsOf t < 86400 * 146097 := by
  obtain ⟨hs, hm, hh, ⟨h1, h12⟩, hy, hd1, hd⟩ := timeValid_iff.mp h
  have hyear := yearStart_le_cycle (y := t.year + 1) (by omega)
  rw [yearStart_succ] at hyear
  have hmonth := monthStart_add_monthDays_le (y := t.year) h1 h12
  rw [secondsOf, daysSince_eq]
  omega

/-- `n` is the second after `t`: a time of the calendar one second later, or the cycle's first where `t` is its last (R429, R430). Only
the last takes the year from 399 to 0. -/
structure SecondAfter (t n : RtcTime) : Prop where
  valid : timeValid n = true
  secs : secondsOf n = if t.year = 399 ∧ n.year = 0 then 0 else secondsOf t + 1
  last : t.year = 399 ∧ n.year = 0 → secondsOf t + 1 = 86400 * 146097

/-- A carry that stays within the year only has to be one second later. -/
theorem SecondAfter.of_sameYear {t n : RtcTime} (hyear : n.year = t.year) (hvalid : timeValid n = true)
    (hsecs : secondsOf n = secondsOf t + 1) : SecondAfter t n := by
  have hno : ¬ (t.year = 399 ∧ n.year = 0) := by omega
  exact ⟨hvalid, by rw [if_neg hno, hsecs], fun hw => absurd hw hno⟩

theorem secondsOf_newYear (y : Nat) : secondsOf { year := y } = 86400 * yearStart y := by
  simp [secondsOf, daysSince_eq, monthStart]

/-- A carry that stays within the day. -/
theorem SecondAfter.of_sameDay {t n : RtcTime} (h : timeValid t = true) (hdate : n.year = t.year ∧ n.month = t.month ∧ n.day = t.day)
    (hrange : n.second ≤ 59 ∧ n.minute ≤ 59 ∧ n.hour ≤ 23)
    (hclock : 3600 * n.hour + 60 * n.minute + n.second = 3600 * t.hour + 60 * t.minute + t.second + 1) : SecondAfter t n := by
  obtain ⟨hyear, hmonth, hday⟩ := hdate
  obtain ⟨-, -, -, hvalid⟩ := timeValid_iff.mp h
  refine .of_sameYear hyear (timeValid_iff.mpr ?_) ?_
  · rw [hyear, hmonth, hday]
    exact ⟨hrange.1, hrange.2.1, hrange.2.2, hvalid⟩
  · simp only [secondsOf, daysSince_eq, hyear, hmonth, hday]
    omega

/-- After the last second of a year comes the first of the next. -/
theorem secondsOf_yearEnd {t : RtcTime} (hs : t.second = 59) (hm : t.minute = 59) (hh : t.hour = 23) (hmonth : t.month = 12)
    (hd1 : 1 ≤ t.day) (hday : t.day = monthDays t.year 12) : secondsOf t + 1 = 86400 * yearStart (t.year + 1) := by
  have hlen := monthStart_december t.year
  rw [yearStart_succ, secondsOf, daysSince_eq, hmonth]
  omega

/-- The year goes from 399 to 0 at the cycle's last second alone: after any other, one more second is still within the cycle. -/
theorem SecondAfter.wraps_iff {t n : RtcTime} (h : SecondAfter t n) :
    t.year = 399 ∧ n.year = 0 ↔ secondsOf t + 1 = 86400 * 146097 := by
  refine ⟨h.last, fun hlast => Decidable.byContradiction fun hno => ?_⟩
  have hlt := secondsOf_lt_cycle h.valid
  rw [h.secs, if_neg hno] at hlt
  omega

theorem SecondAfter.wraps_eq {t n : RtcTime} (h : SecondAfter t n) :
    (t.year == 399 && n.year == 0) = decide (secondsOf t + 1 = 86400 * 146097) := by
  rw [Bool.eq_iff_iff, Bool.and_eq_true, beq_iff_eq, beq_iff_eq, decide_eq_true_iff]
  exact h.wraps_iff

/-- The carry goes to the first field that does not overflow. -/
theorem secondAfter_nextSecond {t : RtcTime} (h : timeValid t = true) : SecondAfter t (nextSecond t) := by
  obtain ⟨hs, hm, hh, ⟨h1, h12⟩, hy, hd1, hd⟩ := timeValid_iff.mp h
  have hlen := one_le_monthDays t.year (t.month + 1)
  unfold nextSecond
  dsimp only
  split
  case isTrue => exact .of_sameDay h ⟨rfl, rfl, rfl⟩ (by dsimp only; omega) (by dsimp only; omega) -- SECOND
  split
  case isTrue => exact .of_sameDay h ⟨rfl, rfl, rfl⟩ (by dsimp only; omega) (by dsimp only; omega) -- MINUTE
  split
  case isTrue => exact .of_sameDay h ⟨rfl, rfl, rfl⟩ (by dsimp only; omega) (by dsimp only; omega) -- HOUR
  split
  case isTrue => -- DAY
    refine .of_sameYear rfl (timeValid_iff.mpr (by dsimp only; omega)) ?_
    simp only [secondsOf, daysSince_eq]
    omega
  split
  case isTrue => -- MONTH
    refine .of_sameYear rfl (timeValid_iff.mpr (by dsimp only; omega)) ?_
    simp only [secondsOf, daysSince_eq, monthStart_succ h1]
    omega
  have hdec : t.month = 12 := by omega
  have hend := secondsOf_yearEnd (by omega) (by omega) (by omega) hdec hd1 (by rw [← hdec]; omega)
  split
  case isTrue => -- YEAR, from 399 to 0
    have hlast : t.year = 399 := by omega
    refine ⟨rfl, ?_, fun _ => by rw [hend, hlast]; rfl⟩
    rw [if_pos ⟨hlast, rfl⟩]
    exact secondsOf_newYear 0
  case isFalse => -- YEAR
    have hno : ¬ (t.year = 399 ∧ t.year + 1 = 0) := by omega
    have hjan := one_le_monthDays (t.year + 1) 1
    refine ⟨timeValid_iff.mpr (by dsimp only; omega), ?_, fun hw => absurd hw hno⟩
    rw [if_neg hno, hend]
    exact secondsOf_newYear _

/-! The tick. -/

theorem driveWake_calendar (src : Nat) (s : State) :
    (driveWake src s).rtc.time = s.rtc.time ∧ (driveWake src s).rtc.yearWrap = s.rtc.yearWrap := by
  unfold driveWake
  split
  · exact ⟨rfl, rfl⟩
  · split <;> exact ⟨rfl, rfl⟩

/-- An alarm match changes nothing of the calendar (R438). -/
theorem alarmFires_calendar (s : State) :
    (alarmFires s).rtc.time = s.rtc.time ∧ (alarmFires s).rtc.yearWrap = s.rtc.yearWrap := by
  unfold alarmFires
  dsimp only
  split
  · exact driveWake_calendar 1 _
  · split
    · rw [raise_rtc]
      exact ⟨rfl, rfl⟩
    · exact ⟨rfl, rfl⟩

theorem secondTick_calendar {s : State} (h : s.rtc.oscRunning = true) :
    (secondTick s).rtc.time = nextSecond s.rtc.time ∧
      (secondTick s).rtc.yearWrap = (s.rtc.yearWrap || (s.rtc.time.year == 399 && (nextSecond s.rtc.time).year == 0)) := by
  unfold secondTick
  rw [if_neg (by simp [h])]
  dsimp only
  split
  · exact alarmFires_calendar _
  · exact ⟨rfl, rfl⟩

theorem exec_rtcSecondTick (s : State) : exec .rtcSecondTick s = .next (secondTick s) := rfl

/-- Settles O15: the carry leads to the second after, and only the cycle's last second wraps. -/
theorem rtcTickIsOneSecond : Obligations.RtcTickIsOneSecond := by
  unfold Obligations.RtcTickIsOneSecond
  refine ⟨fun s hrun hvalid => ?tick, fun s hrun hlast => ?last, fun t => secondsOf_lt_cycle, by decide, by decide, by decide⟩
  case tick =>
    obtain ⟨htime, hwrap⟩ := secondTick_calendar hrun
    have hnext := secondAfter_nextSecond hvalid
    refine .of_exec (exec_rtcSecondTick s) ?_
    rw [htime, hwrap, hnext.secs, hnext.wraps_eq]
    exact ⟨hnext.valid, ite_congr (propext hnext.wraps_iff) (fun _ => rfl) fun _ => rfl, rfl⟩
  case last =>
    obtain ⟨htime, hwrap⟩ := secondTick_calendar hrun
    refine .of_exec (exec_rtcSecondTick s) ?_
    rw [htime, hwrap, hlast]
    exact ⟨rfl, Bool.or_true _⟩

end Sys2Proof.Machine
end

section
/-!
SUPPORT. The RTC's interface (spec/18_rtc_backup.md, R425, R426, R433 to R435): the unlock sequence, the commit and its refusal, the holding
registers, and the statements about them.
-/
namespace Sys2Proof.Machine
open Sys2Proof

/-! The unlock sequence (R426). -/

theorem rtcUnlock_early {v : Word} {s : State} (h : ∀ t, s.rtc.vddGoodAt = some t → s.now < t + 5000000) : rtcUnlock v s = s := by
  unfold rtcUnlock
  split
  · rfl
  · next t ht => exact if_pos (h t ht)

/-- From 10 ms after VDD_IO became good on, the value written decides. -/
theorem rtcUnlock_due {v : Word} {s : State} {t : Nat} (hgood : s.rtc.vddGoodAt = some t) (hdue : t + 5000000 ≤ s.now) :
    rtcUnlock v s =
      if v = 0x5EED#32 then withRtc (fun r => { r with armed := true }) s
      else if v = 0xF1E1#32 ∧ s.rtc.armed = true then withRtc (fun r => { r with armed := false, locked := false }) s
      else withRtc (fun r => { r with armed := false }) s := by
  simp only [rtcUnlock, hgood, if_neg (Nat.not_lt.mpr hdue)]

theorem rtcUnlock_first {s : State} {t : Nat} (hgood : s.rtc.vddGoodAt = some t) (hdue : t + 5000000 ≤ s.now) :
    rtcUnlock 0x5EED#32 s = withRtc (fun r => { r with armed := true }) s := by
  rw [rtcUnlock_due hgood hdue, if_pos rfl]

/-- The second write unlocks where the first one armed it, and disarms in any case. -/
theorem rtcUnlock_second {s : State} {t : Nat} (hgood : s.rtc.vddGoodAt = some t) (hdue : t + 5000000 ≤ s.now) :
    rtcUnlock 0xF1E1#32 s = withRtc (fun r => { r with armed := false, locked := s.rtc.locked && !s.rtc.armed }) s := by
  rw [rtcUnlock_due hgood hdue, if_neg (by decide)]
  cases harmed : s.rtc.armed
  · rw [if_neg (by simp)]
    simp [withRtc]
  · rw [if_pos (by simp)]
    simp [withRtc]

theorem rtcUnlock_other {v : Word} {s : State} {t : Nat} (hgood : s.rtc.vddGoodAt = some t) (hdue : t + 5000000 ≤ s.now)
    (h1 : v ≠ 0x5EED#32) (h2 : v ≠ 0xF1E1#32) : rtcUnlock v s = withRtc (fun r => { r with armed := false }) s := by
  rw [rtcUnlock_due hgood hdue, if_neg h1, if_neg fun h => h2 h.1]

theorem exec_rtcUnlock {v : Word} {s : State} (h : live s = true) : exec (.rtcUnlock v) s = .next (rtcUnlock v s) := whenLive_live h

/-! The commit (R433, R434). -/

/-- The fields that R434 refuses. -/
theorem timeValid_eq_false_iff {t : RtcTime} :
    timeValid t = false ↔
      t.second > 59 ∨ t.minute > 59 ∨ t.hour > 23 ∨ t.month = 0 ∨ t.month > 12 ∨ t.year > 399 ∨ t.day = 0 ∨
        t.day > monthDays t.year t.month := by
  rw [← Bool.not_eq_true, timeValid_iff]
  omega

theorem rtcCommit_refused {v : Word} {s : State} (hlock : s.rtc.locked = false)
    (h : timeValid (heldTime s.rtc (bits v.toNat 0 6)) = false) :
    rtcCommit v s = withRtc (fun r => { r with dateInvalid := true, armed := false }) s := by
  simp [rtcCommit, withRtc, hlock, h]

theorem rtcCommit_taken {v : Word} {s : State} (hlock : s.rtc.locked = false)
    (h : timeValid (heldTime s.rtc (bits v.toNat 0 6)) = true) :
    rtcCommit v s = withRtc (fun r => { r with commit := some (heldTime s.rtc (bits v.toNat 0 6)), armed := false }) s := by
  simp [rtcCommit, withRtc, hlock, h]

@[simp] theorem rtcCommit_armed (v : Word) (s : State) : (rtcCommit v s).rtc.armed = false := by
  unfold rtcCommit
  rw [withRtc_rtc]
  dsimp only
  split
  · rfl
  · split <;> rfl

theorem rtcCommit_dateInvalid {v : Word} {s : State} (h : s.rtc.dateInvalid = true) : (rtcCommit v s).rtc.dateInvalid = true := by
  unfold rtcCommit
  rw [withRtc_rtc]
  dsimp only
  split
  · exact h
  · split
    · exact h
    · rfl

theorem exec_rtcCommit {v : Word} {s : State} (h : live s = true) : exec (.rtcCommit v) s = .next (rtcCommit v s) := whenLive_live h

theorem rtcLoad_some {s : State} {c : RtcTime} (h : s.rtc.commit = some c) :
    rtcLoad s = withRtc (fun r => { r with time := c, presc := 0, commit := none, oscStopped := false, sqwNew := false }) s := by
  simp only [rtcLoad, h]

@[simp] theorem rtcLoad_dateInvalid (s : State) : (rtcLoad s).rtc.dateInvalid = s.rtc.dateInvalid := by
  unfold rtcLoad
  split <;> rfl

theorem exec_rtcCommitLoad (s : State) : exec .rtcCommitLoad s = .next (rtcLoad s) := rfl

/-! Writes of the other registers. -/

/-- A register that is neither RTC_COMMIT nor RTC_UNLOCK: locked, it keeps its value. -/
theorem writeRtc_field {w v : Nat} {s : State} (h6 : w ≠ 6) (h11 : w ≠ 11) :
    writeRtc w v s = withRtc (fun r => if r.locked then { r with armed := false } else { rtcField w v r with armed := false }) s := by
  unfold writeRtc
  split <;> simp_all

theorem writeRtc_armed {w v : Nat} {s : State} (h11 : w ≠ 11) : (writeRtc w v s).rtc.armed = false := by
  by_cases h6 : w = 6
  · subst h6
    exact rtcCommit_armed _ _
  · rw [writeRtc_field h6 h11, withRtc_rtc]
    split <;> rfl

theorem writeBackup_armed (i v : Nat) (s : State) : (writeBackup i v s).rtc.armed = false := by
  unfold writeBackup
  rw [withRtc_rtc]
  split <;> rfl

/-- The holding registers hold no part of a commit that waits, nor of the running time (R433, R435). -/
theorem writeRtc_hold {w v : Nat} {s : State} (h : w = 4 ∨ w = 5) :
    (writeRtc w v s).rtc.commit = s.rtc.commit ∧ (writeRtc w v s).rtc.time = s.rtc.time := by
  rw [writeRtc_field (by omega) (by omega), withRtc_rtc]
  rcases h with rfl | rfl <;> split <;> exact ⟨rfl, rfl⟩

/-! The statements. -/

/-- No reset locks or unlocks the interface (R67). -/
theorem reset_gives_rtc {i : Instr} {s : State}
    (h : i ∈ [Instr.perstAssert, .hotReset, .flr, .wdtAutoReset, .thermalTrip, .wipeEnd] ∨ ∃ v, i = .sysReset v) :
    Gives i s fun t => t.rtc = s.rtc := by
  simp only [List.mem_cons, List.not_mem_nil, or_false] at h
  rcases h with (rfl | rfl | rfl | rfl | rfl | rfl) | ⟨v, rfl⟩
  · exact ⟨_, rfl, by simp [perstAssert]⟩
  · exact ⟨_, rfl, by simp [hotReset]⟩
  · exact ⟨_, rfl, by simp [flr]⟩
  · exact ⟨_, rfl, by simp [wdtAutoReset]⟩
  · exact ⟨_, rfl, thermalTrip_rtc s⟩
  · exact ⟨_, rfl, wipeEnd_rtc s⟩
  · exact ⟨_, rfl, by simp [sysReset]⟩

/-- Settles O12: the instant of the write decides whether it counts, and then its value; the resets leave the RTC as it is. -/
theorem rtcUnlockSequence : Obligations.RtcUnlockSequence := by
  unfold Obligations.RtcUnlockSequence
  refine ⟨fun s t hl hgood hdue => ⟨?first, ?second, fun v h1 h2 => ?other⟩, fun s v hl hearly => ?early, ?cancel,
    fun i s h => reset_gives_rtc h⟩
  case first => rw [exec_rtcUnlock hl, rtcUnlock_first hgood hdue]
  case second => rw [exec_rtcUnlock hl, rtcUnlock_second hgood hdue]
  case other => rw [exec_rtcUnlock hl, rtcUnlock_other hgood hdue h1 h2]
  case early => rw [exec_rtcUnlock hl, rtcUnlock_early hearly]
  case cancel =>
    rintro s v g - (⟨w, rfl, hw⟩ | ⟨n, rfl⟩)
    · exact writeRtc_armed hw
    · exact writeBackup_armed n v s

/-- Settles O13: the commit is refused where the held time is none of the calendar. -/
theorem rtcCommitRefusal : Obligations.RtcCommitRefusal := by
  unfold Obligations.RtcCommitRefusal
  refine ⟨fun s v hl hlock => ?refused, fun s v hl hlock => ?taken, fun s v h => ⟨?commit, ?load⟩, fun s hlock => ?clear⟩
  case refused =>
    intro t ht
    rw [exec_rtcCommit hl, rtcCommit_refused hlock (timeValid_eq_false_iff.mpr ht)]
  case taken =>
    intro t ht
    have hvalid : timeValid t = true := by rwa [← timeValid_eq_false_iff, Bool.not_eq_false] at ht
    rw [exec_rtcCommit hl, rtcCommit_taken hlock hvalid]
  case commit =>
    refine ⟨_, rfl, ?_⟩
    split
    · exact rtcCommit_dateInvalid h
    · exact h
  case load => exact .of_exec (exec_rtcCommitLoad s) ((rtcLoad_dateInvalid s).trans h)
  case clear =>
    have hwrite : writeReg (.rtc 9) 2 s = writeRtc 9 2 s := rfl
    rw [hwrite, writeRtc_field (by decide) (by decide), withRtc_rtc, if_neg (by simp [hlock])]
    simp [rtcField, w1c, bit]

/-- Settles O14: the commit that waits is another field than the holding registers. -/
theorem rtcHoldingWritesWait : Obligations.RtcHoldingWritesWait := by
  unfold Obligations.RtcHoldingWritesWait
  intro s v w _ hw
  obtain ⟨hcommit, htime⟩ : (writeReg (.rtc w) v s).rtc.commit = s.rtc.commit ∧ (writeReg (.rtc w) v s).rtc.time = s.rtc.time :=
    writeRtc_hold hw
  refine ⟨hcommit, htime, fun c hc => ⟨_, exec_rtcCommitLoad _, ?_⟩⟩
  rw [rtcLoad_some (hcommit.trans hc)]
  rfl

end Sys2Proof.Machine
end

section
/-!
SUPPORT. What `Sound` speaks of, and what the machine's functions leave of it alone: the rules of the state's fields and of folds.
-/
namespace Sys2Proof.Machine
open Sys2Proof

/-- What only the resets, the battery domain's own commands and some register writes change: the queue, the memories, the part of the
battery domain that `Sound` speaks of, what the reset causes, the serial number and
the reference's state are, whether the function is in D3hot, and the MSI-X table. -/
structure Kept where
  pending : List Instr
  bar : Mem
  mpRam : Mem
  time : RtcTime
  commit : Option RtcTime
  holdDate : Word
  holdTime : Word
  alarm : Word
  sqwSel : Nat
  d3hot : Bool
  msixTbl : Vector Word 256
  resetCause : BitVec 9
  serial : BitVec 64
  refLost : Bool

def kept (s : State) : Kept :=
  { pending := s.pending, bar := s.bar, mpRam := s.mpRam, time := s.rtc.time, commit := s.rtc.commit, holdDate := s.rtc.holdDate
    holdTime := s.rtc.holdTime, alarm := s.rtc.alarm, sqwSel := s.rtc.sqwSel, d3hot := s.host.pcie.d3hot
    msixTbl := s.host.msixTbl, resetCause := s.glb.resetCause, serial := s.glb.serial, refLost := s.glb.refLost }

def Effect.after : Effect → State → State
  | .fail _, s => s
  | .complete _ _ t, _ => t
  | .ahead _ _ t, _ => t
  | .hold t, _ => t

@[simp] theorem kept_now (x : Nat) (s : State) : kept { s with now := x } = kept s := (rfl)
@[simp] theorem kept_free (x : Nat) (s : State) : kept { s with free := x } = kept s := (rfl)
@[simp] theorem kept_out (x : List Output) (s : State) : kept { s with out := x } = kept s := (rfl)
@[simp] theorem kept_glb {x : Glb} {s : State} (h : x.resetCause = s.glb.resetCause ∧ x.serial = s.glb.serial ∧ x.refLost = s.glb.refLost) :
    kept { s with glb := x } = kept s := by simp only [kept, h.1, h.2.1, h.2.2]
@[simp] theorem kept_host {x : HostIf} {s : State} (h : x.pcie.d3hot = s.host.pcie.d3hot ∧ x.msixTbl = s.host.msixTbl) :
    kept { s with host := x } = kept s := by simp only [kept, h.1, h.2]
@[simp] theorem kept_rings (x : Rings) (s : State) : kept { s with rings := x } = kept s := (rfl)
@[simp] theorem kept_life (x : Life) (s : State) : kept { s with life := x } = kept s := (rfl)
@[simp] theorem kept_power (x : Power) (s : State) : kept { s with power := x } = kept s := (rfl)
@[simp] theorem kept_fe (x : Vector RadioFe 3) (s : State) : kept { s with fe := x } = kept s := (rfl)
@[simp] theorem kept_hl (x : Vector RadioHl 3) (s : State) : kept { s with hl := x } = kept s := (rfl)
@[simp] theorem kept_coex (x : Coex) (s : State) : kept { s with coex := x } = kept s := (rfl)
@[simp] theorem kept_phy (x : Vector RadioPhy 3) (s : State) : kept { s with phy := x } = kept s := (rfl)
@[simp] theorem kept_mac (x : Mac) (s : State) : kept { s with mac := x } = kept s := (rfl)
@[simp] theorem kept_sched (x : Sched) (s : State) : kept { s with sched := x } = kept s := (rfl)
@[simp] theorem kept_bf (x : Bf) (s : State) : kept { s with bf := x } = kept s := (rfl)
@[simp] theorem kept_rope (x : Rope) (s : State) : kept { s with rope := x } = kept s := (rfl)
@[simp] theorem kept_eth (x : Vector Port 2) (s : State) : kept { s with eth := x } = kept s := (rfl)
@[simp] theorem kept_harrow (x : Harrow) (s : State) : kept { s with harrow := x } = kept s := (rfl)
@[simp] theorem kept_seed (x : Seed) (s : State) : kept { s with seed := x } = kept s := (rfl)
@[simp] theorem kept_router (x : Router) (s : State) : kept { s with router := x } = kept s := (rfl)
@[simp] theorem kept_sec (x : Sec) (s : State) : kept { s with sec := x } = kept s := (rfl)
@[simp] theorem kept_dram (x : Dram) (s : State) : kept { s with dram := x } = kept s := (rfl)
@[simp] theorem kept_wur (x : Wur) (s : State) : kept { s with wur := x } = kept s := (rfl)
@[simp] theorem kept_rel (x : Rel) (s : State) : kept { s with rel := x } = kept s := (rfl)
@[simp] theorem kept_time (x : TimeSt) (s : State) : kept { s with time := x } = kept s := (rfl)
@[simp] theorem ite_kept (c : Prop) [Decidable c] (a b : State) : kept (if c then a else b) = if c then kept a else kept b :=
  apply_ite kept c a b
@[simp] theorem ite_after (c : Prop) [Decidable c] (a b : Effect) (s : State) : (if c then a else b).after s = if c then a.after s else b.after s :=
  apply_ite (·.after s) c a b
@[simp] theorem after_fail (st s) : (Effect.fail st).after s = s := rfl
@[simp] theorem after_complete (st d t s) : (Effect.complete st d t).after s = t := rfl
@[simp] theorem after_ahead (st d t s) : (Effect.ahead st d t).after s = t := rfl
@[simp] theorem after_hold (t s) : (Effect.hold t).after s = t := rfl
@[simp] theorem after_okay (t s) : (okay t).after s = t := rfl
@[simp] theorem after_answer (d t s) : (answer d t).after s = t := rfl
@[simp] theorem foldl_kept {α : Type} {f : State → α → State} (h : ∀ t a, kept (f t a) = kept t) (l : List α) (s : State) :
    kept (l.foldl f s) = kept s :=
  List.foldlRecOn (motive := fun t => kept t = kept s) l f rfl fun t ht a _ => (h t a).trans ht
@[simp] theorem foldr_kept {α : Type} {f : α → State → State} (h : ∀ a t, kept (f a t) = kept t) (l : List α) (s : State) :
    kept (l.foldr f s) = kept s :=
  List.foldrRecOn (motive := fun t => kept t = kept s) l f rfl fun t ht a _ => (h a t).trans ht
@[simp] theorem foldl_snd_kept {α β : Type} {f : β × State → α → β × State} (h : ∀ p a, kept (f p a).2 = kept p.2) (l : List α)
    (p : β × State) : kept (l.foldl f p).2 = kept p.2 :=
  List.foldlRecOn (motive := fun q => kept q.2 = kept p.2) l f rfl fun q hq a _ => (h q a).trans hq
end Sys2Proof.Machine
end

section
/-!
SUPPORT. One frame rule per function of the machine, in the order of its files: the function leaves alone what `kept` takes of the state.
A function that acts on another part of the state has `(rfl)` as its proof, in parentheses so that simp uses it as a rewrite rule and leaves
no unfolding to the kernel.
-/
namespace Sys2Proof.Machine
open Sys2Proof

/-! Ops -/

@[simp] theorem emit_kept (o : Output) (s : State) : kept (emit o s) = kept s := (rfl)
@[simp] theorem draw_kept (w : Nat) (s : State) : kept (draw w s).2 = kept s := (rfl)
@[simp] theorem deferTx_kept (x : HostTx) (s : State) : kept (deferTx x s) = kept s := (rfl)
@[simp] theorem hostWrite_kept (addr : Nat) (b : List Byte) (s : State) : kept (hostWrite addr b s) = kept s := by simp [hostWrite]
@[simp] theorem msixOut_kept (v : Nat) (s : State) : kept (msixOut v s) = kept s := (rfl)
@[simp] theorem sendMsix_kept (v : Nat) (s : State) : kept (sendMsix v s) = kept s := by simp [sendMsix]

@[simp] theorem retryTx_kept (s : State) (x : HostTx) : kept (retryTx s x) = kept s := by
  unfold retryTx
  split <;> simp

@[simp] theorem flushTx_kept (s : State) : kept (flushTx s) = kept s := by simp [flushTx]
@[simp] theorem clearUnsig_kept (src : Nat) (s : State) : kept (clearUnsig src s) = kept s := (rfl)
@[simp] theorem signalEntry_kept (src : Nat) (s : State) : kept (signalEntry src s) = kept s := by simp [signalEntry]
@[simp] theorem writeEntry_kept (addr : Nat) (e : List Byte) (s : State) : kept (writeEntry addr e s) = kept s := by simp [writeEntry]
@[simp] theorem withEvt_kept (f : Evt → Evt) (s : State) : kept (withEvt f s) = kept s := (rfl)
@[simp] theorem writeHeld_kept (h : Held) (s : State) : kept (writeHeld h s) = kept s := by simp [writeHeld]

@[simp] theorem flushList_kept (l : List Held) (s : State) : kept (flushList l s).2 = kept s := by
  induction l generalizing s with
  | nil => rfl
  | cons h l ih =>
    unfold flushList
    split
    · exact ih _
    · split
      · exact (ih _).trans (writeHeld_kept _ _)
      · rfl

@[simp] theorem flushHeld_kept (s : State) : kept (flushHeld s) = kept s := by simp [flushHeld]
@[simp] theorem dropEvent_kept (s : State) : kept (dropEvent s) = kept s := (rfl)
@[simp] theorem offerEvent_kept (e : Event) (s : State) : kept (offerEvent e s) = kept s := by simp [offerEvent]
@[simp] theorem raise_kept (n : EvName) (inst : Nat) (data : List Byte) (s : State) : kept (raise n inst data s) = kept s := by simp [raise]
@[simp] theorem withMbx_kept (m : Nat) (f : Mailbox → Mailbox) (s : State) : kept (withMbx m f s) = kept s := (rfl)
@[simp] theorem withCq_kept (q : Nat) (f : Cq → Cq) (s : State) : kept (withCq q f s) = kept s := (rfl)
@[simp] theorem queueCompletion_kept (q : Nat) (c : Completion) (s : State) : kept (queueCompletion q c s) = kept s := (rfl)
@[simp] theorem writeData_kept (r : CmdRec) (data : List Byte) (s : State) : kept (writeData r data s) = kept s := by simp [writeData]

@[simp] theorem releaseList_kept (l : List CmdRec) (s : State) : kept (releaseList l s).2 = kept s := by
  induction l generalizing s with
  | nil => rfl
  | cons c l ih =>
    unfold releaseList
    split
    · exact (ih _).trans (queueCompletion_kept _ _ _)
    · rfl

@[simp] theorem release_kept (m : Nat) (s : State) : kept (release m s) = kept s := by simp [release]
@[simp] theorem setPhase_kept (h : Word) (ph : Phase) (s : State) : kept (setPhase h ph s) = kept s := (rfl)

@[simp] theorem finish_kept (h : Word) (st : Status) (data : List Byte) (s : State) : kept (finish h st data s) = kept s := by
  unfold finish
  split <;> simp

@[simp] theorem finishOpt_kept (h : Option Word) (st : Status) (data : List Byte) (s : State) : kept (finishOpt h st data s) = kept s := by
  unfold finishOpt
  split <;> simp

@[simp] theorem writeCompletion_kept (n : Nat) (c : Completion) (s : State) : kept (writeCompletion n c s) = kept s :=
  by simp [writeCompletion]

@[simp] theorem writeNext_kept (n : Nat) (s : State) : kept (writeNext n s) = kept s := by
  simp only [writeNext]
  repeat' split
  all_goals simp

@[simp] theorem drainCq_kept (n : Nat) (s : State) : kept (drainCq n s) = kept s := by simp [drainCq]
@[simp] theorem noteFull_kept (n : Nat) (s : State) : kept (noteFull n s) = kept s := by simp [noteFull]

@[simp] theorem endMailbox_kept (st : Status) (m : Nat) (s : State) : kept (endMailbox st m s) = kept s :=
  foldl_kept (fun _ _ => by rfl) _ _

@[simp] theorem rewriteWaiting_kept (st : Status) (s : State) : kept (rewriteWaiting st s) = kept s := (rfl)
@[simp] theorem withGlb_kept {f : Glb → Glb} {s : State} (h : (f s.glb).resetCause = s.glb.resetCause ∧ (f s.glb).serial = s.glb.serial ∧
    (f s.glb).refLost = s.glb.refLost) : kept (withGlb f s) = kept s := by
  obtain ⟨hcause, hserial, hlost⟩ := h
  simp only [kept, withGlb, hcause, hserial, hlost]
@[simp] theorem withLife_kept (f : Life → Life) (s : State) : kept (withLife f s) = kept s := (rfl)
@[simp] theorem withPower_kept (f : Power → Power) (s : State) : kept (withPower f s) = kept s := (rfl)
@[simp] theorem withPcie_kept {f : Pcie → Pcie} {s : State} (h : (f s.host.pcie).d3hot = s.host.pcie.d3hot) :
    kept (withPcie f s) = kept s := by simp only [kept, withPcie, h]
@[simp] theorem withHost_kept {f : HostIf → HostIf} {s : State}
    (h : (f s.host).pcie.d3hot = s.host.pcie.d3hot ∧ (f s.host).msixTbl = s.host.msixTbl) : kept (withHost f s) = kept s := by
  obtain ⟨hpower, htable⟩ := h
  simp only [kept, withHost, hpower, htable]
@[simp] theorem withHtx_kept (n : Nat) (f : Ring → Ring) (s : State) : kept (withHtx n f s) = kept s := (rfl)
@[simp] theorem withHrx_kept (n : Nat) (f : Ring → Ring) (s : State) : kept (withHrx n f s) = kept s := (rfl)

/-! Queues -/

@[simp] theorem writeTxStatus_kept (n : Nat) (st : Status) (stamp : Nat) (i : BitVec 16) (s : State) :
    kept (writeTxStatus n st stamp i s) = kept s := by simp [writeTxStatus]

@[simp] theorem advanceCons_kept (n : Nat) (s : State) : kept (advanceCons n s) = kept s := (rfl)

@[simp] theorem completeTx_kept (n id : Nat) (st : Status) (stamp : Nat) (s : State) : kept (completeTx n id st stamp s) = kept s := by
  unfold completeTx
  split <;> simp

@[simp] theorem frameDone_kept (f : Frame) (st : Status) (stamps : List Nat) (s : State) : kept (frameDone f st stamps s) = kept s := by
  unfold frameDone
  split <;> simp

@[simp] theorem dropAll_kept (st : Status) (l : List Frame) (s : State) : kept (dropAll st l s) = kept s := by simp [dropAll]
@[simp] theorem withMac_kept (f : Mac → Mac) (s : State) : kept (withMac f s) = kept s := (rfl)
@[simp] theorem withRm_kept (r : Nat) (f : RadioMac → RadioMac) (s : State) : kept (withRm r f s) = kept s := (rfl)
@[simp] theorem withBss_kept (b : Nat) (f : Bss → Bss) (s : State) : kept (withBss b f s) = kept s := (rfl)
@[simp] theorem withSta_kept (n : Nat) (f : Sta → Sta) (s : State) : kept (withSta n f s) = kept s := (rfl)
@[simp] theorem withSched_kept (f : Sched → Sched) (s : State) : kept (withSched f s) = kept s := (rfl)
@[simp] theorem withRs_kept (r : Nat) (f : RadioSched → RadioSched) (s : State) : kept (withRs r f s) = kept s := (rfl)
@[simp] theorem macCount_kept (r i k : Nat) (s : State) : kept (macCount r i k s) = kept s := (rfl)
@[simp] theorem schedCount_kept (r i k : Nat) (s : State) : kept (schedCount r i k s) = kept s := (rfl)
@[simp] theorem setTidQueue_kept (q : Nat) (l : List Frame) (s : State) : kept (setTidQueue q l s) = kept s := (rfl)
@[simp] theorem setGroupQueue_kept (q : Nat) (l : List Frame) (s : State) : kept (setGroupQueue q l s) = kept s := (rfl)

@[simp] theorem llMiss_kept (r : Nat) (n tid : Nat) (s : State) : kept (llMiss r n tid s) = kept s := by
  unfold llMiss
  split <;> simp

@[simp] theorem barDue_kept (q : Nat) (f : Frame) (s : State) : kept (barDue q f s) = kept s := by
  unfold barDue
  split <;> simp

@[simp] theorem cwLow_kept (r a : Nat) (s : State) : kept (cwLow r a s) = kept s := (rfl)

@[simp] theorem dropMsdu_kept (r n tid : Nat) (st : Status) (f : Frame) (s : State) : kept (dropMsdu r n tid st f s) = kept s :=
  by simp [dropMsdu]

@[simp] theorem retryDrop_kept (r n tid : Nat) (f : Frame) (s : State) : kept (retryDrop r n tid f s) = kept s := by simp [retryDrop]
@[simp] theorem lifeDrop_kept (r n tid : Nat) (f : Frame) (s : State) : kept (lifeDrop r n tid f s) = kept s := by simp [lifeDrop]

@[simp] theorem dropLost_kept (r n : Nat) (p : Nat × Frame) (s : State) : kept (dropLost r n p s) = kept s := by
  unfold dropLost
  split <;> simp

@[simp] theorem unclaim_kept (r : Nat) (queue : Option Nat) (u : FUser) (s : State) : kept (unclaim r queue u s) = kept s := by
  unfold unclaim
  split <;> simp

@[simp] theorem unclaimFurrow_kept (r : Nat) (f : Furrow) (s : State) : kept (unclaimFurrow r f s) = kept s := by simp [unclaimFurrow]

@[simp] theorem furrowDrop_kept (r : Nat) (s : State) : kept (furrowDrop r s) = kept s := by
  unfold furrowDrop
  dsimp only
  split <;> split <;> simp

@[simp] theorem leaveFurrows_kept (n tids why : Nat) (s : State) : kept (leaveFurrows n tids why s) = kept s := by
  refine foldl_kept (fun _ _ => ?_) _ _
  dsimp only
  repeat' split
  all_goals simp

/-! SeedBase -/

@[simp] theorem withSeed_kept (f : Seed → Seed) (s : State) : kept (withSeed f s) = kept s := (rfl)
@[simp] theorem seedCount_kept (i k : Nat) (s : State) : kept (seedCount i k s) = kept s := (rfl)

@[simp] theorem logEntry_kept (domain reason fence object old new : Nat) (s : State) :
    kept (logEntry domain reason fence object old new s) = kept s := by simp [logEntry]

@[simp] theorem logClip_kept (kind r sta old new : Nat) (s : State) : kept (logClip kind r sta old new s) = kept s := by simp [logClip]
@[simp] theorem decideOn_kept (domain object : Nat) (s : State) : kept (decideOn domain object s) = kept s := by simp [decideOn]
@[simp] theorem setPlace_kept (domain object fence value : Nat) (s : State) : kept (setPlace domain object fence value s) = kept s := (rfl)

@[simp] theorem place_kept (domain reason fence object value : Nat) (forced : Bool) (s : State) :
    kept (place domain reason fence object value forced s) = kept s := by simp [place]

@[simp] theorem unplace_kept (domain object : Nat) (s : State) : kept (unplace domain object s) = kept s := by
  unfold unplace
  split <;> simp

@[simp] theorem blockPlace_kept (domain fence object : Nat) (s : State) : kept (blockPlace domain fence object s) = kept s :=
  by simp [blockPlace]

@[simp] theorem setLink_kept (n tid new : Nat) (s : State) : kept (setLink n tid new s) = kept s := by simp [setLink]

@[simp] theorem placeLinks_kept (reason fence n : Nat) (forced : Bool) (l : List (Nat × Nat)) (s : State) :
    kept (placeLinks reason fence n forced l s) = kept s := by simp [placeLinks]

@[simp] theorem unplaceSta_kept (n : Nat) (s : State) : kept (unplaceSta n s) = kept s := by simp [unplaceSta]

/-! HarrowBase -/

@[simp] theorem withRel_kept (f : Rel → Rel) (s : State) : kept (withRel f s) = kept s := (rfl)
@[simp] theorem relCount_kept (i k : Nat) (s : State) : kept (relCount i k s) = kept s := (rfl)
@[simp] theorem fencePart_kept (code : Nat) (s : State) : kept (fencePart code s) = kept s := by simp [fencePart]
@[simp] theorem arrayUncorr_kept (code word : Nat) (s : State) : kept (arrayUncorr code word s) = kept s := by simp [arrayUncorr]
@[simp] theorem residue_kept (code mism : Nat) (s : State) : kept (residue code mism s) = kept s := by simp [residue]
@[simp] theorem withHarrow_kept (f : Harrow → Harrow) (s : State) : kept (withHarrow f s) = kept s := (rfl)
@[simp] theorem withLane_kept (l : Nat) (f : Lane → Lane) (s : State) : kept (withLane l f s) = kept s := (rfl)
@[simp] theorem withLease_kept (k : Nat) (f : Lease → Lease) (s : State) : kept (withLease k f s) = kept s := (rfl)
@[simp] theorem hcount_kept (i k : Nat) (s : State) : kept (hcount i k s) = kept s := (rfl)

@[simp] theorem placeSlot_kept (reason k n l : Nat) (forced : Bool) (s : State) : kept (placeSlot reason k n l forced s) = kept s :=
  by simp [placeSlot]

@[simp] theorem fixSets_kept (reason fence : Nat) (forced : Bool) (s : State) : kept (fixSets reason fence forced s) = kept s := by
  refine foldl_kept (fun _ _ => ?_) _ _
  split <;> simp

@[simp] theorem dropJobs_kept (k : Nat) (which : Job → Bool) (st : Status) (s : State) : kept (dropJobs k which st s) = kept s := by
  unfold dropJobs
  split <;> simp

theorem moveSlot_kept {k n : Nat} {ok : Lane → Bool} {s t : State} (h : moveSlot k n ok s = some t) : kept t = kept s := by
  simp only [moveSlot] at h
  repeat' split at h
  all_goals simp only [reduceCtorEq, Option.some.injEq] at h
  all_goals subst h; simp

@[simp] theorem settleLease_kept (k : Nat) (s : State) : kept (settleLease k s) = kept s := by
  unfold settleLease
  split
  · rfl
  · split
    · rfl
    · split
      · simp
      · rw [finish_kept, withHarrow_kept]
        refine foldl_kept (fun t n => ?_) _ _
        split <;> simp
      · rfl

@[simp] theorem leaveWhole_kept (l : Nat) (s : State) : kept (leaveWhole l s) = kept s := by
  unfold leaveWhole
  split
  · rfl
  · dsimp only
    rw [settleLease_kept]
    split
    · next h =>
      split at h
      · cases h
      · exact moveSlot_kept h
    · simp

@[simp] theorem leaveFallback_kept (l : Nat) (s : State) : kept (leaveFallback l s) = kept s := by
  unfold leaveFallback
  split
  · rfl
  · dsimp only
    split
    · rfl
    · split
      · next h => exact moveSlot_kept h
      · simp

@[simp] theorem raiseFenced_kept (l cause : Nat) (s : State) : kept (raiseFenced l cause s) = kept s := by simp [raiseFenced]
@[simp] theorem endJob_kept (l fault : Nat) (s : State) : kept (endJob l fault s) = kept s := (rfl)
@[simp] theorem fenceWhole_kept (l : Nat) (s : State) : kept (fenceWhole l s) = kept s := by simp [fenceWhole]
@[simp] theorem enterFallback_kept (l : Nat) (s : State) : kept (enterFallback l s) = kept s := by simp [enterFallback]
@[simp] theorem memoryError_kept (l b w : Nat) (s : State) : kept (memoryError l b w s) = kept s := by simp [memoryError]
@[simp] theorem cacheError_kept (l w : Nat) (s : State) : kept (cacheError l w s) = kept s := by simp [cacheError]
@[simp] theorem residueError_kept (l : Nat) (s : State) : kept (residueError l s) = kept s := by simp [residueError]
@[simp] theorem unqueueJob_kept (h : Word) (s : State) : kept (unqueueJob h s) = kept s := (rfl)

/-! Headland -/

@[simp] theorem planRequest_kept (s : State) : kept (planRequest s) = kept s := (rfl)
@[simp] theorem avsRequest_kept (s : State) : kept (avsRequest s) = kept s := by simp [avsRequest]
@[simp] theorem canaryReplan_kept (canary : Nat) (s : State) : kept (canaryReplan canary s) = kept s := by simp [canaryReplan]
@[simp] theorem avsFault_kept (s : State) : kept (avsFault s) = kept s := by simp [avsFault]
@[simp] theorem avsPauseEnd_kept (s : State) : kept (avsPauseEnd s) = kept s := by simp [avsPauseEnd]
@[simp] theorem avsAck_kept (readback : Nat) (s : State) : kept (avsAck readback s) = kept s := by simp [avsAck]
@[simp] theorem canarySample_kept (delays : List Nat) (s : State) : kept (canarySample delays s) = kept s := by simp [canarySample]
@[simp] theorem withHl_kept (r : Nat) (f : RadioHl → RadioHl) (s : State) : kept (withHl r f s) = kept s := (rfl)

@[simp] theorem raiseStep_kept (inst step undo value by_ : Nat) (s : State) : kept (raiseStep inst step undo value by_ s) = kept s :=
  by simp [raiseStep]

@[simp] theorem hlDiscard_kept (r : Nat) (s : State) : kept (hlDiscard r s) = kept s := by
  unfold hlDiscard
  split <;> simp

@[simp] theorem hlTrigger_kept (r : Nat) (p1 : Option Nat) (part : Bool) (s : State) : kept (hlTrigger r p1 part s) = kept s :=
  by simp [hlTrigger]

@[simp] theorem evalP1_kept (r : Nat) (s : State) : kept (evalP1 r s) = kept s := (rfl)

@[simp] theorem hlResponse_kept (r slack : Nat) (part : Bool) (s : State) : kept (hlResponse r slack part s) = kept s :=
  by simp [hlResponse]

@[simp] theorem hlEvaluate_kept (r : Nat) (s : State) : kept (hlEvaluate r s) = kept s := by simp [hlEvaluate]
@[simp] theorem hlUndo_kept (r : Nat) (s : State) : kept (hlUndo r s) = kept s := by simp [hlUndo]

/-! BfBase -/

@[simp] theorem withFe_kept (r : Nat) (f : RadioFe → RadioFe) (s : State) : kept (withFe r f s) = kept s := (rfl)
@[simp] theorem feCount_kept (r i : Nat) (s : State) : kept (feCount r i s) = kept s := (rfl)
@[simp] theorem withBf_kept (f : Bf → Bf) (s : State) : kept (withBf f s) = kept s := (rfl)
@[simp] theorem withRb_kept (r : Nat) (f : RadioBf → RadioBf) (s : State) : kept (withRb r f s) = kept s := (rfl)
@[simp] theorem bfCount_kept (r i k : Nat) (s : State) : kept (bfCount r i k s) = kept s := (rfl)
@[simp] theorem strikeGroups_kept (r : Nat) (p : Group → Bool) (s : State) : kept (strikeGroups r p s) = kept s := (rfl)
@[simp] theorem recipStale_kept (r : Nat) (s : State) : kept (recipStale r s) = kept s := (rfl)
@[simp] theorem strikePre_kept (r : Nat) (s : State) : kept (strikePre r s) = kept s := (rfl)
@[simp] theorem strikeAll_kept (r : Nat) (s : State) : kept (strikeAll r s) = kept s := by simp [strikeAll]
@[simp] theorem bfChannel_kept (r : Nat) (s : State) : kept (bfChannel r s) = kept s := by simp [bfChannel]
@[simp] theorem bfChains_kept (r : Nat) (s : State) : kept (bfChains r s) = kept s := by simp [bfChains]
@[simp] theorem furrowDiscard_kept (r : Nat) (s : State) : kept (furrowDiscard r s) = kept s := by simp [furrowDiscard]
@[simp] theorem recipRepeat_kept (r : Nat) (s : State) : kept (recipRepeat r s) = kept s := by simp [recipRepeat]
@[simp] theorem recipOff_kept (r : Nat) (s : State) : kept (recipOff r s) = kept s := by simp [recipOff]

/-! Candidates -/

@[simp] theorem raiseBss_kept (b : Nat) (s t : State) : kept (raiseBss b s t) = kept t := by
  simp only [raiseBss]
  repeat' split
  all_goals simp

@[simp] theorem raiseFlow_kept (n a : Nat) (s t : State) : kept (raiseFlow n a s t) = kept t := by
  simp only [raiseFlow]
  repeat' split
  all_goals simp

@[simp] theorem raiseGroup_kept (b g : Nat) (s t : State) : kept (raiseGroup b g s t) = kept t := by
  simp only [raiseGroup]
  repeat' split
  all_goals simp

@[simp] theorem raiseSta_kept (n : Nat) (s t : State) : kept (raiseSta n s t) = kept t := by
  unfold raiseSta
  split <;> simp

@[simp] theorem putTid_kept (n t : Nat) (f : Frame) (s : State) : kept (putTid n t f s) = kept s := by
  unfold putTid
  split <;> simp

@[simp] theorem sendAction_kept (n : Nat) (body : List Byte) (s : State) : kept (sendAction n body s) = kept s := by simp [sendAction]
@[simp] theorem askBa_kept (q : Nat) (s : State) : kept (askBa q s) = kept s := by simp [askBa]
@[simp] theorem enqueueTid_kept (n t : Nat) (f : Frame) (s : State) : kept (enqueueTid n t f s) = kept s := by simp [enqueueTid]
@[simp] theorem enqueueGroup_kept (q : Nat) (f : Frame) (s : State) : kept (enqueueGroup q f s) = kept s := by simp [enqueueGroup]

/-! Exchange -/

@[simp] theorem chargeUser_kept (r : Nat) (queue : Option Nat) (u : FUser) (t : Nat) (s : State) :
    kept (chargeUser r queue u t s) = kept s := by
  unfold chargeUser
  split <;> simp

@[simp] theorem retryFrame_kept (r n : Nat) (p : Nat × Frame) (s : State) : kept (retryFrame r n p s) = kept s := by simp [retryFrame]

@[simp] theorem ackedFrame_kept (r n : Nat) (p : Nat × Frame) (s : State) : kept (ackedFrame r n p s) = kept s := by
  unfold ackedFrame
  split <;> simp

@[simp] theorem dlOutcome_kept (r : Nat) (acked : List (Nat × Nat × Nat)) (u : FUser) (s : State) : kept (dlOutcome r acked u s) = kept s :=
  by simp [dlOutcome]

@[simp] theorem ulOutcome_kept (r : Nat) (tb : List Nat) (u : FUser) (s : State) : kept (ulOutcome r tb u s) = kept s := by simp [ulOutcome]

@[simp] theorem barOutcome_kept (r : Nat) (answered : List Nat) (u : FUser) (s : State) : kept (barOutcome r answered u s) = kept s := by
  refine foldl_kept (fun _ _ => ?_) _ _
  dsimp only
  repeat' split
  all_goals simp

@[simp] theorem cwReset_kept (r a : Nat) (s : State) : kept (cwReset r a s) = kept s := (rfl)
@[simp] theorem adoptEdca_kept (r a : Nat) (s : State) : kept (adoptEdca r a s) = kept s := (rfl)
@[simp] theorem drawCounter_kept (r a : Nat) (s : State) : kept (drawCounter r a s) = kept s := (rfl)
@[simp] theorem cwFail_kept (r a : Nat) (s : State) : kept (cwFail r a s) = kept s := (rfl)

@[simp] theorem chargeBss_kept (f : Furrow) (s : State) : kept (chargeBss f s) = kept s := by
  unfold chargeBss
  split <;> simp

@[simp] theorem emlsrRest_kept (r : Nat) (stas : List Nat) (s : State) : kept (emlsrRest r stas s) = kept s :=
  foldl_kept (fun _ _ => by rfl) _ _

@[simp] theorem txopEnd_kept (r : Nat) (failed dropped : Bool) (s : State) : kept (txopEnd r failed dropped s) = kept s := by
  unfold txopEnd
  dsimp only
  split <;> split <;> simp

@[simp] theorem takeBars_kept (r : Nat) (u : FUser) (s : State) : kept (takeBars r u s).2 = kept s := by simp [takeBars]

@[simp] theorem startElement_kept (r fuel : Nat) (s : State) : kept (startElement r fuel s) = kept s := by
  induction fuel generalizing s with
  | zero => exact txopEnd_kept _ _ _ _
  | succ k ih =>
    unfold startElement
    split
    · rfl
    · split
      · exact txopEnd_kept _ _ _ _
      · dsimp only
        split
        · simp [ih]
        · rw [withRm_kept, withRs_kept, foldl_snd_kept fun p u => by split <;> simp]
          simp

@[simp] theorem elementDone_kept (r : Nat) (ok : Bool) (s : State) : kept (elementDone r ok s) = kept s := by
  unfold elementDone
  split
  · simp
  · dsimp only
    split
    · simp
    · split
      · simp
      · split <;> simp

@[simp] theorem giveUpTxop_kept (r : Nat) (s : State) : kept (giveUpTxop r s) = kept s := by
  simp only [giveUpTxop]
  repeat' split
  all_goals simp

@[simp] theorem exchangeFail_kept (r : Nat) (s : State) : kept (exchangeFail r s) = kept s := by
  unfold exchangeFail
  dsimp only
  split <;> simp

@[simp] theorem rxAbandoned_kept (r : Nat) (s : State) : kept (rxAbandoned r s) = kept s := by simp [rxAbandoned]
@[simp] theorem failOwing_kept (r : Nat) (s : State) : kept (failOwing r s) = kept s := by simp [failOwing]

/-! Operands -/

@[simp] theorem finishAhead_kept (r : CmdRec) (st : Status) (data : List Byte) (s : State) : kept (finishAhead r st data s) = kept s :=
  (rfl)

@[simp] theorem answer_kept (data : List Byte) (s : State) : kept ((answer data s).after s) = kept s := (rfl)
@[simp] theorem okay_kept (s : State) : kept ((okay s).after s) = kept s := (rfl)

/-! Radio -/

@[simp] theorem withChain_kept (r c : Nat) (f : Chain → Chain) (s : State) : kept (withChain r c f s) = kept s := (rfl)

@[simp] theorem grantUpdate_kept (r : Nat) (s : State) : kept (grantUpdate r s) = kept s := by
  simp only [grantUpdate]
  repeat' split
  all_goals simp

@[simp] theorem idleUpdate_kept (r : Nat) (s : State) : kept (idleUpdate r s) = kept s := (rfl)
@[simp] theorem coexUpdate_kept (r : Nat) (s : State) : kept (coexUpdate r s) = kept s := by simp [coexUpdate]
@[simp] theorem coexAll_kept (s : State) : kept (coexAll s) = kept s := by simp [coexAll]

@[simp] theorem coexReq_kept (r : Nat) (level : Bool) (s : State) : kept (coexReq r level s) = kept s := by
  unfold coexReq
  dsimp only
  split
  · rfl
  · split
    · simp
    · split
      · rfl
      · rw [coexUpdate_kept]
        split <;> rfl

@[simp] theorem coexStuck_kept (r : Nat) (s : State) : kept (coexStuck r s) = kept s := by simp [coexStuck]

@[simp] theorem rffeWrite_kept (r bus usid addr data mask : Nat) (s : State) : kept (rffeWrite r bus usid addr data mask s) = kept s :=
  (rfl)

@[simp] theorem femWrite_kept (r : Nat) (b : List Byte) (s : State) : kept (femWrite r b s) = kept s := (rfl)
@[simp] theorem femTrigger_kept (r ev : Nat) (s : State) : kept (femTrigger r ev s) = kept s := by simp [femTrigger]
@[simp] theorem femIssue_kept (r ev : Nat) (s : State) : kept (femIssue r ev s) = kept s := foldl_kept (fun _ _ => by rfl) _ _

@[simp] theorem femEnter_kept (r : Nat) (st : RState) (s : State) : kept (femEnter r st s) = kept s := by
  unfold femEnter
  split <;> simp

@[simp] theorem femSegment_kept (r seg : Nat) (s : State) : kept (femSegment r seg s) = kept s := foldl_kept (fun _ _ => by rfl) _ _
@[simp] theorem toReturn_kept (r : Nat) (s : State) : kept (toReturn r s) = kept s := (rfl)
@[simp] theorem chainsChanged_kept (r : Nat) (was : Bool) (s : State) : kept (chainsChanged r was s) = kept s := by simp [chainsChanged]
@[simp] theorem takeState_kept (r c : Nat) (st : ChainSt) (s : State) : kept (takeState r c st s) = kept s := by simp [takeState]

@[simp] theorem takeChain_kept (r c : Nat) (s : State) : kept (takeChain r c s) = kept s := by
  unfold takeChain
  dsimp only
  split <;> simp

@[simp] theorem chainBoundary_kept (r : Nat) (s : State) : kept (chainBoundary r s) = kept s := by simp [chainBoundary]

@[simp] theorem setChainState_kept (r c : Nat) (st : ChainSt) (s : State) : kept (setChainState r c st s) = kept s :=
  by simp [setChainState]

@[simp] theorem writeCode_kept (r : Nat) (t : Tuner) (second : Bool) (v : Nat) (s : State) : kept (writeCode r t second v s) = kept s :=
  (rfl)

@[simp] theorem startSearch_kept (r c : Nat) (s : State) : kept (startSearch r c s) = kept s := by
  unfold startSearch
  dsimp only
  split <;> simp

@[simp] theorem searchStep_kept (r c rl : Nat) (t : Tuner) (q : TuneSearch) (s : State) : kept (searchStep r c rl t q s) = kept s := by
  unfold searchStep
  dsimp only
  split <;> simp

@[simp] theorem measureChain_kept (r c rl : Nat) (s : State) : kept (measureChain r c rl s) = kept s := by
  simp only [measureChain]
  repeat' split
  all_goals simp

@[simp] theorem startDue_kept (r : Nat) (s : State) : kept (startDue r s) = kept s := by simp [startDue]
@[simp] theorem derateResearch_kept (r c : Nat) (s : State) : kept (derateResearch r c s) = kept s := by simp [derateResearch]
@[simp] theorem startCal_kept (r seg : Nat) (cause : CalCause) (s : State) : kept (startCal r seg cause s) = kept s := (rfl)
@[simp] theorem startLock_kept (r : Nat) (s : State) : kept (startLock r s) = kept s := by simp [startLock]
@[simp] theorem goTo_kept (r : Nat) (target : RState) (s : State) : kept (goTo r target s) = kept s := by simp [goTo]
@[simp] theorem leaveOff_kept (r : Nat) (s : State) : kept (leaveOff r s) = kept s := by simp [leaveOff]
@[simp] theorem storeChannel_kept (r : Nat) (q : ChanReq) (s : State) : kept (storeChannel r q s) = kept s := by simp [storeChannel]

@[simp] theorem offEnds_kept (r : Nat) (s : State) : kept (offEnds r s) = kept s := by
  unfold offEnds
  dsimp only
  rw [recipOff_kept]
  split <;> split <;> split <;> split <;> simp [-List.foldl_append]

@[simp] theorem stateApply_kept (r : Nat) (s : State) : kept (stateApply r s) = kept s := by
  unfold stateApply
  dsimp only
  split <;> simp

@[simp] theorem calCmdEnd_kept (r : Nat) (s : State) : kept (calCmdEnd r s) = kept s := by
  unfold calCmdEnd
  split <;> simp

@[simp] theorem lockDone_kept (r : Nat) (s : State) : kept (lockDone r s) = kept s := by
  unfold lockDone
  split <;> simp

@[simp] theorem autoWake_kept (r : Nat) (tx : Bool) (s : State) : kept (autoWake r tx s) = kept s := by simp [autoWake]
@[simp] theorem tempSample_kept (r : Nat) (temp : Int) (s : State) : kept (tempSample r temp s) = kept s := (rfl)
@[simp] theorem calTemp_kept (r : Nat) (s : State) : kept (calTemp r s) = kept s := (rfl)

@[simp] theorem calBegin_kept (r : Nat) (s : State) : kept (calBegin r s) = kept s := by
  simp only [calBegin]
  repeat' split
  all_goals simp

@[simp] theorem onward_kept (r : Nat) (s : State) : kept (onward r s) = kept s := by
  unfold onward
  split <;> simp

@[simp] theorem arrived_kept (r : Nat) (locked : Bool) (s : State) : kept (arrived r locked s) = kept s := by
  simp only [arrived]
  repeat' split
  all_goals simp

@[simp] theorem transitionEnd_kept (r : Nat) (s : State) : kept (transitionEnd r s) = kept s := by
  unfold transitionEnd
  dsimp only
  split <;> simp

@[simp] theorem calForced_kept (r : Nat) (s : State) : kept (calForced r s) = kept s := by simp [calForced]

@[simp] theorem calFollow_kept (r : Nat) (c : Cal) (s : State) : kept (calFollow r c s) = kept s := by
  simp only [calFollow]
  repeat' split
  all_goals simp

@[simp] theorem noteTuning_kept (r seg : Nat) (s : State) : kept (noteTuning r seg s) = kept s := (rfl)

@[simp] theorem calEnd_kept (r : Nat) (s : State) : kept (calEnd r s) = kept s := by
  unfold calEnd
  dsimp only
  split <;> simp

@[simp] theorem channelSwitch_kept (r extra : Nat) (s0 : State) : kept (channelSwitch r extra s0) = kept s0 := by
  unfold channelSwitch
  dsimp only
  split <;> simp

@[simp] theorem radioGetStateRun_kept (c : Cmd) (s : State) : kept (((radioGetStateRun) c s).after s) = kept s := (rfl)
@[simp] theorem setStateRun_kept (c : Cmd) (s : State) : kept ((setStateRun c s).after s) = kept s := (rfl)

@[simp] theorem setChannelRun_kept (c : Cmd) (s : State) : kept ((setChannelRun c s).after s) = kept s := by
  unfold setChannelRun
  dsimp only
  split <;> simp

@[simp] theorem calibrateRun_kept (c : Cmd) (s : State) : kept ((calibrateRun c s).after s) = kept s := by simp [calibrateRun]

@[simp] theorem radioSetFemMapRun_kept (c : Cmd) (s : State) : kept (((radioSetFemMapRun) c s).after s) = kept s :=
  by simp [radioSetFemMapRun]

@[simp] theorem radioSetRampRun_kept (c : Cmd) (s : State) : kept (((radioSetRampRun) c s).after s) = kept s := (rfl)
@[simp] theorem setChainRun_kept (c : Cmd) (s : State) : kept ((setChainRun c s).after s) = kept s := by simp [setChainRun]

@[simp] theorem radioRestoreChainRun_kept (c : Cmd) (s : State) : kept (((radioRestoreChainRun) c s).after s) = kept s :=
  by simp [radioRestoreChainRun]

@[simp] theorem radioGetChainRun_kept (c : Cmd) (s : State) : kept (((radioGetChainRun) c s).after s) = kept s := (rfl)
@[simp] theorem radioGetCountersRun_kept (c : Cmd) (s : State) : kept (((radioGetCountersRun) c s).after s) = kept s := (rfl)

@[simp] theorem rffeRun_kept (rd : RffeAnswer) (c : Cmd) (s : State) : kept ((rffeRun rd c s).after s) = kept s := by
  unfold rffeRun
  split <;> simp

/-! Phy -/

@[simp] theorem withPhy_kept (r : Nat) (f : RadioPhy → RadioPhy) (s : State) : kept (withPhy r f s) = kept s := (rfl)
@[simp] theorem phyCount_kept (r i k : Nat) (s : State) : kept (phyCount r i k s) = kept s := (rfl)
@[simp] theorem withRx_kept (r : Nat) (f : RxCur → RxCur) (s : State) : kept (withRx r f s) = kept s := (rfl)

@[simp] theorem beginRx_kept (r : Nat) (power : Int) (levels : List Int) (dsss : Bool) (s : State) :
    kept (beginRx r power levels dsss s) = kept s := (rfl)

@[simp] theorem preambleDetect_kept (r : Nat) (power : Int) (levels : List Int) (dsss : Bool) (s : State) :
    kept (preambleDetect r power levels dsss s) = kept s := by simp [preambleDetect]

@[simp] theorem sigValidate_kept (r : Nat) (g : SigInfo) (s : State) : kept (sigValidate r g s) = kept s := by
  unfold sigValidate
  split <;> simp

@[simp] theorem searchResume_kept (r : Nat) (s : State) : kept (searchResume r s) = kept s := by
  unfold searchResume
  split <;> simp

@[simp] theorem writeReport_kept (r : Nat) (x : RxCur) (restarted : Bool) (s : State) (um : UserSig × UserMeas) :
    kept (writeReport r x restarted s um) = kept s := (rfl)

@[simp] theorem writeReports_kept (r : Nat) (x : RxCur) (restarted : Bool) (ms : List UserMeas) (s : State) :
    kept (writeReports r x restarted ms s) = kept s := foldl_kept (fun _ _ => by rfl) _ _

@[simp] theorem abandonedMeas_kept (r : Nat) (x : RxCur) (i : Nat) (u : UserSig) (s : State) : kept (abandonedMeas r x i u s).2 = kept s :=
  foldl_snd_kept (fun _ _ => by rfl) _ _

@[simp] theorem abandonReports_kept (r : Nat) (x : RxCur) (s : State) : kept (abandonReports r x s) = kept s := by simp [abandonReports]

@[simp] theorem lateReports_kept (r : Nat) (s : State) : kept (lateReports r s) = kept s := by
  unfold lateReports
  split <;> simp

@[simp] theorem ldpcDecode_kept (r : Nat) (w : LdpcWord) (waiting : Nat) (s : State) : kept (ldpcDecode r w waiting s) = kept s :=
  by simp [ldpcDecode]

@[simp] theorem applyFormats_kept (r : Nat) (s : State) : kept (applyFormats r s) = kept s := (rfl)
@[simp] theorem phySetRxRun_kept (c : Cmd) (s : State) : kept (((phySetRxRun) c s).after s) = kept s := (rfl)
@[simp] theorem phySetFormatsRun_kept (c : Cmd) (s : State) : kept (((phySetFormatsRun) c s).after s) = kept s := (rfl)
@[simp] theorem phyGetConfigRun_kept (c : Cmd) (s : State) : kept (((phyGetConfigRun) c s).after s) = kept s := (rfl)
@[simp] theorem phyGetReportRun_kept (c : Cmd) (s : State) : kept (((phyGetReportRun) c s).after s) = kept s := (rfl)
@[simp] theorem phyReadHistoryRun_kept (c : Cmd) (s : State) : kept (((phyReadHistoryRun) c s).after s) = kept s := (rfl)
@[simp] theorem phyGetCountersRun_kept (c : Cmd) (s : State) : kept (((phyGetCountersRun) c s).after s) = kept s := (rfl)

@[simp] theorem testTxRun_kept (c : Cmd) (s : State) : kept ((testTxRun c s).after s) = kept s := by
  simp only [testTxRun]
  repeat' split
  all_goals simp

@[simp] theorem testTxEnd_kept (r : Nat) (s : State) : kept (testTxEnd r s) = kept s := by
  simp only [testTxEnd]
  repeat' split
  all_goals simp

/-! Rtc -/

@[simp] theorem withRtc_kept {f : Rtc → Rtc} {s : State} (h : (f s.rtc).time = s.rtc.time ∧ (f s.rtc).commit = s.rtc.commit ∧
    (f s.rtc).holdDate = s.rtc.holdDate ∧ (f s.rtc).holdTime = s.rtc.holdTime ∧ (f s.rtc).alarm = s.rtc.alarm ∧
    (f s.rtc).sqwSel = s.rtc.sqwSel) : kept (withRtc f s) = kept s := by
  obtain ⟨htime, hcommit, hdate, hhold, halarm, hsqw⟩ := h
  simp [kept, htime, hcommit, hdate, hhold, halarm, hsqw]

@[simp] theorem rtcUnlock_kept (value : Word) (s : State) : kept (rtcUnlock value s) = kept s := by
  unfold rtcUnlock
  split
  · rfl
  · split
    · rfl
    · split
      · rfl
      · split <;> rfl

@[simp] theorem wakeRises_kept (m : Nat) (s : State) : kept (wakeRises m s) = kept s := (rfl)
@[simp] theorem driveWake_kept (src : Nat) (s : State) : kept (driveWake src s) = kept s := by simp [driveWake]

@[simp] theorem alarmFires_kept (s : State) : kept (alarmFires s) = kept s := by
  unfold alarmFires
  dsimp only
  split
  · exact driveWake_kept _ _
  · split
    · exact raise_kept _ _ _ _
    · rfl

/-! Wake -/

@[simp] theorem withWur_kept (f : Wur → Wur) (s : State) : kept (withWur f s) = kept s := (rfl)
@[simp] theorem wurCount_kept (i : Nat) (s : State) : kept (wurCount i s) = kept s := (rfl)

@[simp] theorem wurMatched_kept (e : Nat) (f : WurFrame) (s : State) : kept (wurMatched e f s) = kept s := by
  simp only [wurMatched]
  repeat' split
  all_goals simp

@[simp] theorem wurFrameRx_kept (f : WurFrame) (s : State) : kept (wurFrameRx f s) = kept s := by
  simp only [wurFrameRx]
  repeat' split
  all_goals simp

@[simp] theorem wurWindow_kept (isOpen : Bool) (s : State) : kept (wurWindow isOpen s) = kept s := by simp [wurWindow]
@[simp] theorem wurSetRxRun_kept (c : Cmd) (s : State) : kept (((wurSetRxRun) c s).after s) = kept s := (rfl)
@[simp] theorem wurSetMatch_kept (p : List Byte) (s : State) : kept (wurSetMatch p s) = kept s := by simp [wurSetMatch]
@[simp] theorem wurSetMatchRun_kept (c : Cmd) (s : State) : kept (((wurSetMatchRun) c s).after s) = kept s := by simp [wurSetMatchRun]
@[simp] theorem wurGetStatusRun_kept (c : Cmd) (s : State) : kept (((wurGetStatusRun) c s).after s) = kept s := (rfl)
@[simp] theorem wurSendRun_kept (c : Cmd) (s : State) : kept ((wurSendRun c s).after s) = kept s := by simp [wurSendRun]

@[simp] theorem wurSendDone_kept (b : Nat) (s : State) : kept (wurSendDone b s) = kept s := by
  unfold wurSendDone
  split <;> simp

@[simp] theorem wurCopyDue_kept (b : Nat) (s : State) : kept (wurCopyDue b s) = kept s := by
  unfold wurCopyDue
  split <;> simp

@[simp] theorem wurCopyStarts_kept (b : Nat) (s : State) : kept (wurCopyStarts b s) = kept s := (rfl)

@[simp] theorem wurCopyCut_kept (b : Nat) (s : State) : kept (wurCopyCut b s) = kept s := by
  unfold wurCopyCut
  split <;> simp

@[simp] theorem wurBlanked_kept (s : State) : kept (wurBlanked s) = kept s := by simp [wurBlanked]
@[simp] theorem wurUnblank_kept (rampDown : Nat) (s : State) : kept (wurUnblank rampDown s) = kept s := (rfl)

@[simp] theorem wurCopySent_kept (b : Nat) (s : State) : kept (wurCopySent b s) = kept s := by
  unfold wurCopySent
  split <;> simp

@[simp] theorem wurGetCountersRun_kept (c : Cmd) (s : State) : kept (((wurGetCountersRun) c s).after s) = kept s := (rfl)

/-! Mac -/

@[simp] theorem sendBeacon_kept (b : Nat) (s : State) : kept (sendBeacon b s) = kept s := (rfl)
@[simp] theorem bssWrite_kept (p : List Byte) (s : State) : kept (bssWrite p s) = kept s := (rfl)

@[simp] theorem applyNext_kept (b : Nat) (s : State) : kept (applyNext b s) = kept s := by
  unfold applyNext
  dsimp only
  split <;> split <;> simp

@[simp] theorem allNext_kept (s : State) : kept (allNext s) = kept s := by simp [allNext]

@[simp] theorem beaconDue_kept (b : Nat) (s : State) : kept (beaconDue b s) = kept s := by
  unfold beaconDue
  dsimp only
  rw [withBss_kept, foldl_kept fun t i => withBss_kept i _ t]
  simp

@[simp] theorem tbtt_kept (b : Nat) (s0 : State) : kept (tbtt b s0) = kept s0 := by simp [tbtt]

@[simp] theorem bcnDeferred_kept (r : Nat) (s : State) : kept (bcnDeferred r s) = kept s := by
  unfold bcnDeferred
  split <;> simp

@[simp] theorem setBssRun_kept (c : Cmd) (s : State) : kept ((setBssRun c s).after s) = kept s := by simp [setBssRun]
@[simp] theorem setBeaconRun_kept (c : Cmd) (s : State) : kept ((setBeaconRun c s).after s) = kept s := by simp [setBeaconRun]
@[simp] theorem macSetEdcaRun_kept (c : Cmd) (s : State) : kept (((macSetEdcaRun) c s).after s) = kept s := by simp [macSetEdcaRun]
@[simp] theorem macSetCcaRun_kept (c : Cmd) (s : State) : kept (((macSetCcaRun) c s).after s) = kept s := (rfl)
@[simp] theorem clipBuffers_kept (sta max : Nat) (s : State) : kept (clipBuffers sta max s) = kept s := by simp [clipBuffers]
@[simp] theorem setBaPolicy_kept (p : List Byte) (s : State) : kept (setBaPolicy p s) = kept s := by simp [setBaPolicy]

@[simp] theorem macSetBaPolicyRun_kept (c : Cmd) (s : State) : kept (((macSetBaPolicyRun) c s).after s) = kept s :=
  by simp [macSetBaPolicyRun]

@[simp] theorem setMldRun_kept (c : Cmd) (s : State) : kept ((setMldRun c s).after s) = kept s := by simp [setMldRun]
@[simp] theorem twtWrite_kept (p : List Byte) (s : State) : kept (twtWrite p s) = kept s := (rfl)
@[simp] theorem setTwtRun_kept (c : Cmd) (s : State) : kept ((setTwtRun c s).after s) = kept s := by simp [setTwtRun]
@[simp] theorem setUplinkRun_kept (c : Cmd) (s : State) : kept ((setUplinkRun c s).after s) = kept s := by simp [setUplinkRun]

@[simp] theorem dropOverTries_kept (r : Nat) (s : State) : kept (dropOverTries r s) = kept s := by
  refine foldl_kept (fun _ _ => ?_) _ _
  split <;> simp

@[simp] theorem macSetRetryRun_kept (c : Cmd) (s : State) : kept (((macSetRetryRun) c s).after s) = kept s := by simp [macSetRetryRun]
@[simp] theorem macGetCountersRun_kept (c : Cmd) (s : State) : kept (((macGetCountersRun) c s).after s) = kept s := (rfl)
@[simp] theorem macGetStaRun_kept (c : Cmd) (s : State) : kept (((macGetStaRun) c s).after s) = kept s := (rfl)

@[simp] theorem addba_kept (q dialog size ssn : Nat) (s : State) : kept (addba q dialog size ssn s) = kept s := by
  unfold addba
  dsimp only
  split <;> simp

@[simp] theorem twtSetup_kept (n dialog flow interval len target : Nat) (restricted : Bool) (s : State) :
    kept (twtSetup n dialog flow interval len target restricted s) = kept s := by
  unfold twtSetup
  split <;> simp

@[simp] theorem twtSpStart_kept (q : Nat) (s : State) : kept (twtSpStart q s) = kept s := by
  unfold twtSpStart
  split <;> simp

@[simp] theorem dropUplink_kept (r n : Nat) (s : State) : kept (dropUplink r n s) = kept s := by simp [dropUplink]

@[simp] theorem uplWindowEnd_kept (r : Nat) (s : State) : kept (uplWindowEnd r s) = kept s := by
  simp only [uplWindowEnd]
  repeat' split
  all_goals simp

/-! Precoder -/

@[simp] theorem withPrecoders_kept (r ahead : Nat) (f : Furrow) (nulls : List (Nat × Csi)) (s : State) :
    kept (withPrecoders r ahead f nulls s).2 = kept s := by
  unfold withPrecoders
  dsimp only
  split <;> simp

/-! SecBase -/

@[simp] theorem withSec_kept (f : Sec → Sec) (s : State) : kept (withSec f s) = kept s := (rfl)
@[simp] theorem withSlot_kept (k : Nat) (f : KeySlot → KeySlot) (s : State) : kept (withSlot k f s) = kept s := (rfl)
@[simp] theorem secCount_kept (i k : Nat) (s : State) : kept (secCount i k s) = kept s := (rfl)
@[simp] theorem holdPorts_kept (k : Nat) (s : State) : kept (holdPorts k s) = kept s := (rfl)
@[simp] theorem holdTargets_kept (k : Nat) (s : State) : kept (holdTargets k s) = kept s := (rfl)

@[simp] theorem pnCheck_kept (k : Nat) (s : State) : kept (pnCheck k s) = kept s := by
  unfold pnCheck
  split <;> simp

@[simp] theorem takePn_kept (k : Nat) (s : State) : kept (takePn k s).2 = kept s := by
  simp only [takePn]
  repeat' split
  all_goals simp

theorem takePn_eq_kept {k : Nat} {s t : State} {o : Option Nat} (h : takePn k s = (o, t)) : kept t = kept s := by
  rw [← takePn_kept k s, h]

@[simp] theorem sealAir_kept (f : Frame) (s : State) : kept (sealAir f s) = kept s := by simp [sealAir]
@[simp] theorem sealNewest_kept (n : Nat) (s : State) : kept (sealNewest n s) = kept s := by simp [sealNewest]

/-! Planner -/

theorem numberFrame_kept {r n tid : Nat} {f : Frame} {s : State} {p : Frame × State} (h : numberFrame r n tid f s = some p) :
    kept p.2 = kept s := by
  unfold numberFrame at h
  dsimp only at h
  split at h
  · split at h
    · cases h
    · next ht =>
      cases h
      rw [withSec_kept, takePn_eq_kept ht]
      split <;> rfl
  · cases h
    split <;> rfl

@[simp] theorem claimQueue_kept (r n tid fuel room left : Nat) (acc : List (Nat × Frame)) (s : State) :
    kept (claimQueue r n tid fuel room left acc s).2.2.2 = kept s := by
  induction fuel generalizing room left acc s with
  | zero => rfl
  | succ k ih =>
    rw [claimQueue]
    split
    · rfl
    · split
      · rfl
      · extract_lets
        split
        · rfl
        · split
          · rfl
          · next h => rw [ih, setTidQueue_kept, numberFrame_kept h]

@[simp] theorem claimSta_kept (r n : Nat) (tids : List Nat) (room left : Nat) (s : State) : kept (claimSta r n tids room left s).2 = kept s :=
  List.foldlRecOn (motive := fun (q : List (Nat × Frame) × Nat × Nat × State) => kept q.2.2.2 = kept s) tids _ rfl
    fun _ hq _ _ => (claimQueue_kept _ _ _ _ _ _ _ _).trans hq

@[simp] theorem claimUsers_kept (r pa nsym : Nat) (us : List FUser) (s : State) : kept (claimUsers r pa nsym us s).2 = kept s := by
  refine foldl_snd_kept (fun p u => ?_) us ([], s)
  split <;> simp

@[simp] theorem buildSu_kept (r pa el td bw : Nat) (o : Offer) (tids : List Nat) (s : State) :
    kept (buildSu r pa el td bw o tids s).2.2 = kept s := claimSta_kept _ _ _ _ _ _

@[simp] theorem addDownlink_kept (r pa b nulls ahead : Nat) (room : Option Nat) (os : List Offer) (f : Furrow) (s : State) :
    kept (addDownlink r pa b nulls ahead room os f s).2 = kept s := by
  unfold addDownlink
  extract_lets dl
  generalize dl = dl
  cases dl with
  | nil => rfl
  | cons o os =>
    dsimp only
    split
    · split
      · simp
      · rfl
    · split
      · rfl
      · exact claimUsers_kept _ _ _ _ _

@[simp] theorem addElements_kept (r pa b nulls ahead : Nat) (limit : Option Nat) (rk : List Offer) (f : Furrow) (s : State) :
    kept (addElements r pa b nulls ahead limit rk f s).2 = kept s := by
  simp only [addElements]
  repeat' split
  all_goals simp

theorem numberGroup_kept {r : Nat} {f : Frame} {s : State} {p : Frame × State} (h : numberGroup r f s = some p) : kept p.2 = kept s := by
  unfold numberGroup at h
  split at h
  · split at h
    · next ht =>
      cases h
      rw [withSec_kept, takePn_eq_kept ht]
    · cases h
  · cases h
    rfl

@[simp] theorem claimGroup_kept (r rate td q fuel b : Nat) (acc : List (Nat × Frame)) (s : State) :
    kept (claimGroup r rate td q fuel b acc s).2.2 = kept s := by
  induction fuel generalizing b acc s with
  | zero => rfl
  | succ k ih =>
    unfold claimGroup
    split
    · rfl
    · split
      · rfl
      · split
        · rfl
        · next h => rw [ih, setGroupQueue_kept, numberGroup_kept h]

@[simp] theorem buildGroup_kept (r q : Nat) (s : State) : kept (buildGroup r q s).2 = kept s := claimGroup_kept _ _ _ _ _ _ _ _

@[simp] theorem countPrecoders_kept (r ahead : Nat) (f : Furrow) (pit : Option Pitch) (s : State) :
    kept (countPrecoders r ahead f pit s).2 = kept s := by
  unfold countPrecoders
  split <;> simp

@[simp] theorem rebase_kept (r : Nat) (s : State) : kept (rebase r s) = kept s := by
  unfold rebase
  dsimp only
  split <;> simp

@[simp] theorem llShareCheck_kept (r : Nat) (s : State) : kept (llShareCheck r s) = kept s := by simp [llShareCheck]

@[simp] theorem furrowBuild_kept (r : Nat) (coord : Bool) (s0 : State) : kept (furrowBuild r coord s0) = kept s0 := by
  simp only [furrowBuild]
  repeat' split
  all_goals simp

@[simp] theorem furrowStart_kept (r : Nat) (coord : Bool) (mism fbMism : Nat) (s : State) :
    kept (furrowStart r coord mism fbMism s) = kept s := by simp [furrowStart]

@[simp] theorem furrowReady_kept (r ns : Nat) (s : State) : kept (furrowReady r ns s) = kept s := by
  unfold furrowReady
  dsimp only
  split <;> simp

/-! TxPath -/

@[simp] theorem dropClaimed_kept (r n : Nat) (p : Nat × Frame) (s : State) : kept (dropClaimed r n p s) = kept s := by simp [dropClaimed]
@[simp] theorem purgeFurrow_kept (r : Nat) (f : Furrow) (s : State) : kept (purgeFurrow r f s).2 = kept s := by simp [purgeFurrow]
@[simp] theorem noteUplink_kept (code : Nat) (u : FUser) (s : State) : kept (noteUplink code u s) = kept s := (rfl)

@[simp] theorem askServed_kept (n : Nat) (s : State) : kept (askServed n s) = kept s := by
  unfold askServed
  split <;> simp

@[simp] theorem startFurrow_kept (r a limit : Nat) (f : Furrow) (s : State) : kept (startFurrow r a limit f s) = kept s := by 
  unfold startFurrow
  extract_lets p code dl ul snd shared count s1 s2 s3 s3' s4 g' g s5 s6
  have h1 : kept s1 = kept s := by simp [s1, p]
  have h3 : kept s3 = kept s := by simp [s3, s2, h1]
  have h3' : kept s3' = kept s := (foldl_kept (fun t u => withSta_kept _ _ t) _ _).trans h3
  have h4 : kept s4 = kept s := (foldl_kept (fun t u => by split <;> simp) _ _).trans h3'
  simp [s6, s5, h4]

@[simp] theorem txopEmpty_kept (r a : Nat) (s : State) : kept (txopEmpty r a s) = kept s := (rfl)

@[simp] theorem sendFallback_kept (r a bw reason : Nat) (s : State) : kept (sendFallback r a bw reason s) = kept s := by
  unfold sendFallback
  split <;> simp

@[simp] theorem leaveSp_kept (r : Nat) (f : Furrow) (s : State) : kept (leaveSp r f s).2 = kept s := by simp [leaveSp]

@[simp] theorem txopWin_kept (r a idle : Nat) (s : State) : kept (txopWin r a idle s) = kept s := by
  simp only [txopWin]
  repeat' split
  all_goals simp

@[simp] theorem slotOf_kept (r : Nat) (os : List Offer) (gs : List Nat) (s : State) (a : Nat) : kept (slotOf r os gs s a) = kept s := by
  unfold slotOf
  split <;> simp

@[simp] theorem internalLoss_kept (r : Nat) (s : State) (a : Nat) : kept (internalLoss r s a) = kept s := by simp [internalLoss]
@[simp] theorem countWithheld_kept (r : Nat) (s : State) : kept (countWithheld r s) = kept s := by simp [countWithheld]

@[simp] theorem backoffSlot_kept (r : Nat) (s : State) : kept (backoffSlot r s) = kept s := by
  simp only [backoffSlot]
  repeat' split
  all_goals simp

@[simp] theorem furrowLateWindow_kept (r : Nat) (s : State) : kept (furrowLateWindow r s) = kept s := by simp [furrowLateWindow]

theorem numberLaunch_kept {r : Nat} {f : Frame} {s : State} {p : Frame × State} (h : numberLaunch r f s = some p) : kept p.2 = kept s := by
  obtain ⟨q, hq, rfl⟩ := Option.map_eq_some_iff.mp h
  rw [sealNewest_kept]
  split at hq
  · exact numberFrame_kept hq
  · exact numberGroup_kept hq

theorem nextPpdu_kept {r : Nat} {s : State} {p : TxCur × State} (h : nextPpdu r s = some p) : kept p.2 = kept s := by
  simp only [nextPpdu] at h
  split at h
  · cases h; rfl
  · split at h
    · cases h
    · split at h
      · split at h
        · obtain ⟨q, hq, rfl⟩ := Option.map_eq_some_iff.mp h
          exact numberLaunch_kept hq
        · cases h
      · obtain ⟨q, -, rfl⟩ := Option.map_eq_some_iff.mp h
        rfl

@[simp] theorem takePpdu_kept (r : Nat) (s : State) : kept (takePpdu r s) = kept s := (rfl)

@[simp] theorem txFailed_kept (r : Nat) (st : Status) (x : TxCur) (s : State) : kept (txFailed r st x s) = kept s := by
  unfold txFailed
  split <;> simp

@[simp] theorem countTx_kept (r : Nat) (x : TxCur) (s : State) : kept (countTx r x s) = kept s := by simp [countTx]

@[simp] theorem beginPpdu_kept (r : Nat) (staged blanked : Bool) (x : TxCur) (s : State) : kept (beginPpdu r staged blanked x s) = kept s :=
  by simp [beginPpdu]

@[simp] theorem stretch_kept (r add : Nat) (s : State) : kept (stretch r add s) = kept s := (rfl)

@[simp] theorem launchNow_kept (r : Nat) (fifo staged blanked : Bool) (x0 : TxCur) (s : State) :
    kept (launchNow r fifo staged blanked x0 s) = kept s := by
  simp only [launchNow]
  repeat' split
  all_goals simp

@[simp] theorem txPpduStart_kept (r : Nat) (fifo staged blanked : Bool) (s0 : State) : kept (txPpduStart r fifo staged blanked s0) = kept s0 := by
  unfold txPpduStart
  split
  · rfl
  · split
    · rfl
    · next h =>
      have hnext := nextPpdu_kept h
      split
      · split <;> simp [hnext]
      · simp [hnext]

@[simp] theorem txUnderrun_kept (r : Nat) (s : State) : kept (txUnderrun r s) = kept s := by
  unfold txUnderrun
  split <;> simp

@[simp] theorem settle_kept (r : Nat) (s : State) : kept (settle r s) = kept s := by simp [settle]
@[simp] theorem applyDoze_kept (r : Nat) (s : State) : kept (applyDoze r s) = kept s := by simp [applyDoze]
@[simp] theorem responseSent_kept (r : Nat) (s : State) : kept (responseSent r s) = kept s := by simp [responseSent]

@[simp] theorem ndpSent_kept (r : Nat) (x : TxCur) (s : State) : kept (ndpSent r x s) = kept s := by
  unfold ndpSent
  split <;> simp

@[simp] theorem txCompleted_kept (r : Nat) (x : TxCur) (s : State) : kept (txCompleted r x s) = kept s := by
  unfold txCompleted
  extract_lets t
  have ht : kept t = kept s := ndpSent_kept r x s
  split
  · simp [ht]
  · split
    · simp [ht]
    · simp [ht]
    · exact (foldl_kept (fun u i => withBss_kept _ _ u) _ _).trans ht
    all_goals simp [ht]

@[simp] theorem measureTx_kept (r : Nat) (x : TxCur) (rl : List Nat) (s : State) : kept (measureTx r x rl s) = kept s := by simp [measureTx]
@[simp] theorem turnToRx_kept (r : Nat) (staged : Bool) (s : State) : kept (turnToRx r staged s) = kept s := by simp [turnToRx]
@[simp] theorem airEnds_kept (r rampDown shape : Nat) (s : State) : kept (airEnds r rampDown shape s) = kept s := by simp [airEnds]

@[simp] theorem txPpduEnd_kept (r : Nat) (staged : Bool) (rl : List Nat) (s : State) : kept (txPpduEnd r staged rl s) = kept s := by
  unfold txPpduEnd
  dsimp only
  split <;> simp

@[simp] theorem dropAir_kept (r : Nat) (s : State) : kept (dropAir r s) = kept s := by
  unfold dropAir
  dsimp only
  split <;> split <;> simp

@[simp] theorem radioOffNow_kept (r : Nat) (s : State) : kept (radioOffNow r s) = kept s := by
  simp only [radioOffNow]
  repeat' split
  all_goals simp

@[simp] theorem responseTimeout_kept (r : Nat) (s : State) : kept (responseTimeout r s) = kept s := by simp [responseTimeout]

@[simp] theorem ccaChange_kept (r sub : Nat) (power : Int) (ppdu : Bool) (s : State) : kept (ccaChange r sub power ppdu s) = kept s :=
  by simp [ccaChange]

@[simp] theorem navRtsTimeout_kept (r : Nat) (s : State) : kept (navRtsTimeout r s) = kept s := (rfl)
@[simp] theorem navExpiry_kept (r : Nat) (intra : Bool) (s : State) : kept (navExpiry r intra s) = kept s := (rfl)

@[simp] theorem lifetimeExpiry_kept (q : Nat) (s : State) : kept (lifetimeExpiry q s) = kept s := by
  unfold lifetimeExpiry
  split
  · extract_lets
    split
    · rfl
    · split
      · rfl
      · split <;> simp
  · extract_lets
    split
    · rfl
    · extract_lets
      split
      · split <;> exact withRs_kept _ _ _
      · split
        · rfl
        · split
          · rfl
          · extract_lets
            split <;> simp +zetaDelta

@[simp] theorem llUrgent_kept (uplink : Bool) (q : Nat) (s : State) : kept (llUrgent uplink q s) = kept s := by
  simp only [llUrgent]
  repeat' split
  all_goals simp

@[simp] theorem llDeadline_kept (uplink : Bool) (q : Nat) (s : State) : kept (llDeadline uplink q s) = kept s := by
  unfold llDeadline
  split <;> simp

/-! RxPath -/

@[simp] theorem withRouter_kept (f : Router → Router) (s : State) : kept (withRouter f s) = kept s := (rfl)
@[simp] theorem rtCount_kept (i k : Nat) (s : State) : kept (rtCount i k s) = kept s := (rfl)
@[simp] theorem toRouter_kept (f : Frame) (s : State) : kept (toRouter f s) = kept s := (rfl)
@[simp] theorem toRing_kept (n : Nat) (f : Frame) (s : State) : kept (toRing n f s) = kept s := (rfl)

@[simp] theorem sigStep_kept (r : Nat) (g : SigInfo) (s : State) : kept (sigStep r g s) = kept s := by
  unfold sigStep
  dsimp only
  split <;> simp

@[simp] theorem deliverPlain_kept (f : Frame) (s : State) : kept (deliverPlain f s) = kept s := by
  unfold deliverPlain
  split <;> simp

@[simp] theorem passOn_kept {r : Nat} {dest : Frame → State → State} (h : ∀ f t, kept (dest f t) = kept t) (f : Frame) (s : State) :
    kept (passOn r dest f s) = kept s := by
  unfold passOn
  dsimp only
  split <;> simp [h]

@[simp] theorem passUp_kept (r : Nat) (f : Frame) (s : State) : kept (passUp r f s) = kept s := by simp [passUp]

@[simp] theorem advanceWin_kept (r q k : Nat) (s : State) : kept (advanceWin r q k s) = kept s := by
  unfold advanceWin
  split <;> simp

@[simp] theorem delba_kept (r q : Nat) (initiator : Bool) (s : State) : kept (delba r q initiator s) = kept s := by simp [delba]
@[simp] theorem addbaGranted_kept (q status size : Nat) (s : State) : kept (addbaGranted q status size s) = kept s := by simp [addbaGranted]

theorem builminAction_kept {f : Frame} {s t : State} (h : builminAction f s = some t) : kept t = kept s := by
  simp only [builminAction] at h
  split at h
  · cases h
  · split at h <;> cases h <;> simp

@[simp] theorem deliverClear_kept (f : Frame) (s : State) : kept (deliverClear f s) = kept s := by
  unfold deliverClear
  split
  · next h => exact builminAction_kept h
  · simp

@[simp] theorem passMgmt_kept (r : Nat) (f : Frame) (s : State) : kept (passMgmt r f s) = kept s := by simp [passMgmt]

@[simp] theorem releaseRun_kept (r q : Nat) (s : State) : kept (releaseRun r q s) = kept s := by
  unfold releaseRun
  split <;> simp

@[simp] theorem acceptSn_kept (r q : Nat) (f : Frame) (sn : Nat) (s : State) : kept (acceptSn r q f sn s) = kept s := by simp [acceptSn]
@[simp] theorem score_kept (r n tid sn : Nat) (s : State) : kept (score r n tid sn s) = kept s := (rfl)

@[simp] theorem placeMpdu_kept (r n tid : Nat) (b : BaSess) (f : Frame) (sn : Nat) (s : State) :
    kept (placeMpdu r n tid b f sn s) = kept s := by simp [placeMpdu]

@[simp] theorem noteSeq_kept (k : Nat) (m : Mpdu) (s : State) : kept (noteSeq k m s) = kept s := (rfl)

@[simp] theorem defragStep_kept (r q : Nat) (m : Mpdu) (f : Frame) (s : State) : kept (defragStep r q m f s).2 = kept s := by
  simp only [defragStep]
  repeat' split
  all_goals simp

@[simp] theorem noteDemand_kept (n : Nat) (m : Mpdu) (s : State) : kept (noteDemand n m s) = kept s := by simp [noteDemand]
@[simp] theorem askDelivery_kept (n acs : Nat) (one : Bool) (s : State) : kept (askDelivery n acs one s) = kept s := by simp [askDelivery]

@[simp] theorem notePower_kept (r n : Nat) (m : Mpdu) (s : State) : kept (notePower r n m s) = kept s := by
  unfold notePower
  split <;> simp

@[simp] theorem psPoll_kept (r n : Nat) (s : State) : kept (psPoll r n s) = kept s := by
  unfold psPoll
  split <;> simp

@[simp] theorem navUpdate_kept (r : Nat) (m : Mpdu) (s : State) : kept (navUpdate r m s) = kept s := by simp [navUpdate]

@[simp] theorem askResponse_kept (r : Nat) (n : Option Nat) (m : Mpdu) (s : State) : kept (askResponse r n m s) = kept s :=
  by simp [askResponse]

@[simp] theorem rxMgmt_kept (r bss : Nat) (from_ : Option Nat) (unicast : Bool) (x : RxCur) (m : Mpdu) (s : State) :
    kept (rxMgmt r bss from_ unicast x m s) = kept s := by
  unfold rxMgmt
  split <;> simp

@[simp] theorem rxData_kept (r bss : Nat) (from_ : Option Nat) (x : RxCur) (m : Mpdu) (s : State) :
    kept (rxData r bss from_ x m s) = kept s := by
  simp only [rxData]
  repeat' split
  all_goals simp

@[simp] theorem rxUpstreamBeacon_kept (r : Nat) (u : Uplink) (p : RxCur) (m : Mpdu) (s : State) :
    kept (rxUpstreamBeacon r u p m s) = kept s := by simp [rxUpstreamBeacon]

@[simp] theorem noteAcks_kept (r : Nat) (from_ : Option Nat) (m : Mpdu) (s : State) : kept (noteAcks r from_ m s) = kept s := by
  unfold noteAcks
  dsimp only
  split <;> simp

@[simp] theorem rxForUs_kept (r bss : Nat) (from_ : Option Nat) (x : RxCur) (m : Mpdu) (s : State) :
    kept (rxForUs r bss from_ x m s) = kept s := by
  simp only [rxForUs]
  repeat' split
  all_goals simp

@[simp] theorem noteContact_kept (r n : Nat) (x : RxCur) (s : State) : kept (noteContact r n x s) = kept s := (rfl)

@[simp] theorem hearTrigger_kept (r bss : Nat) (from_ : Option Nat) (x : RxCur) (m : Mpdu) (s : State) :
    kept (hearTrigger r bss from_ x m s) = kept s := by simp [hearTrigger]

@[simp] theorem mpduGood_kept (r : Nat) (x : RxCur) (s : State) (m : Mpdu) : kept (mpduGood r x s m) = kept s := by
  simp only [mpduGood]
  repeat' split
  all_goals simp

@[simp] theorem rxOverflow_kept (r : Nat) (x : RxCur) (s : State) : kept (rxOverflow r x s) = kept s := by simp [rxOverflow]

@[simp] theorem responseGot_kept (r : Nat) (x : TxCur) (s : State) : kept (responseGot r x s) = kept s := by
  simp only [responseGot]
  repeat' split
  all_goals simp

@[simp] theorem judgePpdu_kept (r : Nat) (x : RxCur) (s : State) : kept (judgePpdu r x s) = kept s := by
  unfold judgePpdu
  dsimp only
  split <;> split <;> simp

@[simp] theorem closePpdu_kept (r : Nat) (x : RxCur) (s : State) : kept (closePpdu r x s) = kept s := by simp [closePpdu]
@[simp] theorem noteEifs_kept (r : Nat) (x : RxCur) (s : State) : kept (noteEifs r x s) = kept s := (rfl)

@[simp] theorem lateResult_kept (r : Nat) (x : RxCur) (m : Mpdu) (s : State) : kept (lateResult r x m s) = kept s := by
  unfold lateResult
  split <;> simp

@[simp] theorem mpduRx_kept (r : Nat) (m : Mpdu) (s : State) : kept (mpduRx r m s) = kept s := by
  simp only [mpduRx]
  repeat' split
  all_goals simp

@[simp] theorem restartDecision_kept (r : Nat) (power : Int) (levels : List Int) (us : List UserMeas) (s : State) :
    kept (restartDecision r power levels us s) = kept s := by
  unfold restartDecision
  split <;> simp

@[simp] theorem defragTimeout_kept (q : Nat) (s : State) : kept (defragTimeout q s) = kept s := by
  unfold defragTimeout
  split <;> simp

@[simp] theorem reorderTimeout_kept (q : Nat) (s : State) : kept (reorderTimeout q s) = kept s := by
  simp only [reorderTimeout]
  repeat' split
  all_goals simp

@[simp] theorem filterEvm_kept (r femGain : Nat) (s : State) (um : UserSig × UserMeas) : kept (filterEvm r femGain s um) = kept s := by
  unfold filterEvm
  split <;> simp

@[simp] theorem classOf_kept (new old : List Byte) (dt : Nat) (s : State) : kept (classOf new old dt s).2 = kept s := by
  unfold classOf
  dsimp only
  split <;> simp

@[simp] theorem makeCsi_kept (r kind : Nat) (c : CsiIn) (old : Option Csi) (capS capNs : Nat) (s : State) :
    kept (makeCsi r kind c old capS capNs s).2 = kept s := by
  unfold makeCsi
  split <;> simp

@[simp] theorem uplinkCsi_kept (r : Nat) (x : RxCur) (o : List Byte × UlObs) (s : State) : kept (uplinkCsi r x o s) = kept s := by
  simp only [uplinkCsi]
  repeat' split
  all_goals simp

@[simp] theorem trigNext_kept (r : Nat) (s : State) : kept (trigNext r s) = kept s := (rfl)

@[simp] theorem rxPpduEnd_kept (r : Nat) (p : PpduEnd) (s : State) : kept (rxPpduEnd r p s) = kept s := by
  unfold rxPpduEnd
  split <;> simp

@[simp] theorem responderComplete_kept (r : Nat) (s : State) : kept (responderComplete r s) = kept s := (rfl)

@[simp] theorem responsePpdu_kept (r : Nat) (stands : KMap (Nat × List Nat)) (s : State) : kept (responsePpdu r stands s).2 = kept s := by
  unfold responsePpdu
  dsimp only
  split
  · split <;> simp
  · split <;> rfl

@[simp] theorem raisePartial_kept (r : Nat) (s : State) : kept (raisePartial r s) = kept s := by simp [raisePartial]

@[simp] theorem commitPoint_kept (r : Nat) (s : State) : kept (commitPoint r s) = kept s := by
  simp only [commitPoint]
  repeat' split
  all_goals simp

/-! SchedCmd -/

@[simp] theorem schedSetAcWeightsRun_kept (c : Cmd) (s : State) : kept (((schedSetAcWeightsRun) c s).after s) = kept s := (rfl)

@[simp] theorem schedSetBssShareRun_kept (c : Cmd) (s : State) : kept ((schedSetBssShareRun c s).after s) = kept s := by
  unfold schedSetBssShareRun
  rw [after_okay, foldl_kept fun t i => withBss_kept _ _ t]

@[simp] theorem schedSetStaRun_kept (c : Cmd) (s : State) : kept (((schedSetStaRun) c s).after s) = kept s := by simp [schedSetStaRun]
@[simp] theorem schedSetLimits_kept (p : List Byte) (s : State) : kept (schedSetLimits p s) = kept s := by simp [schedSetLimits]

@[simp] theorem schedSetLimitsRun_kept (c : Cmd) (s : State) : kept (((schedSetLimitsRun) c s).after s) = kept s :=
  by simp [schedSetLimitsRun]

@[simp] theorem schedGetFurrowRun_kept (c : Cmd) (s : State) : kept (((schedGetFurrowRun) c s).after s) = kept s := (rfl)

@[simp] theorem schedGetStaRun_kept (c : Cmd) (s : State) : kept (((schedGetStaRun) c s).after s) = kept s := by
  unfold schedGetStaRun
  split <;> simp

@[simp] theorem flushQueue_kept (p : List Byte) (s : State) : kept (flushQueue p s).2 = kept s := by
  unfold flushQueue
  split
  · simp
  · rw [leaveFurrows_kept]
    refine foldl_snd_kept (fun a t => ?_) _ (0, s)
    split <;> simp

@[simp] theorem schedFlushQueueRun_kept (c : Cmd) (s : State) : kept (((schedFlushQueueRun) c s).after s) = kept s :=
  by simp [schedFlushQueueRun]

@[simp] theorem schedGetCountersRun_kept (c : Cmd) (s : State) : kept (((schedGetCountersRun) c s).after s) = kept s := (rfl)

/-! Bf -/

@[simp] theorem soundingFeedback_kept (r n : Nat) (fb : Option CsiIn) (s : State) : kept (soundingFeedback r n fb s) = kept s := by
  simp only [soundingFeedback]
  repeat' split
  all_goals simp

@[simp] theorem csiExpired_kept (r kind i : Nat) (s : State) : kept (csiExpired r kind i s) = kept s := by
  unfold csiExpired
  split <;> split <;> simp

@[simp] theorem recipRequest_kept (r : Nat) (s : State) : kept (recipRequest r s) = kept s := by
  unfold recipRequest
  dsimp only
  split <;> simp

@[simp] theorem recipRun_kept (r : Nat) (s : State) : kept (recipRun r s) = kept s := by simp [recipRun]

@[simp] theorem recipEnd_kept (r : Nat) (loops : List (List Loopback)) (s : State) : kept (recipEnd r loops s) = kept s :=
  by simp [recipEnd]

@[simp] theorem groupRebuild_kept (r b : Nat) (s : State) : kept (groupRebuild r b s) = kept s := by simp [groupRebuild]
@[simp] theorem bfSetSoundingRun_kept (c : Cmd) (s : State) : kept (((bfSetSoundingRun) c s).after s) = kept s := (rfl)
@[simp] theorem bfSetAgeingRun_kept (c : Cmd) (s : State) : kept (((bfSetAgeingRun) c s).after s) = kept s := (rfl)
@[simp] theorem bfSetPrecoderRun_kept (c : Cmd) (s : State) : kept (((bfSetPrecoderRun) c s).after s) = kept s := (rfl)
@[simp] theorem bfRecalRun_kept (c : Cmd) (s : State) : kept ((bfRecalRun c s).after s) = kept s := by simp [bfRecalRun]
@[simp] theorem setFemRecip_kept (p : List Byte) (s : State) : kept (setFemRecip p s) = kept s := by simp [setFemRecip]
@[simp] theorem bfSetFemRecipRun_kept (c : Cmd) (s : State) : kept (((bfSetFemRecipRun) c s).after s) = kept s := by simp [bfSetFemRecipRun]

@[simp] theorem bfGetCsiRun_kept (c : Cmd) (s : State) : kept (((bfGetCsiRun) c s).after s) = kept s := by
  unfold bfGetCsiRun
  split <;> simp

@[simp] theorem bfGetGroupsRun_kept (c : Cmd) (s : State) : kept (((bfGetGroupsRun) c s).after s) = kept s := (rfl)
@[simp] theorem bfGetStatusRun_kept (c : Cmd) (s : State) : kept (((bfGetStatusRun) c s).after s) = kept s := (rfl)
@[simp] theorem bfGetCountersRun_kept (c : Cmd) (s : State) : kept (((bfGetCountersRun) c s).after s) = kept s := (rfl)

/-! TimeBase -/

@[simp] theorem withTime_kept (f : TimeSt → TimeSt) (s : State) : kept (withTime f s) = kept s := (rfl)
@[simp] theorem withTb_kept (n : Nat) (f : Tb → Tb) (s : State) : kept (withTb n f s) = kept s := (rfl)
@[simp] theorem timeCount_kept (i k : Nat) (s : State) : kept (timeCount i k s) = kept s := (rfl)
@[simp] theorem withPort_kept (p : Nat) (f : Port → Port) (s : State) : kept (withPort p f s) = kept s := (rfl)
@[simp] theorem tickBut_kept (skip : Nat) (s : State) : kept (tickBut skip s) = kept s := by simp [tickBut]
@[simp] theorem tick_kept (s : State) : kept (tick s) = kept s := by simp [tick]
@[simp] theorem commitTick_kept (n : Nat) (f : Tb → Tb) (s : State) : kept (commitTick n f s) = kept s := by simp [commitTick]
@[simp] theorem setHeld_kept (unit : Nat) (h : Bool) (s : State) : kept (setHeld unit h s) = kept s := by simp [setHeld]
@[simp] theorem popLaunch_kept (unit : Nat) (s : State) : kept (popLaunch unit s) = kept s := by simp [popLaunch]
@[simp] theorem launchLate_kept (unit : Nat) (f : Frame) (s : State) : kept (launchLate unit f s) = kept s := by simp [launchLate]

@[simp] theorem launchJudge_kept (unit : Nat) (s : State) : kept (launchJudge unit s) = kept s := by
  unfold launchJudge
  split <;> simp

@[simp] theorem launchInstant_kept (unit : Nat) (s : State) : kept (launchInstant unit s) = kept s := by
  unfold launchInstant
  split
  · rfl
  · split
    · rfl
    · split
      · split <;> simp
      · extract_lets
        split
        · simp
        · split
          · simp
          · split
            · simp
            · next h => simp [numberLaunch_kept h]

@[simp] theorem rejudge_kept (n : Nat) (s : State) : kept (rejudge n s) = kept s := by
  refine foldl_kept (fun _ _ => ?_) _ _
  split <;> simp

@[simp] theorem enterFreeRun_kept (n cause : Nat) (s : State) : kept (enterFreeRun n cause s) = kept s := by simp [enterFreeRun]

@[simp] theorem applyAdj_kept (n : Nat) (s : State) : kept (applyAdj n s) = kept s := by
  unfold applyAdj
  split <;> simp

@[simp] theorem applySet_kept (n : Nat) (adj : Bool) (s : State) : kept (applySet n adj s) = kept s := by simp [applySet]
@[simp] theorem setWrite_kept (n v : Nat) (s : State) : kept (setWrite n v s) = kept s := by simp [setWrite]
@[simp] theorem adjWrite_kept (n v : Nat) (s : State) : kept (adjWrite n v s) = kept s := by simp [adjWrite]
@[simp] theorem commitInc_kept (n inc : Nat) (s : State) : kept (commitInc n inc s) = kept s := by simp [commitInc]
@[simp] theorem incWrite_kept (n v : Nat) (s : State) : kept (incWrite n v s) = kept s := by simp [incWrite]
@[simp] theorem ditherWrite_kept (n v : Nat) (s : State) : kept (ditherWrite n v s) = kept s := by simp [ditherWrite]
@[simp] theorem captureWrite_kept (v : Nat) (s : State) : kept (captureWrite v s) = kept s := by simp [captureWrite]
@[simp] theorem ppsInEdge_kept (s : State) : kept (ppsInEdge s) = kept s := by simp [ppsInEdge]
@[simp] theorem ppsOutEdge_kept (s : State) : kept (ppsOutEdge s) = kept s := by simp [ppsOutEdge]
@[simp] theorem ppsOutFall_kept (s : State) : kept (ppsOutFall s) = kept s := by simp [ppsOutFall]
@[simp] theorem roleTake_kept (p : List Byte) (s : State) : kept (roleTake p s) = kept s := by simp [roleTake]
@[simp] theorem setRoleRun_kept (c : Cmd) (s : State) : kept ((setRoleRun c s).after s) = kept s := by simp [setRoleRun]
@[simp] theorem timeSetAsymRun_kept (c : Cmd) (s : State) : kept (((timeSetAsymRun) c s).after s) = kept s := (rfl)
@[simp] theorem setTsfRun_kept (c : Cmd) (s : State) : kept ((setTsfRun c s).after s) = kept s := by simp [setTsfRun]
@[simp] theorem timeSetPpsRun_kept (c : Cmd) (s : State) : kept (((timeSetPpsRun) c s).after s) = kept s := (rfl)
@[simp] theorem timeGetStatusRun_kept (c : Cmd) (s : State) : kept (((timeGetStatusRun) c s).after s) = kept s := (rfl)
@[simp] theorem timeGetTsfRun_kept (c : Cmd) (s : State) : kept (((timeGetTsfRun) c s).after s) = kept s := (rfl)
@[simp] theorem timeGetCountersRun_kept (c : Cmd) (s : State) : kept (((timeGetCountersRun) c s).after s) = kept s := (rfl)

/-! RopeBase -/

@[simp] theorem withRope_kept (f : Rope → Rope) (s : State) : kept (withRope f s) = kept s := (rfl)
@[simp] theorem ropeCount_kept (i k : Nat) (s : State) : kept (ropeCount i k s) = kept s := (rfl)
@[simp] theorem stepTb_kept (n : Nat) (d : Int) (s : State) : kept (stepTb n d s) = kept s := by simp [stepTb]
@[simp] theorem portCount_kept (p i k : Nat) (s : State) : kept (portCount p i k s) = kept s := (rfl)
@[simp] theorem fallowSend_kept (p type target seq : Nat) (s : State) : kept (fallowSend p type target seq s) = kept s := (rfl)
@[simp] theorem stepRequest_kept (p target : Nat) (s : State) : kept (stepRequest p target s) = kept s := by simp [stepRequest]
@[simp] theorem pitchStart_kept (p : Nat) (s : State) : kept (pitchStart p s) = kept s := by simp [pitchStart]
@[simp] theorem syncPitch_kept (s : State) : kept (syncPitch s) = kept s := by simp [syncPitch]

@[simp] theorem takeFilters_kept (s : State) (p : Nat) : kept (takeFilters s p) = kept s := by
  unfold takeFilters
  split <;> simp

@[simp] theorem dropFilters_kept (s : State) (p : Nat) : kept (dropFilters s p) = kept s := (rfl)

@[simp] theorem knPort_kept (len : Nat) (s : State) (p : Nat) : kept (knPort len s p) = kept s := by
  unfold knPort
  split
  · simp
  · split
    · simp
    · split
      · simp
      · split
        · next h => simp [takePn_eq_kept h]
        · next h => simp [takePn_eq_kept h]

@[simp] theorem knSendOn_kept (ports type dst scope : Nat) (payload : List Byte) (s : State) :
    kept (knSendOn ports type dst scope payload s) = kept s := by simp [knSendOn]

@[simp] theorem knSend_kept (type dst scope : Nat) (payload : List Byte) (s : State) : kept (knSend type dst scope payload s) = kept s :=
  by simp [knSend]

@[simp] theorem knUnicast_kept (type dst : Nat) (payload : List Byte) (s : State) : kept (knUnicast type dst payload s) = kept s :=
  by simp [knUnicast]

@[simp] theorem knRope_kept (type : Nat) (payload : List Byte) (s : State) : kept (knRope type payload s) = kept s := by simp [knRope]
@[simp] theorem knPitch_kept (type : Nat) (payload : List Byte) (s : State) : kept (knPitch type payload s) = kept s := by simp [knPitch]
@[simp] theorem knKey_kept (f : KnFrame) (s : State) : kept (knKey f s) = kept s := by simp [knKey]

@[simp] theorem knCheck_kept (f : KnFrame) (open_ fresh : Bool) (s : State) : kept (knCheck f open_ fresh s).2 = kept s := by
  simp only [knCheck]
  repeat' split
  all_goals simp

theorem knRx_kept {f : KnFrame} {open_ : Bool} {run : State → State} (h : ∀ t, kept (run t) = kept t) (s : State) :
    kept (knRx f open_ run s) = kept s := by
  unfold knRx
  dsimp only
  split <;> simp [h]

@[simp] theorem publish_kept (i : Nat) (m : Member) (use : Bool) (s : State) : kept (publish i m use s) = kept s := (rfl)

@[simp] theorem setPitch_kept (reason fence i p : Nat) (forced : Bool) (s : State) :
    kept (setPitch reason fence i p forced s) = kept s := by
  unfold setPitch
  split <;> simp

@[simp] theorem nameAnchor_kept (p : Nat) (s : State) : kept (nameAnchor p s) = kept s := by
  simp only [nameAnchor]
  repeat' split
  all_goals simp

@[simp] theorem nameAnchors_kept (s : State) : kept (nameAnchors s) = kept s := by simp [nameAnchors]

@[simp] theorem joinPitch_kept (reason : Nat) (s : State) (i : Nat) : kept (joinPitch reason s i) = kept s := by
  unfold joinPitch
  dsimp only
  split <;> simp

@[simp] theorem growPitch_kept (reason p n : Nat) (s : State) : kept (growPitch reason p n s) = kept s := by
  induction n generalizing s with
  | zero => rfl
  | succ k ih =>
    unfold growPitch
    dsimp only
    split
    · rfl
    · split <;> simp [ih]

@[simp] theorem startPitch_kept (reason : Nat) (s : State) : kept (startPitch reason s) = kept s := by
  unfold startPitch
  dsimp only
  split <;> simp

@[simp] theorem pinPitches_kept (reason : Nat) (s : State) : kept (pinPitches reason s) = kept s := by
  refine foldl_kept (fun _ _ => ?_) _ _
  split <;> simp

@[simp] theorem placePitches_kept (reason : Nat) (s : State) : kept (placePitches reason s) = kept s := by simp [placePitches]

@[simp] theorem leaveCoord_kept (s0 : State) : kept (leaveCoord s0) = kept s0 := by
  refine foldl_kept (fun _ _ => ?_) _ _
  dsimp only
  repeat' split
  all_goals simp

@[simp] theorem leaveRope_kept (s : State) : kept (leaveRope s) = kept s := by
  unfold leaveRope
  dsimp only
  rw [withRope_kept, withTb_kept, foldl_kept fun t p => dropFilters_kept t p, leaveCoord_kept]

/-! Rope -/

@[simp] theorem startJoin_kept (s : State) : kept (startJoin s) = kept s := (rfl)
@[simp] theorem joinWrite_kept (h : Word) (p : List Byte) (s : State) : kept (joinWrite h p s) = kept s := (rfl)
@[simp] theorem ropeJoinRun_kept (c : Cmd) (s : State) : kept ((ropeJoinRun c s).after s) = kept s := by simp [ropeJoinRun]
@[simp] theorem joinReqNow_kept (s : State) : kept (joinReqNow s) = kept s := by simp [joinReqNow]
@[simp] theorem joinReqSend_kept (s : State) : kept (joinReqSend s) = kept s := by simp [joinReqSend]
@[simp] theorem joinReqRx_kept (f : KnFrame) (s : State) : kept (joinReqRx f s) = kept s := by simp [joinReqRx]
@[simp] theorem joinFail_kept (st : Status) (s : State) : kept (joinFail st s) = kept s := by simp [joinFail]

@[simp] theorem joinAckRx_kept (f : KnFrame) (s : State) : kept (joinAckRx f s) = kept s := by
  simp only [joinAckRx]
  repeat' split
  all_goals simp

@[simp] theorem joinConfirmRx_kept (f : KnFrame) (s : State) : kept (joinConfirmRx f s) = kept s := by
  unfold joinConfirmRx
  dsimp only
  split
  · rfl
  · split
    · rfl
    · rw [placePitches_kept, publish_kept, withRope_kept, foldl_kept fun t m => publish_kept _ _ _ t]

@[simp] theorem joinTimeout_kept (s : State) : kept (joinTimeout s) = kept s := by simp [joinTimeout]
@[simp] theorem becomeLead_kept (term : Nat) (s : State) : kept (becomeLead term s) = kept s := (rfl)
@[simp] theorem ropeForm_kept (s : State) : kept (ropeForm s) = kept s := by simp [ropeForm]
@[simp] theorem ropeLeaveRun_kept (c : Cmd) (s : State) : kept ((ropeLeaveRun c s).after s) = kept s := by simp [ropeLeaveRun]

@[simp] theorem removeMember_kept (i : Nat) (s : State) : kept (removeMember i s) = kept s := by
  unfold removeMember
  split <;> simp

@[simp] theorem leaveRx_kept (f : KnFrame) (s : State) : kept (leaveRx f s) = kept s := by simp [leaveRx]
@[simp] theorem memberTimeout_kept (i : Nat) (s : State) : kept (memberTimeout i s) = kept s := by simp [memberTimeout]
@[simp] theorem rosterReqRx_kept (f : KnFrame) (s : State) : kept (rosterReqRx f s) = kept s := by simp [rosterReqRx]
@[simp] theorem askRoster_kept (s : State) : kept (askRoster s) = kept s := by simp [askRoster]
@[simp] theorem becomeMember_kept (s : State) : kept (becomeMember s) = kept s := (rfl)

@[simp] theorem rosterRx_kept (f : KnFrame) (s : State) : kept (rosterRx f s) = kept s := by
  unfold rosterRx
  extract_lets p n entries key rx t all ro old u own v w
  split
  · rfl
  · split
    · rfl
    · have hv : kept v = kept s := by
        have hu : kept u = kept s := rfl
        simp only [v]
        split <;> simp [hu]
      have hw : kept w = kept s := by
        simp only [w, syncPitch_kept]
        split <;> simp [hv]
      split <;> simp [hw]

@[simp] theorem switchKey_kept (k : Nat) (s : State) : kept (switchKey k s) = kept s := by
  simp only [switchKey]
  repeat' split
  all_goals simp

@[simp] theorem followSource_kept (s : State) : kept (followSource s) = kept s := by simp [followSource]

@[simp] theorem belaySend_kept (s0 : State) : kept (belaySend s0) = kept s0 := by
  unfold belaySend
  extract_lets s k t0 old t u self v
  have hs : kept s = kept s0 := by simp only [s]; split <;> simp
  split
  · split
    · exact hs
    · simp [t0, hs]
  · split
    · exact hs
    · extract_lets w y
      have ht : kept t = kept s0 := by simp [t, hs]
      have hu : kept u = kept s0 := by simp only [u]; split <;> simp [ht]
      simp [y, w, v, hu]

@[simp] theorem applyChanges_kept (l : List (List Byte)) (latest : Nat) (s : State) : kept (applyChanges l latest s) = kept s :=
  by simp [applyChanges]

@[simp] theorem satisfyWindow_kept (f : KnFrame) (sameLead : Bool) (s : State) : kept (satisfyWindow f sameLead s) = kept s :=
  by simp [satisfyWindow]

@[simp] theorem followBelay_kept (f : KnFrame) (s : State) : kept (followBelay f s) = kept s := by simp [followBelay]
@[simp] theorem yieldLead_kept (s : State) : kept (yieldLead s) = kept s := by simp [yieldLead]

@[simp] theorem belayRx_kept (f : KnFrame) (s : State) : kept (belayRx f s) = kept s := by
  unfold belayRx
  split <;> simp

@[simp] theorem belayLoss_kept (s : State) : kept (belayLoss s) = kept s := by simp [belayLoss]

@[simp] theorem belayWindowClose_kept (s0 : State) : kept (belayWindowClose s0) = kept s0 := by
  unfold belayWindowClose
  extract_lets s t
  have hs : kept s = kept s0 := withRope_kept _ _
  split
  · rfl
  · split
    · rw [withRope_kept, hs]
    · have ht : kept t = kept s0 := by rw [ropeCount_kept, withRope_kept, hs]
      split <;> simp [ht]

@[simp] theorem reportSend_kept (busyB busyC : Nat) (heard : List (List Byte × Int)) (s0 : State) :
    kept (reportSend busyB busyC heard s0) = kept s0 := by simp [reportSend]

@[simp] theorem reportRx_kept (f : KnFrame) (s : State) : kept (reportRx f s) = kept s := by simp [reportRx]
@[simp] theorem clientsSend_kept (busyB busyC : Nat) (s0 : State) : kept (clientsSend busyB busyC s0) = kept s0 := by simp [clientsSend]
@[simp] theorem clientsRx_kept (f : KnFrame) (s : State) : kept (clientsRx f s) = kept s := by simp [clientsRx]

@[simp] theorem treqSend_kept (s : State) : kept (treqSend s) = kept s := by
  simp only [treqSend]
  repeat' split
  all_goals simp

@[simp] theorem trespSend_kept (onTime : Bool) (s : State) : kept (trespSend onTime s) = kept s := by
  unfold trespSend
  split <;> simp

@[simp] theorem servoInc_kept (s : State) : kept (servoInc s).2 = kept s := (rfl)

@[simp] theorem trespRx_kept (f : KnFrame) (s : State) : kept (trespRx f s) = kept s := by
  unfold trespRx
  split <;> simp

@[simp] theorem timeExchLost_kept (s : State) : kept (timeExchLost s) = kept s := by simp [timeExchLost]

@[simp] theorem timeServoStep_kept (s : State) : kept (timeServoStep s) = kept s := by
  unfold timeServoStep
  split <;> simp

@[simp] theorem ropeGetStatusRun_kept (c : Cmd) (s : State) : kept (((ropeGetStatusRun) c s).after s) = kept s := (rfl)
@[simp] theorem setRopeKeyRun_kept (c : Cmd) (s : State) : kept ((setRopeKeyRun c s).after s) = kept s := by simp [setRopeKeyRun]

@[simp] theorem ropeGetMemberRun_kept (c : Cmd) (s : State) : kept (((ropeGetMemberRun) c s).after s) = kept s := by
  simp only [ropeGetMemberRun]
  repeat' split
  all_goals simp

@[simp] theorem ropeGetPitchRun_kept (c : Cmd) (s : State) : kept (((ropeGetPitchRun) c s).after s) = kept s := by simp [ropeGetPitchRun]
@[simp] theorem ropeGetCountersRun_kept (c : Cmd) (s : State) : kept (((ropeGetCountersRun) c s).after s) = kept s := (rfl)

/-! RopeSlot -/

@[simp] theorem keepProp_kept (q : Proposal) (s : State) : kept (keepProp q s) = kept s := (rfl)

@[simp] theorem proposalSend_kept (demandB demandC : Nat) (serve : List (Fin 1024 × Radio)) (s : State) :
    kept (proposalSend demandB demandC serve s) = kept s := by
  simp only [proposalSend]
  repeat' split
  all_goals simp

@[simp] theorem proposalRx_kept (f : KnFrame) (s : State) : kept (proposalRx f s) = kept s := by
  simp only [proposalRx]
  repeat' split
  all_goals simp

@[simp] theorem proposalCutoff_kept (s : State) : kept (proposalCutoff s) = kept s := by simp [proposalCutoff]

@[simp] theorem planAccept_kept (p : List Byte) (s : State) : kept (planAccept p s) = kept s := by
  unfold planAccept
  dsimp only
  split
  · simp
  · rw [withRope_kept, foldl_kept fun t k => withRs_kept _ _ t]

@[simp] theorem planSend_kept (s : State) : kept (planSend s) = kept s := by
  unfold planSend
  split <;> simp

@[simp] theorem slotRadio_kept (n : Nat) (s : State) (r : Nat) : kept (slotRadio n s r) = kept s := by
  unfold slotRadio
  dsimp only
  split <;> simp

@[simp] theorem coordSlotStart_kept (s : State) : kept (coordSlotStart s) = kept s := by simp [coordSlotStart]

@[simp] theorem skipTxop_kept (r n : Nat) (s : State) : kept (skipTxop r n s) = kept s := by
  unfold skipTxop
  dsimp only
  split <;> simp

@[simp] theorem coordTxopStart_kept (r : Nat) (navPitch : Bool) (s0 : State) : kept (coordTxopStart r navPitch s0) = kept s0 := by
  unfold coordTxopStart
  split
  · rfl
  · split
    · rfl
    · extract_lets s e m missing ids t
      have hs : kept s = kept s0 := withRs_kept _ _ _
      split
      · simp [hs]
      · split
        · simp [hs]
        · split
          · simp [hs]
          · split
            · simp [hs]
            · split
              · simp [hs]
              · extract_lets q
                have hq : kept q.2 = kept s0 := by rw [leaveSp_kept, withRope_kept, hs]
                split <;> simp [hq]

/-! Seeder -/

@[simp] theorem decide1_kept (s : State) : kept (decide1 s) = kept s := (rfl)
@[simp] theorem held1_kept (s : State) : kept (held1 s) = kept s := (rfl)

@[simp] theorem blockLinks_kept (fence n : Nat) (tids : List Nat) (s : State) : kept (blockLinks fence n tids s) = kept s := by
  refine foldl_kept (fun u o => ?_) _ s
  rw [seedCount_kept, logEntry_kept, foldl_kept fun v t => (withSta_kept _ _ _).trans (withSeed_kept _ v)]

@[simp] theorem linkEvaluate_kept (n : Nat) (force : Option (Nat × Nat)) (s : State) : kept (linkEvaluate n force s) = kept s := by
  unfold linkEvaluate
  repeat' split
  all_goals simp

@[simp] theorem t2lOffer_kept (n : Nat) (before s : State) : kept (t2lOffer n before s) = kept s := by
  unfold t2lOffer
  split <;> simp

@[simp] theorem linkRun_kept (n : Nat) (force : Option (Nat × Nat)) (s : State) : kept (linkRun n force s) = kept s := by simp [linkRun]

@[simp] theorem chanMove_kept (r reason fence : Nat) (forced : Bool) (e : List Byte) (s : State) :
    kept (chanMove r reason fence forced e s) = kept s := by simp [chanMove]

@[simp] theorem chanForced_kept (r : Nat) (s : State) : kept (chanForced r s) = kept s := by
  simp only [chanForced]
  repeat' split
  all_goals simp

@[simp] theorem chanEvaluate_kept (r : Nat) (s : State) : kept (chanEvaluate r s) = kept s := by
  simp only [chanEvaluate]
  repeat' split
  all_goals simp

@[simp] theorem chanInitial_kept (r : Nat) (s : State) : kept (chanInitial r s) = kept s := by
  simp only [chanInitial]
  repeat' split
  all_goals simp

@[simp] theorem entryInitial_kept (k : Nat) (s : State) : kept (entryInitial k s) = kept s := by
  simp only [entryInitial]
  repeat' split
  all_goals simp

@[simp] theorem entryGone_kept (k : Nat) (s : State) : kept (entryGone k s) = kept s := by simp [entryGone]

@[simp] theorem slotInitial_kept (k : Nat) (s : State) : kept (slotInitial k s) = kept s := by
  simp only [slotInitial]
  repeat' split
  all_goals simp

@[simp] theorem overStep_kept (dom : Nat) (beyond : List Nat → Bool) (dest : Nat → List Nat → State → Option Nat) (target : Nat)
    (p : List Nat × State) (o : Nat × Bool × Nat) : kept (overStep dom beyond dest target p o).2 = kept p.2 := by
  unfold overStep
  dsimp only
  split
  · split <;> simp
  · split
    · simp
    · split
      · simp
      · split <;> simp

@[simp] theorem overload_kept (d : OverDom) (target : Nat) (rising : Bool) (load : List Nat) (objs : List (Nat × Bool × Nat)) (s : State) :
    kept (overload d target rising load objs s) = kept s := by
  cases d <;> simp [overload]

@[simp] theorem bankInitial_kept (s : State) : kept (bankInitial s) = kept s := by simp [bankInitial]

@[simp] theorem bankEvaluate_kept (k : Nat) (s : State) : kept (bankEvaluate k s) = kept s := by
  unfold bankEvaluate
  split <;> simp

@[simp] theorem laneInitial_kept (s : State) : kept (laneInitial s) = kept s := by simp [laneInitial]

@[simp] theorem laneEvaluate_kept (c : Nat) (s : State) : kept (laneEvaluate c s) = kept s := by
  unfold laneEvaluate
  split <;> simp

@[simp] theorem pitchStep_kept (reason : Nat) (s0 : State) (i : Nat) : kept (pitchStep reason s0 i) = kept s0 := by
  simp only [pitchStep]
  repeat' split
  all_goals simp

@[simp] theorem pitchEvaluate_kept (s : State) : kept (pitchEvaluate s) = kept s := by simp [pitchEvaluate]

@[simp] theorem steerLog_kept (reason n cand status : Nat) (s : State) : kept (steerLog reason n cand status s) = kept s :=
  by simp [steerLog]

@[simp] theorem servingEvaluate_kept (n : Nat) (s : State) : kept (servingEvaluate n s) = kept s := by
  simp only [servingEvaluate]
  repeat' split
  all_goals simp

@[simp] theorem steerResult_kept (n status : Nat) (s : State) : kept (steerResult n status s) = kept s := by
  unfold steerResult
  split <;> simp

@[simp] theorem steerLeft_kept (n : Nat) (s : State) : kept (steerLeft n s) = kept s := by
  simp only [steerLeft]
  repeat' split
  all_goals simp

@[simp] theorem storeBusy_kept (l : List (Nat × Fin 1001)) (s : State) : kept (storeBusy l s) = kept s := (rfl)

@[simp] theorem storeMeasure_kept (e : Eval) (s : State) : kept (storeMeasure e s) = kept s := by
  unfold storeMeasure
  split <;> simp

@[simp] theorem pitchGrid_kept (s : State) : kept (pitchGrid s) = kept s := by simp [pitchGrid]

@[simp] theorem evaluate_kept (e : Eval) (s : State) : kept (evaluate e s) = kept s := by
  unfold evaluate
  split <;> simp

@[simp] theorem surveyStart_kept (s : State) : kept (surveyStart s) = kept s := (rfl)

@[simp] theorem surveyDwell_kept (r centre bw prim : Nat) (s : State) : kept (surveyDwell r centre bw prim s) = kept s :=
  by simp [surveyDwell]

@[simp] theorem surveyEnd_kept (r : Nat) (busy : List (Nat × Fin 1001)) (s : State) : kept (surveyEnd r busy s) = kept s :=
  by simp [surveyEnd]

@[simp] theorem surveySkip_kept (r : Nat) (s : State) : kept (surveySkip r s) = kept s := by simp [surveySkip]
@[simp] theorem initialAll_kept (s : State) : kept (initialAll s) = kept s := by simp [initialAll]

@[simp] theorem forced_kept (f : Forced) (s : State) : kept (forced f s) = kept s := by
  unfold forced
  split
  · rfl
  · split
    · simp
    · simp
    · split
      · split <;> simp
      · rfl
    · simp
    · split
      · rfl
      · extract_lets t
        refine (foldl_kept (fun u k => ?_) _ _).trans (withSeed_kept _ _)
        split <;> simp
    · split
      · rfl
      · refine foldl_kept (fun t k => ?_) _ _
        split
        · split <;> simp
        · rfl
    · split
      · rfl
      · refine foldl_kept (fun t k => ?_) _ _
        split
        · split <;> simp
        · rfl
    · simp
    · simp

@[simp] theorem seederGetStatusRun_kept (c : Cmd) (s : State) : kept (((seederGetStatusRun) c s).after s) = kept s := (rfl)

@[simp] theorem seederSetParamsRun_kept (c : Cmd) (s : State) : kept (((seederSetParamsRun) c s).after s) = kept s :=
  by simp [seederSetParamsRun]

@[simp] theorem seederGetPlacementRun_kept (c : Cmd) (s : State) : kept (((seederGetPlacementRun) c s).after s) = kept s := (rfl)
@[simp] theorem seederReadLogRun_kept (c : Cmd) (s : State) : kept (((seederReadLogRun) c s).after s) = kept s := (rfl)

@[simp] theorem fenceLinks_kept (k n : Nat) (x : Sta) (s : State) : kept (fenceApply.fenceLinks k n x s) = kept s := by
  simp [fenceApply.fenceLinks]

@[simp] theorem fenceApply_kept (k : Nat) (f : Fence) (s : State) : kept (fenceApply k f s) = kept s := by
  unfold fenceApply
  dsimp only
  split
  · rfl
  · split
    iterate 2
      split
      · split <;> simp [fenceLinks_kept]
      · rfl
    · simp
    · split <;> simp
    · simp
    · split
      · split <;> simp
      · rfl
    · rfl

@[simp] theorem setFenceRun_kept (c : Cmd) (s : State) : kept ((setFenceRun c s).after s) = kept s := by
  simp only [setFenceRun]
  repeat' split
  all_goals simp

@[simp] theorem seederClearFenceRun_kept (c : Cmd) (s : State) : kept (((seederClearFenceRun) c s).after s) = kept s :=
  by simp [seederClearFenceRun]

@[simp] theorem seederGetFenceRun_kept (c : Cmd) (s : State) : kept (((seederGetFenceRun) c s).after s) = kept s := by
  unfold seederGetFenceRun
  split <;> simp

@[simp] theorem evaluateOne_kept (d o : Nat) (s : State) : kept (evaluateOne d o s) = kept s := by
  unfold evaluateOne
  dsimp only
  split <;> simp

@[simp] theorem evaluateRun_kept (c : Cmd) (s : State) : kept ((evaluateRun c s).after s) = kept s := by
  unfold evaluateRun
  split <;> simp

@[simp] theorem seederGetCountersRun_kept (c : Cmd) (s : State) : kept (((seederGetCountersRun) c s).after s) = kept s := (rfl)

/-! Dram -/

@[simp] theorem withDram_kept (f : Dram → Dram) (s : State) : kept (withDram f s) = kept s := (rfl)
@[simp] theorem withChan_kept (c : Nat) (f : Chan → Chan) (s : State) : kept (withChan c f s) = kept s := (rfl)
@[simp] theorem chanCount_kept (c i k : Nat) (s : State) : kept (chanCount c i k s) = kept s := (rfl)
@[simp] theorem dramConfigureRun_kept (c : Cmd) (s : State) : kept ((dramConfigureRun c s).after s) = kept s := by simp [dramConfigureRun]

@[simp] theorem dramInitDone_kept (fail : Option (Nat × Nat × Nat)) (s : State) : kept (dramInitDone fail s) = kept s := by
  simp only [dramInitDone]
  repeat' split
  all_goals simp

@[simp] theorem noteDrain_kept (c : Nat) (s : State) : kept (noteDrain c s) = kept s := by simp [noteDrain]
@[simp] theorem issued_kept (c : Nat) (s : State) : kept (issued c s) = kept s := (rfl)
@[simp] theorem noteError_kept (c kind addr dev : Nat) (s : State) : kept (noteError c kind addr dev s) = kept s := (rfl)

@[simp] theorem dropAt_kept (f : PktAt) (s : State) : kept (dropAt f s) = kept s := by
  unfold dropAt
  split <;> split <;> simp

@[simp] theorem csiLost_kept (r kind i : Nat) (s : State) : kept (csiLost r kind i s) = kept s := (rfl)
@[simp] theorem logLost_kept (seq : Nat) (s : State) : kept (logLost seq s) = kept s := (rfl)

@[simp] theorem readerAction_kept (c : Nat) (u : DramFor) (f : Option PktAt) (s : State) : kept (readerAction c u f s) = kept s := by
  simp only [readerAction]
  repeat' split
  all_goals simp

@[simp] theorem dramUncorr_kept (c addr cls a b : Nat) (s : State) : kept (dramUncorr c addr cls a b s) = kept s := by simp [dramUncorr]
@[simp] theorem arriveReq_kept (c : Nat) (q : DramReq) (s : State) : kept (arriveReq c q s) = kept s := by simp [arriveReq]

@[simp] theorem readArrive_kept (c addr : Nat) (u : DramFor) (s : State) : kept (readArrive c addr u s) = kept s := by
  simp only [readArrive]
  repeat' split
  all_goals simp

@[simp] theorem writeArrive_kept (c addr : Nat) (u : DramFor) (data : List Byte) (s : State) :
    kept (writeArrive c addr u data s) = kept s := by simp [writeArrive]

@[simp] theorem takeReq_kept (c : Nat) (q : DramReq) (promoted : Bool) (s : State) : kept (takeReq c q promoted s) = kept s :=
  by simp [takeReq]

@[simp] theorem readServe_kept (c : Nat) (e : RdErr) (f : Option PktAt) (s : State) : kept (readServe c e f s) = kept s := by
  simp only [readServe]
  repeat' split
  all_goals simp

@[simp] theorem storeBurst_kept (c : Nat) (q : DramReq) (s : State) : kept (storeBurst c q s) = kept s := (rfl)

@[simp] theorem writeServe_kept (c : Nat) (s : State) : kept (writeServe c s) = kept s := by
  unfold writeServe
  split <;> simp

@[simp] theorem chanFail_kept (c : Nat) (s : State) : kept (chanFail c s) = kept s := by simp [chanFail]
@[simp] theorem alertFall_kept (c : Nat) (crc : Bool) (s : State) : kept (alertFall c crc s) = kept s := by simp [alertFall]
@[simp] theorem replay_kept (c : Nat) (last : Bool) (s : State) : kept (replay c last s) = kept s := (rfl)
@[simp] theorem alertRise_kept (c : Nat) (s : State) : kept (alertRise c s) = kept s := by simp [alertRise]
@[simp] theorem refresh_kept (c r n : Nat) (s : State) : kept (refresh c r n s) = kept s := (rfl)
@[simp] theorem refDue_kept (c r : Nat) (s : State) : kept (refDue c r s) = kept s := by simp [refDue]
@[simp] theorem refIssue_kept (c r : Nat) (s : State) : kept (refIssue c r s) = kept s := by simp [refIssue]
@[simp] theorem refPullIn_kept (c r : Nat) (s : State) : kept (refPullIn c r s) = kept s := by simp [refPullIn]
@[simp] theorem hotCount_kept (c : Nat) (s : State) : kept (hotCount c s) = kept s := by simp [hotCount]
@[simp] theorem tempRead_kept (c : Nat) (hot : Bool) (s : State) : kept (tempRead c hot s) = kept s := by simp [tempRead]
@[simp] theorem zqCal_kept (c : Nat) (s : State) : kept (zqCal c s) = kept s := by simp [zqCal]
@[simp] theorem retrainDue_kept (c : Nat) (s : State) : kept (retrainDue c s) = kept s := by simp [retrainDue]
@[simp] theorem replanInterval_kept (c loss : Nat) (s : State) : kept (replanInterval c loss s) = kept s := (rfl)
@[simp] theorem noteLast_kept (c : Nat) (last : List (Nat × Nat)) (s : State) : kept (noteLast c last s) = kept s := (rfl)
@[simp] theorem noteTrained_kept (c : Nat) (tr : List (Nat × Nat)) (s : State) : kept (noteTrained c tr s) = kept s := (rfl)

@[simp] theorem retrainStart_kept (c : Nat) (last : List (Nat × Nat)) (s : State) : kept (retrainStart c last s) = kept s :=
  by simp [retrainStart]

@[simp] theorem retrainDone_kept (c : Nat) (ok : Bool) (tr : List (Nat × Nat)) (s : State) : kept (retrainDone c ok tr s) = kept s := by
  simp only [retrainDone]
  repeat' split
  all_goals simp

@[simp] theorem changeChan_kept (c rate : Nat) (s : State) : kept (changeChan c rate s) = kept s := by
  unfold changeChan
  dsimp only
  split
  · rfl
  · simp only [chanCount_kept, withChan_kept]
    exact foldl_kept (fun t q => storeBurst_kept c q t) _ s

@[simp] theorem rateChange_kept (s : State) : kept (rateChange s) = kept s := by
  unfold rateChange
  split <;> simp

@[simp] theorem dramCmd_kept {c : Nat} {s : State} {go : State → Effect} (h : kept ((go s).after s) = kept s) :
    kept ((dramCmd c s go).after s) = kept s := by
  unfold dramCmd
  split
  · rfl
  · split
    · rfl
    · exact h

@[simp] theorem dramSetPolicyRun_kept (c : Cmd) (s : State) : kept ((dramSetPolicyRun c s).after s) = kept s := by
  unfold dramSetPolicyRun
  exact dramCmd_kept (by simp)

@[simp] theorem setRateRun_kept (c : Cmd) (s : State) : kept ((setRateRun c s).after s) = kept s := by simp [setRateRun]

@[simp] theorem dramRetrainRun_kept (c : Cmd) (s : State) : kept ((dramRetrainRun c s).after s) = kept s := by
  unfold dramRetrainRun
  refine dramCmd_kept ?_
  split <;> simp

@[simp] theorem dramGetStatusRun_kept (c : Cmd) (s : State) : kept (((dramGetStatusRun) c s).after s) = kept s := (rfl)
@[simp] theorem dramGetErrorsRun_kept (c : Cmd) (s : State) : kept ((dramGetErrorsRun c s).after s) = kept s := dramCmd_kept (by simp)
@[simp] theorem dramGetCountersRun_kept (c : Cmd) (s : State) : kept ((dramGetCountersRun c s).after s) = kept s := dramCmd_kept (by simp)

/-! Egress -/

@[simp] theorem frameArrived_kept (f : Frame) (s : State) : kept (frameArrived f s) = kept s := by
  unfold frameArrived
  split <;> simp

@[simp] theorem portQueue_kept (p : Nat) (f : Frame) (s : State) : kept (portQueue p f s) = kept s := (rfl)
@[simp] theorem portEnqueue_kept (p : Nat) (f : Frame) (s : State) : kept (portEnqueue p f s) = kept s := by simp [portEnqueue]

@[simp] theorem stationEnqueue_kept (n t : Nat) (f : Frame) (s : State) : kept (stationEnqueue n t f s) = kept s := by
  unfold stationEnqueue
  split <;> simp

@[simp] theorem groupEnqueue_kept (q : Nat) (f : Frame) (s : State) : kept (groupEnqueue q f s) = kept s := by
  unfold groupEnqueue
  split <;> simp

/-! Eth -/

@[simp] theorem stepBegin_kept (p target : Nat) (s : State) : kept (stepBegin p target s) = kept s := (rfl)
@[simp] theorem capsSend_kept (p : Nat) (s : State) : kept (capsSend p s) = kept s := by simp [capsSend]

@[simp] theorem capsTimeout_kept (p : Nat) (s : State) : kept (capsTimeout p s) = kept s := by
  unfold capsTimeout
  split <;> simp

@[simp] theorem capsRx_kept (p flags serial : Nat) (s : State) : kept (capsRx p flags serial s) = kept s := (rfl)
@[simp] theorem downTrigger_kept (p : Nat) (s : State) : kept (downTrigger p s) = kept s := by simp [downTrigger]
@[simp] theorem upTrigger_kept (p : Nat) (s : State) : kept (upTrigger p s) = kept s := by simp [upTrigger]
@[simp] theorem stepReqRx_kept (p target seq util : Nat) (s : State) : kept (stepReqRx p target seq util s) = kept s := by simp [stepReqRx]

@[simp] theorem stepAckRx_kept (p seq : Nat) (s : State) : kept (stepAckRx p seq s) = kept s := by
  unfold stepAckRx
  split <;> simp

@[simp] theorem stepReqTimeout_kept (p : Nat) (s : State) : kept (stepReqTimeout p s) = kept s := by simp [stepReqTimeout]
@[simp] theorem stepNakRx_kept (p seq : Nat) (s : State) : kept (stepNakRx p seq s) = kept s := (rfl)

@[simp] theorem stepEnd_kept (p fec : Nat) (s : State) : kept (stepEnd p fec s) = kept s := by
  unfold stepEnd
  split <;> simp

@[simp] theorem fallowRx_kept (p type flags target serial seq util : Nat) (s : State) :
    kept (fallowRx p type flags target serial seq util s) = kept s := by
  unfold fallowRx
  split <;> simp

@[simp] theorem linkUp_kept (p speed fec addFrag : Nat) (s : State) : kept (linkUp p speed fec addFrag s) = kept s := by
  simp only [linkUp]
  repeat' split
  all_goals simp

@[simp] theorem linkDown_kept (p cause : Nat) (s : State) : kept (linkDown p cause s) = kept s := by simp [linkDown]

@[simp] theorem pauseStop_kept (p : Nat) (s : State) : kept (pauseStop p s) = kept s := by
  unfold pauseStop
  split <;> simp

@[simp] theorem pauseRx_kept (p q : Nat) (s : State) : kept (pauseRx p q s) = kept s := by simp [pauseRx]

@[simp] theorem pauseEnd_kept (p : Nat) (s : State) : kept (pauseEnd p s) = kept s := by
  unfold pauseEnd
  split <;> simp

@[simp] theorem portAccept_kept (p : Nat) (f : Frame) (len : Nat) (s : State) : kept (portAccept p f len s) = kept s := by simp [portAccept]
@[simp] theorem macControl_kept (p : Nat) (b : List Byte) (s : State) : kept (macControl p b s) = kept s := by simp [macControl]

@[simp] theorem ethAccept_kept (p : Nat) (g : List Byte) (express : Bool) (util : Nat) (s : State) :
    kept (ethAccept p g express util s) = kept s := by simp [ethAccept]

@[simp] theorem ethFrameRx_kept (p : Nat) (e : EthRx) (s : State) : kept (ethFrameRx p e s) = kept s := by simp [ethFrameRx]

@[simp] theorem ethFrameTx_kept (p frags : Nat) (s : State) : kept (ethFrameTx p frags s) = kept s := by
  unfold ethFrameTx
  split <;> simp

@[simp] theorem launchWireHold_kept (p : Nat) (s : State) : kept (launchWireHold p s) = kept s := by
  unfold launchWireHold
  dsimp only
  split <;> simp

@[simp] theorem preemptVerify_kept (p : Nat) (s : State) : kept (preemptVerify p s) = kept s := by simp [preemptVerify]

@[simp] theorem respondMpacket_kept (p : Nat) (respond : Bool) (s : State) : kept (respondMpacket p respond s) = kept s :=
  by simp [respondMpacket]

@[simp] theorem configureRun_kept (c : Cmd) (s : State) : kept ((configureRun c s).after s) = kept s := by simp [configureRun]
@[simp] theorem setFilterRun_kept (c : Cmd) (s : State) : kept ((setFilterRun c s).after s) = kept s := by simp [setFilterRun]

@[simp] theorem ethGetStatusRun_kept (tx rx : Fin 1001) (c : Cmd) (s : State) : kept (((ethGetStatusRun tx rx) c s).after s) = kept s :=
  (rfl)

@[simp] theorem setFallowRun_kept (c : Cmd) (s : State) : kept ((setFallowRun c s).after s) = kept s := by simp [setFallowRun]
@[simp] theorem ethGetCountersRun_kept (c : Cmd) (s : State) : kept (((ethGetCountersRun) c s).after s) = kept s := (rfl)

/-! General -/

@[simp] theorem nopRun_kept (c : Cmd) (s : State) : kept (((nopRun) c s).after s) = kept s := (rfl)
@[simp] theorem getVersionRun_kept (c : Cmd) (s : State) : kept (((getVersionRun) c s).after s) = kept s := (rfl)
@[simp] theorem abortRun_kept (c : Cmd) (s : State) : kept ((abortRun c s).after s) = kept s := by simp [abortRun]
@[simp] theorem hostGetCountersRun_kept (c : Cmd) (s : State) : kept (((hostGetCountersRun) c s).after s) = kept s := (rfl)

/-! Harrow -/

@[simp] theorem transfer_kept (l k : Nat) (data : List Byte) (g : Seg) (s : State) : kept (transfer l k data g s) = kept s := by
  unfold transfer
  split <;> simp

@[simp] theorem runIn_kept (l k : Nat) (gs : List Seg) (d : List (List Byte)) (s : State) : kept (runIn l k gs d s).2 = kept s := by
  induction gs generalizing d s with
  | nil => rfl
  | cons g r ih =>
    unfold runIn
    split
    · rfl
    · split <;> simp [ih]

@[simp] theorem wipeFor_kept (l owner : Nat) (ask : Bool) (s : State) : kept (wipeFor l owner ask s) = kept s := by simp [wipeFor]

@[simp] theorem startHost_kept (l : Nat) (j : Job) (data : List (List Byte)) (s : State) : kept (startHost l j data s) = kept s := by
  unfold startHost
  dsimp only
  split <;> simp

@[simp] theorem startBuilmin_kept (l c : Nat) (s : State) : kept (startBuilmin l c s) = kept s := by simp [startBuilmin]

@[simp] theorem jobStart_kept (l : Nat) (cls : Option Nat) (data : List (List Byte)) (s : State) :
    kept (jobStart l cls data s) = kept s := by
  simp only [jobStart]
  repeat' split
  all_goals simp

@[simp] theorem checkLane_kept (l : Nat) (chk : LaneCheck) (s : State) : kept (checkLane l chk s) = kept s := by
  unfold checkLane
  split <;> simp

@[simp] theorem afterJob_kept (l : Nat) (s : State) : kept (afterJob l s) = kept s := by simp [afterJob]
@[simp] theorem completeHost_kept (l : Nat) (j : Job) (s : State) : kept (completeHost l j s) = kept s := by simp [completeHost]

@[simp] theorem rerun_kept (c : Nat) (s : State) : kept (rerun c s) = kept s := by
  unfold rerun
  split <;> simp

@[simp] theorem completeBuilmin_kept (l c : Nat) (s : State) : kept (completeBuilmin l c s) = kept s := by
  unfold completeBuilmin
  split <;> simp

@[simp] theorem jobComplete_kept (l : Nat) (chk : LaneCheck) (s : State) : kept (jobComplete l chk s) = kept s := by
  simp only [jobComplete]
  repeat' split
  all_goals simp

@[simp] theorem laneWipeDone_kept (l : Nat) (s : State) : kept (laneWipeDone l s) = kept s := by
  simp only [laneWipeDone]
  repeat' split
  all_goals simp

@[simp] theorem leaseTake_kept (h : Word) (p : List Byte) (k : Nat) (s : State) : kept (leaseTake h p k s) = kept s := by simp [leaseTake]

@[simp] theorem leaseRun_kept (c : Cmd) (s : State) : kept ((leaseRun c s).after s) = kept s := by
  unfold leaseRun
  split <;> simp

@[simp] theorem leaseReleaseRun_kept (c : Cmd) (s : State) : kept ((leaseReleaseRun c s).after s) = kept s := by
  unfold leaseReleaseRun
  dsimp only
  split
  · rfl
  · rw [after_hold, settleLease_kept, withLease_kept, foldl_kept fun v l => withLane_kept l _ v]
    simp

@[simp] theorem submitRun_kept (c : Cmd) (s : State) : kept ((submitRun c s).after s) = kept s := by
  simp only [submitRun]
  repeat' split
  all_goals simp

@[simp] theorem stopRun_kept (c : Cmd) (s : State) : kept ((stopRun c s).after s) = kept s := by
  simp only [stopRun]
  repeat' split
  all_goals simp

@[simp] theorem harrowGetStatusRun_kept (c : Cmd) (s : State) : kept (((harrowGetStatusRun) c s).after s) = kept s := (rfl)
@[simp] theorem harrowGetCountersRun_kept (c : Cmd) (s : State) : kept (((harrowGetCountersRun) c s).after s) = kept s := (rfl)

/-! Router -/

@[simp] theorem tableErr_kept (s : State) : kept (tableErr s) = kept s := (rfl)

theorem checked_kept {α : Type} {c : Checks} {t : RtTab} {found : Option α} {kill : α → State → State}
    (h : ∀ a u, kept (kill a u) = kept u) (s : State) : kept (checked c t found kill s).2 = kept s := by
  unfold checked
  split
  · rfl
  · dsimp only
    split <;> simp [h]

theorem checked_eq_kept {α : Type} {c : Checks} {t : RtTab} {found o : Option α} {kill : α → State → State} {s u : State}
    (h : ∀ a u, kept (kill a u) = kept u) (he : checked c t found kill s = (o, u)) : kept u = kept s := by
  rw [← checked_kept h s, he]

@[simp] theorem tellDrop_kept (inst : Nat) (b : Bucket) (s : State) : kept (tellDrop inst b s).2 = kept s := by
  unfold tellDrop
  dsimp only
  split <;> simp

@[simp] theorem excEnqueue_kept {reason : Nat} {ok no : State → State} (hok : ∀ t, kept (ok t) = kept t) (hno : ∀ t, kept (no t) = kept t)
    (s : State) : kept (excEnqueue reason ok no s) = kept s := by
  unfold excEnqueue
  dsimp only
  split
  · rw [hok, withRouter_kept, withRouter_kept]
  · split <;> rw [hno, withRouter_kept, tellDrop_kept, withRouter_kept]

@[simp] theorem toException_kept (reason : Nat) (f : Frame) (s : State) : kept (toException reason f s) = kept s := by simp [toException]
@[simp] theorem routerDrop_kept (ctr : Nat) (f : Frame) (s : State) : kept (routerDrop ctr f s) = kept s := by simp [routerDrop]
@[simp] theorem fdbDel_kept (d : Nat) (mac : List Byte) (s : State) : kept (fdbDel d mac s) = kept s := (rfl)
@[simp] theorem fdbPut_kept (e : Fdb) (s : State) : kept (fdbPut e s) = kept s := (rfl)

@[simp] theorem learn_kept (c : Ctx) (s : State) : kept (learn c s) = kept s := by
  simp only [learn]
  repeat' split
  all_goals simp

@[simp] theorem bridgeTo_kept (k : Checks) (c : Ctx) (d tid : Nat) (mac : List Byte) (routed : Bool) (s : State) :
    kept (bridgeTo k c d tid mac routed s).2 = kept s := by
  unfold bridgeTo
  extract_lets x iso l
  split
  · rfl
  · have hl : kept l.2 = kept s := by
      simp only [l]
      split
      · rfl
      · exact checked_kept (fun e u => fdbDel_kept _ _ u) s
    clear_value l
    obtain ⟨_ | e, t⟩ := l
    · dsimp only at hl ⊢
      split <;> simp [hl]
    · dsimp only at hl ⊢
      split <;> simp [hl]

@[simp] theorem routeTo_kept (k : Checks) (c : Ctx) (table tid : Nat) (e : FragDec) (s : State) :
    kept (routeTo k c table tid e s).2 = kept s := by
  unfold routeTo
  split
  · extract_lets dst
    split
    · next h => exact checked_eq_kept (fun _ _ => withRouter_kept _ _) h
    · next h =>
      have ht := checked_eq_kept (fun _ _ => withRouter_kept _ _) h
      split
      · exact ht
      · split
        · exact ht
        · split
          · next h => exact (checked_eq_kept (fun _ _ => withRouter_kept _ _) h).trans ht
          · next h => 
            have hu := (checked_eq_kept (fun _ _ => withRouter_kept _ _) h).trans ht
            extract_lets d
            split
            · exact hu
            · split
              · exact hu
              · rw [bridgeTo_kept, rtCount_kept, hu]
  · rfl

@[simp] theorem domainForward_kept (k : Checks) (c : Ctx) (s : State) : kept (domainForward k c s).2 = kept s := by
  simp only [domainForward]
  repeat' split
  all_goals simp

@[simp] theorem hashTarget_kept (k : Checks) (c : Ctx) (set : Nat) (s : State) : kept (hashTarget k c set s).2 = kept s := by
  unfold hashTarget
  extract_lets h i
  split
  · next h => exact checked_eq_kept (fun _ _ => withRouter_kept _ _) h
  · next h =>
    have ht := checked_eq_kept (fun _ _ => withRouter_kept _ _) h
    split <;> exact ht

@[simp] theorem applyResult_kept (ck : Checks) (k : Option Nat) (c : Ctx) (res : List Byte) (s : State) :
    kept (applyResult ck k c res s).2 = kept s := by
  simp only [applyResult]
  repeat' split
  all_goals simp

@[simp] theorem ternary_kept (stage : Bool) (k : Checks) (key : List Byte) (s : State) : kept (ternary stage k key s).2 = kept s := by
  unfold ternary
  dsimp only
  split <;> simp

theorem ternary_eq_kept {stage : Bool} {k : Checks} {key : List Byte} {s t : State} {o : Option (Nat × Rule)}
    (h : ternary stage k key s = (o, t)) : kept t = kept s := by
  rw [← ternary_kept stage k key s, h]

@[simp] theorem flowRemove_kept (i : Nat) (s : State) : kept (flowRemove i s) = kept s := by simp [flowRemove]

@[simp] theorem classify_kept (k : Checks) (c : Ctx) (s : State) : kept (classify k c s).2 = kept s := by
  unfold classify
  split
  · next h => simp [ternary_eq_kept h]
  · next h =>
    have ht := ternary_eq_kept h
    extract_lets l
    have hl : kept l.2 = kept s := by
      simp only [l]
      split
      · rw [checked_kept fun _ _ => flowRemove_kept _ _, ht]
      · exact ht
    clear_value l
    obtain ⟨_ | p, u⟩ := l
    · have hmiss (v : State) (hv : kept v = kept (if c.isIp then rtCount 5 1 u else u)) : kept v = kept s := by
        rw [hv, ite_kept, rtCount_kept, ite_self, hl]
      dsimp only
      split
      · next h => simp [hmiss _ (ternary_eq_kept h)]
      · next h =>
        have hv := hmiss _ (ternary_eq_kept h)
        split <;> split <;> simp [hv]
    · simpa using hl

@[simp] theorem sendTo_kept (f : Frame) (b : List Byte) (e : Egress) (s : State) : kept (sendTo f b e s) = kept s := by
  unfold sendTo
  split <;> simp

@[simp] theorem execute_kept (d : FragDec) (f : Frame) (p : Pkt) (s : State) : kept (execute d f p s) = kept s := by
  unfold execute
  dsimp only
  split <;> simp

@[simp] theorem slowDecide_kept (key : List Byte) (d : FragDec) (s : State) : kept (slowDecide key d s) = kept s := by
  simp only [slowDecide]
  repeat' split
  all_goals simp

@[simp] theorem slowHold_kept (key : List Byte) (f : Frame) (s : State) : kept (slowHold key f s) = kept s := by
  unfold slowHold
  split <;> split <;> simp

@[simp] theorem fragStore_kept (key : List Byte) (stamp : Nat) (d : FragDec) (s : State) : kept (fragStore key stamp d s) = kept s :=
  by simp [fragStore]

@[simp] theorem stages3_kept (k : Checks) (c : Ctx) (s : State) : kept (stages3 k c s) = kept s := by
  simp only [stages3]
  repeat' split
  all_goals simp

@[simp] theorem toControl_kept (f : Frame) (s : State) : kept (toControl f s) = kept s := by
  unfold toControl
  split <;> simp

@[simp] theorem ptpServo_kept (n : Nat) (s : State) : kept (ptpServo n s) = kept s := by
  unfold ptpServo
  dsimp only
  split <;> simp

@[simp] theorem ptpTake_kept (c : Ctx) (s : State) : kept (ptpTake c s) = kept s := by
  simp only [ptpTake]
  repeat' split
  all_goals simp

@[simp] theorem routeFrame_kept (k : Checks) (f : Frame) (s : State) : kept (routeFrame k f s) = kept s := by
  simp only [routeFrame]
  repeat' split
  all_goals simp

@[simp] theorem routerClassify_kept (pipe mism : Nat) (k : Checks) (s : State) : kept (routerClassify pipe mism k s) = kept s := by
  unfold routerClassify
  split <;> simp

@[simp] theorem exceptionDeliver_kept (s : State) : kept (exceptionDeliver s) = kept s := by
  simp only [exceptionDeliver]
  repeat' split
  all_goals simp

@[simp] theorem fragmentSlowPath_kept (k : Checks) (s : State) : kept (fragmentSlowPath k s) = kept s := by
  simp only [fragmentSlowPath]
  repeat' split
  all_goals simp

@[simp] theorem slowFragTimeout_kept (s : State) : kept (slowFragTimeout s) = kept s := by
  unfold slowFragTimeout
  split <;> simp

@[simp] theorem flowAgeCheck_kept (s : State) : kept (flowAgeCheck s) = kept s := by simp [flowAgeCheck]

@[simp] theorem fdbAge_kept (d : Nat) (mac : List Byte) (s : State) : kept (fdbAge d mac s) = kept s := by
  unfold fdbAge
  split <;> simp

/-! Sec -/

@[simp] theorem cipherRx_kept (r : Nat) (f : Frame) (ok : Bool) (s : State) : kept (cipherRx r f ok s) = kept s := by
  simp only [cipherRx]
  repeat' split
  all_goals simp

@[simp] theorem portEnqueueClear_kept (p : Nat) (f : Frame) (s : State) : kept (cipherTxWire.portEnqueueClear p f s) = kept s := by
  unfold cipherTxWire.portEnqueueClear
  split <;> simp

theorem cipherTxWire_kept {p : Nat} {f : Frame} {s t : State} (h : cipherTxWire p f s = some t) : kept t = kept s := by
  unfold cipherTxWire at h
  split at h
  · cases h; exact portEnqueueClear_kept _ _ _
  · split at h
    · cases h
    · split at h
      · next hpn => cases h; rw [portEnqueueClear_kept, secCount_kept, takePn_eq_kept hpn]
      · cases h

@[simp] theorem cipherRxWire_kept (p : Nat) (f : Frame) (ok : Bool) (s : State) : kept (cipherRxWire p f ok s) = kept s := by
  simp only [cipherRxWire]
  repeat' split
  all_goals simp

@[simp] theorem slotErase_kept (k : Nat) (s : State) : kept (slotErase k s) = kept s := by simp [slotErase]
@[simp] theorem deleteDone_kept (s : State) : kept (deleteDone s) = kept s := by simp [deleteDone]

@[simp] theorem cipherFrame_kept (core j mism : Nat) (ok : Bool) (s : State) : kept (cipherFrame core j mism ok s) = kept s := by
  unfold cipherFrame
  split
  · rfl
  · extract_lets first s1 t
    split
    · rfl
    · split
      · simp
      · have ht : kept t = kept s := by simp only [t, s1, withSec_kept]; split <;> simp
        split
        · simp [ht]
        · simp [ht]
        · simp [ht]
        · split
          · next h => rw [deleteDone_kept, cipherTxWire_kept h, ht]
          · rfl

@[simp] theorem keyHoldTimeout_kept (p : Nat) (s : State) : kept (keyHoldTimeout p s) = kept s := by
  unfold keyHoldTimeout
  split <;> simp

@[simp] theorem secGetIdentityRun_kept (c : Cmd) (s : State) : kept (((secGetIdentityRun) c s).after s) = kept s := (rfl)

theorem withTrng_kept {pass : Bool} {s : State} {go : State → Effect} (h : ∀ t, kept t = kept s → kept ((go t).after s) = kept s) :
    kept ((withTrng pass s go).after s) = kept s := by
  unfold withTrng
  split
  · exact h _ rfl
  · split
    · exact h _ rfl
    · rfl

@[simp] theorem openSessionRun_kept (pass : Bool) (c : Cmd) (s : State) : kept ((openSessionRun pass c s).after s) = kept s := by
  unfold openSessionRun
  dsimp only
  split
  · rfl
  · exact withTrng_kept fun t ht => ht

@[simp] theorem storeKey_kept (k : Nat) (x : KeySlot) (n : Nat) (s : State) : kept (storeKey k x n s) = kept s := by simp [storeKey]

@[simp] theorem loadKeyRun_kept (c : Cmd) (s : State) : kept ((loadKeyRun c s).after s) = kept s := by
  simp only [loadKeyRun]
  repeat' split
  all_goals simp

@[simp] theorem unbindSlot_kept (k : Nat) (s : State) : kept (unbindSlot k s) = kept s := by simp [unbindSlot]

@[simp] theorem deleteKeyRun_kept (c : Cmd) (s : State) : kept ((deleteKeyRun c s).after s) = kept s := by
  unfold deleteKeyRun
  dsimp only
  split <;> simp

@[simp] theorem bindTx_kept (k target kid n : Nat) (s : State) : kept (bindTx k target kid n s) = kept s := by simp [bindTx]
@[simp] theorem bindRx_kept (k target kid n start : Nat) (s : State) : kept (bindRx k target kid n start s) = kept s := by simp [bindRx]
@[simp] theorem unbindKid_kept (target kid n dir : Nat) (s : State) : kept (unbindKid target kid n dir s) = kept s := by simp [unbindKid]
@[simp] theorem bindKeyRun_kept (c : Cmd) (s : State) : kept ((bindKeyRun c s).after s) = kept s := by simp [bindKeyRun]
@[simp] theorem secGetKeyStateRun_kept (c : Cmd) (s : State) : kept (((secGetKeyStateRun) c s).after s) = kept s := (rfl)
@[simp] theorem setStreamRun_kept (c : Cmd) (s : State) : kept ((setStreamRun c s).after s) = kept s := by simp [setStreamRun]
@[simp] theorem secMacsecPortRun_kept (c : Cmd) (s : State) : kept (((secMacsecPortRun) c s).after s) = kept s := (rfl)
@[simp] theorem setSaRun_kept (c : Cmd) (s : State) : kept ((setSaRun c s).after s) = kept s := by simp [setSaRun]

theorem derive_kept {mism : Nat} {s u : State} {go : State → Effect} (h : ∀ t, kept t = kept s → kept ((go t).after u) = kept s)
    (hu : kept u = kept s := by rfl) : kept ((derive mism s go).after u) = kept s := by
  unfold derive
  split
  · exact hu
  · split
    · simp
    · split
      · exact h _ rfl
      · exact h _ rfl

@[simp] theorem freeSae_kept (i : Nat) (s : State) : kept (freeSae i s) = kept s := (rfl)

@[simp] theorem saeRun_kept (pass : Bool) (mism : Nat) (c : Cmd) (s : State) : kept ((saeRun pass mism c s).after s) = kept s := by
  unfold saeRun
  extract_lets p i g k own peer ctx
  clear_value ctx
  split
  case h_1 => -- commit
    rw [ite_after, ite_after, ite_kept, ite_kept, after_fail, after_fail, withTrng_kept, ite_self, ite_self]
    intro t ht
    refine (derive_kept (s := t) (fun u hu => ?_) ht.symm).trans ht
    simpa using hu
  case h_2 => -- confirm
    cases ctx with
    | none => rfl
    | some x =>
      dsimp only
      rw [ite_after, ite_kept, after_fail, derive_kept, ite_self]
      intro t ht
      split <;> simpa using ht
  case h_3 => -- verify
    cases ctx with
    | none => rfl
    | some x =>
      dsimp only
      rw [ite_after, ite_after, ite_kept, ite_kept, after_fail, after_fail, derive_kept, ite_self, ite_self]
      intro t ht
      split <;> simpa using ht

@[simp] theorem saeTimeout_kept (i : Nat) (s : State) : kept (saeTimeout i s) = kept s := by
  unfold saeTimeout
  split <;> simp

@[simp] theorem fourWayRun_kept (mism : Nat) (c : Cmd) (s : State) : kept ((fourWayRun mism c s).after s) = kept s := by
  unfold fourWayRun
  dsimp only
  split
  · rfl
  · split
    · rfl
    · split
      · rfl
      · exact derive_kept fun t ht => by simpa using ht

@[simp] theorem eapolRun_kept (mism : Nat) (c : Cmd) (s : State) : kept ((eapolRun mism c s).after s) = kept s := by
  unfold eapolRun
  dsimp only
  split
  · rfl
  · refine derive_kept fun t ht => ?_
    split
    · split <;> simpa using ht
    · exact ht
    · exact ht

@[simp] theorem secGetCountersRun_kept (c : Cmd) (s : State) : kept (((secGetCountersRun) c s).after s) = kept s := (rfl)

/-! HostRings -/

@[simp] theorem withRing_kept (tx : Bool) (n : Nat) (f : Ring → Ring) (s : State) : kept (withRing tx n f s) = kept s := by simp [withRing]

@[simp] theorem writeBufs_kept (l : List (List Byte × List Byte)) (zero : Bool) (s : State) : kept (writeBufs l zero s) = kept s :=
  by simp [writeBufs]

@[simp] theorem ringDrop_kept (n : Nat) (dry : Bool) (f : Frame) (s : State) : kept (ringDrop n dry f s) = kept s := by simp [ringDrop]

@[simp] theorem dropPart_kept (n : Nat) (dry : Bool) (s : State) : kept (dropPart n dry s) = kept s := by
  unfold dropPart
  dsimp only
  split <;> simp

@[simp] theorem ringHalt_kept (tx : Bool) (n : Nat) (err : BitVec 16) (s : State) : kept (ringHalt tx n err s) = kept s :=
  by simp [ringHalt]

@[simp] theorem haltOverfull_kept (tx : Bool) (n : Nat) (s : State) : kept (haltOverfull tx n s) = kept s := by simp [haltOverfull]
@[simp] theorem prodWrite_kept (tx : Bool) (n : Nat) (v : BitVec 16) (s : State) : kept (prodWrite tx n v s) = kept s := by simp [prodWrite]
@[simp] theorem ringEnable_kept (tx : Bool) (n : Nat) (s : State) : kept (ringEnable tx n s) = kept s := by simp [ringEnable]
@[simp] theorem withdraw_kept (n : Nat) (s : State) : kept (withdraw n s) = kept s := (rfl)
@[simp] theorem unfetched_kept (n : Nat) (s : State) : kept (unfetched n s) = kept s := by simp [unfetched]
@[simp] theorem ringResume_kept (tx : Bool) (n : Nat) (s : State) : kept (ringResume tx n s) = kept s := by simp [ringResume]
@[simp] theorem ringDisable_kept (tx : Bool) (n : Nat) (s : State) : kept (ringDisable tx n s) = kept s := by simp [ringDisable]

@[simp] theorem dispatchHost_kept (f : Frame) (s : State) : kept (dispatchHost f s) = kept s := by
  unfold dispatchHost
  split <;> simp

@[simp] theorem fetchFrame_kept (n : Nat) (descs : List (List Byte)) (data : List Byte) (s : State) :
    kept (fetchFrame n descs data s) = kept s := by
  simp only [fetchFrame]
  repeat' split
  all_goals simp

@[simp] theorem writeRxDesc_kept (n : Nat) (i : BitVec 16) (f : Frame) (sof eof : Bool) (bytes : Nat) (s : State) :
    kept (writeRxDesc n i f sof eof bytes s) = kept s := by simp [writeRxDesc]

@[simp] theorem completeRx_kept (n : Nat) (f : Frame) (l : List (List Byte × List Byte)) (s : State) : kept (completeRx n f l s) = kept s :=
  by simp [completeRx]

@[simp] theorem fillPart_kept (n : Nat) (p : RxPart) (descs : List (List Byte)) (s : State) : kept (fillPart n p descs s) = kept s := by
  unfold fillPart
  dsimp only
  split <;> simp

@[simp] theorem deliverFrame_kept (n : Nat) (descs : List (List Byte)) (s : State) : kept (deliverFrame n descs s) = kept s := by
  unfold deliverFrame
  dsimp only
  split <;> simp

/-! HostIf -/

@[simp] theorem doorbell_kept (m : Nat) (s : State) : kept (doorbell m s) = kept s := by simp [doorbell]
@[simp] theorem completionWrite_kept (n : Nat) (s : State) : kept (completionWrite n s) = kept s := by simp [completionWrite]
@[simp] theorem cqHeadWrite_kept (n : Nat) (h : BitVec 16) (s : State) : kept (cqHeadWrite n h s) = kept s := by simp [cqHeadWrite]
@[simp] theorem cqEnable_kept (n : Nat) (s : State) : kept (cqEnable n s) = kept s := by simp [cqEnable]
@[simp] theorem evtEnable_kept (s : State) : kept (evtEnable s) = kept s := by simp [evtEnable]
@[simp] theorem watchdogExpiry_kept (s : State) : kept (watchdogExpiry s) = kept s := by simp [watchdogExpiry]
@[simp] theorem coalesceTimeout_kept (src : Nat) (s : State) : kept (coalesceTimeout src s) = kept s := by simp [coalesceTimeout]
@[simp] theorem linkGoes_kept (k : PcieLink) (s : State) : kept (linkGoes k s) = kept s := by simp [linkGoes]
@[simp] theorem sendPending_kept (s : State) (v : Nat) : kept (sendPending s v) = kept s := by simp [sendPending]

/-! Reset -/

@[simp] theorem settleFuses_kept (s : State) : kept (settleFuses s) = kept s := by
  unfold settleFuses
  split <;> simp

@[simp] theorem wipeEnd_kept (s : State) : kept (wipeEnd s) = kept s := by
  unfold wipeEnd
  dsimp only
  split
  · rfl
  · split
    · exact sendMsix_kept _ _
    · rfl

@[simp] theorem fwlStart_kept (s : State) : kept (fwlStart s) = kept s := by simp [fwlStart]
@[simp] theorem imageVerified_kept (s : State) : kept (imageVerified s) = kept s := by simp [imageVerified]
@[simp] theorem fwReady_kept (s : State) : kept (fwReady s) = kept s := by simp [fwReady]

/-! RouterCmd -/

@[simp] theorem routerSetParamsRun_kept (c : Cmd) (s : State) : kept (((routerSetParamsRun) c s).after s) = kept s := (rfl)

@[simp] theorem setFlowRun_kept (c : Cmd) (s : State) : kept ((setFlowRun c s).after s) = kept s := by
  unfold setFlowRun
  dsimp only
  split <;> simp

@[simp] theorem routerDelFlowRun_kept (c : Cmd) (s : State) : kept (((routerDelFlowRun) c s).after s) = kept s := by
  unfold routerDelFlowRun
  split <;> simp

@[simp] theorem routerGetFlowRun_kept (c : Cmd) (s : State) : kept (((routerGetFlowRun) c s).after s) = kept s := by
  unfold routerGetFlowRun
  split <;> simp

@[simp] theorem routerSetRuleRun_kept (c : Cmd) (s : State) : kept (((routerSetRuleRun) c s).after s) = kept s := (rfl)
@[simp] theorem routerGetRuleRun_kept (c : Cmd) (s : State) : kept (((routerGetRuleRun) c s).after s) = kept s := (rfl)
@[simp] theorem setRouteRun_kept (c : Cmd) (s : State) : kept ((setRouteRun c s).after s) = kept s := by simp [setRouteRun]
@[simp] theorem setNeighRun_kept (c : Cmd) (s : State) : kept ((setNeighRun c s).after s) = kept s := by simp [setNeighRun]
@[simp] theorem setFdbRun_kept (c : Cmd) (s : State) : kept ((setFdbRun c s).after s) = kept s := by simp [setFdbRun]
@[simp] theorem routerFlushFdbRun_kept (c : Cmd) (s : State) : kept (((routerFlushFdbRun) c s).after s) = kept s := (rfl)

@[simp] theorem stationEntries_kept (s : State) : kept (stationEntries s) = kept s := by
  refine foldl_kept (fun _ _ => ?_) _ _
  split <;> simp

@[simp] theorem routerSetDomainRun_kept (c : Cmd) (s : State) : kept (((routerSetDomainRun) c s).after s) = kept s :=
  by simp [routerSetDomainRun]

@[simp] theorem replacePair_kept (n : Nat) (s : State) : kept (replacePair n s) = kept s := by
  refine foldl_kept (fun t k => ?_) _ s
  split
  · simp
  · split
    · rfl
    · split <;> simp

@[simp] theorem routerSetPortPairRun_kept (c : Cmd) (s : State) : kept (((routerSetPortPairRun) c s).after s) = kept s :=
  by simp [routerSetPortPairRun]

@[simp] theorem replaceGroup_kept (n : Nat) (s : State) : kept (replaceGroup n s) = kept s := by
  refine foldl_kept (fun t k => ?_) _ s
  split
  · simp
  · split
    · rfl
    · split <;> simp

@[simp] theorem routerSetRingGroupRun_kept (c : Cmd) (s : State) : kept (((routerSetRingGroupRun) c s).after s) = kept s :=
  by simp [routerSetRingGroupRun]

@[simp] theorem routerSetHashRun_kept (c : Cmd) (s : State) : kept (((routerSetHashRun) c s).after s) = kept s := (rfl)
@[simp] theorem setIndir_kept (i v : Nat) (s : State) : kept (setIndir i v s) = kept s := by simp [setIndir]

@[simp] theorem routerSetIndirectionRun_kept (c : Cmd) (s : State) : kept (((routerSetIndirectionRun) c s).after s) = kept s :=
  by simp [routerSetIndirectionRun]

@[simp] theorem routerSetExcLimitRun_kept (c : Cmd) (s : State) : kept (((routerSetExcLimitRun) c s).after s) = kept s := (rfl)
@[simp] theorem routerGetCountersRun_kept (c : Cmd) (s : State) : kept (((routerGetCountersRun) c s).after s) = kept s := (rfl)

/-! Stations -/

@[simp] theorem addStaRun_kept (c : Cmd) (s : State) : kept ((addStaRun c s).after s) = kept s := by
  simp only [addStaRun]
  repeat' split
  all_goals simp

@[simp] theorem dropQueued_kept (n : Nat) (held : Bool) (s : State) : kept (dropQueued n held s) = kept s := by simp [dropQueued]
@[simp] theorem forgetBf_kept (n : Nat) (s : State) : kept (forgetBf n s) = kept s := foldl_kept (fun _ _ => by rfl) _ _

@[simp] theorem delStation_kept (n : Nat) (s : State) : kept (delStation n s).2 = kept s := by
  unfold delStation
  split <;> simp

@[simp] theorem macDelStaRun_kept (c : Cmd) (s : State) : kept (((macDelStaRun) c s).after s) = kept s := by simp [macDelStaRun]

/-! Reliability -/

@[simp] theorem stagingLost_kept (i : Nat) (s : State) : kept (stagingLost i s) = kept s := by
  unfold stagingLost
  split <;> simp

@[simp] theorem receiveLost_kept (n i : Nat) (s : State) : kept (receiveLost n i s) = kept s := by simp [receiveLost]
@[simp] theorem mpduLost_kept (r n tid sn : Nat) (s : State) : kept (mpduLost r n tid sn s) = kept s := (rfl)
@[simp] theorem queueLost_kept (q : Nat) (group : Bool) (s : State) : kept (queueLost q group s) = kept s := by simp [queueLost]

@[simp] theorem entryLost_kept (t : RtTab) (i : Nat) (s : State) : kept (entryLost t i s) = kept s := by
  unfold entryLost
  split <;> simp

@[simp] theorem ruleLost_kept (i : Nat) (s : State) : kept (ruleLost i s) = kept s := (rfl)

@[simp] theorem rxBufLost_kept (p : Nat) (s : State) : kept (rxBufLost p s) = kept s := by
  unfold rxBufLost
  split <;> simp

@[simp] theorem txBufLost_kept (p i : Nat) (s : State) : kept (txBufLost p i s) = kept s := by simp [txBufLost]
@[simp] theorem keyLost_kept (k : Nat) (s : State) : kept (keyLost k s) = kept s := by simp [keyLost]

@[simp] theorem placeLost_kept (domain object : Nat) (s : State) : kept (placeLost domain object s) = kept s := by
  simp only [placeLost]
  repeat' split
  all_goals simp

@[simp] theorem partLost_kept (word : Nat) (a : ArrayPart) (s : State) : kept (partLost word a s) = kept s := by
  unfold partLost
  split <;> simp

@[simp] theorem wordLost_kept (word : Nat) (a : ArrayPart) (s : State) : kept (wordLost word a s) = kept s := by
  unfold wordLost
  split <;> simp

@[simp] theorem noteCorrected_kept (a word : Nat) (s : State) : kept (noteCorrected a word s) = kept s := (rfl)
@[simp] theorem wordCorrected_kept (a word : Nat) (s : State) : kept (wordCorrected a word s) = kept s := (rfl)

@[simp] theorem arrayWriteback_kept (op : WordOp) (s : State) : kept (arrayWriteback op s) = kept s := by
  unfold arrayWriteback
  split <;> simp

@[simp] theorem rowRepair_kept (i : Nat) (shadowBad : Bool) (s : State) : kept (rowRepair i shadowBad s) = kept s := by simp [rowRepair]

@[simp] theorem scrubBurst_kept (c addr cls : Nat) (e : RdErr) (s : State) : kept (scrubBurst c addr cls e s) = kept s := by
  simp only [scrubBurst]
  repeat' split
  all_goals simp

@[simp] theorem scrub_kept (a word : Nat) (f : ScrubFind) (s : State) : kept (scrub a word f s) = kept s := by
  unfold scrub
  split <;> simp

@[simp] theorem passEnd_kept (a : Nat) (s : State) : kept (passEnd a s) = kept s := by simp [passEnd]
@[simp] theorem passEscalate_kept (a : Nat) (s : State) : kept (passEscalate a s) = kept s := by simp [passEscalate]
@[simp] theorem stressSample_kept (tj : Int) (s : State) : kept (stressSample tj s) = kept s := by simp [stressSample]
@[simp] theorem replanMargins_kept (d d0 : Nat) (s : State) : kept (replanMargins d d0 s) = kept s := (rfl)
@[simp] theorem marginReplan_kept (d d0 : Nat) (s : State) : kept (marginReplan d d0 s) = kept s := by simp [marginReplan]

@[simp] theorem gainCal_kept (r c : Nat) (gain : Int) (need : Nat) (s : State) : kept (gainCal r c gain need s) = kept s :=
  by simp [gainCal]

@[simp] theorem cairnTake_kept (p : List Byte) (s : State) : kept (cairnTake p s) = kept s := (rfl)

@[simp] theorem cairnRestoreRun_kept (d d0 : Nat) (c : Cmd) (s : State) : kept ((cairnRestoreRun d d0 c s).after s) = kept s :=
  by simp [cairnRestoreRun]

@[simp] theorem cairnExportRun_kept (c : Cmd) (s : State) : kept (((cairnExportRun) c s).after s) = kept s := (rfl)
@[simp] theorem cairnReady_kept (s : State) : kept (cairnReady s) = kept s := by simp [cairnReady]
@[simp] theorem relGetStatusRun_kept (c : Cmd) (s : State) : kept (((relGetStatusRun) c s).after s) = kept s := (rfl)
@[simp] theorem relGetCountersRun_kept (c : Cmd) (s : State) : kept (((relGetCountersRun) c s).after s) = kept s := (rfl)

/-! Power -/

@[simp] theorem sysGetStateRun_kept (c : Cmd) (s : State) : kept (((sysGetStateRun) c s).after s) = kept s := (rfl)
@[simp] theorem enterMode_kept (b : SvcMode) (s : State) : kept (enterMode b s) = kept s := by simp [enterMode]
@[simp] theorem setModeRun_kept (c : Cmd) (s : State) : kept ((setModeRun c s).after s) = kept s := by simp [setModeRun]
@[simp] theorem radiosOff_kept (s : State) : kept (radiosOff s) = kept s := by simp [radiosOff]

@[simp] theorem abortOthers_kept (m : Nat) (own : Word) (s : State) : kept (abortOthers m own s) = kept s := by
  refine (foldl_kept (fun u i => foldl_kept (fun v r => ?_) _ u) _ _).trans (withMbx_kept _ _ _)
  split
  · rfl
  · split <;> simp

@[simp] theorem endLane_kept (s : State) (l : Nat) : kept (endLane s l) = kept s := by
  simp only [endLane]
  repeat' split
  all_goals simp

@[simp] theorem endJobs_kept (s : State) : kept (endJobs s) = kept s := by simp [endJobs]
@[simp] theorem bivouacWur_kept (sources rxMode : Nat) (s : State) : kept (bivouacWur sources rxMode s) = kept s := by simp [bivouacWur]

@[simp] theorem enterBivouac_kept (m : Nat) (own : Word) (sources rxMode : Nat) (s : State) :
    kept (enterBivouac m own sources rxMode s) = kept s := by simp [enterBivouac]

@[simp] theorem bivouacSteps_kept (s : State) : kept (bivouacSteps s) = kept s := by simp [bivouacSteps]
@[simp] theorem bivouacRun_kept (c : Cmd) (s : State) : kept ((bivouacRun c s).after s) = kept s := by simp [bivouacRun]
@[simp] theorem bivouacAssert_kept (s : State) : kept (bivouacAssert s) = kept s := by simp [bivouacAssert]

@[simp] theorem applyToken_kept (v : Nat) (s : State) : kept (applyToken v s) = kept s := by
  unfold applyToken
  extract_lets k code
  split
  · rfl
  · split
    · rfl
    · split
      · exact withLife_kept _ _
      · simp

/-! Registers -/

@[simp] theorem writeEvt_kept (word v : Nat) (s : State) : kept (writeEvt word v s) = kept s := by
  unfold writeEvt
  split
  case h_4 => rw [flushHeld_kept, withEvt_kept]
  case h_5 =>
    dsimp only
    split
    · rw [evtEnable_kept, withEvt_kept]
    · rw [withEvt_kept, withEvt_kept]
  case h_7 => rfl
  all_goals exact withEvt_kept _ _

@[simp] theorem writeCq_kept (n word v : Nat) (s : State) : kept (writeCq n word v s) = kept s := by
  unfold writeCq
  split <;> simp

@[simp] theorem writeRing_kept (tx : Bool) (n word v : Nat) (s : State) : kept (writeRing tx n word v s) = kept s := by
  unfold writeRing
  split <;> simp

@[simp] theorem writeTb_kept (n word v : Nat) (s : State) : kept (writeTb n word v s) = kept s := by
  unfold writeTb
  dsimp only
  split <;> simp

@[simp] theorem writeBackup_kept (i v : Nat) (s : State) : kept (writeBackup i v s) = kept s := by
  unfold writeBackup kept
  rw [withRtc_rtc]
  split <;> rfl

theorem coexFe_kept (x : Coex) (y : Vector RadioFe 3) (s : State) : kept { s with coex := x, fe := y } = kept s := (rfl)

@[simp] theorem writeCoex_kept (word v : Nat) (s : State) : kept (writeCoex word v s) = kept s := by
  unfold writeCoex
  split
  · exact (coexAll_kept _).trans (coexFe_kept _ _ s)
  · exact (coexAll_kept _).trans (kept_coex _ s)
  all_goals rfl

@[simp] theorem sendAllPending_kept (s : State) : kept (sendAllPending s) = kept s := by simp [sendAllPending]

/-! Lane -/

@[simp] theorem freeMoves_kept (x : Lane) (s : State) : kept (freeMoves x s).2 = kept s := by
  unfold freeMoves
  split <;> simp

@[simp] theorem issue_kept (l : Nat) (chk : LaneCheck) (own : Nat → Bool) (run : Lease → FreeMove → Lane → LaneRes) (s : State) :
    kept (issue l chk own run s) = kept s := by
  simp only [issue]
  repeat' split
  all_goals simp

@[simp] theorem haltLane_kept (l : Nat) (s : State) : kept (haltLane l s) = kept s := by
  unfold haltLane
  dsimp only
  split <;> simp

@[simp] theorem dmaDone_kept (l c : Nat) (data : List Byte) (s : State) : kept (dmaDone l c data s) = kept s := by
  unfold dmaDone
  dsimp only
  split <;> simp

@[simp] theorem interruptTaken_kept (l : Nat) (s : State) : kept (interruptTaken l s) = kept s := by
  simp only [interruptTaken]
  repeat' split
  all_goals simp

@[simp] theorem jobBudget_kept (l : Nat) (s : State) : kept (jobBudget l s) = kept s := by
  unfold jobBudget
  dsimp only
  split <;> simp

@[simp] theorem readCanary_kept (l ps : Nat) (s : State) : kept (readCanary l ps s) = kept s := (rfl)
@[simp] theorem canaryMeasure_kept (l ps : Nat) (s : State) : kept (canaryMeasure l ps s) = kept s := by simp [canaryMeasure]
@[simp] theorem telemSteal_kept (l ps : Nat) (s : State) : kept (telemSteal l ps s) = kept s := by simp [telemSteal]

end Sys2Proof.Machine
end

section
/-!
SUPPORT. What the resets, the battery domain and the register writes change, and the rows of the live device.
-/
namespace Sys2Proof.Machine
open Sys2Proof

/-! Resets. -/

theorem wiped_wipe (link : Bool) (s : State) : Wiped s (wipe link s) where
  busy := rfl
  fw := rfl
  mode := rfl
  rtc := wipe_rtc link s
  serial := by
    change (settleFuses s).glb.serial = s.glb.serial
    unfold settleFuses
    split <;> rfl
  bar := rfl
  mpRam := rfl
  mbx := by unfold wipe; cases link <;> rfl
  cq := by unfold wipe; cases link <;> rfl
  evt := by unfold wipe; cases link <;> rfl
  rings := rfl
  time := rfl
  mac := rfl
  phy := rfl
  sched := rfl
  harrow := rfl
  bf := rfl
  eth := rfl
  seed := rfl
  sec := rfl
  dram := rfl
  wur := rfl
  rel := rfl
  pending := congrArg Kept.pending (settleFuses_kept s)

/-- What comes after a wipe in the same event: changes of GLB, of the link, of the sensor's hold and of the pins. -/
theorem Wiped.setGlb {s t : State} (h : Wiped s t) {f : Glb → Glb} (hserial : (f t.glb).serial = t.glb.serial) : Wiped s (withGlb f t) :=
  { h with serial := hserial.trans h.serial }

theorem Wiped.setLife {s t : State} (h : Wiped s t) {f : Life → Life}
    (hf : (f t.life).wipeBusy = t.life.wipeBusy ∧ (f t.life).fwState = t.life.fwState ∧ (f t.life).mode = t.life.mode) :
    Wiped s (withLife f t) :=
  { h with busy := hf.1.trans h.busy, fw := hf.2.1.trans h.fw, mode := hf.2.2.trans h.mode }

theorem Wiped.setHost {s t : State} (h : Wiped s t) {f : HostIf → HostIf}
    (hf : (f t.host).mbx = t.host.mbx ∧ (f t.host).cq = t.host.cq ∧ (f t.host).evt = t.host.evt) : Wiped s (withHost f t) :=
  { h with mbx := hf.1.trans h.mbx, cq := hf.2.1.trans h.cq, evt := hf.2.2.trans h.evt }

theorem wiped_resetWith (cause : BitVec 9) (link : Bool) (s : State) : Wiped s (resetWith cause link s) := (wiped_wipe link s).setGlb rfl

theorem wiped_internalReset (cause : BitVec 9) (s : State) : Wiped s (internalReset cause s) :=
  (wiped_resetWith cause true s).setLife ⟨rfl, rfl, rfl⟩

theorem wiped_powerOnReset (s : State) : Wiped s (powerOnReset s) :=
  ((wiped_wipe false s).setGlb (f := fun g => { g with resetCause := causePowerOn }) rfl).setLife
    (f := fun l => { l with mainUp := true, aonUp := true, perstN := false,
                            bivouacN := if s.life.aonUp then s.life.bivouacN else true,
                            wakeOut := s.life.aonUp && s.life.wakeOut,
                            thermalHold := s.life.aonUp && s.life.thermalHold }) ⟨rfl, rfl, rfl⟩

theorem wiped_flr (s : State) : Wiped s (flr s) := by
  unfold flr
  exact (wiped_resetWith causeFlr false s).setHost ⟨rfl, rfl, rfl⟩

/-- A step from `s` to `t` leaves the queue alone and keeps the state sound. -/
structure Keeps (s t : State) : Prop where
  pending : t.pending = s.pending
  sound : Sound s → Sound t

theorem Keeps.refl (s : State) : Keeps s s := ⟨rfl, id⟩

theorem Keeps.trans {s t u : State} (h : Keeps s t) (h' : Keeps t u) : Keeps s u := ⟨h'.pending.trans h.pending, h'.sound ∘ h.sound⟩

theorem Keeps.of_kept {s t : State} (h : kept t = kept s) : Keeps s t := by
  have h : ∀ {α : Type} (f : Kept → α), f (kept t) = f (kept s) := fun f => congrArg f h
  refine ⟨h Kept.pending, fun w => ⟨?_, ?_, ?_, ?_, ?_, ?_, ?_, ?_⟩⟩
  · exact (congrArg memWf (h Kept.bar)).trans w.bar
  · exact (congrArg memWf (h Kept.mpRam)).trans w.mpRam
  · exact (congrArg timeValid (h Kept.time)).trans w.time
  · exact fun c hc => w.commit c ((h Kept.commit).symm.trans hc)
  · exact (congrArg (· &&& ~~~0x01FF0F1F#32) (h Kept.holdDate)).trans w.holdDate
  · exact (congrArg (· &&& ~~~0x001F3F00#32) (h Kept.holdTime)).trans w.holdTime
  · exact (congrArg (· &&& ~~~0x009F9FBF#32) (h Kept.alarm)).trans w.alarm
  · exact Nat.le_trans (Nat.le_of_eq (h Kept.sqwSel)) w.sqw

theorem pending_of_kept {s t : State} (h : kept t = kept s) : t.pending = s.pending := congrArg Kept.pending h

theorem Keeps.of_wiped {s t : State} (h : Wiped s t) : Keeps s t := by
  refine ⟨h.pending, fun w => ?_⟩
  constructor
  · rw [h.bar]; rfl
  · rw [h.mpRam]; rfl
  all_goals rw [h.rtc]
  · exact w.time
  · exact w.commit
  · exact w.holdDate
  · exact w.holdTime
  · exact w.alarm
  · exact w.sqw

theorem Keeps.ite {s a b : State} {c : Prop} [Decidable c] (ha : Keeps s a) (hb : Keeps s b) : Keeps s (if c then a else b) := by
  split
  · exact ha
  · exact hb

/-- After what changes nothing that is kept. -/
theorem Keeps.of_kept_left {s t u : State} (hst : kept t = kept s) (h : Keeps t u) : Keeps s u := (Keeps.of_kept hst).trans h

/-- A change of GLB, or of the host interface, alone. -/
theorem withGlb_keeps (f : Glb → Glb) (s : State) : Keeps s (withGlb f s) := ⟨rfl, fun w => { w with }⟩

theorem withHost_keeps (f : HostIf → HostIf) (s : State) : Keeps s (withHost f s) := ⟨rfl, fun w => { w with }⟩

theorem withPcie_keeps (f : Pcie → Pcie) (s : State) : Keeps s (withPcie f s) := ⟨rfl, fun w => { w with }⟩

theorem msixUnmask_keeps (v : Nat) (s : State) : Keeps s (msixUnmask v s) := (withHost_keeps _ s).trans (.of_kept (sendPending_kept _ _))

theorem refLost_keeps (s : State) : Keeps s (refLost s) := by
  unfold refLost
  refine .ite (.refl s) (.trans (withGlb_keeps (fun g => { g with refLost := true }) s) (.ite (.refl _) (.of_kept ?_)))
  simp

theorem refReturn_keeps (s : State) : Keeps s (refReturn s) :=
  .ite (((withHost_keeps _ s).trans (withGlb_keeps _ _)).trans (.of_kept (flushTx_kept _))) (.refl s)

theorem sysReset_keeps (v : Nat) (s : State) : Keeps s (sysReset v s) := .ite (.of_wiped (wiped_internalReset _ s)) (.refl s)

theorem wdtAutoReset_keeps (s : State) : Keeps s (wdtAutoReset s) := .ite (.of_wiped (wiped_internalReset _ s)) (.refl s)

theorem fuseDone_keeps (s : State) : Keeps s (fuseDone s) := by
  unfold fuseDone
  split
  · exact .refl s
  · exact .of_kept_left (withLife_kept _ s) (.of_wiped (wiped_internalReset _ _))

theorem perstAssert_keeps (s : State) : Keeps s (perstAssert s) :=
  .ite (.refl s) (.of_wiped ((wiped_resetWith causePerst false s).setLife ⟨rfl, rfl, rfl⟩))

theorem hotReset_keeps (s : State) : Keeps s (hotReset s) := .ite (.refl s) (.of_wiped (wiped_resetWith _ false s))

theorem thermalTrip_keeps (s : State) : Keeps s (thermalTrip s) :=
  .ite (.refl s) (.of_kept_left (radiosOff_kept s) (.of_wiped ((wiped_internalReset causeThermal _).setLife ⟨rfl, rfl, rfl⟩)))

theorem supplyRemoval_keeps (aon : Bool) (s : State) : Keeps s (supplyRemoval aon s) := by
  refine .of_kept_left (settleFuses_kept s) ⟨rfl, fun w => ?_⟩
  exact { w with bar := rfl, mpRam := rfl }

/-! The battery domain. -/

/-- A change of the battery domain alone. -/
theorem Keeps.of_rtc {s : State} {f : Rtc → Rtc} (h : Sound s → Sound (withRtc f s)) : Keeps s (withRtc f s) := ⟨rfl, h⟩

theorem rtcCommit_locked {v : Word} {s : State} (hlock : s.rtc.locked = true) :
    rtcCommit v s = withRtc (fun r => { r with armed := false }) s := by
  simp [rtcCommit, withRtc, hlock]

theorem rtcCommit_keeps (v : Word) (s : State) : Keeps s (rtcCommit v s) := by
  cases hlock : s.rtc.locked with
  | true => exact rtcCommit_locked hlock ▸ .of_kept (rfl)
  | false =>
    cases hvalid : timeValid (heldTime s.rtc (bits v.toNat 0 6)) with
    | false => exact rtcCommit_refused hlock hvalid ▸ .of_kept (rfl)
    | true =>
      rw [rtcCommit_taken hlock hvalid]
      exact .of_rtc fun w => { w with commit := fun t ht => Option.some.inj ht ▸ hvalid }

theorem rtcLoad_keeps (s : State) : Keeps s (rtcLoad s) := by
  unfold rtcLoad
  split
  · exact .refl s
  · next t ht => exact .of_rtc fun w => { w with time := w.commit t ht, commit := fun _ h => nomatch h }

theorem secondTick_keeps (s : State) : Keeps s (secondTick s) := by
  unfold secondTick
  split
  · exact .refl s
  · have hn : Keeps s (withRtc (fun r =>
        { r with time := nextSecond s.rtc.time, presc := 0, sqwNew := false
                 yearWrap := r.yearWrap || (r.time.year == 399 && (nextSecond s.rtc.time).year == 0) }) s) :=
      .of_rtc fun w => { w with time := (secondAfter_nextSecond w.time).valid }
    exact .ite (hn.trans (.of_kept (alarmFires_kept _))) hn

theorem reset_sound : Sound State.reset := by
  constructor <;> decide

theorem batteryPowerUp_keeps (s : State) : Keeps s (withRtc (fun r => { ({} : Rtc) with vddGoodAt := r.vddGoodAt }) s) :=
  .of_rtc fun w =>
    { bar := w.bar, mpRam := w.mpRam, time := reset_sound.time, commit := reset_sound.commit, holdDate := reset_sound.holdDate
      holdTime := reset_sound.holdTime, alarm := reset_sound.alarm, sqw := reset_sound.sqw }

/-! Register writes. -/

theorem and_mask_and_not (v m : Word) : v &&& m &&& ~~~m = 0 := by
  simp [BitVec.and_assoc]

theorem withRtc_ite (c : Rtc → Bool) (f g : Rtc → Rtc) (s : State) :
    withRtc (fun r => if c r then f r else g r) s = if c s.rtc then withRtc f s else withRtc g s := by
  cases h : c s.rtc <;> simp [withRtc, h]

theorem writeRtc_keeps (word v : Nat) (s : State) : Keeps s (writeRtc word v s) := by
  by_cases h6 : word = 6
  · exact h6 ▸ rtcCommit_keeps _ s
  by_cases h11 : word = 11
  · exact h11 ▸ .of_kept (rtcUnlock_kept _ s)
  rw [writeRtc_field h6 h11, withRtc_ite]
  refine .ite (.of_kept (rfl)) (.of_rtc fun w => ?_)
  unfold rtcField
  split
  · exact { w with holdDate := and_mask_and_not _ _ }
  · exact { w with holdTime := and_mask_and_not _ _ }
  · refine { w with sqw := ?_ }
    change (if bits v 0 3 ≤ 4 then bits v 0 3 else 0) ≤ 4
    split <;> omega
  · exact { w with alarm := and_mask_and_not _ _ }
  all_goals exact { w with }

theorem writeMsix_keeps (i v : Nat) (s : State) : Keeps s (writeMsix i v s) := by
  unfold writeMsix
  split
  · exact withHost_keeps _ s
  · exact .ite (withHost_keeps _ s) (.ite (msixUnmask_keeps _ s) (.refl s))
  · exact withHost_keeps _ s

theorem memWrite_bar_keeps (a : Nat) (l : List Byte) (s : State) : Keeps s { s with bar := memWrite s.bar a l } :=
  ⟨rfl, fun w => { w with bar := memWrite_wf l a w.bar }⟩

theorem memWrite_mpRam_keeps (a : Nat) (l : List Byte) (s : State) : Keeps s { s with mpRam := memWrite s.mpRam a l } :=
  ⟨rfl, fun w => { w with mpRam := memWrite_wf l a w.mpRam }⟩

theorem writeLc_keeps (word v : Nat) (s : State) : Keeps s (writeLc word v s) := by
  unfold writeLc
  split
  · exact .of_kept_left (applyToken_kept v s) (sysReset_keeps v _)
  · exact .of_kept (withLife_kept _ s)
  · exact .refl s

theorem writeReg_keeps (g : Reg) (v : Nat) (s : State) : Keeps s (writeReg g v s) := by
  cases g with
  | mbxCmd a | lcToken a => exact memWrite_bar_keeps a _ s
  | fwlRam o => exact .ite (memWrite_mpRam_keeps o _ s) (.refl s)
  | rtc w => exact writeRtc_keeps w v s
  | lc w => exact writeLc_keeps w v s
  | resetCause => exact withGlb_keeps (fun x => { x with resetCause := x.resetCause &&& ~~~BitVec.ofNat 9 v }) s
  | msixWord i => exact writeMsix_keeps i v s
  | evt | route | mbxBell | cq | ring | tb | tbCapture | ppsStatus | backup | coex | fwlCtrl | glb | mbxStatus
  | mbxState | capStatus | cap | pps | fwlResult | pba => exact .of_kept (by simp [writeReg])

theorem write4_keeps (a v : Nat) (s : State) : Keeps s (write4 a v s) := by
  unfold write4
  split
  · exact .refl s
  · exact .ite (writeReg_keeps _ v s) (.refl s)

theorem barWrite_keeps (a size v : Nat) (s : State) : Keeps s (barWrite a size v s) :=
  .ite (.ite (withPcie_keeps _ s) (.refl s)) (.ite (write4_keeps a _ s) ((write4_keeps a _ s).trans (write4_keeps (a + 4) _ _)))

theorem cfgWrite_keeps (w : RegWrite) (s : State) : Keeps s (cfgWrite w s) := by
  cases w with
  | powerState d3 =>
    exact (withPcie_keeps _ s).trans (.of_kept (flushTx_kept _))
  | bar | msixEnable | functionMask | aspm | deviceControl | ecrc | aerClear => exact .of_kept (by simp [cfgWrite])

theorem regWrite_keeps (w : RegWrite) (s : State) : Keeps s (regWrite w s) := by
  unfold regWrite
  split
  · exact barWrite_keeps _ _ _ s
  · exact .ite (cfgWrite_keeps _ s) (.refl s)

/-! The rows of the block. -/

/-- A row of the block that acts while the device is live, and keeps what `Keeps` says. -/
def LiveRow (i : Instr) : Prop := ∃ f : State → State, (∀ s, exec i s = whenLive s f) ∧ ∀ s, Keeps s (f s)

theorem whenRunning_eq_whenLive (s : State) (f : State → State) :
    whenRunning s f = whenLive s fun t => if running t then f t else t := by
  unfold whenRunning whenLive
  cases hr : running s
  · simp only [hr, Bool.false_eq_true, if_false, ite_self]
  · simp [hr, running_live hr]

theorem LiveRow.of_live {i : Instr} {f : State → State} (h : ∀ s, exec i s = whenLive s f) (hf : ∀ s, Keeps s (f s)) :
    LiveRow i := ⟨f, h, hf⟩

theorem LiveRow.of_running {i : Instr} {f : State → State} (h : ∀ s, exec i s = whenRunning s f) (hf : ∀ s, Keeps s (f s)) :
    LiveRow i := by
  refine ⟨_, fun s => (h s).trans (whenRunning_eq_whenLive s f), fun s => ?_⟩
  split
  · exact hf s
  · exact .refl s

/-- A row of the time bases: none moves while they stand still. -/
theorem LiveRow.of_ticking {i : Instr} {f : State → State} (h : ∀ s, exec i s = .next (f s)) (hstill : ∀ {s}, tbRuns s = false → f s = s)
    (hf : ∀ s, Keeps s (f s)) : LiveRow i := by
  refine ⟨f, fun s => (h s).trans ?_, hf⟩
  unfold whenLive
  split
  · rfl
  · next hl => rw [hstill (by simp [tbRuns, hl])]

theorem liveRow {i : Instr} (hreset : worksInReset i = false) (hrow : mailboxRow i = none) : LiveRow i := by
  cases i with
  | registerWrite | powerOnReset | perstAssert | perstRelease | hotReset | flr | thermalTrip | thermalHoldClear | wipeEnd
  | supplyRemoval | refLost | refReturn | wurFrameRx | wurWindow | rtcSnapshotExpiry | rtcCommitLoad | rtcLock | vddIoGood
  | batteryPowerUp | rtcSecondTick | oscStop | oscResume =>
    exact nomatch hreset
  | nop | getVersion | abortCommand | hostGetCounters | radioGetState | radioSetState | radioSetChannel | radioCalibrate
  | radioSetFemMap | radioSetRamp | radioSetChain | radioRestoreChain | radioGetChain | radioGetCounters | radioRffeTransfer | phySetRx
  | phySetFormats | phyGetConfig | phyGetReport | phyReadHistory | phyGetCounters | phyTestTx | macSetBss | macSetBeacon | macSetEdca
  | macSetCca | macAddSta | macDelSta | macSetBaPolicy | macSetMld | macSetTwt | macSetUplink | macSetRetry | macGetCounters
  | macGetSta | schedSetAcWeights | schedSetBssShare | schedSetSta | schedSetLimits | schedGetFurrow | schedGetSta | schedFlushQueue
  | schedGetCounters | harrowLease | harrowRelease | harrowSubmitJob | harrowStopJob | harrowGetStatus | harrowGetCounters
  | bfSetSounding | bfSetAgeing | bfSetPrecoder | bfRecalibrate | bfSetFemRecip | bfGetCsi | bfGetGroups | bfGetStatus | bfGetCounters
  | seederGetStatus | seederSetParams | seederGetPlacement | seederReadLog | seederSetFence | seederClearFence | seederGetFence
  | seederEvaluate | seederGetCounters | ropeJoin | ropeLeave | ropeGetStatus | ropeSetKey | ropeGetMember | ropeGetPitch
  | ropeGetCounters | timeSetRole | timeSetAsym | timeSetTsf | timeSetPps | timeGetStatus | timeGetTsf | timeGetCounters
  | routerSetParams | routerSetFlow | routerDelFlow | routerGetFlow | routerSetRule | routerSetRoute | routerSetNeigh | routerSetFdb
  | routerFlushFdb | routerSetDomain | routerSetPortPair | routerSetRingGroup | routerSetHash | routerSetIndirection
  | routerSetExcLimit | routerGetCounters | routerGetRule | ethConfigurePort | ethSetFilter | ethGetStatus | ethSetFallow
  | ethGetCounters | secGetIdentity | secOpenSession | secLoadKey | secDeleteKey | secBindKey | secGetKeyState | secSetStream
  | secMacsecPort | secMacsecSetSa | secSae | sec4way | secEapol | secGetCounters | dramConfigure | dramSetPolicy | dramSetRate
  | dramRetrain | dramGetStatus | dramGetErrors | dramGetCounters | relGetStatus | cairnRestore | cairnExport | relGetCounters
  | sysGetState | sysSetMode | powerEnterBivouac | wurSetRx | wurSetMatch | wurGetStatus | wurSend | wurGetCounters =>
    exact nomatch hrow
  | harrowNop | halt | loop | br | sli | sadd | pset | xfer | xwait | swi | rti | tset | expclr | expget | idxset | mmget | move | vadd
  | vsub | vmuln | vmulcn | vmac | vmacc | vmsu | vmul0 | vdotc | vnrw | vsha | vconj | vneg | vbfly | vperm | bexp | vmaxi | vmini
  | vrcp | vrsq | vsplat | dmaTransferDone | stepTimerExpiry | interruptTaken | jobBudget | jobComplete | canaryMeasure | telemSteal
  | mbxDoorbell | completionWrite | cqHeadWrite | cqEnable | cqDisable | eventRaise | eventWrite | evtHeadWrite | evtEnable
  | evtDisable | evtLostRead | evtFilteredRead | coexGrantsRead | watchdogExpiry | coalesceTimeout | msixDeferredSend
  | hringProdWrite | hringEnable | hringDisable | hringIdle | hringResume | htxFrameFetch | hrxFrameDeliver | thermalWarn | applyToken
  | fwlStart | imageVerified | fwReady | bivouacNAssert | avsFault | avsPauseEnd | avsAck | commitPoint | responderComplete
  | hlEvaluate | hlUndo | radioTransitionEnd | radioAutoWake | synTempSample | calPendingStart | calForced | synCalEnd | channelSwitch
  | derateResearch | coexReqChange | coexPriChange | coexStuck | preambleDetect | sigValidate | searchResume | restartDecision
  | ldpcDecode | mpduRx | rxPpduEnd | txPpduStart | txUnderrun | txPpduEnd | responseTimeout | ccaChange | backoffSlot | navRtsTimeout
  | msduLifetimeExpiry | defragTimeout | reorderTimeout | tbtt | bcnDeferred | twtSpStart | uplBeaconWindowEnd | furrowLateWindow
  | llUrgent | llDeadline | ulHoldEnd | csiExpired | recipCalStart | recalForced | recipCalEnd | tbTimeRead | tbCaptureGo
  | tbMasterTimeout | ppsInEdge | ppsInLost | ppsOutEdge | ppsOutFall | launchJudge | launchInstant | routerClassify | flowAgeCheck
  | fdbAge | ethFrameRx | pauseRx | pauseEnd | ethFrameTx | launchWireHold | ethLinkUp | ethLinkDown | preemptVerify | capsSend | caps
  | fallowCapsTimeout | fallowDownTrigger | fallowUpTrigger | stepReq | stepAck | stepNak | stepReqTimeout | ethFallow | cipherFrame
  | keyHoldTimeout | saeContextTimeout | alertFall | alertRise | refDue | refIssue | refPullIn | tempRead | zqCal | retrainDue
  | retrainStart | retrainDone | rtcTime0Read | rtcTime2Read | rtcUnlock | gleanerAccess | gleanerPassEnd | gleanerEscalate
  | arrayWriteback | ternaryRepair | canarySample | stressSample | marginReplan | gainCal | navExpiry | laneWipeDone | rateChange
  | respondMpacket | trngHealthFail =>
    exact .of_live (fun _ => rfl) fun s => .of_kept (by simp)
  | jobStart | canaryReplan | radioStateApply | wurCopyDue | addbaRequest | twtSetupRequest | saQuery | furrowBuildStart | furrowReady
  | coordTxopStart | soundingFeedback | recipCalRequest | groupRebuild | seederEvaluation | seederOverload | forcedReplacement
  | surveyDwell | surveySkip | steerResponse | steerTimeout | belaySend | belay | belayWindowClose | joinReqSend | joinTimeout
  | ropeForm | reportSend | helloSend | clientsSend | memberTimeout | tReqSend | tRespSend | timeExchLost | timeServoStep
  | proposalSend | proposalCutoff | planSend | coordSlotStart | keyPhaseExpiry | exceptionDeliver | fragmentSlowPath | slowFragTimeout
  | dramInitDone | cairnReady | surveyDwellEnd =>
    exact .of_running (fun _ => rfl) fun s => .of_kept (by simp)
  | joinReq | joinAck | joinConfirm | leave | rosterReq | roster | report | hello | clients | tReq | tResp | proposal | plan =>
    exact .of_running (fun _ => rfl) fun s => .of_kept (knRx_kept (by simp) s)
  | dramRead | dramWrite | weakRegionScrub =>
    refine .of_live (fun _ => rfl) fun s => .of_kept ?_
    split <;> simp
  | sysReset v => exact .of_live (fun _ => rfl) (sysReset_keeps v.toNat)
  | wdtAutoReset => exact .of_live (fun _ => rfl) wdtAutoReset_keeps
  | fuseProgramDone => exact .of_live (fun _ => rfl) fuseDone_keeps
  | msixUnmask v => exact .of_live (fun _ => rfl) (msixUnmask_keeps v)
  | rtcCommit v => exact .of_live (fun _ => rfl) (rtcCommit_keeps v)
  | tbCmdSet n v => exact .of_ticking (fun _ => rfl) (fun h => if_pos (by simp [h])) fun s => .of_kept (by simp)
  | tbCmdAdj n v => exact .of_ticking (fun _ => rfl) (fun h => if_pos (by simp [h])) fun s => .of_kept (by simp)
  | tbIncCommit n v => exact .of_ticking (fun _ => rfl) (fun h => if_pos (by simp [h])) fun s => .of_kept (by simp)
  | tbDitherCommit n v => exact .of_ticking (fun _ => rfl) (fun h => if_pos (by simp [h])) fun s => .of_kept (by simp)
  | tbSaturate n => exact .of_ticking (fun _ => rfl) (fun h => if_neg (by simp [h])) fun s => .of_kept (by simp)

end Sys2Proof.Machine
end

section
/-!
SUPPORT. The mailbox rows, and the statements about the whole block: every command answers, and keeps the state sound.
-/
namespace Sys2Proof.Machine
open Sys2Proof

/-! The mailbox commands. -/

theorem execNop_defined {m : Fin 8} {buf : List Byte} {s : State}
    (h : ∀ r, running s = true → nextCmd (vget s.host.mbx m).cmds = some r → opcodeDefined (hdrOpcode r) = true) :
    execNop m buf s = command nopForm m buf s nopRun := by
  unfold execNop
  split
  · next r hr =>
    refine if_neg ?_
    cases hrun : running s
    · simp
    · simp [h r hrun hr]
  · next hr =>
    unfold command
    simp [hr]

/-- A mailbox row is a `command`, NOP where the next command's opcode is a defined one. -/
theorem exec_mailboxRow {i : Instr} {m : Fin 8} {buf : List Byte} {f : Form} {run : Cmd → State → Effect}
    (h : mailboxRow i = some (m, buf, f, run)) :
    (∀ s, exec i s = command f m buf s run) ∨ (i = .nop m buf ∧ f = nopForm ∧ run = nopRun) := by
  cases i with
  | nop m buf =>
    cases h
    exact .inr ⟨rfl, rfl, rfl⟩
  | getVersion | abortCommand | hostGetCounters | radioGetState | radioSetState | radioSetChannel | radioCalibrate | radioSetFemMap
  | radioSetRamp | radioSetChain | radioRestoreChain | radioGetChain | radioGetCounters | radioRffeTransfer | phySetRx | phySetFormats
  | phyGetConfig | phyGetReport | phyReadHistory | phyGetCounters | phyTestTx | macSetBss | macSetBeacon | macSetEdca | macSetCca
  | macAddSta | macDelSta | macSetBaPolicy | macSetMld | macSetTwt | macSetUplink | macSetRetry | macGetCounters | macGetSta
  | schedSetAcWeights | schedSetBssShare | schedSetSta | schedSetLimits | schedGetFurrow | schedGetSta | schedFlushQueue
  | schedGetCounters | harrowLease | harrowRelease | harrowSubmitJob | harrowStopJob | harrowGetStatus | harrowGetCounters
  | bfSetSounding | bfSetAgeing | bfSetPrecoder | bfRecalibrate | bfSetFemRecip | bfGetCsi | bfGetGroups | bfGetStatus | bfGetCounters
  | seederGetStatus | seederSetParams | seederGetPlacement | seederReadLog | seederSetFence | seederClearFence | seederGetFence
  | seederEvaluate | seederGetCounters | ropeJoin | ropeLeave | ropeGetStatus | ropeSetKey | ropeGetMember | ropeGetPitch
  | ropeGetCounters | timeSetRole | timeSetAsym | timeSetTsf | timeSetPps | timeGetStatus | timeGetTsf | timeGetCounters
  | routerSetParams | routerSetFlow | routerDelFlow | routerGetFlow | routerSetRule | routerSetRoute | routerSetNeigh | routerSetFdb
  | routerFlushFdb | routerSetDomain | routerSetPortPair | routerSetRingGroup | routerSetHash | routerSetIndirection
  | routerSetExcLimit | routerGetCounters | routerGetRule | ethConfigurePort | ethSetFilter | ethGetStatus | ethSetFallow
  | ethGetCounters | secGetIdentity | secOpenSession | secLoadKey | secDeleteKey | secBindKey | secGetKeyState | secSetStream
  | secMacsecPort | secMacsecSetSa | secSae | sec4way | secEapol | secGetCounters | dramConfigure | dramSetPolicy | dramSetRate
  | dramRetrain | dramGetStatus | dramGetErrors | dramGetCounters | relGetStatus | cairnRestore | cairnExport | relGetCounters
  | sysGetState | sysSetMode | powerEnterBivouac | wurSetRx | wurSetMatch | wurGetStatus | wurSend | wurGetCounters =>
    cases h
    exact .inl fun _ => rfl
  | harrowNop | halt | loop | br | sli | sadd | pset | xfer | xwait | swi | rti | tset | expclr | expget | idxset | mmget | move | vadd
  | vsub | vmuln | vmulcn | vmac | vmacc | vmsu | vmul0 | vdotc | vnrw | vsha | vconj | vneg | vbfly | vperm | bexp | vmaxi | vmini
  | vrcp | vrsq | vsplat | dmaTransferDone | stepTimerExpiry | interruptTaken | jobBudget | jobStart | jobComplete | canaryMeasure
  | telemSteal | mbxDoorbell | completionWrite | cqHeadWrite | cqEnable | cqDisable | eventRaise | eventWrite | evtHeadWrite
  | evtEnable | evtDisable | evtLostRead | evtFilteredRead | coexGrantsRead | watchdogExpiry | coalesceTimeout | msixDeferredSend
  | msixUnmask | hringProdWrite | hringEnable | hringDisable | hringIdle | hringResume | htxFrameFetch | hrxFrameDeliver
  | registerWrite | powerOnReset | perstAssert | perstRelease | hotReset | flr | sysReset | wdtAutoReset | thermalTrip
  | thermalHoldClear | thermalWarn | wipeEnd | applyToken | fuseProgramDone | fwlStart | imageVerified | fwReady | bivouacNAssert
  | supplyRemoval | canaryReplan | avsFault | avsPauseEnd | avsAck | refLost | refReturn | commitPoint | responderComplete | hlEvaluate
  | hlUndo | radioStateApply | radioTransitionEnd | radioAutoWake | synTempSample | calPendingStart | calForced | synCalEnd
  | channelSwitch | derateResearch | coexReqChange | coexPriChange | coexStuck | preambleDetect | sigValidate | searchResume
  | restartDecision | ldpcDecode | mpduRx | rxPpduEnd | txPpduStart | txUnderrun | txPpduEnd | wurFrameRx | wurWindow | wurCopyDue
  | responseTimeout | ccaChange | backoffSlot | navRtsTimeout | msduLifetimeExpiry | defragTimeout | reorderTimeout | addbaRequest
  | twtSetupRequest | saQuery | tbtt | bcnDeferred | twtSpStart | uplBeaconWindowEnd | furrowBuildStart | furrowReady
  | furrowLateWindow | llUrgent | llDeadline | ulHoldEnd | coordTxopStart | soundingFeedback | csiExpired | recipCalRequest
  | recipCalStart | recalForced | recipCalEnd | groupRebuild | seederEvaluation | seederOverload | forcedReplacement | surveyDwell
  | surveySkip | steerResponse | steerTimeout | belaySend | belay | belayWindowClose | joinReq | joinReqSend | joinAck | joinConfirm
  | joinTimeout | ropeForm | leave | rosterReq | roster | report | reportSend | hello | helloSend | clients | clientsSend
  | memberTimeout | tReqSend | tReq | tRespSend | tResp | timeExchLost | timeServoStep | proposalSend | proposal | proposalCutoff
  | planSend | plan | coordSlotStart | keyPhaseExpiry | tbCmdSet | tbCmdAdj | tbIncCommit | tbDitherCommit | tbTimeRead | tbCaptureGo
  | tbSaturate | tbMasterTimeout | ppsInEdge | ppsInLost | ppsOutEdge | ppsOutFall | launchJudge | launchInstant | routerClassify
  | exceptionDeliver | fragmentSlowPath | slowFragTimeout | flowAgeCheck | fdbAge | ethFrameRx | pauseRx | pauseEnd | ethFrameTx
  | launchWireHold | ethLinkUp | ethLinkDown | preemptVerify | capsSend | caps | fallowCapsTimeout | fallowDownTrigger
  | fallowUpTrigger | stepReq | stepAck | stepNak | stepReqTimeout | ethFallow | cipherFrame | keyHoldTimeout | saeContextTimeout
  | dramInitDone | dramRead | dramWrite | alertFall | alertRise | refDue | refIssue | refPullIn | tempRead | zqCal | retrainDue
  | retrainStart | retrainDone | rtcTime0Read | rtcTime2Read | rtcSnapshotExpiry | rtcCommit | rtcCommitLoad | rtcUnlock | rtcLock
  | vddIoGood | batteryPowerUp | rtcSecondTick | oscStop | oscResume | gleanerAccess | gleanerPassEnd | gleanerEscalate
  | weakRegionScrub | arrayWriteback | ternaryRepair | canarySample | stressSample | marginReplan | gainCal | cairnReady | navExpiry
  | laneWipeDone | surveyDwellEnd | rateChange | respondMpacket | trngHealthFail =>
    cases h

/-- The run of a mailbox command keeps what the layer above speaks of. -/
theorem run_kept {i : Instr} {m : Fin 8} {buf : List Byte} {f : Form} {run : Cmd → State → Effect} (h : mailboxRow i = some (m, buf, f, run))
    (c : Cmd) (s : State) : kept ((run c s).after s) = kept s := by
  cases i with
  | nop => cases h; simp [nopRun]
  | getVersion | abortCommand | hostGetCounters | radioGetState | radioSetState | radioSetChannel | radioCalibrate | radioSetFemMap
  | radioSetRamp | radioSetChain | radioRestoreChain | radioGetChain | radioGetCounters | radioRffeTransfer | phySetRx | phySetFormats
  | phyGetConfig | phyGetReport | phyReadHistory | phyGetCounters | phyTestTx | macSetBss | macSetBeacon | macSetEdca | macSetCca
  | macAddSta | macDelSta | macSetBaPolicy | macSetMld | macSetTwt | macSetUplink | macSetRetry | macGetCounters | macGetSta
  | schedSetAcWeights | schedSetBssShare | schedSetSta | schedSetLimits | schedGetFurrow | schedGetSta | schedFlushQueue
  | schedGetCounters | harrowLease | harrowRelease | harrowSubmitJob | harrowStopJob | harrowGetStatus | harrowGetCounters
  | bfSetSounding | bfSetAgeing | bfSetPrecoder | bfRecalibrate | bfSetFemRecip | bfGetCsi | bfGetGroups | bfGetStatus | bfGetCounters
  | seederGetStatus | seederSetParams | seederGetPlacement | seederReadLog | seederSetFence | seederClearFence | seederGetFence
  | seederEvaluate | seederGetCounters | ropeJoin | ropeLeave | ropeGetStatus | ropeSetKey | ropeGetMember | ropeGetPitch
  | ropeGetCounters | timeSetRole | timeSetAsym | timeSetTsf | timeSetPps | timeGetStatus | timeGetTsf | timeGetCounters
  | routerSetParams | routerSetFlow | routerDelFlow | routerGetFlow | routerSetRule | routerSetRoute | routerSetNeigh | routerSetFdb
  | routerFlushFdb | routerSetDomain | routerSetPortPair | routerSetRingGroup | routerSetHash | routerSetIndirection
  | routerSetExcLimit | routerGetCounters | routerGetRule | ethConfigurePort | ethSetFilter | ethGetStatus | ethSetFallow
  | ethGetCounters | secGetIdentity | secOpenSession | secLoadKey | secDeleteKey | secBindKey | secGetKeyState | secSetStream
  | secMacsecPort | secMacsecSetSa | secSae | sec4way | secEapol | secGetCounters | dramConfigure | dramSetPolicy | dramSetRate
  | dramRetrain | dramGetStatus | dramGetErrors | dramGetCounters | relGetStatus | cairnRestore | cairnExport | relGetCounters
  | sysGetState | sysSetMode | powerEnterBivouac | wurSetRx | wurSetMatch | wurGetStatus | wurSend | wurGetCounters =>
    cases h
    simp
  | harrowNop | halt | loop | br | sli | sadd | pset | xfer | xwait | swi | rti | tset | expclr | expget | idxset | mmget | move | vadd
  | vsub | vmuln | vmulcn | vmac | vmacc | vmsu | vmul0 | vdotc | vnrw | vsha | vconj | vneg | vbfly | vperm | bexp | vmaxi | vmini
  | vrcp | vrsq | vsplat | dmaTransferDone | stepTimerExpiry | interruptTaken | jobBudget | jobStart | jobComplete | canaryMeasure
  | telemSteal | mbxDoorbell | completionWrite | cqHeadWrite | cqEnable | cqDisable | eventRaise | eventWrite | evtHeadWrite
  | evtEnable | evtDisable | evtLostRead | evtFilteredRead | coexGrantsRead | watchdogExpiry | coalesceTimeout | msixDeferredSend
  | msixUnmask | hringProdWrite | hringEnable | hringDisable | hringIdle | hringResume | htxFrameFetch | hrxFrameDeliver
  | registerWrite | powerOnReset | perstAssert | perstRelease | hotReset | flr | sysReset | wdtAutoReset | thermalTrip
  | thermalHoldClear | thermalWarn | wipeEnd | applyToken | fuseProgramDone | fwlStart | imageVerified | fwReady | bivouacNAssert
  | supplyRemoval | canaryReplan | avsFault | avsPauseEnd | avsAck | refLost | refReturn | commitPoint | responderComplete | hlEvaluate
  | hlUndo | radioStateApply | radioTransitionEnd | radioAutoWake | synTempSample | calPendingStart | calForced | synCalEnd
  | channelSwitch | derateResearch | coexReqChange | coexPriChange | coexStuck | preambleDetect | sigValidate | searchResume
  | restartDecision | ldpcDecode | mpduRx | rxPpduEnd | txPpduStart | txUnderrun | txPpduEnd | wurFrameRx | wurWindow | wurCopyDue
  | responseTimeout | ccaChange | backoffSlot | navRtsTimeout | msduLifetimeExpiry | defragTimeout | reorderTimeout | addbaRequest
  | twtSetupRequest | saQuery | tbtt | bcnDeferred | twtSpStart | uplBeaconWindowEnd | furrowBuildStart | furrowReady
  | furrowLateWindow | llUrgent | llDeadline | ulHoldEnd | coordTxopStart | soundingFeedback | csiExpired | recipCalRequest
  | recipCalStart | recalForced | recipCalEnd | groupRebuild | seederEvaluation | seederOverload | forcedReplacement | surveyDwell
  | surveySkip | steerResponse | steerTimeout | belaySend | belay | belayWindowClose | joinReq | joinReqSend | joinAck | joinConfirm
  | joinTimeout | ropeForm | leave | rosterReq | roster | report | reportSend | hello | helloSend | clients | clientsSend
  | memberTimeout | tReqSend | tReq | tRespSend | tResp | timeExchLost | timeServoStep | proposalSend | proposal | proposalCutoff
  | planSend | plan | coordSlotStart | keyPhaseExpiry | tbCmdSet | tbCmdAdj | tbIncCommit | tbDitherCommit | tbTimeRead | tbCaptureGo
  | tbSaturate | tbMasterTimeout | ppsInEdge | ppsInLost | ppsOutEdge | ppsOutFall | launchJudge | launchInstant | routerClassify
  | exceptionDeliver | fragmentSlowPath | slowFragTimeout | flowAgeCheck | fdbAge | ethFrameRx | pauseRx | pauseEnd | ethFrameTx
  | launchWireHold | ethLinkUp | ethLinkDown | preemptVerify | capsSend | caps | fallowCapsTimeout | fallowDownTrigger
  | fallowUpTrigger | stepReq | stepAck | stepNak | stepReqTimeout | ethFallow | cipherFrame | keyHoldTimeout | saeContextTimeout
  | dramInitDone | dramRead | dramWrite | alertFall | alertRise | refDue | refIssue | refPullIn | tempRead | zqCal | retrainDue
  | retrainStart | retrainDone | rtcTime0Read | rtcTime2Read | rtcSnapshotExpiry | rtcCommit | rtcCommitLoad | rtcUnlock | rtcLock
  | vddIoGood | batteryPowerUp | rtcSecondTick | oscStop | oscResume | gleanerAccess | gleanerPassEnd | gleanerEscalate
  | weakRegionScrub | arrayWriteback | ternaryRepair | canarySample | stressSample | marginReplan | gainCal | cairnReady | navExpiry
  | laneWipeDone | surveyDwellEnd | rateChange | respondMpacket | trngHealthFail =>
    cases h

theorem command_keeps {run : Cmd → State → Effect} (hrun : ∀ c s, kept ((run c s).after s) = kept s) (f : Form) (m : Nat) (buf : List Byte)
    (s : State) : ∃ t, command f m buf s run = .next t ∧ Keeps s t := by
  unfold command
  split
  · exact ⟨s, rfl, .refl s⟩
  split
  · exact ⟨s, rfl, .refl s⟩
  next r _ =>
  split
  · exact ⟨s, rfl, .refl s⟩
  extract_lets ps
  split
  · exact ⟨_, rfl, .of_kept (finish_kept _ _ _ s)⟩
  generalize he : run _ _ = e
  have hafter : kept (e.after (setPhase r.handle .running s)) = kept s := he ▸ (hrun _ _).trans (setPhase_kept r.handle .running s)
  cases e with
  | fail st => exact ⟨_, rfl, .of_kept (finish_kept _ _ _ s)⟩
  | complete st data t => exact ⟨_, rfl, .of_kept ((finish_kept _ _ _ _).trans hafter)⟩
  | ahead st data t => exact ⟨_, rfl, .of_kept ((finishAhead_kept _ _ _ _).trans hafter)⟩
  | hold t => exact ⟨_, rfl, .of_kept hafter⟩

theorem execNop_keeps (m : Fin 8) (buf : List Byte) (s : State) : ∃ t, execNop m buf s = .next t ∧ Keeps s t := by
  unfold execNop
  split
  · split
    · exact ⟨_, rfl, .of_kept (finish_kept _ _ _ s)⟩
    · exact command_keeps (fun c s => by simp [nopRun]) nopForm m buf s
  · exact ⟨s, rfl, .refl s⟩

theorem exec_keeps_works {i : Instr} (h : worksInReset i = true) (s : State) : ∃ t, exec i s = .next t ∧ Keeps s t := by
  cases i with
  | powerOnReset => exact ⟨_, rfl, .of_wiped (wiped_powerOnReset s)⟩
  | perstAssert => exact ⟨_, rfl, perstAssert_keeps s⟩
  | perstRelease => exact ⟨_, rfl, .of_kept (by simp)⟩
  | hotReset => exact ⟨_, rfl, hotReset_keeps s⟩
  | flr => exact ⟨_, rfl, .ite (.of_wiped (wiped_flr s)) (.refl s)⟩
  | thermalTrip => exact ⟨_, rfl, thermalTrip_keeps s⟩
  | thermalHoldClear => exact ⟨_, rfl, .of_kept (by simp)⟩
  | wipeEnd => exact ⟨_, rfl, .of_kept (wipeEnd_kept s)⟩
  | supplyRemoval aon => exact ⟨_, rfl, supplyRemoval_keeps aon s⟩
  | refLost => exact ⟨_, rfl, refLost_keeps s⟩
  | refReturn => exact ⟨_, rfl, refReturn_keeps s⟩
  | registerWrite w => exact ⟨_, rfl, regWrite_keeps w s⟩
  | rtcCommitLoad => exact ⟨_, rfl, rtcLoad_keeps s⟩
  | rtcSecondTick => exact ⟨_, rfl, secondTick_keeps s⟩
  | batteryPowerUp => exact ⟨_, rfl, batteryPowerUp_keeps s⟩
  | rtcSnapshotExpiry | rtcLock | vddIoGood | oscStop | oscResume => exact ⟨_, rfl, .of_kept (rfl)⟩
  | wurFrameRx f => exact ⟨_, rfl, .of_kept (wurFrameRx_kept f s)⟩
  | wurWindow isOpen => exact ⟨_, rfl, .of_kept (wurWindow_kept isOpen s)⟩
  | _ => cases h

/-- Every row of the block answers a next state, and keeps what `Keeps` says. -/
theorem exec_keeps (i : Instr) (s : State) : ∃ t, exec i s = .next t ∧ Keeps s t := by
  cases hreset : worksInReset i with
  | true => exact exec_keeps_works hreset s
  | false =>
    cases hrow : mailboxRow i with
    | some row =>
      obtain ⟨m, buf, f, run⟩ := row
      obtain hexec | ⟨rfl, rfl, rfl⟩ := exec_mailboxRow hrow
      · rw [hexec]
        exact command_keeps (run_kept hrow) f m buf s
      · exact execNop_keeps m buf s
    | none =>
      obtain ⟨f, hexec, hf⟩ := liveRow hreset hrow
      exact ⟨_, hexec s, .ite (hf s) (.refl s)⟩

/-- Settles O55: each row by the layer of its kind: of reset and battery domain, of a mailbox, of the live device. -/
theorem everyCommandAnswers : Obligations.EveryCommandAnswers := by
  unfold Obligations.EveryCommandAnswers
  intro i s
  obtain ⟨t, hexec, hkeeps⟩ := exec_keeps i s
  exact ⟨t, hexec, hkeeps.pending⟩

/-- Settles O60: a tick keeps the memories and the battery domain as they are, a command keeps them sound. -/
theorem everyStepKeepsSound : Obligations.EveryStepKeepsSound := by
  unfold Obligations.EveryStepKeepsSound
  intro s t hs hstep
  cases hq : s.pending with
  | nil =>
    cases (step_nil hq).symm.trans hstep
    exact (Keeps.of_kept (tick_kept s)).sound hs
  | cons c rest =>
    obtain ⟨u, hexec, hkeeps⟩ := exec_keeps c { s with pending := rest }
    cases ((step_cons hq).trans hexec).symm.trans hstep
    exact hkeeps.sound { hs with }

/-- Settles O59: its memories are empty, its calendar at 2000-01-01. -/
theorem resetIsSound : Obligations.ResetIsSound := reset_sound

/-- Settles O54: the two arms of `step`. -/
theorem stepTakesTheFrontCommand : Obligations.StepTakesTheFrontCommand := ⟨fun _ _ _ => step_cons, fun _ => step_nil⟩

theorem command_notRunning {f : Form} {m : Nat} {buf : List Byte} {s : State} (run : Cmd → State → Effect) (h : running s = false) :
    command f m buf s run = .next s := if_pos (by simp [h])

/-- Settles O58: outside the reset's reach Builmin does not run, and no row of the live device acts. -/
theorem heldInReset : Obligations.HeldInReset := by
  unfold Obligations.HeldInReset
  intro i s hlive hreset
  have hrunning : running s = false := by simp [running, hlive]
  cases hrow : mailboxRow i with
  | some row =>
    obtain ⟨m, buf, f, run⟩ := row
    obtain hexec | ⟨rfl, -, -⟩ := exec_mailboxRow hrow
    · rw [hexec, command_notRunning run hrunning]
    · exact (execNop_defined (by simp [hrunning])).trans (command_notRunning nopRun hrunning)
  | none =>
    obtain ⟨f, hexec, -⟩ := liveRow hreset hrow
    rw [hexec, whenLive_dead hlive]

end Sys2Proof.Machine
end

section
/-!
SUPPORT. The order in which a mailbox command is checked (R45).
-/
namespace Sys2Proof.Machine
open Sys2Proof

/-- A mailbox row whose next command, if there is one, has a defined opcode. -/
theorem exec_mailboxRow_defined {i : Instr} {m : Fin 8} {buf : List Byte} {f : Form} {run : Cmd → State → Effect} {s : State}
    (hrow : mailboxRow i = some (m, buf, f, run))
    (h : ∀ r, running s = true → nextCmd (vget s.host.mbx m).cmds = some r → opcodeDefined (hdrOpcode r) = true) :
    exec i s = command f m buf s run := by
  obtain hexec | ⟨rfl, rfl, rfl⟩ := exec_mailboxRow hrow
  · exact hexec s
  · exact execNop_defined h

/-- Where the next command has the row's own opcode. -/
theorem exec_mailboxRow_own {i : Instr} {m : Fin 8} {buf : List Byte} {f : Form} {run : Cmd → State → Effect} {s : State} {r : CmdRec}
    (hrow : mailboxRow i = some (m, buf, f, run)) (hnext : nextCmd (vget s.host.mbx m).cmds = some r) (hop : hdrOpcode r = f.opcode) :
    exec i s = command f m buf s run := by
  obtain hexec | ⟨rfl, rfl, rfl⟩ := exec_mailboxRow hrow
  · exact hexec s
  · refine execNop_defined fun q _ hq => ?_
    rw [hnext] at hq
    rw [← Option.some.inj hq, hop]
    decide

theorem command_idle {f : Form} {m : Nat} {buf : List Byte} {s : State} (run : Cmd → State → Effect)
    (h : running s = false ∨ nextCmd (vget s.host.mbx m).cmds = none) : command f m buf s run = .next s := by
  unfold command
  split
  · rfl
  · next hrun =>
    rw [h.resolve_left (by simpa using hrun)]

/-! The checks in their order. -/

theorem cmdCheck_length {f : Form} {r : CmdRec} {ps : List Byte} {s : State} (h : lengthOk f r ps = false) :
    cmdCheck f r ps s = some .badLength := by simp [cmdCheck, h]

theorem cmdCheck_param {f : Form} {r : CmdRec} {ps : List Byte} {s : State} (hlen : lengthOk f r ps = true)
    (h : paramOk f r ps = false) : cmdCheck f r ps s = some .badParam := by simp [cmdCheck, hlen, h]

theorem cmdCheck_dram {f : Form} {r : CmdRec} {ps : List Byte} {s : State} (hlen : lengthOk f r ps = true) (hparam : paramOk f r ps = true)
    (h : needsDram f.opcode = true) (hdram : s.dram.ready = false) : cmdCheck f r ps s = some .wrongState := by
  simp [cmdCheck, hlen, hparam, h, hdram]

theorem cmdCheck_passes {f : Form} {r : CmdRec} {ps : List Byte} {s : State} (hlen : lengthOk f r ps = true) (hparam : paramOk f r ps = true)
    (h : needsDram f.opcode = true → s.dram.ready = true) : cmdCheck f r ps s = none := by
  cases hneed : needsDram f.opcode
  · simp [cmdCheck, hlen, hparam, hneed]
  · simp [cmdCheck, hlen, hparam, hneed, h hneed]

/-- Settles O56: the row is a `command`, whose checks stand in the order of R45. -/
theorem commandsAreCheckedInOrder : Obligations.CommandsAreCheckedInOrder := by
  unfold Obligations.CommandsAreCheckedInOrder
  intro i m buf f run hrow s
  refine ⟨fun hidle => ?idle, fun r hrun hnext => ?_⟩
  case idle =>
    rw [exec_mailboxRow_defined hrow fun r hr hn => ?_]
    · exact command_idle run hidle
    · obtain h | h := hidle <;> simp_all
  intro ps ends passes
  have ends_of (hop : hdrOpcode r = f.opcode) (st : Status) (h : cmdCheck f r ps s = some st) : ends st :=
    (exec_mailboxRow_own hrow hnext hop).trans (command_failed run hrun hnext hop h)
  have ready : passes → Ready f m buf r s := fun ⟨hop, hlen, hparam, hdram⟩ => ⟨hrun, hnext, hop, cmdCheck_passes hlen hparam hdram⟩
  have runs (hp : passes) := (exec_mailboxRow_own hrow hnext hp.1).trans (command_ready run (ready hp))
  refine ⟨fun hundef => ?undefined, fun hdef hop => ?other, fun hop hlen => ends_of hop _ (cmdCheck_length hlen),
    fun hop hlen hparam => ends_of hop _ (cmdCheck_param hlen hparam),
    fun hop hlen hparam hneed hdram => ends_of hop _ (cmdCheck_dram hlen hparam hneed hdram), fun st hp he => ?fails,
    fun st data t hp he => ?completes, fun t hp he => ?holds⟩
  case undefined =>
    change execNop m buf s = _
    unfold execNop
    rw [hnext]
    exact if_pos (by simp [hrun, hundef])
  case other =>
    rw [exec_mailboxRow_defined hrow fun q _ hq => ?_]
    · refine command_other run fun q hq => ?_
      rwa [← Option.some.inj (hnext.symm.trans hq)]
    · rwa [← Option.some.inj (hnext.symm.trans hq)]
  case fails => exact (runs hp).trans (by rw [he])
  case completes => exact (runs hp).trans (by rw [he])
  case holds => exact (runs hp).trans (by rw [he])

end Sys2Proof.Machine
end

section
/-!
SUPPORT. The register map of BAR0, and a four-byte write that R34 allows.
-/
namespace Sys2Proof.Machine
open Sys2Proof

/-! The register map. -/

theorem regAt_low {a : Nat} (h : a < 0x200000) : regAt a = lowReg a := if_pos h

theorem regAt_high {a : Nat} (h : 0x200000 ≤ a) : regAt a = highReg a := if_neg (by omega)

theorem regAt_route {i : Nat} (h : i < 137) : regAt (0x1100 + 4 * i) = some (.route i) := by
  have hi : (0x1100 + 4 * i - 0x1100) / 4 = i := by omega
  rw [regAt_low (by omega)]
  unfold lowReg
  iterate 3 rw [if_neg (by omega)]
  rw [if_pos (by omega), hi]

theorem lowReg_mbx {a : Nat} (h : 0x10000 ≤ a ∧ a < 0x18000) :
    lowReg a = if a % 0x1000 < 0x100 then some (.mbxCmd a) else if a % 0x1000 = 0x100 then some (.mbxBell ((a - 0x10000) / 0x1000))
      else if a % 0x1000 = 0x104 then some (.mbxStatus ((a - 0x10000) / 0x1000))
      else if a % 0x1000 = 0x108 then some (.mbxState ((a - 0x10000) / 0x1000)) else none := by
  unfold lowReg
  iterate 4 rw [if_neg (by omega)]
  rw [if_pos h]

theorem regAt_mbxCmd {a : Nat} (h : 0x10000 ≤ a ∧ a < 0x18000) (ho : a % 0x1000 < 0x100) : regAt a = some (.mbxCmd a) := by
  rw [regAt_low (by omega), lowReg_mbx h, if_pos ho]

theorem regAt_mbxBell {m : Nat} (h : m < 8) : regAt (0x10100 + 0x1000 * m) = some (.mbxBell m) := by
  have hm : (0x10100 + 0x1000 * m - 0x10000) / 0x1000 = m := by omega
  rw [regAt_low (by omega), lowReg_mbx (by omega), if_neg (by omega), if_pos (by omega), hm]

theorem regAt_cq {a q w : Nat} (hq : q < 8) (hw : w ≤ 6) (ha : a = 0x20000 + 64 * q + 4 * w) : regAt a = some (.cq q w) := by
  subst ha
  have hn : (0x20000 + 64 * q + 4 * w - 0x20000) / 64 = q ∧ (0x20000 + 64 * q + 4 * w) % 64 / 4 = w := by omega
  rw [regAt_low (by omega)]
  unfold lowReg
  iterate 5 rw [if_neg (by omega)]
  rw [if_pos (by omega), if_pos (by omega), hn.1, hn.2]

/-- Base of the transmit rings or of the receive rings (Table 2.2). -/
def ringBase (tx : Bool) : Nat := if tx then 0x100000 else 0x101000

theorem regAt_ring {tx : Bool} {a n w : Nat} (hn : n < 64) (hw : w ≤ 6) (ha : a = ringBase tx + 64 * n + 4 * w) :
    regAt a = some (.ring tx n w) := by
  subst ha
  have hbase : ringBase tx = 0x100000 ∧ tx = true ∨ ringBase tx = 0x101000 ∧ tx = false := by cases tx <;> simp [ringBase]
  generalize ringBase tx = b at hbase
  have hfields : (b + 64 * n + 4 * w) % 0x1000 / 64 = n ∧ (b + 64 * n + 4 * w) % 64 / 4 = w ∧
      decide (b + 64 * n + 4 * w < 0x101000) = tx := by
    obtain ⟨rfl, rfl⟩ | ⟨rfl, rfl⟩ := hbase <;> refine ⟨by omega, by omega, ?_⟩
    · exact decide_eq_true (by omega)
    · exact decide_eq_false (by omega)
  rw [regAt_low (by omega)]
  unfold lowReg
  iterate 6 rw [if_neg (by omega)]
  rw [if_pos (by omega), if_pos (by omega), hfields.1, hfields.2.1, hfields.2.2]

theorem regAt_tb {a n w : Nat} (hn : n < 4) (hw : w < 16) (ha : a = 0x200000 + 64 * n + 4 * w) : regAt a = some (.tb n w) := by
  subst ha
  have hfields : (0x200000 + 64 * n + 4 * w - 0x200000) / 64 = n ∧ (0x200000 + 64 * n + 4 * w) % 64 / 4 = w := by omega
  rw [regAt_high (by omega)]
  unfold highReg
  rw [if_pos (by omega), hfields.1, hfields.2]

theorem regAt_backup {i : Nat} (h : i < 16) : regAt (0x201040 + 4 * i) = some (.backup (4 * i)) := by
  have hi : 0x201040 + 4 * i - 0x201040 = 4 * i := by omega
  rw [regAt_high (by omega)]
  unfold highReg
  iterate 7 rw [if_neg (by omega)]
  rw [if_pos (by omega), hi]

theorem regAt_lcToken {a : Nat} (h : 0x203200 ≤ a ∧ a < 0x203400) : regAt a = some (.lcToken a) := by
  rw [regAt_high (by omega)]
  unfold highReg
  iterate 10 rw [if_neg (by omega)]
  rw [if_pos h]

theorem regAt_fwlRam_low {o : Nat} (h : o < 0x7F000) : regAt (0x300000 + o) = some (.fwlRam o) := by
  have ho : 0x300000 + o - fwlBase = o := by unfold fwlBase; omega
  rw [regAt_high (by omega)]
  unfold highReg
  rw [ho]
  unfold fwlBase fwlEnd fwlTop
  iterate 11 rw [if_neg (by omega)]
  rw [if_pos (by omega)]

theorem regAt_fwlRam_high {o : Nat} (hlo : 0x7F000 ≤ o) (h : o < 0x7FF000) : regAt (0x301000 + o) = some (.fwlRam o) := by
  have ho : 0x301000 + o - fwlBase - 0x1000 = o := by unfold fwlBase; omega
  rw [regAt_high (by omega)]
  unfold highReg
  rw [ho]
  unfold fwlBase fwlEnd fwlTop
  iterate 12 rw [if_neg (by omega)]
  rw [if_pos (by omega)]

theorem regAt_msixWord {i : Nat} (h : i < 256) : regAt (0xF00000 + 4 * i) = some (.msixWord i) := by
  have hi : (0xF00000 + 4 * i - 0xF00000) / 4 = i := by omega
  rw [regAt_high (by omega)]
  unfold highReg fwlBase fwlEnd fwlTop
  iterate 15 rw [if_neg (by omega)]
  rw [if_pos (by omega), hi]

/-! Four-byte writes. -/

theorem accessOk_four {a : Nat} {s : State} (hd0 : s.host.pcie.d3hot = false) (h4 : a % 4 = 0) (hlt : a < 0x1000000) :
    accessOk a 4 s = true := by
  have hend : a + 4 ≤ 0x1000000 := by omega
  simp [accessOk, hd0, h4, hend]

theorem exec_write4 {a : Nat} {v : BitVec 64} {s : State} (hd0 : s.host.pcie.d3hot = false) (h4 : a % 4 = 0) (hlt : a < 0x1000000) :
    exec (.registerWrite (.bar a 4 v)) s = .next (write4 a (v.toNat % 2 ^ 32) s) := by
  change Host.Outcome.next (barWrite a 4 v.toNat s) = _
  rw [barWrite, if_neg (by simp [accessOk_four hd0 h4 hlt]), if_pos rfl]

/-- A four-byte write of the value `v` at `a`. -/
def writeOf (a : Nat) (v : Word) : Instr := .registerWrite (.bar a 4 (BitVec.ofNat 64 v.toNat))

theorem word_toNat_64 (v : Word) : (BitVec.ofNat 64 v.toNat).toNat % 2 ^ 32 = v.toNat := by
  have := v.isLt
  simp only [BitVec.toNat_ofNat]
  omega

/-- A write that R34 allows does to a live device what the register at the address makes of it. -/
theorem exec_writeOf {a : Nat} {v : Word} {g : Reg} {s : State} (hlive : live s = true) (hd0 : s.host.pcie.d3hot = false)
    (hreg : regAt a = some g) (h4 : a % 4 = 0) (hlt : a < 0x1000000) : exec (writeOf a v) s = .next (writeReg g v.toNat s) := by
  unfold writeOf
  rw [exec_write4 hd0 h4 hlt, word_toNat_64, write4, hreg]
  exact congrArg _ (if_pos (by simp [hlive]))

end Sys2Proof.Machine
end

section
/-!
SUPPORT. Host writes: the memories, the access check, read-only words and configuration space.
-/
namespace Sys2Proof.Machine
open Sys2Proof

/-- `n` is `m` with the four bytes of `v` at `b`, in canonical form. -/
def Stores (v : Word) (m n : Mem) (b : Nat) : Prop :=
  memWf n = true ∧ (∀ k, k < 4 → memByte n (b + k) = byte (v.toNat / 2 ^ (8 * k))) ∧ ∀ c, c < b ∨ b + 4 ≤ c → memByte n c = memByte m c

theorem memWrite_stores {m : Mem} (v : Word) (b : Nat) (h : memWf m = true) : Stores v m (memWrite m b (le 4 v.toNat)) b := by
  refine ⟨memWrite_wf _ _ h, fun k hk => ?_, fun c hc => ?_⟩
  · rw [memByte_memWrite_at _ _ _ _ (show k < (le 4 v.toNat).length from hk)]
    match k with
    | 0 => simp [le]
    | 1 => simp [le]
    | 2 => simp [le, Nat.div_div_eq_div_mul]
    | 3 => simp [le, Nat.div_div_eq_div_mul]
  · obtain hc | hc := hc
    · exact memByte_memWrite_below _ _ _ hc
    · exact memByte_memWrite_above _ _ _ (show b + (le 4 v.toNat).length ≤ c from hc)

/-- Settles O57: each such register stores the four bytes of the value, lowest first. -/
theorem memoryWritesAreLocal : Obligations.MemoryWritesAreLocal := by
  unfold Obligations.MemoryWritesAreLocal
  intro v s a hlive hd0 hbar hram h4 run stored
  refine ⟨fun h => ?bar, fun o h hopen => ?window⟩
  case bar =>
    refine .of_exec (t := { s with bar := memWrite s.bar a (le 4 v.toNat) }) ?_ ⟨memWrite_stores v a hbar, rfl⟩
    obtain htoken | ⟨h1, h2, hcmd⟩ := h
    · exact exec_writeOf hlive hd0 (regAt_lcToken htoken) h4 (by omega)
    · exact exec_writeOf hlive hd0 (regAt_mbxCmd ⟨h1, h2⟩ hcmd) h4 (by omega)
  case window =>
    have hwrite : writeReg (.fwlRam o) v.toNat s = { s with mpRam := memWrite s.mpRam o (le 4 v.toNat) } := if_pos hopen
    refine .of_exec (t := { s with mpRam := memWrite s.mpRam o (le 4 v.toNat) }) ?_ ⟨memWrite_stores v o hram, rfl⟩
    rw [← hwrite]
    obtain ⟨rfl, ho⟩ | ⟨rfl, hlo, hhi⟩ := h
    · exact exec_writeOf hlive hd0 (regAt_fwlRam_low ho) h4 (by omega)
    · exact exec_writeOf hlive hd0 (regAt_fwlRam_high hlo hhi) h4 (by omega)

/-! Which host writes act. -/

theorem accessOk_refused {a size : Nat} {s : State} (h : a % size ≠ 0 ∨ 0x1000000 < a + size ∨ (size ≠ 4 ∧ size ≠ 8)) :
    accessOk a size s = false := by
  simp only [accessOk, Bool.and_eq_false_iff, Bool.or_eq_false_iff, beq_eq_false_iff_ne, decide_eq_false_iff_not]
  omega

theorem wipe_pcie (s : State) : (wipe true s).host.pcie = s.host.pcie := by
  change (settleFuses s).host.pcie = s.host.pcie
  unfold settleFuses
  split <;> rfl

theorem d3hot_of_kept {s t : State} (h : kept t = kept s) : t.host.pcie.d3hot = s.host.pcie.d3hot := congrArg Kept.d3hot h

theorem sysReset_d3hot (v : Nat) (s : State) : (sysReset v s).host.pcie.d3hot = s.host.pcie.d3hot := by
  unfold sysReset
  split
  · exact congrArg Pcie.d3hot (wipe_pcie s)
  · rfl

theorem writeRtc_host (w v : Nat) (s : State) : (writeRtc w v s).host = s.host := by
  unfold writeRtc rtcUnlock
  repeat' split
  all_goals rfl

theorem msixUnmask_d3hot (v : Nat) (s : State) : (msixUnmask v s).host.pcie.d3hot = s.host.pcie.d3hot := by
  unfold msixUnmask
  rw [d3hot_of_kept (sendPending_kept _ _)]
  rfl

/-- No register of BAR0 changes the power state. -/
theorem writeReg_d3hot (g : Reg) (v : Nat) (s : State) : (writeReg g v s).host.pcie.d3hot = s.host.pcie.d3hot := by
  cases g with
  | mbxCmd a | lcToken a => rfl
  | fwlRam o =>
    change (if windowOpen s then { s with mpRam := memWrite s.mpRam o (le 4 v) } else s).host.pcie.d3hot = _
    split <;> rfl
  | rtc w => exact congrArg (·.pcie.d3hot) (writeRtc_host w v s)
  | lc w =>
    change (writeLc w v s).host.pcie.d3hot = _
    unfold writeLc
    split
    · exact (sysReset_d3hot v _).trans (d3hot_of_kept (applyToken_kept v s))
    · rfl
    · rfl
  | resetCause => rfl
  | msixWord i =>
    change (writeMsix i v s).host.pcie.d3hot = _
    unfold writeMsix
    split
    · rfl
    · split
      · rfl
      · split
        · exact msixUnmask_d3hot _ s
        · rfl
    · rfl
  | evt | route | mbxBell | cq | ring | tb | tbCapture | ppsStatus | backup | coex | fwlCtrl | glb | mbxStatus
  | mbxState | capStatus | cap | pps | fwlResult | pba => exact d3hot_of_kept (by simp [writeReg])

theorem write4_d3hot (a v : Nat) (s : State) : (write4 a v s).host.pcie.d3hot = s.host.pcie.d3hot := by
  unfold write4
  split
  · rfl
  · split
    · exact writeReg_d3hot _ v s
    · rfl

theorem write4_undefined {a : Nat} (v : Nat) (s : State) (h : regAt a = none) : write4 a v s = s := by
  unfold write4
  rw [h]

theorem ite_ne_of {α : Type} {c : Prop} [Decidable c] {x y z : α} (hx : x ≠ z) (hy : y ≠ z) : (if c then x else y) ≠ z := by
  split
  · exact hx
  · exact hy

/-- Only GLB_RESET_CAUSE stands at 0x0C. -/
theorem regAt_ne_resetCause {a : Nat} (h : a ≠ 0x0C) : regAt a ≠ some .resetCause := by
  unfold regAt lowReg highReg
  rw [if_neg h]
  dsimp only
  repeat' refine ite_ne_of ?_ ?_
  all_goals exact nofun

theorem write4_dead {a : Nat} (v : Nat) {s : State} (hlive : live s = false) (ha : a ≠ 0x0C) : write4 a v s = s := by
  unfold write4
  split
  · rfl
  · next g hg =>
    have hne : g ≠ .resetCause := fun h => regAt_ne_resetCause ha (h ▸ hg)
    exact if_neg (by simp [hlive, hne])

/-- Eight bytes that R34 allows are two writes. -/
theorem exec_write8 {a : Nat} {v : BitVec 64} {s : State} (hd0 : s.host.pcie.d3hot = false) (h8 : a % 8 = 0) (hend : a + 8 ≤ 0x1000000) :
    exec (.registerWrite (.bar a 8 v)) s = .next (write4 (a + 4) (v.toNat / 2 ^ 32) (write4 a (v.toNat % 2 ^ 32) s)) := by
  change Host.Outcome.next (barWrite a 8 v.toNat s) = _
  rw [barWrite, if_neg (by simp [accessOk, hd0, h8, hend]), if_neg (by decide)]

/-- A write that R34 refuses is logged through AER. -/
theorem exec_write_refused {a size : Nat} {v : BitVec 64} {s : State} (h : accessOk a size s = false) :
    exec (.registerWrite (.bar a size v)) s = .next (if powered s then withPcie (fun p => { p with aerUr := true }) s else s) := by
  change Host.Outcome.next (barWrite a size v.toNat s) = _
  rw [barWrite, if_pos (by simp [h])]

theorem accessOk_d3hot {a size : Nat} {s : State} (h : s.host.pcie.d3hot = true) : accessOk a size s = false := by simp [accessOk, h]

theorem halves_toNat (v : BitVec 64) : (BitVec.ofNat 64 (v.toNat % 2 ^ 32)).toNat % 2 ^ 32 = v.toNat % 2 ^ 32 ∧
    (BitVec.ofNat 64 (v.toNat / 2 ^ 32)).toNat % 2 ^ 32 = v.toNat / 2 ^ 32 := by
  have := v.isLt
  simp only [BitVec.toNat_ofNat]
  omega

theorem write8_two {a : Nat} {v : BitVec 64} {s t u : State} (h8 : a % 8 = 0) (hend : a + 8 ≤ 0x1000000)
    (hlo : exec (.registerWrite (.bar a 4 (BitVec.ofNat 64 (v.toNat % 2 ^ 32)))) s = .next t)
    (hhi : exec (.registerWrite (.bar (a + 4) 4 (BitVec.ofNat 64 (v.toNat / 2 ^ 32)))) t = .next u) :
    exec (.registerWrite (.bar a 8 v)) s = .next u := by
  cases hd : s.host.pcie.d3hot with
  | false =>
    rw [exec_write4 hd (by omega) (by omega), (halves_toNat v).1] at hlo
    cases hlo
    rw [exec_write4 ((write4_d3hot _ _ s).trans hd) (by omega) (by omega), (halves_toNat v).2] at hhi
    rw [exec_write8 hd h8 hend, hhi]
  | true =>
    rw [exec_write_refused (accessOk_d3hot hd)] at hlo ⊢
    cases hlo
    split at hhi
    · next hpow =>
      have hpow' : powered (withPcie (fun p => { p with aerUr := true }) s) = true := hpow
      rw [exec_write_refused (s := withPcie (fun p => { p with aerUr := true }) s) (accessOk_d3hot hd), if_pos hpow'] at hhi
      rw [← hhi, if_pos hpow]
      rfl
    · next hpow =>
      rw [exec_write_refused (accessOk_d3hot hd), if_neg hpow] at hhi
      rw [← hhi, if_neg hpow]

theorem exec_cfgWrite {w : RegWrite} {s : State} (hw : ∀ a size v, w ≠ .bar a size v) (h : powered s = true) :
    exec (.registerWrite w) s = .next (cfgWrite w s) := by
  cases w with
  | bar a size v => exact absurd rfl (hw a size v)
  | _ => exact congrArg _ (if_pos h)

theorem write4_same {a v : Nat} {g : Reg} {s : State} (hreg : regAt a = some g) (h : writeReg g v s = s) : write4 a v s = s := by
  unfold write4
  rw [hreg]
  dsimp only
  rw [h, ite_self]

/-- A write of a read-only word of the RTC, while no unlock sequence is under way. -/
theorem writeRtc_time {v : Nat} {s : State} (h : s.rtc.armed = false) : writeRtc 0 v s = s := by
  have hr : ({ s.rtc with armed := false } : Rtc) = s.rtc := by rw [← h]
  rw [writeRtc_field (by decide) (by decide), withRtc_ite]
  exact (ite_self _).trans (congrArg (fun r => { s with rtc := r }) hr)

/-- A word that the host may only read, but for those of the RTC. -/
def readOnlyReg : Reg → Bool
  | .glb _ | .mbxStatus _ | .mbxState _ | .capStatus | .cap _ _ | .pps _ _ | .fwlResult | .pba _ => true
  | .evt w => w == 4 || 7 ≤ w
  | .cq _ w => 5 ≤ w
  | .ring _ _ w => w == 5
  | .tb _ w => w ≤ 2
  | .lc w => w == 0 || w == 2
  | _ => false

theorem writeReg_readOnly {g : Reg} (v : Nat) (s : State) (h : readOnlyReg g = true) : writeReg g v s = s := by
  cases g with
  | glb | mbxStatus | mbxState | capStatus | cap | pps | fwlResult | pba => rfl
  | evt w =>
    change writeEvt w v s = s
    unfold writeEvt
    split <;> simp_all [readOnlyReg]
  | cq n w =>
    change writeCq n w v s = s
    unfold writeCq
    split <;> simp_all [readOnlyReg]
  | ring tx n w =>
    change writeRing tx n w v s = s
    unfold writeRing
    split <;> simp_all [readOnlyReg]
  | tb n w =>
    change writeTb n w v s = s
    unfold writeTb
    dsimp only
    split <;> simp_all [readOnlyReg]
  | lc w =>
    change writeLc w v s = s
    unfold writeLc
    split <;> simp_all [readOnlyReg]
  | resetCause | route | mbxCmd | mbxBell | tbCapture | ppsStatus | rtc | backup | coex | lcToken | fwlRam | fwlCtrl | msixWord => cases h

/-- Settles O52: the access check, then the map. -/
theorem registerWritesReachTheMap : Obligations.RegisterWritesReachTheMap := by
  unfold Obligations.RegisterWritesReachTheMap
  intro d0
  refine ⟨fun a size v s hpow h => ?refused, fun a v s t u h8 hend => write8_two h8 hend, fun a v s hd0 h4 hlt hreg => ?undefined,
    fun a v s hd0 h4 hlt hlive hne => ?dead, fun v s hd0 hpow => ?cause, fun s hpow => ?config, fun a v s ha hrtc hd0 => ?readOnly⟩
  case refused => rw [exec_write_refused (accessOk_refused h), if_pos hpow]
  case undefined => rw [exec_write4 hd0 h4 hlt, write4_undefined _ s hreg]
  case dead => rw [exec_write4 hd0 h4 hlt, write4_dead _ hlive hne]
  case cause =>
    rw [exec_write4 hd0 (by decide) (by decide)]
    exact congrArg _ (if_pos (by simp [hpow]))
  case config =>
    refine ⟨fun _ => ?_, fun _ => ?_, fun _ => ?_, fun _ => ?_, fun _ _ => ?_, fun _ _ => ?_, ?_⟩
    all_goals exact exec_cfgWrite (by simp) hpow
  case readOnly =>
    have hword : a % 4 = 0 ∧ a < 0x1000000 ∧ (a = 0x201000 ∨ (regAt a).all readOnlyReg = true) := by
      clear hrtc
      revert a
      decide
    obtain ⟨h4, hlt, hword⟩ := hword
    rw [exec_write4 hd0 h4 hlt]
    refine congrArg _ ?_
    obtain rfl | hword := hword
    · exact write4_same (g := .rtc 0) rfl (writeRtc_time (by simpa using hrtc))
    · cases hreg : regAt a with
      | none => exact write4_undefined _ s hreg
      | some g => exact write4_same hreg (writeReg_readOnly _ s (by simpa [hreg] using hword))

end Sys2Proof.Machine
end

section
/-!
SUPPORT. What a write of each register does.
-/
namespace Sys2Proof.Machine
open Sys2Proof

section
variable {a : Nat} {v : Word} {g : Reg} {s : State}

/-- A write to a register is what the register makes of it. -/
theorem does_writeOf {cond : State → Prop} {f : State → State} (hreg : regAt a = some g) (hin : a % 4 = 0 ∧ a < 0x1000000)
    (h : ∀ s, cond s → writeReg g v.toNat s = f s) : Does (writeOf a v) (fun s => s.host.pcie.d3hot = false ∧ cond s) f :=
  fun s hlive ⟨hd0, hcond⟩ => (exec_writeOf hlive hd0 hreg hin.1 hin.2).trans (congrArg _ (h s hcond))

/-- A register with a command of its own. -/
theorem exec_writeOf_command {i : Instr} {t : State} {f : State → State} (hlive : live s = true) (hd0 : s.host.pcie.d3hot = false)
    (hreg : regAt a = some g) (hin : a % 4 = 0 ∧ a < 0x1000000) (hi : ∀ s, exec i s = whenLive s f) (ht : live t = true)
    (h : writeReg g v.toNat s = f t) : exec (writeOf a v) s = exec i t := by
  rw [exec_writeOf hlive hd0 hreg hin.1 hin.2, hi, whenLive_live ht, h]

end

/-! Time bases. -/

theorem tbRuns_false_of_dead {s : State} (h : live s = false) : tbRuns s = false := by simp [tbRuns, h]

theorem setWrite_off {n v : Nat} (h : bit v 0 = false) (s : State) : setWrite n v s = s := if_pos (by simp [h])

theorem adjWrite_set {n v : Nat} (h : bit v 0 = true) (s : State) : adjWrite n v s = s := if_pos (by simp [h])

theorem adjWrite_owned {n v : Nat} {s : State} (h : (vget s.time.tb n).fwOwned = true) : adjWrite n v s = s := if_pos (by simp [h])

theorem setWrite_owned {n v : Nat} {s : State} (h : (vget s.time.tb n).fwOwned = true) : setWrite n v s = s := if_pos (by simp [h])

theorem incWrite_owned {n v : Nat} {s : State} (h : (vget s.time.tb n).fwOwned = true) : incWrite n v s = s := if_pos (by simp [h])

theorem ditherWrite_owned {n v : Nat} {s : State} (h : (vget s.time.tb n).fwOwned = true) : ditherWrite n v s = s := if_pos (by simp [h])

/-- The registers of a time base that Builmin owns do not change (R326). -/
theorem writeTb_owned {n k v : Nat} {s : State} (hk : k ∈ [4, 5, 6, 7, 8, 9, 10, 12, 13]) (h : (vget s.time.tb n).fwOwned = true) :
    writeTb n k v s = s := by
  simp only [List.mem_cons, List.not_mem_nil, or_false] at hk
  obtain rfl | rfl | rfl | rfl | hk := hk
  · exact if_pos h
  · exact incWrite_owned h
  · exact ditherWrite_owned h
  · exact (congrArg (adjWrite n v) (setWrite_owned h)).trans (adjWrite_owned h)
  · obtain rfl | rfl | rfl | rfl | rfl := hk
    all_goals exact if_pos h

/-! The RTC. -/

/-- An unlocked interface takes the write of a register; a locked one only notes that the unlock sequence is broken. -/
theorem does_writeRtc {a : Nat} {v : Word} {w : Nat} {f : Rtc → Rtc} (hreg : regAt a = some (.rtc w)) (hin : a % 4 = 0 ∧ a < 0x1000000)
    (hw : w ≠ 6 ∧ w ≠ 11) (hf : ∀ r, rtcField w v.toNat r = f r) :
    Does (writeOf a v) (fun s => s.host.pcie.d3hot = false ∧ s.rtc.locked = false) (withRtc fun r => { f r with armed := false }) ∧
    Does (writeOf a v) (fun s => s.host.pcie.d3hot = false ∧ ¬ s.rtc.locked = false) (withRtc fun r => { r with armed := false }) := by
  refine ⟨does_writeOf hreg hin fun s hopen => ?_, does_writeOf hreg hin fun s hlocked => ?_⟩
  · change writeRtc w v.toNat s = _
    rw [writeRtc_field hw.1 hw.2, withRtc_ite, if_neg (by simp [hopen])]
    exact congrArg (withRtc · s) (funext fun r => by rw [hf])
  · change writeRtc w v.toNat s = _
    rw [writeRtc_field hw.1 hw.2, withRtc_ite, if_pos (by simpa using hlocked)]

/-! The registers. -/

theorem writeMsix_store {i : Nat} (h : i % 4 = 1 ∨ i % 4 = 2) (v : Word) (s : State) :
    writeMsix i v.toNat s = withHost (fun h => { h with msixTbl := vset h.msixTbl i v }) s := by
  unfold writeMsix
  obtain h | h := h <;> simp [h]

/-- Settles O53: the register at the address, and what its write makes of the state. -/
theorem registerWritesTakeEffect : Obligations.RegisterWritesTakeEffect := by
  unfold Obligations.RegisterWritesTakeEffect
  intro v w d0 takes acts any
  have takes_of {a : Nat} {g : Reg} {cond : State → Prop} {f : State → State} (hreg : regAt a = some g) (hin : a % 4 = 0 ∧ a < 0x1000000)
    (h : ∀ s, cond s → writeReg g v.toNat s = f s) : takes a cond f := does_writeOf hreg hin h
  have acts_of {a : Nat} {g : Reg} {cond : State → Prop} {i : Instr} {f : State → State} (hreg : regAt a = some g)
    (hin : a % 4 = 0 ∧ a < 0x1000000) (hi : ∀ s, exec i s = whenLive s f) (h : ∀ s, cond s → writeReg g v.toNat s = f s) :
    acts a cond i := fun s hlive hd0 hcond => exec_writeOf_command hlive hd0 hreg hin hi hlive (h s hcond)
  have half : BitVec.ofNat 16 v.toNat = v.setWidth 16 := by simp
  have word : BitVec.ofNat 32 v.toNat = v := by simp
  refine ⟨takes_of (g := .evt 0) rfl (by decide) fun _ _ => rfl, takes_of (g := .evt 1) rfl (by decide) fun _ _ => rfl,
    takes_of (g := .evt 2) rfl (by decide) fun _ _ => rfl, ?evtHead, ?evtOff, ?evtOn, 
    takes_of (g := .evt 6) rfl (by decide) fun _ _ => rfl, ?route, ?msix, ?mbxCmd, ?mbxBell, ?cq, ?ring, ?tb, ?capture, ?pps, ?rtc, ?coex⟩
  case evtHead =>
    refine acts_of (g := .evt 3) rfl (by decide) (fun _ => rfl) fun s _ => ?_
    rw [← half]; rfl
  case evtOff =>
    refine takes_of (g := .evt 5) rfl (by decide) fun s (h : bit v.toNat 0 = false) => ?_
    exact if_neg (by simp [h])
  case evtOn =>
    intro s hlive hd0 h
    exact exec_writeOf_command (g := .evt 5) hlive hd0 rfl (by decide) (fun _ => rfl) hlive (if_pos h)
  case route =>
    refine fun i hi => takes_of (regAt_route hi) (by omega) fun s _ => ?_
    exact congrArg (fun x => withHost (fun h => { h with route := vset h.route i (x &&& 0x0FFFFF3F#32) }) s) word
  case msix => exact fun i hi hword => takes_of (regAt_msixWord hi) (by omega) fun s _ => writeMsix_store hword v s
  case mbxCmd => exact fun m o ho h4 => takes_of (regAt_mbxCmd (by omega) (by omega)) (by omega) fun _ _ => rfl
  case mbxBell =>
    refine fun m => ⟨acts_of (regAt_mbxBell m.isLt) (by omega) (fun _ => rfl) fun s h => if_pos h,
      takes_of (regAt_mbxBell m.isLt) (by omega) fun s h => if_neg (by simp [h])⟩
  case cq =>
    intro q
    refine ⟨takes_of (regAt_cq q.isLt (w := 0) (by decide) (by omega)) (by omega) fun _ _ => rfl,
      takes_of (regAt_cq q.isLt (w := 1) (by decide) (by omega)) (by omega) fun _ _ => rfl,
      takes_of (regAt_cq q.isLt (w := 2) (by decide) (by omega)) (by omega) fun _ _ => rfl,
      acts_of (regAt_cq q.isLt (w := 3) (by decide) (by omega)) (by omega) (fun _ => rfl) fun s h => if_pos h,
      acts_of (regAt_cq q.isLt (w := 3) (by decide) (by omega)) (by omega) (fun _ => rfl) fun s h => if_neg (by simp [h]),
      acts_of (regAt_cq q.isLt (w := 4) (by decide) (by omega)) (by omega) (fun _ => rfl) fun s _ => ?_⟩
    rw [← half]; rfl
  case ring =>
    intro tx n a control
    have ha : a = ringBase tx + 64 * n := rfl
    have hin : a % 4 = 0 ∧ a + 24 < 0x1000000 := by
      have := n.isLt
      cases tx <;> simp only [ha, ringBase] <;> simp <;> omega
    clear_value a
    have reg {b : Nat} (w : Nat) (hw : w ≤ 6) (hb : b = a + 4 * w) : regAt b = some (.ring tx n w) := regAt_ring n.isLt hw (by omega)
    refine ⟨takes_of (reg 0 (by decide) rfl) (by omega) fun _ _ => rfl, takes_of (reg 1 (by decide) rfl) (by omega) fun _ _ => rfl,
      takes_of (reg 2 (by decide) rfl) (by omega) fun _ _ => rfl, fun s hlive hd0 => ?control,
      acts_of (reg 4 (by decide) rfl) (by omega) (fun _ => rfl) fun s _ => ?prod,
      acts_of (reg 6 (by decide) rfl) (by omega) (fun _ => rfl) fun s h => if_pos h,
      takes_of (reg 6 (by decide) rfl) (by omega) fun s h => if_neg (by simp [h])⟩
    case control =>
      have hcontrol : live (control s) = true := by cases tx <;> exact hlive
      cases hen : bit v.toNat 0 with
      | true => exact exec_writeOf_command hlive hd0 (reg 3 (by decide) rfl) (by omega) (fun _ => rfl) hcontrol (if_pos hen)
      | false => exact exec_writeOf_command hlive hd0 (reg 3 (by decide) rfl) (by omega) (fun _ => rfl) hcontrol (if_neg (by simp [hen]))
    case prod => rw [← half]; rfl
  case tb =>
    intro n a free
    have ha : a = 0x200000 + 64 * n := rfl
    have hin : a % 4 = 0 ∧ a + 0x34 < 0x1000000 := by omega
    clear_value a
    have reg {b : Nat} (w : Nat) (hw : w < 16) (hb : b = a + 4 * w) : regAt b = some (.tb n w) := regAt_tb n.isLt hw (by omega)
    have acts_next {b w : Nat} {cond : State → Prop} {i : Instr} {f : State → State} (hw : w < 14) (hb : b = a + 4 * w)
        (hi : ∀ s, exec i s = .next (f s)) (h : ∀ s, cond s → writeTb n w v.toNat s = f s) : acts b cond i := fun s hlive hd0 hcond => by
      change exec (writeOf b v) s = exec i s
      rw [exec_writeOf hlive hd0 (reg w (by omega) hb) (by omega) (by omega), hi]
      exact congrArg _ (h s hcond)
    have takes_own {b w : Nat} {f : Tb → Tb} (hw : w < 14) (hb : b = a + 4 * w)
        (h : ∀ s, (vget s.time.tb n).fwOwned = false → writeTb n w v.toNat s = withTb n f s) : takes b free (withTb n f) :=
      takes_of (reg w (by omega) hb) (by omega) h
    refine ⟨takes_own (w := 4) (by decide) rfl fun s h => ?_, acts_next (w := 5) (by decide) rfl (fun _ => rfl) fun s _ => rfl,
      acts_next (w := 6) (by decide) rfl (fun _ => rfl) fun s _ => rfl, acts_next (w := 7) (by decide) rfl (fun _ => rfl) fun s h => adjWrite_set h _,
      acts_next (w := 7) (by decide) rfl (fun _ => rfl) fun s h => congrArg (adjWrite n v.toNat) (setWrite_off h s),
      takes_own (w := 8) (by decide) rfl fun s h => ?_, takes_own (w := 9) (by decide) rfl fun s h => ?_,
      takes_own (w := 10) (by decide) rfl fun s h => ?_, takes_own (w := 12) (by decide) rfl fun s h => ?_,
      takes_own (w := 13) (by decide) rfl fun s h => ?_, fun k hk => ?owned, takes_of (reg 3 (by decide) rfl) (by omega) fun _ _ => rfl⟩
    case owned =>
      have hk4 : k % 4 = 0 ∧ k ≤ 0x34 ∧ k / 4 ∈ [4, 5, 6, 7, 8, 9, 10, 12, 13] := by
        revert k
        decide
      refine takes_of (reg (k / 4) (by omega) (by omega)) (by omega) fun s hown => writeTb_owned hk4.2.2 (by simpa [free] using hown)
    all_goals simp [writeTb, h]
  case capture => exact acts_of (g := .tbCapture) rfl (by decide) (fun _ => rfl) fun _ _ => rfl
  case pps => exact takes_of (g := .ppsStatus) rfl (by decide) fun _ _ => rfl
  case rtc =>
    intro open_ sets
    refine ⟨does_writeRtc (w := 4) rfl (by decide) (by decide) fun r => ?_, does_writeRtc (w := 5) rfl (by decide) (by decide) fun r => ?_,
      acts_of (g := .rtc 6) rfl (by decide) (fun _ => rfl) fun s _ => congrArg (rtcCommit · s) word,
      does_writeRtc (w := 8) rfl (by decide) (by decide) fun r => ?_, does_writeRtc (w := 7) rfl (by decide) (by decide) fun r => rfl,
      does_writeRtc (w := 9) rfl (by decide) (by decide) fun r => rfl, does_writeRtc (w := 10) rfl (by decide) (by decide) fun r => rfl,
      acts_of (g := .rtc 11) rfl (by decide) (fun _ => rfl) fun s _ => congrArg (rtcUnlock · s) word, fun i hi => ?backup⟩
    case backup =>
      refine ⟨takes_of (regAt_backup hi) (by omega) fun s hopen => ?_, takes_of (regAt_backup hi) (by omega) fun s hlocked => ?_⟩
      · change writeBackup (4 * i) v.toNat s = _
        simp [writeBackup, withRtc, show s.rtc.locked = false from hopen, List.range_succ]
      · change writeBackup (4 * i) v.toNat s = _
        rw [writeBackup, withRtc_ite, if_pos (by simpa [open_] using hlocked)]
    all_goals simp [rtcField]
  case coex =>
    refine ⟨takes_of (g := .coex 0) rfl (by decide) fun s _ => ?_, takes_of (g := .coex 1) rfl (by decide) fun s _ => ?_,
      takes_of (g := .coex 2) rfl (by decide) fun s _ => ?_, takes_of (g := .coex 3) rfl (by decide) fun s _ => ?_,
      takes_of (g := .coex 4) rfl (by decide) fun s _ => ?_, acts_of (g := .lc 1) rfl (by decide) (fun _ => rfl) fun s h => ?sys,
      acts_of (g := .lc 1) rfl (by decide) (fun _ => rfl) fun s h => ?token, takes_of (g := .lc 6) rfl (by decide) fun s _ => ?_,
      fun o ho h4 => takes_of (regAt_lcToken (by omega)) (by omega) fun _ _ => rfl, fun o ho h4 => ?low, fun o hlo ho h4 => ?high,
      acts_of (g := .fwlCtrl) rfl (by decide) (fun _ => rfl) fun s h => if_pos h⟩
    case sys => exact congrArg (sysReset v.toNat) (if_pos (by simp [h]))
    case token => exact if_neg (by simp [h])
    case low => exact ⟨takes_of (regAt_fwlRam_low ho) (by omega) fun s h => if_pos h, takes_of (regAt_fwlRam_low ho) (by omega) fun s h => if_neg (by simp [h])⟩
    case high => exact ⟨takes_of (regAt_fwlRam_high hlo ho) (by omega) fun s h => if_pos h, takes_of (regAt_fwlRam_high hlo ho) (by omega) fun s h => if_neg (by simp [h])⟩
    · change writeCoex 0 v.toNat s = _
      rw [writeCoex, word]
    · change writeCoex 1 v.toNat s = _
      rw [writeCoex, word]
    · simp [writeReg, writeCoex, bits]
    · simp [writeReg, writeCoex, bits]
    · simp [writeReg, writeCoex, BitVec.extractLsb', Nat.shiftRight_eq_div_pow]
    · change writeLc 6 v.toNat s = _
      rw [writeLc, word]

end Sys2Proof.Machine
end

section
/-!
SUPPORT. Events: a row's guard and its function give what the row does.
-/
namespace Sys2Proof.Machine
open Sys2Proof

section
variable {i : Instr} {cond : State → Prop} {eff f : State → State}

theorem does (hi : ∀ s, exec i s = whenLive s f) (h : ∀ s, cond s → f s = eff s) : Does i cond eff :=
  fun s hlive hcond => (hi s).trans ((whenLive_live hlive).trans (congrArg _ (h s hcond)))

/-- Where the device's being live matters to the effect. -/
theorem does_live (hi : ∀ s, exec i s = whenLive s f) (h : ∀ s, live s = true → cond s → f s = eff s) : Does i cond eff :=
  fun s hlive hcond => (hi s).trans ((whenLive_live hlive).trans (congrArg _ (h s hlive hcond)))

theorem builminDoes (hi : ∀ s, exec i s = whenRunning s f) (h : ∀ s, cond s → f s = eff s) : BuilminDoes i cond eff :=
  fun s hrunning hcond => (hi s).trans ((whenRunning_running hrunning).trans (congrArg _ (h s hcond)))

theorem alwaysDoes (hi : ∀ s, exec i s = .next (f s)) (h : ∀ s, cond s → f s = eff s) : AlwaysDoes i cond eff :=
  fun s hcond => (hi s).trans (congrArg _ (h s hcond))

/-- An event of the live device, with what its outcome satisfies. -/
theorem gives_live {s : State} {P : State → Prop} (hi : ∀ s, exec i s = whenLive s f) (hlive : live s = true) (h : P (f s)) : Gives i s P :=
  ⟨f s, (hi s).trans (whenLive_live hlive), h⟩

theorem gives_next {s t : State} {P : State → Prop} (hi : ∀ s, exec i s = .next (f s)) (ht : f s = t) (h : P t) : Gives i s P :=
  ⟨t, (hi s).trans (congrArg _ ht), h⟩

end

/-! Fields of a register, as the model's numbers and as bits. -/

theorem bit_toNat {w : Nat} (v : BitVec w) (i : Nat) : bit v.toNat i = v.getLsbD i := by
  rw [← BitVec.testBit_toNat, Nat.testBit_eq_decide_div_mod_eq]
  rfl

theorem bits_toNat {w : Nat} (v : BitVec w) (i n : Nat) : bits v.toNat i n = (v.extractLsb' i n).toNat := by
  simp [bits, BitVec.extractLsb', Nat.shiftRight_eq_div_pow]

end Sys2Proof.Machine
end

section
/-!
SUPPORT. The events of the battery domain, and the alarm.
-/
namespace Sys2Proof.Machine
open Sys2Proof

/-! The battery domain. -/

theorem alarmMatch_off {r : Rtc} {t : RtcTime} (h : r.alarmEn = false) : alarmMatch r t = false := by simp [alarmMatch, h]

theorem secondTick_still {s : State} (h : s.rtc.oscRunning = false) : secondTick s = s := if_pos (by simp [h])

/-- The state after a tick, before the alarm. -/
def ticked (s : State) : State :=
  withRtc (fun r => { r with
    time := nextSecond s.rtc.time, presc := 0, sqwNew := false
    yearWrap := r.yearWrap || (r.time.year == 399 && (nextSecond s.rtc.time).year == 0) }) s

theorem secondTick_running {s : State} (h : s.rtc.oscRunning = true) :
    secondTick s = if alarmMatch s.rtc (nextSecond s.rtc.time) then alarmFires (ticked s) else ticked s := by
  unfold secondTick
  rw [if_neg (by simp [h])]
  rfl

theorem rtcSqw_off {r : Rtc} {p q : Nat} {x : Bool} (h : r.locked = true ∨ r.sqwSel = 0) : rtcSqw r p q x = false := by
  obtain h | h := h <;> simp [rtcSqw, sqwPeriod, h]

theorem sqwPeriod_eq {k : Nat} (h1 : 1 ≤ k) (h3 : k ≤ 3) : sqwPeriod k = [32768, 512, 32].getD (k - 1) 1 ∧ 1 < sqwPeriod k := by
  obtain rfl | rfl | rfl : k = 1 ∨ k = 2 ∨ k = 3 := by omega
  all_goals exact ⟨rfl, by simp [sqwPeriod]⟩

theorem withRtc_congr {f g : Rtc → Rtc} {s : State} (h : f s.rtc = g s.rtc) : withRtc f s = withRtc g s :=
  congrArg (fun r => { s with rtc := r }) h

/-- Settles O11: each event of the battery domain is one change of its registers. -/
theorem rtcEventsTakeEffect : Obligations.RtcEventsTakeEffect := by
  unfold Obligations.RtcEventsTakeEffect
  refine ⟨fun n => does (fun _ => rfl) fun s _ => withRtc_congr rfl, does (fun _ => rfl) fun _ _ => rfl, alwaysDoes (fun _ => rfl) fun _ _ => rfl,
    fun v => does (fun _ => rfl) fun s h => rtcCommit_taken h.1 h.2, fun t => alwaysDoes (fun _ => rfl) fun s h => rtcLoad_some h,
    fun t => does (fun _ => rfl) fun s h => rtcUnlock_first h.1 h.2, alwaysDoes (fun _ => rfl) fun _ _ => rfl,
    alwaysDoes (fun _ => rfl) fun _ _ => rfl, alwaysDoes (fun _ => rfl) fun _ _ => rfl, alwaysDoes exec_rtcSecondTick fun s h => ?tick,
    alwaysDoes exec_rtcSecondTick fun s h => secondTick_still h, fun n => alwaysDoes (fun _ => rfl) fun s h => ?continuous,
    fun n => alwaysDoes (fun _ => rfl) fun s h => ?dutyCycled, alwaysDoes (fun _ => rfl) fun _ _ => rfl, fun r p q x => rtcSqw_off,
    fun r p q x hlocked h1 h3 hnew => ?wave, fun r q x hnew => ?newWave⟩
  case tick => rw [secondTick_running h.1, alarmMatch_off h.2]; rfl
  case continuous => simp only [h, if_false]; rfl
  case dutyCycled => simp only [h, if_true]; rfl
  case wave =>
    obtain ⟨hperiod, hpos⟩ := sqwPeriod_eq h1 h3
    intro n
    have hn : sqwPeriod r.sqwSel = n := hperiod
    have hne : ¬ n = 0 ∧ ¬ n = 1 := by omega
    simp [rtcSqw, hn, hlocked, hnew, hne.1, hne.2]
  case newWave =>
    simp [rtcSqw, hnew]

/-! The alarm. -/

theorem alarmMatch_iff {r : Rtc} {t : RtcTime} :
    alarmMatch r t = true ↔ r.alarmEn = true ∧ t.second = 0 ∧
      (r.alarm.getLsbD 7 = true ∨ (r.alarm.extractLsb' 0 6).toNat = t.minute) ∧
      (r.alarm.getLsbD 15 = true ∨ (r.alarm.extractLsb' 8 5).toNat = t.hour) ∧
      (r.alarm.getLsbD 23 = true ∨ (r.alarm.extractLsb' 16 5).toNat = t.day) := by
  simp only [alarmMatch, bit_toNat, bits_toNat, Bool.and_eq_true, Bool.or_eq_true, beq_iff_eq, and_assoc]

theorem driveWake_alarmHit (src : Nat) (s : State) : (driveWake src s).rtc.alarmHit = s.rtc.alarmHit := by
  unfold driveWake
  split
  · rfl
  · split <;> rfl

theorem alarmFires_alarmHit (s : State) : (alarmFires s).rtc.alarmHit = true := by
  unfold alarmFires
  dsimp only
  split
  · exact driveWake_alarmHit 1 _
  · split
    · rw [raise_rtc]
      rfl
    · rfl

/-- A match of the running device outside bivouac raises the event. -/
theorem alarmFires_live {s : State} (hlive : live s = true) (harmed : s.life.armed = false) :
    alarmFires s = raise .rtcAlarm 0 (le 4 (time0Of s.rtc.time).toNat ++ le 4 (time1Of s.rtc.time).toNat)
      (withRtc (fun r => { r with alarmHit := true }) s) := by
  unfold alarmFires
  rw [if_neg (by simp [harmed]), if_pos hlive]

theorem rtcCommit_alarmHit (v : Word) (s : State) : (rtcCommit v s).rtc.alarmHit = s.rtc.alarmHit := by
  unfold rtcCommit
  rw [withRtc_rtc]
  dsimp only
  split
  · rfl
  · split <;> rfl

theorem rtcLoad_alarmHit (s : State) : (rtcLoad s).rtc.alarmHit = s.rtc.alarmHit := by
  unfold rtcLoad
  split <;> rfl

/-- Settles O16: the tick compares the second it makes with the alarm, field by field. -/
theorem rtcAlarmMatch : Obligations.RtcAlarmMatch := by
  unfold Obligations.RtcAlarmMatch
  refine ⟨fun s hosc hhit => ⟨_, exec_rtcSecondTick s, ?hits⟩, fun s t hosc hlive harmed => ?raises, fun s v => ⟨_, rfl, ?commit⟩,
    fun s => ⟨_, rfl, rtcLoad_alarmHit s⟩⟩
  case hits =>
    dsimp only
    rw [(secondTick_calendar hosc).1, ← alarmMatch_iff, secondTick_running hosc]
    cases hmatch : alarmMatch s.rtc (nextSecond s.rtc.time) with
    | true => simp [alarmFires_alarmHit]
    | false => simp [ticked, hhit]
  case raises =>
    intro u ht hmatch
    subst ht
    rw [exec_rtcSecondTick, secondTick_running hosc, if_pos hmatch, alarmFires_live (s := ticked s) hlive harmed]
    rfl
  case commit =>
    split
    · exact rtcCommit_alarmHit v s
    · rfl

end Sys2Proof.Machine
end

section
/-!
SUPPORT. The resets and their causes.
-/
namespace Sys2Proof.Machine
open Sys2Proof

theorem settleFuses_none {s : State} (h : s.life.fuseTarget = none) : settleFuses s = s := by
  unfold settleFuses
  rw [h]

theorem kept_resetCause {s t : State} (h : kept t = kept s) : t.glb.resetCause = s.glb.resetCause := congrArg Kept.resetCause h

theorem kept_msixTbl {s t : State} (h : kept t = kept s) : t.host.msixTbl = s.host.msixTbl := congrArg Kept.msixTbl h

theorem resetWith_cause (cause : BitVec 9) (link : Bool) (s : State) : (resetWith cause link s).glb.resetCause = s.glb.resetCause ||| cause :=
  congrArg (· ||| cause) (kept_resetCause (t := settleFuses s) (settleFuses_kept s))

theorem internalReset_cause (cause : BitVec 9) (s : State) : (internalReset cause s).glb.resetCause = s.glb.resetCause ||| cause :=
  resetWith_cause cause true s

/-- An internal reset keeps the MSI-X table and enable (R68). -/
theorem internalReset_msixTbl (cause : BitVec 9) (s : State) : (internalReset cause s).host.msixTbl = s.host.msixTbl :=
  kept_msixTbl (t := settleFuses s) (settleFuses_kept s)

theorem internalReset_msixEn (cause : BitVec 9) (s : State) : (internalReset cause s).host.msixEn = s.host.msixEn := by
  change (settleFuses s).host.msixEn = _
  unfold settleFuses
  split <;> rfl

/-- A wipe after what keeps queue, battery domain and serial number. -/
theorem Wiped.of_kept {s t u : State} (h : Wiped t u) (hst : kept t = kept s) (hrtc : t.rtc = s.rtc) : Wiped s u :=
  { h with rtc := h.rtc.trans hrtc, serial := h.serial.trans (congrArg Kept.serial hst), pending := h.pending.trans (pending_of_kept hst) }

theorem powered_up {s : State} (hmain : s.life.mainUp = true) (haon : s.life.aonUp = true) (hperst : s.life.perstN = true) :
    powered s = true := by simp [powered, hmain, haon, hperst]

theorem hotReset_powered {s : State} (h : powered s = true) :
    hotReset s = resetWith (if s.life.refDrop then causeHot ||| causeRefLoss else causeHot) false s := if_neg (by simp [h])

theorem thermalTrip_powered {s : State} (h : powered s = true) (hhold : s.life.thermalHold = false) :
    thermalTrip s = withLife (fun l => { l with thermalHold := true }) (internalReset causeThermal (radiosOff s)) := if_neg (by simp [h, hhold])

theorem perstAssert_powered {s : State} (h : powered s = true) :
    perstAssert s = withLife (fun l => { l with perstN := false }) (resetWith causePerst false s) := if_neg (by simp [h])

/-- SYS_RESET with its key (R68). -/
theorem sysReset_key {v : Word} {s : State} (hkey : v.toNat / 2 ^ 16 = 0x7340) (hbit : v.getLsbD 1 = true) :
    sysReset v.toNat s = internalReset causeHostCmd s := by
  have := v.isLt
  have hbits : bits v.toNat 16 16 = 0x7340 := by unfold bits; omega
  exact if_pos ⟨hbits, (bit_toNat v 1).trans hbit⟩

theorem wdtAutoReset_due {s : State} (hfw : s.life.fwState = .fault) (hauto : s.life.lcWdt.getLsbD 8 = true) :
    wdtAutoReset s = if s.life.faultAt + wdtDelay s ≤ s.now then internalReset causeWatchdog s else s := by
  unfold wdtAutoReset
  simp [hfw, bit_toNat, hauto]

theorem fuseDone_some {s : State} {n : Nat} (h : s.life.fuseTarget = some n) :
    fuseDone s = internalReset causeLifeCycle (withLife (fun l => { l with lcState := n, fuseTarget := none }) s) := by
  unfold fuseDone
  rw [h]

/-- The state at the end of a wipe, before the vector-0 message. -/
def wipeEnded (s : State) : State :=
  let u := withLife (fun l => { l with wipeBusy := false, msgVec0 := false, bivouacN := true, wakeOut := false }) s
  { u with rel := { u.rel with passes := Vector.replicate 18 { began := s.now } } }

theorem wipeEnd_busy {s : State} (hbusy : s.life.wipeBusy = true) (h : powered s = true) :
    wipeEnd s = if s.life.msgVec0 then sendMsix 0 (wipeEnded s) else wipeEnded s := by
  unfold wipeEnd
  rw [if_neg (by simp [hbusy, h])]
  rfl

theorem sendMsix_life (v : Nat) (s : State) : (sendMsix v s).life = s.life := by
  unfold sendMsix msixOut
  repeat' split
  all_goals rfl

theorem sendMsix_sec (v : Nat) (s : State) : (sendMsix v s).sec = s.sec := by
  unfold sendMsix msixOut
  repeat' split
  all_goals rfl

/-- Settles O17: every reset is a wipe with its cause added. -/
theorem resetsWipe : Obligations.ResetsWipe := by
  unfold Obligations.ResetsWipe
  refine ⟨fun s hmain haon hperst => ?powered, fun s => ⟨_, rfl, wiped_powerOnReset s, rfl, rfl, rfl⟩, fun s v hlive hkey hbit => ?sysReset,
    fun s hlive hfw hauto => ?watchdog, fun s n hlive hfuse => ?fuses, fun s hmain haon => ?release, fun s hbusy hperst hmain haon => ?wipeEnd⟩
  case powered =>
    have hpow := powered_up hmain haon hperst
    refine ⟨gives_next (fun _ => rfl) (perstAssert_powered hpow) ⟨?_, resetWith_cause causePerst false s, rfl⟩,
      fun hdrop => gives_next (fun _ => rfl) (hotReset_powered hpow) ⟨wiped_resetWith _ false s, ?_⟩,
      fun hdrop => gives_next (fun _ => rfl) (hotReset_powered hpow) ⟨wiped_resetWith _ false s, ?_⟩,
      gives_next (fun _ => rfl) (if_pos hpow) ⟨wiped_flr s, resetWith_cause causeFlr false s⟩,
      fun hhold => gives_next (fun _ => rfl) (thermalTrip_powered hpow hhold) ⟨?_, ?_, rfl, ?_⟩⟩
    · exact (wiped_resetWith causePerst false s).setLife ⟨rfl, rfl, rfl⟩
    · rw [resetWith_cause, hdrop]; rfl
    · rw [resetWith_cause, hdrop, if_pos rfl, BitVec.or_assoc]
    · exact ((wiped_internalReset causeThermal _).setLife ⟨rfl, rfl, rfl⟩).of_kept (radiosOff_kept s) (radiosOff_rtc s)
    · rw [withLife_glb, internalReset_cause, kept_resetCause (radiosOff_kept s)]
    · rw [withLife_host, internalReset_msixTbl, kept_msixTbl (radiosOff_kept s)]
  case sysReset =>
    refine gives_live (fun _ => rfl) hlive ?_
    rw [sysReset_key hkey hbit]
    exact ⟨wiped_internalReset _ s, internalReset_cause _ s, internalReset_msixTbl _ s, internalReset_msixEn _ s⟩
  case watchdog =>
    intro delay
    refine ⟨fun hdue => gives_live (fun _ => rfl) hlive ?_, fun hearly => ?_⟩
    · rw [wdtAutoReset_due hfw hauto, if_pos (show s.life.faultAt + wdtDelay s ≤ s.now from hdue)]
      exact ⟨wiped_internalReset _ s, internalReset_cause _ s, internalReset_msixTbl _ s⟩
    · refine (whenLive_live hlive).trans (congrArg _ ?_)
      rw [wdtAutoReset_due hfw hauto, if_neg (show ¬ s.life.faultAt + wdtDelay s ≤ s.now from Nat.not_le.mpr hearly)]
  case fuses =>
    refine gives_live (fun _ => rfl) hlive ?_
    rw [fuseDone_some hfuse]
    refine ⟨internalReset_cause _ _, ?_, rfl, internalReset_rtc _ _⟩
    change (settleFuses (withLife (fun l => { l with lcState := n, fuseTarget := none }) s)).life.lcState = n
    rw [settleFuses_none rfl]
    rfl
  case release => exact congrArg _ (if_pos (by simp [hmain, haon]))
  case wipeEnd =>
    refine gives_next (fun _ => rfl) (wipeEnd_busy hbusy (powered_up hmain haon hperst)) ?_
    have hlive : live (wipeEnded s) = true := by simp [live, wipeEnded, withLife, hperst, hmain, haon]
    split
    · simp only [live, sendMsix_life, sendMsix_rtc, sendMsix_sec]
      exact ⟨hlive, rfl, rfl, rfl, rfl, rfl⟩
    · exact ⟨hlive, rfl, rfl, rfl, rfl, rfl⟩

end Sys2Proof.Machine
end

section
/-!
SUPPORT. Life cycle, load of Builmin, supplies and reference.
-/
namespace Sys2Proof.Machine
open Sys2Proof

/-! The load of Builmin. -/

theorem fwlStart_refused {s : State} (h : s.life.thermalHold = true ∨ windowOpen s = false) :
    fwlStart s = withLife (fun l => { l with fwlResult := 8 }) s := by
  refine if_pos ?_
  obtain h | h := h <;> simp [h]

theorem fwlStart_open {s : State} (hhold : s.life.thermalHold = false) (hopen : windowOpen s = true) :
    fwlStart s = if headerCheck s (memRead s.mpRam 0 512) ≠ 0 then
        withLife (fun l => { l with fwlResult := headerCheck s (memRead s.mpRam 0 512), fwState := .rejected }) s
      else withLife (fun l => { l with fwState := .verifying }) s := if_neg (by simp [hhold, hopen])

theorem imageVerified_verifying {s : State} (h : s.life.fwState = .verifying) :
    imageVerified s =
      if Config.ecdsaVerify (slice (memRead s.mpRam 0 512) 64 97) (slice (memRead s.mpRam 0 512) 176 96)
          (slice (memRead s.mpRam 0 512) 0 176 ++ memRead s.mpRam 512 (u32 (memRead s.mpRam 0 512) 8)) then
        withLife (fun l => { l with fwState := .starting, fwlResult := 1, build := BitVec.ofNat 32 (u32 (memRead s.mpRam 0 512) 16) }) s
      else withLife (fun l => { l with fwState := .rejected, fwlResult := 7 }) s := if_neg (by simp [h])

/-! Life-cycle tokens. -/

theorem applyToken_otherKey {v : Word} {s : State} (h : v.toNat / 2 ^ 16 ≠ 0x7340) : applyToken v.toNat s = s := by
  have := v.isLt
  have hbits : bits v.toNat 16 16 ≠ 0x7340 := by unfold bits; omega
  exact if_pos (by simp [hbits])

theorem applyToken_key {v : Word} {s : State} (hkey : v.toNat / 2 ^ 16 = 0x7340) (hbit : v.getLsbD 0 = true) :
    applyToken v.toNat s =
      if s.life.tokenBusy then withLife (fun l => { l with lcResult := 8 }) s
      else if tokenCheck s (memRead s.bar tokenBase 512) ≠ 0 then
        withLife (fun l => { l with lcResult := tokenCheck s (memRead s.bar tokenBase 512) }) s
      else withLife (fun l => { l with tokenBusy := true, fuseTarget := some (u8 (memRead s.bar tokenBase 512) 4) })
        (withRtc (fun r => { r with backup := Vector.replicate 64 0 }) (radiosOff s)) := by
  have := v.isLt
  have hbits : bits v.toNat 16 16 = 0x7340 := by unfold bits; omega
  exact if_neg (by simp [hbits, bit_toNat, hbit])

/-! The supplies. -/

theorem settleFuses_wur (s : State) : (settleFuses s).wur = s.wur := by
  unfold settleFuses
  split <;> rfl

/-- Of the life cycle, fuses cut short change their own fields only. -/
theorem settleFuses_life (s : State) : ∃ n t, (settleFuses s).life = { s.life with lcState := n, fuseTarget := t } := by
  unfold settleFuses
  split
  · exact ⟨s.life.lcState, s.life.fuseTarget, rfl⟩
  · exact ⟨_, none, rfl⟩

theorem supplyRemoval_rtc (aon : Bool) (s : State) :
    (supplyRemoval aon s).rtc = { s.rtc with locked := true, armed := false, vddGoodAt := none } := by
  simp only [supplyRemoval, settleFuses_rtc]

theorem supplyRemoval_aon (s : State) : (supplyRemoval true s).life.aonUp = false ∧ (supplyRemoval true s).life.wakeOut = false ∧
    (supplyRemoval true s).wur = State.reset.wur := by
  simp only [supplyRemoval, Bool.not_true, Bool.and_false, Bool.false_eq_true, if_false, true_and, and_true]
  rfl

theorem supplyRemoval_main {s : State} (h : s.life.aonUp = true) : (supplyRemoval false s).life.aonUp = true ∧
    (supplyRemoval false s).life.armed = s.life.armed ∧ (supplyRemoval false s).life.bivSources = s.life.bivSources ∧
    (supplyRemoval false s).life.thermalHold = s.life.thermalHold ∧ (supplyRemoval false s).wur = { s.wur with tx := [] } := by
  obtain ⟨n, t, hlife⟩ := settleFuses_life s
  simp only [supplyRemoval, settleFuses_wur, hlife, h, Bool.not_false, Bool.and_true, if_true, true_and, and_true]
  exact ⟨rfl, rfl, rfl⟩

/-! The reference. -/

theorem portCount_rtc (p i k : Nat) (s : State) : (portCount p i k s).rtc = s.rtc := rfl

theorem dropAll_rtc (st : Status) (l : List Frame) (s : State) : (dropAll st l s).rtc = s.rtc := by simp [dropAll]

theorem linkDown_rtc (p cause : Nat) (s : State) : (linkDown p cause s).rtc = s.rtc := by
  unfold linkDown
  dsimp only
  split
  · rfl
  · rw [raise_rtc, portCount_rtc, dropAll_rtc, portCount_rtc]
    rfl

/-- Loss of the reference while the device is live, before what follows from it. -/
theorem refLost_live {s : State} (hlive : live s = true) (href : s.glb.refLost = false) :
    refLost s =
      let p := draw 1 (radiosOff (withGlb (fun g => { g with refLost := true }) s))
      let carry := withHost (fun h => { h with link := if p.1 = 1#1 then h.link else .recovery }) p.2
      withLife (fun l => { l with refDrop := true })
        (withHost (fun h => { h with link := .recovery }) (linkDown 1 0 (linkDown 0 0 (raise .refLost 0 [] carry)))) := by
  rw [refLost, if_neg (by simp [href])]
  exact if_neg (by simp [hlive])

theorem refLost_effect {s : State} (hlive : live s = true) (href : s.glb.refLost = false) :
    (refLost s).glb.refLost = true ∧ (refLost s).life.refDrop = true ∧ (refLost s).host.link = .recovery ∧ (refLost s).rtc = s.rtc := by
  rw [refLost_live hlive href]
  extract_lets p carry
  have hlost : carry.glb.refLost = true := 
    congrArg Kept.refLost (show kept carry = kept (withGlb (fun g => { g with refLost := true }) s) by simp [carry, p])
  have hrtc : carry.rtc = s.rtc := by simp [carry, p]
  clear_value carry
  refine ⟨?_, rfl, rfl, ?_⟩
  · rw [withLife_glb, withHost_glb]
    refine Eq.trans (congrArg Kept.refLost (?_ : kept _ = kept carry)) hlost
    rw [linkDown_kept, linkDown_kept, raise_kept]
  · rw [withLife_rtc, withHost_rtc, linkDown_rtc, linkDown_rtc, raise_rtc, hrtc]

theorem flushTx_none {s : State} (h : s.host.deferred = []) : flushTx s = s := by
  unfold flushTx
  split
  · rw [h]
    have hhost : ({ s.host with deferred := [] } : HostIf) = s.host := by rw [← h]
    exact congrArg (fun x => { s with host := x }) hhost
  · rfl

/-- Settles O18: one equation per event and case. -/
theorem lifeEventsTakeEffect : Obligations.LifeEventsTakeEffect := by
  unfold Obligations.LifeEventsTakeEffect
  refine ⟨alwaysDoes (fun _ => rfl) fun _ _ => rfl, does (fun _ => rfl) fun s h => if_pos (by simp [h]),
    does (fun _ => rfl) fun s _ => if_neg (by simp), does (fun _ => rfl) fun s h => fwlStart_refused h,
    does (fun _ => rfl) fun s h => ?accepted, does (fun _ => rfl) fun s h => ?rejected, fun ok => does (fun _ => rfl) fun s h => ?verified,
    does (fun _ => rfl) fun s h => if_neg (by simp [h]), fun v => does (fun _ => rfl) fun s h => ?tokenBusy,
    fun v => does (fun _ => rfl) fun s h => ?tokenRefused, fun v s hlive hkey hbit hfree hcheck => ?tokenTaken,
    fun v => does (fun _ => rfl) fun s h => applyToken_otherKey h, does (fun _ => rfl) fun s h => if_pos h, fun s => ?allSupplies,
    fun s haon => ?mainSupplies, fun s hlive href => ?refLost, alwaysDoes (fun _ => rfl) fun s h => ?refReturn⟩
  case accepted => rw [fwlStart_open h.1 h.2.1, if_neg (by simp [h.2.2])]
  case rejected => rw [fwlStart_open h.1 h.2.1, if_pos h.2.2]
  case verified =>
    obtain ⟨hfw, rfl⟩ := h
    exact imageVerified_verifying hfw
  case tokenBusy =>
    obtain ⟨hkey, hbit, hbusy⟩ := h
    rw [applyToken_key hkey hbit, if_pos hbusy]
  case tokenRefused =>
    obtain ⟨hkey, hbit, hfree, hcheck⟩ := h
    rw [applyToken_key hkey hbit, if_neg (by simp [hfree]), if_pos hcheck]
  case tokenTaken =>
    refine gives_live (fun _ => rfl) hlive ?_
    rw [applyToken_key hkey hbit, if_neg (by simp [hfree]), if_neg (by simp [hcheck])]
    exact ⟨rfl, rfl, rfl, congrArg Kept.time (radiosOff_kept s)⟩
  case allSupplies =>
    obtain ⟨haon, hwake, hwur⟩ := supplyRemoval_aon s
    exact ⟨_, rfl, rfl, haon, hwake, hwur, rfl, rfl, supplyRemoval_rtc true s⟩
  case mainSupplies =>
    obtain ⟨haon, harmed, hsources, hhold, hwur⟩ := supplyRemoval_main haon
    exact ⟨_, rfl, rfl, haon, harmed, hsources, hhold, by rw [hwur], rfl, rfl, supplyRemoval_rtc false s⟩
  case refLost => exact ⟨_, rfl, refLost_effect hlive href⟩
  case refReturn =>
    obtain ⟨hlost, hnone⟩ := h
    exact (if_pos hlost).trans (flushTx_none (s := withGlb _ (withHost _ s)) hnone)
end Sys2Proof.Machine
end

section
/-!
SUPPORT. Mailbox commands: a row's run gives what a ready command does.
-/
namespace Sys2Proof.Machine
open Sys2Proof

section
variable {i : Fin 8 → List Byte → Instr} {f : Form} {run : Cmd → State → Effect} {cond : List Byte → State → Prop}
variable (hrow : ∀ m buf, mailboxRow (i m buf) = some (m, buf, f, run))
include hrow

/-- A ready command of a mailbox row is what its run makes of it. -/
theorem exec_ready {m : Fin 8} {buf : List Byte} {r : CmdRec} {s : State} (h : Ready f m buf r s) :
    exec (i m buf) s =
      match run (cmdOf f m buf r) (begun r s) with
      | .fail st => .next (finish r.handle st [] s)
      | .complete st data t => .next (finish r.handle st data t)
      | .ahead st data t => .next (finishAhead r st data t)
      | .hold t => .next t := (exec_mailboxRow_own (hrow m buf) h.2.1 h.2.2.1).trans (command_ready run h)

theorem completes {data : List Byte → State → List Byte} {eff : List Byte → State → State}
    (h : ∀ c s, cond c.params s → run c s = .complete .ok (data c.params s) (eff c.params s)) : Completes i f cond data eff :=
  fun m buf r s hready hcond => by rw [exec_ready hrow hready, h (cmdOf f m buf r) _ hcond]; rfl

theorem reads {data : List Byte → State → List Byte} (h : ∀ c s, run c s = answer (data c.params s) s) : Reads i f data :=
  completes hrow fun c s _ => h c s

theorem sets {eff : List Byte → State → State} (h : ∀ c s, cond c.params s → run c s = okay (eff c.params s)) : Sets i f cond eff :=
  completes hrow h

theorem stays {eff : Word → List Byte → State → State} (h : ∀ c s, cond c.params s → run c s = .hold (eff c.handle c.params s)) :
    Stays i f cond eff :=
  fun m buf r s hready hcond => by rw [exec_ready hrow hready, h (cmdOf f m buf r) _ hcond]; rfl

theorem fails {st : Status} (h : ∀ c s, cond c.params s → run c s = .fail st) : Fails i f st cond :=
  fun m buf r s hready hcond => by rw [exec_ready hrow hready, h (cmdOf f m buf r) _ hcond]

end

end Sys2Proof.Machine
end

section
/-!
SUPPORT. The reading commands.
-/
namespace Sys2Proof.Machine
open Sys2Proof

theorem exists_of_khas {α : Type} {m : KMap α} {k : Nat} (h : khas m k = true) : ∃ x, kget m k = some x := Option.isSome_iff_exists.mp h

/-- Settles O1: each run answers at once with its data. -/
theorem readingCommandsAnswer : Obligations.ReadingCommandsAnswer := by
  unfold Obligations.ReadingCommandsAnswer
  exact ⟨sets (fun _ _ => rfl) fun _ _ _ => rfl, reads (fun _ _ => rfl) fun _ _ => rfl, reads (fun _ _ => rfl) fun _ _ => rfl, reads (fun _ _ => rfl) fun _ _ => rfl, reads (fun _ _ => rfl) fun _ _ => rfl, reads (fun _ _ => rfl) fun _ _ => rfl, reads (fun _ _ => rfl) fun _ _ => rfl, reads (fun _ _ => rfl) fun _ _ => rfl, reads (fun _ _ => rfl) fun _ _ => rfl, reads (fun _ _ => rfl) fun _ _ => rfl, reads (fun _ _ => rfl) fun _ _ => rfl, reads (fun _ _ => rfl) fun _ _ => rfl, reads (fun _ _ => rfl) fun _ _ => rfl, reads (fun _ _ => rfl) fun _ _ => rfl, reads (fun _ _ => rfl) fun _ _ => rfl, reads (fun _ _ => rfl) fun _ _ => rfl, reads (fun _ _ => rfl) fun _ _ => rfl, reads (fun _ _ => rfl) fun _ _ => rfl, reads (fun _ _ => rfl) fun _ _ => rfl, reads (fun _ _ => rfl) fun _ _ => rfl, reads (fun _ _ => rfl) fun _ _ => rfl, reads (fun _ _ => rfl) fun _ _ => rfl, reads (fun _ _ => rfl) fun _ _ => rfl⟩

/-- Settles O2: each run answers at once with its data. -/
theorem readingCommandsOfUnitsAnswer : Obligations.ReadingCommandsOfUnitsAnswer := by
  unfold Obligations.ReadingCommandsOfUnitsAnswer
  refine ⟨reads (fun _ _ => rfl) fun _ _ => rfl, reads (fun _ _ => rfl) fun _ _ => rfl,
    completes (fun _ _ => rfl) fun c s h => ?member, completes (fun _ _ => rfl) fun c s h => if_neg (by simp [h]),
    reads (fun _ _ => rfl) fun _ _ => rfl, reads (fun _ _ => rfl) fun _ _ => rfl, reads (fun _ _ => rfl) fun _ _ => rfl,
    reads (fun _ _ => rfl) fun _ _ => rfl, reads (fun _ _ => rfl) fun _ _ => rfl, reads (fun _ _ => rfl) fun c s => ?flow,
    fun tx rx => reads (fun _ _ => rfl) fun _ _ => rfl, reads (fun _ _ => rfl) fun _ _ => rfl, reads (fun _ _ => rfl) fun _ _ => rfl,
    reads (fun _ _ => rfl) fun _ _ => rfl, reads (fun _ _ => rfl) fun _ _ => rfl, reads (fun _ _ => rfl) fun _ _ => rfl,
    completes (fun _ _ => rfl) fun c s h => ?sta, completes (fun _ _ => rfl) fun c s h => ?csi,
    completes (fun _ _ => rfl) fun c s h => ?fence, reads (fun _ _ => rfl) fun _ _ => rfl, reads (fun _ _ => rfl) fun _ _ => rfl,
    reads (fun _ _ => rfl) fun _ _ => rfl, reads (fun _ _ => rfl) fun _ _ => rfl, reads (fun _ _ => rfl) fun _ _ => rfl⟩
  case member =>
    refine (if_neg (by simp [h])).trans ?_
    cases memberOf (u16 c.params 0) s <;> rfl
  case flow =>
    unfold routerGetFlowRun
    cases kget s.router.flows (u16 c.params 0) <;> rfl
  case sta =>
    obtain ⟨x, hx⟩ := exists_of_khas h
    simp [schedGetStaRun, hx, answer]
  case csi => simp [bfGetCsiRun, h, answer]
  case fence =>
    obtain ⟨x, hx⟩ := exists_of_khas h
    simp [seederGetFenceRun, hx, answer]

end Sys2Proof.Machine
end

section
/-!
SUPPORT. The radio and PHY commands.
-/
namespace Sys2Proof.Machine
open Sys2Proof

/-! Registers of a vector. -/

theorem vmod_congr {α : Type} [Inhabited α] {n : Nat} {v : Vector α n} {i : Nat} {f g : α → α} (h : f (vget v i) = g (vget v i)) :
    vmod v i f = vmod v i g := congrArg (vset v i) h

/-- A change leaves alone what its function leaves alone, in range or not. -/
theorem vget_vmod_proj {α β : Type} [Inhabited α] {n : Nat} (v : Vector α n) (i j : Nat) {f : α → α} (p : α → β) (h : ∀ x, p (f x) = p x) :
    p (vget (vmod v i f) j) = p (vget v j) := by
  by_cases hj : j = i
  · subst hj
    by_cases hn : j < n
    · rw [vget_vmod_same v j f hn, h]
    · simp [vmod, vset, vget, hn]
  · rw [vget_vmod_other v f hj]

theorem withFe_congr {r : Nat} {f g : RadioFe → RadioFe} {s : State} (h : f (vget s.fe r) = g (vget s.fe r)) :
    withFe r f s = withFe r g s := congrArg (fun x => { s with fe := x }) (vmod_congr h)

theorem withChain_proj {β : Type} (p : RadioFe → β) (h : ∀ e x, p { e with chains := x } = p e) (r c j : Nat) (f : Chain → Chain) (s : State) :
    p (vget (withChain r c f s).fe j) = p (vget s.fe j) := vget_vmod_proj s.fe r j p fun e => h e _

/-- The radio is in OFF, in no transition and in no calibration. -/
def atRest (e : RadioFe) : Prop := e.state = .off ∧ e.trans = none ∧ e.cal = none

theorem atRest_iff (e : RadioFe) : (e.state = .off ∧ e.trans.isNone ∧ e.cal.isNone) ↔ atRest e := by simp [atRest]

theorem setChannelRun_free {c : Cmd} {s : State} (hgate : channelGate (u8 c.params 0) (u8 c.params 1) (u8 c.params 2) (u16 c.params 4) s = none)
    (hreq : (vget s.fe (u8 c.params 0)).chanReq = none) (hsw : (vget s.fe (u8 c.params 0)).sw = none) :
    setChannelRun c s =
      let p := c.params
      let at_ := announceAt (u8 p 0) (u8 p 3) s
      let q : ChanReq := { handle := some c.handle, bw := u8 p 1, prim := u8 p 2, centre := u16 p 4, force := bit (u8 p 6) 0,
                           announced := at_.isSome, count := u8 p 3, at_ := at_ }
      if (vget s.fe (u8 p 0)).state = .off ∧ (vget s.fe (u8 p 0)).trans.isNone ∧ (vget s.fe (u8 p 0)).cal.isNone then
        .complete .ok (chanData (u8 p 0) (vget (storeChannel (u8 p 0) q s).fe (u8 p 0)) 0 0) (storeChannel (u8 p 0) q s)
      else .hold (withFe (u8 p 0) (fun e => { e with chanReq := some q }) s) := by
  unfold setChannelRun
  simp only [hgate, hreq, hsw, Option.isSome_none, Bool.or_self, Bool.false_eq_true, if_false]

theorem calibrateRun_busy {c : Cmd} {s : State} (h : ¬ atRest (vget s.fe (u8 c.params 0))) :
    calibrateRun c s = .hold (withFe (u8 c.params 0) (fun e =>
      let q : CalCmd := { handle := c.handle, segs := bits (u8 c.params 1) 0 4, force := bit (u8 c.params 2) 0, started := false }
      if e.calCmd.isSome then { e with calWait := e.calWait ++ [q] } else { e with calCmd := some q }) s) := if_neg (by rwa [atRest_iff])

/-- Within a TXOP or a transmission a chain's change waits. -/
theorem chainBoundary_held {r : Nat} {s : State} (h : (vget s.fe r).txopHeld = true ∨ (vget s.fe r).tx ≠ none) : chainBoundary r s = s := by
  refine if_pos ?_
  obtain h | h := h
  · simp [h]
  · simp [Option.isSome_iff_ne_none.mpr h]

theorem rffeRun_atRest {c : Cmd} {s : State} {rd : RffeAnswer}
    (h : ((vget s.fe (u8 c.params 0)).state = .off ∨ (vget s.fe (u8 c.params 0)).state = .standby) ∧
      (vget s.fe (u8 c.params 0)).trans = none ∧ (vget s.fe (u8 c.params 0)).cal = none) :
    rffeRun rd c s =
      let p := c.params
      if bit (u8 p 3) 0 then
        let ask (t : State) : State := emit (.rffe (u8 p 0) (u8 p 1) (u8 p 2) (readCmd (u16 p 4)) (u16 p 4) 0 0xFF) t
        match rd with
        | .first b => .complete .ok [b] (ask s)
        | .second b => .complete .ok [b] (ask (ask s))
        | .silent => .complete .timeout [] (feCount (u8 p 0) 14 (ask (ask s)))
      else .complete .ok [0]
        (rffeWrite (u8 p 0) (u8 p 1) (u8 p 2) (u16 p 4) (u8 p 6) (if bit (u8 p 3) 1 then u8 p 7 else 0xFF) s) := by
  obtain ⟨hstate, htrans, hcal⟩ := h
  refine if_neg ?_
  simp only [htrans, hcal, Option.isSome_none, Bool.false_eq_true, or_false]
  exact fun hne => hstate.elim hne.1 hne.2

theorem testTxRun_start {c : Cmd} {s : State}
    (hfmt : formatCarried (u8 c.params 0) (vget s.fe (u8 c.params 0)) (u8 c.params 1) (u8 c.params 2) = true) (hmode : s.life.mode = .test)
    (hstate : (vget s.fe (u8 c.params 0)).state = .rx ∨ (vget s.fe (u8 c.params 0)).state = .standby)
    (hnone : (vget s.fe (u8 c.params 0)).testTx = none) (hleft : u16 c.params 6 ≠ 0) :
    testTxRun c s = .hold (withFe (u8 c.params 0) (fun e => { e with testTx := some (testOf c) }) s) := by
  unfold testTxRun
  simp [hfmt, hmode, hnone, hleft, hstate]

/-- Settles O3: each run under the conditions that pass its own checks. -/
theorem radioCommandsTakeEffect : Obligations.RadioCommandsTakeEffect := by
  unfold Obligations.RadioCommandsTakeEffect
  refine ⟨stays (fun _ _ => rfl) fun _ _ _ => rfl, completes (fun _ _ => rfl) fun c s h => ?channelNow,
    stays (fun _ _ => rfl) fun c s h => ?channelLater, stays (fun _ _ => rfl) fun c s h => ?calFirst,
    stays (fun _ _ => rfl) fun c s h => ?calNext, sets (fun _ _ => rfl) fun c s h => ?femMap, sets (fun _ _ => rfl) fun _ _ _ => rfl,
    sets (fun _ _ => rfl) fun _ _ _ => rfl, sets (fun _ _ => rfl) fun c s h => ?chainHeld, sets (fun _ _ => rfl) fun c s h => ?restore,
    fun b again => completes (fun _ _ => rfl) fun c s h => ?rffeRead, fun rd => completes (fun _ _ => rfl) fun c s h => ?rffeWrite,
    sets (fun _ _ => rfl) fun _ _ _ => rfl, sets (fun _ _ => rfl) fun _ _ _ => rfl, stays (fun _ _ => rfl) fun c s h => ?testTx⟩
  case channelNow =>
    obtain ⟨hgate, hreq, hsw, hrest⟩ := h
    rw [setChannelRun_free hgate hreq hsw]
    exact if_pos ((atRest_iff _).mpr hrest)
  case channelLater =>
    obtain ⟨hgate, hreq, hsw, hrest⟩ := h
    rw [setChannelRun_free hgate hreq hsw]
    exact if_neg (mt (atRest_iff _).mp hrest)
  case calFirst =>
    rw [calibrateRun_busy h.1]
    exact congrArg Effect.hold (withFe_congr (by simp [h.2]))
  case calNext =>
    rw [calibrateRun_busy h.1]
    exact congrArg Effect.hold (withFe_congr (by simp [Option.isSome_iff_ne_none.mpr h.2]))
  case femMap => exact if_neg (by simp [h.1, h.2.1, h.2.2])
  case chainHeld =>
    obtain ⟨hheld, htuner⟩ := h
    simp only [setChainRun, htuner, Bool.false_eq_true, if_false]
    refine congrArg okay (chainBoundary_held ?_)
    rwa [withChain_proj RadioFe.txopHeld fun _ _ => rfl, withChain_proj RadioFe.tx fun _ _ => rfl]
  case restore => exact if_neg (by simp [h])
  case rffeRead =>
    obtain ⟨hstate, htrans, hcal, hread⟩ := h
    rw [rffeRun_atRest ⟨hstate, htrans, hcal⟩]
    simp only [hread, if_true]
    cases again <;> rfl
  case rffeWrite =>
    obtain ⟨hstate, htrans, hcal, hread⟩ := h
    rw [rffeRun_atRest ⟨hstate, htrans, hcal⟩]
    simp only [hread, Bool.false_eq_true, if_false]
  case testTx =>
    obtain ⟨hfmt, hmode, hstate, hnone, hleft⟩ := h
    exact testTxRun_start hfmt hmode hstate hnone hleft

end Sys2Proof.Machine
end

section
/-!
SUPPORT. The medium-access commands.
-/
namespace Sys2Proof.Machine
open Sys2Proof

/-- A change that makes no beacon longer than it may be, where none was before. -/
theorem tooLong_guard {a b : Bool} (h : a = true → b = true) : (a && !b) = false := by
  cases a
  · rfl
  · simp [h rfl]

theorem setBssRun_fits {c : Cmd} {s : State} (hfits : setFits c.params (allNext s) = true) (hreq : (vget s.fe (u8 c.params 0)).chanReq = none)
    (hlong : beaconTooLong (bssWrite c.params (allNext s)) = true → beaconTooLong (allNext s) = true) :
    setBssRun c s = okay (withBss (u8 c.params 1) (fun x => { x with setNext := some c.params }) s) := by
  unfold setBssRun
  simp only [hfits, hreq, tooLong_guard hlong, Bool.not_true, Bool.false_eq_true, if_false, Option.isSome_none]

/-- The template a MAC_SET_BEACON carries. -/
def templateOf (p : List Byte) : Template := { rate := u8 p 1, body := slice p 8 (u16 p 2), timOffset := u16 p (8 + u16 p 2) }

theorem setBeaconRun_fits {c : Cmd} {s : State}
    (hbody : worstBeacon (u8 c.params 0) (templateOf c.params)
      (withBss (u8 c.params 0) (fun x => { x with template := some (templateOf c.params) }) (allNext s)) ≤ 2304)
    (hlong : beaconTooLong (withBss (u8 c.params 0) (fun x => { x with template := some (templateOf c.params) }) (allNext s)) = true →
      beaconTooLong (allNext s) = true) :
    setBeaconRun c s = okay (withBss (u8 c.params 0) (fun x => { x with tmplNext := some (templateOf c.params) }) s) := by
  unfold templateOf at *
  unfold setBeaconRun
  extract_lets p n t v u
  have hguard : (beaconTooLong u && !beaconTooLong v) = false := tooLong_guard hlong
  rw [hguard, Bool.or_false, if_neg (by simpa using hbody)]

/-- The station a MAC_ADD_STA writes. -/
def stationOf (p : List Byte) : Sta :=
  { mld := if u8 p 2 = 0xFF then none else some (u8 p 2), links := u8 p 3, addr := slice p 4 6, aid := u16 p 10
    block := #v[addBlock p 0, addBlock p 1, addBlock p 2] }

theorem addStaRun_outside {c : Cmd} {s : State} (hlinks : mldLinksOk c.params s = true) (hfree : khas s.mac.sta (u16 c.params 0) = false)
    (haid : aidFree c.params s = true) (hdomain : staDomain (stationOf c.params) s = none) :
    addStaRun c s =
      okay (linkEvaluate (u16 c.params 0) none (withMac (fun m => { m with sta := kset m.sta (u16 c.params 0) (stationOf c.params) }) s)) := by
  unfold stationOf at hdomain
  unfold addStaRun
  simp only [hdomain, hlinks, hfree, haid, Bool.not_true, Bool.false_eq_true, if_false]
  rfl

theorem setMldRun_free {c : Cmd} {s : State} (hsta : ∀ q ∈ s.mac.sta, q.2.mld ≠ some (u8 c.params 0))
    (hmld : ∀ k < 16, k ≠ u8 c.params 0 → vget s.mac.mld k = none) :
    setMldRun c s = okay (withMac (fun m => { m with mld := vset m.mld (u8 c.params 0) (some {
      links := Vector.ofFn fun i => if u8 c.params (1 + i.val) = 0xFF then none else some (u8 c.params (1 + i.val))
      addr := slice c.params 4 6 }) }) s) := by
  unfold setMldRun
  extract_lets p n v clash
  have hclash : clash = false := by
    simp only [clash, List.any_eq_false, List.mem_range]
    intro k hk
    by_cases hkn : k = n
    · simp [hkn]
    · simp [hmld k hk hkn]
  have hany : (s.mac.sta.any fun q => q.2.mld == some n) = false := by
    simp only [List.any_eq_false]
    exact fun q hq => by simpa using hsta q hq
  rw [hclash, hany, if_neg Bool.false_ne_true, if_neg Bool.false_ne_true]

/-- Settles O4: each run under the conditions that pass its own checks. -/
theorem macCommandsTakeEffect : Obligations.MacCommandsTakeEffect := by
  unfold Obligations.MacCommandsTakeEffect
  refine ⟨sets (fun _ _ => rfl) fun c s h => setBssRun_fits h.1 h.2.1 h.2.2, fails (fun _ _ => rfl) fun c s h => ?unfit,
    sets (fun _ _ => rfl) fun c s h => setBeaconRun_fits h.1 h.2, sets (fun _ _ => rfl) fun c s h => if_pos h,
    sets (fun _ _ => rfl) fun c s h => if_neg h, sets (fun _ _ => rfl) fun _ _ _ => rfl,
    sets (fun _ _ => rfl) fun c s h => addStaRun_outside h.1 h.2.1 h.2.2.1 h.2.2.2, completes (fun _ _ => rfl) fun _ _ _ => rfl,
    sets (fun _ _ => rfl) fun _ _ _ => rfl, sets (fun _ _ => rfl) fun c s h => setMldRun_free h.1 h.2,
    sets (fun _ _ => rfl) fun c s h => ?twt, sets (fun _ _ => rfl) fun c s h => if_pos h, sets (fun _ _ => rfl) fun c s h => ?uplink,
    sets (fun _ _ => rfl) fun _ _ _ => rfl⟩
  case unfit => exact if_pos (by simp [h])
  case twt =>
    unfold setTwtRun
    simp only [tooLong_guard h, Bool.false_eq_true, if_false]
  case uplink =>
    unfold setUplinkRun
    simp only [h.1, h.2, if_false, Bool.not_true, Bool.false_eq_true]

end Sys2Proof.Machine
end

section
/-!
SUPPORT. The scheduler, Harrow and beamforming commands.
-/
namespace Sys2Proof.Machine
open Sys2Proof

/-! Leases and jobs. -/

theorem leaseRun_room {c : Cmd} {s : State} {k : Nat} (hk : kfree s.harrow.lease 4 = some k) (hslots : slotsHeld s + u8 c.params 0 ≤ 4)
    (hlanes : u8 c.params 0 ≤ (slotLanes s).length) (hscratch : scratchHeld s + u16 c.params 2 ≤ s.dram.scratch)
    (hleft : 8 ≤ lanesLeft (leaseTake c.handle c.params k s)) :
    leaseRun c s = .hold (fixSets 2 0xFFFF false (leaseTake c.handle c.params k s)) := by
  unfold leaseRun
  rw [hk]
  dsimp only
  rw [if_neg (by omega), if_neg (by omega)]

theorem leaseReleaseRun_held {c : Cmd} {s : State} (h : leaseHeld (u8 c.params 0) s = true) :
    leaseReleaseRun c s =
      let k := u8 c.params 0
      let t := dropJobs k (fun _ => true) .aborted s
      let lanes := (List.range 16).filter fun l => match (lane l t).slot with | some q => q / 4 == k | none => false
      let u := (List.range 16).foldl (fun u l => if ((lane l u).job.map (·.lease == k)).getD false then endJob l 6 u else u) t
      let v := lanes.foldl (fun v l => withLane l (fun x => { x with wiping := true }) v) u
      .hold (settleLease k (withLease k (fun e => { e with drop := some c.handle }) v)) := if_neg (by simp [h])

theorem leaseHeld_some {k : Nat} {s : State} (h : leaseHeld k s = true) : ∃ e, kget s.harrow.lease k = some e := by
  unfold leaseHeld at h
  split at h
  · next e he => exact ⟨e, he⟩
  · cases h

/-- The job a HARROW_SUBMIT_JOB describes (Table 9.16). -/
def submitted (h : Word) (n : Nat) (p : List Byte) : Job :=
  { handle := h, lease := u8 p 0, slot := n, wipe := bit (u8 p 2) 0, fallOk := bit (u8 p 2) 1
    prog := u16 p 8, entry := u16 p 10, ivec := (List.range 4).map fun i => u16 p (12 + 2 * i), budget := u32 p 20
    init := (List.range 4).map fun i => u32 p (24 + 4 * i)
    inSegs := (jobSegs p).filter (!·.out), outSegs := (jobSegs p).filter (·.out) }

/-- A job for a slot whose lane is in no fallback waits in its lease's queue. -/
theorem submitRun_queued {c : Cmd} {s : State} {e : Lease} {n l : Nat} (he : kget s.harrow.lease (u8 c.params 0) = some e)
    (hheld : leaseHeld (u8 c.params 0) s = true) (hroom : e.queue.length < 16) (hslot : slotFor e (u8 c.params 1) s = some n)
    (hlane : (e.slots[n]?).getD none = some l) (hfall : (lane l s).fallback = false) :
    submitRun c s = .hold (withLease (u8 c.params 0) (fun e => { e with queue := e.queue ++ [submitted c.handle n c.params] }) s) := by
  unfold submitRun
  simp only [he, hheld, Bool.not_true, Bool.false_eq_true, if_false, Nat.not_le.mpr hroom, hslot, hlane]
  exact congrArg Effect.hold (if_neg (by rw [Bool.not_eq_true]; exact hfall))

/-- A running job ends with fault 6, and the stop names its handle. -/
theorem stopRun_running {c : Cmd} {s : State} {l : Nat} {j : Job} (hheld : leaseHeld (u8 c.params 0) s = true)
    (hfind : (List.range 16).find? (fun l => (lane l s).slot == some (4 * u8 c.params 0 + u8 c.params 1) && (lane l s).job.isSome) = some l)
    (hjob : (lane l s).job = some j) (hphase : (lane l s).phase = .program ∨ (lane l s).phase = .outbound) :
    stopRun c s = answer (le 4 j.handle.toNat) (endJob l 6 s) := by
  unfold stopRun
  simp only [hheld, Bool.not_true, Bool.false_eq_true, if_false, hfind, hjob]
  obtain h | h := hphase <;> rw [h]

/-- Settles O5: each run under the conditions that pass its own checks. -/
theorem schedulerHarrowBfCommandsTakeEffect : Obligations.SchedulerHarrowBfCommandsTakeEffect := by
  unfold Obligations.SchedulerHarrowBfCommandsTakeEffect
  refine ⟨sets (fun _ _ => rfl) fun _ _ _ => rfl, sets (fun _ _ => rfl) fun _ _ _ => rfl, sets (fun _ _ => rfl) fun c s h => if_neg (by simp [h]),
    sets (fun _ _ => rfl) fun _ _ _ => rfl, completes (fun _ _ => rfl) fun _ _ _ => rfl, fun m buf r s k hready => ?lease,
    stays (fun _ _ => rfl) fun c s h => leaseReleaseRun_held h, fails (fun _ _ => rfl) fun c s h => if_pos (by simp [h]),
    fails (fun _ _ => rfl) fun c s h => ?submit, fails (fun _ _ => rfl) fun c s h => if_pos (by simp [h]),
    sets (fun _ _ => rfl) fun _ _ _ => rfl, sets (fun _ _ => rfl) fun _ _ _ => rfl, sets (fun _ _ => rfl) fun _ _ _ => rfl,
    stays (fun _ _ => rfl) fun c s h => if_neg h, sets (fun _ _ => rfl) fun _ _ _ => rfl⟩
  case lease =>
    intro p u hk hslots hlanes hscratch hleft
    rw [exec_ready (fun _ _ => rfl) hready, leaseRun_room (c := cmdOf harrowLeaseForm m buf r) hk hslots hlanes hscratch hleft]
    rfl
  case submit =>
    unfold submitRun
    simp only [h]

/-- Settles O6: a submitted job is appended to the queue, a running one is ended. -/
theorem harrowJobsAreQueuedAndStopped : Obligations.HarrowJobsAreQueuedAndStopped := by
  unfold Obligations.HarrowJobsAreQueuedAndStopped
  refine ⟨fun m buf r s e n l hready => ?submit, fun m buf r s l j hready => ?stop⟩
  case submit =>
    intro p he hheld hroom hslot hlane hfall
    rw [exec_ready (fun _ _ => rfl) hready,
      submitRun_queued (c := cmdOf harrowSubmitJobForm m buf r) he hheld hroom hslot hlane hfall]
    rfl
  case stop =>
    intro p hheld hfind hjob hphase
    rw [exec_ready (fun _ _ => rfl) hready, stopRun_running (c := cmdOf harrowStopJobForm m buf r) hheld hfind hjob hphase]
    rfl

end Sys2Proof.Machine
end

section
/-!
SUPPORT. The Seeder, rope and time commands.
-/
namespace Sys2Proof.Machine
open Sys2Proof

theorem setFenceRun_free {c : Cmd} {s : State} (hself : u8 c.params 2 = 3 ∧ s.rope.role ≠ .none → u16 c.params 6 ≠ s.rope.index)
    (hconflict : fenceConflict (u16 c.params 0) { kind := u8 c.params 2, bytes := c.params } s = none) :
    setFenceRun c s = .complete .ok [0, 0, 0xFF, 0xFF]
      (fenceApply (u16 c.params 0) { kind := u8 c.params 2, bytes := c.params } (withSeed (fun x =>
        { x with fences := kset x.fences (u16 c.params 0) { kind := u8 c.params 2, bytes := c.params } }) s)) := by
  unfold setFenceRun
  extract_lets p k f
  have hown : (decide (f.kind = 3) && s.rope.role != .none && u16 p 6 == s.rope.index) = false := by
    by_cases hk : f.kind = 3 <;> by_cases hr : s.rope.role = .none
    · simp [hr]
    · simp [hself ⟨hk, hr⟩, p]
    · simp [hk]
    · simp [hk]
  have hfree : fenceConflict k f s = none := hconflict
  simp only [hown, hfree, Bool.false_eq_true, if_false]
  rfl

theorem mem_knPorts {q : Nat} {s : State} (h : q ∈ knPorts s) : q < 2 := List.mem_range.mp (List.mem_filter.mp h).1

theorem ropeJoinRun_free {c : Cmd} {s : State} (hrole : s.rope.role = .none) (hlife : s.life.lcState ≠ 3) (htb : (tbOfRole .rope s).isSome = true)
    (hkey : kennarKey (u16 c.params 4) s = true) (hfilters : ∀ q < 2, 3 ≤ (freeFilters q s).length) :
    ropeJoinRun c s = .hold (startJoin ((knPorts (joinWrite c.handle c.params s)).foldl takeFilters (joinWrite c.handle c.params s))) := by
  have hroom : ((knPorts (joinWrite c.handle c.params s)).any fun q => (freeFilters q s).length < 3) = false := by
    simp only [List.any_eq_false, decide_eq_true_eq]
    exact fun q hq => Nat.not_lt.mpr (hfilters q (mem_knPorts hq))
  have hguard : ¬ (s.rope.role ≠ .none ∨ s.life.lcState = 3 ∨ (tbOfRole .rope s).isNone ∨ !kennarKey (u16 c.params 4) s) := by
    simp [hrole, hlife, hkey, Option.isSome_iff_ne_none.mp htb]
  unfold ropeJoinRun
  simp only [hguard, hroom, Bool.false_eq_true, if_false]

theorem ropeLeaveRun_joined {c : Cmd} {s : State} (hjoined : joined s = true) (hlead : bit (u8 c.params 0) 0 = true → s.rope.role = .lead) :
    ropeLeaveRun c s = okay (leaveRope (knRope 5 ([byte (put (bit (u8 c.params 0) 0) 0)] ++ le 7 0) s)) := by
  refine if_neg ?_
  cases hbit : bit (u8 c.params 0) 0
  · simp [hjoined]
  · simp [hjoined, hlead hbit]

theorem setRopeKeyRun_keep {c : Cmd} {s : State} (hkey : kennarKey (u16 c.params 0) s = true) (hjoined : joined s = true)
    (hswitch : bit (u8 c.params 2) 0 = false) :
    setRopeKeyRun c s = answer (le 8 s.rope.switchNum) (withRope (fun x => { x with nextSlot := some (u16 c.params 0) }) s) := by
  unfold setRopeKeyRun
  simp only [hkey, hjoined, hswitch, Bool.not_true, Bool.false_and, Bool.or_self, Bool.false_eq_true, if_false]
  rfl

theorem roleOf_eq_rope {n : Nat} : roleOf n = .rope ↔ n = 1 := by
  unfold roleOf
  split <;> simp_all

theorem setRoleRun_allowed {c : Cmd} {s : State}
    (h : s.rope.role = .none ∨ (u8 c.params 1 ≠ 1 ∧ (vget s.time.tb (u8 c.params 0)).role ≠ .rope) ∨
      (u8 c.params 1 = 1 ∧ (vget s.time.tb (u8 c.params 0)).role = .rope)) : setRoleRun c s = okay (roleTake c.params s) := by
  refine if_neg ?_
  rintro ⟨hrope, hchange, hne⟩
  obtain h | ⟨hnew, hold⟩ | ⟨hnew, hold⟩ := h
  · exact hrope h
  · exact hchange.elim (mt roleOf_eq_rope.mp hnew) hold
  · exact hne ((roleOf_eq_rope.mpr hnew).trans hold.symm)

/-- Settles O7: each run under the conditions that pass its own checks. -/
theorem seederRopeTimeCommandsTakeEffect : Obligations.SeederRopeTimeCommandsTakeEffect := by
  unfold Obligations.SeederRopeTimeCommandsTakeEffect
  refine ⟨sets (fun _ _ => rfl) fun _ _ _ => rfl, completes (fun _ _ => rfl) fun c s h => setFenceRun_free h.1 h.2,
    sets (fun _ _ => rfl) fun c s h => if_pos h, sets (fun _ _ => rfl) fun c s h => ?clear, completes (fun _ _ => rfl) fun c s h => ?evaluate,
    completes (fun _ _ => rfl) fun c s h => ?test, stays (fun _ _ => rfl) fun c s h => ?join,
    sets (fun _ _ => rfl) fun c s h => ropeLeaveRun_joined h.1 h.2, completes (fun _ _ => rfl) fun c s h => setRopeKeyRun_keep h.1 h.2.1 h.2.2,
    sets (fun _ _ => rfl) fun c s h => setRoleRun_allowed h, sets (fun _ _ => rfl) fun _ _ _ => rfl,
    sets (fun _ _ => rfl) fun c s h => if_neg (by simp [h.1, h.2]), sets (fun _ _ => rfl) fun _ _ _ => rfl⟩
  case clear =>
    unfold seederClearFenceRun
    simp only [h.1, h.2, if_false, Bool.not_true, Bool.false_eq_true]
  case evaluate =>
    obtain ⟨hmode, hone⟩ := h
    simp only [evaluateRun, hmode, hone, if_false]
    rfl
  case test =>
    simp only [evaluateRun, h]
    rfl
  case join =>
    obtain ⟨hrole, hlife, htb, hkey, hfilters⟩ := h
    exact ropeJoinRun_free hrole hlife htb hkey hfilters

end Sys2Proof.Machine
end

section
/-!
SUPPORT. The router and port commands.
-/
namespace Sys2Proof.Machine
open Sys2Proof

theorem withPort_congr {p : Nat} {f g : Port → Port} {s : State} (h : f (port p s) = g (port p s)) : withPort p f s = withPort p g s :=
  congrArg (fun x => { s with eth := x }) (vmod_congr h)

theorem withRouter_congr {f g : Router → Router} {s : State} (h : f s.router = g s.router) : withRouter f s = withRouter g s :=
  congrArg (fun x => { s with router := x }) h

/-- A flow that is known keeps its entry where its result's first word is the same. -/
theorem setFlowRun_known {c : Cmd} {s : State} {i : Nat} {old : Flow} (hfind : flowFind (slice c.params 8 48) s = some (i, old))
    (hsame : old.result.take 4 = (slice c.params 56 16).take 4) :
    setFlowRun c s = .complete .ok (le 2 i ++ [1, 0]) (withRouter (fun x => { x with
      flows := kset x.flows i { old with idle := u16 c.params 0, result := slice c.params 56 16, hitAt := s.now } }) s) := by
  unfold setFlowRun
  simp only [hfind, hsame, if_true]

theorem setRouteRun_first {c : Cmd} {s : State} (hnone : s.router.routes = []) (hadd : bit (u8 c.params 0) 1 = false) :
    setRouteRun c s = okay (withRouter (fun x => { x with routes := [{
      v6 := bit (u8 c.params 0) 0, table := u8 c.params 1, len := u8 c.params 2
      prefix_ := slice c.params 8 (if bit (u8 c.params 0) 0 then 16 else 4), kind := u8 c.params 3, arg := u16 c.params 4 }] }) s) := by
  have hroom (b : Bool) : ¬ (0 ≥ if b then 2048 else 4096) := by cases b <;> decide
  unfold setRouteRun
  simp only [hnone, hadd, Bool.false_eq_true, if_false, List.filter_nil, List.length_nil, hroom, List.nil_append]

theorem setDomainRun_free {c : Cmd} {s : State} (h : ∀ i < 64, i ≠ u8 c.params 0 → domainClash (domainOf c.params) (vget s.router.domain i) = false) :
    routerSetDomainRun c s =
      okay (stationEntries (withRouter (fun x => { x with domain := vset x.domain (u8 c.params 0) (domainOf c.params) }) s)) := by
  refine if_neg ?_
  simp only [List.any_eq_true, List.mem_range, Bool.and_eq_true, bne_iff_ne, ne_eq, not_exists, not_and]
  exact fun i hi hne => by simp [h i hi hne]

/-- A port whose link parameters stay as they are keeps its link. -/
theorem configureRun_sameLink {c : Cmd} {s : State} (hidle : (port (u8 c.params 0) s).stepping = none)
    (hmode : (port (u8 c.params 0) s).mode = u8 c.params 1) (hspeeds : (port (u8 c.params 0) s).anSpeeds = u8 c.params 2)
    (hfec : (port (u8 c.params 0) s).fecCfg = u8 c.params 3) :
    configureRun c s = okay (withPort (u8 c.params 0) (fun y =>
      let z : Port := { y with
        maxFrame := u16 c.params 4, bcast := bit (u8 c.params 6) 0, promisc := bit (u8 c.params 6) 1
        pauseEn := bit (u8 c.params 6) 2, preemptEn := bit (u8 c.params 6) 3, preempt := y.preempt && bit (u8 c.params 6) 3
        verifyTime := u8 c.params 7, mac := slice c.params 8 6 }
      { z with fallow := z.fallow && mayStep z, upDue := z.upDue && mayStep z }) s) := by
  unfold configureRun
  simp only [hidle, hmode, hspeeds, hfec, Option.isSome_none, Bool.false_eq_true, if_false, bne_self_eq_false, Bool.or_self]
  refine congrArg okay (withPort_congr ?_)
  simp only [← hmode, ← hspeeds, ← hfec]

theorem setFilterRun_locked {c : Cmd} {s : State} {e : Filt} (he : kget (port (u8 c.params 0) s).filter (u8 c.params 1) = some e)
    (hrope : e.rope ≠ 0) : setFilterRun c s = .fail .locked := if_pos (by simp [he, hrope])

theorem setFilterRun_new {c : Cmd} {s : State} (hfree : kget (port (u8 c.params 0) s).filter (u8 c.params 1) = none)
    (hset : bit (u8 c.params 2) 0 = true) :
    setFilterRun c s = okay (withPort (u8 c.params 0) (fun x => { x with filter := kset x.filter (u8 c.params 1) { addr := slice c.params 4 6 } }) s) := by
  unfold setFilterRun
  simp only [hfree, hset, Option.map_none, Option.getD_none, Bool.false_eq_true, if_false, if_true]

/-- Settles O8: each run under the conditions that pass its own checks. -/
theorem routerPortCommandsTakeEffect : Obligations.RouterPortCommandsTakeEffect := by
  unfold Obligations.RouterPortCommandsTakeEffect
  refine ⟨sets (fun _ _ => rfl) fun _ _ _ => rfl, fun i old => completes (fun _ _ => rfl) fun c s h => setFlowRun_known h.1 h.2,
    fun f => completes (fun _ _ => rfl) fun c s h => ?delFlow, fails (fun _ _ => rfl) fun c s h => ?noFlow,
    sets (fun _ _ => rfl) fun _ _ _ => rfl, sets (fun _ _ => rfl) fun c s h => setRouteRun_first h.1 h.2,
    sets (fun _ _ => rfl) fun c s h => ?neigh, sets (fun _ _ => rfl) fun c s h => ?fdbAdd, sets (fun _ _ => rfl) fun c s h => if_pos (by simp [h]),
    completes (fun _ _ => rfl) fun c s h => ?flush, sets (fun _ _ => rfl) fun c s h => setDomainRun_free h,
    sets (fun _ _ => rfl) fun _ _ _ => rfl, sets (fun _ _ => rfl) fun _ _ _ => rfl, sets (fun _ _ => rfl) fun _ _ _ => rfl,
    sets (fun _ _ => rfl) fun _ _ _ => rfl, sets (fun _ _ => rfl) fun c s h => ?excTotal, sets (fun _ _ => rfl) fun c s h => ?excReason,
    sets (fun _ _ => rfl) fun c s h => configureRun_sameLink h.1 h.2.1 h.2.2.1 h.2.2.2, fails (fun _ _ => rfl) fun c s h => ?filterLocked,
    sets (fun _ _ => rfl) fun c s h => setFilterRun_new h.1 h.2, sets (fun _ _ => rfl) fun c s h => ?fallow,
    fails (fun _ _ => rfl) fun c s h => if_pos (by simp [h])⟩
  case delFlow =>
    unfold routerDelFlowRun
    rw [h]
  case noFlow =>
    unfold routerDelFlowRun
    rw [h]
  case neigh =>
    unfold setNeighRun
    simp only [h, Bool.false_and, Bool.false_eq_true, if_false]
  case fdbAdd =>
    unfold setFdbRun
    simp only [h.1, Bool.not_true, Bool.false_eq_true, if_false, ge_iff_le, Nat.not_le.mpr h.2, decide_false, Bool.and_false]
  case flush =>
    unfold routerFlushFdbRun
    simp only [h.1, h.2, beq_self_eq_true, Bool.true_or, Bool.true_and, Bool.and_false, Bool.or_false]
  case excTotal => exact congrArg okay (withRouter_congr (if_pos h))
  case excReason => exact congrArg okay (withRouter_congr (if_neg h))
  case filterLocked =>
    obtain ⟨e, he, hrope⟩ := h
    exact setFilterRun_locked he hrope
  case fallow =>
    unfold setFallowRun
    simp only [h.1, h.2, Bool.not_true, Bool.false_eq_true, if_false, if_true]

end Sys2Proof.Machine
end

section
/-!
SUPPORT. The cipher commands.
-/
namespace Sys2Proof.Machine
open Sys2Proof

/-! What the key derivations share. -/

theorem withTrng_good {pass : Bool} {s : State} {go : State → Effect} (h : s.sec.trngBad = false) : withTrng pass s go = go s :=
  if_pos (by simp [h])

theorem derive_agrees {s : State} {go : State → Effect} (h : partFenced 0x1E s = false) : derive 0 s go = go s := by
  unfold derive
  simp only [h, Bool.false_eq_true, if_false]
  rfl

theorem sessionKek_label (nb q : List Byte) (s : State) :
    ∃ label, label.length = 10 ∧
      sessionKek nb q s = Config.hkdfSha384 nb (Config.identityEcdh q) (label ++ be 8 s.glb.serial.toNat ++ q) 32 := ⟨_, rfl, rfl⟩

theorem openSessionRun_free {pass : Bool} {c : Cmd} {s : State} (hfree : s.sec.session = false) (htrng : s.sec.trngBad = false) :
    openSessionRun pass c s =
      let nb := le 32 (draw 256 s).1.toNat
      let kek := sessionKek nb (slice c.params 0 97) s
      .complete .ok (nb ++ keyCheck kek ++ pad 8 []) (withSec (fun x => { x with session := true, kek := kek }) (draw 256 s).2) := by
  unfold openSessionRun
  simp only [hfree, Bool.false_eq_true, if_false]
  exact withTrng_good htrng

theorem loadKeyRun_stores {c : Cmd} {s : State} {key : List Byte} (hlife : s.life.lcState ≠ 3) (hsession : s.sec.session = true)
    (hfree : ∀ i < keySlots (u8 c.params 5), khas s.sec.slots (u16 c.params 0 + i) = false) (hsuite : u8 c.params 3 = 0)
    (hkey : Config.unwrapKey s.sec.kek (slice c.params 16 (u8 c.params 5 + 8)) = some key) (hlen : key.length = u8 c.params 5) :
    loadKeyRun c s = okay (storeKey (u16 c.params 0)
      { kind := u8 c.params 2, suite := 0, level := u8 c.params 4, key := key, txPn := if u64 c.params 8 = 0 then 1 else u64 c.params 8 }
      (keySlots (u8 c.params 5)) s) := by
  have hany : ((List.range (keySlots (u8 c.params 5))).any fun i => khas s.sec.slots (u16 c.params 0 + i)) = false := by
    simp only [List.any_eq_false, List.mem_range, Bool.not_eq_true]
    exact hfree
  unfold loadKeyRun
  simp only [hlife, if_false, hsession, hany, Bool.not_true, Bool.or_self, Bool.false_eq_true, hkey, Option.filter_some, hlen,
    beq_self_eq_true, if_true, hsuite]

theorem deleteKeyRun_idle {c : Cmd} {s : State} {x : KeySlot} (hslot : keySlot (u16 c.params 0) s = some x) (hpart : x.part = false)
    (hidle : slotBusy (u16 c.params 0) (unbindSlot (u16 c.params 0) s) = false) :
    deleteKeyRun c s = .complete .ok (le 4 0) (slotErase (u16 c.params 0) (unbindSlot (u16 c.params 0) s)) := by
  unfold deleteKeyRun
  simp only [hslot, hpart, hidle, Bool.false_eq_true, if_false]

theorem bindKeyRun_unbind {c : Cmd} {s : State} (hnone : u16 c.params 0 = 0xFFFF) (hsta : u8 c.params 2 = 0)
    (hknown : khas s.mac.sta (u16 c.params 4) = true) :
    bindKeyRun c s = okay (unbindKid 0 (u8 c.params 3) (u16 c.params 4) (u8 c.params 6) s) := by
  unfold bindKeyRun
  simp [hnone, hsta, hknown]

theorem bindKeyRun_both {c : Cmd} {s : State} (hslot : u16 c.params 0 ≠ 0xFFFF)
    (hok : bindOk (u16 c.params 0) (u8 c.params 2) (u8 c.params 3) (u16 c.params 4) (u8 c.params 6) s = true) (hsta : u8 c.params 2 = 0)
    (hknown : khas s.mac.sta (u16 c.params 4) = true) (hdir : u8 c.params 6 = 3) :
    bindKeyRun c s = okay (bindTx (u16 c.params 0) 0 (u8 c.params 3) (u16 c.params 4)
      (bindRx (u16 c.params 0) 0 (u8 c.params 3) (u16 c.params 4) (leNat (slice c.params 8 6)) s)) := by
  have hbits : bit 3 0 = true ∧ bit 3 1 = true := by decide
  rw [hsta, hdir] at hok
  unfold bindKeyRun
  simp [hslot, hok, hsta, hknown, hdir, hbits]

theorem setSaRun_rx {c : Cmd} {s : State} (hkind : kindOf (u16 c.params 4) s = 4) (hen : (vget s.sec.port (u8 c.params 0)).en = true)
    (hflags : u8 c.params 1 = 0) :
    setSaRun c s = okay (withSec (fun x => { x with port := vmod x.port (u8 c.params 0) fun y => { y with
      rx := kset y.rx (4 * u8 c.params 3 + u8 c.params 2)
        { slot := u16 c.params 4, pn := u64 c.params 16, next := u64 c.params 16, ssci := u32 c.params 24, salt := slice c.params 28 12 }
      rxSci := kset y.rxSci (u8 c.params 3) (slice c.params 8 8) } }) s) := by
  have hbits : bit 0 0 = false ∧ bit 0 1 = false := by decide
  unfold setSaRun
  simp [hkind, hen, hflags, hbits]

/-- Settles O9: each run under the conditions that pass its own checks. -/
theorem cipherCommandsTakeEffect : Obligations.CipherCommandsTakeEffect := by
  unfold Obligations.CipherCommandsTakeEffect
  refine ⟨fun nb pass => completes (fun _ _ => rfl) fun c s h => ?session, sessionKek_label,
    fun b => fails (fun _ _ => rfl) fun c s h => if_pos h, fun key => sets (fun _ _ => rfl) fun c s h => ?load,
    fails (fun _ _ => rfl) fun c s h => if_pos h, completes (fun _ _ => rfl) fun c s h => ?delete,
    sets (fun _ _ => rfl) fun c s h => bindKeyRun_unbind h.1 h.2.1 h.2.2, sets (fun _ _ => rfl) fun c s h => ?bind,
    sets (fun _ _ => rfl) fun c s h => ?stream, sets (fun _ _ => rfl) fun _ _ _ => rfl,
    sets (fun _ _ => rfl) fun c s h => setSaRun_rx h.1 h.2.1 h.2.2, fun d pass => completes (fun _ _ => rfl) fun c s h => ?sae,
    sets (fun _ _ => rfl) fun c s h => ?fourWay, completes (fun _ _ => rfl) fun c s h => ?eapol⟩
  case session =>
    obtain ⟨hfree, htrng, rfl⟩ := h
    exact openSessionRun_free hfree htrng
  case load =>
    obtain ⟨hlife, hsession, hfree, hsuite, hkey, hlen⟩ := h
    exact loadKeyRun_stores hlife hsession hfree hsuite hkey hlen
  case delete =>
    obtain ⟨⟨x, hslot, hpart⟩, hidle⟩ := h
    exact deleteKeyRun_idle hslot hpart hidle
  case bind =>
    obtain ⟨hslot, hok, hsta, hknown, hdir⟩ := h
    exact bindKeyRun_both hslot hok hsta hknown hdir
  case stream =>
    obtain ⟨hknown, hring⟩ := h
    unfold setStreamRun
    simp [hknown, hring]
  case sae =>
    obtain ⟨hop, hkind, hlen, hsession, htrng, hpart, rfl⟩ := h
    unfold saeRun
    simp only [hop, hkind, hlen, hsession, ne_eq, not_true_eq_false, or_self, if_false, Bool.not_true, Bool.false_eq_true]
    exact (withTrng_good htrng).trans (derive_agrees hpart)
  case fourWay =>
    obtain ⟨hkind, hlife, hsession, hkck, htk, hpart⟩ := h
    unfold fourWayRun
    simp only [hkind, hlife, hsession, hkck, htk, ne_eq, not_true_eq_false, if_false, Bool.not_true, Bool.or_self, Bool.false_eq_true]
    exact derive_agrees hpart
  case eapol =>
    obtain ⟨hkind, hnone, hop, hpart⟩ := h
    unfold eapolRun
    simp only [hkind, hnone, hop, ne_eq, not_true_eq_false, decide_false, Bool.false_or, List.range_zero, List.map_nil, List.all_nil,
      Bool.not_true, Bool.false_eq_true, if_false]
    exact (derive_agrees hpart).trans rfl

end Sys2Proof.Machine
end

section
/-!
SUPPORT. The DRAM, wake, cairn and system commands.
-/
namespace Sys2Proof.Machine
open Sys2Proof

/-! DRAM commands. -/

theorem withChan_withChan (c : Nat) (f g : Chan → Chan) (s : State) : withChan c g (withChan c f s) = withChan c (fun x => g (f x)) s :=
  congrArg (fun v => withDram (fun d => { d with chan := v }) s) (vmod_vmod s.dram.chan c f g)

theorem withChan_congr {c : Nat} {f g : Chan → Chan} {s : State} (h : f (chan c s) = g (chan c s)) : withChan c f s = withChan c g s :=
  congrArg (fun v => withDram (fun d => { d with chan := v }) s) (vmod_congr h)

theorem chan_withChan_readFirst (c : Nat) {f : Chan → Chan} (h : ∀ x, (f x).readFirst = false) (s : State) :
    (chan c (withChan c f s)).readFirst = false := by
  change (vget (vmod s.dram.chan c f) c).readFirst = false
  by_cases hc : c < 2
  · rw [vget_vmod_same _ _ _ hc, h]
  · simp [vget, hc, default, instInhabitedChan.default]

theorem dramCmd_ready {c : Nat} {s : State} {go : State → Effect} (hready : s.dram.ready = true) (hpresent : chanPresent c s = true) :
    dramCmd c s go = go s := by
  unfold dramCmd
  simp only [hready, hpresent, Bool.not_true, Bool.and_false, Bool.false_eq_true, if_false]

theorem dramCmd_notReady {c : Nat} {s : State} {go : State → Effect} (h : s.dram.ready = false) : dramCmd c s go = .fail .wrongState := by
  unfold dramCmd
  simp only [h, Bool.false_and, Bool.false_eq_true, if_false, Bool.not_false, if_true]

theorem noteDrain_writeFirst {c : Nat} {s : State} (h : (chan c s).readFirst = false) :
    noteDrain c s = withChan c (fun x => { x with draining := false }) s := if_pos (by simp [h])

theorem hotCount_cool {c : Nat} {s : State} (h : (chan c s).hot = false) : hotCount c s = s := if_pos (by simp [h])

theorem chan_failed {s : State} (h0 : (chan 0 s).state ≠ 3) (h1 : (chan 1 s).state ≠ 3) :
    ((List.range 2).any fun i => (chan i s).state == 3) = false := by
  simp [List.range_succ, h0, h1]

theorem setRateRun_ready {c : Cmd} {s : State} (hready : s.dram.ready = true) (h0 : (chan 0 s).state ≠ 3) (h1 : (chan 1 s).state ≠ 3)
    (halt : u8 c.params 0 = 1 → u8 s.dram.cfg 4 ≠ 0xFF) :
    setRateRun c s =
      let rate := if u8 c.params 0 = 0 then u8 s.dram.cfg 3 else u8 s.dram.cfg 4
      if s.dram.rateReqs.isEmpty && (chan 0 s).rate == rate then .complete .ok [byte rate] s
      else .hold (withDram (fun d => { d with rateReqs := d.rateReqs ++ [(c.handle, u8 c.params 0)] }) s) := by
  have halt' : (u8 c.params 0 == 1 && (cfgAlt s.dram.cfg).isNone) = false := by
    by_cases h : u8 c.params 0 = 1
    · simp [cfgAlt, halt h]
    · simp [h]
  unfold setRateRun
  simp only [chan_failed h0 h1, hready, halt', Bool.not_true, Bool.or_self, Bool.false_eq_true, if_false]

/-! The cairn. -/

theorem canaryReplan_rel (canary : Nat) (s : State) : (canaryReplan canary s).rel = s.rel := by
  unfold canaryReplan avsRequest
  dsimp only
  split <;> rfl

theorem cairnRestoreRun_valid {d d0 : Nat} {c : Cmd} {s : State} (hvalid : cairnValid c.params s = true) (hrestored : s.rel.restored = false)
    (hleft : s.life.radioLeftOff = false) :
    cairnRestoreRun d d0 c s =
      .complete .ok (le 2 (10 * guardFor (u64 c.params 32 + s.rel.bootStress / 10 ^ 6)) ++ [0, 0])
        (canaryReplan s.power.canaryAsk (replanMargins d d0 (cairnTake c.params s))) := by
  unfold cairnRestoreRun
  simp only [hvalid, hrestored, hleft, Bool.not_true, Bool.or_self, Bool.false_eq_true, if_false, canaryReplan_rel]
  rfl

/-! Service modes, bivouac and abort. -/

theorem setModeRun_allowed {c : Cmd} {s : State} (hready : s.dram.ready = true) (h : modeAllowed s.life.mode (modeOf (u8 c.params 0)) = true) :
    setModeRun c s = okay (enterMode (modeOf (u8 c.params 0)) s) := if_neg (by simp [hready, h])

theorem setModeRun_refused {c : Cmd} {s : State} (h : modeAllowed s.life.mode (modeOf (u8 c.params 0)) = false) :
    setModeRun c s = .fail .wrongState := if_pos (by simp [h])

theorem bivouacRun_armed {c : Cmd} {s : State}
    (hwur : bit (u8 c.params 0) 0 = true → (s.wur.table.toList.any fun e => bit e.ctrl 0) = true)
    (halarm : bit (u8 c.params 0) 1 = true → s.rtc.alarmEn = true) :
    bivouacRun c s = okay (enterBivouac c.mbx c.handle (u8 c.params 0) (u8 c.params 1) s) := by
  have h0 : (bit (u8 c.params 0) 0 && s.wur.table.toList.all fun e => !bit e.ctrl 0) = false := by
    cases h : bit (u8 c.params 0) 0
    · exact Bool.false_and _
    · obtain ⟨e, he, hvalid⟩ := List.any_eq_true.mp (hwur h)
      exact (Bool.true_and _).trans (List.all_eq_false.mpr ⟨e, he, by simp [hvalid]⟩)
  have h1 : (bit (u8 c.params 0) 1 && !s.rtc.alarmEn) = false := by
    cases h : bit (u8 c.params 0) 1
    · exact Bool.false_and _
    · simp [halarm h]
  unfold bivouacRun
  simp only [h0, h1, Bool.or_self, Bool.false_eq_true, if_false]

theorem wurSendRun_free {c : Cmd} {s : State} (hon : (vget s.fe 0).state ≠ .off) (hmode : s.life.mode ≠ .startUp)
    (hbss : bssEnabled (u8 c.params 0) s = true) (hfree : khas s.wur.tx (u8 c.params 0) = false) :
    wurSendRun c s = .hold (withWur (fun w => { w with tx := kset w.tx (u8 c.params 0) {
      handle := c.handle, rate := u8 c.params 1, type := u8 c.params 2, id := u16 c.params 4, tdc := u16 c.params 6
      body := slice c.params 16 (u8 c.params 3), left := u16 c.params 8 - 1, t0 := c.at_, interval := u16 c.params 10, waiting := true } }) s) := by
  unfold wurSendRun
  simp only [hon, hmode, hbss, hfree, or_self, Bool.true_eq_false, Bool.false_eq_true, if_false]

section
variable {c : Cmd} {s : State}

theorem abortRun_unknown (h : isOutstanding c.mbx (BitVec.ofNat 32 (u32 c.params 0)) s = false) : abortRun c s = .ahead .badParam [] s :=
  if_pos (by simp [h])

theorem abortRun_waiting (hout : isOutstanding c.mbx (BitVec.ofNat 32 (u32 c.params 0)) s = true)
    (hwait : notStarted (BitVec.ofNat 32 (u32 c.params 0)) s = true) :
    abortRun c s = .ahead .ok [0]
      (finish (BitVec.ofNat 32 (u32 c.params 0)) .aborted [] (unqueueJob (BitVec.ofNat 32 (u32 c.params 0)) s)) := by
  unfold abortRun
  simp only [hout, hwait, Bool.not_true, Bool.true_or, Bool.false_eq_true, if_false, if_true]

theorem abortRun_running (hout : isOutstanding c.mbx (BitVec.ofNat 32 (u32 c.params 0)) s = true)
    (hstarted : notStarted (BitVec.ofNat 32 (u32 c.params 0)) s = false) (hqueued : jobQueued (BitVec.ofNat 32 (u32 c.params 0)) s = false) :
    abortRun c s = .ahead .ok [1] s := by
  unfold abortRun
  simp only [hout, hstarted, hqueued, Bool.not_true, Bool.or_self, Bool.false_eq_true, if_false]

end

/-- Settles O10: each run under the conditions that pass its own checks. -/
theorem systemCommandsTakeEffect : Obligations.SystemCommandsTakeEffect := by
  unfold Obligations.SystemCommandsTakeEffect
  refine ⟨stays (fun _ _ => rfl) fun c s h => ?configure, sets (fun _ _ => rfl) fun c s h => ?policy,
    fails (fun _ _ => rfl) fun c s h => ?notReady, completes (fun _ _ => rfl) fun c s h => ?rateSame,
    stays (fun _ _ => rfl) fun c s h => ?rateOther, stays (fun _ _ => rfl) fun c s h => ?retrain,
    completes (fun _ _ => rfl) fun c s h => dramCmd_ready h.1 h.2, completes (fun _ _ => rfl) fun c s h => ?counters,
    fun d d0 => completes (fun _ _ => rfl) fun c s h => cairnRestoreRun_valid h.1 h.2.1 h.2.2,
    fun d d0 => fails (fun _ _ => rfl) fun c s h => ?restored, completes (fun _ _ => rfl) fun _ _ _ => rfl,
    sets (fun _ _ => rfl) fun c s h => ?service, sets (fun _ _ => rfl) fun c s h => ?test, fails (fun _ _ => rfl) fun c s h => ?modeRefused,
    fun m buf r s hready => ?bivouac, fails (fun _ _ => rfl) fun c s h => if_pos (by simp [h.1, h.2]),
    sets (fun _ _ => rfl) fun c s h => ?wurDuty, sets (fun _ _ => rfl) fun c s h => ?wurStopped, sets (fun _ _ => rfl) fun _ _ _ => rfl,
    fun m buf r s hready => ?wurSend, fun m buf r s hready => ?abort⟩
  case configure =>
    unfold dramConfigureRun
    simp only [h.1, h.2.1, Nat.not_lt.mpr h.2.2, Bool.false_eq_true, if_false, Option.isSome_none]
  case notReady =>
    unfold dramSetPolicyRun
    exact dramCmd_notReady h
  case policy =>
    obtain ⟨hready, hpresent, hpolicy⟩ := h
    unfold dramSetPolicyRun
    refine (dramCmd_ready hready hpresent).trans ?_
    refine congrArg okay ?_
    rw [noteDrain_writeFirst, withChan_withChan]
    · rw [hpolicy]; rfl
    · exact chan_withChan_readFirst _ (fun _ => by rw [hpolicy]; rfl) s
  case rateSame =>
    obtain ⟨hready, h0, h1, hreqs, hwhich, hrate⟩ := h
    rw [setRateRun_ready hready h0 h1 (by simp [hwhich])]
    simp [hreqs, hwhich, hrate]
  case rateOther =>
    obtain ⟨hready, h0, h1, hwhich, halt, hrate⟩ := h
    rw [setRateRun_ready hready h0 h1 fun _ => halt]
    simp [hwhich, hrate]
  case retrain =>
    obtain ⟨hready, hpresent, hstate, hdue⟩ := h
    unfold dramRetrainRun
    refine (dramCmd_ready hready hpresent).trans ?_
    refine (if_neg (by simp [hstate])).trans ?_
    refine congrArg Effect.hold (withChan_congr ?_)
    simp [hdue]
  case counters =>
    refine (dramCmd_ready h.1 h.2.1).trans ?_
    rw [hotCount_cool h.2.2]
    rfl
  case restored =>
    obtain ⟨hvalid, h⟩ := h
    exact (if_neg (by simp [hvalid])).trans (if_pos (by obtain h | h := h <;> simp [h]))
  case service =>
    obtain ⟨hready, hmode, hto⟩ := h
    rw [setModeRun_allowed hready (by rw [hmode, hto]; rfl), hto]
    simp [enterMode, hmode, modeOf]
  case test =>
    obtain ⟨hready, hmode, hto⟩ := h
    rw [setModeRun_allowed hready (by rw [hmode, hto]; rfl), hto]
    simp [enterMode, hmode, modeOf]
  case modeRefused =>
    obtain ⟨hmode, hto | hto⟩ := h
    all_goals exact setModeRun_refused (by rw [hmode, hto]; rfl)
  case bivouac =>
    intro p u hwur halarm
    rw [exec_ready (fun _ _ => rfl) hready, bivouacRun_armed (c := cmdOf powerEnterBivouacForm m buf r) hwur halarm]
    rfl
  case wurDuty =>
    refine congrArg okay ?_
    simp [wurModeFor, wurStart, h.1, h.2]
  case wurStopped =>
    refine congrArg okay ?_
    simp [wurModeFor, wurStart, h.1, h.2]
  case wurSend =>
    intro p u hon hmode hbss hfree
    rw [exec_ready (fun _ _ => rfl) hready, wurSendRun_free (c := cmdOf wurSendForm m buf r) hon hmode hbss hfree]
    rfl
  case abort =>
    intro h u
    have hrun := exec_ready (i := .abortCommand) (fun _ _ => rfl) hready
    refine ⟨fun hnot => ?_, fun hout hwait hqueued => ?_, fun hout hstarted hqueued => ?_⟩
    · rw [hrun, abortRun_unknown (c := cmdOf abortCommandForm m buf r) hnot]
    · rw [hrun, abortRun_waiting (c := cmdOf abortCommandForm m buf r) hout hwait]
      rfl
    · rw [hrun, abortRun_running (c := cmdOf abortCommandForm m buf r) hout hstarted hqueued]

end Sys2Proof.Machine
end

section
/-!
SUPPORT. Completion queues, the event ring and MSI-X.
-/
namespace Sys2Proof.Machine
open Sys2Proof

/-! What the host interface's own steps leave of the device: everything but the interface itself and what left the device. -/

/-- The device without its host interface and without what left it. -/
def offHost (s : State) : State := { s with host := State.reset.host, out := [] }

@[simp] theorem withHost_offHost (f : HostIf → HostIf) (s : State) : offHost (withHost f s) = offHost s := (rfl)
@[simp] theorem withEvt_offHost (f : Evt → Evt) (s : State) : offHost (withEvt f s) = offHost s := (rfl)
@[simp] theorem withCq_offHost (q : Nat) (f : Cq → Cq) (s : State) : offHost (withCq q f s) = offHost s := (rfl)
@[simp] theorem withMbx_offHost (m : Nat) (f : Mailbox → Mailbox) (s : State) : offHost (withMbx m f s) = offHost s := (rfl)

@[simp] theorem hostWrite_offHost (addr : Nat) (b : List Byte) (s : State) : offHost (hostWrite addr b s) = offHost s := by
  unfold hostWrite
  split <;> rfl

@[simp] theorem sendMsix_offHost (v : Nat) (s : State) : offHost (sendMsix v s) = offHost s := by
  unfold sendMsix
  repeat' split
  all_goals rfl

@[simp] theorem writeEntry_offHost (addr : Nat) (e : List Byte) (s : State) : offHost (writeEntry addr e s) = offHost s := by
  simp only [writeEntry, hostWrite_offHost]

@[simp] theorem signalEntry_offHost (src : Nat) (s : State) : offHost (signalEntry src s) = offHost s := by
  unfold signalEntry
  split
  · exact sendMsix_offHost _ _
  · rfl

@[simp] theorem writeHeld_offHost (h : Held) (s : State) : offHost (writeHeld h s) = offHost s := by
  simp only [writeHeld, signalEntry_offHost, withEvt_offHost, writeEntry_offHost]

@[simp] theorem flushList_offHost (l : List Held) (s : State) : offHost (flushList l s).2 = offHost s := by
  induction l generalizing s with
  | nil => rfl
  | cons h l ih =>
    unfold flushList
    split
    · exact ih _
    · split
      · exact (ih _).trans (writeHeld_offHost _ _)
      · rfl

@[simp] theorem flushHeld_offHost (s : State) : offHost (flushHeld s) = offHost s := flushList_offHost s.host.evt.held s

@[simp] theorem dropEvent_offHost (s : State) : offHost (dropEvent s) = offHost s := (rfl)

@[simp] theorem offerEvent_offHost (e : Event) (s : State) : offHost (offerEvent e s) = offHost s := by
  unfold offerEvent
  dsimp only
  repeat' split
  all_goals simp only [writeHeld_offHost, dropEvent_offHost, flushHeld_offHost, withEvt_offHost]

@[simp] theorem raise_offHost (n : EvName) (inst : Nat) (data : List Byte) (s : State) : offHost (raise n inst data s) = offHost s := by
  unfold raise
  split
  · rfl
  · exact offerEvent_offHost _ _

@[simp] theorem queueCompletion_offHost (q : Nat) (c : Completion) (s : State) : offHost (queueCompletion q c s) = offHost s := (rfl)

@[simp] theorem writeCompletion_offHost (n : Nat) (c : Completion) (s : State) : offHost (writeCompletion n c s) = offHost s := by
  simp only [writeCompletion, signalEntry_offHost, withCq_offHost, writeEntry_offHost]

@[simp] theorem writeNext_offHost (n : Nat) (s : State) : offHost (writeNext n s) = offHost s := by
  unfold writeNext
  dsimp only
  split
  · rfl
  · split
    · rfl
    · exact writeCompletion_offHost _ _ _

theorem offHost_foldl {α : Type} {f : State → α → State} (hf : ∀ s a, offHost (f s a) = offHost s) (l : List α) (s : State) :
    offHost (l.foldl f s) = offHost s := by
  induction l generalizing s with
  | nil => rfl
  | cons a l ih => exact (ih _).trans (hf s a)

@[simp] theorem drainCq_offHost (n : Nat) (s : State) : offHost (drainCq n s) = offHost s :=
  offHost_foldl (fun s _ => writeNext_offHost n s) _ s

theorem life_of_offHost {s t : State} (h : offHost s = offHost t) : s.life = t.life := by
  have hlife := congrArg State.life h
  exact hlife

/-! Mailboxes and completion queues, which no event touches. -/

/-- The mailboxes and the completion queues. -/
def mailWork (s : State) : Vector Mailbox 8 × Vector Cq 8 := (s.host.mbx, s.host.cq)

@[simp] theorem withEvt_mailWork (f : Evt → Evt) (s : State) : mailWork (withEvt f s) = mailWork s := (rfl)

@[simp] theorem hostWrite_mailWork (addr : Nat) (b : List Byte) (s : State) : mailWork (hostWrite addr b s) = mailWork s := by
  unfold hostWrite
  split <;> rfl

@[simp] theorem sendMsix_mailWork (v : Nat) (s : State) : mailWork (sendMsix v s) = mailWork s := by
  unfold sendMsix
  repeat' split
  all_goals rfl

@[simp] theorem signalEntry_mailWork (src : Nat) (s : State) : mailWork (signalEntry src s) = mailWork s := by
  unfold signalEntry
  split
  · exact sendMsix_mailWork _ _
  · rfl

@[simp] theorem writeHeld_mailWork (h : Held) (s : State) : mailWork (writeHeld h s) = mailWork s := by
  simp only [writeHeld, signalEntry_mailWork, withEvt_mailWork, writeEntry, hostWrite_mailWork]

@[simp] theorem flushList_mailWork (l : List Held) (s : State) : mailWork (flushList l s).2 = mailWork s := by
  induction l generalizing s with
  | nil => rfl
  | cons h l ih =>
    unfold flushList
    split
    · exact ih _
    · split
      · exact (ih _).trans (writeHeld_mailWork _ _)
      · rfl

@[simp] theorem flushHeld_mailWork (s : State) : mailWork (flushHeld s) = mailWork s := flushList_mailWork s.host.evt.held s

@[simp] theorem raise_mailWork (n : EvName) (inst : Nat) (data : List Byte) (s : State) : mailWork (raise n inst data s) = mailWork s := by
  unfold raise offerEvent dropEvent
  dsimp only
  repeat' split
  all_goals simp only [writeHeld_mailWork, flushHeld_mailWork, withEvt_mailWork]

/-! Completion queues. -/

/-- Outside the entry of bivouac no steps wait for a completion. -/
theorem bivouacSteps_none {s : State} (h : s.life.bivDone = none) : bivouacSteps s = s :=
  if_neg (by simp [bivouacDone, h])

theorem drainCq_none {n : Nat} {s : State} (h : (vget s.host.cq n).waiting = []) : drainCq n s = s := by
  simp [drainCq, h]

theorem noteFull_none {n : Nat} {s : State} (h : (vget s.host.cq n).waiting = []) : noteFull n s = s :=
  if_neg (by simp [h])

theorem withCq_get {q : Nat} (hq : q < 8) (f : Cq → Cq) (s : State) : vget (withCq q f s).host.cq q = f (vget s.host.cq q) :=
  vget_vmod_same _ _ f hq

theorem cqEnable_none {q : Nat} {s : State} (hq : q < 8) (hen : (vget s.host.cq q).en = false) (hmin : 4 ≤ (vget s.host.cq q).sizeLog)
    (hmax : (vget s.host.cq q).sizeLog ≤ 12) (hwait : (vget s.host.cq q).waiting = []) :
    cqEnable q s = withCq q (fun w => { w with en := true, tail := 0 }) s := by
  have hnone : (vget (withCq q (fun w => { w with en := true, tail := 0 }) s).host.cq q).waiting = [] := by
    rw [withCq_get hq]
    exact hwait
  have hstart : cqEnable q s = noteFull q (drainCq q (withCq q (fun w => { w with en := true, tail := 0 }) s)) :=
    if_neg (by simp [hen]; omega)
  rw [hstart, drainCq_none hnone, noteFull_none hnone]

theorem cqEnable_size {q : Nat} {s : State} (h : (vget s.host.cq q).sizeLog < 4 ∨ 12 < (vget s.host.cq q).sizeLog) : cqEnable q s = s :=
  if_pos (by obtain h | h := h <;> simp [h])

theorem cqHeadWrite_eq {q : Nat} (hq : q < 8) (h : BitVec 16) (s : State) :
    cqHeadWrite q h s = if (vget s.host.cq q).full then drainCq q (withCq q (fun w => { w with head := h }) s)
      else withCq q (fun w => { w with head := h }) s := by
  rw [cqHeadWrite, withCq_get hq]

theorem writeNext_some {n : Nat} {s : State} {c : Completion} (hroom : cqRoom (vget s.host.cq n) = true)
    (hturn : (vget s.host.cq n).waiting.find? (cqTurn s) = some c) :
    writeNext n s = withCq n (fun w => { w with waiting := w.waiting.erase c, full := w.full && !(w.waiting.erase c).isEmpty })
      (writeCompletion n c s) := by
  simp only [writeNext, hroom, hturn, Bool.not_true, Bool.false_eq_true, if_false]

theorem noteFull_episode {n : Nat} {s : State} (hen : (vget s.host.cq n).en = true) (hroom : cqRoom (vget s.host.cq n) = false)
    (hfull : (vget s.host.cq n).full = false) (hwait : (vget s.host.cq n).waiting ≠ []) :
    noteFull n s = raise .cqFull n [] (withCq n (fun w => { w with full := true }) s) :=
  if_pos (by simp [hen, hroom, hfull, hwait])

/-! The event ring. -/

/-- An empty list of held events, written again, is the state itself. -/
theorem withEvt_held_nil {s : State} (h : s.host.evt.held = []) : withEvt (fun w => { w with held := [] }) s = s := by
  have hevt : ({ s.host.evt with held := [] } : Evt) = s.host.evt := by rw [← h]
  exact congrArg (fun w => { s with host := { s.host with evt := w } }) hevt

theorem flushHeld_none {s : State} (h : s.host.evt.held = []) : flushHeld s = withEvt (fun w => { w with held := [] }) s := by
  rw [flushHeld, h]
  rfl

theorem raise_filtered {n : EvName} (i : Nat) (d : List Byte) {s : State} (hname : n ≠ .eventsLost) (h : evSev n < s.host.evt.minSev) :
    raise n i d s = withEvt (fun w => { w with filtered := sat32 w.filtered }) s := if_pos ⟨hname, h⟩

theorem raise_offered (n : EvName) (i : Nat) (d : List Byte) {s : State} (h : s.host.evt.minSev ≤ evSev n) :
    raise n i d s = offerEvent (mkEvent n i d s) s := if_neg fun hlow => absurd hlow.2 (by omega)

theorem offerEvent_written {e : Event} {s : State} (hen : s.host.evt.en = true) (hheld : s.host.evt.held = [])
    (hroom : evtRoom s = true) : offerEvent e s = writeHeld (.ev e) s := by
  rw [offerEvent, if_pos hen, flushHeld_none hheld, withEvt_held_nil hheld]
  exact if_pos (by simp [hheld, hroom])

theorem offerEvent_disabled {e : Event} {s : State} (hen : s.host.evt.en = false) :
    offerEvent e s = if heldEvents s.host.evt.held ≥ 64 then dropEvent s
      else withEvt (fun w => { w with held := w.held ++ [.ev e] }) s := if_neg (by simp [hen])

theorem evtRoom_eq {s : State} (hen : s.host.evt.en = true) (h : (s.host.evt.tail - s.host.evt.head).toNat < 2 ^ s.host.evt.sizeLog) :
    evtRoom s = true := by
  rw [evtRoom, hen, Bool.true_and, decide_eq_true_eq]
  exact h

theorem flushHeld_first {h : Held} {r : List Held} {s : State} (hheld : s.host.evt.held = h :: r) (hfilter : heldFiltered h s = false)
    (hroom : evtRoom s = true) :
    flushHeld s = withEvt (fun w => { w with held := (flushList r (writeHeld h s)).1 }) (flushList r (writeHeld h s)).2 := by
  simp only [flushHeld, hheld, flushList, hfilter, hroom, if_true, Bool.false_eq_true, if_false]

theorem evtEnable_none {s : State} (hen : s.host.evt.en = false) (hmin : 4 ≤ s.host.evt.sizeLog) (hmax : s.host.evt.sizeLog ≤ 12)
    (hheld : s.host.evt.held = []) : evtEnable s = withEvt (fun w => { w with en := true, tail := 0, held := [] }) s := by
  have hstart : evtEnable s = flushHeld (withEvt (fun w => { w with en := true, tail := 0 }) s) := if_neg (by simp [hen]; omega)
  exact hstart.trans (flushHeld_none hheld)

theorem evtEnable_size {s : State} (h : s.host.evt.sizeLog < 4 ∨ 12 < s.host.evt.sizeLog) : evtEnable s = s :=
  if_pos (by obtain h | h := h <;> simp [h])

/-! The watchdog. -/

theorem queueCompletions_mbx (st : Status) (l : List CmdRec) (s : State) :
    (l.foldl (fun u r => queueCompletion (hdrCq r) (mkCompletion r st []) u) s).host.mbx = s.host.mbx := by
  induction l generalizing s with
  | nil => rfl
  | cons r l ih => exact ih _

theorem endMailbox_mbx (st : Status) (m : Nat) (s : State) :
    (endMailbox st m s).host.mbx = vmod s.host.mbx m fun b => { b with cmds := [] } := by
  simp only [endMailbox, withMbx, queueCompletions_mbx]

theorem endMailbox_offHost (st : Status) (m : Nat) (s : State) : offHost (endMailbox st m s) = offHost s :=
  offHost_foldl (f := fun u r => queueCompletion (hdrCq r) (mkCompletion r st []) u) (fun _ _ => rfl) _ s

/-- The mailboxes of a list end one after the other. -/
def endMailboxes (st : Status) (l : List Nat) (s : State) : State := l.foldl (fun u m => endMailbox st m u) s

theorem endMailboxes_offHost (st : Status) (l : List Nat) (s : State) : offHost (endMailboxes st l s) = offHost s :=
  offHost_foldl (fun u m => endMailbox_offHost st m u) l s

/-- No command is left in a mailbox that was ended, or that held none. -/
theorem endMailboxes_cmds (st : Status) (l : List Nat) (s : State) {m : Nat} (hm : m < 8)
    (h : m ∈ l ∨ (vget s.host.mbx m).cmds = []) : (vget (endMailboxes st l s).host.mbx m).cmds = [] := by
  induction l generalizing s with
  | nil => exact h.resolve_left (by simp)
  | cons k l ih =>
    refine ih _ ?_
    rw [endMailbox_mbx]
    by_cases hk : k = m
    · exact .inr (by rw [hk, vget_vmod_same _ _ _ hm])
    · rw [vget_vmod_other _ _ (Ne.symm hk)]
      exact h.imp_left fun hmem => (List.mem_cons.mp hmem).resolve_left (Ne.symm hk)

/-- The state of Builmin after its watchdog, before the event. -/
def watchdogEnds (s : State) : State :=
  rewriteWaiting .hwFault
    (endMailboxes .hwFault (List.range 8) (withLife (fun l => { l with fwState := .fault, faultAt := s.now }) s))

theorem rewriteWaiting_offHost (st : Status) (s : State) : offHost (rewriteWaiting st s) = offHost s := rfl

theorem rewriteWaiting_mbx (st : Status) (s : State) : (rewriteWaiting st s).host.mbx = s.host.mbx := rfl

theorem watchdogExpiry_runs {s : State} (h : s.life.fwState = .running ∨ s.life.fwState = .starting) :
    watchdogExpiry s = raise .fwFault 0 [] (watchdogEnds s) := by
  refine if_neg ?_
  obtain h | h := h <;> simp [watchdogRuns, h]

theorem watchdogEnds_fwState (s : State) : (watchdogEnds s).life.fwState = .fault := by
  have hlife : (watchdogEnds s).life = (withLife (fun l => { l with fwState := .fault, faultAt := s.now }) s).life :=
    life_of_offHost ((rewriteWaiting_offHost _ _).trans (endMailboxes_offHost _ _ _))
  rw [hlife]
  rfl

theorem watchdogEnds_cmds (s : State) {m : Nat} (hm : m < 8) : (vget (watchdogEnds s).host.mbx m).cmds = [] := by
  rw [watchdogEnds, rewriteWaiting_mbx]
  exact endMailboxes_cmds _ _ _ hm (.inl (List.mem_range.mpr hm))

theorem vget_map {α β : Type} [Inhabited α] [Inhabited β] {n : Nat} (v : Vector α n) (f : α → β) {i : Nat} (hi : i < n) :
    vget (v.map f) i = f (vget v i) := by
  simp [vget, hi]

theorem rewriteWaiting_waiting (st : Status) (s : State) {q : Nat} (hq : q < 8) :
    ∀ c ∈ (vget (rewriteWaiting st s).host.cq q).waiting, c.status = st ∧ c.data = [] := by
  intro c hc
  simp only [rewriteWaiting, vget_map _ _ hq, List.mem_map] at hc
  obtain ⟨d, -, rfl⟩ := hc
  exact ⟨rfl, rfl⟩

theorem mbx_of_mailWork {s t : State} (h : mailWork s = mailWork t) : s.host.mbx = t.host.mbx := congrArg Prod.fst h

theorem cq_of_mailWork {s t : State} (h : mailWork s = mailWork t) : s.host.cq = t.host.cq := congrArg Prod.snd h

theorem watchdogEnds_waiting (s : State) {q : Nat} (hq : q < 8) :
    ∀ c ∈ (vget (watchdogEnds s).host.cq q).waiting, c.status = .hwFault ∧ c.data = [] := rewriteWaiting_waiting _ _ hq

theorem watchdogExpiry_effect (s : State) : (raise .fwFault 0 [] (watchdogEnds s)).life.fwState = .fault ∧
    (∀ m < 8, (vget (raise .fwFault 0 [] (watchdogEnds s)).host.mbx m).cmds = []) ∧
    ∀ q < 8, ∀ c ∈ (vget (raise .fwFault 0 [] (watchdogEnds s)).host.cq q).waiting, c.status = .hwFault ∧ c.data = [] := by
  have hwork := raise_mailWork .fwFault 0 [] (watchdogEnds s)
  rw [life_of_offHost (raise_offHost .fwFault 0 [] (watchdogEnds s)), mbx_of_mailWork hwork, cq_of_mailWork hwork]
  exact ⟨watchdogEnds_fwState s, fun m hm => watchdogEnds_cmds s hm, fun q hq => watchdogEnds_waiting s hq⟩

/-! The link and MSI-X. -/

theorem linkGoes_recovery (s : State) : linkGoes .recovery s = withHost (fun h => { h with link := .recovery }) s := rfl

theorem linkGoes_l0 {g : Fin 5} {w : PcieWidth} {s : State} (h : s.glb.refLost = false) :
    linkGoes (.l0 g w) s = flushTx (withHost (fun h => { h with link := .l0 g w }) s) := if_pos (by simp [linkAllowed, h])

theorem sendMsix_out {v : Nat} {s : State} (hen : s.host.msixEn = true) (hmask : vecMasked s v = false) (hup : endpointUp s = true) :
    sendMsix v s = msixOut v s := by
  rw [sendMsix, if_neg (by simp [hen]), if_neg (by simp [hmask]), if_pos hup]

/-- A write and a message that waited leave in their order. -/
theorem flushTx_writeMsg {a : Nat} {b : List Byte} {v : Nat} {s : State} (hup : endpointUp s = true)
    (hdef : s.host.deferred = [.write a b, .msg v]) (hen : s.host.msixEn = true) (hmask : vecMasked s v = false) :
    flushTx s = msixOut v (emit (.hostWrite a b) (withHost (fun h => { h with deferred := [] }) s)) := by
  have hwrite : hostWrite a b (withHost (fun h => { h with deferred := [] }) s) = emit (.hostWrite a b) (withHost _ s) := if_pos hup
  rw [flushTx, if_pos hup, hdef]
  exact (congrArg (sendMsix v) hwrite).trans (sendMsix_out hen hmask hup)

/-- The state with one vector's mask bit cleared. -/
def unmasked (v : Nat) (s : State) : State :=
  withHost (fun h => { h with msixTbl := vmod h.msixTbl (4 * v + 3) (· &&& ~~~1#32) }) s

theorem msixUnmask_idle {v : Nat} {s : State} (h : s.host.pba.getLsbD v = false) : msixUnmask v s = unmasked v s :=
  if_neg (by simp [h, withHost])

theorem vecMasked_unmasked {v : Nat} (hv : v < 64) {s : State} (h : s.host.pcie.funcMask = false) : vecMasked (unmasked v s) v = false := by
  have hbit : (vget (unmasked v s).host.msixTbl (4 * v + 3)).getLsbD 0 = false := by
    rw [unmasked, withHost, vget_vmod_same _ _ _ (by omega)]
    simp
  rw [vecMasked, hbit, Bool.or_false]
  exact h

theorem msixUnmask_pending {v : Nat} (hv : v < 64) {s : State} (hpba : s.host.pba.getLsbD v = true) (hen : s.host.msixEn = true)
    (hmask : s.host.pcie.funcMask = false) (hup : endpointUp s = true) :
    msixUnmask v s = msixOut v (withHost (fun h => { h with pba := h.pba &&& ~~~(1#64 <<< v) }) (unmasked v s)) := by
  have hclear := vecMasked_unmasked hv hmask
  have hsend : msixUnmask v s = sendMsix v (withHost (fun h => { h with pba := h.pba &&& ~~~(1#64 <<< v) }) (unmasked v s)) := by
    refine if_pos ?_
    change (s.host.pba.getLsbD v && s.host.msixEn && !vecMasked (unmasked v s) v) = true
    rw [hpba, hen, hclear]
    rfl
  exact hsend.trans (sendMsix_out hen hclear hup)

/-- Settles O20: one equation per event and case; the watchdog's end empties every mailbox. -/
theorem hostEventsTakeEffect : Obligations.HostEventsTakeEffect := by
  unfold Obligations.HostEventsTakeEffect
  refine ⟨fun q => does (fun _ => rfl) fun s h => ?cqEnable, fun q => does (fun _ => rfl) fun s h => ?cqSize,
    fun q => does (fun _ => rfl) fun _ _ => rfl, fun q h => does (fun _ => rfl) fun s hs => ?headWrite,
    fun q h => does (fun _ => rfl) fun s hs => ?headWriteFull, fun q c => does (fun _ => rfl) fun s h => ?completion,
    fun q => does (fun _ => rfl) fun s h => ?cqFull, fun q => does (fun _ => rfl) fun s h => if_pos h,
    fun n i d hname => does (fun _ => rfl) fun s h => raise_filtered _ _ hname h, fun n i d => does (fun _ => rfl) fun s h => ?written,
    fun n i d => does (fun _ => rfl) fun s h => ?held, fun n i d => does (fun _ => rfl) fun s h => ?dropped,
    fun h r => does (fun _ => rfl) fun s hs => ?eventWrite, fun h => does (fun _ => rfl) fun s hs => flushHeld_none hs,
    does (fun _ => rfl) fun s h => evtEnable_none h.1 h.2.1 h.2.2.1 h.2.2.2, does (fun _ => rfl) fun s h => evtEnable_size h,
    does (fun _ => rfl) fun _ _ => rfl, does (fun _ => rfl) fun _ _ => rfl, does (fun _ => rfl) fun _ _ => rfl,
    fun s hlive hfw => ?watchdog, fun c => does (fun _ => rfl) fun s h => if_neg (by simp [h]),
    does (fun _ => rfl) fun s _ => linkGoes_recovery s, fun g w => does (fun _ => rfl) fun s h => ?linkBack,
    fun g w a b v => does (fun _ => rfl) fun s h => ?linkBackWaiting, fun v => does (fun _ => rfl) fun s h => msixUnmask_idle h,
    fun v => does (fun _ => rfl) fun s h => ?unmask⟩
  case cqEnable =>
    obtain ⟨hbiv, hen, hmin, hmax, hwait⟩ := h
    rw [cqEnable_none q.isLt hen hmin hmax hwait]
    exact bivouacSteps_none hbiv
  case cqSize =>
    rw [cqEnable_size h.2]
    exact bivouacSteps_none h.1
  case headWrite =>
    rw [cqHeadWrite_eq q.isLt, if_neg (by simp [hs.2])]
    exact bivouacSteps_none hs.1
  case headWriteFull =>
    rw [cqHeadWrite_eq q.isLt, if_pos hs.2]
    exact bivouacSteps_none ((congrArg Life.bivDone (life_of_offHost (drainCq_offHost _ _))).trans hs.1)
  case completion =>
    obtain ⟨hbiv, hroom, hturn⟩ := h
    rw [completionWrite, if_pos hroom, writeNext_some hroom hturn]
    refine bivouacSteps_none (Eq.trans (congrArg Life.bivDone (life_of_offHost ?_)) hbiv)
    rw [withCq_offHost, writeCompletion_offHost]
  case cqFull =>
    obtain ⟨hbiv, hen, hroom, hfull, hwait⟩ := h
    rw [completionWrite, if_neg (by simp [hroom]), noteFull_episode hen hroom hfull hwait]
    refine bivouacSteps_none (Eq.trans (congrArg Life.bivDone (life_of_offHost ?_)) hbiv)
    rw [raise_offHost, withCq_offHost]
  case written =>
    obtain ⟨hsev, hen, hheld, hroom⟩ := h
    rw [raise_offered n _ d hsev, offerEvent_written hen hheld (evtRoom_eq hen hroom)]
  case held =>
    obtain ⟨hsev, hen, hfew⟩ := h
    rw [raise_offered n _ d hsev, offerEvent_disabled hen, if_neg (by omega)]
  case dropped =>
    obtain ⟨hsev, hen, hmany⟩ := h
    rw [raise_offered n _ d hsev, offerEvent_disabled hen, if_pos hmany]
    rfl
  case eventWrite =>
    obtain ⟨hheld, hfilter, hen, hroom⟩ := hs
    exact flushHeld_first hheld hfilter (evtRoom_eq hen hroom)
  case watchdog =>
    refine gives_live (fun _ => rfl) hlive ?_
    rw [watchdogExpiry_runs hfw]
    exact watchdogExpiry_effect s
  case linkBack =>
    rw [linkGoes_l0 h.1]
    exact flushTx_none h.2
  case linkBackWaiting =>
    obtain ⟨href, hd3, hdef, hen, hmask⟩ := h
    have hup : endpointUp (withHost (fun h => { h with link := .l0 g w }) s) = true :=
      (Bool.true_and _).trans (congrArg (!·) hd3)
    rw [linkGoes_l0 href]
    exact flushTx_writeMsg hup hdef hen hmask
  case unmask =>
    obtain ⟨hpba, hen, hmask, hup⟩ := h
    exact msixUnmask_pending v.isLt hpba hen hmask hup

end Sys2Proof.Machine
end

section
/-!
SUPPORT. The format K instructions of a lane.
-/
namespace Sys2Proof.Machine
open Sys2Proof

/-! Fields of an instruction word. -/

/-- A field of a field. -/
theorem bits_bits {w i n m : Nat} (h : i + n ≤ m) : bits (bits w 0 m) i n = bits w i n := by
  unfold bits
  refine Nat.eq_of_testBit_eq fun j => ?_
  simp only [Nat.testBit_mod_two_pow, Nat.testBit_div_two_pow]
  by_cases hj : j < n
  · simp [hj, show j + i < m by omega]
  · simp [hj]

/-- A field whose upper bits are 0 is its lower bits. -/
theorem immOf_low {w k : Nat} (hk : k ≤ 32) (h : bits w k (32 - k) = 0) : immOf w = bits w 0 k := by
  have hlow : bits (immOf w) 0 k = bits w 0 k := bits_bits (by omega)
  have hhigh : bits (immOf w) k (32 - k) = bits w k (32 - k) := bits_bits (by omega)
  have hlt : immOf w < 2 ^ 32 := Nat.mod_lt _ (by decide)
  rw [h, bits, Nat.mod_eq_of_lt (Nat.div_lt_of_lt_mul (by rwa [← Nat.pow_add, show k + (32 - k) = 32 by omega]))] at hhigh
  rw [← hlow, bits, Nat.pow_zero, Nat.div_one, Nat.mod_eq_of_lt]
  exact Nat.lt_of_div_eq_zero (Nat.two_pow_pos k) hhigh

theorem bits_lt (w i n : Nat) : bits w i n < 2 ^ n := Nat.mod_lt _ (Nat.two_pow_pos n)

theorem ofNat_immOf (w : Nat) : BitVec.ofNat 32 (immOf w) = BitVec.ofNat 32 w :=
  BitVec.eq_of_toNat_eq (by simp [immOf, bits])

/-- The channel of XFER and XWAIT. -/
theorem bits_rd (w : Nat) : bits (rd w) 0 2 = bits w 52 2 := by
  unfold rd bits
  simp only [Nat.pow_zero, Nat.div_one]
  omega

/-- A step written as a 14-bit number in two's complement. -/
theorem sgn_bits (w : Nat) : sgn 14 (bits w 0 14) = (BitVec.ofNat 14 w).toInt := by
  rw [BitVec.toInt_eq_toNat_cond, BitVec.toNat_ofNat]
  simp only [sgn, bits, Nat.pow_zero, Nat.div_one, Nat.mod_mod]
  congr 1
  exact propext (by omega)

/-! Rows of format K. -/

theorem lane_withLane (l : Fin 16) (f : Lane → Lane) (s : State) : lane l (withLane l f s) = f (lane l s) :=
  vget_vmod_same s.harrow.lane l f l.isLt

section
variable {i : Fin 16 → LaneCheck → Instr} {op : Nat} {res : Nat → Lane → LaneRes} {ok : Nat → Lane → Prop} {eff : Nat → Lane → Lane}

theorem kStep (hi : ∀ l s, exec (i l .ok) s = laneRowK op l .ok res s) (hop : op < 0x20)
    (h : ∀ w x, bits w 32 15 = 0 → ok w x → res w x = .done (stepCost x 0 false) (advance (eff w (afterFetch x)))) : KStep i op ok eff :=
  fun l w s hat hres hok => by
    rw [hi, hat.rowK hop, h w _ hres hok]
    rfl

theorem kJump_row {cost : Nat → Lane → Nat} (hi : ∀ l s, exec (i l .ok) s = laneRowK op l .ok res s) (hop : op < 0x20)
    (h : ∀ w x, bits w 32 15 = 0 → ok w x → res w x = .done (cost w x) (eff w (afterFetch x))) : KJump i op ok cost eff :=
  fun l w s hat hres hok => by
    rw [hi, hat.rowK hop, h w _ hres hok]
    rfl

end

theorem stepCost_pos (x : Lane) (moves : Nat) (mc : Bool) : 0 < stepCost x moves mc := by
  unfold stepCost
  split
  · omega
  · split <;> decide

section
variable {l : Fin 16} {op w : Nat} {s : State} {own : Nat → Bool} {run : Lease → FreeMove → Lane → LaneRes}

/-- Of a format K row that may issue, each result is what becomes of the lane. -/
theorem issue_done (hat : AtWord l op w s) (hown : own op = true) (hop : op < 0x20) {c : Nat} {z : Lane}
    (h : run (jobLease (lane l s) s) noFree (lane l s) = .done c z) :
    issue l .ok own run s = withLane l (fun x => { z with steps := x.steps + c }) s := by
  rw [hat.issue_eq hown, freeMoves_scalar (by rw [hat.word, hat.op]; exact hop), h]
  rfl

theorem issue_hold (hat : AtWord l op w s) (hown : own op = true) (hop : op < 0x20)
    (h : run (jobLease (lane l s) s) noFree (lane l s) = .hold) : issue l .ok own run s = s := by
  rw [hat.issue_eq hown, freeMoves_scalar (by rw [hat.word, hat.op]; exact hop), h]

theorem issue_sandbox (hat : AtWord l op w s) (hown : own op = true) (hop : op < 0x20)
    (h : run (jobLease (lane l s) s) noFree (lane l s) = .sandbox) : issue l .ok own run s = endJob l 2 s := by
  rw [hat.issue_eq hown, freeMoves_scalar (by rw [hat.word, hat.op]; exact hop), h]

end

/-- NOP's row, on its own opcode. -/
theorem harrowNop_step : KStep .harrowNop 0x00 (fun _ _ => True) (fun _ x => x) := by
  intro l w s hat hres _
  refine (whenLive_live hat.live).trans (congrArg Host.Outcome.next (issue_done hat (by decide) (by decide) ?_))
  rw [if_neg (by simp [hat.inC]), if_neg (by simp [hat.inReach]), hat.word]
  exact (if_neg (by simp [hat.op])).trans (kRes_done (run := id) hres rfl)

/-- HALT's own step comes before the end of the program. -/
theorem halt_step {l : Fin 16} {w : Nat} {s : State} (hat : AtWord l 0x01 w s) (hres : bits w 32 15 = 0) :
    exec (.halt l .ok) s = .next (haltLane l (withLane l (fun x =>
      { advance (afterFetch x) with steps := x.steps + stepCost x 0 false }) s)) := by
  have hissue : issue l .ok (· == 0x01) (fun _ _ x => haltRes (fetched x) x) s =
      withLane l (fun x => { advance (afterFetch (lane l s)) with steps := x.steps + stepCost (lane l s) 0 false }) s :=
    issue_done hat (by decide) (by decide) (by rw [hat.word]; exact kRes_done (run := id) hres rfl)
  have hphase : (lane l s).phase = .program := by
    have hmay := hat.may
    simp only [mayIssue, Bool.and_eq_true, beq_iff_eq] at hmay
    exact hmay.1.1.1.1
  change execHalt l .ok s = _
  rw [execHalt, whenLive_live hat.live]
  simp only [hissue]
  refine congrArg Host.Outcome.next (if_pos ?_)
  rw [lane_withLane]
  have := stepCost_pos (lane l s) 0 false
  exact ⟨hphase, by dsimp only; omega⟩

/-! LOOP and BR. -/

/-- LOOP on a legal word (R216). -/
theorem loopRes_legal {w : Nat} {x : Lane} (hres : bits w 32 15 = 0) (himm : bits w 6 26 = 0) (hrd : rd w < 16)
    (hlen : x.f.loops.length < 2) (hin : ∀ v ∈ x.f.loops.head?, x.pc + (bits w 0 6 + 1) ≤ v.last) :
    loopRes w x = .done (stepCost x 0 false)
      (if (sreg x (rd w)).toNat = 0 then advanceFrom (x.pc + (bits w 0 6 + 1)) (afterFetch x)
       else
        let lv : LoopLv := { start := x.pc + 1, last := x.pc + (bits w 0 6 + 1), left := (sreg x (rd w)).toNat }
        let z := { withFile (fun g => { g with loops := lv :: g.loops }) (afterFetch x) with pc := x.pc + 1 }
        if x.f.loops.isEmpty && !x.handler then { z with cache := [] } else z) := by
  have hlow : bits (immOf w) 0 6 = bits w 0 6 := bits_bits (by decide)
  have hhigh : bits (immOf w) 6 26 = 0 := (bits_bits (by decide)).trans himm
  unfold loopRes
  simp only [hlow, hhigh]
  refine kJump_done hres ?_
  cases hloops : x.f.loops with
  | nil => simp [hrd]
  | cons v r =>
    have hv := hin v (by simp [hloops])
    simp only [hloops] at hlen
    simpa [hrd, hv] using hlen

theorem brRes_legal {w : Nat} {x : Lane} (hres : bits w 32 15 = 0) (hloops : x.f.loops = []) (hra : ra w ≤ 3) (hrd : ra w = 0 ∨ rd w < 16) :
    brRes w x = .done (if brTaken w x then 2 else stepCost x 0 false)
      (if brTaken w x then { afterFetch x with pc := bits w 0 13 } else advance (afterFetch x)) := by
  have hlow : bits (immOf w) 0 13 = bits w 0 13 := bits_bits (by decide)
  unfold brRes
  rw [hlow]
  refine kJump_done hres ?_
  obtain h | h := hrd <;> simp [h, hloops, hra]

theorem brTaken_of {w : Nat} {x : Lane} (h : ra w = 0 ∨ ra w = 1 ∧ sreg x (rd w) = 0 ∨ ra w = 2 ∧ sreg x (rd w) ≠ 0 ∨
    ra w = 3 ∧ (sreg x (rd w)).toInt < 0) : brTaken w x = true := by
  unfold brTaken
  obtain h | ⟨h, hs⟩ | ⟨h, hs⟩ | ⟨h, hs⟩ := h
  · simp only [h]
  · simp only [h, hs, beq_self_eq_true]
  · simpa only [h, bne_iff_ne] using hs
  · simp [h, BitVec.msb_eq_toInt, hs]

theorem not_brTaken_of {w : Nat} {x : Lane} (h : ra w = 1 ∧ sreg x (rd w) ≠ 0 ∨ ra w = 2 ∧ sreg x (rd w) = 0 ∨
    ra w = 3 ∧ 0 ≤ (sreg x (rd w)).toInt) : brTaken w x = false := by
  unfold brTaken
  obtain ⟨h, hs⟩ | ⟨h, hs⟩ | ⟨h, hs⟩ := h
  · simpa only [h, beq_eq_false_iff_ne] using hs
  · simp only [h, hs, bne_self_eq_false]
  · simp [h, BitVec.msb_eq_toInt, hs]

/-! PSET, XFER and TSET. -/

/-- A word that sets one field of a pointer. -/
theorem psetRes_field {w : Nat} {x : Lane} {p : Ptr} (hres : bits w 32 15 = 0) (hrd : rd w < 8)
    (h : (match ra w with
      | 0 => (decide (immOf w < 2 ^ 14), { preg x (rd w) with base := immOf w })
      | 1 => (decide (immOf w < 2 ^ 15), { preg x (rd w) with len := immOf w })
      | 2 => (decide (immOf w < 2 ^ 14), { preg x (rd w) with step := sgn 14 (immOf w) })
      | 3 => (decide (immOf w < 16), { preg x (rd w) with mode := bits (immOf w) 0 2, mem := bits (immOf w) 2 2 })
      | 4 => (decide (immOf w < 2 ^ 14), { preg x (rd w) with addr := immOf w })
      | _ => (false, preg x (rd w)) : Bool × Ptr) = (true, p)) :
    psetRes w x = .done (stepCost x 0 false) (advance (setP (rd w) p (afterFetch x))) := by
  have hrun : psetRes w x = kRes w (decide (rd w < 8) && true) (setP (rd w) p) x :=
    congrArg (fun r : Bool × Ptr => kRes w (decide (rd w < 8) && r.1) (setP (rd w) r.2) x) h
  exact hrun.trans (kRes_done hres (by simp [hrd]))

theorem imm_lt {w k : Nat} (hk : k ≤ 32) (h : bits w k (32 - k) = 0) : immOf w < 2 ^ k := by
  rw [immOf_low hk h]
  exact bits_lt w 0 k

/-- XFER on a legal word (R231, R233). -/
theorem xferRes_legal (e : Lease) {w : Nat} {x : Lane} (hres : bits w 32 15 = 0) (halign : bits w 0 14 % 8 = 0) :
    xferRes e w x =
      if (vget x.chan (bits w 52 2)).isSome then .hold
      else if (x.fallback && 4096 ≤ bits w 0 14 + 7) || !segCheck x e (dmaAt x (bits w 0 14)) then .sandbox
      else .done (stepCost x 0 false)
        (advance { afterFetch x with chan := vset x.chan (bits w 52 2) (some (dmaAt x (bits w 0 14))) }) := by
  have hlow : bits (immOf w) 0 14 = bits w 0 14 := bits_bits (by decide)
  unfold xferRes
  simp only [hlow, bits_rd]
  rw [if_neg (by simp [hres, halign]), kRes_done hres rfl]
  rfl

/-- TSET with a count. -/
theorem tset_row {l : Fin 16} {w : Nat} {s : State} (hat : AtWord l 0x0B w s) (hres : bits w 32 15 = 0) (himm : bits w 0 32 ≠ 0) :
    exec (.tset l .ok) s = .next (withLane l (fun x => { advance { afterFetch x with
      timer := some (x.steps + stepCost x 0 false + bits w 0 32) } with steps := x.steps + stepCost x 0 false }) s) := by
  change laneRowK 0x0B l .ok tsetRes s = _
  have hrun : tsetRes w (lane l s) = .done (stepCost (lane l s) 0 false)
      (advance { afterFetch (lane l s) with timer := some ((lane l s).steps + stepCost (lane l s) 0 false + bits w 0 32) }) := by
    refine (kRes_done hres rfl).trans ?_
    rw [if_neg (show ¬ immOf w = 0 from himm)]
    rfl
  rw [hat.rowK (by decide), hrun]
  rfl

/-- What MMGET reads: the field RA of the extreme it names (R224). -/
theorem mmget_value {n : Nat} (h : n ≤ 3) (maxv minv : Option (Word × Word)) :
    (match n with
      | 0 => (maxv.getD (0, 0xFFFFFFFF)).1 | 1 => (maxv.getD (0, 0xFFFFFFFF)).2 | 2 => (minv.getD (0, 0xFFFFFFFF)).1
      | _ => (minv.getD (0, 0xFFFFFFFF)).2) =
    match (if n < 2 then maxv else minv) with
    | some p => if n % 2 = 0 then p.1 else p.2
    | none => if n % 2 = 0 then 0 else 0xFFFFFFFF#32 := by
  obtain rfl | rfl | rfl | rfl : n = 0 ∨ n = 1 ∨ n = 2 ∨ n = 3 := by omega
  · cases maxv <;> rfl
  · cases maxv <;> rfl
  · cases minv <;> rfl
  · cases minv <;> rfl

/-- Settles O21: on a legal word each row is its step. -/
theorem formatKInstructions : Obligations.FormatKInstructions := by
  unfold Obligations.FormatKInstructions
  refine ⟨harrowNop_step, fun l w s hat hres => halt_step hat hres,
    kJump_row (fun _ _ => rfl) (by decide) fun w x hres h => ?loopSkip, kJump_row (fun _ _ => rfl) (by decide) fun w x hres h => ?loopOuter,
    kJump_row (fun _ _ => rfl) (by decide) fun w x hres h => ?loopInner, kJump_row (fun _ _ => rfl) (by decide) fun w x hres h => ?brTaken,
    kStep (fun _ _ => rfl) (by decide) fun w x hres h => ?brNot, kStep (fun _ _ => rfl) (by decide) fun w x hres h => ?sli,
    kStep (fun _ _ => rfl) (by decide) fun w x hres h => ?sadd, kStep (fun _ _ => rfl) (by decide) fun w x hres h => ?base,
    kStep (fun _ _ => rfl) (by decide) fun w x hres h => ?len, kStep (fun _ _ => rfl) (by decide) fun w x hres h => ?step,
    kStep (fun _ _ => rfl) (by decide) fun w x hres h => ?mode, kStep (fun _ _ => rfl) (by decide) fun w x hres h => ?addr,
    fun l w s hat hres halign => ?xfer, kStep (fun _ _ => rfl) (by decide) fun w x hres _ => ?xwait,
    kStep (fun _ _ => rfl) (by decide) fun w x hres _ => kRes_done hres rfl,
    kJump_row (fun _ _ => rfl) (by decide) fun w x hres h => kJump_done hres h,
    kStep (fun _ _ => rfl) (by decide) fun w x hres h => ?tset, fun l w s hat hres himm => ?tsetCount,
    kStep (fun _ _ => rfl) (by decide) fun w x hres _ => kRes_done hres rfl,
    kStep (fun _ _ => rfl) (by decide) fun w x hres h => kRes_done hres (decide_eq_true h),
    kStep (fun _ _ => rfl) (by decide) fun w x hres _ => ?idxset, kStep (fun _ _ => rfl) (by decide) fun w x hres h => ?mmget⟩
  case loopSkip =>
    obtain ⟨himm, hrd, hlen, hin, hcount⟩ := h
    rw [loopRes_legal hres himm hrd hlen hin, if_pos hcount]
    rfl
  case loopOuter =>
    obtain ⟨himm, hrd, hloops, hhandler, hcount⟩ := h
    rw [loopRes_legal hres himm hrd (by simp [hloops]) (by simp [hloops]), if_neg hcount]
    dsimp only
    rw [if_pos (by simp [hloops, hhandler])]
    simp only [withFile, afterFetch, hloops]
    rfl
  case loopInner =>
    obtain ⟨himm, hrd, hstack, hcount⟩ := h
    have hlegal : x.f.loops.length < 2 ∧ (∀ v ∈ x.f.loops.head?, x.pc + (bits w 0 6 + 1) ≤ v.last) ∧
        ¬ (x.f.loops.isEmpty && !x.handler) = true := by
      obtain ⟨hloops, hhandler⟩ | ⟨v, hloops, hlast⟩ := hstack
      · simp [hloops, hhandler]
      · simp [hloops, hlast]
    obtain ⟨hlen, hin, hkeep⟩ := hlegal
    rw [loopRes_legal hres himm hrd hlen hin, if_neg hcount]
    dsimp only
    rw [if_neg hkeep]
    rfl
  case brTaken =>
    obtain ⟨hloops, hcond⟩ := h
    have htaken : brTaken w x = true := brTaken_of (hcond.imp_right And.right)
    have hra : ra w ≤ 3 := by omega
    rw [brRes_legal hres hloops hra (hcond.imp_right And.left), if_pos htaken, if_pos htaken]
  case brNot =>
    obtain ⟨hloops, hrd, hcond⟩ := h
    have hnot := not_brTaken_of hcond
    have hra : ra w ≤ 3 := by omega
    rw [brRes_legal hres hloops hra (.inr hrd), if_neg (by simp [hnot]), if_neg (by simp [hnot])]
  case sli => exact (kRes_done hres (decide_eq_true h)).trans (by rw [ofNat_immOf])
  case sadd => exact (kRes_done hres (by simp [h])).trans (by rw [ofNat_immOf]; rfl)
  case base =>
    obtain ⟨hrd, hra, himm⟩ := h
    refine psetRes_field hres hrd ?_
    rw [hra, immOf_low (k := 14) (by decide) himm]
    simp only [bits_lt w 0 14, decide_true]
    rfl
  case len =>
    obtain ⟨hrd, hra, himm⟩ := h
    refine psetRes_field hres hrd ?_
    rw [hra, immOf_low (k := 15) (by decide) himm]
    simp only [bits_lt w 0 15, decide_true]
    rfl
  case step =>
    obtain ⟨hrd, hra, himm⟩ := h
    refine psetRes_field hres hrd ?_
    rw [hra, immOf_low (k := 14) (by decide) himm]
    simp only [bits_lt w 0 14, decide_true, sgn_bits]
    rfl
  case mode =>
    obtain ⟨hrd, hra, himm⟩ := h
    refine psetRes_field hres hrd ?_
    have hlt : immOf w < 16 := imm_lt (k := 4) (by decide) himm
    have hmode : bits (immOf w) 0 2 = bits w 0 2 := bits_bits (by decide)
    have hmem : bits (immOf w) 2 2 = bits w 2 2 := bits_bits (by decide)
    rw [hra, hmode, hmem]
    simp only [hlt, decide_true]
    rfl
  case addr =>
    obtain ⟨hrd, hra, himm⟩ := h
    refine psetRes_field hres hrd ?_
    rw [hra, immOf_low (k := 14) (by decide) himm]
    simp only [bits_lt w 0 14, decide_true]
    rfl
  case xfer =>
    intro x c g
    have hlegal := xferRes_legal (jobLease x s) hres halign (x := x)
    refine ⟨fun hbusy => ?_, fun hfree hfall hseg => ?_, fun hfree hseg => ?_⟩ <;>
      refine (whenLive_live hat.live).trans (congrArg Host.Outcome.next ?_)
    · refine issue_hold hat (by decide) (by decide) ?_
      rw [hat.word, hlegal, if_pos (Option.isSome_iff_ne_none.mpr hbusy)]
    · refine issue_done hat (by decide) (by decide) ?_
      have hreach : (x.fallback && decide (4096 ≤ bits w 0 14 + 7)) = false := by
        cases hmode : x.fallback with
        | false => rfl
        | true => have := hfall hmode; simp; omega
      rw [hat.word, hlegal, if_neg (by rw [hfree]; decide), if_neg (by rw [hreach, hseg]; decide)]
      rfl
    · refine issue_sandbox hat (by decide) (by decide) ?_
      rw [hat.word, hlegal, if_neg (by rw [hfree]; decide), if_pos (by rw [hseg]; simp)]
  case xwait =>
    unfold xwaitRes
    refine (kRes_done hres rfl).trans ?_
    rw [bits_rd]
    rfl
  case tset =>
    refine (kRes_done hres rfl).trans ?_
    rw [if_pos (show immOf w = 0 from h)]
  case tsetCount =>
    refine ⟨_, tset_row hat hres himm, ?_⟩
    have hlane := lane_withLane l (fun x => { advance { afterFetch x with
      timer := some (x.steps + stepCost x 0 false + bits w 0 32) } with steps := x.steps + stepCost x 0 false }) s
    dsimp only
    rw [hlane]
    exact ⟨rfl, rfl, rfl, rfl⟩
  case idxset => exact (kRes_done hres rfl).trans (by rw [ofNat_immOf])
  case mmget =>
    obtain ⟨hrd, hra⟩ := h
    refine (kRes_done hres (by simp [hrd, hra])).trans ?_
    exact congrArg (fun v => LaneRes.done _ (advance (setS (rd w) v (afterFetch x)))) (mmget_value hra x.maxv x.minv)

end Sys2Proof.Machine
end

section
/-!
SUPPORT. The format V instructions of a lane.
-/
namespace Sys2Proof.Machine
open Sys2Proof

/-! Rows of format V. -/

section
variable {i : Fin 16 → LaneCheck → Instr} {op : Nat} {res : Nat → FreeMove → Lane → LaneRes}

/-- A format V row whose legal words do `eff` is a step of it. -/
theorem vStep {ok : Nat → Prop} {dests : Nat → List Nat} {eff : Nat → Lane → Lane}
    (hi : ∀ l s, exec (i l .ok) s = laneRow op l .ok res s)
    (h : ∀ w free x, ok w → ∃ run, res w free x = vRes w true (dests w) run free x ∧ run (afterFetch x) = eff w (afterFetch x)) :
    VStep i op ok dests eff := fun l w s hat hbit hok hslots hnodup hreach => by
  obtain ⟨run, hres, hrun⟩ := h w (freeMoves (lane l s) s).1 (lane l s) hok
  rw [hi, hat.row, hres, vRes_done hbit rfl hslots hnodup hreach, hrun, withLane_const l, lane_freeMoves]

/-- A row whose operation writes V(VD) only. -/
theorem vecStep {ok : Nat → Prop} {r : Nat → Lane → Vec8 × Bool} (hi : ∀ l s, exec (i l .ok) s = laneRow op l .ok res s)
    (h : ∀ w free x, ok w → res w free x = vecRes w true (r w x) free x) (hr : ∀ w x, r w (afterFetch x) = r w x) :
    VStep i op ok (fun w => [vd w]) fun w x => setVec (vd w) (r w x) x :=
  vStep hi fun w free x hok => ⟨setVec (vd w) (r w x), h w free x hok, by rw [hr]⟩

end

/-- SAT is as it was where nothing clamps. -/
theorem setVec_exact (i : Nat) (v : Vec8) (x : Lane) : setVec i (v, false) x = setV i v x := by
  unfold setVec markSat
  rw [Bool.or_false]

/-! VSHA. -/

/-- The shift amount of VSHA, left or right. -/
theorem vsha_shift {n : Nat} (h : n < 32) (v : Int) :
    (if sgn 5 n < 0 then cr v (-sgn 5 n).toNat else v * 2 ^ (sgn 5 n).toNat) = if n < 16 then v * 2 ^ n else cr v (32 - n) := by
  have hmod : n % 2 ^ 5 = n := Nat.mod_eq_of_lt h
  by_cases hlow : n < 16
  · have hsgn : sgn 5 n = n := by
      rw [sgn, hmod]
      exact if_pos hlow
    rw [hsgn, if_pos hlow, if_neg (by omega), Int.toNat_natCast]
  · have hsgn : sgn 5 n = (n : Int) - 32 := by
      rw [sgn, hmod]
      exact if_neg hlow
    rw [hsgn, if_neg hlow, if_pos (by omega)]
    congr 1
    omega

theorem vb_lt (w : Nat) : vb w < 32 := bits_lt w 42 5

/-! VPERM. -/

theorem permSrc_isSome {p : Nat} (h : p ≤ 3 ∨ 8 ≤ p ∧ p ≤ 15) : (permSrc p 0).isSome = true := by
  have hall : ∀ p < 16, p ≤ 3 ∨ 8 ≤ p → (permSrc p 0).isSome = true := by decide
  exact hall p (by omega) (by omega)

/-- The source element of each pattern of VPERM. -/
def permElem (p : Nat) (i : Fin 8) : Nat :=
  match p with
  | 0 => 7 - i | 1 => if i.val % 2 = 0 then i + 1 else i - 1 | 2 => (i + 4) % 8 | 3 => [0, 4, 2, 6, 1, 5, 3, 7].getD i 0 | n => n - 8

theorem permSrc_getD {p : Nat} (h : p ≤ 3 ∨ 8 ≤ p ∧ p ≤ 15) (i : Fin 8) : (permSrc p i).getD 0 = permElem p i := by
  have hall : ∀ p < 16, p ≤ 3 ∨ 8 ≤ p → ∀ i : Fin 8, (permSrc p i).getD 0 = permElem p i := by decide
  exact hall p (by omega) (by omega) i

/-- A permutation clamps nothing. -/
theorem vpermRes_legal {w : Nat} (h : vb w ≤ 3 ∨ 8 ≤ vb w ∧ vb w ≤ 15) (free : FreeMove) (x : Lane) :
    vpermRes w free x =
      vRes w true [vd w] (setVec (vd w) (Vector.ofFn fun i => el (vreg x (va w)) (permElem (vb w) i), false)) free x := by
  have hvec : vecOf (fun i => (el (vreg x (va w)) ((permSrc (vb w) i).getD 0), false)) =
      (Vector.ofFn fun i => el (vreg x (va w)) (permElem (vb w) i), false) := by
    simp only [vecOf, permSrc_getD h]
    exact Prod.ext rfl (by simp)
  unfold vpermRes vecRes
  dsimp only
  rw [permSrc_isSome h, hvec]

/-! VMAXI and VMINI. -/

theorem bestOk_legal {w : Nat} (h : vb w ≤ 2 ∧ vd w ≤ 1) : bestOk w = true := by
  have hhigh : bits (vd w) 1 4 = 0 := by
    unfold bits
    omega
  simp [bestOk, h, hhigh]

theorem incBase_legal {w : Nat} (h : vd w ≤ 1) (y : Lane) :
    incBase w y = { y with ibase := if vd w = 1 then y.ibase + 8 else y.ibase } := by
  unfold incBase
  obtain hd | hd : vd w = 0 ∨ vd w = 1 := by omega
  · rw [hd]; rfl
  · rw [hd]; rfl

theorem vmaxiRes_legal {w : Nat} (h : vb w ≤ 2 ∧ vd w ≤ 1) (free : FreeMove) (x : Lane) :
    vmaxiRes w free x = vRes w true [] (fun y =>
      incBase w { y with maxv := runBest (fun p q => decide (q < p)) (vb w) (vreg x (va w)) x.ibase x.maxv }) free x := by
  unfold vmaxiRes
  rw [bestOk_legal h]

theorem vminiRes_legal {w : Nat} (h : vb w ≤ 2 ∧ vd w ≤ 1) (free : FreeMove) (x : Lane) :
    vminiRes w free x = vRes w true [] (fun y =>
      incBase w { y with minv := runBest (fun p q => decide (p < q)) (vb w) (vreg x (va w)) x.ibase x.minv }) free x := by
  unfold vminiRes
  rw [bestOk_legal h]

/-! VBFLY. -/

theorem vbflyRes_legal {w : Nat} (heven : vd w % 2 = 0) (hacc : accN w ≤ 1) (free : FreeMove) (x : Lane) :
    vbflyRes w free x = vRes w true [vd w, vd w + 1] (fun y =>
      setVec (vd w + 1) (vecOf fun i => satElement
          (if accN w = 1 then cr (re (el (vreg x (va w)) i) - re (el (vreg x (vb w)) i)) 1
            else re (el (vreg x (va w)) i) - re (el (vreg x (vb w)) i))
          (if accN w = 1 then cr (im (el (vreg x (va w)) i) - im (el (vreg x (vb w)) i)) 1
            else im (el (vreg x (va w)) i) - im (el (vreg x (vb w)) i)))
        (setVec (vd w) (vecOf fun i => satElement
          (if accN w = 1 then cr (re (el (vreg x (va w)) i) + re (el (vreg x (vb w)) i)) 1
            else re (el (vreg x (va w)) i) + re (el (vreg x (vb w)) i))
          (if accN w = 1 then cr (im (el (vreg x (va w)) i) + im (el (vreg x (vb w)) i)) 1
            else im (el (vreg x (va w)) i) + im (el (vreg x (vb w)) i))) y)) free x := by
  have hhalve : (bit (accN w) 0 = true) = (accN w = 1) := by
    obtain h | h : accN w = 0 ∨ accN w = 1 := by omega
    · rw [h]; decide
    · rw [h]; decide
  have hok : (vd w % 2 == 0 && !bit (accN w) 1) = true := by
    obtain h | h : accN w = 0 ∨ accN w = 1 := by omega
    · rw [heven, h]; rfl
    · rw [heven, h]; rfl
  unfold vbflyRes
  simp only [hok, hhalve]

theorem vsplatRes_legal {w : Nat} (h : va w ≤ 15) (free : FreeMove) (x : Lane) :
    vsplatRes w free x = vRes w true [vd w] (setVec (vd w) (Vector.replicate 8 (sreg x (va w)), false)) free x := by
  unfold vsplatRes vecRes
  rw [decide_eq_true h]

theorem bexpRes_eq (w : Nat) (free : FreeMove) (x : Lane) :
    bexpRes w free x = vRes w true [] (fun y => { y with
      expr := (List.range 8).foldl (fun n i => min n (min (rsb (re (el (vreg x (va w)) i))) (rsb (im (el (vreg x (va w)) i))))) x.expr })
      free x := rfl

/-- Settles O22: on a legal word each row is its operation and its moves. -/
theorem formatVInstructions : Obligations.FormatVInstructions := by
  unfold Obligations.FormatVInstructions
  intro a b acc vec
  have hvec : ∀ {i op res} {r m : Lane → Nat → Nat → Int}, (∀ l s, exec (i l .ok) s = laneRow op l .ok res s) →
      (∀ w free x, res w free x = vecRes w true (vecOf fun i => satElement (r x w i) (m x w i)) free x) →
      (∀ w x i, r (afterFetch x) w i = r x w i) → (∀ w x i, m (afterFetch x) w i = m x w i) → vec i op r m := by
    intro i op res r m hi h hr hm
    exact vecStep hi (fun w free x _ => h w free x) fun w x => by simp only [hr, hm]
  refine ⟨vStep (fun _ _ => rfl) fun w free x _ => ⟨id, rfl, rfl⟩,
    hvec (fun _ _ => rfl) (fun _ _ _ => rfl) (fun _ _ _ => rfl) (fun _ _ _ => rfl),
    hvec (fun _ _ => rfl) (fun _ _ _ => rfl) (fun _ _ _ => rfl) (fun _ _ _ => rfl),
    hvec (fun _ _ => rfl) (fun _ _ _ => rfl) (fun _ _ _ => rfl) (fun _ _ _ => rfl),
    hvec (fun _ _ => rfl) (fun _ _ _ => rfl) (fun _ _ _ => rfl) (fun _ _ _ => rfl),
    vStep (fun _ _ => rfl) fun w free x _ => ⟨_, rfl, rfl⟩, vStep (fun _ _ => rfl) fun w free x _ => ⟨_, rfl, rfl⟩,
    vStep (fun _ _ => rfl) fun w free x _ => ⟨_, rfl, rfl⟩, vStep (fun _ _ => rfl) fun w free x _ => ⟨_, rfl, rfl⟩,
    vStep (fun _ _ => rfl) fun w free x _ => ⟨_, rfl, rfl⟩,
    hvec (fun _ _ => rfl) (fun _ _ _ => rfl) (fun _ _ _ => rfl) (fun _ _ _ => rfl), ?vsha,
    hvec (fun _ _ => rfl) (fun _ _ _ => rfl) (fun _ _ _ => rfl) (fun _ _ _ => rfl),
    hvec (fun _ _ => rfl) (fun _ _ _ => rfl) (fun _ _ _ => rfl) (fun _ _ _ => rfl),
    vStep (fun _ _ => rfl) fun w free x h => ⟨_, vbflyRes_legal h.1 (by omega) free x, ?full⟩,
    vStep (fun _ _ => rfl) fun w free x h => ⟨_, vbflyRes_legal h.1 (by omega) free x, ?half⟩,
    vStep (fun _ _ => rfl) fun w free x h => ⟨_, vpermRes_legal h free x, setVec_exact _ _ _⟩,
    vStep (fun _ _ => rfl) fun w free x _ => ⟨_, bexpRes_eq w free x, rfl⟩,
    vStep (fun _ _ => rfl) fun w free x h => ⟨_, vmaxiRes_legal h free x, incBase_legal h.2 _⟩,
    vStep (fun _ _ => rfl) fun w free x h => ⟨_, vminiRes_legal h free x, incBase_legal h.2 _⟩,
    vecStep (fun _ _ => rfl) (fun _ _ _ _ => rfl) (fun _ _ => rfl), vecStep (fun _ _ => rfl) (fun _ _ _ _ => rfl) (fun _ _ => rfl),
    vStep (fun _ _ => rfl) fun w free x h => ⟨_, vsplatRes_legal h free x, setVec_exact _ _ _⟩⟩
  case vsha =>
    refine hvec (fun _ _ => rfl) (fun w free x => ?_) (fun _ _ _ => rfl) (fun _ _ _ => rfl)
    unfold vshaRes
    simp only [vsha_shift (vb_lt w)]
    rfl
  case full =>
    have hacc : ¬ accN w = 1 := by omega
    simp only [if_neg hacc]
    rfl
  case half =>
    simp only [if_pos h.2]
    rfl

end Sys2Proof.Machine
end

section
/-!
SUPPORT. What the checks of a lane find.
-/
namespace Sys2Proof.Machine
open Sys2Proof

/-! What a row of Table 9.7 is. -/

/-- A row other than HALT is the issue of its own opcode. -/
def IsRow (r : Nat × (Fin 16 → LaneCheck → Instr)) : Prop :=
  ∃ own run, own r.1 = true ∧ ∀ l chk s, exec (r.2 l chk) s = whenLive s (issue l chk own run)

/-- A format V word that is illegal for every row. -/
def IllegalV (w : Nat) (x : Lane) : Prop := bit w 0 = true ∨ slotsLegal w x = false ∨ ¬(loaded w).Nodup

theorem isRow_of_laneRow {op : Nat} {i : Fin 16 → LaneCheck → Instr} {run : Nat → FreeMove → Lane → LaneRes}
    (hi : ∀ l chk s, exec (i l chk) s = laneRow op l chk run s) : IsRow (op, i) :=
  ⟨(· == op), fun _ free x => run (fetched x) free x, beq_self_eq_true op, hi⟩

theorem isRow_of_laneRowK {op : Nat} {i : Fin 16 → LaneCheck → Instr} {run : Nat → Lane → LaneRes}
    (hi : ∀ l chk s, exec (i l chk) s = laneRowK op l chk run s) : IsRow (op, i) := isRow_of_laneRow hi

theorem kJump_illegal {w : Nat} {ok : Bool} {cost : Nat} {run : Lane → Lane} {x : Lane} (h : bits w 32 15 ≠ 0 ∨ ok = false) :
    kJump w ok cost run x = .illegal := by
  refine if_pos ?_
  obtain h | h := h <;> simp [h]

/-- The rows of format V with their operations. -/
def vRows : List (Nat × (Fin 16 → LaneCheck → Instr) × (Nat → FreeMove → Lane → LaneRes)) :=
  [(0x20, .move, moveRes), (0x21, .vadd, vaddRes), (0x22, .vsub, vsubRes), (0x23, .vmuln, vmulnRes), (0x24, .vmulcn, vmulcnRes),
   (0x25, .vmac, vmacRes), (0x26, .vmacc, vmaccRes), (0x27, .vmsu, vmsuRes), (0x28, .vmul0, vmul0Res), (0x29, .vdotc, vdotcRes),
   (0x2A, .vnrw, vnrwRes), (0x2B, .vsha, vshaRes), (0x2C, .vconj, vconjRes), (0x2D, .vneg, vnegRes), (0x2E, .vbfly, vbflyRes),
   (0x2F, .vperm, vpermRes), (0x30, .bexp, bexpRes), (0x31, .vmaxi, vmaxiRes), (0x32, .vmini, vminiRes), (0x33, .vrcp, vrcpRes),
   (0x34, .vrsq, vrsqRes), (0x35, .vsplat, vsplatRes)]

theorem vRows_rows : laneRowsV = vRows.map fun r => (r.1, r.2.1) := rfl

theorem vRows_laneRow : ∀ r ∈ vRows, ∀ l chk s, exec (r.2.1 l chk) s = laneRow r.1 l chk r.2.2 s := by
  simp only [vRows, List.forall_mem_cons, List.not_mem_nil, false_implies, implies_true, and_true]
  and_intros <;> exact fun _ _ _ => rfl

theorem vRows_illegal : ∀ r ∈ vRows, ∀ w free x, IllegalV w x → r.2.2 w free x = .illegal := by
  simp only [vRows, List.forall_mem_cons, List.not_mem_nil, false_implies, implies_true, and_true, moveRes, vaddRes, vsubRes, vmulnRes,
    vmulcnRes, vmacRes, vmaccRes, vmsuRes, vmul0Res, vdotcRes, vnrwRes, vshaRes, vconjRes, vnegRes, vbflyRes, vpermRes, bexpRes, vmaxiRes,
    vminiRes, vrcpRes, vrsqRes, vsplatRes, vecRes, seedRes]
  and_intros <;> exact fun _ _ _ h => vRes_illegal h

/-- The rows of format K with their operations, but NOP, HALT and XFER, which have rows of another shape. -/
def kRows : List (Nat × (Fin 16 → LaneCheck → Instr) × (Nat → Lane → LaneRes)) :=
  [(0x02, .loop, loopRes), (0x03, .br, brRes), (0x04, .sli, sliRes), (0x05, .sadd, saddRes), (0x06, .pset, psetRes),
   (0x08, .xwait, xwaitRes), (0x09, .swi, swiRes), (0x0A, .rti, rtiRes), (0x0B, .tset, tsetRes), (0x0C, .expclr, expclrRes),
   (0x0D, .expget, expgetRes), (0x0E, .idxset, idxsetRes), (0x0F, .mmget, mmgetRes)]

theorem laneRowsK_cases : ∀ r ∈ laneRowsK, r = (0x00, .harrowNop) ∨ r = (0x01, .halt) ∨ r = (0x07, .xfer) ∨
    r ∈ kRows.map fun r => (r.1, r.2.1) := by
  intro r hr
  simp only [laneRowsK, kRows, List.map_cons, List.map_nil, List.mem_cons, List.not_mem_nil, or_false] at hr ⊢
  grind

theorem kRows_laneRow : ∀ r ∈ kRows, ∀ l chk s, exec (r.2.1 l chk) s = laneRowK r.1 l chk r.2.2 s := by
  simp only [kRows, List.forall_mem_cons, List.not_mem_nil, false_implies, implies_true, and_true]
  and_intros <;> exact fun _ _ _ => rfl

theorem kRows_illegal : ∀ r ∈ kRows, ∀ w x, bits w 32 15 ≠ 0 → r.2.2 w x = .illegal := by
  simp only [kRows, List.forall_mem_cons, List.not_mem_nil, false_implies, implies_true, and_true]
  refine ⟨fun w x h => ?loop, fun w x h => ?br, fun w x h => ?_, fun w x h => ?_, fun w x h => ?pset, fun w x h => ?xwait,
    fun w x h => ?_, fun w x h => ?rti, fun w x h => ?_, fun w x h => ?_, fun w x h => ?_, fun w x h => ?_, fun w x h => ?mmget⟩
  case loop =>
    unfold loopRes
    exact kJump_illegal (.inl h)
  case br =>
    unfold brRes
    exact kJump_illegal (.inl h)
  case pset =>
    unfold psetRes
    exact kRes_illegal (.inl h)
  case xwait =>
    unfold xwaitRes
    exact kRes_illegal (.inl h)
  case rti =>
    unfold rtiRes
    exact kJump_illegal (.inl h)
  case mmget =>
    unfold mmgetRes
    exact kRes_illegal (.inl h)
  all_goals exact kRes_illegal (.inl h)

theorem laneRows_isRow {r : Nat × (Fin 16 → LaneCheck → Instr)} (hr : r ∈ laneRowsK ++ laneRowsV) (hhalt : r.1 ≠ 0x01) : IsRow r := by
  obtain hK | hV := List.mem_append.mp hr
  · obtain rfl | rfl | rfl | hrow := laneRowsK_cases r hK
    · exact ⟨_, _, by decide, fun _ _ _ => rfl⟩
    · exact absurd rfl hhalt
    · exact ⟨_, _, by decide, fun _ _ _ => rfl⟩
    · obtain ⟨q, hq, rfl⟩ := List.mem_map.mp hrow
      exact isRow_of_laneRowK (kRows_laneRow q hq)
  · rw [vRows_rows] at hV
    obtain ⟨q, hq, rfl⟩ := List.mem_map.mp hV
    exact isRow_of_laneRow (vRows_laneRow q hq)

/-! What the checks of a lane find. -/

section
variable {l : Fin 16} {op w : Nat} {s : State} {own : Nat → Bool} {run : Lease → FreeMove → Lane → LaneRes}

theorem issue_illegal (hat : AtWord l op w s) (hown : own op = true)
    (h : run (jobLease (lane l s) s) (freeMoves (lane l s) s).1 (lane l s) = .illegal) : issue l .ok own run s = endJob l 1 s := by
  rw [hat.issue_eq hown, h]

/-- The row of the next opcode may issue. -/
theorem issue_gate (hat : AtWord l op w s) (hown : own op = true) :
    ¬ (!mayIssue (lane l s) || !own (nextOp (lane l s)) || budgetSpent (jobLease (lane l s) s) (lane l s)) = true := by
  simp [hat.may, hat.nextOp_eq, hown, hat.budget]

theorem issue_residue (hat : AtWord l op w s) (hown : own op = true) :
    issue l .residue own run s = residueError l (hcount 6 1 s) := if_neg (issue_gate hat hown)

theorem issue_memory (hat : AtWord l op w s) (hown : own op = true) (b : Fin 3) (k : Nat) :
    issue l (.memory b k) own run s = memoryError l b k s := if_neg (issue_gate hat hown)

end

/-- A count of Harrow changes no lane. -/
theorem lane_hcount (l i k : Nat) (s : State) : lane l (hcount i k s) = lane l s := rfl

/-- Two counts may come in either order. -/
theorem vadd_comm {n : Nat} (v : Vector Nat n) {i j : Nat} (h : i ≠ j) (a b : Nat) :
    vadd (vadd v i a) j b = vadd (vadd v j b) i a := by
  ext k hk
  by_cases hi : k = i
  · subst hi
    simp [vadd, vmod, vset, vget, hk, h, Ne.symm h]
  · by_cases hj : k = j
    · subst hj
      simp [vadd, vmod, vset, vget, hk, h, Ne.symm h]
    · simp [vadd, vmod, vset, Ne.symm hi, Ne.symm hj]

theorem endJob_hcount (l : Fin 16) {f : Nat} (hf : f = 1 ∨ f = 2) (s : State) :
    (endJob l f (hcount 6 1 s)).harrow.ctr = (hcount 6 1 (endJob l f s)).harrow.ctr ∧ lane l (endJob l f (hcount 6 1 s)) = lane l (endJob l f s) := by
  refine ⟨?_, rfl⟩
  obtain rfl | rfl := hf
  · exact vadd_comm s.harrow.ctr (by decide) 1 1
  · exact vadd_comm s.harrow.ctr (by decide) 1 1

/-- The values drawn for moved elements do not depend on a count. -/
theorem freeMoves_hcount (x : Lane) (i k : Nat) (s : State) :
    freeMoves x (hcount i k s) = ((freeMoves x s).1, hcount i k (freeMoves x s).2) := by
  unfold freeMoves
  split <;> rfl

/-- A mismatch that a retry clears: the same step, counted (R227). -/
theorem issue_retried {l : Fin 16} {op w : Nat} {s : State} {own : Nat → Bool} {run : Lease → FreeMove → Lane → LaneRes}
    (hat : AtWord l op w s) (hown : own op = true) :
    (issue l .retried own run s).harrow.ctr = (hcount 6 1 (issue l .ok own run s)).harrow.ctr ∧
      lane l (issue l .retried own run s) = lane l (issue l .ok own run s) := by
  have hretried : issue l .retried own run s = 
      match run (jobLease (lane l s) s) (freeMoves (lane l s) s).1 (lane l s) with
      | .hold => hcount 6 1 s
      | .illegal => endJob l 1 (hcount 6 1 s)
      | .sandbox => endJob l 2 (hcount 6 1 s)
      | .done c z => withLane l (fun _ => { z with steps := (lane l s).steps + c }) (hcount 6 1 (freeMoves (lane l s) s).2) := by
    refine (if_neg (issue_gate hat hown)).trans ?_
    simp only [lane_hcount, freeMoves_hcount] <;> rfl
  rw [hretried, hat.issue_eq hown]
  cases run (jobLease (lane l s) s) (freeMoves (lane l s) s).1 (lane l s) with
  | hold => exact ⟨rfl, rfl⟩
  | illegal => exact endJob_hcount l (.inl rfl) s
  | sandbox => exact endJob_hcount l (.inr rfl) s
  | done c z => exact ⟨rfl, rfl⟩

/-- A next instruction that cannot be fetched belongs to NOP's row (R218, R220). -/
theorem harrowNop_unfetched {l : Fin 16} {s : State} (hlive : live s = true) (hmay : mayIssue (lane l s) = true)
    (hbudget : budgetSpent (jobLease (lane l s) s) (lane l s) = false) (hout : fetchIllegal (lane l s) = true ∨ fetchOutside (lane l s) = true) :
    exec (.harrowNop l .ok) s = .next (endJob l (if fetchIllegal (lane l s) then 1 else 2) s) := by
  have hop : nextOp (lane l s) = 128 := if_pos (by simpa using hout)
  have hgate : ¬ (!mayIssue (lane l s) || !(!otherOp (nextOp (lane l s))) || budgetSpent (jobLease (lane l s) s) (lane l s)) = true := by
    rw [hmay, hop, hbudget]
    decide
  refine (whenLive_live hlive).trans (congrArg Host.Outcome.next ((if_neg hgate).trans ?_))
  dsimp only
  by_cases hillegal : fetchIllegal (lane l s) = true
  · simp only [hillegal, if_true]
  · simp only [hillegal, hout.resolve_left hillegal, if_true, Bool.false_eq_true, if_false]

/-- An opcode that no row of Table 9.7 has is NOP's, and illegal. -/
theorem harrowNop_undefined {l : Fin 16} {op w : Nat} {s : State} (hop : (0x10 ≤ op ∧ op < 0x20) ∨ (0x36 ≤ op ∧ op < 0x80))
    (hat : AtWord l op w s) : exec (.harrowNop l .ok) s = .next (endJob l 1 s) := by
  have hown : (!otherOp op) = true := by
    simp only [otherOp]
    simp
    omega
  refine (whenLive_live hat.live).trans (congrArg Host.Outcome.next (issue_illegal hat hown ?_))
  rw [if_neg (by simp [hat.inC]), if_neg (by simp [hat.inReach]), hat.word]
  exact if_pos (by rw [hat.op]; omega)

theorem laneRowK_illegal {i : Fin 16 → LaneCheck → Instr} {op w : Nat} {res : Nat → Lane → LaneRes} {l : Fin 16} {s : State}
    (hi : ∀ l chk s, exec (i l chk) s = laneRowK op l chk res s) (hat : AtWord l op w s) (h : res w (lane l s) = .illegal) :
    exec (i l .ok) s = .next (endJob l 1 s) := by
  rw [hi]
  refine (whenLive_live hat.live).trans (congrArg Host.Outcome.next (issue_illegal hat (beq_self_eq_true op) ?_))
  rw [hat.word]
  exact h

/-- A reserved bit of a format K word (R220). -/
theorem laneRowsK_reserved {r : Nat × (Fin 16 → LaneCheck → Instr)} (hr : r ∈ laneRowsK) {l : Fin 16} {w : Nat} {s : State}
    (hat : AtWord l r.1 w s) (hres : bits w 32 15 ≠ 0) : exec (r.2 l .ok) s = .next (endJob l 1 s) := by
  obtain rfl | rfl | rfl | hrow := laneRowsK_cases r hr
  · refine (whenLive_live hat.live).trans (congrArg Host.Outcome.next (issue_illegal hat (by decide) ?_))
    rw [if_neg (by simp [hat.inC]), if_neg (by simp [hat.inReach]), hat.word]
    exact (if_neg (by simp [hat.op])).trans (kRes_illegal (.inl hres))
  · have hissue : issue l .ok (· == 0x01) (fun _ _ x => haltRes (fetched x) x) s = endJob l 1 s :=
      issue_illegal hat (by decide) (by rw [hat.word]; exact kRes_illegal (.inl hres))
    change execHalt l .ok s = _
    rw [execHalt, whenLive_live hat.live]
    simp only [hissue]
    refine congrArg Host.Outcome.next (if_neg fun h => ?_)
    have hended : (lane l (endJob l 1 s)).phase = .ended 1 := congrArg Lane.phase (lane_withLane l _ s)
    rw [hended] at h
    cases h.1
  · refine (whenLive_live hat.live).trans (congrArg Host.Outcome.next (issue_illegal hat (by decide) ?_))
    rw [hat.word]
    exact if_pos (by simp [hres])
  · obtain ⟨q, hq, rfl⟩ := List.mem_map.mp hrow
    exact laneRowK_illegal (kRows_laneRow q hq) hat (kRows_illegal q hq w _ hres)

/-- A reserved bit, an illegal slot or a register loaded twice in a format V word (R220). -/
theorem laneRowsV_illegal {r : Nat × (Fin 16 → LaneCheck → Instr)} (hr : r ∈ laneRowsV) {l : Fin 16} {w : Nat} {s : State}
    (hat : AtWord l r.1 w s) (h : IllegalV w (lane l s)) : exec (r.2 l .ok) s = .next (endJob l 1 s) := by
  rw [vRows_rows] at hr
  obtain ⟨q, hq, rfl⟩ := List.mem_map.mp hr
  refine ((vRows_laneRow q hq l .ok s).trans (whenLive_live hat.live)).trans (congrArg Host.Outcome.next
    (issue_illegal hat (beq_self_eq_true _) ?_))
  rw [hat.word]
  exact vRows_illegal q hq w _ _ h

/-- Settles O23: what the checks find comes before the row. -/
theorem laneChecksAndFaults : Obligations.LaneChecksAndFaults := by
  unfold Obligations.LaneChecksAndFaults
  refine ⟨fun r hr l w s hat hres => laneRowsK_reserved hr hat hres, fun r hr l w s hat h => laneRowsV_illegal hr hat h,
    fun l w s hat h => laneRowK_illegal (fun _ _ _ => rfl) hat ?loop, fun l w s hat h => laneRowK_illegal (fun _ _ _ => rfl) hat ?br,
    fun l w s hat h => laneRowK_illegal (fun _ _ _ => rfl) hat ?rti, fun op hop l w s hat => harrowNop_undefined hop hat,
    fun l s hlive hmay hbudget => ⟨fun h => ?fetchIllegal, fun hin h => ?fetchOutside⟩, fun r hr l w s hat hhalt => ?checks⟩
  case loop =>
    unfold loopRes
    exact kJump_illegal (.inr (by simp [h]))
  case br =>
    unfold brRes
    exact kJump_illegal (.inr (by simp [h]))
  case rti =>
    unfold rtiRes
    exact kJump_illegal (.inr h)
  case fetchIllegal => rw [harrowNop_unfetched hlive hmay hbudget (.inl h), if_pos h]
  case fetchOutside => rw [harrowNop_unfetched hlive hmay hbudget (.inr h), if_neg (by simp [hin])]
  case checks =>
    obtain ⟨own, run, hown, hi⟩ := laneRows_isRow hr hhalt
    simp only [hi, whenLive_live hat.live]
    refine ⟨congrArg _ (issue_residue hat hown), fun b k => congrArg _ (issue_memory hat hown b k), fun t ht => ⟨_, rfl, ?_⟩⟩
    cases ht
    exact issue_retried hat hown

end Sys2Proof.Machine
end

section
/-!
SUPPORT. Convergent rounding.
-/
namespace Sys2Proof.Machine
open Sys2Proof

/-- R222 in one statement: what is left of `x` is at most half of 2^k either way, and at an exact half the quotient is even. -/
theorem cr_spec (x : Int) (k : Nat) :
    2 * (x - 2 ^ k * cr x k) ≤ 2 ^ k ∧ -(2 ^ k) ≤ 2 * (x - 2 ^ k * cr x k) ∧
      (2 * (x - 2 ^ k * cr x k) = 2 ^ k ∨ 2 * (x - 2 ^ k * cr x k) = -(2 ^ k) → cr x k % 2 = 0) := by
  have hpos : (0 : Int) < 2 ^ k := Int.pow_pos (by decide)
  have hdiv := Int.emod_add_mul_ediv x (2 ^ k)
  have hnonneg := Int.emod_nonneg x (Int.ne_of_gt hpos)
  have hlt := Int.emod_lt_of_pos x hpos
  unfold cr
  dsimp only
  generalize (2 : Int) ^ k = d at *
  generalize x / d = q at *
  generalize x % d = r at *
  split
  · rw [Int.mul_add, Int.mul_one]
    omega
  · omega

/-- Settles O24. -/
theorem convergentRounding : Obligations.ConvergentRounding := by
  unfold Obligations.ConvergentRounding
  refine ⟨fun x k => ?_, fun x k hhalf _ => ?_, fun x => ?_⟩
  · obtain ⟨hle, hge, -⟩ := cr_spec x k
    exact ⟨hle, hge⟩
  · obtain ⟨-, -, heven⟩ := cr_spec x k
    exact heven hhalf
  · simp [cr]

end Sys2Proof.Machine
end

section
/-!
SUPPORT. What happens between the instructions of a lane.
-/
namespace Sys2Proof.Machine
open Sys2Proof

/-! Changes of a lane. -/

theorem withLane_withLane (l : Nat) (f g : Lane → Lane) (s : State) : withLane l g (withLane l f s) = withLane l (fun x => g (f x)) s :=
  congrArg (fun v => withHarrow (fun h => { h with lane := v }) s) (vmod_vmod s.harrow.lane l f g)

/-- Two changes of a lane are one where they agree on the lane as it is. -/
theorem withLane_congr {l : Nat} {f g : Lane → Lane} {s : State} (h : f (lane l s) = g (lane l s)) : withLane l f s = withLane l g s := by
  rw [withLane_const, h, ← withLane_const]

/-! Jobs. -/

theorem wipeFor_own {l owner : Nat} {s : State} (h : (lane l s).owner = owner) : wipeFor l owner false s = s := if_neg (by simp [h])

theorem wipeFor_other {l owner : Nat} {s : State} (h : (lane l s).owner ≠ owner) : wipeFor l owner false s = withLane l wipedLane s :=
  if_pos (by simp [h])

theorem jobStart_host {l : Nat} {d : List (List Byte)} {s : State} {j : Job} (hwhole : (lane l s).whole = false)
    (hwiping : (lane l s).wiping = false) (hjob : (lane l s).job = none) (hbjob : (lane l s).bjob = none) (hnext : nextJob l s = some j) :
    jobStart l none d s = startHost l j d s := by
  simp only [jobStart, laneIdle, hwhole, hwiping, hjob, hbjob, hnext, Option.isNone_none, Bool.and_self, Bool.not_true, Bool.or_self,
    Bool.false_eq_true, if_false]

/-- A host job completes once no channel runs. -/
theorem jobComplete_host {l : Nat} {s : State} {j : Job} (hjob : (lane l s).job = some j) (hchan : ∀ c ∈ (lane l s).chan.toList, c = none)
    (hphase : (lane l s).phase = .outbound ∨ ∃ f, (lane l s).phase = .ended f) : jobComplete l .ok s = completeHost l j s := by
  have hidle : chansIdle (lane l s) = true := List.all_eq_true.mpr fun c hc => by rw [hchan c hc]; rfl
  obtain hphase | ⟨f, hphase⟩ := hphase <;>
    simp only [jobComplete, hjob, hidle, hphase, checkLane, ite_self, Bool.not_true, Bool.false_eq_true, if_false]

theorem jobComplete_builmin {l : Fin 16} {s : State} {c : Nat} (hjob : (lane l s).job = none) (hbjob : (lane l s).bjob = some c)
    (hphase : (lane l s).phase = .idle) (hcache : (lane l s).cacheFenced = false) :
    jobComplete l .ok s = hcount 0 1 (withLane l (fun x => { x with bjob := none }) s) := by
  have hlane : lane l (hcount 0 1 (withLane l (fun x => { x with bjob := none, phase := .idle }) s)) =
      { lane l s with bjob := none, phase := .idle } := lane_withLane l _ s
  have hafter : afterJob l (hcount 0 1 (withLane l (fun x => { x with bjob := none, phase := .idle }) s)) =
      hcount 0 1 (withLane l (fun x => { x with bjob := none, phase := .idle }) s) := if_neg (by simp [hlane, hcache])
  simp only [jobComplete, hjob, hbjob, completeBuilmin, checkLane, hphase, hafter]
  refine congrArg (hcount 0 1) (withLane_congr ?_)
  rw [← hphase]

/-! The canary. -/

theorem canaryMeasure_due {l ps : Nat} {s : State} (hdue : (lane l s).canaryAt + 500000 ≤ s.now)
    (hquiet : mayIssue (lane l s) = false ∨ macOp (nextOp (lane l s)) = false) : canaryMeasure l ps s = readCanary l ps s := by
  refine if_neg ?_
  obtain h | h := hquiet <;> simp [quietStep, h] <;> omega

theorem canaryMeasure_not {l ps : Nat} {s : State}
    (h : ¬ (lane l s).canaryAt + 500000 ≤ s.now ∨ mayIssue (lane l s) = true ∧ macOp (nextOp (lane l s)) = true) :
    canaryMeasure l ps s = s := by
  refine if_pos ?_
  obtain h | ⟨hmay, hmac⟩ := h
  · simp [Nat.lt_of_not_le h]
  · simp [quietStep, hmay, hmac]

/-! What happens between instructions. -/

theorem dmaDone_quiet {l c : Nat} {d : List Byte} {s : State} {g : Seg} {j : Job} (hchan : vget (lane l s).chan c = some g)
    (hjob : (lane l s).job = some j) (hirq : g.irq = false) :
    dmaDone l c d s = withLane l (fun y => { y with chan := vset y.chan c none, wait := if y.wait = some c then none else y.wait })
      (transfer l j.lease d g s) := by
  simp only [dmaDone, hchan, hjob, hirq, Bool.false_eq_true, if_false]

theorem interruptTaken_due {l : Nat} {s : State} {i : Nat} {j : Job} (hphase : (lane l s).phase = .program)
    (hdue : dueSource (lane l s) = some i) (hjob : (lane l s).job = some j) :
    interruptTaken l s = hcount 11 1 (withLane l (fun x =>
      { swapBanks x with saved := x.pc, pc := j.ivec.getD i 0, handler := true, pend := x.pend - 2 ^ i, group := none }) s) := by
  simp only [interruptTaken, hdue, hjob]
  exact if_neg fun h => h hphase

theorem jobBudget_spent {l : Nat} {s : State} {j : Job} (hjob : (lane l s).job = some j) (hmay : mayIssue (lane l s) = true)
    (hspent : budgetSpent (jobLease (lane l s) s) (lane l s) = true) :
    jobBudget l s = raise .jobBudget l (le 4 j.handle.toNat ++ [byte j.lease])
      (endJob l 3 (withLane l (fun x => { x with steps := j.budget }) s)) := by
  simp only [jobBudget, hjob, hmay, hspent, Bool.not_true, Bool.or_self, Bool.false_eq_true, if_false]

/-- Settles O25: one equation per event. -/
theorem harrowEventsTakeEffect : Obligations.HarrowEventsTakeEffect := by
  unfold Obligations.HarrowEventsTakeEffect
  refine ⟨fun l c d => builminDoes (fun _ => rfl) fun s h => ?sameOwner, fun l c d => builminDoes (fun _ => rfl) fun s h => ?otherOwner,
    fun l d j => builminDoes (fun _ => rfl) fun s h => jobStart_host h.1 h.2.1 h.2.2.1 h.2.2.2.1 h.2.2.2.2,
    fun l s j hlive hjob hphase hchan => ?outbound, fun l s j f hlive hjob hphase hchan => ?ended,
    fun l c => does (fun _ => rfl) fun s h => jobComplete_builmin h.1 h.2.1 h.2.2.1 h.2.2.2, fun l ps => ⟨?canary, ?noCanary⟩,
    fun l ps => ⟨?steal, ?noSteal⟩, fun l => does (fun _ => rfl) fun s h => ?wipe,
    fun l c d g j => does (fun _ => rfl) fun s h => dmaDone_quiet h.1 h.2.1 h.2.2, fun l n => does (fun _ => rfl) fun s h => ?timer,
    fun l i j => does (fun _ => rfl) fun s h => interruptTaken_due h.1 h.2.1 h.2.2,
    fun l j => does (fun _ => rfl) fun s h => jobBudget_spent h.1 h.2.1 h.2.2⟩
  case sameOwner =>
    refine (if_pos h.1).trans ?_
    rw [startBuilmin, wipeFor_own h.2]
  case otherOwner =>
    refine (if_pos h.1).trans ?_
    rw [startBuilmin, wipeFor_other h.2, withLane_withLane]
  case outbound => exact (whenLive_live hlive).trans (congrArg _ (jobComplete_host hjob hchan (.inl hphase)))
  case ended => exact (whenLive_live hlive).trans (congrArg _ (jobComplete_host hjob hchan (.inr ⟨f, hphase⟩)))
  case canary => exact does (fun _ => rfl) fun s h => canaryMeasure_due h.1 h.2
  case noCanary => exact does (fun _ => rfl) fun s h => canaryMeasure_not h
  case steal =>
    refine does (fun _ => rfl) fun s h => if_neg ?_
    have hjob : (lane l s).job.isNone = false := Option.isNone_eq_false_iff.mpr (Option.isSome_iff_ne_none.mpr h.1)
    have hwait : ¬ s.now < (lane l s).canaryAt + 5500000 := Nat.not_lt.mpr h.2
    simp [laneIdle, hjob, hwait]
  case noSteal => exact does (fun _ => rfl) fun s h => if_pos (by simp [Nat.lt_of_not_le h])
  case wipe =>
    obtain ⟨hwiping, hjob, hbjob, hslot⟩ := h
    simp only [laneWipeDone, laneIdle, hwiping, hjob, hbjob, hslot, Option.isNone_none, Bool.and_self, Bool.not_true, Bool.or_self,
      Bool.false_eq_true, if_false]
  case timer =>
    refine if_pos ?_
    simp [timerDue, h.1, h.2]

end Sys2Proof.Machine
end

section
/-!
SUPPORT. What happens to a radio's front end.
-/
namespace Sys2Proof.Machine
open Sys2Proof

/-! A radio's front end. -/

theorem rnum_lt (r : Radio) : rnum r < 3 := by cases r <;> decide

theorem withFe_get {r : Nat} (hr : r < 3) (f : RadioFe → RadioFe) (s : State) : vget (withFe r f s).fe r = f (vget s.fe r) :=
  vget_vmod_same s.fe r f hr

theorem withFe_withFe (r : Nat) (f g : RadioFe → RadioFe) (s : State) : withFe r g (withFe r f s) = withFe r (fun e => g (f e)) s :=
  congrArg (fun v => { s with fe := v }) (vmod_vmod s.fe r f g)

/-- A change of the front end leaves alone what its function leaves alone. -/
theorem withFe_proj {β : Type} (p : RadioFe → β) {f : RadioFe → RadioFe} (h : ∀ e, p (f e) = p e) (r j : Nat) (s : State) :
    p (vget (withFe r f s).fe j) = p (vget s.fe j) := vget_vmod_proj s.fe r j p h

theorem giveUpTxop_none {r : Nat} {s : State} (h : (vget s.fe r).txopHeld = false) : giveUpTxop r s = s := if_pos (by simp [h])

theorem femIssue_fe (r ev : Nat) (s : State) : (femIssue r ev s).fe = s.fe := by
  unfold femIssue
  generalize femEntries ev (vget s.fe r) = l
  induction l generalizing s with
  | nil => rfl
  | cons b l ih => exact ih _

theorem femEnter_fe (r : Nat) (st : RState) (s : State) : (femEnter r st s).fe = s.fe := by
  unfold femEnter
  split <;> simp only [femIssue_fe]

/-! Coexistence inputs. -/

theorem coexReq_same {r : Nat} {v : Bool} {s : State} (h : (vget s.fe r).req = v) : coexReq r v s = s := if_pos h.symm

theorem coexReq_fall {r : Nat} {s : State} (h : (vget s.fe r).req = true) :
    coexReq r false s = coexUpdate r (withFe r (fun e => { e with req := false, hold := false }) s) :=
  (if_neg (by simp [h])).trans (if_pos rfl)

theorem coexReq_disabled {r : Nat} {s : State} (h : (vget s.fe r).req = false) (hen : coexEn r s = false) :
    coexReq r true s = withFe r (fun e => { e with req := true, reqAt := s.now }) s :=
  (if_neg (by simp [h])).trans ((if_neg (by simp)).trans (if_pos (by simp [hen])))

theorem coexReq_rise {r : Nat} {s : State} (h : (vget s.fe r).req = false) (hen : coexEn r s = true) (htoggle : s.coex.toggle = 0) :
    coexReq r true s =
      coexUpdate r (withFe r (fun e => { e with req := true, reqAt := s.now, rises := s.now :: risesIn s.now e.rises }) s) := by
  refine (if_neg (by simp [h])).trans ((if_neg (by simp)).trans ((if_neg (by simp [hen])).trans ?_))
  dsimp only
  rw [if_neg (by simp [htoggle])]
  exact congrArg (coexUpdate r) (withFe_congr rfl)

theorem coexStuck_due {r : Nat} {s : State} (hreq : (vget s.fe r).req = true) (hhold : (vget s.fe r).hold = false)
    (hen : coexEn r s = true) (hdue : (vget s.fe r).reqAt + 500 * s.coex.maxHold ≤ s.now) :
    coexStuck r s = raise .coexStuck r [] (feCount r 11 (coexUpdate r (withFe r (fun e => { e with hold := true })
      { s with coex := { s.coex with stuck := s.coex.stuck ||| (1#3 <<< r) } }))) :=
  if_neg (by simp [hreq, hhold, hen, hdue])

/-! The radio's states. -/

theorem stateApply_busy {r : Nat} {s : State} {h : Word} {want : RState} {ret : RState} {rest : List (Word × RState × RState)}
    (hreq : (vget s.fe r).stateReq = (h, want, ret) :: rest) (hbusy : inExchange r s = true ∨ (vget s.bf.radio r).running = true) :
    stateApply r s = s := by
  simp only [stateApply, hreq]
  refine if_pos ?_
  obtain h | h := hbusy <;> simp [h]

/-- The first waiting request, with the radio free to follow it. -/
theorem stateApply_free {r : Nat} {s : State} {h : Word} {want : RState} {ret : RState} {rest : List (Word × RState × RState)}
    (hreq : (vget s.fe r).stateReq = (h, want, ret) :: rest) (hex : inExchange r s = false) (hcal : (vget s.fe r).cal = none)
    (htrans : (vget s.fe r).trans = none) (hrun : (vget s.fe r).stateRun = none) (hsw : (vget s.fe r).sw = none)
    (hbf : (vget s.bf.radio r).running = false) (hoff : mayGo r want s ≠ .off) :
    stateApply r s =
      let s1 := withFe r (fun e => { e with stateReq := rest, ret := ret, goal := none, relocked := false }) s
      if mayGo r want s = (vget s.fe r).state then finish h .ok [] s1
      else goTo r (mayGo r want s) (withFe r (fun e => { e with stateRun := some h }) (leaveOff r (giveUpTxop r s1))) := by
  simp only [stateApply, hreq, hex, hcal, htrans, hrun, hsw, hbf, Option.isSome_none, Bool.or_self, Bool.false_eq_true, if_false, if_neg hoff]

/-- From STANDBY or RX a transition starts. -/
theorem goTo_powered {r : Nat} {target : RState} {s : State} (h : (vget s.fe r).state = .standby ∨ (vget s.fe r).state = .rx) :
    goTo r target s = withFe r (fun e => { e with trans := some target, locking := false }) s := by
  refine if_neg ?_
  obtain h | h := h <;> simp [h]

theorem leaveOff_powered {r : Nat} {s : State} (h : (vget s.fe r).state ≠ .off) : leaveOff r s = s := if_neg h

theorem stateApply_goes {r : Nat} (hr : r < 3) {s : State} {h : Word} {want : RState} {ret : RState} {rest : List (Word × RState × RState)}
    (hreq : (vget s.fe r).stateReq = (h, want, ret) :: rest) (hex : inExchange r s = false) (hcal : (vget s.fe r).cal = none)
    (htrans : (vget s.fe r).trans = none) (hrun : (vget s.fe r).stateRun = none) (hsw : (vget s.fe r).sw = none)
    (hbf : (vget s.bf.radio r).running = false) (htxop : (vget s.fe r).txopHeld = false) (hne : mayGo r want s ≠ (vget s.fe r).state)
    (hoff : mayGo r want s ≠ .off) (hstate : (vget s.fe r).state = .standby ∨ (vget s.fe r).state = .rx) :
    stateApply r s = withFe r (fun e => { e with
      stateReq := rest, ret := ret, goal := none, relocked := false, stateRun := some h, trans := some (mayGo r want s), locking := false }) s := by
  rw [stateApply_free hreq hex hcal htrans hrun hsw hbf hoff]
  dsimp only
  rw [if_neg hne, giveUpTxop_none (by rw [withFe_get hr]; exact htxop), leaveOff_powered, withFe_withFe, goTo_powered, withFe_withFe]
  · rw [withFe_get hr]
    exact hstate
  · rw [withFe_get hr]
    obtain hs | hs := hstate <;> simp [hs]

/-- What a transition's end leaves to be done, where a command waits for it. -/
theorem arrived_command {r : Nat} {s : State} {h : Word} {locked : Bool} (hgoal : (vget s.fe r).goal = none)
    (hrun : (vget s.fe r).stateRun = some h) (hre : (vget s.fe r).relocked = false) :
    arrived r locked s = finish h .ok [] (withFe r (fun e => { e with stateRun := none, relocked := false }) s) := by
  simp only [arrived, hgoal, hrun, hre, Option.isSome_none, Bool.false_eq_true, if_false]

theorem transitionEnd_command {r : Nat} {s : State} {want : RState} {h : Word} (htrans : (vget s.fe r).trans = some want) (htx : want ≠ .tx)
    (hoff : mayGo r want s ≠ .off) (hlock : (vget s.fe r).locking = false) (hpower : (vget s.fe r).powering = false)
    (hrun : (vget s.fe r).stateRun = some h) (hgoal : (vget s.fe r).goal = none) (hre : (vget s.fe r).relocked = false) :
    transitionEnd r s = coexUpdate r (finish h .ok [] (withFe r (fun e => { e with stateRun := none, relocked := false })
      (femEnter r (mayGo r want s) (withFe r (fun e => { e with state := mayGo r want s, trans := none, locking := false }) s)))) := by
  have hkept : ∀ {β : Type} (p : RadioFe → β), (∀ e, p { e with state := mayGo r want s, trans := none, locking := false } = p e) →
      p (vget (femEnter r (mayGo r want s) (withFe r (fun e => { e with state := mayGo r want s, trans := none, locking := false }) s)).fe r) =
        p (vget s.fe r) := fun p hp => by
    rw [femEnter_fe]
    exact withFe_proj p hp r r s
  simp only [transitionEnd, htrans, hpower, hlock, Bool.false_eq_true, if_false, if_neg htx, if_neg hoff, Bool.false_and]
  rw [arrived_command (h := h) ((hkept RadioFe.goal fun _ => rfl).trans hgoal) ((hkept RadioFe.stateRun fun _ => rfl).trans hrun)
    ((hkept RadioFe.relocked fun _ => rfl).trans hre)]

theorem autoWake_standby {r : Nat} {tx : Bool} {s : State} (hstate : (vget s.fe r).state = .standby) (htrans : (vget s.fe r).trans = none)
    (hcal : (vget s.fe r).cal = none) (hout : radioOut r s = false) (hmode : s.life.mode ≠ .startUp) :
    autoWake r tx s = withFe r (fun e => { e with trans := some (if tx then .tx else .rx), locking := false }) s := by
  refine (if_neg (by simp [hstate, htrans, hcal, hout])).trans ?_
  rw [goTo_powered (.inl hstate)]
  simp [hmode]

/-! Calibration. -/

/-- Segments whose temperature has moved by 1.2 K or more are no longer valid (R92). -/
def segStill (temp : Int) (e : RadioFe) : Vector Bool 4 :=
  Vector.ofFn fun (i : Fin 4) => e.segValid[i] && decide ((vget e.segTemp i - temp).natAbs < 120)

theorem tempSample_eq (r : Nat) (temp : Int) (s : State) :
    tempSample r temp s = withFe r (fun e => { e with
      temp := temp, segValid := segStill temp e
      calPending := if vget e.segValid (segUse r e) && decide (120 ≤ (vget e.segTemp (segUse r e) - temp).natAbs) && e.state != .off
        then some s.now else e.calPending }) s := by
  have hstill : ∀ e : RadioFe, (Vector.ofFn fun (i : Fin 4) => e.segValid[i] && !decide ((vget e.segTemp i - temp).natAbs ≥ 120)) =
      segStill temp e := fun e => by
    simp only [segStill, ge_iff_le, ← decide_not, Nat.not_le]
  unfold tempSample
  dsimp only
  rw [hstill (vget s.fe r)]
  exact withFe_congr rfl

theorem calBegin_temp {r : Nat} {s : State} (hcmd : (vget s.fe r).calCmd = none) (hpend : (vget s.fe r).calPending ≠ none)
    (hstate : (vget s.fe r).state ≠ .rx) : calBegin r s = calTemp r s := by
  simp only [calBegin, if_neg hstate, hcmd, if_pos (Option.isSome_iff_ne_none.mpr hpend)]

theorem calBegin_rx {r : Nat} {s : State} (hpend : (vget s.fe r).calPending ≠ none) (hstate : (vget s.fe r).state = .rx) :
    calBegin r s = withFe r (fun e => { e with trans := some .standby, locking := false, goal := some .calibrate }) s :=
  (if_pos hstate).trans (if_pos (.inr (Option.isSome_iff_ne_none.mpr hpend)))

theorem calTemp_eq (r : Nat) (s : State) :
    calTemp r s = withFe r (fun e => { e with
      cal := some { seg := segUse r e, cause := .temp }, trans := none, powering := false, ctr := vadd e.ctr 3 1 }) s :=
  (withFe_withFe r _ _ s).trans (withFe_congr rfl)

theorem calMayStart_of {r : Nat} {s : State} (hquiet : quietRadio r s = true) (htxop : (vget s.fe r).txopHeld = false)
    (hdue : dueSoon r s = false) : calMayStart r s = true := by
  rw [calMayStart, hquiet, htxop, hdue]
  rfl

theorem calForced_old {r t : Nat} {s : State} (hquiet : quietRadio r s = true) (hcmd : (vget s.fe r).calCmd = none)
    (hpend : (vget s.fe r).calPending = some t) (hold : t + 10000000 ≤ s.now) (hstate : (vget s.fe r).state ≠ .rx) :
    calForced r s = calTemp r (feCount r 6 (giveUpTxop r s)) := by
  simp only [calForced, hquiet, hcmd, hpend, decide_eq_true hold, if_neg hstate, Bool.not_true, Bool.false_eq_true, if_false, if_true]

theorem calForced_early {r t : Nat} {s : State} (hcmd : (vget s.fe r).calCmd = none)
    (hpend : (vget s.fe r).calPending = some t) (hearly : s.now < t + 10000000) : calForced r s = s := by
  simp only [calForced, hcmd, hpend, decide_eq_false (Nat.not_le.mpr hearly), Bool.false_eq_true, if_false, ite_self]

theorem calEnd_temp {r : Nat} {s : State} {c : Cal} (hcal : (vget s.fe r).cal = some c) (hcause : c.cause = .temp)
    (hseg : c.seg = segUse r (vget s.fe r)) :
    calEnd r s = calFollow r c (recipRepeat r (noteTuning r c.seg (raise .synCal r [] (withFe r (fun e => { e with
      segValid := vset e.segValid c.seg true, segTemp := vset e.segTemp c.seg e.temp, segCount := vadd e.segCount c.seg 1
      cal := none, calPending := none }) s)))) := by
  simp only [calEnd, hcal, if_pos hcause, if_pos hseg]
  exact congrArg (fun t => calFollow r c (recipRepeat r (noteTuning r c.seg (raise .synCal r [] t)))) (withFe_congr (by simp only [if_pos hseg]))

/-! Channel and chains. -/

/-- A switch within a valid segment with nothing announced and no FEM entries. -/
theorem channelSwitch_free {r x : Nat} {s : State} {q : ChanReq} (hreq : (vget s.fe r).chanReq = some q) (hex : inExchange r s = false)
    (hcal : (vget s.fe r).cal = none) (htrans : (vget s.fe r).trans = none) (hsw : (vget s.fe r).sw = none) (hat : q.at_ = none)
    (hstate : (vget s.fe r).state ≠ .off) (hbf : (vget s.bf.radio r).running = false) (htxop : (vget s.fe r).txopHeld = false)
    (hfem : (vget s.fe r).femMap = []) (hseg : segOf r q.centre = segUse r (vget s.fe r)) (hforce : q.force = false)
    (hvalid : vget (vget s.fe r).segValid (segUse r (vget s.fe r)) = true) :
    channelSwitch r x s = furrowDiscard r (withFe r (fun e => { e with
      chanReq := none, calPending := none, sw := some (q.handle, 0, 38), trans := some .standby, locking := true }) (storeChannel r q s)) := by
  have hdue : switchDue q s = true := by rw [switchDue, hat]
  have hgo : ¬ (inExchange r s || (vget s.fe r).cal.isSome || (vget s.fe r).trans.isSome || (vget s.fe r).sw.isSome || !switchDue q s ||
      (vget s.fe r).state == .off || (vget s.bf.radio r).running) = true := by
    simp [hex, hcal, htrans, hsw, hdue, hstate, hbf]
  simp only [channelSwitch, hreq, if_neg hgo, giveUpTxop_none htxop, hseg, hforce, hvalid, femEntries, hfem]
  simp only [ne_eq, not_true_eq_false, if_false, Bool.not_true, Bool.or_self, Bool.false_eq_true, List.filter_nil, List.length_nil,
    withFe_withFe]
  rfl

/-- A chain that is searched anew 60 s after it was derated (R112). -/
def searchable (k : Chain) : Prop :=
  chainOut k = false ∧ k.search = none ∧ k.judge = false ∧ (k.st = .derated3 ∨ k.st = .derated6)

theorem derateResearch_due {r c : Nat} {s : State} (h : searchable (vget (vget s.fe r).chains c))
    (hdue : (vget (vget s.fe r).chains c).deratedAt + 30000000000 ≤ s.now) :
    derateResearch r c s = startDue r (withChain r c (fun k => { k with searchDue := true }) s) := by
  obtain ⟨hout, hsearch, hjudge, hst⟩ := h
  refine if_neg ?_
  rw [hout, hsearch, hjudge]
  simp [hst, hdue]

/-- While the radio sends or receives no search starts. -/
theorem startDue_busy {r : Nat} {s : State} (h : (vget s.fe r).tx ≠ none ∨ (vget s.phy r).rx ≠ none) : startDue r s = s := by
  refine if_pos ?_
  obtain h | h := h <;> simp [Option.isSome_iff_ne_none.mpr h]

/-- Settles O26: one equation per event and case. -/
theorem radioEventsTakeEffect : Obligations.RadioEventsTakeEffect := by
  unfold Obligations.RadioEventsTakeEffect
  intro r n
  have hn : n < 3 := rnum_lt r
  refine ⟨does (fun _ => rfl) fun _ _ => rfl, does (fun _ => rfl) fun s h => coexReq_fall h,
    does (fun _ => rfl) fun s h => coexReq_rise h.1 h.2.1 h.2.2, does (fun _ => rfl) fun s h => coexReq_disabled h.1 h.2,
    fun v => does (fun _ => rfl) fun s h => coexReq_same h, fun v => does (fun _ => rfl) fun _ _ => rfl,
    does (fun _ => rfl) fun s h => coexStuck_due h.1 h.2.1 h.2.2.1 h.2.2.2, does (fun _ => rfl) fun s h => if_pos (by simp [n, h]),
    fun h want ret rest => builminDoes (fun _ => rfl) fun s hs => ?already, fun h want ret rest => builminDoes (fun _ => rfl) fun s hs => ?goes,
    fun h want ret rest => builminDoes (fun _ => rfl) fun s hs => stateApply_busy hs.1 hs.2,
    fun want h => does (fun _ => rfl) fun s hs => ?transitionEnd, fun tx => does (fun _ => rfl) fun s h => ?autoWake,
    fun t => does (fun _ => rfl) fun s h => ?tempOff, fun t => does (fun _ => rfl) fun s h => ?tempMoved,
    does (fun _ => rfl) fun s h => ?calStart, does (fun _ => rfl) fun s h => ?calStartRx, fun t => does (fun _ => rfl) fun s h => ?calForced,
    fun t => does (fun _ => rfl) fun s h => calForced_early h.1 h.2.1 h.2.2, fun c => does (fun _ => rfl) fun s h => calEnd_temp h.1 h.2.1 h.2.2,
    fun x q => does (fun _ => rfl) fun s h => ?switch, fun c => does (fun _ => rfl) fun s h => ?research,
    fun c => does (fun _ => rfl) fun s h => ?researchBusy, fun c => does (fun _ => rfl) fun s h => ?researchEarly⟩
  case already =>
    obtain ⟨hreq, hex, hcal, htrans, hrun, hsw, hbf, hsame, hoff⟩ := hs
    rw [stateApply_free hreq hex hcal htrans hrun hsw hbf (by rwa [hsame])]
    exact if_pos hsame
  case goes =>
    obtain ⟨hreq, hex, hcal, htrans, hrun, hsw, hbf, htxop, hne, hoff, hstate⟩ := hs
    exact stateApply_goes hn hreq hex hcal htrans hrun hsw hbf htxop hne hoff hstate
  case transitionEnd =>
    obtain ⟨htrans, htx, hoff, hlock, hpower, hrun, hgoal, hre⟩ := hs
    exact transitionEnd_command htrans htx hoff hlock hpower hrun hgoal hre
  case autoWake =>
    obtain ⟨hstate, htrans, hcal, hout, hmode⟩ := h
    exact autoWake_standby hstate htrans hcal hout hmode
  case tempOff =>
    refine (tempSample_eq n t s).trans (withFe_congr ?_)
    rw [if_neg (by simp [h])]
    rfl
  case tempMoved =>
    obtain ⟨hstate, hvalid, hmoved⟩ := h
    refine (tempSample_eq n t s).trans (withFe_congr ?_)
    rw [if_pos (by simp [hstate, hvalid, hmoved])]
    rfl
  case calStart =>
    obtain ⟨hquiet, htxop, hdue, hcmd, hpend, hstate⟩ := h
    refine (if_pos (calMayStart_of hquiet htxop hdue)).trans ?_
    rw [calBegin_temp hcmd hpend hstate, calTemp_eq]
  case calStartRx =>
    obtain ⟨hquiet, htxop, hdue, hpend, hstate⟩ := h
    exact (if_pos (calMayStart_of hquiet htxop hdue)).trans (calBegin_rx hpend hstate)
  case calForced =>
    obtain ⟨hquiet, hcmd, hpend, hold, hstate⟩ := h
    exact calForced_old hquiet hcmd hpend hold hstate
  case switch =>
    obtain ⟨hreq, hex, hcal, htrans, hsw, hat, hstate, hbf, htxop, hfem, hseg, hforce, hvalid⟩ := h
    exact channelSwitch_free hreq hex hcal htrans hsw hat hstate hbf htxop hfem hseg hforce hvalid
  case research =>
    obtain ⟨hout, hsearch, hjudge, hst, hdue⟩ := h
    exact derateResearch_due ⟨hout, hsearch, hjudge, hst⟩ hdue
  case researchBusy =>
    obtain ⟨hout, hsearch, hjudge, hst, hdue, hbusy⟩ := h
    refine (derateResearch_due ⟨hout, hsearch, hjudge, hst⟩ hdue).trans (startDue_busy ?_)
    rwa [withChain_proj RadioFe.tx fun _ _ => rfl]
  case researchEarly => exact if_pos (.inr (.inr (.inr (.inr h))))

end Sys2Proof.Machine
end

section
/-!
SUPPORT. The coexistence grant.
-/
namespace Sys2Proof.Machine
open Sys2Proof

/-! The coexistence grant. -/

theorem coexUpdate_fe (r : Nat) (s : State) : (coexUpdate r s).fe = (grantUpdate r s).fe := rfl

theorem coexUpdate_coex (r : Nat) (s : State) : (coexUpdate r s).coex = (grantUpdate r s).coex := rfl

/-- The grant neither rises nor stays away: it is given as it stood, or falls. -/
theorem grantUpdate_level {r : Nat} {s : State} (h : gntNow r s = false ∨ (vget s.fe r).gnt = true) :
    grantUpdate r s = withFe r (fun e => { e with gnt := gntNow r s }) s := by
  refine if_neg ?_
  obtain h | h := h <;> simp [h]

/-- The grant rises: it is counted. -/
def granted (r : Nat) (s : State) : State :=
  feCount r 8 (withFe r (fun e => { e with gnt := true }) { s with coex := { s.coex with grants := vmod s.coex.grants r sat32 } })

/-- The PPDU on the air ends with the rise. -/
def txEnded (r : Nat) (x : TxCur) (s : State) : State := feCount r 9 (withFe r (fun e => { e with tx := some { x with aborted := true } }) s)

theorem grantUpdate_rise {r : Nat} {s : State} (h : gntNow r s = true) (hold : (vget s.fe r).gnt = false) :
    grantUpdate r s = match (vget s.fe r).tx with
      | some x => if kindProtected x.kind || x.aborted then granted r s
        else txEnded r x (granted r s)
      | none => granted r s := (if_pos (by simp [h, hold])).trans rfl

theorem feCount_get {r : Nat} (hr : r < 3) (i k : Nat) (s : State) :
    vget (feCount r i s).fe k = if k = r then { vget s.fe r with ctr := vadd (vget s.fe r).ctr i 1 } else vget s.fe k := by
  split
  · next h => rw [h, feCount, withFe_get hr]
  · next h => exact vget_vmod_other _ _ h

theorem granted_get {r : Nat} (hr : r < 3) (s : State) :
    vget (granted r s).fe r = { vget s.fe r with gnt := true, ctr := vadd (vget s.fe r).ctr 8 1 } := by
  rw [granted, feCount_get hr, if_pos rfl, withFe_get hr]

theorem granted_grants (r : Nat) (s : State) : (granted r s).coex.grants = vmod s.coex.grants r sat32 := rfl

theorem granted_gnt {r : Nat} (hr : r < 3) (s : State) : (vget (granted r s).fe r).gnt = true := by rw [granted_get hr]

theorem granted_tx {r : Nat} (hr : r < 3) (s : State) : (vget (granted r s).fe r).tx = (vget s.fe r).tx := by rw [granted_get hr]

theorem txEnded_get {r : Nat} (hr : r < 3) (x : TxCur) (s : State) : vget (txEnded r x s).fe r =
    { vget s.fe r with tx := some { x with aborted := true }, ctr := vadd (vget s.fe r).ctr 9 1 } := by
  rw [txEnded, feCount_get hr, if_pos rfl, withFe_get hr]

theorem txEnded_coex (r : Nat) (x : TxCur) (s : State) : (txEnded r x s).coex = s.coex := rfl

/-- On a rise the grant stands, the count is one more, and a PPDU of class 2 ends (R105). -/
theorem grantUpdate_rises {r : Nat} (hr : r < 3) {s : State} (h : gntNow r s = true) (hold : (vget s.fe r).gnt = false) :
    (vget (grantUpdate r s).fe r).gnt = true ∧ (grantUpdate r s).coex.grants = vmod s.coex.grants r sat32 ∧
      ∀ x, (vget s.fe r).tx = some x → (vget (grantUpdate r s).fe r).tx =
        some (if kindProtected x.kind = false then { x with aborted := true } else x) := by
  rw [grantUpdate_rise h hold]
  cases htx : (vget s.fe r).tx with
  | none =>
    exact ⟨granted_gnt hr s, granted_grants r s, fun _ h => absurd h (by simp)⟩
  | some x =>
    dsimp only
    by_cases hkeep : (kindProtected x.kind || x.aborted) = true
    · rw [if_pos hkeep, granted_tx hr, htx]
      refine ⟨granted_gnt hr s, granted_grants r s, fun y hy => ?_⟩
      cases hy
      by_cases hkind : kindProtected x.kind = false
      · have habort : x.aborted = true := by simpa [hkind] using hkeep
        rw [if_pos hkind, ← habort]
      · rw [if_neg hkind]
    · have hkind : kindProtected x.kind = false := by
        simp only [Bool.or_eq_true, not_or, Bool.not_eq_true] at hkeep
        exact hkeep.1
      rw [if_neg hkeep, txEnded_get hr, txEnded_coex]
      refine ⟨granted_gnt hr s, granted_grants r s, fun y hy => ?_⟩
      cases hy
      rw [if_pos hkind]

theorem gntNow_iff (n : Nat) (s : State) : gntNow n s = true ↔
    s.coex.ctrl.getLsbD n = true ∧ (vget s.fe n).req = true ∧
      s.coex.policy.getLsbD (8 * n + ((if (vget s.fe n).pri then 4 else 0) + radioClass n s)) = true ∧ (vget s.fe n).hold = false := by
  simp only [gntNow, coexEn, coexPolicy, Bool.and_eq_true, Bool.not_eq_true', Nat.add_assoc, and_assoc]

/-- Settles O27: a grant rises, or it is given as it stands. -/
theorem coexistenceGrant : Obligations.CoexistenceGrant := by
  unfold Obligations.CoexistenceGrant
  refine ⟨fun n s => ?_, fun n s h hold => ?_, fun n s h => ?_, gntNow_iff⟩
  · rw [coexUpdate_fe]
    by_cases hrise : gntNow n s = true ∧ (vget s.fe n).gnt = false
    · rw [(grantUpdate_rises n.isLt hrise.1 hrise.2).1, hrise.1]
    · rw [grantUpdate_level (by simpa [Classical.or_iff_not_imp_left] using hrise), withFe_get n.isLt]
  · obtain ⟨-, hgrants, htx⟩ := grantUpdate_rises n.isLt h hold
    exact ⟨hgrants, htx⟩
  · rw [coexUpdate_coex, coexUpdate_fe, grantUpdate_level h, withFe_get n.isLt]
    exact ⟨rfl, rfl⟩

end Sys2Proof.Machine
end

section
/-!
SUPPORT. The supply request and the Headland.
-/
namespace Sys2Proof.Machine
open Sys2Proof

/-! The supply request. -/

theorem withHl_get {r : Nat} (hr : r < 3) (f : RadioHl → RadioHl) (s : State) : vget (withHl r f s).hl r = f (vget s.hl r) :=
  vget_vmod_same s.hl r f hr

theorem withHl_congr {r : Nat} {f g : RadioHl → RadioHl} {s : State} (h : f (vget s.hl r) = g (vget s.hl r)) : withHl r f s = withHl r g s :=
  congrArg (fun v => { s with hl := v }) (vmod_congr h)

theorem avsRequest_running {s : State} (h : s.glb.avsPause = false) :
    avsRequest s = emit (.avs (min 880 (s.power.canaryMv + s.power.hlOffset))) (withPower (fun p => { p with
      request := min 880 (s.power.canaryMv + s.power.hlOffset), writePend := true, writeAt := s.now }) s) := if_neg (by simp [planRequest, h])

theorem avsRequest_paused {s : State} (h : s.glb.avsPause = true) :
    avsRequest s = withPower (fun p => { p with request := min 880 (s.power.canaryMv + s.power.hlOffset) }) s := if_pos h

theorem avsFault_late {s : State} (hpend : s.power.writePend = true) (hlate : s.power.writeAt + 500000 ≤ s.now) :
    avsFault s =
      let t := withPower (fun p => { p with writePend := false, pauseAt := s.power.writeAt + 500000 })
        (withGlb (fun g => { g with avsFault := true, avsPause := true }) s)
      if s.glb.avsFault then t else raise .avsFault 0 [] t := if_neg (by simp [hpend, hlate])

theorem avsFault_early {s : State} (h : s.power.writePend = false ∨ s.now < s.power.writeAt + 500000) : avsFault s = s := by
  refine if_pos ?_
  obtain h | h := h <;> simp [h]

theorem periodDue_of {last : Option Nat} {period now : Nat} (h : ∀ t, last = some t → t + period ≤ now) : periodDue last period now = true := by
  cases last with
  | none => rfl
  | some t => exact decide_eq_true (h t rfl)

/-! The Headland. -/

theorem p1Above_iff (p : Option Nat) : p1Above p = true ↔ ∃ v, p = some v ∧ 3000 < v := by
  cases p <;> simp [p1Above]

/-- When the 30 s of R28 count again after an evaluation. -/
theorem goodAt_evaluated (old new : Option Nat) (goodAt now : Nat) :
    (if old.isNone || p1Above old && p1Above new then goodAt else now) =
      match old, new with
      | none, _ => goodAt
      | some a, some b => if 3000 < a ∧ 3000 < b then goodAt else now
      | some _, none => now := by
  cases old with
  | none => rfl
  | some a =>
    cases new with
    | none => simp [p1Above]
    | some b => simp [p1Above]

theorem hlEvaluate_again {r : Nat} (hr : r < 3) {s : State} (h : (vget s.hl r).evals ≠ 0) :
    hlEvaluate r s = hlTrigger r (p1Of (vget s.hl r).slacks) false (evalP1 r s) := by
  refine (if_neg h).trans ?_
  have hp1 : (vget (evalP1 r s).hl r).p1 = p1Of (vget s.hl r).slacks := by rw [evalP1, withHl_get hr]
  dsimp only
  rw [hp1]

theorem hlClear_iff (s : State) (r : Nat) : hlClear s r = true ↔ 1024 ≤ (vget s.hl r).baLimit ∧ userTop r ≤ (vget s.hl r).userLimit := by
  simp [hlClear]

theorem p1Good_of {s : State} {r : Nat} (hp1 : ∃ p, (vget s.hl r).p1 = some p ∧ 3000 < p) (hlong : (vget s.hl r).goodAt + 15000000000 ≤ s.now) :
    p1Good s r = true := by
  simp [p1Good, goodLong, (p1Above_iff _).mpr hp1, hlong]

/-- Step 3 of the radio is undone first. -/
theorem hlUndo_users {r : Nat} {s : State} (hgood : p1Good s r = true) (hlow : (vget s.hl r).userLimit < userTop r) :
    hlUndo r s = raiseStep r 3 1 (userPrev r (vget s.hl r).userLimit) 0xFF
      (withHl r (fun h => { h with userLimit := userPrev r (vget s.hl r).userLimit, goodAt := s.now }) s) := by
  have hclear : hlClear s r = false := Bool.eq_false_iff.mpr fun h => absurd ((hlClear_iff s r).mp h).2 (by omega)
  simp only [hlUndo, hclear, hgood, if_pos hlow, Bool.not_false, Bool.not_true, Bool.false_eq_true, if_true, if_false]
  exact congrArg (raiseStep r 3 1 _ 0xFF) (withHl_congr rfl)

/-- Then step 2. -/
theorem hlUndo_ba {r : Nat} {s : State} (hgood : p1Good s r = true) (hlow : userTop r ≤ (vget s.hl r).userLimit)
    (hba : (vget s.hl r).baLimit < 1024) :
    hlUndo r s = raiseStep r 2 1 (baPrev (vget s.hl r).baLimit) 0xFF
      (withHl r (fun h => { h with baLimit := baPrev (vget s.hl r).baLimit, goodAt := s.now }) s) := by
  have hclear : hlClear s r = false := Bool.eq_false_iff.mpr fun h => absurd ((hlClear_iff s r).mp h).1 (by omega)
  simp only [hlUndo, hclear, hgood, if_neg (Nat.not_lt.mpr hlow), Bool.not_false, Bool.not_true, Bool.false_eq_true, if_true, if_false]
  exact congrArg (raiseStep r 2 1 _ 0xFF) (withHl_congr rfl)

/-- The last undo is of step 1, for all radios. -/
theorem hlUndo_offset {r : Nat} {s : State} (hclear : hlClear s r = true) (hoff : 0 < s.power.hlOffset) (hpause : s.glb.avsPause = false)
    (hall : ∀ q < 3, p1Good1 s q = true ∧ hlClear s q = true) :
    hlUndo r s = raiseStep 3 1 1 (s.power.hlOffset - 5) 0xFF
      (emit (.avs (min 880 (s.power.canaryMv + (s.power.hlOffset - 5)))) (withPower (fun p => { p with
        hlOffset := s.power.hlOffset - 5, request := min 880 (s.power.canaryMv + (s.power.hlOffset - 5)), writePend := true, writeAt := s.now })
        { s with hl := s.hl.map fun h => { h with goodAt := s.now } })) := by
  have hgo : s.power.hlOffset > 0 ∧ ((List.range 3).all fun q => p1Good1 s q && hlClear s q) = true := by
    refine ⟨hoff, List.all_eq_true.mpr fun q hq => ?_⟩
    obtain ⟨hgood, hq⟩ := hall q (List.mem_range.mp hq)
    rw [hgood, hq]
    rfl
  simp only [hlUndo, hclear, if_pos hgo, Bool.not_true, Bool.false_eq_true, if_false]
  exact congrArg (raiseStep 3 1 1 _ 0xFF) (avsRequest_running hpause)

theorem p1Good_early {s : State} {r : Nat} (h : s.now < (vget s.hl r).goodAt + 15000000000) : p1Good s r = false := by
  have hlong : goodLong s r = false := decide_eq_false (Nat.not_le.mpr h)
  rw [p1Good, hlong, Bool.and_false]

theorem p1Good1_early {s : State} {r : Nat} (h : s.now < (vget s.hl r).goodAt + 15000000000) : p1Good1 s r = false := by
  have hlong : goodLong s r = false := decide_eq_false (Nat.not_le.mpr h)
  rw [p1Good1, hlong, Bool.and_false]

theorem p1Good1_of {s : State} {r : Nat} (hp1 : (vget s.hl r).p1 = none ∨ ∃ p, (vget s.hl r).p1 = some p ∧ 3000 < p)
    (hlong : (vget s.hl r).goodAt + 15000000000 ≤ s.now) : p1Good1 s r = true := by
  have hgood : goodLong s r = true := decide_eq_true hlong
  rw [p1Good1, hgood, Bool.and_true]
  obtain hp1 | hp1 := hp1
  · rw [hp1]; rfl
  · rw [(p1Above_iff _).mpr hp1, Bool.or_true]

/-- Before the 30 s are over nothing is undone (R28). -/
theorem hlUndo_early {r : Nat} (hr : r < 3) {s : State} (h : s.now < (vget s.hl r).goodAt + 15000000000) : hlUndo r s = s := by
  have hall : ¬ (s.power.hlOffset > 0 ∧ ((List.range 3).all fun q => p1Good1 s q && hlClear s q) = true) := fun hgo => by
    have hq := List.all_eq_true.mp hgo.2 r (List.mem_range.mpr hr)
    rw [p1Good1_early h] at hq
    exact absurd hq (by simp)
  unfold hlUndo
  dsimp only
  rw [p1Good_early h, if_neg hall]
  exact ite_self s

/-- Settles O28: one equation per event and case. -/
theorem headlandEventsTakeEffect : Obligations.HeadlandEventsTakeEffect := by
  unfold Obligations.HeadlandEventsTakeEffect
  refine ⟨fun c => builminDoes (fun _ => rfl) fun s h => ?replan, fun c => builminDoes (fun _ => rfl) fun s h => ?replanPaused,
    ⟨does (fun _ => rfl) fun s h => ?fault, does (fun _ => rfl) fun s h => ?faultAgain, does (fun _ => rfl) fun s h => avsFault_early h⟩,
    does (fun _ => rfl) fun s h => if_neg (Nat.not_lt.mpr h), does (fun _ => rfl) fun s h => if_pos h,
    fun v => does (fun _ => rfl) fun s h => if_neg (by simp [h]), fun d => does (fun _ => rfl) fun s h => if_neg (by simp [periodDue_of h]),
    fun r => ⟨does (fun _ => rfl) fun s h => ?evaluate, does (fun _ => rfl) fun s h => if_pos h,
      does (fun _ => rfl) fun s h => ?undoUsers, does (fun _ => rfl) fun s h => ?undoBa, does (fun _ => rfl) fun s h => ?undoBaTop,
      does (fun _ => rfl) fun s h => ?undoOffset, does (fun _ => rfl) fun s h => hlUndo_early (rnum_lt r) h⟩⟩
  case replan => exact avsRequest_running (s := withPower _ s) h
  case replanPaused => exact avsRequest_paused (s := withPower _ s) h
  case fault =>
    obtain ⟨⟨hpend, hlate⟩, hnew⟩ := h
    rw [avsFault_late hpend hlate]
    exact if_neg (by simp [hnew])
  case faultAgain =>
    obtain ⟨⟨hpend, hlate⟩, hold⟩ := h
    rw [avsFault_late hpend hlate]
    exact if_pos hold
  case evaluate =>
    rw [hlEvaluate_again (rnum_lt r) h]
    refine congrArg (hlTrigger (rnum r) _ false) (withHl_congr ?_)
    rw [goodAt_evaluated] <;> rfl
  case undoUsers =>
    obtain ⟨⟨hp1, hlong⟩, hlow⟩ := h
    exact hlUndo_users (p1Good_of hp1 hlong) hlow
  case undoBa =>
    obtain ⟨⟨hp1, hlong⟩, hlow, hba⟩ := h
    have hprev : baPrev (vget s.hl (rnum r)).baLimit = 256 := if_pos hba
    rw [hlUndo_ba (p1Good_of hp1 hlong) hlow (by omega), hprev]
    rfl
  case undoBaTop =>
    obtain ⟨⟨hp1, hlong⟩, hlow, hmin, hba⟩ := h
    have hprev : baPrev (vget s.hl (rnum r)).baLimit = 1024 := if_neg (by omega)
    rw [hlUndo_ba (p1Good_of hp1 hlong) hlow hba, hprev]
    rfl
  case undoOffset =>
    obtain ⟨hclear, hoff, hpause, hall⟩ := h
    refine hlUndo_offset hclear hoff hpause fun q hq => ?_
    obtain ⟨hqclear, hp1, hlong⟩ := hall q hq
    exact ⟨p1Good1_of hp1 hlong, hqclear⟩

end Sys2Proof.Machine
end

section
/-!
SUPPORT. The first percentile of the slacks.
-/
namespace Sys2Proof.Machine
open Sys2Proof

/-! The first percentile (R26). -/

theorem insertNat_perm (a : Nat) (l : List Nat) : (insertNat a l).Perm (a :: l) := by
  induction l with
  | nil => exact .refl _
  | cons b r ih =>
    unfold insertNat
    split
    · exact .refl _
    · exact (ih.cons b).trans (.swap a b r)

theorem insertNat_sorted (a : Nat) {l : List Nat} (h : l.Pairwise (· ≤ ·)) : (insertNat a l).Pairwise (· ≤ ·) := by
  induction l with
  | nil => exact List.pairwise_singleton _ a
  | cons b r ih =>
    obtain ⟨hb, hr⟩ := List.pairwise_cons.mp h
    unfold insertNat
    split
    · next hab =>
      refine List.pairwise_cons.mpr ⟨fun x hx => ?_, h⟩
      obtain rfl | hx := List.mem_cons.mp hx
      · exact hab
      · exact Nat.le_trans hab (hb x hx)
    · next hab =>
      refine List.pairwise_cons.mpr ⟨fun x hx => ?_, ih hr⟩
      obtain rfl | hx := List.mem_cons.mp ((insertNat_perm a r).mem_iff.mp hx)
      · exact Nat.le_of_lt (Nat.not_le.mp hab)
      · exact hb x hx

theorem sortNat_perm (l : List Nat) : (sortNat l).Perm l := by
  induction l with
  | nil => exact .refl _
  | cons a r ih => exact (insertNat_perm a _).trans (ih.cons a)

theorem sortNat_sorted (l : List Nat) : (sortNat l).Pairwise (· ≤ ·) := by
  induction l with
  | nil => exact .nil
  | cons a r ih => exact insertNat_sorted a ih

/-- In a rising list fewer than `k` elements are below the k-th, and at least `k` are not above it. -/
theorem sorted_rank {m : List Nat} (hm : m.Pairwise (· ≤ ·)) {k : Nat} (hk : k < m.length) :
    (m.filter fun x => x < m[k]).length ≤ k ∧ k < (m.filter fun x => x ≤ m[k]).length := by
  have hle : ∀ i j (hi : i < m.length) (hj : j < m.length), i ≤ j → m[i] ≤ m[j] := fun i j hi hj hij => by
    obtain rfl | hlt := Nat.eq_or_lt_of_le hij
    · exact Nat.le_refl _
    · exact List.pairwise_iff_getElem.mp hm i j hi hj hlt
  constructor
  · have hhigh : (m.drop k).filter (fun x => x < m[k]) = [] := by
      refine List.filter_eq_nil_iff.mpr fun x hx => ?_
      obtain ⟨i, hi, rfl⟩ := List.mem_iff_getElem.mp hx
      have := hle k (k + i) hk (by simp at hi; omega) (by omega)
      simpa using this
    calc (m.filter fun x => x < m[k]).length
        = (((m.take k) ++ (m.drop k)).filter fun x => x < m[k]).length := by rw [List.take_append_drop]
      _ = ((m.take k).filter fun x => x < m[k]).length := by rw [List.filter_append, hhigh, List.append_nil]
      _ ≤ (m.take k).length := List.length_filter_le _ _
      _ ≤ k := List.length_take_le k m
  · have hlow : (m.take (k + 1)).filter (fun x => x ≤ m[k]) = m.take (k + 1) := by
      refine List.filter_eq_self.mpr fun x hx => ?_
      obtain ⟨i, hi, rfl⟩ := List.mem_iff_getElem.mp hx
      rw [List.length_take] at hi
      rw [List.getElem_take]
      exact decide_eq_true (hle i k (by omega) hk (by omega))
    calc k < (m.take (k + 1)).length := by rw [List.length_take]; omega
      _ = ((m.take (k + 1)).filter fun x => x ≤ m[k]).length := by rw [hlow]
      _ ≤ (((m.take (k + 1)) ++ (m.drop (k + 1))).filter fun x => x ≤ m[k]).length := by
        rw [List.filter_append, List.length_append]
        exact Nat.le_add_right _ _
      _ = (m.filter fun x => x ≤ m[k]).length := by rw [List.take_append_drop]

/-- The rank of P1 lies within the slacks held. -/
theorem p1Rank_bounds {n : Nat} (h : 0 < n) : 0 < ceilDiv (41 * n) 4096 ∧ ceilDiv (41 * n) 4096 ≤ n := by
  unfold ceilDiv
  omega

/-- Settles O29: P1 is the slack at its rank in the sorted list. -/
theorem firstPercentile : Obligations.FirstPercentile := by
  unfold Obligations.FirstPercentile
  refine ⟨fun l hpos _ => ?_, rfl⟩
  obtain ⟨hmin, hmax⟩ := p1Rank_bounds hpos
  have hperm := sortNat_perm l
  have hk : ceilDiv (41 * l.length) 4096 - 1 < (sortNat l).length := by rw [hperm.length_eq]; omega
  have hp1 : p1Of l = some (sortNat l)[ceilDiv (41 * l.length) 4096 - 1] := by
    refine (if_neg ?_).trans (List.getElem?_eq_getElem hk)
    rw [List.isEmpty_iff]
    exact List.ne_nil_of_length_pos hpos
  obtain ⟨hbelow, hupTo⟩ := sorted_rank (sortNat_sorted l) hk
  refine ⟨_, hp1, hperm.mem_iff.mp (List.getElem_mem hk), ?_, ?_⟩
  · rw [← (hperm.filter _).length_eq]
    omega
  · rw [← (hperm.filter _).length_eq]
    omega

end Sys2Proof.Machine
end

section
/-!
SUPPORT. Detection, validation, restart and decoding.
-/
namespace Sys2Proof.Machine
open Sys2Proof

/-! A radio's PHY. -/

theorem vmod_id {α : Type} [Inhabited α] {n : Nat} (v : Vector α n) (i : Nat) {f : α → α} (h : f (vget v i) = vget v i) : vmod v i f = v := by
  ext k hk
  by_cases hi : k = i
  · subst hi
    simpa [vmod, vset, vget, hk] using h
  · simp [vmod, vset, Ne.symm hi]

theorem vadd_zero {n : Nat} (v : Vector Nat n) (i : Nat) : vadd v i 0 = v := vmod_id v i rfl

theorem withPhy_get {r : Nat} (hr : r < 3) (f : RadioPhy → RadioPhy) (s : State) : vget (withPhy r f s).phy r = f (vget s.phy r) :=
  vget_vmod_same s.phy r f hr

theorem withPhy_withPhy (r : Nat) (f g : RadioPhy → RadioPhy) (s : State) : withPhy r g (withPhy r f s) = withPhy r (fun p => g (f p)) s :=
  congrArg (fun v => { s with phy := v }) (vmod_vmod s.phy r f g)

theorem withPhy_congr {r : Nat} {f g : RadioPhy → RadioPhy} {s : State} (h : f (vget s.phy r) = g (vget s.phy r)) :
    withPhy r f s = withPhy r g s := congrArg (fun v => { s with phy := v }) (vmod_congr h)

theorem phyCount_zero (r i : Nat) (s : State) : phyCount r i 0 s = s := by
  have hsame : withPhy r (fun p => { p with ctr := vadd p.ctr i 0 }) s = s :=
    congrArg (fun v => { s with phy := v }) (vmod_id s.phy r (by rw [vadd_zero]))
  exact hsame

/-! Detection and restart. -/

theorem preambleDetect_ofdm {r : Nat} {pw : Int} {levels : List Int} {s : State} (hsearch : searching r s = true)
    (hpd : 2 * (vget s.phy r).pdThresh ≤ pw - (vget s.phy r).femRxGain) :
    preambleDetect r pw levels false s = coexUpdate r (phyCount r 0 1 (beginRx r pw levels false s)) :=
  if_neg (by
    have hstrong : decide (atAntenna (vget s.phy r).femRxGain pw < 2 * (vget s.phy r).pdThresh) = false :=
      decide_eq_false (Int.not_lt.mpr hpd)
    rw [hsearch, hstrong]
    simp)

theorem preambleDetect_none {r : Nat} {pw : Int} {levels : List Int} {d : Bool} {s : State}
    (h : searching r s = false ∨ pw - (vget s.phy r).femRxGain < 2 * (vget s.phy r).pdThresh) : preambleDetect r pw levels d s = s := by
  refine if_pos ?_
  obtain h | h := h
  · simp [h]
  · simp [atAntenna, h]

theorem searchResume_failed {r : Nat} {x : RxCur} {s : State} (hrx : (vget s.phy r).rx = some x) (hfailed : x.failed = true) :
    searchResume r s = coexUpdate r (withPhy r (fun p => { p with rx := none }) s) := by
  simp only [searchResume, hrx, if_pos hfailed]

/-- A later preamble is strong enough for the reception to restart on it (R123, R124). -/
def restarts (x : RxCur) (pw : Int) : Bool :=
  if x.valid then x.capture && decide (pw - x.femGain - x.refPow ≥ 20) else decide (pw - x.femGain - x.refPow ≥ 12)

theorem restartDecision_eq {r : Nat} {x : RxCur} {pw : Int} {levels : List Int} {us : List UserMeas} {s : State}
    (hrx : (vget s.phy r).rx = some x) :
    restartDecision r pw levels us s = if !restarts x pw then s
      else coexUpdate r (beginRx r pw levels false (rxAbandoned r (x.got.foldl (mpduGood r x)
        (phyCount r (if x.valid then 3 else 2) 1 (writeReports r x true us s))))) := by
  simp only [restartDecision, hrx] <;> rfl

theorem restarts_of {x : RxCur} {pw : Int}
    (h : x.valid = false ∧ 12 ≤ pw - x.femGain - x.refPow ∨ x.valid = true ∧ x.capture = true ∧ 20 ≤ pw - x.femGain - x.refPow) :
    restarts x pw = true := by
  obtain ⟨hvalid, hrise⟩ | ⟨hvalid, hcap, hrise⟩ := h
  · simp [restarts, hvalid, hrise]
  · simp [restarts, hvalid, hcap, hrise]

theorem not_restarts_of {x : RxCur} {pw : Int} (h : x.valid = false ∧ pw - x.femGain - x.refPow < 12 ∨
    x.valid = true ∧ (x.capture = false ∨ pw - x.femGain - x.refPow < 20)) : restarts x pw = false := by
  obtain ⟨hvalid, hrise⟩ | ⟨hvalid, hcap | hrise⟩ := h
  · simp [restarts, hvalid, hrise]
  · simp [restarts, hvalid, hcap]
  · simp [restarts, hvalid, hrise]

/-! LDPC decoding. -/

/-- The cap of R127: it drops above 64 waiting codewords and stays until there are fewer than 16. -/
theorem ldpcCut_eq (k : Nat) (cut : Bool) :
    (if k > 64 then true else if k < 16 then false else cut) = (decide (64 < k) || (cut && decide (16 ≤ k))) := by
  by_cases hmany : 64 < k
  · simp [hmany]
  · by_cases hfew : k < 16
    · simp [hmany, hfew]
    · simp [hmany, hfew, Nat.le_of_not_lt hfew]

theorem ldpcDecode_eq (r : Nat) (w : LdpcWord) (k : Nat) (s : State) :
    ldpcDecode r w k s = withPhy r (fun p =>
      let cut := decide (64 < k) || (p.ldpcCut && decide (16 ≤ k))
      let iter := match p.rx with | some x => x.ldpcMax | none => match p.tail with | some x => x.ldpcMax | none => p.ldpcMax
      { p with ldpcCut := cut, ctr := vadd (vadd (vadd p.ctr 17 (if cut then 1 else 0)) 16 (if ldpcMet (if cut then 4 else iter) w then 0 else 1)) 15 1 }) s := by
  unfold ldpcDecode phyCount
  simp only [ldpcCut_eq, withPhy_withPhy]
  refine withPhy_congr ?_
  cases (vget s.phy r).rx with
  | some x => rfl
  | none => cases (vget s.phy r).tail <;> rfl

/-! Validation. -/

theorem sigValidate_failed {r : Nat} {g : SigInfo} {x : RxCur} {s : State} (hrx : (vget s.phy r).rx = some x) (hvalid : x.valid = false)
    (hfailed : x.failed = false) (hpass : sigPass g = false) :
    sigValidate r g s =
      withPhy r (fun p => { p with ctr := vadd p.ctr 1 1, rx := some { x with failed := true, gains := [] } }) s := by
  have hrun : sigValidate r g s = phyCount r 1 1 (withRx r (fun x => { x with failed := true, gains := [] }) s) := by
    simp only [sigValidate, hrx, hvalid, hfailed, hpass, Bool.or_self, Bool.not_false, Bool.false_eq_true, if_false, if_true]
  rw [hrun, phyCount, withRx, withPhy_withPhy]
  exact withPhy_congr (by rw [hrx]; rfl)

/-- A PPDU the radio supports in every respect (R114 to R117). -/
structure Supported (r : Nat) (g : SigInfo) (s : State) : Prop where
  primary : g.primary = true
  excluded : g.excluded = false
  late : g.late = false
  carried : formatCarried r (vget s.fe r) g.fmt g.bw = true
  ndp : g.fmt = 3 → g.htLength ≠ 0
  format : bit (vget s.phy r).formats g.fmt = true
  users : ∀ u ∈ g.users, ruStreams g.users u ≤ liveChains r s ∧ (9 ≤ g.fmt → u.mcs < 14)

theorem sigValidate_supported {r : Nat} {g : SigInfo} {x : RxCur} {s : State} (hrx : (vget s.phy r).rx = some x) (hvalid : x.valid = false)
    (hfailed : x.failed = false) (hpass : sigPass g = true) (h : Supported r g s) :
    sigValidate r g s = withPhy r (fun p => { p with
      ctr := vadd p.ctr 4 1
      rx := some { x with
        valid := true, fmt := g.fmt, bw := g.bw, skip := false, unsup := false, fmtOff := false, late := false, users := g.users
        endAt := s.now + g.endNs / 2 } }) s := by
  have hunsup : sigUnsup r g (vget s.fe r) = false := by
    have hndp : (g.fmt == 3 && g.htLength == 0) = false := by simpa using h.ndp
    rw [sigUnsup, h.primary, h.excluded, h.carried, hndp]
    rfl
  have hbeyond : (g.users.any fun u => decide (ruStreams g.users u > liveChains r s)) = false :=
    List.any_eq_false.mpr fun u hu => by simpa using (h.users u hu).1
  have hmcs : g.users.filter (mcsUnsup g.fmt) = [] := by
    refine List.filter_eq_nil_iff.mpr fun u hu => ?_
    have := (h.users u hu).2
    simpa [mcsUnsup] using this
  have hrun : sigValidate r g s = phyCount r 4 1 (withRx r (fun x => { x with
      valid := true, fmt := g.fmt, bw := g.bw, skip := false, unsup := false, fmtOff := false, late := false, users := g.users
      endAt := s.now + g.endNs / 2 }) s) := by
    simp only [sigValidate, hrx, hvalid, hfailed, hpass, hunsup, h.format, h.late, hbeyond, hmcs, Bool.or_self, Bool.not_true, Bool.not_false,
      Bool.and_self, Bool.and_false, Bool.false_eq_true, if_false, if_true, List.length_nil, Nat.add_zero, phyCount_zero]
  rw [hrun, phyCount, withRx, withPhy_withPhy]
  exact withPhy_congr (by rw [hrx]; rfl)

theorem lateReports_none {r : Nat} {x : RxCur} {s : State} (hrx : (vget s.phy r).rx = some x) (hlate : x.late = false) : lateReports r s = s := by
  simp only [lateReports, hrx, hlate, Bool.false_eq_true, if_false]

/-- Validation of a fresh reception that spatial reuse leaves alone. -/
theorem sigStep_fresh {r : Nat} {g : SigInfo} {x y : RxCur} {s : State} (hrx : (vget s.phy r).rx = some x) (hvalid : x.valid = false)
    (hfailed : x.failed = false) (hy : (vget (sigValidate r g s).phy r).rx = some y) (hlate : y.late = false)
    (hreuse : y.valid = false ∨ g.obss = none) : sigStep r g s = sigValidate r g s := by
  have hno : reuses r g y (sigValidate r g s) = false := by
    obtain h | h := hreuse
    · cases hobss : g.obss <;> simp [reuses, h, hobss]
    · simp [reuses, h]
  simp only [sigStep, hrx, hvalid, hfailed, Bool.not_false, Bool.and_self, if_true, lateReports_none hy hlate, hy, hno, Bool.and_false,
    Bool.false_eq_true, if_false]

/-- Settles O30: one equation per event and case. -/
theorem phyEventsTakeEffect : Obligations.PhyEventsTakeEffect := by
  unfold Obligations.PhyEventsTakeEffect
  intro r n
  have hn : n < 3 := rnum_lt r
  refine ⟨fun pw levels => does (fun _ => rfl) fun s h => ?detect, fun pw levels d => does (fun _ => rfl) fun s h => preambleDetect_none h,
    fun pw levels => does (fun _ => rfl) fun s h => if_pos (by simp [n, h]), fun x => does (fun _ => rfl) fun s h => searchResume_failed h.1 h.2,
    fun x pw levels us => does (fun _ => rfl) fun s h => ?restart, fun x pw levels us => does (fun _ => rfl) fun s h => ?noRestart,
    fun w k => does (fun _ => rfl) fun s _ => ldpcDecode_eq n w k s, fun g x => does (fun _ => rfl) fun s h => ?sigFailed,
    fun g x => does (fun _ => rfl) fun s h => ?sigValid⟩
  case detect =>
    rw [preambleDetect_ofdm h.1 h.2, phyCount, beginRx, withPhy_withPhy]
    rfl
  case restart => rw [restartDecision_eq h.1, restarts_of h.2]; rfl
  case noRestart => rw [restartDecision_eq h.1, not_restarts_of h.2]; rfl
  case sigFailed =>
    obtain ⟨hrx, hvalid, hfailed, hlate, hpass⟩ := h
    have hsig := sigValidate_failed hrx hvalid hfailed hpass
    have hy : (vget (sigValidate n g s).phy n).rx = some { x with failed := true, gains := [] } := by rw [hsig, withPhy_get hn]
    rw [sigStep_fresh hrx hvalid hfailed hy hlate (.inl hvalid), hsig]
  case sigValid =>
    obtain ⟨hrx, hvalid, hfailed, hpass, hprim, hex, hlate, hcarried, hndp, hfmt, husers, hobss⟩ := h
    have hsig := sigValidate_supported hrx hvalid hfailed hpass ⟨hprim, hex, hlate, hcarried, hndp, hfmt, husers⟩
    have hy : (vget (sigValidate n g s).phy n).rx = some { x with
        valid := true, fmt := g.fmt, bw := g.bw, skip := false, unsup := false, fmtOff := false, late := false, users := g.users
        endAt := s.now + g.endNs / 2 } := by rw [hsig, withPhy_get hn]
    rw [sigStep_fresh hrx hvalid hfailed hy rfl (.inr hobss), hsig]

end Sys2Proof.Machine
end

section
/-!
SUPPORT. Answers to stations, target beacon times, service periods and the uplink.
-/
namespace Sys2Proof.Machine
open Sys2Proof

theorem byte_toNat (b : Byte) : byte b.toNat = b := BitVec.eq_of_toNat_eq (by simp [byte])

/-! Answers to stations. -/

/-- The window granted (R161): what is asked, within the policy and the Headland's limits of the station's links. -/
def baGrant (q size : Nat) (x : Sta) (s : State) : Nat :=
  min (min (if size = 0 then 1024 else size) ((kget s.mac.baPol q).getD (vget s.mac.baDef (q % 8))).max)
    (((List.range 3).filter (bit x.links)).foldl (fun m i => min m (vget s.hl i).baLimit) 1024)

theorem addba_sta {q size ssn : Nat} {dialog : Byte} {x : Sta} {s : State} (hsta : kget s.mac.sta (q / 8) = some x) :
    addba q dialog.toNat size ssn s =
      if !((kget s.mac.baPol q).getD (vget s.mac.baDef (q % 8))).accept || (s.mac.ba.length ≥ 4096 && !khas s.mac.ba q) then
        sendAction (q / 8) ([3, 1, dialog] ++ be 2 37 ++ be 2 (2 + 4 * (q % 8) + 64 * baGrant q size x s % 65536) ++ be 2 0)
          (macCount (staRadio x (q % 8)) 14 1 s)
      else
        sendAction (q / 8) ([3, 1, dialog] ++ be 2 0 ++ be 2 (2 + 4 * (q % 8) + 64 * baGrant q size x s % 65536) ++ be 2 0)
          (withMac (fun m => { m with ba := kset m.ba q {
            win := baGrant q size x s, start := ssn, timeout := ((kget s.mac.baPol q).getD (vget s.mac.baDef (q % 8))).timeout } }) s) := by
  simp only [addba, hsta, byte_toNat, baGrant]

theorem twtSetup_sta {n flow interval len : Nat} {target : BitVec 64} {dialog : Byte} {restricted : Bool} {x : Sta} {s : State}
    (hsta : kget s.mac.sta n = some x) :
    twtSetup n dialog.toNat flow interval len target.toNat restricted s =
      let b := linkBss x (staRadio x 0)
      let y := vget s.mac.bss b
      if (khas s.mac.twt (8 * n + flow) || (s.mac.twt.length < 2048 && (s.mac.twt.filter fun p => p.1 / 8 == n).length < 8)) &&
          (if restricted then y.twtRestr else y.twtInd) && y.twtMinWake ≤ interval && len ≤ y.twtMaxSp then
        sendAction n ([22, 6, dialog, 4, byte flow] ++ be 4 interval ++ be 4 len ++ be 8 target.toNat) (withMac (fun m => { m with
          twt := kset m.twt (8 * n + flow) { bss := b, interval := interval, len := len, restricted := restricted, next := target.toNat } }) s)
      else sendAction n ([22, 6, dialog, 7, byte flow] ++ be 4 interval ++ be 4 len ++ be 8 target.toNat) s := by
  simp only [twtSetup, hsta, byte_toNat] <;> rfl

/-! Target beacon transmission times. -/

theorem tbtt_at {b : Nat} {s : State} (hat : atTbtt b s = true) :
    tbtt b s =
      if !ownBeacons b (applyNext b s) || !atTbtt b (applyNext b s) then applyNext b s
      else if tbttServed b (applyNext b s) then
        { applyNext b s with time := { (applyNext b s).time with ctr := vadd (applyNext b s).time.ctr 9 1 } }
      else if beaconClear (bssRadio b) (beaconDue b (applyNext b s)) && !lowerFirst b (beaconDue b (applyNext b s)) then
        sendBeacon b (beaconDue b (applyNext b s))
      else beaconDue b (applyNext b s) := if_neg (by simp [hat])

theorem tbttServed_of {b t : Nat} {s : State} (hlast : (vget s.mac.bss b).lastTbtt = some t) (h : tsfOf b s ≤ t) : tbttServed b s = true := by
  simp [tbttServed, hlast, h]

/-! Service periods and the uplink. -/

theorem twtSpStart_due {q : Nat} {t : Twt} {x : Sta} {s : State} (htwt : kget s.mac.twt q = some t) (hsta : kget s.mac.sta (q / 8) = some x)
    (hdue : t.next ≤ tsfOf t.bss s) :
    twtSpStart q s = raiseSta (q / 8) s (macCount (bssRadio t.bss) (if t.len * 1000 ≤ 2 * guardNs x (vget s.mac.bss t.bss).drift s then 21 else 20) 1
      (withMac (fun m => { m with twt := kset m.twt q { t with next := t.next + t.interval } })
        (withSta (q / 8) (fun x' => { x' with
          sp := some { bss := t.bss, start := t.next, len := t.len, guard := guardNs x (vget s.mac.bss t.bss).drift s } }) s))) := by
  simp only [twtSpStart, htwt, hsta, if_neg (Nat.not_lt.mpr hdue)]

theorem twtSpStart_early {q : Nat} {t : Twt} {s : State} (htwt : kget s.mac.twt q = some t) (h : tsfOf t.bss s < t.next) : twtSpStart q s = s := by
  simp only [twtSpStart, htwt]
  cases kget s.mac.sta (q / 8) with
  | none => rfl
  | some x => exact if_pos h

theorem bcnDeferred_clear {r i : Nat} {s : State}
    (hdue : ((List.range 16).find? fun i => (vget s.mac.bss (16 * r + i)).bcnDue && ownBeacons (16 * r + i) s) = some i)
    (hclear : beaconClear r s = true) : bcnDeferred r s = macCount r 16 1 (sendBeacon (16 * r + i) s) := by
  simp only [bcnDeferred, hdue, if_pos hclear]

theorem bcnDeferred_busy {r : Nat} {s : State} (h : beaconClear r s = false) : bcnDeferred r s = s := by
  unfold bcnDeferred
  split
  · rw [h]; rfl
  · rfl

theorem uplWindowEnd_expect {r : Nat} {u : Uplink} {t : Nat} {s : State} (hup : (vget s.mac.radio r).uplink = some u)
    (hexpect : u.expect = some t) :
    uplWindowEnd r s =
      if u.lost || tsfNs u.bss s < upWindowEnd u t s then s
      else
        let missed := macCount r 22 1 (withRm r (fun m => { m with
          uplink := some { u with misses := u.misses + 1, expect := some (t + u.interval * 1024) } }) s)
        if u.misses + 1 < u.lossCount then missed
        else raise .beaconLost r (pad 6 u.bssid ++ [byte u.lossCount]) (unplaceSta u.sta (macCount r 23 1 (leaveFurrows u.sta 0xFF 3
          (dropUplink r u.sta (withRm r (fun m => { m with uplink := some { u with
            misses := u.misses + 1, expect := some (t + u.interval * 1024), lost := true } }) missed))))) := by
  simp only [uplWindowEnd, hup, hexpect]

/-- Settles O31: one equation per event and case. -/
theorem macEventsTakeEffect : Obligations.MacEventsTakeEffect := by
  unfold Obligations.MacEventsTakeEffect
  refine ⟨fun q dialog size ssn x => ⟨builminDoes (fun _ => rfl) fun s h => ?accept, builminDoes (fun _ => rfl) fun s h => ?refuse⟩,
    fun sta dialog flow interval len target restricted x =>
      ⟨builminDoes (fun _ => rfl) fun s h => ?twt, builminDoes (fun _ => rfl) fun s h => ?noTwt⟩,
    fun sta trans => builminDoes (fun _ => rfl) fun s h => if_pos h,
    fun b => ⟨does (fun _ => rfl) fun s h => if_pos (by simp [h]), does (fun _ => rfl) fun s h => ?tbttOther,
      does (fun _ => rfl) fun s h => ?tbttServed, does (fun _ => rfl) fun s h => ?tbttDue, does (fun _ => rfl) fun s h => ?tbttSent⟩,
    fun q t x => ⟨does (fun _ => rfl) fun s h => twtSpStart_due h.1 h.2.1 h.2.2, does (fun _ => rfl) fun s h => twtSpStart_early h.1 h.2⟩,
    fun r => ⟨fun i => does (fun _ => rfl) fun s h => bcnDeferred_clear h.1 h.2, does (fun _ => rfl) fun s h => bcnDeferred_busy h,
      fun u t => ⟨does (fun _ => rfl) fun s h => ?inWindow, does (fun _ => rfl) fun s h => ?missed, does (fun _ => rfl) fun s h => ?lost⟩⟩⟩
  case accept =>
    obtain ⟨hsta, haccept, hroom⟩ := h
    rw [addba_sta hsta, if_neg]
    · rfl
    · rw [haccept]
      obtain h | h := hroom
      · simp [Nat.not_le.mpr h]
      · simp [h]
  case refuse =>
    obtain ⟨hsta, hno⟩ := h
    rw [addba_sta hsta, if_pos]
    · rfl
    · obtain h | ⟨hfull, hnew⟩ := hno
      · simp [h]
      · simp [hfull, hnew]
  case twt =>
    obtain ⟨hsta, ⟨hkind, hwake, hlen⟩, hroom⟩ := h
    rw [twtSetup_sta hsta]
    refine if_pos ?_
    simp only [Bool.and_eq_true, Bool.or_eq_true, decide_eq_true_eq]
    exact ⟨⟨⟨hroom, hkind⟩, hwake⟩, hlen⟩
  case noTwt =>
    obtain ⟨hsta, hnot⟩ := h
    rw [twtSetup_sta hsta]
    refine if_neg fun hok => hnot ?_
    simp only [Bool.and_eq_true, decide_eq_true_eq] at hok
    exact ⟨hok.1.1.2, hok.1.2, hok.2⟩
  case tbttOther =>
    rw [tbtt_at h.1]
    refine if_pos ?_
    obtain h | h := h.2 <;> simp [h]
  case tbttServed =>
    obtain ⟨hat, hown, hstill, t, hlast, hle⟩ := h
    rw [tbtt_at hat, if_neg (by simp [hown, hstill]), if_pos (tbttServed_of hlast hle)]
  case tbttDue =>
    obtain ⟨⟨hat, hown, hstill, hnew⟩, hbusy⟩ := h
    rw [tbtt_at hat, if_neg (by simp [hown, hstill]), if_neg (by simp [hnew]), if_neg]
    obtain h | h := hbusy <;> simp [h]
  case tbttSent =>
    obtain ⟨⟨hat, hown, hstill, hnew⟩, hclear, hlower⟩ := h
    rw [tbtt_at hat, if_neg (by simp [hown, hstill]), if_neg (by simp [hnew]), if_pos (by simp [hclear, hlower])]
  case inWindow =>
    obtain ⟨hup, hexpect, hout⟩ := h
    rw [uplWindowEnd_expect hup hexpect]
    refine if_pos ?_
    obtain h | h := hout <;> simp [h]
  case missed =>
    obtain ⟨⟨hup, hexpect, hheld, hpast⟩, hfew⟩ := h
    rw [uplWindowEnd_expect hup hexpect, if_neg (by simp [hheld, hpast])]
    exact if_pos hfew
  case lost =>
    obtain ⟨⟨hup, hexpect, hheld, hpast⟩, hmany⟩ := h
    rw [uplWindowEnd_expect hup hexpect, if_neg (by simp [hheld, hpast])]
    exact if_neg (Nat.not_lt.mpr hmany)

end Sys2Proof.Machine
end

section
/-!
SUPPORT. Received MPDUs, the end of a PPDU and the commit point.
-/
namespace Sys2Proof.Machine
open Sys2Proof

theorem withRm_congr {r : Nat} {f g : RadioMac → RadioMac} {s : State} (h : f (vget s.mac.radio r) = g (vget s.mac.radio r)) :
    withRm r f s = withRm r g s := congrArg (fun v => withMac (fun m => { m with radio := v }) s) (vmod_congr h)

theorem withRm_id {r : Nat} {f : RadioMac → RadioMac} {s : State} (h : f (vget s.mac.radio r) = vget s.mac.radio r) : withRm r f s = s :=
  congrArg (fun v => { s with mac := { s.mac with radio := v } }) (vmod_id s.mac.radio r h)

/-! What an MPDU's checks find (Table 5.11). -/

/-- The MPDU is of a user whose data is decoded. -/
structure Decoded (r : Nat) (x : RxCur) (m : Mpdu) (u : UserSig) (s : State) : Prop where
  valid : x.valid = true
  skip : x.skip = false
  user : x.users[m.user]? = some u
  bad : u.bad = false
  unsup : userUnsup r x.fmt x.users u s = false

theorem mpduFate_decoded {r : Nat} {x : RxCur} {m : Mpdu} {u : UserSig} {s : State} (h : Decoded r x m u s) :
    mpduFate r x m s =
      if x.fmt ≥ 4 && m.start ≥ psduLimit x.fmt then .failed 14
      else if m.len = 0 then .ignored
      else if m.len < 14 then .failed 12
      else if m.len > mpduLimit x.fmt then .failed 13
      else if m.fcsOk then .good else .failed 10 := by
  simp only [mpduFate, h.user, h.valid, h.skip, h.bad, h.unsup, Bool.not_true, Bool.or_self, Bool.false_eq_true, if_false]

theorem mpduFate_ignored {r : Nat} {x : RxCur} {m : Mpdu} {s : State} (h : x.valid = false ∨ x.skip = true ∨ x.users[m.user]? = none ∨
    ∃ u, x.users[m.user]? = some u ∧ (u.bad = true ∨ userUnsup r x.fmt x.users u s = true)) : mpduFate r x m s = .ignored := by
  unfold mpduFate
  cases huser : x.users[m.user]? with
  | none => rfl
  | some v =>
    refine if_pos ?_
    obtain h | h | h | ⟨u, hu, h⟩ := h
    · simp [h]
    · simp [h]
    · rw [huser] at h; cases h
    · rw [huser] at hu
      cases hu
      obtain h | h := h <;> simp [h]

theorem psduLimit_of {fmt : Nat} (h : 4 ≤ fmt) :
    psduLimit fmt = if fmt = 4 then 4692480 else if fmt ≤ 8 then 6500631 else 15523198 := by
  rw [psduLimit, if_neg (by omega), if_neg (by omega)]

/-- The limit within the PSDU, as the format gives it. -/
theorem psdu_inside {x : RxCur} {m : Mpdu}
    (h : 4 ≤ x.fmt → m.start < (if x.fmt = 4 then 4692480 else if x.fmt ≤ 8 then 6500631 else 15523198)) :
    (decide (x.fmt ≥ 4) && decide (m.start ≥ psduLimit x.fmt)) = false := by
  by_cases hfmt : 4 ≤ x.fmt
  · have hlt : m.start < psduLimit x.fmt := (psduLimit_of hfmt).symm ▸ h hfmt
    rw [decide_eq_false (Nat.not_le.mpr hlt), Bool.and_false]
  · rw [decide_eq_false hfmt, Bool.false_and]

theorem psdu_outside {x : RxCur} {m : Mpdu}
    (h : ¬ (4 ≤ x.fmt → m.start < (if x.fmt = 4 then 4692480 else if x.fmt ≤ 8 then 6500631 else 15523198))) :
    (decide (x.fmt ≥ 4) && decide (m.start ≥ psduLimit x.fmt)) = true := by
  obtain ⟨hfmt, hge⟩ := Classical.not_imp.mp h
  have hge : m.start ≥ psduLimit x.fmt := (psduLimit_of hfmt).symm ▸ Nat.not_lt.mp hge
  rw [decide_eq_true hfmt, decide_eq_true hge]
  rfl

theorem mpduRx_checked {r : Nat} {m : Mpdu} {x : RxCur} {s : State} (hnew : m.old = false) (hrx : (vget s.phy r).rx = some x)
    (hover : m.overflow = false) :
    mpduRx r m s =
      match mpduFate r x m s with
      | .ignored => s
      | .failed k => phyCount r k 1 (withRx r (fun x => { x with bad := x.bad ++ [m.user], fcsBad := x.fcsBad || k == 10 }) s)
      | .good => phyCount r 9 1 (withRx r (fun x => { x with got := x.got ++ [m] }) s) := by
  simp only [mpduRx, hnew, hrx, hover, Bool.false_eq_true, if_false] <;> rfl

theorem phyCount_withRx {r i : Nat} {f : RxCur → RxCur} {x : RxCur} {s : State} (hrx : (vget s.phy r).rx = some x) :
    phyCount r i 1 (withRx r f s) = withPhy r (fun p => { p with ctr := vadd p.ctr i 1, rx := some (f x) }) s := by
  rw [phyCount, withRx, withPhy_withPhy]
  exact withPhy_congr (by rw [hrx]; rfl)

theorem mpduRx_failed {r k : Nat} {m : Mpdu} {x : RxCur} {s : State} (hnew : m.old = false) (hrx : (vget s.phy r).rx = some x)
    (hover : m.overflow = false) (hfate : mpduFate r x m s = .failed k) :
    mpduRx r m s = withPhy r (fun p => { p with
      ctr := vadd p.ctr k 1, rx := some { x with bad := x.bad ++ [m.user], fcsBad := x.fcsBad || k == 10 } }) s := by
  rw [mpduRx_checked hnew hrx hover, hfate]
  exact phyCount_withRx hrx

theorem mpduRx_good {r : Nat} {m : Mpdu} {x : RxCur} {s : State} (hnew : m.old = false) (hrx : (vget s.phy r).rx = some x)
    (hover : m.overflow = false) (hfate : mpduFate r x m s = .good) :
    mpduRx r m s = withPhy r (fun p => { p with ctr := vadd p.ctr 9 1, rx := some { x with got := x.got ++ [m] } }) s := by
  rw [mpduRx_checked hnew hrx hover, hfate]
  exact phyCount_withRx hrx

theorem mpduRx_ignored {r : Nat} {m : Mpdu} {x : RxCur} {s : State} (hnew : m.old = false) (hrx : (vget s.phy r).rx = some x)
    (hover : m.overflow = false) (hfate : mpduFate r x m s = .ignored) : mpduRx r m s = s := by
  rw [mpduRx_checked hnew hrx hover, hfate]

/-! An RTS to another station. -/

/-- An RTS for another station does what its duration does to the NAV (R147). -/
theorem mpduGood_rts {r : Nat} {m : Mpdu} {x : RxCur} {s : State} (hkind : m.kind = .rts) (hra : bssOfAddr r m.ra s = none)
    (hta : senderOf r m.ta s = none) (hgroup : groupAddr m.ra = false) : mpduGood r x s m = navUpdate r m s := by
  unfold mpduGood
  simp only [hkind, hra, hta, hgroup, Bool.false_eq_true, if_false]
  rfl

theorem navUpdate_rts {r : Nat} {m : Mpdu} {s : State} (hkind : m.kind = .rts) (hdur : m.dur ≠ 0) (hintra : intraBss r m s = false) :
    navUpdate r m s =
      if (vget s.mac.radio r).navBasic.isNone || s.now + m.dur * 500 > (vget s.mac.radio r).navBasicEnd then
        macCount r 18 1 (withRm r (fun y => { y with
          navBasic := some m.ta, navBasicEnd := s.now + m.dur * 500, navRts := some false }) s)
      else s := by
  simp only [navUpdate, hkind, hintra, if_neg hdur, Bool.false_eq_true, if_false, if_true, reduceCtorEq]

/-! The end of a PPDU. -/

/-- A whole PPDU's MPDUs have reached the MAC, its reports are written and the response it calls for is gathered (R121). -/
def ppduEnded (r : Nat) (x : RxCur) (e : PpduEnd) (s : State) : State :=
  trigNext r (x.got.foldl (mpduGood r x) (withRm r (fun m => { m with agg := { tb := e.tb } })
    (withPhy r (fun p => { p with rx := none, tail := if e.due = 0 then none else some { x with due := e.due, judged := false } })
      (withRm r (fun m => { m with trigFor := false, trigSeen := false })
        ((x.users.zip e.users).foldl (filterEvm r x.femGain) (phyCount r 11 e.delimErr (writeReports r x false e.users s)))))))

/-- The response is owed at its commit point (R22). -/
def respOwed (r : Nat) (x : RxCur) (now : Nat) (s : State) : State :=
  withFe r (fun e => { e with owesResp := true }) (withRm r (fun m => { m with
    commit := some (now + commitNs r x / 2), stands := x.ba, respRate := if x.fmt = 0 then 8 else 4, respDone := none }) s)

theorem rxPpduEnd_whole {r : Nat} {x : RxCur} {e : PpduEnd} {s : State} (hcsi : e.csi = []) (hrx : (vget s.phy r).rx = some x)
    (hvalid : x.valid = true) (hskip : x.skip = false) (hover : e.overflow = false) (hend : x.endAt ≤ s.now) :
    rxPpduEnd r e s =
      let y := { x with due := e.due, judged := false }
      let t := ppduEnded r x e s
      let u := noteEifs r y (if (vget t.mac.radio r).agg.resp != 0 || e.asks != 0 then respOwed r x s.now t else t)
      if e.due = 0 then closePpdu r y u else coexUpdate r u := by
  have hok : (!x.skip) = true := by rw [hskip]; rfl
  unfold rxPpduEnd
  rw [hrx]
  dsimp only
  rw [if_neg (by simp [hover]), if_neg (by simp [hvalid, hend]), hcsi]
  simp only [hok, if_true, Bool.true_and, List.foldl_nil]
  rfl

/-! The commit point. -/

theorem responderComplete_some {r c : Nat} {s : State} (h : (vget s.mac.radio r).commit = some c) :
    responderComplete r s = withRm r (fun m => { m with respDone := some (2 * (c - s.now)) }) s :=
  withRm_congr (by rw [h])

theorem responderComplete_none {r : Nat} {s : State} (h : (vget s.mac.radio r).commit = none) : responderComplete r s = s :=
  withRm_id (by rw [h])

/-- The commit point has passed. -/
def commitPassed (r : Nat) (s : State) : State := withRm r (fun m => { m with commit := none, respDone := none }) s

/-- A response joins what the radio sends next. -/
def sendFirst (r : Nat) (p : TxCur × State) : State := withRm r (fun m => { m with txNext := p.1 :: m.txNext }) p.2

/-- At C with nothing of the PPDU left to judge. -/
theorem commitPoint_judged {r c : Nat} {s : State} (hcommit : (vget s.mac.radio r).commit = some c) (hdue : c ≤ s.now)
    (hjudged : ∀ x, (vget s.phy r).tail = some x → x.judged = true) :
    commitPoint r s =
      let m := vget s.mac.radio r
      if m.agg.resp = 0 then
        settle r (responseSent r (if (vget s.phy r).tail.isSome then hlResponse r 0 true (raisePartial r (macCount r 25 1 (commitPassed r s)))
          else commitPassed r s))
      else
        match m.respDone with
        | some k => sendFirst r (responsePpdu r m.stands (hlResponse r k false (commitPassed r s)))
        | none =>
          if m.agg.resp = 3 ∨ m.agg.resp = 4 then settle r (responseSent r (hlTrigger r none true (macCount r 25 1 (commitPassed r s))))
          else sendFirst r (responsePpdu r m.stands (hlResponse r 0 true (raisePartial r (macCount r 25 1 (commitPassed r s))))) := by
  simp only [commitPoint, hcommit, if_neg (Nat.not_lt.mpr hdue)]
  cases htail : (vget s.phy r).tail with
  | none => rfl
  | some x =>
    simp only [hjudged x htail, if_true] <;> rfl

theorem mpduLimit_ge (fmt : Nat) : 14 ≤ mpduLimit fmt := by
  unfold mpduLimit
  split <;> decide

/-- The PPDU calls for a response. -/
theorem ppduAsks_of {r : Nat} {x : RxCur} {e : PpduEnd} {s : State}
    (h : (vget (ppduEnded r x e s).mac.radio r).agg.resp ≠ 0 ∨ e.asks ≠ 0) :
    ((vget (ppduEnded r x e s).mac.radio r).agg.resp != 0 || e.asks != 0) = true := by simpa using h

theorem not_ppduAsks_of {r : Nat} {x : RxCur} {e : PpduEnd} {s : State}
    (h : ¬ ((vget (ppduEnded r x e s).mac.radio r).agg.resp ≠ 0 ∨ e.asks ≠ 0)) :
    ¬ ((vget (ppduEnded r x e s).mac.radio r).agg.resp != 0 || e.asks != 0) = true := by simpa using h

/-- Settles O32: one equation per event and case. -/
theorem receptionTakesEffect : Obligations.ReceptionTakesEffect := by
  unfold Obligations.ReceptionTakesEffect
  intro r n
  subst n
  refine ⟨fun m => does (fun _ => rfl) fun s h => ?noRx, fun m => does (fun _ => rfl) fun s h => ?noTail,
    fun m x => does (fun _ => rfl) fun s h => ?late, fun m x => does (fun _ => rfl) fun s h => ?overflow,
    fun m x => does (fun _ => rfl) fun s h => mpduRx_ignored h.1 h.2.1 h.2.2.1 (mpduFate_ignored h.2.2.2),
    fun m x u => ⟨does (fun _ => rfl) fun s h => ?outside, does (fun _ => rfl) fun s h => ?empty, does (fun _ => rfl) fun s h => ?short,
      does (fun _ => rfl) fun s h => ?long, does (fun _ => rfl) fun s h => ?fcs, does (fun _ => rfl) fun s h => ?good⟩,
    fun m x s hkind hdur hra hta hgroup hintra => ⟨fun hset => ?nav, fun hbasic hearly => ?navKept⟩,
    fun e => does (fun _ => rfl) fun s h => ?noPpdu, fun e x => does (fun _ => rfl) fun s h => ?endOverflow,
    fun e x => does (fun _ => rfl) fun s h => ?notOver,
    fun e x hcsi => ⟨does (fun _ => rfl) fun s h => ?askedDue, does (fun _ => rfl) fun s h => ?asked, does (fun _ => rfl) fun s h => ?due,
      does (fun _ => rfl) fun s h => ?closed⟩,
    fun c => does (fun _ => rfl) fun s h => responderComplete_some h, does (fun _ => rfl) fun s h => responderComplete_none h,
    ⟨does (fun _ => rfl) fun s h => ?noCommit, fun c => does (fun _ => rfl) fun s h => ?early, fun k => does (fun _ => rfl) fun s h => ?complete,
      does (fun _ => rfl) fun s h => ?notSent, does (fun _ => rfl) fun s h => ?partialResp, does (fun _ => rfl) fun s h => ?nothing⟩⟩
  case noRx => simp only [mpduRx, h.1, h.2, Bool.false_eq_true, if_false, id_eq]
  case noTail => simp only [mpduRx, h.1, h.2, if_true, id_eq]
  case late => simp only [mpduRx, h.1, h.2, if_true]
  case overflow => simp only [mpduRx, h.1, h.2.1, h.2.2, Bool.false_eq_true, if_false, if_true]
  case outside =>
    obtain ⟨⟨hnew, hrx, hover, hvalid, hskip, huser, hbad, hunsup⟩, hout⟩ := h
    refine mpduRx_failed hnew hrx hover ?_
    rw [mpduFate_decoded ⟨hvalid, hskip, huser, hbad, hunsup⟩]
    exact if_pos (psdu_outside hout)
  case empty =>
    obtain ⟨⟨hnew, hrx, hover, hvalid, hskip, huser, hbad, hunsup⟩, hin, hlen⟩ := h
    refine mpduRx_ignored hnew hrx hover ?_
    rw [mpduFate_decoded ⟨hvalid, hskip, huser, hbad, hunsup⟩, psdu_inside hin, if_neg Bool.false_ne_true, if_pos hlen]
  case short =>
    obtain ⟨⟨hnew, hrx, hover, hvalid, hskip, huser, hbad, hunsup⟩, hin, hmin, hmax⟩ := h
    refine mpduRx_failed hnew hrx hover ?_
    rw [mpduFate_decoded ⟨hvalid, hskip, huser, hbad, hunsup⟩, psdu_inside hin, if_neg Bool.false_ne_true, if_neg (by omega), if_pos hmax]
  case long =>
    obtain ⟨⟨hnew, hrx, hover, hvalid, hskip, huser, hbad, hunsup⟩, hin, hlong⟩ := h
    have hmin := mpduLimit_ge x.fmt
    have hlong : mpduLimit x.fmt < m.len := hlong
    refine mpduRx_failed hnew hrx hover ?_
    rw [mpduFate_decoded ⟨hvalid, hskip, huser, hbad, hunsup⟩, psdu_inside hin, if_neg Bool.false_ne_true, if_neg (by omega),
      if_neg (by omega), if_pos hlong]
  case fcs =>
    obtain ⟨⟨hnew, hrx, hover, hvalid, hskip, huser, hbad, hunsup⟩, hin, hmin, hmax, hfcs⟩ := h
    have hmax : ¬ m.len > mpduLimit x.fmt := Nat.not_lt.mpr hmax
    refine mpduRx_failed hnew hrx hover ?_
    rw [mpduFate_decoded ⟨hvalid, hskip, huser, hbad, hunsup⟩, psdu_inside hin, if_neg Bool.false_ne_true, if_neg (by omega),
      if_neg (by omega), if_neg hmax, if_neg (by simp [hfcs])]
  case good =>
    obtain ⟨⟨hnew, hrx, hover, hvalid, hskip, huser, hbad, hunsup⟩, hin, hmin, hmax, hfcs⟩ := h
    have hmax : ¬ m.len > mpduLimit x.fmt := Nat.not_lt.mpr hmax
    refine mpduRx_good hnew hrx hover ?_
    rw [mpduFate_decoded ⟨hvalid, hskip, huser, hbad, hunsup⟩, psdu_inside hin, if_neg Bool.false_ne_true, if_neg (by omega),
      if_neg (by omega), if_neg hmax, if_pos hfcs]
  case nav =>
    rw [mpduGood_rts hkind hra hta hgroup, navUpdate_rts hkind hdur hintra]
    refine if_pos ?_
    obtain h | h := hset <;> simp [h]
  case navKept =>
    rw [mpduGood_rts hkind hra hta hgroup, navUpdate_rts hkind hdur hintra]
    exact if_neg (by simp [hbasic, hearly])
  case noPpdu => simp only [rxPpduEnd, h, id_eq]
  case endOverflow => simp only [rxPpduEnd, h.1, h.2, if_true]
  case notOver =>
    obtain ⟨hrx, hover, hnot⟩ := h
    simp only [rxPpduEnd, hrx, hover, Bool.false_eq_true, if_false]
    refine if_pos ?_
    obtain h | h := hnot <;> simp [h]
  case askedDue =>
    obtain ⟨⟨hrx, hvalid, hskip, hover, hend⟩, hasked, hdue⟩ := h
    rw [rxPpduEnd_whole hcsi hrx hvalid hskip hover hend]
    dsimp only
    rw [if_neg hdue, if_pos (ppduAsks_of hasked)]
    rfl
  case asked =>
    obtain ⟨⟨hrx, hvalid, hskip, hover, hend⟩, hasked, hdue⟩ := h
    rw [rxPpduEnd_whole hcsi hrx hvalid hskip hover hend]
    dsimp only
    rw [if_pos hdue, if_pos (ppduAsks_of hasked)]
    rfl
  case due =>
    obtain ⟨⟨hrx, hvalid, hskip, hover, hend⟩, hasked, hdue⟩ := h
    rw [rxPpduEnd_whole hcsi hrx hvalid hskip hover hend]
    dsimp only
    rw [if_neg hdue, if_neg (not_ppduAsks_of hasked)]
    rfl
  case closed =>
    obtain ⟨⟨hrx, hvalid, hskip, hover, hend⟩, hasked, hdue⟩ := h
    rw [rxPpduEnd_whole hcsi hrx hvalid hskip hover hend]
    dsimp only
    rw [if_pos hdue, if_neg (not_ppduAsks_of hasked)]
    rfl
  case noCommit => simp only [commitPoint, h, id_eq]
  case early => simp only [commitPoint, h.1, if_pos h.2, id_eq]
  case complete =>
    obtain ⟨⟨⟨c, hcommit, hdue⟩, hjudged⟩, hresp, hdone⟩ := h
    rw [commitPoint_judged hcommit hdue hjudged]
    dsimp only
    rw [if_neg hresp, hdone] <;> rfl
  case notSent =>
    obtain ⟨⟨⟨c, hcommit, hdue⟩, hjudged⟩, hdone, hresp⟩ := h
    rw [commitPoint_judged hcommit hdue hjudged]
    dsimp only
    rw [if_neg (by omega), hdone]
    exact if_pos hresp
  case partialResp =>
    obtain ⟨⟨⟨c, hcommit, hdue⟩, hjudged⟩, hdone, hresp, hcts, htb⟩ := h
    rw [commitPoint_judged hcommit hdue hjudged]
    dsimp only
    rw [if_neg hresp, hdone]
    exact if_neg (by omega)
  case nothing =>
    obtain ⟨⟨⟨c, hcommit, hdue⟩, hjudged⟩, hresp, htail⟩ := h
    rw [commitPoint_judged hcommit hdue hjudged]
    dsimp only
    rw [if_pos hresp, htail] <;> rfl

end Sys2Proof.Machine
end

section
/-!
SUPPORT. Reassembly and reorder timeouts.
-/
namespace Sys2Proof.Machine
open Sys2Proof

/-- Settles O33: what is held is discarded, or released up to the next gap. -/
theorem reassemblyTimeoutsTakeEffect : Obligations.ReassemblyTimeoutsTakeEffect := by
  unfold Obligations.ReassemblyTimeoutsTakeEffect
  refine fun q => ⟨fun d => does (fun _ => rfl) fun s h => ?discarded, does (fun _ => rfl) fun s h => ?noFragment,
    fun b sn f l => does (fun _ => rfl) fun s h => ?released, fun b => does (fun _ => rfl) fun s h => ?noneHeld⟩
  case discarded => simp only [defragTimeout, h]
  case noFragment => simp only [defragTimeout, h, id_eq]
  case released => simp only [reorderTimeout, h.1, h.2]
  case noneHeld => simp only [reorderTimeout, h.1, h.2, id_eq]

end Sys2Proof.Machine
end

section
/-!
SUPPORT. Backoff, transmission, clear channel and the NAV.
-/
namespace Sys2Proof.Machine
open Sys2Proof

/-! What the start of a PPDU leaves in the front end, the PHY and the NAV. -/

theorem emits_foldl {α : Type} {f : State → α → State} (proj : State → State) (hf : ∀ s a, proj (f s a) = proj s) (l : List α) (s : State) :
    proj (l.foldl f s) = proj s := by
  induction l generalizing s with
  | nil => rfl
  | cons a l ih => exact (ih _).trans (hf s a)

/-- The device without what it sent out. -/
def silent (s : State) : State := { s with out := [] }

theorem femIssue_silent (r ev : Nat) (s : State) : silent (femIssue r ev s) = silent s := by
  unfold femIssue
  exact emits_foldl silent (by intro s b; rfl) _ s

theorem femEnter_silent (r : Nat) (st : RState) (s : State) : silent (femEnter r st s) = silent s := by
  unfold femEnter
  split <;> simp only [femIssue_silent]

theorem femTrigger_silent (r ev : Nat) (s : State) : silent (femTrigger r ev s) = silent s := by
  unfold femTrigger
  exact emits_foldl silent (fun s bus => by split <;> rfl) [0, 1] s

theorem fe_of_silent {s t : State} (h : silent s = silent t) : s.fe = t.fe :=
  show (silent s).fe = (silent t).fe from congrArg State.fe h

theorem phy_of_silent {s t : State} (h : silent s = silent t) : s.phy = t.phy :=
  show (silent s).phy = (silent t).phy from congrArg State.phy h

theorem phyCount_fe (r i k : Nat) (s : State) : (phyCount r i k s).fe = s.fe := rfl

theorem macCount_fe (r i k : Nat) (s : State) : (macCount r i k s).fe = s.fe := rfl

theorem macCount_phy (r i k : Nat) (s : State) : (macCount r i k s).phy = s.phy := rfl

theorem countTx_fe (r : Nat) (x : TxCur) (s : State) : (countTx r x s).fe = s.fe := by
  simp only [countTx, macCount_fe, phyCount_fe]

theorem phyCount_rx (r i k j : Nat) (s : State) : (vget (phyCount r i k s).phy j).rx = (vget s.phy j).rx :=
  vget_vmod_proj s.phy r j (·.rx) fun _ => rfl

theorem countTx_rx (r : Nat) (x : TxCur) (j : Nat) (s : State) : (vget (countTx r x s).phy j).rx = (vget s.phy j).rx := by
  simp only [countTx, macCount_phy, phyCount_rx]

/-- The radio in TX with the PPDU dressed for the air, before counters and triggers. -/
def onAir (r : Nat) (x : TxCur) (s : State) : State :=
  withRm r (fun m => { m with txStamps := stampOut (2 + r) (withPhy r (fun p => { p with rx := none }) s) })
    (withFe r (fun e => { e with state := .tx, trans := none, goal := none, tx := some (airPpdu r x s) }) (withPhy r (fun p => { p with rx := none }) s))

/-- The wake receiver of a radio that begins a PPDU. -/
def wurBegins (r : Nat) (blanked : Bool) (x : TxCur) (s : State) : State :=
  let t := if r = 0 ∧ blanked = true then wurBlanked s else s
  if x.kind = .wur then wurCopyStarts x.bss t else t

/-- The staging that was not complete is counted. -/
def stagedOr (r : Nat) (staged : Bool) (s : State) : State := if staged then s else feCount r 13 s

theorem wurBlanked_fe (s : State) : (wurBlanked s).fe = s.fe := by
  unfold wurBlanked
  split <;> rfl

theorem wurBlanked_phy (s : State) : (wurBlanked s).phy = s.phy := by
  unfold wurBlanked
  split <;> rfl

theorem wurCopyStarts_fe (b : Nat) (s : State) : (wurCopyStarts b s).fe = s.fe := rfl

theorem wurCopyStarts_phy (b : Nat) (s : State) : (wurCopyStarts b s).phy = s.phy := rfl

theorem wurBegins_fe (r : Nat) (b : Bool) (x : TxCur) (s : State) : (wurBegins r b x s).fe = s.fe := by
  simp only [wurBegins, apply_ite State.fe, wurCopyStarts_fe, wurBlanked_fe, ite_self]

theorem wurBegins_phy (r : Nat) (b : Bool) (x : TxCur) (s : State) : (wurBegins r b x s).phy = s.phy := by
  simp only [wurBegins, apply_ite State.phy, wurCopyStarts_phy, wurBlanked_phy, ite_self]

theorem beginPpdu_alone {r : Nat} {x : TxCur} (h : x.users = []) (staged blanked : Bool) (s : State) : beginPpdu r staged blanked x s =
    withRm r (fun m => { m with navRts := none, eifs := false }) (wurBegins r blanked x (stagedOr r staged
      (countTx r (airPpdu r x s) (emit (.air r (airPpdu r x s)) (femEnter r .tx (femTrigger r 0 (onAir r x s))))))) := by
  have hframes : ppduFrames x = [] := by simp only [ppduFrames, h, List.flatMap_nil]
  unfold beginPpdu
  dsimp only
  rw [hframes]
  rfl

theorem stagedOr_proj {β : Type} (p : RadioFe → β) (hp : ∀ e c, p { e with ctr := c } = p e) (r : Nat) (staged : Bool) (s : State) (j : Nat) :
    p (vget (stagedOr r staged s).fe j) = p (vget s.fe j) := by
  unfold stagedOr
  split
  · rfl
  · exact withFe_proj p (fun e => hp e _) r j s

theorem stagedOr_phy (r : Nat) (staged : Bool) (s : State) : (stagedOr r staged s).phy = s.phy := by
  unfold stagedOr
  split <;> rfl

theorem triggered_silent (r : Nat) (s : State) : silent (femEnter r .tx (femTrigger r 0 s)) = silent s :=
  (femEnter_silent r .tx _).trans (femTrigger_silent r 0 s)

theorem beginPpdu_fe {β : Type} (p : RadioFe → β) (hp : ∀ e c, p { e with ctr := c } = p e) {r : Nat} (hr : r < 3) {x : TxCur} (h : x.users = [])
    (staged blanked : Bool) (s : State) : p (vget (beginPpdu r staged blanked x s).fe r) =
      p { vget s.fe r with state := .tx, trans := none, goal := none, tx := some (airPpdu r x s) } := by
  rw [beginPpdu_alone h]
  change p (vget (wurBegins r blanked x _).fe r) = _
  rw [wurBegins_fe, stagedOr_proj p hp, countTx_fe]
  change p (vget (femEnter r .tx (femTrigger r 0 (onAir r x s))).fe r) = _
  rw [fe_of_silent (triggered_silent r _)]
  exact congrArg p (withFe_get hr _ _)

theorem beginPpdu_rx {r : Nat} (hr : r < 3) {x : TxCur} (h : x.users = []) (staged blanked : Bool) (s : State) :
    (vget (beginPpdu r staged blanked x s).phy r).rx = none := by
  rw [beginPpdu_alone h]
  change (vget (wurBegins r blanked x _).phy r).rx = _
  rw [wurBegins_phy, stagedOr_phy, countTx_rx]
  change (vget (femEnter r .tx (femTrigger r 0 (onAir r x s))).phy r).rx = _
  rw [phy_of_silent (triggered_silent r _)]
  exact congrArg RadioPhy.rx (withPhy_get hr _ s)

theorem withRm_get {r : Nat} (hr : r < 3) (f : RadioMac → RadioMac) (s : State) : vget (withRm r f s).mac.radio r = f (vget s.mac.radio r) :=
  vget_vmod_same s.mac.radio r f hr

theorem beginPpdu_nav {r : Nat} (hr : r < 3) {x : TxCur} (h : x.users = []) (staged blanked : Bool) (s : State) :
    (vget (beginPpdu r staged blanked x s).mac.radio r).navRts = none ∧ (vget (beginPpdu r staged blanked x s).mac.radio r).eifs = false := by
  rw [beginPpdu_alone h, withRm_get hr]
  exact ⟨rfl, rfl⟩

/-! What a look at the grant leaves alone. -/

theorem txEnded_mac (r : Nat) (x : TxCur) (s : State) : (txEnded r x s).mac = s.mac := rfl

theorem granted_mac (r : Nat) (s : State) : (granted r s).mac = s.mac := rfl

theorem granted_phy (r : Nat) (s : State) : (granted r s).phy = s.phy := rfl

theorem txEnded_phy (r : Nat) (x : TxCur) (s : State) : (txEnded r x s).phy = s.phy := rfl

/-- The three things the grant may do: nothing new, a rise alone, a rise that ends a PPDU of class 2. -/
theorem grantUpdate_cases (r : Nat) (s : State) : grantUpdate r s = withFe r (fun e => { e with gnt := gntNow r s }) s ∨
    grantUpdate r s = granted r s ∨ ∃ x, (vget s.fe r).tx = some x ∧ grantUpdate r s = txEnded r x (granted r s) := by
  by_cases hlevel : gntNow r s = false ∨ (vget s.fe r).gnt = true
  · exact .inl (grantUpdate_level hlevel)
  · obtain ⟨hnow, hold⟩ := not_or.mp hlevel
    rw [grantUpdate_rise (by simpa using hnow) (by simpa using hold)]
    cases htx : (vget s.fe r).tx with
    | none => exact .inr (.inl rfl)
    | some x =>
      dsimp only
      split
      · exact .inr (.inl rfl)
      · exact .inr (.inr ⟨x, rfl, rfl⟩)

theorem grantUpdate_mac (r : Nat) (s : State) : (grantUpdate r s).mac = s.mac := by
  obtain h | h | ⟨x, -, h⟩ := grantUpdate_cases r s <;> rw [h] <;> rfl

theorem grantUpdate_phy (r : Nat) (s : State) : (grantUpdate r s).phy = s.phy := by
  obtain h | h | ⟨x, -, h⟩ := grantUpdate_cases r s <;> rw [h] <;> rfl

theorem grantUpdate_state {r : Nat} (hr : r < 3) (s : State) : (vget (grantUpdate r s).fe r).state = (vget s.fe r).state := by
  obtain h | h | ⟨x, -, h⟩ := grantUpdate_cases r s <;> rw [h]
  · rw [withFe_get hr]
  · rw [granted_get hr]
  · rw [txEnded_get hr, granted_get hr]

theorem grantUpdate_tx {r : Nat} (hr : r < 3) {s : State} {x : TxCur} (h : (vget s.fe r).tx = some x) :
    ∃ y, (vget (grantUpdate r s).fe r).tx = some y ∧ y.kind = x.kind ∧ y.users = x.users := by
  obtain hg | hg | ⟨y, hy, hg⟩ := grantUpdate_cases r s <;> rw [hg]
  · rw [withFe_get hr]
    exact ⟨x, h, rfl, rfl⟩
  · rw [granted_get hr]
    exact ⟨x, h, rfl, rfl⟩
  · rw [txEnded_get hr]
    cases h.symm.trans hy
    exact ⟨_, rfl, rfl, rfl⟩

theorem coexUpdate_phy (r : Nat) (s : State) : (coexUpdate r s).phy = s.phy := grantUpdate_phy r s

theorem coexUpdate_radio {β : Type} (p : RadioMac → β) (hp : ∀ m i, p { m with idleAt := i } = p m) (r j : Nat) (s : State) :
    p (vget (coexUpdate r s).mac.radio j) = p (vget s.mac.radio j) :=
  (vget_vmod_proj (grantUpdate r s).mac.radio r j p fun m => hp m _).trans (congrArg (fun m : Mac => p (vget m.radio j)) (grantUpdate_mac r s))

/-! The start of a PPDU. -/

/-- A PPDU of this kind, with no users, is on the air, and the stamps are those of its launch. -/
def Sent (r : Nat) (x : TxCur) (t : State) : Prop :=
  (vget t.fe r).state = .tx ∧ (∃ y, (vget t.fe r).tx = some y ∧ y.kind = x.kind ∧ y.users = []) ∧
    (vget t.mac.radio r).navRts = none ∧ (vget t.mac.radio r).eifs = false ∧ (vget t.phy r).rx = none

theorem sent_of_begun {r : Nat} (hr : r < 3) {x : TxCur} (h : x.users = []) (staged blanked : Bool) (s : State) :
    Sent r x (coexUpdate r (beginPpdu r staged blanked x s)) := by
  obtain ⟨y, hy, hkind, husers⟩ := grantUpdate_tx hr (beginPpdu_fe RadioFe.tx (fun _ _ => rfl) hr h staged blanked s)
  obtain ⟨hnav, heifs⟩ := beginPpdu_nav hr h staged blanked s
  refine ⟨?_, ⟨y, hy, hkind, husers.trans h⟩, (coexUpdate_radio RadioMac.navRts (fun _ _ => rfl) r r _).trans hnav,
    (coexUpdate_radio RadioMac.eifs (fun _ _ => rfl) r r _).trans heifs, ?_⟩
  · rw [coexUpdate_fe, grantUpdate_state hr]
    exact beginPpdu_fe RadioFe.state (fun _ _ => rfl) hr h staged blanked s
  · rw [coexUpdate_phy]
    exact beginPpdu_rx hr h staged blanked s

theorem pairUp_alone {r : Nat} {x : TxCur} {s : State} (h : x.users = []) : pairUp r x s = some x := by
  unfold pairUp
  rw [h]
  rfl

theorem launchNow_alone {r : Nat} {x : TxCur} {s : State} (hrts : x.rts = false) (husers : x.users = []) (hok : txRejected r x s = false)
    (staged blanked : Bool) :
    ∃ t, launchNow r true staged blanked x s = beginPpdu r staged blanked x t := by
  unfold launchNow
  simp only [hrts, hok, pairUp_alone husers, Bool.not_true, Bool.false_eq_true, if_false]
  exact ⟨_, rfl⟩

theorem txPpduStart_idle {r : Nat} {f staged blanked : Bool} {s : State} (h : txReady r s = false ∨ nextPpdu r s = none) :
    txPpduStart r f staged blanked s = s := by
  unfold txPpduStart
  obtain h | h := h
  · simp only [h, Bool.not_false, if_true]
  · simp only [h, ite_self]

theorem txPpduStart_withheld {r : Nat} {f staged blanked : Bool} {s u : State} {x : TxCur} (hready : txReady r s = true)
    (hnext : nextPpdu r s = some (x, u)) (hgnt : (vget u.fe r).gnt = true) (hkind : kindProtected x.kind = false) (hctl : x.kind ≠ .control)
    (hheld : (vget u.fe r).withheld = false) :
    txPpduStart r f staged blanked s = feCount r 10 (withFe r (fun e => { e with withheld := true }) u) := by
  simp only [txPpduStart, hready, hnext, hgnt, hkind, hctl, countWithheld, hheld, Bool.not_true, Bool.not_false, Bool.and_true, Bool.false_eq_true,
    if_false, if_true]

theorem txPpduStart_launch {r : Nat} {f staged blanked : Bool} {s u : State} {x : TxCur} (hready : txReady r s = true)
    (hnext : nextPpdu r s = some (x, u)) (hgo : (vget u.fe r).gnt = false ∨ kindProtected x.kind = true) :
    txPpduStart r f staged blanked s = coexUpdate r (launchNow r f staged blanked x
      (withFe r (fun e => { e with withheld := e.withheld && kindProtected x.kind }) (takePpdu r u))) := by
  have hfree : ((vget u.fe r).gnt && !kindProtected x.kind) = false := by
    obtain h | h := hgo <;> simp [h]
  simp only [txPpduStart, hready, hnext, hfree, Bool.not_true, Bool.false_eq_true, if_false]

/-- A PPDU that is not held back and may be sent is on the air (R98). -/
theorem txPpduStart_sends {r : Nat} (hr : r < 3) {s u : State} {x : TxCur} (hready : txReady r s = true) (hnext : nextPpdu r s = some (x, u))
    (hrts : x.rts = false) (husers : x.users = []) (hgo : (vget u.fe r).gnt = false ∨ kindProtected x.kind = true)
    (hok : txRejected r x (withFe r (fun e => { e with withheld := e.withheld && kindProtected x.kind }) (takePpdu r u)) = false)
    (staged blanked : Bool) : Sent r x (txPpduStart r true staged blanked s) := by
  obtain ⟨t, ht⟩ := launchNow_alone hrts husers hok staged blanked
  rw [txPpduStart_launch hready hnext hgo, ht]
  exact sent_of_begun hr husers staged blanked t

/-! The end of a PPDU. -/

theorem txUnderrun_none {r : Nat} {s : State} (h : (vget s.fe r).tx = none) : txUnderrun r s = s := by
  simp only [txUnderrun, h]

theorem txUnderrun_some {r : Nat} {s : State} {x : TxCur} (h : (vget s.fe r).tx = some x) (hx : x.aborted = false) :
    txUnderrun r s = feCount r 1 (withFe r (fun e => { e with tx := some { x with aborted := true } }) s) := by
  unfold txUnderrun
  rw [h]
  exact if_neg (by simp [hx])

theorem txPpduEnd_none {r : Nat} {staged : Bool} {rl : List Nat} {s : State} (h : (vget s.fe r).tx = none) : txPpduEnd r staged rl s = s := by
  simp only [txPpduEnd, h]

/-- What the whole or the cut transmission of a PPDU leads to, before the radio turns. -/
def txOver (r : Nat) (x : TxCur) (rl : List Nat) (s : State) : State :=
  let t := withFe r (fun e => { e with tx := none }) s
  if x.aborted then txFailed r .aborted x t else txCompleted r x (measureTx r x rl t)

section
variable {r : Nat} {staged : Bool} {rl : List Nat} {s : State} {x : TxCur} (htx : (vget s.fe r).tx = some x) (hst : (vget s.fe r).state = .tx)
include htx hst

theorem txPpduEnd_some : txPpduEnd r staged rl s =
    let u := txOver r x rl s
    let target := mayGo r (vget u.fe r).ret u
    let toRx := staysRx r u || target == .rx
    let v := airEnds r (rampDownOf toRx (vget s.fe r)) x.shape u
    settle r (if toRx then turnToRx r staged v else withFe r (fun e => { e with trans := some target, locking := false }) v) := by
  simp only [txPpduEnd, htx]
  exact if_neg (by simp [hst])

theorem txPpduEnd_toRx (h : staysRx r (txOver r x rl s) = true ∨ mayGo r (vget (txOver r x rl s).fe r).ret (txOver r x rl s) = .rx) :
    txPpduEnd r staged rl s = settle r (turnToRx r staged (airEnds r (min 5 (vget s.fe r).rampDown) x.shape (txOver r x rl s))) := by
  have hrx : (staysRx r (txOver r x rl s) || mayGo r (vget (txOver r x rl s).fe r).ret (txOver r x rl s) == .rx) = true := by
    obtain h | h := h <;> simp [h]
  rw [txPpduEnd_some htx hst]
  dsimp only
  rw [hrx]
  rfl

theorem txPpduEnd_away (h : ¬ (staysRx r (txOver r x rl s) = true ∨ mayGo r (vget (txOver r x rl s).fe r).ret (txOver r x rl s) = .rx)) :
    txPpduEnd r staged rl s = settle r (withFe r (fun e => { e with
        trans := some (mayGo r (vget (txOver r x rl s).fe r).ret (txOver r x rl s)), locking := false })
      (airEnds r (vget s.fe r).rampDown x.shape (txOver r x rl s))) := by
  have hrx : (staysRx r (txOver r x rl s) || mayGo r (vget (txOver r x rl s).fe r).ret (txOver r x rl s) == .rx) = false := by
    simpa using h
  rw [txPpduEnd_some htx hst]
  dsimp only
  rw [hrx]
  rfl
end

theorem ndpSent_none {r : Nat} {x : TxCur} {s : State} (h : x.sound = none) : ndpSent r x s = s := by
  simp only [ndpSent, h]

theorem txCompleted_expects {r : Nat} {x : TxCur} {s : State} (h : x.expects = true) : txCompleted r x s =
    withFe r (fun e => { e with awaits := true, owesResp := false }) (withRm r (fun m => { m with
      sent := some x, agg := {}, awaitTill := (ndpSent r x s).now + (extNs r x.fmt + respTimeout r x (ndpSent r x s)) / 2 }) (ndpSent r x s)) :=
  if_pos h

section
variable {r : Nat} {x : TxCur} {s : State} (h : x.expects = false)
include h

theorem txCompleted_beacon (hk : x.kind = .beacon) : txCompleted r x s = (timBsss x.bss (ndpSent r x s)).foldl
    (fun t i => withBss i (fun b => { b with dtimOpen := b.dtimCount == 0 }) t) (ndpSent r x s) := by
  unfold txCompleted
  simp only [h, Bool.false_eq_true, if_false, hk]

theorem txCompleted_response (hk : x.kind = .response) : txCompleted r x s = responseSent r (ndpSent r x s) := by
  unfold txCompleted
  simp only [h, Bool.false_eq_true, if_false, hk]

theorem txCompleted_element (hk : x.kind = .edca ∨ x.kind = .coord) : txCompleted r x s = elementDone r true (ndpSent r x s) := by
  unfold txCompleted
  obtain hk | hk := hk <;> simp only [h, Bool.false_eq_true, if_false, hk]
end

theorem responseTimeout_due {r : Nat} {s : State} (hwait : (vget s.fe r).awaits = true) (howes : (vget s.fe r).owesResp = false)
    (hdue : (vget s.mac.radio r).awaitTill ≤ s.now) (hrx : (vget s.phy r).rx = none) (htail : (vget s.phy r).tail = none) :
    responseTimeout r s = settle r (exchangeFail r s) :=
  if_neg (by simp [hwait, howes, hdue, hrx, htail])

theorem responseTimeout_none {r : Nat} {s : State} (h : (vget s.fe r).awaits = false) : responseTimeout r s = s := if_pos (by simp [h])

/-! Backoff, the NAV and late furrows. -/

theorem backoffSlot_idle {r : Nat} {s : State} (h : contends r s = false ∨ ccaBusy r s = true ∨ (vget s.fe r).txopHeld = true) :
    backoffSlot r s = s := by
  refine if_pos ?_
  obtain h | h | h := h <;> simp [h]

/-- A backoff slot with nothing that holds the radio back: the functions due count down, and the highest at 0 wins. -/
def slotTaken (r : Nat) (due : List Nat) (s : State) : State :=
  let t := due.foldl (slotOf r (offers r s) (groupOffers r s)) s
  let zero := due.filter fun a => (vget (vget t.mac.radio r).bo a).counter == some 0
  match zero.getLast? with
  | none => t
  | some a => txopWin r a (idleSubs r s) ((zero.filter (· != a)).foldl (internalLoss r) t)

theorem backoffSlot_free {r : Nat} {s : State} (hc : contends r s = true) (hb : ccaBusy r s = false) (hh : (vget s.fe r).txopHeld = false)
    (hg : (vget s.fe r).gnt = false) : backoffSlot r s = slotTaken r ((List.range 4).filter fun a => (slotsPast r a s).isSome) s :=
  (if_neg (by simp [hc, hb, hh])).trans (if_neg (by simp [hg]))

theorem due_one (a : Fin 4) : (List.range 4).filter (fun b => decide (b = a.val)) = [a.val] := by
  revert a
  decide

/-- One function is due: its counter alone moves, and at 0 it wins. -/
theorem slotTaken_one (r a : Nat) (s : State) : slotTaken r [a] s =
    let t := slotOf r (offers r s) (groupOffers r s) s a
    if (vget (vget t.mac.radio r).bo a).counter = some 0 then txopWin r a (idleSubs r s) t else t := by
  unfold slotTaken
  simp only [List.foldl_cons, List.foldl_nil, List.filter_cons, List.filter_nil, beq_iff_eq]
  by_cases h : (vget (vget (slotOf r (offers r s) (groupOffers r s) s a).mac.radio r).bo a).counter = some 0
  · simp [h]
  · simp [h]

theorem slotOf_steps {r a j n : Nat} {s : State} (os : List Offer) (gs : List Nat)
    (hpast : slotsPast r a s = some (j + 1)) (hn : (vget (vget s.mac.radio r).bo a).counter = some (n + 1)) :
    slotOf r os gs s a = withRm r (fun m => { m with bo := vmod m.bo a fun b => { b with counter := some n } }) s := by
  unfold slotOf
  rw [hn]
  exact if_neg (by simp [hpast])

theorem slotOf_first {r a n : Nat} {s : State} (os : List Offer) (gs : List Nat)
    (hpast : slotsPast r a s = some 0) (hn : (vget (vget s.mac.radio r).bo a).counter = some n) : slotOf r os gs s a = s := by
  unfold slotOf
  rw [hn]
  exact if_pos hpast

theorem counter_stepped {r a : Nat} (hr : r < 3) (ha : a < 4) (n : Nat) (s : State) :
    (vget (vget (withRm r (fun m => { m with bo := vmod m.bo a fun b => { b with counter := some n } }) s).mac.radio r).bo a).counter = some n := by
  rw [withRm_get hr]
  exact congrArg Backoff.counter (vget_vmod_same _ a _ ha)

theorem navRtsTimeout_intra {r : Nat} {s : State} (h : (vget s.mac.radio r).navRts = some true) :
    navRtsTimeout r s = idleUpdate r (withRm r (fun m => { m with navIntra := none, navRts := none }) s) :=
  congrArg (idleUpdate r) (withRm_congr (by simp only [h]))

theorem navRtsTimeout_basic {r : Nat} {s : State} (h : (vget s.mac.radio r).navRts = some false) :
    navRtsTimeout r s = idleUpdate r (withRm r (fun m => { m with navBasic := none, navRts := none }) s) :=
  congrArg (idleUpdate r) (withRm_congr (by simp only [h]))

theorem navExpiry_intra {r : Nat} {s : State} (h : (vget s.mac.radio r).navIntraEnd ≤ s.now) :
    navExpiry r true s = idleUpdate r (withRm r (fun m => { m with navIntra := none }) s) :=
  congrArg (idleUpdate r) (withRm_congr (if_pos h))

theorem navExpiry_basic {r : Nat} {s : State} (h : (vget s.mac.radio r).navBasicEnd ≤ s.now) :
    navExpiry r false s = idleUpdate r (withRm r (fun m => { m with navBasic := none }) s) :=
  congrArg (idleUpdate r) (withRm_congr (if_pos h))

theorem withRs_withRs (r : Nat) (f g : RadioSched → RadioSched) (s : State) : withRs r g (withRs r f s) = withRs r (fun k => g (f k)) s :=
  congrArg (fun v => { s with sched := { s.sched with radio := v } }) (vmod_vmod s.sched.radio r f g)

theorem furrowLateWindow_early {r : Nat} {s : State} (h : s.now < (vget s.sched.radio r).lateFrom + 500000000) : furrowLateWindow r s = s :=
  if_pos h

theorem furrowLateWindow_few {r : Nat} {s : State} (h : (vget s.sched.radio r).lateFrom + 500000000 ≤ s.now)
    (hfew : (vget s.sched.radio r).fell * 1000 ≤ (vget s.sched.radio r).lateAlarm * (vget s.sched.radio r).won) :
    furrowLateWindow r s = withRs r (fun k => { k with won := 0, fell := 0, lateFrom := s.now }) s :=
  (if_neg (Nat.not_lt.mpr h)).trans (if_neg fun hmany => Nat.not_lt.mpr hfew hmany.1)

theorem furrowLateWindow_many {r : Nat} {s : State} (h : (vget s.sched.radio r).lateFrom + 500000000 ≤ s.now)
    (hmany : (vget s.sched.radio r).lateAlarm * (vget s.sched.radio r).won < (vget s.sched.radio r).fell * 1000)
    (hquiet : ∀ t, (vget s.sched.radio r).lateAt = some t → t + 5000000000 ≤ s.now) :
    furrowLateWindow r s = raise .furrowLate r (le 4 (vget s.sched.radio r).fell ++ le 4 (vget s.sched.radio r).won)
      (withRs r (fun k => { k with won := 0, fell := 0, lateFrom := s.now, lateAt := some s.now }) s) := by
  refine (if_neg (Nat.not_lt.mpr h)).trans ((if_pos ⟨hmany, ?_⟩).trans (congrArg (raise _ _ _) (withRs_withRs _ _ _ _)))
  split
  · next t ht => exact decide_eq_false (Nat.not_lt.mpr (hquiet t ht))
  · rfl

theorem decide_ite {c p q : Prop} [Decidable c] [Decidable p] [Decidable q] :
    decide (if c then p else q) = if c then decide p else decide q := by split <;> rfl

theorem ccaChange_inside {r sub : Nat} {pw : Int} {ppdu : Bool} {s : State} (h : sub < 2 ^ (vget s.fe r).bw) : ccaChange r sub pw ppdu s =
    let m := vget s.mac.radio r
    let busy := if sub = (vget s.fe r).prim then decide (m.edPri ≤ pw) else decide (m.edSec ≤ pw) || (ppdu && decide (m.sdSec ≤ pw))
    coexUpdate r (withRm r (fun m => { m with
      energy := maskOf ((List.range 16).map fun i => if i = sub then busy else bit m.energy i)
      subAt := if bit m.energy sub && !busy then vset m.subAt sub s.now else m.subAt }) s) := by
  unfold ccaChange
  dsimp only
  rw [if_neg (Nat.not_le.mpr h)]
  simp only [ge_iff_le, decide_ite, Bool.decide_eq_true]

theorem ccaChange_outside {r sub : Nat} {pw : Int} {ppdu : Bool} {s : State} (h : 2 ^ (vget s.fe r).bw ≤ sub) : ccaChange r sub pw ppdu s = s :=
  if_pos h

/-- One function alone is due, and nothing holds the radio back. -/
def OnlyDue (r : Nat) (a : Fin 4) (s : State) : Prop := contends r s = true ∧ ccaBusy r s = false ∧ (vget s.fe r).txopHeld = false ∧
  (vget s.fe r).gnt = false ∧ ∀ b < 4, (slotsPast r b s).isSome = decide (b = a.val)

theorem backoffSlot_one {r : Nat} {a : Fin 4} {s : State} (h : OnlyDue r a s) : backoffSlot r s =
    let t := slotOf r (offers r s) (groupOffers r s) s a
    if (vget (vget t.mac.radio r).bo a).counter = some 0 then txopWin r a (idleSubs r s) t else t := by
  obtain ⟨hc, hb, hh, hg, hdue⟩ := h
  have hone : (List.range 4).filter (fun b => (slotsPast r b s).isSome) = [a.val] :=
    (List.filter_congr fun b hb => hdue b (List.mem_range.mp hb)).trans (due_one a)
  rw [backoffSlot_free hc hb hh hg, hone, slotTaken_one]

theorem backoffSlot_counts {r j k : Nat} (hr : r < 3) {a : Fin 4} {s : State} (h : OnlyDue r a s) (hpast : slotsPast r a s = some (j + 1))
    (hcount : (vget (vget s.mac.radio r).bo a).counter = some (k + 2)) :
    backoffSlot r s = withRm r (fun m => { m with bo := vmod m.bo a fun b => { b with counter := some (k + 1) } }) s := by
  rw [backoffSlot_one h, slotOf_steps _ _ hpast hcount]
  exact if_neg (by simp [counter_stepped hr a.isLt])

theorem backoffSlot_wins {r j : Nat} (hr : r < 3) {a : Fin 4} {s : State} (h : OnlyDue r a s) (hpast : slotsPast r a s = some (j + 1))
    (hcount : (vget (vget s.mac.radio r).bo a).counter = some 1) :
    backoffSlot r s = txopWin r a (idleSubs r s) (withRm r (fun m => { m with bo := vmod m.bo a fun b => { b with counter := some 0 } }) s) := by
  rw [backoffSlot_one h, slotOf_steps _ _ hpast hcount]
  exact if_pos (counter_stepped hr a.isLt 0 s)

theorem backoffSlot_stands {r : Nat} {a : Fin 4} {s : State} (h : OnlyDue r a s) (hpast : slotsPast r a s = some 0)
    (hcount : (vget (vget s.mac.radio r).bo a).counter = some 0) : backoffSlot r s = txopWin r a (idleSubs r s) s := by
  rw [backoffSlot_one h, slotOf_first _ _ hpast hcount]
  exact if_pos hcount

/-- Settles O34: each event by the equation of its case. -/
theorem transmissionTakesEffect : Obligations.TransmissionTakesEffect := by
  unfold Obligations.TransmissionTakesEffect
  intro r n
  subst n
  have hr : rnum r < 3 := rnum_lt r
  refine ⟨fun x u staged blanked s hlive hready hnext hrts husers hgo hok => gives_live (fun _ => rfl) hlive
      (txPpduStart_sends hr hready hnext hrts husers hgo hok staged blanked),
    fun f staged blanked => does (fun _ => rfl) fun s h => txPpduStart_idle h,
    fun x u f staged blanked => does (fun _ => rfl) fun s ⟨hready, hnext, hgnt, hkind, hctl, hheld⟩ =>
      txPpduStart_withheld hready hnext hgnt hkind hctl hheld,
    fun x => does (fun _ => rfl) fun s h => txUnderrun_some h.1 h.2, does (fun _ => rfl) fun s h => txUnderrun_none h,
    fun staged rl => does (fun _ => rfl) fun s h => txPpduEnd_none h,
    fun x staged rl => ⟨does (fun _ => rfl) fun s h => txPpduEnd_toRx h.1.1 h.1.2 h.2, does (fun _ => rfl) fun s h => txPpduEnd_away h.1.1 h.1.2 h.2⟩,
    fun x s => ⟨ndpSent_none, fun h => ⟨txCompleted_beacon h, txCompleted_response h, txCompleted_element h⟩, txCompleted_expects⟩,
    does (fun _ => rfl) fun s ⟨hwait, howes, hdue, hrx, htail⟩ => responseTimeout_due hwait howes hdue hrx htail,
    does (fun _ => rfl) fun s h => responseTimeout_none h,
    fun sub pw ppdu => does (fun _ => rfl) fun s h => ccaChange_inside h,
    fun sub pw ppdu => does (fun _ => rfl) fun s h => ccaChange_outside h,
    does (fun _ => rfl) fun s h => backoffSlot_idle h,
    fun a => ⟨fun k j => does (fun _ => rfl) fun s h => backoffSlot_counts hr h.1 h.2.1 h.2.2,
      fun j => does (fun _ => rfl) fun s h => backoffSlot_wins hr h.1 h.2.1 h.2.2, does (fun _ => rfl) fun s h => backoffSlot_stands h.1 h.2.1 h.2.2⟩,
    does (fun _ => rfl) fun s h => navRtsTimeout_intra h, does (fun _ => rfl) fun s h => navRtsTimeout_basic h,
    does (fun _ => rfl) fun s h => navExpiry_intra h, does (fun _ => rfl) fun s h => navExpiry_basic h,
    does (fun _ => rfl) fun s h => furrowLateWindow_many h.1 h.2.1 h.2.2, does (fun _ => rfl) fun s h => furrowLateWindow_few h.1 h.2,
    does (fun _ => rfl) fun s h => furrowLateWindow_early h⟩

end Sys2Proof.Machine
end

section
/-!
SUPPORT. Lifetimes, urgency, deadlines and the uplink hold.
-/
namespace Sys2Proof.Machine
open Sys2Proof

/-! An entry of a map that is changed in place. -/

theorem kget_kmod {α : Type} (m : KMap α) (i j : Nat) (f : α → α) : kget (kmod m i f) j = (kget m j).map (if j = i then f else id) := by
  induction m with
  | nil => rfl
  | cons p m ih =>
    obtain ⟨k, v⟩ := p
    change kget ((if k = i then (k, f v) else (k, v)) :: kmod m i f) j = _
    by_cases hj : j = k
    · by_cases hi : k = i <;> simp [kget, hj, hi]
    · rw [show (if k = i then (k, f v) else (k, v)) = (k, if k = i then f v else v) by split <;> rfl, kget, if_neg hj, ih, kget, if_neg hj]

theorem kmod_absent {α : Type} {m : KMap α} {i : Nat} (f : α → α) (h : kget m i = none) : kmod m i f = m := by
  induction m with
  | nil => rfl
  | cons p m ih =>
    obtain ⟨k, v⟩ := p
    by_cases hi : i = k
    · simp [kget, hi] at h
    · rw [kget, if_neg hi] at h
      exact congr (congrArg List.cons (if_neg (Ne.symm hi))) (ih h)

theorem kget_kmod_same {α : Type} {m : KMap α} {i : Nat} {x : α} (f : α → α) (h : kget m i = some x) : kget (kmod m i f) i = some (f x) := by
  simp [kget_kmod, h]

theorem kget_kmod_other {α : Type} {m : KMap α} {i j : Nat} (f : α → α) (h : j ≠ i) : kget (kmod m i f) j = kget m j := by
  simp [kget_kmod, h]

/-! Lifetimes. -/

theorem withRs_congr {r : Nat} {f g : RadioSched → RadioSched} {s : State} (h : f (vget s.sched.radio r) = g (vget s.sched.radio r)) :
    withRs r f s = withRs r g s :=
  congrArg (fun v => { s with sched := { s.sched with radio := v } }) (vmod_congr h)

theorem outlived_iff {r a : Nat} {f : Frame} {s : State} :
    outlived r a f s = true ↔ f.enq + vget (vget s.mac.radio r).lifeMs a * 1000000 < tbTotal 2 s := decide_eq_true_iff

/-- A furrow claims an MSDU that is older than its lifetime. -/
def claimsOld (n tid r : Nat) (s : State) (f : Option Furrow) : Bool := match f with
  | some f => claimsTid n tid f && (furrowTid n tid (some f)).any fun g => g.lost.isNone && outlived r (acOfTid tid) g s
  | none => false

theorem claimsOld_none (n tid r : Nat) (s : State) : claimsOld n tid r s none = false := rfl

theorem claimsOld_some {n tid r : Nat} {s : State} {k : Furrow} (hc : claimsTid n tid k = true)
    (hold : ∃ g ∈ furrowTid n tid (some k), g.lost = none ∧ outlived r (acOfTid tid) g s = true) : claimsOld n tid r s (some k) = true := by
  obtain ⟨g, hg, hlost, hout⟩ := hold
  simp only [claimsOld, hc, Bool.true_and, List.any_eq_true, Bool.and_eq_true]
  exact ⟨g, hg, by simp [hlost], hout⟩

/-- What a station's queue does as its oldest MSDU may have outlived its lifetime. -/
theorem lifetimeExpiry_sta {q : Nat} {x : Sta} {s : State} (hq : q < 8192) (hx : kget s.mac.sta (q / 8) = some x) : lifetimeExpiry q s =
    let n := q / 8
    let tid := q % 8
    let r := staRadio x tid
    match (List.range 3).find? fun i => claimsOld n tid r s (vget s.sched.radio i).ready || claimsOld n tid r s (vget s.sched.radio i).building with
    | some i =>
      if claimsOld n tid r s (vget s.sched.radio i).ready then withRs i (fun k => { k with ready := k.ready.map (markClaimed n tid 0) }) s
      else withRs i (fun k => { k with building := k.building.map (markClaimed n tid 0) }) s
    | none =>
      match tidQueue q s with
      | [] => s
      | f :: rest =>
        if !outlived r (acOfTid tid) f s then s
        else if x.held then dropMsdu r n tid .keyExhausted f (cwLow r (acOfTid tid) (secCount 13 1 (setTidQueue q rest s)))
          else lifeDrop r n tid f (setTidQueue q rest s) := by
  unfold lifetimeExpiry
  rw [if_neg (Nat.not_le.mpr hq)]
  simp only [hx]
  rfl

section
variable {q : Nat} {x : Sta} {f : Frame} {rest : List Frame} {s : State} (hq : q < 8192) (hx : kget s.mac.sta (q / 8) = some x)
  (hfree : ∀ i < 3, (vget s.sched.radio i).ready = none ∧ (vget s.sched.radio i).building = none) (hqueue : tidQueue q s = f :: rest)
include hq hx hfree hqueue

/-- No furrow claims anything: the oldest MSDU of the queue is looked at. -/
theorem lifetimeExpiry_unclaimed : lifetimeExpiry q s =
    if !outlived (staRadio x (q % 8)) (acOfTid (q % 8)) f s then s
    else if x.held then dropMsdu (staRadio x (q % 8)) (q / 8) (q % 8) .keyExhausted f
      (cwLow (staRadio x (q % 8)) (acOfTid (q % 8)) (secCount 13 1 (setTidQueue q rest s)))
    else lifeDrop (staRadio x (q % 8)) (q / 8) (q % 8) f (setTidQueue q rest s) := by
  rw [lifetimeExpiry_sta hq hx]
  dsimp only
  have hnone : ((List.range 3).find? fun i => claimsOld (q / 8) (q % 8) (staRadio x (q % 8)) s (vget s.sched.radio i).ready ||
      claimsOld (q / 8) (q % 8) (staRadio x (q % 8)) s (vget s.sched.radio i).building) = none := by
    refine List.find?_eq_none.mpr fun i hi => ?_
    obtain ⟨hready, hbuilding⟩ := hfree i (List.mem_range.mp hi)
    simp [hready, hbuilding, claimsOld_none]
  rw [hnone, hqueue]

theorem lifetimeExpiry_young (hold : ¬ f.enq + vget (vget s.mac.radio (staRadio x (q % 8))).lifeMs (acOfTid (q % 8)) * 1000000 < tbTotal 2 s) :
    lifetimeExpiry q s = s :=
  (lifetimeExpiry_unclaimed hq hx hfree hqueue).trans (if_pos (by simpa using mt outlived_iff.mp hold))

theorem lifetimeExpiry_old (hold : f.enq + vget (vget s.mac.radio (staRadio x (q % 8))).lifeMs (acOfTid (q % 8)) * 1000000 < tbTotal 2 s)
    (hheld : x.held = false) : lifetimeExpiry q s = frameDone f .timeout [] (barDue q f (llMiss (staRadio x (q % 8)) (q / 8) (q % 8)
      (cwLow (staRadio x (q % 8)) (acOfTid (q % 8)) (macCount (staRadio x (q % 8)) (if x.doze then 19 else 3) 1 (setTidQueue q rest s))))) := by
  have hsta : kget (setTidQueue q rest s).mac.sta (q / 8) = some x := hx
  rw [lifetimeExpiry_unclaimed hq hx hfree hqueue, if_neg (by simp [outlived_iff.mpr hold]), if_neg (by simp [hheld]), lifeDrop, hsta, dropMsdu,
    Nat.div_add_mod]

end

/-- An MSDU that outlived its lifetime in a ready furrow is marked there (R206). -/
theorem lifetimeExpiry_claimed {q i : Nat} {x : Sta} {k : Furrow} {s : State} (hq : q < 8192) (hi : i < 3)
    (hx : kget s.mac.sta (q / 8) = some x) (hk : (vget s.sched.radio i).ready = some k) (hc : claimsTid (q / 8) (q % 8) k = true)
    (hold : ∃ g ∈ furrowTid (q / 8) (q % 8) (some k), g.lost = none ∧ outlived (staRadio x (q % 8)) (acOfTid (q % 8)) g s = true)
    (hfree : ∀ j < i, (vget s.sched.radio j).ready = none ∧ (vget s.sched.radio j).building = none) :
    lifetimeExpiry q s = withRs i (fun y => { y with ready := some (markClaimed (q / 8) (q % 8) 0 k) }) s := by
  have hclaims : claimsOld (q / 8) (q % 8) (staRadio x (q % 8)) s (vget s.sched.radio i).ready = true := hk ▸ claimsOld_some hc hold
  have hfind : ((List.range 3).find? fun i => claimsOld (q / 8) (q % 8) (staRadio x (q % 8)) s (vget s.sched.radio i).ready ||
      claimsOld (q / 8) (q % 8) (staRadio x (q % 8)) s (vget s.sched.radio i).building) = some i := by
    refine List.find?_range_eq_some.mpr ⟨by simp [hclaims], List.mem_range.mpr hi, fun j hj => ?_⟩
    obtain ⟨hready, hbuilding⟩ := hfree j hj
    simp [hready, hbuilding, claimsOld_none]
  rw [lifetimeExpiry_sta hq hx]
  dsimp only
  rw [hfind]
  exact (if_pos hclaims).trans (withRs_congr (by rw [hk]; rfl))

theorem lifetimeExpiry_group {q : Nat} {f : Frame} {rest : List Frame} {s : State} (hq : 8192 ≤ q)
    (hheld : (vget s.mac.bss ((q - 8192) / 4)).held = false) (hqueue : groupQueue (q - 8192) s = f :: rest)
    (hold : f.enq + vget (vget s.mac.radio (bssRadio ((q - 8192) / 4))).lifeMs ((q - 8192) % 4) * 1000000 < tbTotal 2 s) :
    lifetimeExpiry q s = frameDone f .timeout [] (cwLow (bssRadio ((q - 8192) / 4)) ((q - 8192) % 4)
      (macCount (bssRadio ((q - 8192) / 4)) 3 1 (setGroupQueue (q - 8192) rest s))) := by
  unfold lifetimeExpiry
  rw [if_pos hq]
  simp only [hqueue, hheld, outlived_iff.mpr hold, Bool.not_true, Bool.false_eq_true, if_false, lifetimeStatus]

/-! Urgency and deadlines. -/

theorem half_ne_zero {t : Nat} (h : t ≠ 0) : t * 50000 ≠ 0 := Nat.mul_ne_zero h (by decide)

theorem llUrgent_down {q : Nat} {x : Sta} {f : Frame} {l : List Frame} {s : State} (hx : kget s.mac.sta (q / 8) = some x)
    (ht : vget x.tll (q % 8) ≠ 0) (hqueue : tidQueue q s = f :: l) (hdue : f.enq + vget x.tll (q % 8) * 50000 ≤ tbTotal 2 s) :
    llUrgent false q s = withSched (fun c => { c with urgent := kset c.urgent q f.enq }) s := by
  simp only [llUrgent, hx, hqueue, half_ne_zero ht, if_false, Bool.false_eq_true, ge_iff_le, hdue, if_true]

theorem llUrgent_up {q d : Nat} {x : Sta} {s : State} (hd : 0 < d) (hx : kget s.mac.sta (q / 8) = some x) (ht : vget x.tll (q % 8) ≠ 0)
    (hdemand : vget x.demand (acOfTid (q % 8)) = some d)
    (hknown : s.now < vget x.demandAt (acOfTid (q % 8)) + (vget s.sched.radio (staRadio x (q % 8))).bsrMaxAge * 500000)
    (hdue : vget x.lastUlRu (q % 8) + vget x.tll (q % 8) * 50000 ≤ tbTotal 2 s) :
    llUrgent true q s = withSta (q / 8) (fun x => { x with ulUrgent := maskOf ((List.range 8).map fun i => bit x.ulUrgent i || i == q % 8) }) s := by
  have hask : (demandKnown (staRadio x (q % 8)) x s (acOfTid (q % 8)) && (vget x.demand (acOfTid (q % 8))).getD 0 > 0 &&
      tbTotal 2 s ≥ vget x.lastUlRu (q % 8) + vget x.tll (q % 8) * 50000) = true := by
    simp [demandKnown, hdemand, hknown, hd, hdue]
  simp only [llUrgent, hx, half_ne_zero ht, if_false, if_true]
  exact if_pos hask

theorem llUrgent_off {up : Bool} {q : Nat} {x : Sta} {s : State} (hx : kget s.mac.sta (q / 8) = some x) (ht : vget x.tll (q % 8) = 0) :
    llUrgent up q s = s := by
  simp only [llUrgent, hx, ht, Nat.zero_mul, if_true]

theorem llDeadline_up {q : Nat} {x : Sta} {s : State} (hx : kget s.mac.sta (q / 8) = some x) (hurgent : bit x.ulUrgent (q % 8) = true)
    (hmissed : bit x.ulMissed (q % 8) = false) (ht : 0 < vget x.tll (q % 8))
    (hdue : vget x.lastUlRu (q % 8) + vget x.tll (q % 8) * 100000 ≤ tbTotal 2 s) :
    llDeadline true q s = schedCount (staRadio x (q % 8)) 13 1 (withSta (q / 8) (fun x => { x with
      ulMissed := maskOf ((List.range 8).map fun i => bit x.ulMissed i || i == q % 8) }) s) := by
  simp only [llDeadline, hx]
  exact if_pos (by simp [hurgent, hmissed, ht, hdue])

theorem llDeadline_down {q : Nat} {x : Sta} {s : State} (hx : kget s.mac.sta (q / 8) = some x) : llDeadline false q s = s := by
  simp only [llDeadline, hx, Bool.false_and, Bool.false_eq_true, if_false]

theorem withSta_none {n : Nat} {f : Sta → Sta} {s : State} (h : kget s.mac.sta n = none) : withSta n f s = s :=
  congrArg (fun m => { s with mac := { s.mac with sta := m } }) (kmod_absent f h)

theorem withSta_get {n : Nat} {x : Sta} {s : State} (f : Sta → Sta) (h : kget s.mac.sta n = some x) :
    kget (withSta n f s).mac.sta n = some (f x) := kget_kmod_same f h

theorem withSta_get_other {n m : Nat} (f : Sta → Sta) (s : State) (h : m ≠ n) : kget (withSta n f s).mac.sta m = kget s.mac.sta m :=
  kget_kmod_other f h

/-- The station's hold after the instant it may end at. -/
def holdEnded (now : Nat) (x : Sta) : Sta := if x.ulHold && x.ulHoldTill ≤ now then { x with ulHold := false, ulPoll := true } else x

theorem holdEnded_eq (now : Nat) (x : Sta) :
    holdEnded now x = if x.ulHold = true ∧ x.ulHoldTill ≤ now then { x with ulHold := false, ulPoll := true } else x := by
  simp only [holdEnded, Bool.and_eq_true, decide_eq_true_eq]

/-- Settles O35: each event by the equation of its case. -/
theorem latencyEventsTakeEffect : Obligations.LatencyEventsTakeEffect := by
  unfold Obligations.LatencyEventsTakeEffect
  refine ⟨fun q x f rest hq => ⟨does (fun _ => rfl) fun s ⟨⟨hx, hqueue, hfree⟩, hold, hheld⟩ => lifetimeExpiry_old hq hx hfree hqueue hold hheld,
      does (fun _ => rfl) fun s ⟨⟨hx, hqueue, hfree⟩, hold⟩ => lifetimeExpiry_young hq hx hfree hqueue hold⟩,
    fun q x hq i hi k => does (fun _ => rfl) fun s ⟨hx, hk, hc, hold, hfree⟩ => lifetimeExpiry_claimed hq hi hx hk hc hold hfree,
    fun q f rest hq => does (fun _ => rfl) fun s ⟨hheld, hqueue, hold⟩ => lifetimeExpiry_group hq hheld hqueue hold,
    fun q x => ⟨fun f l => does (fun _ => rfl) fun s ⟨hx, ht, hqueue, hdue⟩ => llUrgent_down hx ht hqueue hdue,
      fun d hd => does (fun _ => rfl) fun s ⟨hx, ht, hdemand, hknown, hdue⟩ => llUrgent_up hd hx ht hdemand hknown hdue,
      fun up => does (fun _ => rfl) fun s h => llUrgent_off h.1 h.2,
      does (fun _ => rfl) fun s ⟨hx, hurgent, hmissed, ht, hdue⟩ => llDeadline_up hx hurgent hmissed ht hdue,
      does (fun _ => rfl) fun s h => llDeadline_down h⟩,
    fun n x s hlive hx => gives_live (f := fun s => withSta n (holdEnded s.now) s) (fun _ => rfl) hlive
      ⟨(withSta_get _ hx).trans (congrArg some (holdEnded_eq _ x)), fun m hm => withSta_get_other _ s hm, rfl⟩,
    fun n => does (fun _ => rfl) fun s h => withSta_none h⟩

end Sys2Proof.Machine
end

section
/-!
SUPPORT. Furrows, sounding, channel records, calibration and groups.
-/
namespace Sys2Proof.Machine
open Sys2Proof

/-! Furrows. -/

theorem residue_match (code : Nat) (s : State) : residue code 0 s = s := if_pos rfl

theorem furrowStart_clean {r : Nat} {coord : Bool} {s : State} (h : partFenced (0x18 + r) s = false) :
    furrowStart r coord 0 0 s = furrowBuild r coord s := by
  simp only [furrowStart, residue_match, beq_self_eq_true, if_true, ite_self, h, Bool.false_eq_true, if_false]

theorem furrowBuild_busy {r : Nat} {coord : Bool} {s : State}
    (h : (vget s.sched.radio r).building ≠ none ∨ (vget s.sched.radio r).ready ≠ none ∨ (vget s.fe r).state = .off) :
    furrowBuild r coord s = s := by
  refine if_pos ?_
  obtain h | h | h := h
  · simp [Option.isSome_iff_ne_none.mpr h]
  · simp [Option.isSome_iff_ne_none.mpr h]
  · simp [h]

/-- A group queue goes first: its furrow is built. -/
theorem furrowBuild_group {r pa b q : Nat} {s : State} (hb : (vget s.sched.radio r).building = none) (hr : (vget s.sched.radio r).ready = none)
    (hfe : (vget s.fe r).state ≠ .off) (hplan : planAc (offers r (rebase r s)) (groupOffers r (rebase r s)) = some pa)
    (hbss : chooseBss r pa (offers r (rebase r s)) (groupOffers r (rebase r s)) (rebase r s) = some b)
    (hfirst : groupFirst r pa b (groupOffers r (rebase r s)) (ranked r pa b (offers r (rebase r s)) (rebase r s)) (rebase r s) = some q) :
    furrowBuild r false s = withRs r (fun k => { k with
      building := some (buildGroup r q (rebase r s)).1, number := k.number + 1
      zeroNext := if (vget (rebase r s).mac.bss b).share = 0 then b - 16 * r + 1 else k.zeroNext }) (buildGroup r q (rebase r s)).2 := by
  have hfree : ((vget s.sched.radio r).building.isSome || (vget s.sched.radio r).ready.isSome || (vget s.fe r).state == .off) = false := by
    simp [hb, hr, hfe]
  unfold furrowBuild
  dsimp only
  rw [if_neg (Bool.eq_false_iff.mp hfree)]
  simp only [Bool.false_eq_true, if_false, hplan, hbss, hfirst]
  exact withRs_withRs _ _ _ _

theorem furrowReady_none {r ns : Nat} {s : State} (h : (vget s.sched.radio r).building = none) : furrowReady r ns s = s := by
  simp only [furrowReady, h]

theorem furrowReady_some {r ns : Nat} {f : Furrow} {s : State} (h : (vget s.sched.radio r).building = some f)
    (hair : ∀ j ∈ s.sec.jobs, j.kind = .txAir → j.unit ≠ r) : furrowReady r ns s = hlDiscard r (bfCount r 9 f.pre.length
      (withRs r (fun k => { k with building := none, ready := some { f with build := ns }, discarded := false }) s)) := by
  unfold furrowReady
  dsimp only
  rw [h]
  exact if_neg (by simpa using hair)

/-! Sounding and channel records. -/

theorem soundingFeedback_unasked {r n : Nat} {fb : Option CsiIn} {s : State} (h : kget (vget s.bf.radio r).sounded n = none) :
    soundingFeedback r n fb s = s := by
  simp only [soundingFeedback, h]

/-- The feedback is what was asked for (R245). -/
def asAsked (r : Nat) (ask : Nat × Nat) (s : State) (c : CsiIn) : Bool :=
  c.ng == ask.1 && c.rank ≤ ask.2 && c.rows == min 8 (liveChains r s)

theorem asAsked_iff {r : Nat} {ask : Nat × Nat} {s : State} {c : CsiIn} :
    asAsked r ask s c = true ↔ c.ng = ask.1 ∧ c.rank ≤ ask.2 ∧ c.rows = min 8 (liveChains r s) := by
  simp only [asAsked, Bool.and_eq_true, beq_iff_eq, decide_eq_true_eq, and_assoc]

theorem soundingFeedback_asked {r n : Nat} {c : CsiIn} {ask : Nat × Nat} {s : State} (h : kget (vget s.bf.radio r).sounded n = some ask)
    (hc : asAsked r ask s c = true) : soundingFeedback r n (some c) s =
      let b := vget s.bf.radio r
      let m := makeCsi r 0 c (kget (vget s.bf.explicit r) n) b.ndpS b.ndpNs (withRb r (fun b => { b with sounded := kdel b.sounded n }) s)
      bfCount r 2 1 (withSta n (fun x => { x with rate := vmod x.rate r fun y => { y with sndFail := 0 } })
        (withBf (fun x => { x with explicit := vmod x.explicit r fun k => kset k n m.1 }) m.2)) := by
  have hkept : ((some c).filter fun c => c.ng == ask.1 && c.rank ≤ ask.2 && c.rows == min 8 (liveChains r s)) = some c := if_pos hc
  simp only [soundingFeedback, h, hkept]

theorem soundingFeedback_lost {r n : Nat} {fb : Option CsiIn} {ask : Nat × Nat} {s : State} (h : kget (vget s.bf.radio r).sounded n = some ask)
    (hfb : ∀ c, fb = some c → asAsked r ask s c = false) : soundingFeedback r n fb s =
      bfCount r 3 1 (withSta n (fun x => { x with rate := vmod x.rate r fun y =>
        if y.sndFail + 1 ≥ 2 then { y with sndFail := 0, sndHold := s.now + 250000000 } else { y with sndFail := y.sndFail + 1 } })
        (withRb r (fun b => { b with sounded := kdel b.sounded n }) s)) := by
  have hlost : (fb.filter fun c => c.ng == ask.1 && c.rank ≤ ask.2 && c.rows == min 8 (liveChains r s)) = none := by
    refine Option.filter_eq_none_iff.mpr fun c hc => ?_
    exact Bool.eq_false_iff.mp (hfb c hc)
  simp only [soundingFeedback, h, hlost]

theorem csiPassed_due {r : Nat} {c : Csi} {s : State} (haged : c.aged = false) (hdue : c.capS * 10 ^ 9 + c.capNs + csiAge r c s ≤ tbTotal 2 s) :
    csiPassed r c s = true := by
  simp only [csiPassed, haged, Bool.not_false, Bool.true_and, ge_iff_le, decide_eq_true_eq]
  exact hdue

section
variable {r i : Nat} {c : Csi} {s : State} (hdue : csiPassed r c s = true)
include hdue

theorem csiExpired_explicit (h : kget (vget s.bf.explicit r) i = some c) : csiExpired r 0 i s =
    bfCount r 8 1 (withBf (fun b => { b with explicit := vmod b.explicit r fun m => kmod m i fun c => { c with aged := true } }) s) := by
  simp only [csiExpired, h, hdue, if_true]

theorem csiExpired_recip (h : kget (vget s.bf.recip r) i = some c) : csiExpired r 1 i s =
    bfCount r 8 1 (withBf (fun b => { b with recip := vmod b.recip r fun m => kmod m i fun c => { c with aged := true } }) s) := by
  simp only [csiExpired, h, hdue, if_true]

theorem csiExpired_overheard (h : (vget s.bf.overheard r)[i]? = some c) : csiExpired r 2 i s =
    bfCount r 8 1 (withBf (fun b => { b with overheard := vmod b.overheard r fun l => l.set i { c with aged := true } }) s) := by
  simp only [csiExpired, h, hdue, if_true]
end

/-! Reciprocity calibration. -/

theorem recipRequest_never {r : Nat} {s : State} (h : (vget s.bf.radio r).endAt = none) : recipRequest r s = s := by
  simp only [recipRequest, h]

section
variable {r t : Nat} {s : State} (h : (vget s.bf.radio r).endAt = some t)
include h

theorem recipRequest_at : recipRequest r s =
    if s.now ≥ t + 30000000000 then recipStale r s else if s.now ≥ t + 25000000000 then withRb r (pendRecip s) s else s := by
  simp only [recipRequest, h]

theorem recipRequest_fresh (hnow : s.now < t + 25000000000) : recipRequest r s = s :=
  (recipRequest_at h).trans ((if_neg (by omega)).trans (if_neg (by omega)))

theorem recipRequest_pends (h25 : t + 25000000000 ≤ s.now) (h30 : s.now < t + 30000000000) : recipRequest r s =
    withRb r (fun b => { b with pending := b.reciprocity, pendAt := if b.pending then b.pendAt else s.now }) s :=
  (recipRequest_at h).trans ((if_neg (by omega)).trans (if_pos h25))

theorem recipRequest_stale (h30 : t + 30000000000 ≤ s.now) : recipRequest r s = recipStale r s := (recipRequest_at h).trans (if_pos h30)
end

theorem quietRadio_of_recip {r : Nat} {s : State} (h : recipMayStart r s = true) : quietRadio r s = true := by
  simp only [recipMayStart, Bool.and_eq_true] at h
  exact h.1.1.2

/-- RECIP_CAL_START: the calibration runs once it may. -/
def recipStart (r : Nat) (s : State) : State := if recipMayStart r s && calMayStart r s then recipRun r s else s

/-- RECAL_FORCED: the TXOP is given up for a calibration that is due. -/
def recipForce (r : Nat) (s : State) : State :=
  if recipMayStart r s && recalDue r s then bfCount r 5 1 (recipRun r (giveUpTxop r s)) else s

theorem recipStart_runs {r : Nat} {s : State} (h : recipMayStart r s = true) (hheld : (vget s.fe r).txopHeld = false) (hsoon : dueSoon r s = false) :
    recipStart r s = recipRun r s :=
  if_pos (by simp [h, calMayStart, quietRadio_of_recip h, hheld, hsoon])

theorem recipStart_waits {r : Nat} {s : State} (h : recipMayStart r s = false ∨ (vget s.fe r).txopHeld = true ∨ dueSoon r s = true) :
    recipStart r s = s := by
  refine if_neg ?_
  obtain h | h | h := h <;> simp [h, calMayStart]

theorem recalDue_iff {r : Nat} {s : State} :
    recalDue r s = true ↔ (vget s.bf.radio r).forced = true ∨ (vget s.bf.radio r).pendAt + 50000000 ≤ s.now := by
  simp only [recalDue, Bool.or_eq_true, decide_eq_true_eq]

theorem recipForce_runs {r : Nat} {s : State} (h : recipMayStart r s = true)
    (hdue : (vget s.bf.radio r).forced = true ∨ (vget s.bf.radio r).pendAt + 50000000 ≤ s.now) :
    recipForce r s = bfCount r 5 1 (recipRun r (giveUpTxop r s)) := if_pos (by simp [h, recalDue_iff.mpr hdue])

theorem recipForce_waits {r : Nat} {s : State}
    (h : recipMayStart r s = false ∨ (vget s.bf.radio r).forced = false ∧ s.now < (vget s.bf.radio r).pendAt + 50000000) :
    recipForce r s = s := by
  refine if_neg ?_
  obtain h | ⟨hforced, hnow⟩ := h
  · simp [h]
  · simp [recalDue, hforced, hnow]

theorem recipEnd_early {r : Nat} {loops : List (List Loopback)} {s : State}
    (h : (vget s.bf.radio r).running = false ∨ s.now < (vget s.bf.radio r).startAt + (if r = 0 then 30000 else 60000)) : recipEnd r loops s = s := by
  refine if_pos ?_
  obtain h | h := h <;> simp [h]

theorem recipEnd_done {r : Nat} {loops : List (List Loopback)} {s : State} (hrun : (vget s.bf.radio r).running = true)
    (hcmds : (vget s.bf.radio r).cmds = []) (hnow : (vget s.bf.radio r).startAt + (if r = 0 then 30000 else 60000) ≤ s.now) :
    recipEnd r loops s =
      let off := vget (vget s.bf.radio r).femRecip (segUse r (vget s.fe r))
      let act := chainList (chainMask r s)
      let corr := (List.range (min act.length loops.length)).map fun i =>
        (act.getD i 0, corrections (loops.getD i []) (Config.polar (vget off (act.getD i 0)).1 (vget off (act.getD i 0)).2))
      settle r (bfCount r 4 1 (strikeGroups r (·.recip) (withRb r (fun b => { b with
        running := false, stale := false, pending := false, endAt := some s.now, corr := corr, cmds := [] }) s))) := by
  have hgo : (!(vget s.bf.radio r).running || decide (s.now < (vget s.bf.radio r).startAt + (if r = 0 then 30000 else 60000))) = false := by
    simp only [hrun, Bool.not_true, Bool.false_or, decide_eq_false_iff_not, Nat.not_lt]
    exact hnow
  unfold recipEnd
  dsimp only
  rw [if_neg (Bool.eq_false_iff.mp hgo), hcmds]
  rfl

/-! Groups. -/

theorem groupRebuild_not {r b : Nat} {s : State} (h : bssRadio b ≠ r ∨ (vget s.sched.radio r).muMimo = false ∨ rebuildDue r b s = false) :
    groupRebuild r b s = s := if_pos h

theorem groupRebuild_empty {r b : Nat} {s : State} (hr : bssRadio b = r) (hmu : (vget s.sched.radio r).muMimo = true)
    (hdue : rebuildDue r b s = true) (hsta : staOfBss b s = []) : groupRebuild r b s = bfCount r 11 0 (withRb r (fun x => { x with
      groups := (vget s.bf.radio r).groups.filter fun p => p.2.bss != b, groupAt := kset x.groupAt b s.now }) s) := by
  have hcands : groupCands r b s = [] := by simp only [groupCands, hsta, List.filterMap_nil]
  unfold groupRebuild
  rw [if_neg (by simp [hr, hmu, hdue]), hcands]
  simp only [makeGroups, List.length_nil, List.filter_nil, List.map_nil, List.foldl_nil, Nat.sub_self]

/-- Settles O36: each event by the equation of its case. -/
theorem furrowAndSoundingEventsTakeEffect : Obligations.FurrowAndSoundingEventsTakeEffect := by
  unfold Obligations.FurrowAndSoundingEventsTakeEffect
  intro r n
  subst n
  refine ⟨fun coord => builminDoes (fun _ => rfl) fun s h => (furrowStart_clean h.1).trans (furrowBuild_busy h.2),
    fun pa b q => builminDoes (fun _ => rfl) fun s ⟨hpart, hb, hr, hfe, hplan, hbss, hfirst⟩ =>
      (furrowStart_clean hpart).trans (furrowBuild_group hb hr hfe hplan hbss hfirst),
    fun ns f => builminDoes (fun _ => rfl) fun s h => furrowReady_some h.1 h.2, fun ns => builminDoes (fun _ => rfl) fun s h => furrowReady_none h,
    fun sta c ask => builminDoes (fun _ => rfl) fun s h => soundingFeedback_asked h.1 (asAsked_iff.mpr h.2),
    fun sta fb ask => builminDoes (fun _ => rfl) fun s h => soundingFeedback_lost h.1 ?lost,
    fun sta fb => builminDoes (fun _ => rfl) fun s h => soundingFeedback_unasked h,
    fun i c => does (fun _ => rfl) fun s h => csiExpired_explicit (csiPassed_due h.2.1 h.2.2) h.1,
    fun i c => does (fun _ => rfl) fun s h => csiExpired_recip (csiPassed_due h.2.1 h.2.2) h.1,
    fun i c => does (fun _ => rfl) fun s h => csiExpired_overheard (csiPassed_due h.2.1 h.2.2) h.1,
    builminDoes (fun _ => rfl) fun s h => recipRequest_never h, fun t => builminDoes (fun _ => rfl) fun s h => recipRequest_fresh h.1 h.2,
    fun t => builminDoes (fun _ => rfl) fun s h => recipRequest_pends h.1 h.2.1 h.2.2,
    fun t => builminDoes (fun _ => rfl) fun s h => recipRequest_stale h.1 h.2,
    ⟨does (f := recipStart (rnum r)) (fun _ => rfl) fun s h => recipStart_runs h.1 h.2.1 h.2.2,
      does (f := recipStart (rnum r)) (fun _ => rfl) fun s h => recipStart_waits h,
      does (f := recipForce (rnum r)) (fun _ => rfl) fun s h => recipForce_runs h.1 h.2,
      does (f := recipForce (rnum r)) (fun _ => rfl) fun s h => recipForce_waits h⟩,
    fun loops => does (fun _ => rfl) fun s h => recipEnd_early (.inl h), fun loops => does (fun _ => rfl) fun s h => recipEnd_early (.inr h),
    fun loops => does (fun _ => rfl) fun s h => recipEnd_done h.1 h.2.1 h.2.2,
    fun b => builminDoes (fun _ => rfl) fun s h => groupRebuild_not h,
    fun b => builminDoes (fun _ => rfl) fun s ⟨hr, hmu, hdue, hsta⟩ => groupRebuild_empty hr hmu hdue hsta⟩
  case lost =>
    intro c hc
    refine Bool.eq_false_iff.mpr fun hasked => ?_
    obtain ⟨hng, hrank, hrows⟩ := asAsked_iff.mp hasked
    obtain hne | hlt | hne := h.2 c hc
    · exact hne hng
    · exact Nat.not_lt.mpr hrank hlt
    · exact hne hrows

end Sys2Proof.Machine
end

section
/-!
SUPPORT. What leaves the rope as it stands, and the checks of a Kennar frame.
-/
namespace Sys2Proof.Machine
open Sys2Proof

/-! Rules on what leaves the rope as it stands. -/

theorem foldl_rope {α : Type} {f : State → α → State} (h : ∀ s a, (f s a).rope = s.rope) (l : List α) (s : State) : (l.foldl f s).rope = s.rope := by
  induction l generalizing s with
  | nil => rfl
  | cons a l ih => exact (ih _).trans (h s a)

theorem foldr_rope {α : Type} {f : α → State → State} (h : ∀ a s, (f a s).rope = s.rope) (l : List α) (s : State) : (l.foldr f s).rope = s.rope := by
  induction l with
  | nil => rfl
  | cons a l ih => exact (h a _).trans ih

@[simp] theorem portCount_rope (p i k : Nat) (s : State) : (portCount p i k s).rope = s.rope := rfl
@[simp] theorem timeCount_rope (i k : Nat) (s : State) : (timeCount i k s).rope = s.rope := rfl
@[simp] theorem macCount_rope (r i k : Nat) (s : State) : (macCount r i k s).rope = s.rope := rfl
@[simp] theorem schedCount_rope (r i k : Nat) (s : State) : (schedCount r i k s).rope = s.rope := rfl
@[simp] theorem setTidQueue_rope (q : Nat) (l : List Frame) (s : State) : (setTidQueue q l s).rope = s.rope := rfl
@[simp] theorem setGroupQueue_rope (q : Nat) (l : List Frame) (s : State) : (setGroupQueue q l s).rope = s.rope := rfl
@[simp] theorem cwLow_rope (r a : Nat) (s : State) : (cwLow r a s).rope = s.rope := rfl
@[simp] theorem secCount_rope (i k : Nat) (s : State) : (secCount i k s).rope = s.rope := rfl

@[simp] theorem raise_rope (n : EvName) (inst : Nat) (data : List Byte) (s : State) : (raise n inst data s).rope = s.rope :=
  show (offHost (raise n inst data s)).rope = (offHost s).rope from congrArg State.rope (raise_offHost n inst data s)

@[simp] theorem hostWrite_rope (addr : Nat) (b : List Byte) (s : State) : (hostWrite addr b s).rope = s.rope :=
  show (offHost (hostWrite addr b s)).rope = (offHost s).rope from congrArg State.rope (hostWrite_offHost addr b s)

@[simp] theorem signalEntry_rope (src : Nat) (s : State) : (signalEntry src s).rope = s.rope :=
  show (offHost (signalEntry src s)).rope = (offHost s).rope from congrArg State.rope (signalEntry_offHost src s)

@[simp] theorem writeTxStatus_rope (n : Nat) (st : Status) (stamp : Nat) (c : BitVec 16) (s : State) : (writeTxStatus n st stamp c s).rope = s.rope := by
  simp only [writeTxStatus, signalEntry_rope, hostWrite_rope]

@[simp] theorem advanceCons_rope (n : Nat) (s : State) : (advanceCons n s).rope = s.rope := rfl

@[simp] theorem completeTx_rope (n id : Nat) (st : Status) (stamp : Nat) (s : State) : (completeTx n id st stamp s).rope = s.rope := by
  unfold completeTx
  split
  · rfl
  · split
    · rfl
    · simp only [advanceCons_rope, withHtx_rope]
      exact foldl_rope (fun s k => writeTxStatus_rope _ _ _ _ s) _ s

@[simp] theorem frameDone_rope (f : Frame) (st : Status) (stamps : List Nat) (s : State) : (frameDone f st stamps s).rope = s.rope := by
  unfold frameDone
  split
  · exact completeTx_rope _ _ _ _ _
  · rfl

@[simp] theorem llMiss_rope (r n tid : Nat) (s : State) : (llMiss r n tid s).rope = s.rope := by
  unfold llMiss
  split
  · split <;> rfl
  · rfl

@[simp] theorem barDue_rope (q : Nat) (f : Frame) (s : State) : (barDue q f s).rope = s.rope := by
  unfold barDue
  split
  · rfl
  · split <;> rfl

@[simp] theorem dropMsdu_rope (r n tid : Nat) (st : Status) (f : Frame) (s : State) : (dropMsdu r n tid st f s).rope = s.rope := by
  simp only [dropMsdu, frameDone_rope, barDue_rope, llMiss_rope]

@[simp] theorem lifeDrop_rope (r n tid : Nat) (f : Frame) (s : State) : (lifeDrop r n tid f s).rope = s.rope := by
  simp only [lifeDrop, dropMsdu_rope, cwLow_rope, macCount_rope]

@[simp] theorem dropLost_rope (r n : Nat) (p : Nat × Frame) (s : State) : (dropLost r n p s).rope = s.rope := by
  unfold dropLost
  split <;> simp only [lifeDrop_rope, dropMsdu_rope, schedCount_rope, macCount_rope]

@[simp] theorem unclaim_rope (r : Nat) (queue : Option Nat) (u : FUser) (s : State) : (unclaim r queue u s).rope = s.rope := by
  refine foldr_rope (fun p t => ?_) _ s
  split
  · exact dropLost_rope _ _ _ _
  · split <;> rfl

@[simp] theorem unclaimFurrow_rope (r : Nat) (f : Furrow) (s : State) : (unclaimFurrow r f s).rope = s.rope :=
  foldl_rope (fun t u => unclaim_rope r f.queue u t) _ s

@[simp] theorem furrowDrop_rope (r : Nat) (s : State) : (furrowDrop r s).rope = s.rope := by
  unfold furrowDrop
  dsimp only
  split <;> split <;> simp only [schedCount_rope, withRs_rope, unclaimFurrow_rope]

@[simp] theorem leaveCoord_rope (s : State) : (leaveCoord s).rope = s.rope := by
  refine (foldl_rope (fun t r => ?_) _ _).trans (withSeed_rope _ s)
  dsimp only
  split
  · rw [furrowDrop_rope, withRs_rope]
  · rfl

/-! Packet numbers and the ports. -/

@[simp] theorem holdTargets_rope (k : Nat) (s : State) : (holdTargets k s).rope = s.rope := rfl

@[simp] theorem pnCheck_rope (k : Nat) (s : State) : (pnCheck k s).rope = s.rope := by
  unfold pnCheck
  split
  · rfl
  · dsimp only
    split <;> split <;> simp only [holdTargets_rope, raise_rope, secCount_rope, withSlot_rope]

@[simp] theorem takePn_rope (k : Nat) (s : State) : (takePn k s).2.rope = s.rope := by
  unfold takePn
  split
  · rfl
  · split
    · rfl
    · rw [pnCheck_rope, withSlot_rope]

@[simp] theorem knPort_rope (len : Nat) (s : State) (p : Nat) : (knPort len s p).rope = s.rope := by
  unfold knPort
  split
  · rfl
  · split
    · rfl
    · split
      · rfl
      · next sa _ =>
        split
        · next h => rw [portCount_rope, portCount_rope, portCount_rope, secCount_rope, ← takePn_rope sa.slot s, h]
        · next h => rw [secCount_rope, ← takePn_rope sa.slot s, h]

/-- Sending a frame takes a counter of the rope, and counts; the rest of the rope stands. -/
theorem knSendOn_rope {β : Type} (p : Rope → β) (hp : ∀ x c k, p { x with counter := c, ctr := k } = p x) (ports type dst scope : Nat)
    (payload : List Byte) (s : State) : p (knSendOn ports type dst scope payload s).rope = p s.rope := by
  have hsent : (((List.range 2).filter (bit ports)).foldl (knPort (knLen payload s)) s).rope = s.rope := foldl_rope (fun s q => knPort_rope _ s q) _ s
  have hcount (x : Rope) (c : Nat) : p { x with counter := c } = p x := hp x c x.ctr
  unfold knSendOn
  dsimp only
  generalize ((List.range 2).filter (bit ports)).foldl (knPort (knLen payload s)) s = t at hsent ⊢
  split
  · exact (hcount t.rope _).trans (congrArg p hsent)
  · exact (hp t.rope _ _).trans (congrArg p hsent)

@[simp] theorem fallowSend_rope (p type target seq : Nat) (s : State) : (fallowSend p type target seq s).rope = s.rope := rfl

@[simp] theorem stepRequest_rope (p target : Nat) (s : State) : (stepRequest p target s).rope = s.rope := by
  unfold stepRequest
  dsimp only
  split <;> rfl

@[simp] theorem pitchStart_rope (p : Nat) (s : State) : (pitchStart p s).rope = s.rope := by
  unfold pitchStart
  split
  · exact stepRequest_rope _ _ _
  · rfl

@[simp] theorem syncPitch_rope (s : State) : (syncPitch s).rope = s.rope := by
  refine foldl_rope (fun t p => ?_) _ s
  dsimp only
  split
  · rfl
  · exact pitchStart_rope _ _

/-! Time bases. -/

@[simp] theorem popLaunch_rope (unit : Nat) (s : State) : (popLaunch unit s).rope = s.rope := by
  unfold popLaunch
  split <;> rfl

@[simp] theorem launchLate_rope (unit : Nat) (f : Frame) (s : State) : (launchLate unit f s).rope = s.rope := by
  unfold launchLate
  dsimp only
  split
  · split <;> simp only [timeCount_rope, withPort_rope, withRm_rope, popLaunch_rope]
  · simp only [frameDone_rope, timeCount_rope, popLaunch_rope]

@[simp] theorem rejudge_rope (n : Nat) (s : State) : (rejudge n s).rope = s.rope := by
  refine foldl_rope (fun t u => ?_) _ s
  dsimp only
  split
  · split
    · split
      · rfl
      · rw [launchLate_rope, timeCount_rope]
    · rfl
  · rfl

@[simp] theorem enterFreeRun_rope (n cause : Nat) (s : State) : (enterFreeRun n cause s).rope = s.rope := by
  unfold enterFreeRun
  dsimp only
  split
  · rfl
  · rw [raise_rope, timeCount_rope, withTb_rope]

theorem followSource_rope (s : State) : (followSource s).rope = s.rope := by
  unfold followSource
  split <;> rfl

/-! The checks of a Kennar frame. -/

theorem knCheck_out {f : KnFrame} {s : State} (o fr : Bool) (h : s.rope.role = .none) : knCheck f o fr s = (false, s) := if_pos h

section
variable {f : KnFrame} {s : State} {o fr : Bool} (hrole : s.rope.role ≠ .none)
include hrole

theorem knCheck_misfit (h : f.version ≠ 1 ∨ f.rope ≠ s.rope.id ∨ f.fits = false) : knCheck f o fr s = (false, ropeCount 2 1 s) :=
  (if_neg hrole).trans (if_pos (by simpa using h))

variable (hver : f.version = 1) (hid : f.rope = s.rope.id) (hfits : f.fits = true)
include hver hid hfits

theorem knCheck_stranger (ho : o = false) (hm : (memberOf f.src s).map (·.epoch) ≠ some f.epoch) :
    knCheck f o fr s = (false, ropeCount 3 1 s) :=
  (if_neg hrole).trans ((if_neg (by simp [hver, hid, hfits])).trans (if_pos (by simp [ho, hm])))

variable (hknown : o = true ∨ (memberOf f.src s).map (·.epoch) = some f.epoch)
include hknown

omit hrole hver hid hfits hknown in
theorem winOf_knKey : winOf f (knKey f s) = winOf f s := by
  have hwin : (knKey f s).rope.win = s.rope.win := by
    unfold knKey
    dsimp only
    split <;> rfl
  unfold winOf
  rw [hwin]

/-- Past the checks of the sender: its key is at hand. -/
theorem knCheck_keyed : knCheck f o fr s =
    if !f.tagOk || !phaseKey f.phase s then (false, ropeCount 4 1 (knKey f s))
    else if f.counter + 63 < (winOf f s).high then (false, ropeCount 5 1 (knKey f s))
    else if f.counter ≤ (winOf f s).high ∧ (winOf f s).seen.contains f.counter then (false, ropeCount 6 1 (knKey f s))
    else if !fr then
      (false, ropeCount 5 1 (withRope (fun x => { x with win := kset x.win f.src.val (winAccept f.counter (winOf f s)) }) (knKey f s)))
    else (true, ropeCount 1 1 (withRope (fun x => { x with win := kset x.win f.src.val (winAccept f.counter (winOf f s)) }) (knKey f s))) := by
  have hopen : ¬ (!o && ((memberOf f.src.val s).map (·.epoch)) != some f.epoch) = true := by
    obtain h | h := hknown <;> simp [h]
  refine (if_neg hrole).trans ((if_neg (by simp [hver, hid, hfits])).trans ((if_neg hopen).trans ?_))
  dsimp only
  rw [winOf_knKey]

theorem knCheck_forged (h : f.tagOk = false ∨ phaseKey f.phase s = false) : knCheck f o fr s = (false, ropeCount 4 1 (knKey f s)) :=
  (knCheck_keyed hrole hver hid hfits hknown).trans (if_pos (by simpa using h))

variable (htag : f.tagOk = true) (hkey : phaseKey f.phase s = true)
include htag hkey

theorem knCheck_old (h : f.counter + 63 < (winOf f s).high) : knCheck f o fr s = (false, ropeCount 5 1 (knKey f s)) :=
  (knCheck_keyed hrole hver hid hfits hknown).trans ((if_neg (by simp [htag, hkey])).trans (if_pos h))

theorem knCheck_replayed (hlow : (winOf f s).high ≤ f.counter + 63) (hhigh : f.counter ≤ (winOf f s).high) (hseen : f.counter ∈ (winOf f s).seen) :
    knCheck f o fr s = (false, ropeCount 6 1 (knKey f s)) :=
  (knCheck_keyed hrole hver hid hfits hknown).trans
    ((if_neg (by simp [htag, hkey])).trans ((if_neg (Nat.not_lt.mpr hlow)).trans (if_pos ⟨hhigh, by simpa using hseen⟩)))

theorem knCheck_new (hlow : (winOf f s).high ≤ f.counter + 63) (hnew : (winOf f s).high < f.counter ∨ f.counter ∉ (winOf f s).seen) :
    knCheck f o fr s = (fr, ropeCount (if fr then 1 else 5) 1
      (withRope (fun x => { x with win := kset x.win f.src (winAccept f.counter (winOf f s)) }) (knKey f s))) := by
  have hfresh : ¬ (f.counter ≤ (winOf f s).high ∧ (winOf f s).seen.contains f.counter = true) := fun ⟨hle, hmem⟩ =>
    hnew.elim (Nat.not_lt.mpr hle) fun h => h (by simpa using hmem)
  rw [knCheck_keyed hrole hver hid hfits hknown, if_neg (by simp [htag, hkey]), if_neg (Nat.not_lt.mpr hlow), if_neg hfresh]
  cases fr <;> rfl

end

/-- Settles O37: the checks one after another. -/
theorem ropeFramesAreChecked : Obligations.RopeFramesAreChecked := by
  unfold Obligations.RopeFramesAreChecked
  exact fun f o fr s => ⟨knCheck_out o fr, fun hrole => ⟨knCheck_misfit hrole, fun hver hid hfits =>
    ⟨knCheck_stranger hrole hver hid hfits, fun hknown => ⟨knCheck_forged hrole hver hid hfits hknown, fun htag hkey =>
      ⟨knCheck_old hrole hver hid hfits hknown htag hkey, knCheck_replayed hrole hver hid hfits hknown htag hkey,
        knCheck_new hrole hver hid hfits hknown htag hkey⟩⟩⟩⟩⟩

end Sys2Proof.Machine
end

section
/-!
SUPPORT. What an accepted rope frame does.
-/
namespace Sys2Proof.Machine
open Sys2Proof

/-! A Kennar frame that passes its checks. -/

/-- The rows of the received frames. -/
theorem hears {i : KnFrame → Instr} {open_ : State → Bool} {run : KnFrame → State → State} {cond : KnFrame → State → Prop}
    {eff : KnFrame → State → State} (hi : ∀ f s, exec (i f) s = whenRunning s (knRx f (open_ s) (run f)))
    (h : ∀ f s, cond f s → run f s = eff f s) : Hears i open_ cond eff := by
  intro f s hacc hc
  obtain ⟨hrun, hpass⟩ := hacc
  rw [hi, whenRunning_running hrun]
  exact congrArg _ ((if_pos hpass).trans (h f _ hc))

/-- What such a row gives. -/
theorem hears_gives {i : KnFrame → Instr} {open_ : State → Bool} {run : KnFrame → State → State} {f : KnFrame} {s : State} {P : State → Prop}
    (hi : exec (i f) s = whenRunning s (knRx f (open_ s) (run f))) (hacc : Accepted open_ f s) (h : P (run f (heard open_ f s))) :
    Gives (i f) s P := by
  obtain ⟨hrun, hpass⟩ := hacc
  refine ⟨_, ?_, h⟩
  rw [hi, whenRunning_running hrun]
  exact congrArg _ (if_pos hpass)

theorem knKey_role (f : KnFrame) (s : State) : (knKey f s).rope.role = s.rope.role := by
  unfold knKey
  dsimp only
  split <;> rfl

theorem knCheck_role (f : KnFrame) (o fr : Bool) (s : State) : (knCheck f o fr s).2.rope.role = s.rope.role := by
  have hkey := knKey_role f s
  unfold knCheck
  split
  · rfl
  · split
    · rfl
    · split
      · rfl
      · dsimp only
        split
        · exact hkey
        · split
          · exact hkey
          · split
            · exact hkey
            · split <;> exact hkey

/-! Joining. -/

theorem not_used {f : KnFrame} {s : State} (h : memberOf f.src s = none ∨ (∃ m, memberOf f.src s = some m ∧ m.pitch = 0xFFFF) ∧
      f.src.val ≠ s.rope.index ∧ ∀ t, kget s.rope.seenAt f.src = some t → t + 2621440000 ≤ s.now) :
    (match memberOf f.src s with | some m => m.serial != be64 f.payload 0 && reportsCurrent f.src s | none => false) = false := by
  obtain h | ⟨⟨m, hm, -⟩, hi, hseen⟩ := h
  · simp only [h]
  · have hcurrent : reportsCurrent f.src s = false := by
      unfold reportsCurrent
      rw [beq_false_of_ne hi, Bool.false_or]
      split
      · next t ht => exact decide_eq_false (Nat.not_lt.mpr (hseen t ht))
      · rfl
    simp only [hm, hcurrent, Bool.and_false]

theorem no_pitch {f : KnFrame} {s : State} (h : memberOf f.src s = none ∨ (∃ m, memberOf f.src s = some m ∧ m.pitch = 0xFFFF) ∧
    f.src.val ≠ s.rope.index ∧ ∀ t, kget s.rope.seenAt f.src = some t → t + 2621440000 ≤ s.now) : pitchOf f.src s = 0xFFFF := by
  obtain h | ⟨⟨m, hm, hp⟩, -⟩ := h
  · simp only [pitchOf, h]
  · simp only [pitchOf, hm, hp]

/-- JOIN_REQ at the lead, by whether the index is another member's and whether the epoch was used. -/
theorem joinReqRx_lead {f : KnFrame} {s : State} {used reused : Bool} (hlead : s.rope.role = .lead)
    (hused : (match memberOf f.src s with | some m => m.serial != be64 f.payload 0 && reportsCurrent f.src s | none => false) = used)
    (hreused : ((kget s.rope.epochs f.src).getD []).contains f.epoch = reused) :
    joinReqRx f s =
      let p := f.payload
      let nl := le 16 (draw 128 s).1.toNat
      let st := if used then 1 else if reused then 2 else 0
      let e : Member := { prio := u8 p 8, serial := be64 p 0, epoch := f.epoch, addr := slice p 28 6, pitch := pitchOf f.src s }
      knUnicast 3 f.src ([byte st, 0] ++ be 2 s.rope.index ++ be 4 s.rope.term ++ be 4 s.rope.rosterVer ++ slice p 12 16 ++ nl)
        (if st = 0 then withRope (fun x => { x with issued := kset x.issued f.src { nl := nl, at_ := s.now, entry := e } }) (draw 128 s).2
          else ropeCount 12 1 (draw 128 s).2) := by
  subst used reused
  exact if_neg (by simp [hlead])

theorem joinReqRx_other {f : KnFrame} {s : State} (h : s.rope.role ≠ .lead) : joinReqRx f s = s := if_pos h

theorem joinAckRx_other {f : KnFrame} {s : State} (h : s.rope.role ≠ .joining ∨ slice f.payload 12 16 ≠ s.rope.nm) : joinAckRx f s = s := if_pos h

theorem joinAckRx_accepted {f : KnFrame} {s : State} (hrole : s.rope.role = .joining) (hnm : slice f.payload 12 16 = s.rope.nm)
    (hst : u8 f.payload 0 = 0) : joinAckRx f s = knUnicast 4 (be16 f.payload 2) (slice f.payload 28 16) (withRope (fun x => { x with
      accepted := true, leadIdx := be16 f.payload 2, term := be32 f.payload 4, rosterVer := be32 f.payload 8 }) s) := by
  simp only [joinAckRx, hrole, hnm, hst, ne_eq, not_true_eq_false, or_self, if_false]

theorem joinAckRx_refused {f : KnFrame} {s : State} (hrole : s.rope.role = .joining) (hnm : slice f.payload 12 16 = s.rope.nm)
    (hst : u8 f.payload 0 = 1) : joinAckRx f s = finishOpt s.rope.join .badParam [] (leaveRope s) := by
  simp only [joinAckRx, hrole, hnm, hst, ne_eq, not_true_eq_false, or_self, if_false, joinFail]

theorem joinConfirmRx_accepted {f : KnFrame} {s : State} {q : Issue} (hlead : s.rope.role = .lead) (hq : kget s.rope.issued f.src = some q)
    (hnl : q.nl = slice f.payload 0 16) (hnow : s.now < q.at_ + 500000000) (hepoch : q.entry.epoch = f.epoch)
    (hown : ∀ m ∈ s.rope.roster, m.2.serial = q.entry.serial → m.1 = f.src.val) :
    joinConfirmRx f s = placePitches 0x0C (publish f.src { q.entry with lead := false } true (withRope (fun x => { x with
      issued := kdel x.issued f.src, seenAt := kset x.seenAt f.src s.now
      epochs := kset x.epochs f.src ((f.epoch :: (kget x.epochs f.src).getD []).take 16) }) s)) := by
  have hold : (s.rope.roster.filter fun m => m.2.serial == q.entry.serial && m.1 != f.src.val) = [] :=
    List.filter_eq_nil_iff.mpr fun m hm => by simpa using hown m hm
  unfold joinConfirmRx
  dsimp only
  rw [hq]
  dsimp only
  rw [if_neg (by simp [hlead, hnl, hnow, hepoch]), hold]
  rfl

theorem joinConfirmRx_refused {f : KnFrame} {s : State} {q : Issue} (hq : kget s.rope.issued f.src = some q)
    (h : q.nl ≠ slice f.payload 0 16 ∨ q.at_ + 500000000 ≤ s.now ∨ q.entry.epoch ≠ f.epoch) : joinConfirmRx f s = s := by
  unfold joinConfirmRx
  dsimp only
  rw [hq]
  exact if_pos (.inr h)

/-! Leaving and the roster. -/

theorem leaveRx_lead {f : KnFrame} {s : State} (h : s.rope.role = .lead) : leaveRx f s = removeMember f.src s := if_pos h

theorem leaveRx_handover {f : KnFrame} {s : State} (hrole : s.rope.role = .member) (hsrc : f.src.val = s.rope.leadIdx)
    (hand : u8 f.payload 0 = 1) (hsucc : s.rope.succ.head? = some s.rope.index) : leaveRx f s = withRope (fun x => { x with handover := true }) s :=
  (if_neg (by simp [hrole])).trans (if_pos ⟨hrole, hsrc, hand, hsucc⟩)

theorem leaveRx_other {f : KnFrame} {s : State} (hrole : s.rope.role = .member) (hsrc : f.src.val ≠ s.rope.leadIdx) : leaveRx f s = s :=
  (if_neg (by simp [hrole])).trans (if_neg fun h => hsrc h.2.1)

theorem rosterReqRx_other {f : KnFrame} {s : State} (h : s.rope.role ≠ .lead) : rosterReqRx f s = s := if_pos h

theorem oneFrame {n : Nat} (h : n ≤ 60) : max 1 (ceilDiv n 60) = 1 := by
  have hdiv : ceilDiv n 60 ≤ 1 := Nat.lt_succ_iff.mp (Nat.div_lt_of_lt_mul (by omega))
  omega

theorem rosterReqRx_small {f : KnFrame} {s : State} (h : s.rope.role = .lead) (hlen : s.rope.roster.length ≤ 60) :
    rosterReqRx f s = knUnicast 7 f.src (be 4 s.rope.rosterVer ++ [0, 1, byte s.rope.roster.length, 0] ++
      (s.rope.roster.map fun m => entryBytes m.1 m.2 true).flatten) s := by
  have hwhole : ((s.rope.roster.map fun m => entryBytes m.1 m.2 true).drop (60 * 0)).take 60 = s.rope.roster.map fun m => entryBytes m.1 m.2 true :=
    List.take_of_length_le (by simpa using hlen)
  unfold rosterReqRx
  rw [if_neg (by simp [h])]
  dsimp only
  rw [List.length_map, oneFrame hlen]
  simp only [List.range_one, List.foldl_cons, List.foldl_nil, hwhole, List.length_map]
  rfl

theorem rosterRx_lead {f : KnFrame} {s : State} (h : s.rope.role = .lead) : rosterRx f s = s := if_pos h

/-- The entries of a ROSTER frame. -/
def rosterEntries (p : List Byte) : List (List Byte) := (List.range (u8 p 6)).map fun k => slice p (8 + 24 * k) 24

/-- The roster of a list of entries. -/
def rosterOf (l : List (List Byte)) : KMap Member :=
  l.foldl (fun (m : KMap Member) b => if (readEntry b 0).2.1 then kset m (readEntry b 0).1 (readEntry b 0).2.2 else m) []

/-- The rope with a whole roster. -/
def withRoster (p : List Byte) (x : Rope) : Rope :=
  { x with roster := rosterOf (rosterEntries p), rosterVer := be32 p 0, full := true, rosterRx := [], rosterAsk := false }

/-- The roster at a member: its time exchanges start anew where its anchor changed. -/
def rosterIn (p : List Byte) (s : State) : State :=
  let u := withRope (withRoster p) s
  if anchorOf (myPitch u) u = anchorOf (myPitch s) s then u else withRope (fun x => { x with exch := [] }) u

theorem rosterIn_rope (p : List Byte) (s : State) : ∃ l, (rosterIn p s).rope = { withRoster p s.rope with exch := l } := by
  unfold rosterIn
  dsimp only
  split
  · exact ⟨s.rope.exch, rfl⟩
  · exact ⟨[], rfl⟩

/-- A member completes the command that joined it. -/
def joinEnd (w : State) : State :=
  if w.rope.role = .member then finishOpt w.rope.join .ok (joinData w) (withRope (fun x => { x with join := none }) w) else w

theorem joinEnd_rope {w : State} (hrole : w.rope.role = .member) (hjoin : w.rope.join = none) :
    (joinEnd w).rope = { w.rope with join := none } := by
  unfold joinEnd
  rw [if_pos hrole, hjoin]
  rfl

theorem rosterRx_member {f : KnFrame} {s : State} (hrole : s.rope.role = .member) (hrx : s.rope.rosterRx = []) (hone : u8 f.payload 5 = 1) :
    rosterRx f s = joinEnd (syncPitch (rosterIn f.payload s)) := by
  have hlead : ¬ s.rope.role = .lead := by simp [hrole]
  have hjoining : ¬ s.rope.role = .joining := by simp [hrole]
  unfold rosterRx
  rw [if_neg hlead]
  simp only [hrx, hone, List.filter_nil, kset, List.length_cons, List.length_nil, Nat.zero_add, Nat.lt_irrefl, if_false, List.flatMap_cons,
    List.flatMap_nil, List.append_nil, withRope_rope, hjoining, false_and]
  rfl

/-- A member that awaits no command takes a roster of one frame whole. -/
theorem rosterRx_whole {f : KnFrame} {s : State} (hrole : s.rope.role = .member) (hjoin : s.rope.join = none) (hrx : s.rope.rosterRx = [])
    (hone : u8 f.payload 5 = 1) : ∃ l, (rosterRx f s).rope = { withRoster f.payload s.rope with exch := l, join := none } := by
  obtain ⟨l, hl⟩ := rosterIn_rope f.payload s
  have hsync : (syncPitch (rosterIn f.payload s)).rope = { withRoster f.payload s.rope with exch := l } := (syncPitch_rope _).trans hl
  refine ⟨l, ?_⟩
  rw [rosterRx_member hrole hrx hone, joinEnd_rope (by rw [hsync]; exact hrole) (by rw [hsync]; exact hjoin), hsync]

/-! Reports and clients. -/

theorem reportRx_other {f : KnFrame} {s : State} (h : s.rope.role ≠ .lead) : reportRx f s = s := if_pos h

theorem reportRx_lead {f : KnFrame} {s : State} (h : s.rope.role = .lead) : reportRx f s =
    let p := f.payload
    let b := u8 p 4
    let h := u8 p 5
    let o := 8 + 6 * b
    placePitches 0x0C (withRope (fun x => { x with
      reports := kset x.reports f.src {
        at_ := s.now, free := be16 p 0, busy := (u8 p 2, u8 p 3), own := (List.range b).map fun i => slice p (8 + 6 * i) 6
        heard := (List.range h).map fun i => (slice p (o + 8 * i) 6, i8 p (o + 8 * i + 6))
        direct := (List.range (u8 p 6)).map fun i => be16 p (o + 8 * h + 2 * i), startUp := bit (u8 p 7) 0 }
      seenAt := kset x.seenAt f.src s.now }) s) := if_neg (by simp [h])

theorem clientsRx_other {f : KnFrame} {s : State} (h : joined s = false ∨ pitchOf f.src s ≠ myPitch s) : clientsRx f s = s := by
  refine if_pos ?_
  obtain h | h := h <;> simp [h]

theorem clientsRx_pitch {f : KnFrame} {s : State} (hjoined : joined s = true) (hpitch : pitchOf f.src s = myPitch s) :
    ∃ c, kget (clientsRx f s).rope.clients f.src = some c ∧ c.free = be16 f.payload 0 ∧ c.busy = (u8 f.payload 2, u8 f.payload 3) ∧
      (u8 f.payload 4 = 0 → c.own.length = u8 f.payload 6 ∧ c.heard.length = u8 f.payload 7) := by
  unfold clientsRx
  dsimp only
  rw [if_neg (by simp [hjoined, hpitch])]
  refine ⟨_, kget_kset_same _ _ _, rfl, rfl, fun hfirst => ?_⟩
  simp only [hfirst, if_true, List.nil_append, List.length_map, List.length_range, and_self]

/-! Time exchanges. -/

/-- What a T_RESP measures: the offset (R309). -/
def respOffset (f : KnFrame) (raw : Nat) (s : State) : Int :=
  (((readTime16 f.payload 4 : Int) - ((raw : Int) + vget s.time.asymOut f.port)) - (ropeStamp f s - readTime16 f.payload 16)) / 2

/-- What a T_RESP measures: the delay (R309). -/
def respDelay (f : KnFrame) (raw : Nat) (s : State) : Int :=
  ((ropeStamp f s - ((raw : Int) + vget s.time.asymOut f.port)) - ((readTime16 f.payload 16 : Int) - readTime16 f.payload 4)) / 2

/-- The exchange is kept. -/
def exchanged (f : KnFrame) (raw : Nat) (s : State) : State := ropeCount 14 1 (withRope (fun x => { x with
  treq := none, exch := ((respOffset f raw s, respDelay f raw s) :: x.exch).take 16, exchPort := f.port, goodAt := s.now, lostRun := 0 }) s)

theorem trespRx_refused {f : KnFrame} {s : State} {q raw t : Nat} (h : s.rope.treq = some (q, raw, t))
    (hbad : be32 f.payload 0 ≠ q ∨ s.rope.lost = true ∨ t + 5000000 ≤ s.now) : trespRx f s = s := by
  unfold trespRx
  dsimp only
  rw [h]
  refine if_pos ?_
  obtain hbad | hbad | hbad := hbad <;> simp [hbad]

section
variable {f : KnFrame} {s : State} {q raw t : Nat} (h : s.rope.treq = some (q, raw, t)) (hq : be32 f.payload 0 = q)
  (hlost : s.rope.lost = false) (hnow : s.now < t + 5000000)
include h hq hlost hnow

theorem trespRx_taken : trespRx f s =
    if (respOffset f raw s).natAbs ≤ 100000 * 65536 then
      withTb (ropeTb s) (fun b => committed s.now { b with inc := (servoInc (exchanged f raw s)).1 })
        (withRope (fun x => { x with servoLeft := 4 }) (servoInc (exchanged f raw s)).2)
    else withRope (fun x => { x with stepDue := some (respOffset f raw s), stepSlot := slotNow s }) (exchanged f raw s) := by
  unfold trespRx
  dsimp only
  rw [h]
  exact if_neg (by simp [hq, hlost, hnow])

theorem trespRx_steps (hoff : 6553600000 < (respOffset f raw s).natAbs) :
    trespRx f s = withRope (fun x => { x with stepDue := some (respOffset f raw s), stepSlot := slotNow s }) (exchanged f raw s) :=
  (trespRx_taken h hq hlost hnow).trans (if_neg (Nat.not_le.mpr hoff))

theorem trespRx_servo (hoff : (respOffset f raw s).natAbs ≤ 6553600000) :
    trespRx f s = withTb (ropeTb s) (fun b => committed s.now { b with inc := (servoInc (exchanged f raw s)).1 })
      (withRope (fun x => { x with servoLeft := 4 }) (servoInc (exchanged f raw s)).2) :=
  (trespRx_taken h hq hlost hnow).trans (if_pos hoff)
end

/-- T_REQ at a parent: t2 is taken. -/
def treqRx (f : KnFrame) (s : State) : State :=
  if joined s then withRope (fun x => { x with
    resp := x.resp ++ [{ dst := f.src.val, port := f.port.val, seq := be32 f.payload 0, t2 := (ropeStamp f s).toNat, at_ := s.now }] }) s
  else s

/-! Proposals and plans. -/

theorem proposalRx_other {f : KnFrame} {s : State} (h : isAnchor s = false ∨ pitchOf f.src s ≠ myPitch s) : proposalRx f s = s := by
  refine if_pos ?_
  obtain h | h := h <;> simp [h]

theorem proposalRx_late {f : KnFrame} {s : State} (hanchor : isAnchor s = true) (hpitch : pitchOf f.src s = myPitch s)
    (hlate : ((((readProp f.src f.payload).slot - 2) * 4096000 + 3072000 : Nat) : Int) ≤ ropeStamp f s / 65536) :
    proposalRx f s = ropeCount 18 1 s := (if_neg (by simp [hanchor, hpitch])).trans (if_pos hlate)

theorem proposalRx_intime {f : KnFrame} {s : State} (hanchor : isAnchor s = true) (hpitch : pitchOf f.src s = myPitch s)
    (hlate : ropeStamp f s / 65536 < ((((readProp f.src f.payload).slot - 2) * 4096000 + 3072000 : Nat) : Int)) :
    proposalRx f s = keepProp (readProp f.src f.payload) s := (if_neg (by simp [hanchor, hpitch])).trans (if_neg (Int.not_le.mpr hlate))

/-- PLAN at a member: from the anchor of its pitch. -/
def planRx (f : KnFrame) (s : State) : State := if coordMode s && anchorOf (myPitch s) s == some f.src.val then planAccept f.payload s else s

theorem planRx_anchor {f : KnFrame} {s : State} (hmode : coordMode s = true) (hanchor : anchorOf (myPitch s) s = some f.src.val) :
    planRx f s = planAccept f.payload s := if_pos (by simp [hmode, hanchor])

theorem planRx_other {f : KnFrame} {s : State} (h : coordMode s = false ∨ anchorOf (myPitch s) s ≠ some f.src.val) : planRx f s = s := by
  refine if_neg ?_
  obtain h | h := h <;> simp [h]

theorem planAccept_late {p : List Byte} {s : State} (h : (be64 p 0 - 1) * 4096000 ≤ ropeNs s) : planAccept p s = ropeCount 19 1 s := by
  unfold planAccept slotNs
  exact if_pos h

theorem mem_insertPitch (now : Nat) (p : Pitch) (l : List Pitch) : p ∈ insertPitch now p l :=
  List.mem_append_right _ (List.mem_cons_self ..)

/-- The constraints of a plan, at radios B and C. -/
def planRadios (p : List Byte) (s : State) : State :=
  withRs 2 (fun x => { x with pitch := insertPitch (slotNow s) (planPitch 2 p s) x.pitch })
    (withRs 1 (fun x => { x with pitch := insertPitch (slotNow s) (planPitch 1 p s) x.pitch }) s)

theorem withRs_get {r : Nat} (hr : r < 3) (f : RadioSched → RadioSched) (s : State) :
    vget (withRs r f s).sched.radio r = f (vget s.sched.radio r) := vget_vmod_same s.sched.radio r f hr

theorem withRs_get_other {r j : Nat} (h : j ≠ r) (f : RadioSched → RadioSched) (s : State) :
    vget (withRs r f s).sched.radio j = vget s.sched.radio j := vget_vmod_other _ _ h

theorem planRadios_pitch (p : List Byte) (s : State) {r : Nat} (hr : r = 1 ∨ r = 2) :
    planPitch r p s ∈ (vget (planRadios p s).sched.radio r).pitch := by
  obtain rfl | rfl := hr
  · rw [planRadios, withRs_get_other (by decide), withRs_get (by decide)]
    exact mem_insertPitch _ _ _
  · rw [planRadios, withRs_get (by decide)]
    exact mem_insertPitch _ _ _

theorem planAccept_taken {p : List Byte} {s : State} (h : ropeNs s < (be64 p 0 - 1) * 4096000) : planAccept p s = withRope (fun x => { x with
    planSlots := (x.planSlots.filter fun k => slotNow s ≤ k && k != be64 p 0) ++ [be64 p 0], planned := be64 p 0
    partOf := (((planEntries p).filter fun b => bit (u8 b 3) 0).map fun b => be16 b 0).eraseDups }) (planRadios p s) := by
  unfold planAccept slotNs
  exact if_neg (Nat.not_le.mpr h)

/-- Settles O38: each frame by what its row runs. -/
theorem ropeFramesTakeEffect : Obligations.RopeFramesTakeEffect := by
  unfold Obligations.RopeFramesTakeEffect
  refine ⟨hears (fun _ _ => rfl) fun f s h => ?joinReq, hears (fun _ _ => rfl) fun f s h => ?joinUsed,
    hears (fun _ _ => rfl) fun f s h => joinReqRx_other h, hears (fun _ _ => rfl) fun f s h => joinAckRx_accepted h.1 h.2.1 h.2.2,
    hears (fun _ _ => rfl) fun f s h => joinAckRx_refused h.1 h.2.1 h.2.2, hears (fun _ _ => rfl) fun f s h => joinAckRx_other h,
    fun q => hears (fun _ _ => rfl) fun f s ⟨hlead, hq, hnl, hnow, hepoch, hown⟩ => joinConfirmRx_accepted hlead hq hnl hnow hepoch hown,
    fun q => hears (fun _ _ => rfl) fun f s h => joinConfirmRx_refused h.1 h.2,
    hears (fun _ _ => rfl) fun f s h => leaveRx_lead h,
    hears (fun _ _ => rfl) fun f s ⟨hrole, hsrc, hand, hsucc⟩ => leaveRx_handover hrole hsrc hand hsucc,
    hears (fun _ _ => rfl) fun f s h => leaveRx_other h.1 h.2,
    hears (fun _ _ => rfl) fun f s h => rosterReqRx_small h.1 h.2, hears (fun _ _ => rfl) fun f s h => rosterReqRx_other h,
    ?rosterLead, fun f s hacc hrole hjoin hrx hone => hears_gives (run := rosterRx) rfl hacc ?roster,
    hears (fun _ _ => rfl) fun f s h => reportRx_other h, hears (fun _ _ => rfl) fun f s h => reportRx_lead h,
    hears (run := fun f s => withRope (fun x => { x with hellos := kset x.hellos f.src.val (f.port.val, s.now) }) s) (fun _ _ => rfl) fun f s _ => rfl,
    fun f s hacc hjoined hpitch => hears_gives (run := clientsRx) rfl hacc (clientsRx_pitch hjoined hpitch),
    hears (fun _ _ => rfl) fun f s h => clientsRx_other h,
    hears (run := treqRx) (fun _ _ => rfl) fun f s h => if_pos h, hears (run := treqRx) (fun _ _ => rfl) fun f s h => if_neg (by simp [h]),
    fun q raw x => hears (fun _ _ => rfl) fun f s h => trespRx_refused h.1 h.2,
    fun q raw x => ⟨hears (fun _ _ => rfl) fun f s ⟨h, hq, hlost, hnow, hoff⟩ => trespRx_steps h hq hlost hnow hoff,
      hears (fun _ _ => rfl) fun f s ⟨h, hq, hlost, hnow, hoff⟩ => trespRx_servo h hq hlost hnow hoff⟩,
    hears (fun _ _ => rfl) fun f s h => proposalRx_other h, hears (fun _ _ => rfl) fun f s h => proposalRx_late h.1 h.2.1 h.2.2,
    hears (fun _ _ => rfl) fun f s h => proposalRx_intime h.1 h.2.1 h.2.2,
    hears (run := planRx) (fun _ _ => rfl) fun f s h => (planRx_anchor h.1 h.2.1).trans (planAccept_late h.2.2),
    fun f s hacc hmode hanchor hnow => hears_gives (run := planRx) rfl hacc ?plan,
    hears (run := planRx) (fun _ _ => rfl) fun f s h => planRx_other h⟩
  case joinReq =>
    obtain ⟨hlead, hfree, hepoch⟩ := h
    rw [joinReqRx_lead (reused := false) hlead (not_used hfree) (by simpa using hepoch), no_pitch hfree]
    rfl
  case joinUsed =>
    obtain ⟨hlead, m, hm, hserial, hcurrent⟩ := h
    have hreports : reportsCurrent f.src s = true := by
      unfold reportsCurrent
      obtain hi | ⟨t, ht, hnow⟩ := hcurrent
      · simp [hi]
      · simp [ht, hnow]
    rw [joinReqRx_lead (used := true) hlead (by simp only [hm, hreports, Bool.and_true]; simpa using hserial) rfl]
    rfl
  case rosterLead =>
    intro f s hacc hlead
    have hrole : s.rope.role = .lead := (knCheck_role f _ true s).symm.trans hlead
    have hopen : (s.rope.role == .joining || fromLead f s) = (s.rope.role == .joining) := by simp [fromLead, hrole]
    change whenRunning s (knRx f (s.rope.role == .joining || fromLead f s) (rosterRx f)) = _
    rw [hopen, whenRunning_running hacc.1]
    exact congrArg _ ((if_pos hacc.2).trans (rosterRx_lead hlead))
  case roster =>
    obtain ⟨l, hl⟩ := rosterRx_whole hrole hjoin hrx hone
    rw [hl]
    exact ⟨rfl, rfl, rfl, rfl, rfl⟩
  case plan =>
    rw [planRx_anchor hmode hanchor, planAccept_taken hnow]
    exact ⟨rfl, List.mem_append_right _ (List.mem_singleton_self _), fun r hr => planRadios_pitch f.payload _ hr⟩

end Sys2Proof.Machine
end

section
/-!
SUPPORT. Belays at the lead, at a joining device and at a member.
-/
namespace Sys2Proof.Machine
open Sys2Proof

/-! What a followed belay leaves in the rope. -/

/-- What a device takes from the belay it follows. -/
def followed (x : Rope) : Nat × Nat × Nat × Nat × Nat × Bool × Bool :=
  (x.lastBelay, x.term, x.leadIdx, x.leadPrio, x.leadSerial, x.heardBelay, x.stepped)

theorem followed_switchKey (k : Nat) (s : State) : followed (switchKey k s).rope = followed s.rope := by
  unfold switchKey
  split
  · rfl
  · split <;> rfl

theorem followed_askRoster (s : State) : followed (askRoster s).rope = followed s.rope :=
  knSendOn_rope followed (fun _ _ _ => rfl) _ _ _ _ _ _

theorem followed_foldl {α : Type} {f : State → α → State} (h : ∀ s a, followed (f s a).rope = followed s.rope) (l : List α) (s : State) :
    followed (l.foldl f s).rope = followed s.rope := by
  induction l generalizing s with
  | nil => rfl
  | cons a l ih => exact (ih _).trans (h s a)

theorem followed_applyChanges (l : List (List Byte)) (latest : Nat) (s : State) : followed (applyChanges l latest s).rope = followed s.rope := by
  have hfold := followed_foldl (f := fun t b => if be32 b 0 = t.rope.rosterVer + 1 then withRope (fun x => { x with
      rosterVer := x.rosterVer + 1
      roster := if (readEntry b 4).2.1 then kset x.roster (readEntry b 4).1 (readEntry b 4).2.2 else kdel x.roster (readEntry b 4).1 }) t else t)
    (fun s b => by split <;> rfl) l s
  unfold applyChanges
  dsimp only
  split
  · split
    · rw [followed_askRoster]
      exact hfold
    · exact hfold
  · split
    · rw [followed_askRoster]
      exact hfold
    · exact hfold

theorem followed_satisfyWindow (f : KnFrame) (same : Bool) (s : State) : followed (satisfyWindow f same s).rope = followed s.rope := by
  simp only [satisfyWindow, apply_ite State.rope, apply_ite followed, raise_rope, withRope_rope]
  simp only [followed, ite_self]

/-- The belay's fields as the device holds them. -/
def belayTaken (p : List Byte) (x : Rope) : Rope := { x with
  lastBelay := be64 p 0, term := be32 p 8, leadIdx := be16 p 12, leadPrio := u8 p 14, leadSerial := be64 p 16, heardBelay := true, handover := false
  succ := ((List.range 8).map fun i => be16 p (40 + 2 * i)).filter (· != 0xFFFF)
  switchNum := if bit (u8 p 15) 0 then be64 p 32 else if x.switchNum ≤ be64 p 0 then 0 else x.switchNum }

theorem followed_followBelay (f : KnFrame) (s : State) : followed (followBelay f s).rope = followed (belayTaken f.payload s.rope) := by
  simp only [followBelay, followed_satisfyWindow, followed_switchKey, syncPitch_rope, apply_ite State.rope, apply_ite followed, withRope_rope]
  have hexch (x : Rope) : followed { x with exch := [] } = followed x := rfl
  simp only [hexch, followed_applyChanges, withRope_rope, apply_ite State.rope, raise_rope, ite_self]
  simp only [followed, belayTaken]

/-! A belay, by the role of the device. -/

theorem belayRx_lead_keeps {f : KnFrame} {s : State} (hrole : s.rope.role = .lead)
    (hwins : belayWins (be32 f.payload 8) (u8 f.payload 14) (be64 f.payload 16) s = false) : belayRx f s = s := by
  simp only [belayRx, hrole, hwins, Bool.false_eq_true, if_false]

theorem belayRx_lead_yields {f : KnFrame} {s : State} (hrole : s.rope.role = .lead)
    (hwins : belayWins (be32 f.payload 8) (u8 f.payload 14) (be64 f.payload 16) s = true) : belayRx f s = yieldLead s := by
  simp only [belayRx, hrole, hwins, if_true]

theorem yieldLead_rope (s : State) : (yieldLead s).rope.role = .joining ∧ (yieldLead s).rope.epoch = s.rope.epoch ∧
    (yieldLead s).rope.roster = [] ∧ (yieldLead s).rope.form = false := by
  simp only [yieldLead, syncPitch_rope, withRope_rope, startJoin, withTb_rope, ropeCount, leaveCoord_rope, and_self]

theorem belayRx_member_keeps {f : KnFrame} {s : State} (hrole : s.rope.role = .member)
    (hwins : belayWins (be32 f.payload 8) (u8 f.payload 14) (be64 f.payload 16) s = false)
    (hother : be32 f.payload 8 ≠ s.rope.term ∨ be16 f.payload 12 ≠ s.rope.leadIdx) : belayRx f s = s := by
  have hsame : (be32 f.payload 8 == s.rope.term && be16 f.payload 12 == s.rope.leadIdx) = false := by
    obtain h | h := hother <;> simp [h]
  simp only [belayRx, hrole, hwins, hsame, Bool.or_self, Bool.false_eq_true, if_false]

theorem belayRx_member_follows {f : KnFrame} {s : State} (hrole : s.rope.role = .member)
    (hwins : belayWins (be32 f.payload 8) (u8 f.payload 14) (be64 f.payload 16) s = true) : belayRx f s = followBelay f s := by
  simp only [belayRx, hrole, hwins, Bool.true_or, if_true]

/-- A joining device steps its rope time with the first belay. -/
def joinStep (f : KnFrame) (s : State) : State :=
  if s.rope.stepped then s
  else withRope (fun x => { x with stepped := true })
    (stepTb (ropeTb s) ((((beNat (slice f.payload 56 6) * 10 ^ 9 + be32 f.payload 62 : Nat) : Int) * 65536) - ropeStamp f s) s)

theorem belayRx_joining {f : KnFrame} {s : State} (hrole : s.rope.role = .joining) : belayRx f s = followBelay f (joinStep f s) := by
  simp only [belayRx, hrole]
  rfl

theorem joinStep_stepped (f : KnFrame) (s : State) : (joinStep f s).rope.stepped = true := by
  unfold joinStep
  split
  · next h => exact h
  · rfl

/-- What the device holds after a belay that it follows. -/
def Followed (f : KnFrame) (x : Rope) : Prop :=
  x.lastBelay = be64 f.payload 0 ∧ x.term = be32 f.payload 8 ∧ x.leadIdx = be16 f.payload 12 ∧ x.leadPrio = u8 f.payload 14 ∧
    x.leadSerial = be64 f.payload 16 ∧ x.heardBelay = true

theorem followBelay_followed (f : KnFrame) (s : State) : Followed f (followBelay f s).rope ∧ (followBelay f s).rope.stepped = s.rope.stepped := by
  have h := followed_followBelay f s
  simp only [followed, belayTaken, Prod.mk.injEq] at h
  obtain ⟨hnum, hterm, hlead, hprio, hserial, hheard, hstepped⟩ := h
  exact ⟨⟨hnum, hterm, hlead, hprio, hserial, hheard⟩, hstepped⟩

theorem belayRx_follows {f : KnFrame} {s : State} (hrole : s.rope.role = .member ∨ s.rope.role = .joining)
    (hwins : belayWins (be32 f.payload 8) (u8 f.payload 14) (be64 f.payload 16) s = true) :
    Followed f (belayRx f s).rope ∧ (s.rope.role = .joining → (belayRx f s).rope.stepped = true) := by
  obtain hrole | hrole := hrole
  · rw [belayRx_member_follows hrole hwins]
    exact ⟨(followBelay_followed f s).1, fun h => absurd (hrole.symm.trans h) nofun⟩
  · rw [belayRx_joining hrole]
    obtain ⟨hfollowed, hstepped⟩ := followBelay_followed f (joinStep f s)
    exact ⟨hfollowed, fun _ => hstepped.trans (joinStep_stepped f s)⟩

theorem belayFresh_iff (f : KnFrame) (s : State) : belayFresh f s = true ↔ (s.rope.role = .joining ∧ s.rope.stepped = false) ∨
    ((ropeNs s / 102400000 : Nat) : Int) - 1 ≤ be64 f.payload 0 ∧ (be64 f.payload 0 : Int) ≤ ((ropeNs s / 102400000 : Nat) : Int) + 1 := by
  simp only [belayFresh, belayNs, Bool.or_eq_true, Bool.and_eq_true, beq_iff_eq, Bool.not_eq_true', Int.natCast_ediv]
  exact or_congr_right (and_congr decide_eq_true_iff decide_eq_true_iff)

/-- BELAY at any role. -/
def belayIn (f : KnFrame) (s : State) : State :=
  let q := knCheck f (s.rope.role == .joining || s.rope.role == .lead || fromLead f s) (belayFresh f s) s
  if q.1 then belayRx f q.2 else q.2

theorem exec_belay {f : KnFrame} {s : State} (h : running s = true) : exec (.belay f) s = .next (belayIn f s) :=
  whenRunning_running (f := belayIn f) h

/-- Settles O39: a belay that fails its checks is dropped; one that passes acts by the device's role. -/
theorem belaysTakeEffect : Obligations.BelaysTakeEffect := by
  unfold Obligations.BelaysTakeEffect
  refine ⟨fun s f hrun => ⟨fun hfail => ?dropped, fun hpass => ?taken⟩, belayFresh_iff⟩
  case dropped => exact (exec_belay hrun).trans (congrArg _ (if_neg (Bool.eq_false_iff.mp hfail)))
  case taken =>
    have hexec := (exec_belay hrun).trans (congrArg _ (if_pos hpass))
    refine ⟨fun hrole hwins => hexec.trans (congrArg _ (belayRx_lead_keeps hrole hwins)),
      fun hrole hwins => ⟨_, hexec.trans (congrArg _ (belayRx_lead_yields hrole hwins)), yieldLead_rope _⟩,
      fun hrole hwins hother => hexec.trans (congrArg _ (belayRx_member_keeps hrole hwins hother)), fun hrole hwins => ⟨_, hexec, ?_⟩⟩
    obtain ⟨⟨hnum, hterm, hlead, hprio, hserial, hheard⟩, hstepped⟩ := belayRx_follows hrole hwins
    exact ⟨hnum, hterm, hlead, hprio, hserial, hheard, hstepped⟩

end Sys2Proof.Machine
end

section
/-!
SUPPORT. The rope's instants: belays, joining, reports, rope time and plans.
-/
namespace Sys2Proof.Machine
open Sys2Proof

/-! More rules on what leaves the rope as it stands. -/

@[simp] theorem queueCompletion_rope (q : Nat) (c : Completion) (s : State) : (queueCompletion q c s).rope = s.rope := rfl

@[simp] theorem setPhase_rope (h : Word) (ph : Phase) (s : State) : (setPhase h ph s).rope = s.rope := rfl

@[simp] theorem writeData_rope (r : CmdRec) (data : List Byte) (s : State) : (writeData r data s).rope = s.rope := by
  unfold writeData
  split
  · exact hostWrite_rope _ _ _
  · rfl

theorem releaseList_rope (l : List CmdRec) (s : State) : (releaseList l s).2.rope = s.rope := by
  induction l generalizing s with
  | nil => rfl
  | cons c l ih =>
    unfold releaseList
    split
    · exact ih _
    · rfl

@[simp] theorem finish_rope (h : Word) (st : Status) (data : List Byte) (s : State) : (finish h st data s).rope = s.rope := by
  unfold finish
  split
  · rfl
  · simp only [release, withMbx_rope, releaseList_rope, setPhase_rope, writeData_rope]

@[simp] theorem finishOpt_rope (h : Option Word) (st : Status) (data : List Byte) (s : State) : (finishOpt h st data s).rope = s.rope := by
  unfold finishOpt
  split
  · rfl
  · exact finish_rope _ _ _ _

theorem vget_vadd_same {n : Nat} (v : Vector Nat n) (i k : Nat) (h : i < n) : vget (vadd v i k) i = vget v i + k := vget_vmod_same v i (· + k) h

theorem vget_vadd_other {n : Nat} (v : Vector Nat n) {i j : Nat} (k : Nat) (h : j ≠ i) : vget (vadd v i k) j = vget v j := vget_vmod_other v _ h

/-! Belays sent. -/

theorem belaySend_lead {s : State} (hrole : s.rope.role = .lead) (hnum : belayNow (followSource s) ≠ s.rope.lastBelay) : belaySend s =
    let t := followSource s
    let u := switchKey (belayNow t) t
    withRope (fun x => { x with lastBelay := belayNow t }) (knRope 1 (belayPayload (belayNow t) false u) u) := by
  unfold belaySend
  dsimp only
  rw [if_pos hrole, followSource_rope, if_pos hrole, if_neg hnum]

theorem belaySend_again {s : State} (hrole : s.rope.role = .lead) (hnum : belayNow (followSource s) = s.rope.lastBelay) :
    belaySend s = followSource s := by
  unfold belaySend
  dsimp only
  rw [if_pos hrole, followSource_rope, if_pos hrole, if_pos hnum]

theorem belaySend_not {s : State} (hrole : s.rope.role ≠ .lead) (htakes : takesOver (belayNow s) s = none) : belaySend s = s := by
  simp only [belaySend, if_neg hrole, htakes]

/-- What a device that takes over holds of its role. -/
def leading (x : Rope) : RopeRole × Nat × Nat × Bool := (x.role, x.term, x.leadIdx, x.lost)

theorem leading_publish (i : Nat) (m : Member) (use : Bool) (s : State) : leading (publish i m use s).rope = leading s.rope := rfl

theorem leading_switchKey (k : Nat) (s : State) : leading (switchKey k s).rope = leading s.rope := by
  unfold switchKey
  split
  · rfl
  · split <;> rfl

theorem leading_knRope (type : Nat) (payload : List Byte) (s : State) : leading (knRope type payload s).rope = leading s.rope :=
  knSendOn_rope leading (fun _ _ _ => rfl) _ _ _ _ _ _

/-- The roster as a successor takes over: the old lead is no entry any more, its own is the lead's. -/
def rosterTaken (s : State) : State :=
  let t := becomeLead (s.rope.term + 1) s
  let u := match memberOf s.rope.leadIdx t with | some m => publish s.rope.leadIdx m false t | none => t
  publish s.rope.index { (memberOf s.rope.index s).getD (selfEntry s) with lead := true } true u

theorem leading_rosterTaken (s : State) : leading (rosterTaken s).rope = (.lead, s.rope.term + 1, s.rope.index, false) := by
  unfold rosterTaken
  dsimp only
  rw [leading_publish]
  split <;> rfl

theorem belaySend_takes {s : State} {pos : Nat} (hrole : s.rope.role ≠ .lead) (htakes : takesOver (belayNow s) s = some pos) :
    ∃ u, leading u.rope = (.lead, s.rope.term + 1, s.rope.index, false) ∧
      belaySend s = withRope (fun x => { x with lastBelay := belayNow s }) u := by
  have hsend : belaySend s = withRope (fun x => { x with lastBelay := belayNow s }) (
      let v := rosterTaken s
      let w := raise .leadTakeover s.rope.index (le 4 v.rope.term ++ [byte pos]) (ropeCount 10 1 v)
      let y := switchKey (belayNow s) w
      knRope 1 (belayPayload (belayNow s) s.rope.handover y) y) := by
    simp only [belaySend, if_neg hrole, htakes, rosterTaken] <;> rfl
  refine ⟨_, ?_, hsend⟩
  dsimp only
  rw [leading_knRope, leading_switchKey, raise_rope]
  exact leading_rosterTaken s

/-! The window of a belay. -/

/-- The window that is open as window `w` closes. -/
def closeWindow (w : Nat) (s0 : State) : State :=
  let s := withRope (fun x => { x with winNum := w }) s0
  if s.rope.role ≠ .member ∨ w ≤ s0.rope.winNum then s0
  else if s.rope.inWindow then withRope (fun x => { x with inWindow := false }) s
  else
    let t := ropeCount 8 1 (withRope (fun x => { x with misses := x.misses + 1, good := 0 }) s)
    if t.rope.misses ≥ 3 && !t.rope.lost then belayLoss t else t

theorem belayWindowClose_eq (s : State) : belayWindowClose s = closeWindow (windowNow s) s := rfl

/-- The number of the last belay whose window has closed (R300). -/
def closedNow (s : State) : Nat := (ropeNs s - s.rope.belayWait * 1000000) / 102400000

theorem windowNow_eq (s : State) : windowNow s = closedNow s := by rw [windowNow, belayNs, closedNow]

theorem exec_belayWindowClose (s : State) : exec .belayWindowClose s = whenRunning s fun s => closeWindow (closedNow s) s := by
  have hclose : belayWindowClose = fun s => closeWindow (closedNow s) s := funext fun s => by rw [belayWindowClose_eq, windowNow_eq]
  rw [← hclose]
  rfl

theorem closeWindow_none {w : Nat} {s : State} (h : s.rope.role ≠ .member ∨ w ≤ s.rope.winNum) : closeWindow w s = s := if_pos h

section
variable {w : Nat} {s : State} (hrole : s.rope.role = .member) (hnum : s.rope.winNum < w)
include hrole hnum

theorem closeWindow_open : closeWindow w s =
    let t := withRope (fun x => { x with winNum := w }) s
    if s.rope.inWindow then withRope (fun x => { x with inWindow := false }) t
    else
      let u := ropeCount 8 1 (withRope (fun x => { x with misses := x.misses + 1, good := 0 }) t)
      if s.rope.misses + 1 ≥ 3 && !s.rope.lost then belayLoss u else u :=
  (if_neg (not_or.mpr ⟨not_not_intro hrole, Nat.not_le.mpr hnum⟩)).trans rfl

theorem closeWindow_met (hin : s.rope.inWindow = true) :
    closeWindow w s = withRope (fun x => { x with winNum := w, inWindow := false }) s :=
  (closeWindow_open hrole hnum).trans (if_pos hin)

variable (hin : s.rope.inWindow = false)
include hin

theorem closeWindow_missed (hfew : s.rope.misses < 2 ∨ s.rope.lost = true) : closeWindow w s =
    ropeCount 8 1 (withRope (fun x => { x with winNum := w, misses := x.misses + 1, good := 0 }) s) := by
  refine (closeWindow_open hrole hnum).trans ((if_neg (by simp [hin])).trans (if_neg ?_))
  obtain h | h := hfew
  · simp [show ¬ 2 ≤ s.rope.misses by omega]
  · simp [h]

theorem closeWindow_lost (hmany : 2 ≤ s.rope.misses) (hlost : s.rope.lost = false) : closeWindow w s =
    belayLoss (ropeCount 8 1 (withRope (fun x => { x with winNum := w, misses := x.misses + 1, good := 0 }) s)) :=
  (closeWindow_open hrole hnum).trans ((if_neg (by simp [hin])).trans (if_pos (by simp [hmany, hlost])))
end

theorem belayLoss_rope (s : State) : (belayLoss s).rope = { s.rope with lost := true, good := 0, treq := none, ctr := vadd s.rope.ctr 9 1 } := by
  simp only [belayLoss, raise_rope, ropeCount, withRope_rope, enterFreeRun_rope, leaveCoord_rope]

/-- The end of a key's old phase. -/
def oldPhaseEnd (s : State) : State :=
  if ropeNs s / belayNs < s.rope.switchedAt + 8 then s else withRope (fun x => { x with oldPhase := false }) s

/-! Joining. -/

/-- The instant `k` after the last one has come. -/
theorem all_due {o : Option Nat} {k n : Nat} (h : ∀ t, o = some t → t + k ≤ n) : o.all (fun t => t + k ≤ n) = true := by
  cases o with
  | none => rfl
  | some t => exact decide_eq_true (h t rfl)

theorem all_early {o : Option Nat} {k n : Nat} (h : ∃ t, o = some t ∧ n < t + k) : o.all (fun t => t + k ≤ n) = false := by
  obtain ⟨t, rfl, ht⟩ := h
  exact decide_eq_false (Nat.not_le.mpr ht)

theorem joinReqSend_due {s : State} (hrole : s.rope.role = .joining) (hacc : s.rope.accepted = false)
    (hdue : ∀ t, s.rope.joinReqAt = some t → t + 51200000 ≤ s.now) : joinReqSend s = joinReqNow s :=
  if_neg (by simp [hrole, hacc, all_due hdue])

theorem joinReqSend_not {s : State} (h : s.rope.role ≠ .joining ∨ s.rope.accepted = true ∨ ∃ t, s.rope.joinReqAt = some t ∧ s.now < t + 51200000) :
    joinReqSend s = s := by
  refine if_pos ?_
  obtain h | h | h := h
  · exact .inl h
  · exact .inr (.inl h)
  · exact .inr (.inr (by simp [all_early h]))

theorem joinTimeout_due {s : State} (hrole : s.rope.role = .joining) (hacc : s.rope.accepted = false) (hnow : s.rope.began + 512000000 ≤ s.now)
    (hform : s.rope.form = false ∨ s.rope.heardBelay = true) : joinTimeout s = finishOpt s.rope.join .timeout [] (leaveRope s) := by
  refine if_neg ?_
  obtain h | h := hform <;> simp [hrole, hacc, hnow, h]

theorem joinTimeout_not {s : State} (h : s.rope.role ≠ .joining ∨ s.rope.accepted = true ∨ s.now < s.rope.began + 512000000) :
    joinTimeout s = s := by
  refine if_pos ?_
  obtain h | h | h := h <;> simp [h]

/-- A rope of one. -/
def formed (s : State) : State :=
  publish s.rope.index (selfEntry s) true (withRope (fun x => { x with
    roster := [], rosterVer := 0, changes := [], lastBelay := ropeNs s / belayNs }) (becomeLead 1 s))

theorem ropeForm_due {s : State} (hrole : s.rope.role = .joining) (hform : s.rope.form = true) (hheard : s.rope.heardBelay = false)
    (hnow : s.rope.began + 153600000 ≤ s.now) :
    ropeForm s = finishOpt (formed s).rope.join .ok (joinData (formed s)) (withRope (fun x => { x with join := none, full := true }) (formed s)) :=
  if_neg (by simp [hrole, hform, hheard, hnow])

theorem ropeForm_not {s : State} (h : s.rope.role ≠ .joining ∨ s.rope.form = false ∨ s.rope.heardBelay = true ∨ s.now < s.rope.began + 153600000) :
    ropeForm s = s := by
  refine if_pos ?_
  obtain h | h | h | h := h <;> simp [h]

/-! Members and reports. -/

theorem memberTimeout_due {i : Nat} {s : State} (hrole : s.rope.role = .lead) (hi : i ≠ s.rope.index) (hm : (memberOf i s).isSome = true)
    (hseen : ∀ t, kget s.rope.seenAt i = some t → t + 2621440000 ≤ s.now) : memberTimeout i s = removeMember i (ropeCount 13 1 s) := by
  have hcurrent : reportsCurrent i s = false := by
    unfold reportsCurrent
    rw [beq_false_of_ne hi, Bool.false_or]
    split
    · next t ht => exact decide_eq_false (Nat.not_lt.mpr (hseen t ht))
    · rfl
  refine if_neg ?_
  simp [hrole, hcurrent, Option.isSome_iff_ne_none.mp hm]

theorem memberTimeout_not {i : Nat} {s : State}
    (h : s.rope.role ≠ .lead ∨ i = s.rope.index ∨ ∃ t, kget s.rope.seenAt i = some t ∧ s.now < t + 2621440000) : memberTimeout i s = s := by
  refine if_pos ?_
  obtain h | h | ⟨t, ht, hnow⟩ := h
  · exact .inl h
  · exact .inr (.inr (by simp [reportsCurrent, h]))
  · exact .inr (.inr (by simp [reportsCurrent, ht, hnow]))

theorem everyTu_due {last : Option Nat} {s : State} (h : ∀ t, last = some t → t + 524288000 ≤ s.now) : everyTu last s = true := all_due h

theorem everyTu_not {last : Option Nat} {s : State} (h : ∃ t, last = some t ∧ s.now < t + 524288000) : everyTu last s = false := all_early h

theorem reportSend_lead {b c : Nat} {h : List (List Byte × Int)} {s : State} (hrole : s.rope.role = .lead)
    (hdue : ∀ t, s.rope.reportAt = some t → t + 524288000 ≤ s.now) : reportSend b c h s = withRope (fun x => { x with
      reportAt := some s.now, reports := kset x.reports x.index {
        at_ := s.now, free := freeStas s, busy := (b, c), heard := h.take 64, direct := directNow s, startUp := s.life.mode == .startUp
        own := ((List.range 48).filter fun b => (vget s.mac.bss b).en).map fun b => (vget s.mac.bss b).bssid } }) s := by
  have hjoined : joined s = true := by simp [joined, hrole]
  unfold reportSend
  rw [everyTu_due hdue, hjoined]
  exact if_pos hrole

theorem reportSend_not {b c : Nat} {h : List (List Byte × Int)} {s : State}
    (hnot : joined s = false ∨ ∃ t, s.rope.reportAt = some t ∧ s.now < t + 524288000) : reportSend b c h s = s := by
  obtain hout | hrecent := hnot
  · have hroles : s.rope.role ≠ .member ∧ s.rope.role ≠ .lead := by simpa [joined] using hout
    simp only [reportSend, hout, Bool.false_eq_true, if_false, hroles.1, hroles.2, ite_self]
  · exact if_pos (by simp [everyTu_not hrecent])

/-- HELLO_SEND: on each Kennar port. -/
def helloSend (s : State) : State :=
  if joined s && everyTu s.rope.helloAt s then
    (knPorts s).foldl (fun t p => knSendOn (2 ^ p) 9 0x3FF 3 ([byte p] ++ le 7 0) t) (withRope (fun x => { x with helloAt := some s.now }) s)
  else s

theorem helloSend_due {s : State} (hjoined : joined s = true) (hdue : ∀ t, s.rope.helloAt = some t → t + 524288000 ≤ s.now) :
    helloSend s = (knPorts s).foldl (fun t p => knSendOn (2 ^ p) 9 0x3FF 3 ([byte p] ++ le 7 0) t)
      (withRope (fun x => { x with helloAt := some s.now }) s) := if_pos (by simp [hjoined, everyTu_due hdue])

theorem helloSend_not {s : State} (h : joined s = false ∨ ∃ t, s.rope.helloAt = some t ∧ s.now < t + 524288000) : helloSend s = s := by
  refine if_neg ?_
  obtain h | h := h
  · simp [h]
  · simp [everyTu_not h]

theorem clientsSend_out {b c : Nat} {s : State} (h : joined s = false ∨ myPitch s = 0xFFFF) : clientsSend b c s = s := by
  refine if_pos ?_
  obtain h | h := h <;> simp [h]

theorem clientsSend_told {b c : Nat} {s : State} (h : ∃ t, s.rope.clientsAt = some (t, slotNow s)) : clientsSend b c s = s := by
  obtain ⟨t, ht⟩ := h
  have hdue : clientsDue s = false := by simp only [clientsDue, ht, bne_self_eq_false, Bool.false_and]
  exact if_pos (by simp [hdue])

theorem clientsSend_none {b c : Nat} {s : State} (hjoined : joined s = true) (hpitch : myPitch s ≠ 0xFFFF) (hown : ownClients s = [])
    (hheard : heardClients s = []) (hdue : clientsDue s = true) :
    clientsSend b c s = knPitch 10 (be 2 (freeStas s) ++ [byte b, byte c, 0, 1, 0, 0])
      (withRope (fun x => { x with clientsAt := some (s.now, slotNow s), told := [] }) s) := by
  have hown' (f : Rope → Rope) : ownClients (withRope f s) = [] := hown
  have hheard' : heardClients (withRope (fun x => { x with clientsAt := some (s.now, slotNow s), told := [] }) s) = [] := hheard
  unfold clientsSend
  rw [if_neg (by simp [hjoined, hpitch, hdue])]
  simp only [hown, hown', hheard', List.map_nil, List.append_nil]
  rfl

/-! Rope time. -/

theorem treqSend_other {s : State} (h : slotNow s % 4 ≠ s.rope.index % 4) : treqSend s = s := if_pos (by simp [h])

theorem treqSend_due {s : State} {p : Nat} (hlost : s.rope.lost = false) (hparent : timeParent s = some p)
    (hslot : slotNow s % 4 = s.rope.index % 4) (hnew : s.rope.treqSlot ≠ some (slotNow s)) : treqSend s =
    knUnicast 13 p (be 4 s.rope.treqSeq ++ be 4 0) (withRope (fun x => { x with
      treqSeq := (s.rope.treqSeq + 1) % 2 ^ 32, treqSlot := some (slotNow s)
      treq := some (s.rope.treqSeq, (stamp16 (ropeTb s) 0 s).toNat, s.now) }) s) := by
  unfold treqSend
  rw [if_neg (by simp [hlost, hslot, hnew]), hparent]

theorem trespSend_due {onTime : Bool} {s : State} {q : Resp} {l : List Resp} (h : s.rope.resp = q :: l) (hnow : q.at_ + 50000 ≤ s.now) :
    trespSend onTime s = if !onTime then ropeCount 16 1 (withRope (fun x => { x with resp := l }) s)
      else knUnicast 14 q.dst (be 4 q.seq ++ time16 q.t2 ++ time16 (q.t2 + 100000 * 65536)) (withRope (fun x => { x with resp := l }) s) := by
  unfold trespSend
  rw [h]
  exact if_neg (Nat.not_lt.mpr hnow)

/-- A request is out for `k`. -/
theorem any_passed {o : Option (Nat × Nat × Nat)} {k n : Nat} (h : ∃ q raw t, o = some (q, raw, t) ∧ t + k ≤ n) :
    o.any (fun q => q.2.2 + k ≤ n) = true := by
  obtain ⟨q, raw, t, rfl, ht⟩ := h
  exact decide_eq_true ht

theorem any_waits {o : Option (Nat × Nat × Nat)} {k n : Nat} (h : ∀ q raw t, o = some (q, raw, t) → n < t + k) :
    o.any (fun q => q.2.2 + k ≤ n) = false := by
  cases o with
  | none => rfl
  | some x => exact decide_eq_false (Nat.not_le.mpr (h x.1 x.2.1 x.2.2 rfl))

theorem trespSend_onTime {s : State} {q : Resp} {l : List Resp} (h : s.rope.resp = q :: l) (hnow : q.at_ + 50000 ≤ s.now) :
    trespSend true s = knUnicast 14 q.dst (be 4 q.seq ++ time16 q.t2 ++ time16 (q.t2 + 6553600000)) (withRope (fun x => { x with resp := l }) s) := by
  rw [trespSend_due h hnow, if_neg (by decide), show 100000 * 65536 = 6553600000 from rfl]

theorem trespSend_missed {s : State} {q : Resp} {l : List Resp} (h : s.rope.resp = q :: l) (hnow : q.at_ + 50000 ≤ s.now) :
    trespSend false s = ropeCount 16 1 (withRope (fun x => { x with resp := l }) s) := by
  rw [trespSend_due h hnow, if_pos (by decide)]

theorem timeExchLost_not {s : State} (h : ∀ q raw t, s.rope.treq = some (q, raw, t) → s.now < t + 5000000) : timeExchLost s = s :=
  if_pos (by simp [any_waits h])

theorem timeExchLost_passed {s : State} (h : ∃ q raw t, s.rope.treq = some (q, raw, t) ∧ t + 5000000 ≤ s.now) : timeExchLost s =
    let t := ropeCount 15 1 (withRope (fun x => { x with treq := none, lostRun := x.lostRun + 1 }) s)
    if s.rope.lostRun + 1 = 4 then enterFreeRun (ropeTb s) 2 t else t :=
  if_neg (by simp [any_passed h])

theorem timeExchLost_few {s : State} (h : ∃ q raw t, s.rope.treq = some (q, raw, t) ∧ t + 5000000 ≤ s.now) (hrun : s.rope.lostRun ≠ 3) :
    timeExchLost s = ropeCount 15 1 (withRope (fun x => { x with treq := none, lostRun := x.lostRun + 1 }) s) :=
  (timeExchLost_passed h).trans (if_neg fun h => hrun (Nat.succ.inj h))

theorem timeExchLost_four {s : State} (h : ∃ q raw t, s.rope.treq = some (q, raw, t) ∧ t + 5000000 ≤ s.now) (hrun : s.rope.lostRun = 3) :
    timeExchLost s = enterFreeRun (ropeTb s) 2 (ropeCount 15 1 (withRope (fun x => { x with treq := none, lostRun := 4 }) s)) := by
  rw [timeExchLost_passed h]
  dsimp only
  rw [if_pos (by omega)]
  simp only [withRope, hrun]

theorem timeServoStep_due {s : State} {d : Int} (h : s.rope.stepDue = some d) (hslot : slotNow s ≠ s.rope.stepSlot) : timeServoStep s =
    stepTb (ropeTb s) d (withRope (fun x => { x with stepDue := none, exch := [], quiet := if s.rope.nowSlot = slotNow s then 2 else 3 }) s) := by
  simp only [timeServoStep, h, if_neg hslot]

theorem timeServoStep_early {s : State} (h : slotNow s = s.rope.stepSlot) : timeServoStep s = s := by
  unfold timeServoStep
  split
  · rfl
  · exact if_pos h

/-! Coordination slots. -/

theorem offered_eq (d : Nat) (s : State) : offered d s = if s.life.mode = .startUp ∨ s.life.mode = .test then 0 else d := by
  simp only [offered, Bool.or_eq_true, beq_iff_eq]

theorem proposalSend_not {b c : Nat} {l : List (Fin 1024 × Radio)} {s : State}
    (h : coordMode s = false ∨ alignOk s = false ∨ s.rope.propSlot = some (slotNow s)) : proposalSend b c l s = s := by
  refine if_pos ?_
  obtain h | h | h := h <;> simp [h]

theorem proposalSend_anchor {b c : Nat} {l : List (Fin 1024 × Radio)} {s : State} (hmode : coordMode s = true) (halign : alignOk s = true)
    (hanchor : isAnchor s = true) (hnew : s.rope.propSlot ≠ some (slotNow s)) : proposalSend b c l s =
    keepProp (readProp s.rope.index (propPayload (slotNow s + 2) (offered b s) (offered c s) (serveIds l s) s)) (withRope (fun x => { x with
      propSlot := some (slotNow s), serve := kset (x.serve.filter fun q => slotNow s + 2 ≤ q.1 + 2) (slotNow s + 2) (serveIds l s) }) s) := by
  unfold proposalSend
  rw [if_neg (by simp [hmode, halign, hnew])]
  exact if_pos hanchor

theorem proposalCutoff_early {s : State} (h : ropeNs s % 4096000 < 3072000) : proposalCutoff s = s := by
  unfold proposalCutoff slotNs
  exact if_pos (by simp [h])

theorem proposalCutoff_merges {s : State} (hmode : coordMode s = true) (hanchor : isAnchor s = true) (hlate : 3072000 ≤ ropeNs s % 4096000)
    (hplan : slotNow s + 2 ∉ s.rope.planSlots) (hmerged : s.rope.merged = []) :
    proposalCutoff s = withRope (fun x => { x with merged := [(slotNow s + 2, mergePlan (slotNow s + 2) s)] }) s := by
  unfold proposalCutoff slotNs
  exact if_neg (by simp [hmode, hanchor, hlate, hplan, hmerged])

theorem planSend_dropped {s : State} {m : Nat} {p : List Byte} {l : List (Nat × List Byte)} (h : s.rope.merged = (m, p) :: l)
    (hnot : coordMode s = false ∨ isAnchor s = false ∨ (m - 1) * 4096000 ≤ ropeNs s) : planSend s = withRope (fun x => { x with merged := l }) s := by
  unfold planSend slotNs
  rw [h]
  refine if_pos ?_
  obtain hnot | hnot | hnot := hnot <;> simp [hnot]

theorem planSend_sent {s : State} {m : Nat} {p : List Byte} {l : List (Nat × List Byte)} (h : s.rope.merged = (m, p) :: l)
    (hmode : coordMode s = true) (hanchor : isAnchor s = true) (hnow : ropeNs s < (m - 1) * 4096000) :
    planSend s = planAccept p (knPitch 12 p (withRope (fun x => { x with merged := l }) s)) := by
  unfold planSend slotNs
  rw [h]
  exact if_neg (by simp [hmode, hanchor, hnow])

end Sys2Proof.Machine
end

section
/-!
SUPPORT. The rope's instants: slots and coordinated TXOPs.
-/
namespace Sys2Proof.Machine
open Sys2Proof

/-! Rules on what leaves the scheduler's slots as they stand. -/

/-- The constraints of a radio by slot. -/
def pitches (j : Nat) (s : State) : List Pitch := (vget s.sched.radio j).pitch

theorem withRs_pitches {f : RadioSched → RadioSched} (h : ∀ k, (f k).pitch = k.pitch) (r j : Nat) (s : State) :
    pitches j (withRs r f s) = pitches j s := vget_vmod_proj s.sched.radio r j (·.pitch) h

theorem schedCount_pitches (r i k j : Nat) (s : State) : pitches j (schedCount r i k s) = pitches j s := withRs_pitches (by intro k; rfl) r j s

theorem pitches_of_sched {s t : State} (j : Nat) (h : s.sched = t.sched) : pitches j s = pitches j t := congrArg (fun c => (vget c.radio j).pitch) h

theorem hostWrite_sched (addr : Nat) (b : List Byte) (s : State) : (hostWrite addr b s).sched = s.sched :=
  show (offHost (hostWrite addr b s)).sched = (offHost s).sched from congrArg State.sched (hostWrite_offHost addr b s)

theorem signalEntry_sched (src : Nat) (s : State) : (signalEntry src s).sched = s.sched :=
  show (offHost (signalEntry src s)).sched = (offHost s).sched from congrArg State.sched (signalEntry_offHost src s)

theorem foldl_sched {α : Type} {f : State → α → State} (h : ∀ s a, (f s a).sched = s.sched) (l : List α) (s : State) :
    (l.foldl f s).sched = s.sched := by
  induction l generalizing s with
  | nil => rfl
  | cons a l ih => exact (ih _).trans (h s a)

theorem completeTx_sched (n id : Nat) (st : Status) (stamp : Nat) (s : State) : (completeTx n id st stamp s).sched = s.sched := by
  unfold completeTx
  split
  · rfl
  · split
    · rfl
    · exact foldl_sched (fun s k => by rw [writeTxStatus, signalEntry_sched, hostWrite_sched]) _ s

theorem frameDone_sched (f : Frame) (st : Status) (stamps : List Nat) (s : State) : (frameDone f st stamps s).sched = s.sched := by
  unfold frameDone
  split
  · exact completeTx_sched _ _ _ _ _
  · rfl

theorem barDue_sched (q : Nat) (f : Frame) (s : State) : (barDue q f s).sched = s.sched := by
  unfold barDue
  split
  · rfl
  · split <;> rfl

theorem llMiss_pitches (r n tid j : Nat) (s : State) : pitches j (llMiss r n tid s) = pitches j s := by
  unfold llMiss
  split
  · split
    · exact schedCount_pitches _ _ _ _ _
    · rfl
  · rfl

theorem dropMsdu_pitches (r n tid j : Nat) (st : Status) (f : Frame) (s : State) : pitches j (dropMsdu r n tid st f s) = pitches j s :=
  (pitches_of_sched j ((frameDone_sched _ _ _ _).trans (barDue_sched _ _ _))).trans (llMiss_pitches _ _ _ _ _)

theorem dropLost_pitches (r n j : Nat) (p : Nat × Frame) (s : State) : pitches j (dropLost r n p s) = pitches j s := by
  unfold dropLost
  split
  · exact dropMsdu_pitches _ _ _ _ _ _ _
  · exact (dropMsdu_pitches _ _ _ _ _ _ _).trans (schedCount_pitches _ _ _ _ _)
  · exact dropMsdu_pitches _ _ _ _ _ _ _
  · exact (dropMsdu_pitches _ _ _ _ _ _ _).trans (schedCount_pitches _ _ _ _ _)

theorem foldr_pitches {α : Type} {f : α → State → State} {j : Nat} (h : ∀ a s, pitches j (f a s) = pitches j s) (l : List α) (s : State) :
    pitches j (l.foldr f s) = pitches j s := by
  induction l with
  | nil => rfl
  | cons a l ih => exact (h a _).trans ih

theorem foldl_pitches {α : Type} {f : State → α → State} {j : Nat} (h : ∀ s a, pitches j (f s a) = pitches j s) (l : List α) (s : State) :
    pitches j (l.foldl f s) = pitches j s := by
  induction l generalizing s with
  | nil => rfl
  | cons a l ih => exact (ih _).trans (h s a)

theorem unclaim_pitches (r : Nat) (queue : Option Nat) (u : FUser) (j : Nat) (s : State) : pitches j (unclaim r queue u s) = pitches j s := by
  refine foldr_pitches (fun p t => ?_) _ s
  split
  · exact dropLost_pitches _ _ _ _ _
  · split <;> rfl

theorem unclaimFurrow_pitches (r : Nat) (f : Furrow) (j : Nat) (s : State) : pitches j (unclaimFurrow r f s) = pitches j s :=
  foldl_pitches (fun t u => unclaim_pitches r f.queue u j t) _ s

theorem furrowDrop_pitches (r j : Nat) (s : State) : pitches j (furrowDrop r s) = pitches j s := by
  have hbuilding (f : Furrow) (t : State) : pitches j (withRs r (fun k => { k with building := none }) (unclaimFurrow r f t)) = pitches j t :=
    (withRs_pitches (by intro k; rfl) r j _).trans (unclaimFurrow_pitches r f j t)
  have hready (f : Furrow) (t : State) :
      pitches j (schedCount r 6 1 (withRs r (fun k => { k with ready := none, discarded := true }) (unclaimFurrow r f t))) = pitches j t :=
    (schedCount_pitches _ _ _ _ _).trans ((withRs_pitches (by intro k; rfl) r j _).trans (unclaimFurrow_pitches r f j t))
  unfold furrowDrop
  dsimp only
  split
  · rw [hready]
    split
    · exact hbuilding _ _
    · rfl
  · split
    · exact hbuilding _ _
    · rfl

/-! The start of a slot. -/

/-- A radio's constraints from slot `n` on, with one for slot `n` itself. -/
def slotsFrom (n : Nat) (l : List Pitch) : List Pitch :=
  let k := l.filter fun p => n ≤ p.slot
  if k.isEmpty ∨ (k.head?.map (·.slot)) = some n then k else { slot := n, start := n * slotNs } :: k

theorem slotsFrom_ge {n : Nat} {l : List Pitch} {p : Pitch} (h : p ∈ slotsFrom n l) : n ≤ p.slot := by
  have hfilter {p : Pitch} (h : p ∈ l.filter fun p => n ≤ p.slot) : n ≤ p.slot := by simpa using (List.mem_filter.mp h).2
  unfold slotsFrom at h
  dsimp only at h
  split at h
  · exact hfilter h
  · obtain rfl | h := List.mem_cons.mp h
    · exact Nat.le_refl _
    · exact hfilter h

theorem slotRadio_eq (n : Nat) (s : State) (r : Nat) : ∃ t, (slotRadio n s r = t ∨ slotRadio n s r = furrowDrop r t) ∧
    t.rope = s.rope ∧ t.sched = (withRs r (fun k => { k with pitch := slotsFrom n (pitches r s) }) s).sched := by
  refine ⟨withRm r (fun m => { m with txCap := (slotsFrom n (pitches r s)).head?.bind (·.txCap) })
    (withRs r (fun k => { k with pitch := slotsFrom n (pitches r s) }) s), ?_, rfl, rfl⟩
  unfold slotRadio
  dsimp only
  split
  · next hready hl =>
    split
    · exact .inr rfl
    · exact .inl rfl
  · exact .inl rfl

theorem slotRadio_rope (n : Nat) (s : State) (r : Nat) : (slotRadio n s r).rope = s.rope := by
  obtain ⟨t, h | h, hrope, -⟩ := slotRadio_eq n s r <;> rw [h]
  · exact hrope
  · exact (furrowDrop_rope r t).trans hrope

theorem slotRadio_pitches (n j : Nat) (s : State) (r : Nat) : pitches j (slotRadio n s r) =
    pitches j (withRs r (fun k => { k with pitch := slotsFrom n (pitches r s) }) s) := by
  obtain ⟨t, h | h, -, hsched⟩ := slotRadio_eq n s r <;> rw [h]
  · exact pitches_of_sched j hsched
  · exact (furrowDrop_pitches r j t).trans (pitches_of_sched j hsched)

theorem slotRadio_own (n : Nat) (s : State) {r : Nat} (hr : r < 3) : pitches r (slotRadio n s r) = slotsFrom n (pitches r s) := by
  rw [slotRadio_pitches, pitches, withRs_get hr]

theorem slotRadio_other (n : Nat) (s : State) {r j : Nat} (h : j ≠ r) : pitches j (slotRadio n s r) = pitches j s := by
  rw [slotRadio_pitches, pitches, withRs_get_other h, pitches]

/-- Both coordinated radios at the start of slot `n`. -/
def slotRadios (n : Nat) (s : State) : State := slotRadio n (slotRadio n s 1) 2

theorem slotRadios_rope (n : Nat) (s : State) : (slotRadios n s).rope = s.rope := (slotRadio_rope n _ 2).trans (slotRadio_rope n s 1)

theorem slotRadios_ge {n : Nat} {s : State} {r : Nat} (hr : r = 1 ∨ r = 2) {p : Pitch} (h : p ∈ pitches r (slotRadios n s)) : n ≤ p.slot := by
  obtain rfl | rfl := hr
  · rw [slotRadios, slotRadio_other n _ (by decide), slotRadio_own n s (by decide)] at h
    exact slotsFrom_ge h
  · rw [slotRadios, slotRadio_own n _ (by decide)] at h
    exact slotsFrom_ge h

theorem coordSlotStart_joined {s : State} (hjoined : joined s = true) (hrole : ¬ s.rope.role = .lead) : coordSlotStart s =
    if slotNow s = s.rope.nowSlot then s
    else
      let u := withRope (fun x => { x with nowSlot := slotNow s, quiet := x.quiet - 1, planSlots := x.planSlots.filter fun k => slotNow s < k })
        (slotRadios (slotNow s) (switchKey (belayNow s) s))
      if coordMode s && !s.rope.planSlots.contains (slotNow s + 1) then ropeCount 20 1 u else u := by
  unfold coordSlotStart
  dsimp only
  rw [if_neg (by simp [hjoined]), if_neg hrole]
  rfl

theorem coordSlotStart_not {s : State} (h : joined s = false ∨ s.rope.role = .member ∧ slotNow s = s.rope.nowSlot) : coordSlotStart s = s := by
  obtain h | ⟨hrole, hslot⟩ := h
  · exact if_pos (by simp [h])
  · exact (coordSlotStart_joined (by simp [joined, hrole]) (by simp [hrole])).trans (if_pos hslot)

theorem switchKey_quiet (k : Nat) (s : State) : (switchKey k s).rope.quiet = s.rope.quiet := by
  unfold switchKey
  split
  · rfl
  · split <;> rfl

theorem switchKey_ctr (k : Nat) (s : State) : (switchKey k s).rope.ctr = s.rope.ctr := by
  unfold switchKey
  split
  · rfl
  · split <;> rfl

theorem withRope_pitches (j : Nat) (f : Rope → Rope) (s : State) : pitches j (withRope f s) = pitches j s := rfl

/-- Slot `n` begins at a member: its key is switched, both radios take their constraints, and the slots move on. -/
def slotBegun (n : Nat) (s : State) : State :=
  withRope (fun x => { x with nowSlot := n, quiet := x.quiet - 1, planSlots := x.planSlots.filter fun k => n < k })
    (slotRadios n (switchKey (belayNow s) s))

theorem slotBegun_rope (n : Nat) (s : State) : (slotBegun n s).rope.nowSlot = n ∧ (slotBegun n s).rope.quiet = s.rope.quiet - 1 ∧
    (slotBegun n s).rope.ctr = s.rope.ctr := by
  simp only [slotBegun, withRope_rope, slotRadios_rope, switchKey_quiet, switchKey_ctr, and_self]

theorem slotBegun_ge {n r : Nat} {s : State} (hr : r = 1 ∨ r = 2) : ∀ p ∈ pitches r (slotBegun n s), n ≤ p.slot := by
  intro p hp
  rw [slotBegun, withRope_pitches] at hp
  exact slotRadios_ge hr hp

theorem coordSlotStart_begins {s : State} (hrole : s.rope.role = .member) (hlost : s.rope.lost = false) (hpitch : myPitch s ≠ 0xFFFF)
    (hslot : slotNow s ≠ s.rope.nowSlot) : coordSlotStart s =
      if slotNow s + 1 ∈ s.rope.planSlots then slotBegun (slotNow s) s else ropeCount 20 1 (slotBegun (slotNow s) s) := by
  have hjoined : joined s = true := by simp [joined, hrole]
  have hmode : coordMode s = true := by simp [coordMode, hjoined, hpitch, hlost]
  rw [coordSlotStart_joined hjoined (by simp [hrole]), if_neg hslot]
  by_cases hplan : slotNow s + 1 ∈ s.rope.planSlots
  · rw [if_pos hplan]
    exact if_neg (by simp [hplan])
  · rw [if_neg hplan]
    exact if_pos (by simp [hplan, hmode])

theorem coordSlotStart_gives {s : State} (hrole : s.rope.role = .member) (hlost : s.rope.lost = false) (hpitch : myPitch s ≠ 0xFFFF)
    (hslot : slotNow s ≠ s.rope.nowSlot) : (coordSlotStart s).rope.nowSlot = slotNow s ∧ (coordSlotStart s).rope.quiet = s.rope.quiet - 1 ∧
      vget (coordSlotStart s).rope.ctr 20 = vget s.rope.ctr 20 + (if slotNow s + 1 ∈ s.rope.planSlots then 0 else 1) ∧
      ∀ r : Nat, r = 1 ∨ r = 2 → ∀ p ∈ pitches r (coordSlotStart s), slotNow s ≤ p.slot := by
  obtain ⟨hnow, hquiet, hctr⟩ := slotBegun_rope (slotNow s) s
  rw [coordSlotStart_begins hrole hlost hpitch hslot]
  by_cases hplan : slotNow s + 1 ∈ s.rope.planSlots
  · rw [if_pos hplan, if_pos hplan, hctr]
    exact ⟨hnow, hquiet, rfl, fun r hr => slotBegun_ge hr⟩
  · rw [if_neg hplan, if_neg hplan, ropeCount, withRope_rope]
    dsimp only
    rw [hctr]
    refine ⟨hnow, hquiet, vget_vadd_same _ 20 1 (by decide), fun r hr => ?_⟩
    rw [withRope_pitches]
    exact slotBegun_ge hr

/-! Coordinated TXOPs. -/

theorem coordTxopStart_not {r : Nat} {v : Bool} {s : State} (h : (vget s.sched.radio r).pitch = [] ∨ coordMode s = false ∨
    ∃ p rest, (vget s.sched.radio r).pitch = p :: rest ∧ ropeNs s < p.start + (p.txops.headD (0, 0, 0)).1) : coordTxopStart r v s = s := by
  unfold coordTxopStart
  split
  · rfl
  · next p rest hp =>
    refine if_pos ?_
    obtain h | h | ⟨q, l, hq, hnow⟩ := h
    · exact absurd (hp.symm.trans h) (List.cons_ne_nil _ _)
    · simp [h]
    · cases hp.symm.trans hq
      simp only [hnow, decide_true, Bool.or_true]

/-- The first TXOP of a radio's slot is taken from its constraints. -/
def txopTaken (r : Nat) (p : Pitch) (rest : List Pitch) (s : State) : State :=
  withRs r (fun k => { k with pitch := { p with txops := p.txops.drop 1 } :: rest }) s

/-- A furrow is ready for the coordinated TXOP that starts, and nothing holds the radio. -/
structure TxopReady (r : Nat) (p : Pitch) (rest : List Pitch) (f : Furrow) (s : State) : Prop where
  pitchIs : (vget s.sched.radio r).pitch = p :: rest
  anyLeft : p.txops ≠ []
  noNulls : p.nulls = []
  modeOn : coordMode s = true
  aligned : alignOk s = true
  readyIs : (vget s.sched.radio r).ready = some f
  coordinated : f.coord = true
  slotIs : f.slot = some p.slot
  radioIdle : radioFree r s = true
  reached : p.start + (p.txops.headD (0, 0, 0)).1 ≤ ropeNs s
  precodersOk : precodersValid r f (txopTaken r p rest s) = true
  noCal : (vget s.fe r).cal = none
  noSw : (vget s.fe r).sw = none
  noTrans : (vget s.fe r).trans = none
  noSurvey : (vget s.mac.radio r).survey = none
  noRecip : (vget s.bf.radio r).running = false

theorem txopReady_of {r : Nat} {p : Pitch} {rest : List Pitch} {f : Furrow} {s : State}
    (h : (vget s.sched.radio r).pitch = p :: rest ∧ p.txops ≠ [] ∧ p.nulls = [] ∧ coordMode s = true ∧ alignOk s = true ∧
      (vget s.sched.radio r).ready = some f ∧ f.coord = true ∧ f.slot = some p.slot ∧ radioFree r s = true ∧
      p.start + (p.txops.headD (0, 0, 0)).1 ≤ ropeNs s ∧ precodersValid r f (txopTaken r p rest s) = true ∧
      (vget s.fe r).cal = none ∧ (vget s.fe r).sw = none ∧ (vget s.fe r).trans = none ∧ (vget s.mac.radio r).survey = none ∧
      (vget s.bf.radio r).running = false) : TxopReady r p rest f s := by
  obtain ⟨hp, hsome, hnulls, hmode, halign, hready, hcoord, hslot, hfree, hnow, hpre, hcal, hsw, htrans, hsurvey, hidle⟩ := h
  exact ⟨hp, hsome, hnulls, hmode, halign, hready, hcoord, hslot, hfree, hnow, hpre, hcal, hsw, htrans, hsurvey, hidle⟩

section
variable {r : Nat} (hr : r < 3) {p : Pitch} {rest : List Pitch} {f : Furrow} {s : State} (h : TxopReady r p rest f s) (v : Bool)
include hr h

/-- All but the medium lets the TXOP start. -/
theorem coordTxopStart_ready : coordTxopStart r v s =
    let t := txopTaken r p rest s
    let m := vget s.mac.radio r
    if !pifsIdle r t || (vget s.fe r).txopHeld || ((m.navBasic.isSome || m.navIntra.isSome) && !v) then skipTxop r p.slot (ropeCount 22 1 t)
    else
      let q := leaveSp r f (withRope (fun x => { x with nullMiss := [] }) t)
      if q.1.users.isEmpty then skipTxop r p.slot (schedCount r 16 1 (withRs r (fun k => { k with ready := some q.1 }) q.2))
      else startFurrow r f.planAc (p.txops.headD (0, 0, 0)).2.1 q.1 (ropeCount 21 1 q.2) := by
  have hgo : (p.txops.isEmpty || !coordMode s || decide (ropeNs s < p.start + (p.txops.headD (0, 0, 0)).1)) = false := by
    simp only [h.modeOn, List.isEmpty_eq_false_iff.mpr h.anyLeft, decide_eq_false (Nat.not_lt.mpr h.reached), Bool.not_true, Bool.or_self]
  have hready : ((vget (txopTaken r p rest s).sched.radio r).ready.filter fun g => g.coord && g.slot == some p.slot) = some f := by
    rw [txopTaken, withRs_get hr, h.readyIs]
    exact if_pos (by simp [h.coordinated, h.slotIs])
  have halign : alignOk (txopTaken r p rest s) = true := h.aligned
  have hfree : radioFree r (txopTaken r p rest s) = true := h.radioIdle
  have htaken : withRs r (fun k => { k with pitch := { p with txops := p.txops.drop 1 } :: rest }) s = txopTaken r p rest s := rfl
  have hfe : (txopTaken r p rest s).fe = s.fe := rfl
  have hmac : (txopTaken r p rest s).mac = s.mac := rfl
  have hbf : (txopTaken r p rest s).bf = s.bf := rfl
  simp only [coordTxopStart, h.pitchIs, hgo, Bool.false_eq_true, if_false, htaken]
  simp only [h.noNulls, List.filter_nil, List.filterMap_nil, List.take_nil,
    hfe, hmac, hbf, h.noCal, h.noSw, h.noTrans, h.noSurvey, h.noRecip, Option.isSome_none, Bool.false_and, Bool.or_self, halign, Bool.not_true, hready,
    h.precodersOk, hfree, Bool.or_false, Bool.false_eq_true, if_false]

theorem coordTxopStart_starts (hpifs : pifsIdle r s = true) (hheld : (vget s.fe r).txopHeld = false)
    (husers : (leaveSp r f (withRope (fun x => { x with nullMiss := [] }) (txopTaken r p rest s))).1.users ≠ [])
    (hnav : (vget s.mac.radio r).navBasic = none ∧ (vget s.mac.radio r).navIntra = none ∨ v = true) : coordTxopStart r v s =
      let q := leaveSp r f (withRope (fun x => { x with nullMiss := [] }) (txopTaken r p rest s))
      startFurrow r f.planAc (p.txops.headD (0, 0, 0)).2.1 q.1 (ropeCount 21 1 q.2) := by
  have hidle : pifsIdle r (txopTaken r p rest s) = true := hpifs
  have hquiet : (((vget s.mac.radio r).navBasic.isSome || (vget s.mac.radio r).navIntra.isSome) && !v) = false := by
    obtain ⟨hbasic, hintra⟩ | hv := hnav
    · simp [hbasic, hintra]
    · simp [hv]
  rw [coordTxopStart_ready hr h v]
  exact (if_neg (by simp only [hidle, hheld, hquiet]; decide)).trans (if_neg (by simpa using husers))

theorem coordTxopStart_skips (hbusy : pifsIdle r s = false ∨ (vget s.fe r).txopHeld = true) :
    coordTxopStart r v s = skipTxop r p.slot (ropeCount 22 1 (txopTaken r p rest s)) := by
  have hidle : pifsIdle r (txopTaken r p rest s) = pifsIdle r s := rfl
  rw [coordTxopStart_ready hr h v]
  refine if_pos ?_
  rw [hidle]
  obtain hbusy | hbusy := hbusy <;> simp [hbusy]
end

/-- What a device that takes over holds after its first belay. -/
theorem taken_gives (k : Nat) {u : State} {term index : Nat} (hu : leading u.rope = (.lead, term, index, false)) :
    let t := withRope (fun x => { x with lastBelay := k }) u
    t.rope.role = .lead ∧ t.rope.term = term ∧ t.rope.leadIdx = index ∧ t.rope.lastBelay = k ∧ t.rope.lost = false := by
  simp only [leading, Prod.mk.injEq] at hu
  obtain ⟨hlead, hterm, hidx, hlost⟩ := hu
  exact ⟨hlead, hterm, hidx, rfl, hlost⟩

/-- What the third window missed leaves in the rope. -/
theorem belayLoss_gives (w : Nat) {s : State} (hrole : s.rope.role = .member) :
    let t := belayLoss (ropeCount 8 1 (withRope (fun x => { x with winNum := w, misses := x.misses + 1, good := 0 }) s))
    t.rope.lost = true ∧ t.rope.misses = s.rope.misses + 1 ∧ t.rope.role = .member ∧ vget t.rope.ctr 8 = vget s.rope.ctr 8 + 1 ∧
      vget t.rope.ctr 9 = vget s.rope.ctr 9 + 1 := by
  simp only [belayLoss_rope, ropeCount, withRope_rope]
  refine ⟨trivial, trivial, hrole, ?_, ?_⟩
  · rw [vget_vadd_other _ _ (by decide), vget_vadd_same _ _ _ (by decide)]
  · rw [vget_vadd_same _ _ _ (by decide), vget_vadd_other _ _ (by decide)]

/-- What a rope of one leaves. -/
theorem ropeForm_gives (s : State) :
    let t := finishOpt (formed s).rope.join .ok (joinData (formed s)) (withRope (fun x => { x with join := none, full := true }) (formed s))
    t.rope.role = .lead ∧ t.rope.term = 1 ∧ t.rope.rosterVer = 1 ∧ t.rope.leadIdx = s.rope.index ∧ t.rope.join = none ∧
      ∃ m, t.rope.roster = [(s.rope.index, m)] ∧ m.lead = true ∧ m.serial = s.glb.serial.toNat := by
  simp only [finishOpt_rope, withRope_rope, formed, publish, becomeLead, if_true, kset]
  exact ⟨trivial, trivial, trivial, trivial, trivial, selfEntry s, rfl, rfl, rfl⟩

/-- Settles O40: each instant by the equation of its case. -/
theorem ropeInstantsTakeEffect : Obligations.RopeInstantsTakeEffect := by
  unfold Obligations.RopeInstantsTakeEffect
  refine ⟨builminDoes (fun _ => rfl) fun s h => belaySend_lead h.1 h.2, builminDoes (fun _ => rfl) fun s h => belaySend_not h.1 h.2,
    fun s pos hrun hrole htakes => ?takes, builminDoes (fun _ => rfl) fun s h => belaySend_again h.1 h.2,
    builminDoes exec_belayWindowClose fun s h => closeWindow_none h,
    builminDoes exec_belayWindowClose fun s h => closeWindow_met h.1 h.2.1 h.2.2,
    builminDoes exec_belayWindowClose fun s ⟨hrole, hnum, hin, hfew⟩ => closeWindow_missed hrole hnum hin hfew,
    fun s hrun hrole hnum hin hmany hlost => ?loses,
    builminDoes (f := oldPhaseEnd) (fun _ => rfl) fun s h => if_neg (Nat.not_lt.mpr h),
    builminDoes (f := oldPhaseEnd) (fun _ => rfl) fun s h => if_pos h,
    builminDoes (fun _ => rfl) fun s h => joinReqSend_due h.1 h.2.1 h.2.2, builminDoes (fun _ => rfl) fun s h => joinReqSend_not h,
    builminDoes (fun _ => rfl) fun s ⟨hrole, hacc, hnow, hform⟩ => joinTimeout_due hrole hacc hnow hform,
    builminDoes (fun _ => rfl) fun s h => joinTimeout_not h, fun s hrun hrole hform hheard hnow => ?forms,
    builminDoes (fun _ => rfl) fun s h => ropeForm_not h,
    fun i => builminDoes (fun _ => rfl) fun s ⟨hrole, hi, hm, hseen⟩ => memberTimeout_due hrole hi hm hseen,
    fun i => builminDoes (fun _ => rfl) fun s h => memberTimeout_not h,
    fun b c l => builminDoes (fun _ => rfl) fun s h => reportSend_lead h.1 h.2, fun b c l => builminDoes (fun _ => rfl) fun s h => reportSend_not h,
    builminDoes (f := helloSend) (fun _ => rfl) fun s h => helloSend_due h.1 h.2,
    builminDoes (f := helloSend) (fun _ => rfl) fun s h => helloSend_not h,
    fun b c => builminDoes (fun _ => rfl) fun s h => clientsSend_out h,
    fun b c => builminDoes (fun _ => rfl) fun s ⟨hjoined, hpitch, hown, hheard, hdue⟩ => clientsSend_none hjoined hpitch hown hheard hdue,
    fun b c => builminDoes (fun _ => rfl) fun s h => clientsSend_told h,
    builminDoes (fun _ => rfl) fun s h => treqSend_other h,
    fun p => builminDoes (fun _ => rfl) fun s ⟨hlost, hparent, hslot, hnew⟩ => treqSend_due hlost hparent hslot hnew,
    fun q l => builminDoes (fun _ => rfl) fun s h => trespSend_onTime h.1 h.2,
    fun q l => builminDoes (fun _ => rfl) fun s h => trespSend_missed h.1 h.2,
    builminDoes (fun _ => rfl) fun s h => timeExchLost_not h, builminDoes (fun _ => rfl) fun s h => timeExchLost_few h.1 h.2,
    builminDoes (fun _ => rfl) fun s h => timeExchLost_four h.1 h.2,
    fun d => builminDoes (fun _ => rfl) fun s h => timeServoStep_due h.1 h.2, builminDoes (fun _ => rfl) fun s h => timeServoStep_early h,
    fun b c l => builminDoes (fun _ => rfl) fun s ⟨hmode, halign, hanchor, hnew⟩ => ?proposes,
    fun b c l => builminDoes (fun _ => rfl) fun s h => proposalSend_not h,
    builminDoes (fun _ => rfl) fun s h => proposalCutoff_early h,
    builminDoes (fun _ => rfl) fun s ⟨hmode, hanchor, hlate, hplan, hmerged⟩ => proposalCutoff_merges hmode hanchor hlate hplan hmerged,
    fun m p l => builminDoes (fun _ => rfl) fun s h => planSend_dropped h.1 h.2,
    fun m p l => builminDoes (fun _ => rfl) fun s ⟨h, hmode, hanchor, hnow⟩ => planSend_sent h hmode hanchor hnow,
    builminDoes (fun _ => rfl) fun s h => coordSlotStart_not h,
    fun s hrun hrole hlost hpitch hslot => ⟨_, whenRunning_running hrun, coordSlotStart_gives hrole hlost hpitch hslot⟩,
    fun r => ⟨fun v => builminDoes (fun _ => rfl) fun s h => coordTxopStart_not h, fun v p rest f =>
      ⟨builminDoes (fun _ => rfl) fun s ⟨h, hpifs, hheld, husers, hnav⟩ => coordTxopStart_starts (rnum_lt r) (txopReady_of h) v hpifs hheld husers hnav,
        builminDoes (fun _ => rfl) fun s ⟨h, hbusy⟩ => coordTxopStart_skips (rnum_lt r) (txopReady_of h) v hbusy⟩⟩⟩
  case takes =>
    obtain ⟨u, hu, hsend⟩ := belaySend_takes hrole htakes
    exact ⟨_, (whenRunning_running hrun).trans (congrArg _ hsend), taken_gives _ hu⟩
  case loses =>
    exact ⟨_, ((exec_belayWindowClose s).trans (whenRunning_running hrun)).trans (congrArg _ (closeWindow_lost hrole hnum hin hmany hlost)),
      belayLoss_gives _ hrole⟩
  case forms => exact ⟨_, (whenRunning_running hrun).trans (congrArg _ (ropeForm_due hrole hform hheard hnow)), ropeForm_gives s⟩
  case proposes =>
    refine (proposalSend_anchor hmode halign hanchor hnew).trans ?_
    simp only [offered_eq]

end Sys2Proof.Machine
end

section
/-!
SUPPORT. Time bases and PPS.
-/
namespace Sys2Proof.Machine
open Sys2Proof

/-! Writes that a tick commits. -/

theorem tick_now (s : State) : (tick s).now = s.now + 1 := by
  unfold tick tickBut
  split <;> rfl

section
variable {n v : Nat} {s : State} (hruns : tbRuns s = true) (hown : (vget s.time.tb n).fwOwned = false)
include hruns hown

theorem setWrite_set (hset : bit v 0 = true) : setWrite n v s = applySet n (bit v 1) s := if_neg (by simp [hruns, hown, hset])

theorem setWrite_valid (hset : bit v 0 = true) (hadj : bit v 1 = false) (hns : (vget s.time.tb n).setNs.toNat < 10 ^ 9) :
    setWrite n v s = rejudge n (timeCount 5 1 (withTb n (fun _ =>
      committed (s.now + 1) (tbAt (setValue (vget s.time.tb n)) (tickDither (vget s.time.tb n)))) (tickBut n s))) := by
  rw [setWrite_set hruns hown hset, hadj]
  exact (if_neg (Nat.not_le.mpr hns)).trans (if_neg Bool.false_ne_true)

theorem setWrite_invalid (hset : bit v 0 = true) (hns : 10 ^ 9 ≤ (vget s.time.tb n).setNs.toNat) :
    setWrite n v s = timeCount 7 (if bit v 1 then 2 else 1) (withTb n (fun t => { t with
      setInv := true, adjInv := t.adjInv || bit v 1 }) (tick s)) :=
  (setWrite_set hruns hown hset).trans (if_pos hns)

theorem adjWrite_adj (hset : bit v 0 = false) (hadj : bit v 1 = true) : adjWrite n v s = applyAdj n (tick s) :=
  if_neg (by simp [hruns, hown, hset, hadj])

theorem incWrite_eq : incWrite n v s = commitInc n (bits v 0 16 * 2 ^ 32 + (vget s.time.tb n).incLo.toNat)
    (withTb n (fun t => { t with incHi := BitVec.ofNat 32 (bits v 0 16) }) s) := if_neg (by simp [hruns, hown])

theorem ditherWrite_one (hper : bits v 0 24 = 1) : ditherWrite n v s =
    timeCount 7 1 (withTb n (fun t => { t with incInv := true })
      (tick (withTb n (fun t => { t with dither := BitVec.ofNat 32 (put (bit v 31) 31 + bits v 0 24) }) s))) :=
  (if_neg (by simp [hruns, hown])).trans (if_pos hper)

theorem ditherWrite_other (hper : bits v 0 24 ≠ 1) : ditherWrite n v s =
    commitTick n (fun t => committed (s.now + 1) { tickTb t with dSub := bit v 31, dPeriod := bits v 0 24, dCount := 0 })
      (withTb n (fun t => { t with dither := BitVec.ofNat 32 (put (bit v 31) 31 + bits v 0 24) }) s) :=
  (if_neg (by simp [hruns, hown])).trans (if_neg hper)
end

theorem setWrite_ignored {n v : Nat} {s : State} (h : tbRuns s = false ∨ (vget s.time.tb n).fwOwned = true) : setWrite n v s = s := by
  refine if_pos ?_
  obtain h | h := h <;> simp [h]

theorem adjWrite_ignored {n v : Nat} {s : State} (h : (vget s.time.tb n).fwOwned = true) : adjWrite n v s = s := if_pos (by simp [h])

theorem incWrite_ignored {n v : Nat} {s : State} (h : (vget s.time.tb n).fwOwned = true) : incWrite n v s = s := if_pos (by simp [h])

theorem applyAdj_some {n : Nat} {s : State} {u : Tb} (h : adjusted (vget (tick s).time.tb n) = some u) :
    applyAdj n (tick s) = rejudge n (timeCount 6 1 (withTb n (fun _ => committed (s.now + 1) u) (tick s))) := by
  simp only [applyAdj, h, tick_now]

theorem applyAdj_none {n : Nat} {s : State} (h : adjusted (vget (tick s).time.tb n) = none) :
    applyAdj n (tick s) = timeCount 7 1 (withTb n (fun t => { t with adjInv := true }) (tick s)) := by
  simp only [applyAdj, h]

theorem commitInc_valid {n inc : Nat} {s : State} (hlo : 0x1FF00 ≤ inc) (hhi : inc ≤ 0x20100) :
    commitInc n inc s = withTb n (fun _ => committed (s.now + 1) { tickTb (vget s.time.tb n) with inc := inc }) (tick s) :=
  if_neg (not_or.mpr ⟨Nat.not_lt.mpr hlo, Nat.not_lt.mpr hhi⟩)

theorem commitInc_invalid {n inc : Nat} {s : State} (h : inc < 0x1FF00 ∨ 0x20100 < inc) :
    commitInc n inc s = timeCount 7 1 (withTb n (fun t => { t with incInv := true }) (tick s)) := if_pos h

/-! Reads, the largest value, the master. -/

/-- TB_SATURATE: the tick on which a time base saturates. -/
def saturate (n : Nat) (s : State) : State := if tbRuns s && (tickTb (vget s.time.tb n)).sat then tick s else s

/-- TB_MASTER_TIMEOUT (R328): no commit for MASTER_TIMEOUT. -/
def masterTimeout (n : Nat) (s : State) : State :=
  let t := vget s.time.tb n
  if t.role = .ptp ∧ t.timeout ≠ 0 ∧ max (t.last.getD 0) t.roleAt + t.timeout * 500000 ≤ s.now then enterFreeRun n 0 s else s

theorem masterTimeout_due {n : Nat} {s : State} (hrole : (vget s.time.tb n).role = .ptp) (hset : (vget s.time.tb n).timeout ≠ 0)
    (hfree : (vget s.time.tb n).freeRun = false)
    (hdue : max ((vget s.time.tb n).last.getD 0) (vget s.time.tb n).roleAt + (vget s.time.tb n).timeout * 500000 ≤ s.now) :
    masterTimeout n s = raise .tbFreeRun n [0, 0] (timeCount 8 1 (withTb n (fun t => { t with freeRun := true }) s)) := by
  refine (if_pos ⟨hrole, hset, hdue⟩).trans ((if_neg (by simp [hfree, hrole])).trans ?_)
  rw [hrole]
  rfl

theorem masterTimeout_not {n : Nat} {s : State} (h : (vget s.time.tb n).role ≠ .ptp ∨ (vget s.time.tb n).timeout = 0 ∨
    s.now < max ((vget s.time.tb n).last.getD 0) (vget s.time.tb n).roleAt + (vget s.time.tb n).timeout * 500000) : masterTimeout n s = s := by
  refine if_neg fun ⟨hrole, hset, hdue⟩ => ?_
  obtain h | h | h := h
  · exact h hrole
  · exact hset h
  · exact Nat.not_lt.mpr hdue h

theorem fields16_tb16 {t : Tb} (hns : t.ns < 10 ^ 9) (hfrac : t.frac < 65536) : fields16 (tb16 t) = (t.sec, t.ns, t.frac) := by
  have hsec : tb16 t / (65536 * 10 ^ 9) = t.sec := by unfold tb16; omega
  have hnano : tb16 t / 65536 % 10 ^ 9 = t.ns := by unfold tb16; omega
  have hlow : tb16 t % 65536 = t.frac := by unfold tb16; omega
  rw [fields16, hsec, hnano, hlow]

theorem captureWrite_off {v : Nat} {s : State} (h : bit v 0 = false) : captureWrite v s = s := if_pos (by simp [h])

theorem captureWrite_go {v : Nat} {s : State} (h : bit v 0 = true)
    (hwf : ∀ n : Fin 4, (vget s.time.tb n).ns < 10 ^ 9 ∧ (vget s.time.tb n).frac < 65536) : captureWrite v s =
    withTime (fun t => { t with cap := t.tb.map fun b => (b.sec, b.ns, b.frac), capCount := (t.capCount + 1) % 65536 }) s := by
  have hmap : (s.time.tb.map fun b => fields16 (tb16 b)) = s.time.tb.map fun b => (b.sec, b.ns, b.frac) := by
    refine Vector.ext fun i hi => ?_
    have hget : vget s.time.tb i = s.time.tb[i] := by simp [vget, hi]
    obtain ⟨hns, hfrac⟩ := hwf ⟨i, hi⟩
    rw [hget] at hns hfrac
    rw [Vector.getElem_map, Vector.getElem_map, fields16_tb16 hns hfrac]
  refine (if_neg (by simp [h])).trans ?_
  simp only [withTime, hmap]

/-! PPS. -/

theorem ppsInEdge_off {s : State} (h : s.time.inEn = false) : ppsInEdge s = s := if_pos (by simp [h])

theorem ppsInEdge_taken {s : State} (hen : s.time.inEn = true) (hlast : ∀ t, s.time.inLast = some t → t + 250000000 ≤ s.now) :
    ppsInEdge s = timeCount 10 1 (withTime (fun t => { t with
      ppsCap := t.tb.map fun b => fields16 (tb16 b - t.inDelay * 65536), ppsCount := (t.ppsCount + 1) % 65536
      inLast := some s.now, ppsLost := false }) s) := by
  refine (if_neg (by simp [hen])).trans (if_neg ?_)
  split
  · next t ht => exact Bool.eq_false_iff.mp (decide_eq_false (Nat.not_lt.mpr (hlast t ht)))
  · exact Bool.false_ne_true

theorem ppsInEdge_early {s : State} {t : Nat} (hen : s.time.inEn = true) (hlast : s.time.inLast = some t) (hnow : s.now < t + 250000000) :
    ppsInEdge s = timeCount 11 1 (withTime (fun t => { t with ppsEarly := true }) s) := by
  refine (if_neg (by simp [hen])).trans (if_pos ?_)
  rw [hlast]
  exact decide_eq_true hnow

/-- PPS_IN_LOST (R331): no edge for 1.5 s. -/
def ppsInSilent (s : State) : State :=
  if s.time.inEn && !s.time.ppsLost && max (s.time.inLast.getD 0) s.time.inSince + 750000000 ≤ s.now then
    raise .ppsInLost 0 [] (withTime (fun t => { t with ppsLost := true }) s)
  else s

theorem ppsInSilent_lost {s : State} (hen : s.time.inEn = true) (hlost : s.time.ppsLost = false)
    (hsilent : max (s.time.inLast.getD 0) s.time.inSince + 750000000 ≤ s.now) :
    ppsInSilent s = raise .ppsInLost 0 [] (withTime (fun t => { t with ppsLost := true }) s) := by
  refine if_pos ?_
  rw [hen, hlost, decide_eq_true hsilent]
  rfl

theorem ppsInSilent_not {s : State} (h : ¬ max (s.time.inLast.getD 0) s.time.inSince + 750000000 ≤ s.now) : ppsInSilent s = s := by
  refine if_neg ?_
  rw [decide_eq_false h, Bool.and_false]
  exact Bool.false_ne_true

/-- The output's setting is `c`: it is taken with this edge, or stands. -/
def PpsEdge (c : Pps) (s : State) : Prop :=
  (s.time.outNext = some c ∧ s.time.riseNext = true) ∨ (s.time.outNext = none ∧ s.time.rise = true ∧ s.time.out = c)

theorem ppsOutEdge_edge {c : Pps} {s : State} (h : PpsEdge c s) : ppsOutEdge s =
    let u := withTime (fun t => { t with out := c, outNext := none, rise := false, riseNext := false }) s
    if c.en then timeCount 12 1 (withTime (fun t => { t with ppsPin := true, riseAt := s.now, riseWidth := c.width }) u) else u := by
  obtain ⟨hnext, hrise⟩ | ⟨hnext, hrise, hout⟩ := h
  · simp only [ppsOutEdge, hnext, hrise, Option.isSome_some, Bool.and_self, Bool.not_true, Bool.false_and, Bool.false_eq_true, if_false, if_true,
      Option.getD_some]
  · simp only [ppsOutEdge, withTime, hnext, hrise, hout, Option.isSome_none, Bool.false_and, Bool.not_true, Bool.and_false, Bool.false_eq_true,
      if_false]

theorem ppsOutEdge_none {s : State} (hnext : s.time.riseNext = false) (hrise : s.time.rise = false) : ppsOutEdge s = s :=
  if_pos (by simp [hnext, hrise])

/-- Settles O41: each event by the equation of its case. -/
theorem timeBaseEventsTakeEffect : Obligations.TimeBaseEventsTakeEffect := by
  unfold Obligations.TimeBaseEventsTakeEffect
  refine ⟨fun n => ⟨fun v => alwaysDoes (fun _ => rfl) fun s ⟨hh, hset, hadj, hns⟩ => setWrite_valid hh.1 hh.2 hset hadj hns,
      fun v => alwaysDoes (fun _ => rfl) fun s ⟨hh, hset, hns⟩ => setWrite_invalid hh.1 hh.2 hset hns,
      fun v => alwaysDoes (fun _ => rfl) fun s h => setWrite_ignored h,
      fun v u => alwaysDoes (fun _ => rfl) fun s ⟨hh, hset, hadj, hu⟩ => (adjWrite_adj hh.1 hh.2 hset hadj).trans (applyAdj_some hu),
      fun v => alwaysDoes (fun _ => rfl) fun s ⟨hh, hset, hadj, hu⟩ => (adjWrite_adj hh.1 hh.2 hset hadj).trans (applyAdj_none hu),
      fun v => alwaysDoes (fun _ => rfl) fun s h => adjWrite_ignored h,
      fun v => alwaysDoes (fun _ => rfl) fun s ⟨hh, hlo, hhi⟩ => (incWrite_eq hh.1 hh.2).trans (commitInc_valid hlo hhi),
      fun v => alwaysDoes (fun _ => rfl) fun s ⟨hh, hinc⟩ => (incWrite_eq hh.1 hh.2).trans (commitInc_invalid hinc),
      fun v => alwaysDoes (fun _ => rfl) fun s h => incWrite_ignored h,
      fun v => alwaysDoes (fun _ => rfl) fun s ⟨hh, hper⟩ => ditherWrite_other hh.1 hh.2 hper,
      fun v => alwaysDoes (fun _ => rfl) fun s ⟨hh, hper⟩ => ditherWrite_one hh.1 hh.2 hper,
      does (fun _ => rfl) fun s _ => rfl,
      alwaysDoes (f := saturate n) (fun _ => rfl) fun s h => if_pos (by simp [h]),
      does (f := masterTimeout n) (fun _ => rfl) fun s ⟨hrole, hset, hfree, hdue⟩ => masterTimeout_due hrole hset hfree hdue,
      does (f := masterTimeout n) (fun _ => rfl) fun s h => masterTimeout_not h⟩,
    fun v => does (fun _ => rfl) fun s h => captureWrite_go h.1 h.2, fun v => does (fun _ => rfl) fun s h => captureWrite_off h,
    does (fun _ => rfl) fun s h => ppsInEdge_taken h.1 h.2, fun t => does (fun _ => rfl) fun s h => ppsInEdge_early h.1 h.2.1 h.2.2,
    does (fun _ => rfl) fun s h => ppsInEdge_off h,
    does (f := ppsInSilent) (fun _ => rfl) fun s h => ppsInSilent_lost h.1 h.2.1 h.2.2,
    does (f := ppsInSilent) (fun _ => rfl) fun s h => ppsInSilent_not h,
    fun c => ⟨does (fun _ => rfl) fun s h => (ppsOutEdge_edge h.1).trans (if_pos h.2),
      does (fun _ => rfl) fun s h => (ppsOutEdge_edge h.1).trans (if_neg (by simp [h.2]))⟩,
    does (fun _ => rfl) fun s h => ppsOutEdge_none h.1 h.2, does (fun _ => rfl) fun s h => if_neg ?falls,
    does (fun _ => rfl) fun s h => if_pos h⟩
  case falls =>
    rintro ⟨hnow, hnext⟩
    obtain h | h := h
    · exact Nat.not_lt.mpr h hnow
    · exact Int.not_lt.mpr h hnext

end Sys2Proof.Machine
end

section
/-!
SUPPORT. Launch-timed frames.
-/
namespace Sys2Proof.Machine
open Sys2Proof

/-! Launch-timed frames. -/

theorem launchReached_iff {unit n v : Nat} {f : Frame} {s : State} (h : f.launch = some (n, v)) : launchReached unit f s = true ↔
    (v + 2 ^ 32 - (stampOut unit s).getD n 0 % 2 ^ 32) % 2 ^ 32 = 0 ∨
      2 ^ 31 ≤ (v + 2 ^ 32 - (stampOut unit s).getD n 0 % 2 ^ 32) % 2 ^ 32 := by
  simp only [launchReached, h, Bool.or_eq_true, beq_iff_eq, decide_eq_true_eq]

theorem isFuture_iff {n v : Nat} {f : Frame} {s : State} (h : f.launch = some (n, v)) : isFuture f s = true ↔
    0 < (v + 2 ^ 32 - tbTotal n s % 2 ^ 32) % 2 ^ 32 ∧ (v + 2 ^ 32 - tbTotal n s % 2 ^ 32) % 2 ^ 32 < 2 ^ 31 := by
  simp only [isFuture, h, scale32, Bool.and_eq_true]
  exact and_congr decide_eq_true_iff decide_eq_true_iff

theorem launchJudge_empty {unit : Nat} {s : State} (h : launchQueue unit s = []) : launchJudge unit s = s := by
  simp only [launchJudge, h]

theorem launchInstant_empty {unit : Nat} {s : State} (h : launchQueue unit s = []) : launchInstant unit s = s := by
  simp only [launchInstant, h]

theorem launchLate_lost {f : Frame} (unit : Nat) (s : State) (h : f.lateSend = false) :
    launchLate unit f s = frameDone f .txLate [] (timeCount 3 1 (popLaunch unit s)) := if_neg (by simp [h])

theorem launchLate_port {f : Frame} {unit : Nat} (s : State) (h : f.lateSend = true) (hu : unit < 2) :
    launchLate unit f s = timeCount 2 1 (withPort unit (fun p => { p with lateQ := p.lateQ ++ [f] }) (popLaunch unit s)) :=
  (if_pos h).trans (congrArg (timeCount 2 1) (if_pos hu))

theorem launchLate_radio {f : Frame} {unit : Nat} (s : State) (h : f.lateSend = true) (hu : 2 ≤ unit) :
    launchLate unit f s = timeCount 2 1 (withRm (unit - 2) (fun m => { m with lateQ := m.lateQ ++ [f] }) (popLaunch unit s)) :=
  (if_pos h).trans (congrArg (timeCount 2 1) (if_neg (Nat.not_lt.mpr hu)))

section
variable {unit : Nat} {f : Frame} {l : List Frame} {s : State} (h : launchQueue unit s = f :: l)
include h

theorem launchJudge_future (hheld : launchIsHeld unit s = false) (hf : isFuture f s = true) :
    launchJudge unit s = timeCount 0 1 (setHeld unit true s) := by
  simp only [launchJudge, h, hheld, hf, Bool.false_eq_true, if_false, if_true]

theorem launchJudge_late (hheld : launchIsHeld unit s = false) (hf : isFuture f s = false) : launchJudge unit s = launchLate unit f s := by
  simp only [launchJudge, h, hheld, hf, Bool.false_eq_true, if_false]

theorem launchInstant_early (hr : launchReached unit f s = false) : launchInstant unit s = s := by
  simp only [launchInstant, h, hr, Bool.not_false, Bool.or_true, if_true]

variable (hheld : launchIsHeld unit s = true) (hreached : launchReached unit f s = true)
include hheld hreached

theorem launchInstant_reached : launchInstant unit s =
    if unit < 2 then
      if portMisses (vget s.eth unit) f s.now then launchLate unit f s
      else timeCount 1 1 (withPort unit (fun p => { p with
        dueQ := p.dueQ ++ [f], wireFree := s.now * 200 + (wireBytes f + 12) * byteTime p.speed }) (popLaunch unit s))
    else
      let r := unit - 2
      let m := vget s.mac.radio r
      if radioWithheld r s then launchLate unit f (feCount r 2 s)
      else if !(pifsIdle r s && m.navBasic.isNone && m.navIntra.isNone && radioFree r s && !beaconAhead r s && launchFree r f s) then launchLate unit f s
      else match numberLaunch r f s with
        | none => frameDone f .keyExhausted [] (secCount 13 1 (popLaunch unit s))
        | some p => timeCount 1 1 (withRm r (fun m => { m with txNext := m.txNext ++ [launchPpdu r p.1 p.2] }) (popLaunch unit p.2)) := by
  unfold launchInstant
  rw [h]
  exact if_neg (by simp [hheld, hreached])

theorem launchInstant_port (hu : unit < 2) (hmiss : portMisses (vget s.eth unit) f s.now = false) : launchInstant unit s =
    timeCount 1 1 (withPort unit (fun p => { p with
      dueQ := p.dueQ ++ [f], wireFree := s.now * 200 + (wireBytes f + 12) * byteTime p.speed }) (popLaunch unit s)) :=
  (launchInstant_reached h hheld hreached).trans ((if_pos hu).trans (if_neg (by simp [hmiss])))

theorem launchInstant_missed (hu : unit < 2) (hmiss : portMisses (vget s.eth unit) f s.now = true) : launchInstant unit s = launchLate unit f s :=
  (launchInstant_reached h hheld hreached).trans ((if_pos hu).trans (if_pos hmiss))

variable (hu : 2 ≤ unit)
include hu

theorem launchInstant_withheld (hw : radioWithheld (unit - 2) s = true) : launchInstant unit s = launchLate unit f (feCount (unit - 2) 2 s) :=
  (launchInstant_reached h hheld hreached).trans ((if_neg (Nat.not_lt.mpr hu)).trans (if_pos hw))

variable (hw : radioWithheld (unit - 2) s = false)
include hw

theorem launchInstant_busy (hbusy : pifsIdle (unit - 2) s = false ∨ (vget s.mac.radio (unit - 2)).navBasic ≠ none ∨
      (vget s.mac.radio (unit - 2)).navIntra ≠ none ∨ radioFree (unit - 2) s = false ∨ beaconAhead (unit - 2) s = true ∨
      launchFree (unit - 2) f s = false) : launchInstant unit s = launchLate unit f s := by
  refine (launchInstant_reached h hheld hreached).trans ((if_neg (Nat.not_lt.mpr hu)).trans ((if_neg (by simp [hw])).trans (if_pos ?_)))
  obtain hb | hb | hb | hb | hb | hb := hbusy <;> simp [hb, Option.isSome_iff_ne_none]

variable (hpifs : pifsIdle (unit - 2) s = true) (hbasic : (vget s.mac.radio (unit - 2)).navBasic = none)
  (hintra : (vget s.mac.radio (unit - 2)).navIntra = none) (hfree : radioFree (unit - 2) s = true) (hbeacon : beaconAhead (unit - 2) s = false)
  (hlaunch : launchFree (unit - 2) f s = true)
include hpifs hbasic hintra hfree hbeacon hlaunch

theorem launchInstant_free : launchInstant unit s =
    match numberLaunch (unit - 2) f s with
    | none => frameDone f .keyExhausted [] (secCount 13 1 (popLaunch unit s))
    | some p => timeCount 1 1 (withRm (unit - 2) (fun m => { m with txNext := m.txNext ++ [launchPpdu (unit - 2) p.1 p.2] }) (popLaunch unit p.2)) :=
  (launchInstant_reached h hheld hreached).trans ((if_neg (Nat.not_lt.mpr hu)).trans ((if_neg (by simp [hw])).trans
    ((if_neg (by simp [hpifs, hbasic, hintra, hfree, hbeacon, hlaunch])).trans rfl)))

theorem launchInstant_sent {g : Frame} {u : State} (hn : numberLaunch (unit - 2) f s = some (g, u)) : launchInstant unit s =
    timeCount 1 1 (withRm (unit - 2) (fun m => { m with txNext := m.txNext ++ [launchPpdu (unit - 2) g u] }) (popLaunch unit u)) := by
  rw [launchInstant_free h hheld hreached hu hw hpifs hbasic hintra hfree hbeacon hlaunch, hn]

theorem launchInstant_locked (hn : numberLaunch (unit - 2) f s = none) :
    launchInstant unit s = frameDone f .keyExhausted [] (secCount 13 1 (popLaunch unit s)) := by
  rw [launchInstant_free h hheld hreached hu hw hpifs hbasic hintra hfree hbeacon hlaunch, hn]

end

/-- Settles O42: each event by the equation of its case. -/
theorem launchesTakeEffect : Obligations.LaunchesTakeEffect := by
  unfold Obligations.LaunchesTakeEffect
  refine ⟨fun f n v s h _ => ⟨fun unit => launchReached_iff h, isFuture_iff h⟩,
    fun unit f l => ⟨does (fun _ => rfl) fun s h => launchInstant_early h.1 h.2,
      does (fun _ => rfl) fun s h => launchJudge_future h.1.1 h.1.2 h.2,
      does (fun _ => rfl) fun s ⟨h, hf, hlate⟩ => (launchJudge_late h.1 h.2 hf).trans (launchLate_lost unit s hlate),
      does (fun _ => rfl) fun s ⟨h, hf, hlate, hu⟩ => (launchJudge_late h.1 h.2 hf).trans (launchLate_port s hlate hu),
      does (fun _ => rfl) fun s ⟨h, hf, hlate, hu⟩ => (launchJudge_late h.1 h.2 hf).trans (launchLate_radio s hlate hu),
      does (fun _ => rfl) fun s ⟨⟨h, hheld, hreached⟩, hu, hmiss⟩ => launchInstant_port h hheld hreached hu hmiss,
      does (fun _ => rfl) fun s ⟨⟨h, hheld, hreached⟩, hu, hmiss⟩ => launchInstant_missed h hheld hreached hu hmiss,
      ⟨fun g u => does (fun _ => rfl) fun s ⟨⟨⟨h, hheld, hreached⟩, hu, hw, hpifs, hbasic, hintra, hfree, hbeacon, hlaunch⟩, hn⟩ =>
          launchInstant_sent h hheld hreached hu hw hpifs hbasic hintra hfree hbeacon hlaunch hn,
        does (fun _ => rfl) fun s ⟨⟨⟨h, hheld, hreached⟩, hu, hw, hpifs, hbasic, hintra, hfree, hbeacon, hlaunch⟩, hn⟩ =>
          launchInstant_locked h hheld hreached hu hw hpifs hbasic hintra hfree hbeacon hlaunch hn⟩,
      does (fun _ => rfl) fun s ⟨⟨h, hheld, hreached⟩, hu, hw, hbusy⟩ => launchInstant_busy h hheld hreached hu hw hbusy,
      does (fun _ => rfl) fun s ⟨⟨h, hheld, hreached⟩, hu, hw⟩ => launchInstant_withheld h hheld hreached hu hw⟩,
    fun unit => ⟨does (fun _ => rfl) fun s h => launchJudge_empty h, does (fun _ => rfl) fun s h => launchInstant_empty h⟩⟩

end Sys2Proof.Machine
end

section
/-!
SUPPORT. Evaluations of the Seeder, overload, forced re-placement, surveys and steering, by case.
-/
namespace Sys2Proof.Machine
open Sys2Proof

/-! Decisions of the Seeder change its counts and its grids alone. -/

/-- The Seeder with other counts and grids. -/
def regrid (c : Vector Nat 12) (m : KMap Nat) (s : State) : State := withSeed (fun x => { x with ctr := c, evalAt := m }) s

theorem decideOn_eq (d o : Nat) (s : State) : ∃ c m, decideOn d o s = regrid c m s := by
  unfold decideOn
  split
  · exact ⟨_, s.seed.evalAt, rfl⟩
  · exact ⟨_, kset s.seed.evalAt (placeKey d o) s.now, rfl⟩

/-- What does not read the counts and the grids. -/
theorem regrid_congr {β : Type} {p : State → β} (h : ∀ c m s, p (regrid c m s) = p s) (d o : Nat) (s : State) : p (decideOn d o s) = p s := by
  obtain ⟨c, m, hd⟩ := decideOn_eq d o s
  rw [hd, h]

@[simp] theorem decideOn_mode (d o : Nat) (s : State) : (decideOn d o s).life.mode = s.life.mode :=
  regrid_congr (p := fun s => s.life.mode) (fun _ _ _ => rfl) d o s

@[simp] theorem decideOn_chanExcluded (r d o : Nat) (s : State) : chanExcluded r (decideOn d o s) = chanExcluded r s :=
  regrid_congr (fun _ _ _ => rfl) d o s

@[simp] theorem decideOn_bestChan (r d o : Nat) (s : State) : bestChan r (decideOn d o s) = bestChan r s :=
  regrid_congr (fun _ _ _ => rfl) d o s

@[simp] theorem decideOn_bankIn (d o : Nat) (s : State) : (decideOn d o s).seed.bankIn = s.seed.bankIn :=
  regrid_congr (p := fun s => s.seed.bankIn) (fun _ _ _ => rfl) d o s

@[simp] theorem decideOn_laneIn (d o : Nat) (s : State) : (decideOn d o s).seed.laneIn = s.seed.laneIn :=
  regrid_congr (p := fun s => s.seed.laneIn) (fun _ _ _ => rfl) d o s

@[simp] theorem decideOn_classMoves (k d o : Nat) (s : State) : classMoves k (decideOn d o s) = classMoves k s :=
  regrid_congr (fun _ _ _ => rfl) d o s

@[simp] theorem decideOn_optOn (k d o : Nat) (s : State) : optOn k (decideOn d o s) = optOn k s := regrid_congr (fun _ _ _ => rfl) d o s

@[simp] theorem decideOn_placeOf (k j d o : Nat) (s : State) : placeOf k j (decideOn d o s) = placeOf k j s := regrid_congr (fun _ _ _ => rfl) d o s

@[simp] theorem decideOn_placedAt (k j d o : Nat) (s : State) : placedAt k j (decideOn d o s) = placedAt k j s := regrid_congr (fun _ _ _ => rfl) d o s

@[simp] theorem decideOn_inHold (k j d o : Nat) (s : State) : inHold k j (decideOn d o s) = inHold k j s := regrid_congr (fun _ _ _ => rfl) d o s

@[simp] theorem decideOn_ownLanes (d o : Nat) (s : State) : ownLanes (decideOn d o s) = ownLanes s := regrid_congr (fun _ _ _ => rfl) d o s

@[simp] theorem decideOn_sta (d o : Nat) (s : State) : (decideOn d o s).mac.sta = s.mac.sta :=
  regrid_congr (p := fun s => s.mac.sta) (fun _ _ _ => rfl) d o s

@[simp] theorem decideOn_coordMode (d o : Nat) (s : State) : coordMode (decideOn d o s) = coordMode s := regrid_congr (fun _ _ _ => rfl) d o s

/-- An object's first evaluation starts its grid. -/
theorem decideOn_first {d o : Nat} {s : State} (hperiod : evalPeriod d ≠ 0) (h : kget s.seed.evalAt (placeKey d o) = none) :
    decideOn d o s = seedCount 0 1 (withSeed (fun x => { x with evalAt := kset x.evalAt (placeKey d o) s.now }) s) :=
  congrArg (seedCount 0 1) (if_neg (by simp [hperiod, khas, h]))

/-! Evaluations. -/

theorem evaluate_startUp {e : Eval} {s : State} (h : s.life.mode = .startUp) : evaluate e s = s := if_pos (by simp [h])

theorem evaluate_absent {e : Eval} {s : State} (h : evalExists e s = false) : evaluate e s = s := if_pos (by simp [h])

theorem evaluate_offGrid {e : Eval} {s : State} (h : ∃ t, kget s.seed.evalAt (placeKey (evalObject e).1 (evalObject e).2) = some t ∧
    (s.now - t) % evalPeriod (evalObject e).1 ≠ 0) : evaluate e s = s := by
  obtain ⟨t, ht, hmod⟩ := h
  have hdue : evalDue (evalObject e).1 (evalObject e).2 s = false := by
    simp only [evalDue, ht]
    exact beq_false_of_ne hmod
  exact if_pos (by simp [hdue])

/-- What an evaluation of the object does once its decision is counted. -/
def evalAct (e : Eval) (t : State) : State :=
  match e with
  | .link n _ _ _ => linkRun n none t
  | .channel r _ => chanEvaluate (rnum r) t
  | .bank c ch _ _ _ => bankEvaluate (bankObject c ch) t
  | .lanes c _ => laneEvaluate c t
  | .pitch => t
  | .serving n => servingEvaluate n t

theorem evaluate_due {e : Eval} {s : State} (he : e ≠ .pitch) (hmode : s.life.mode ≠ .startUp) (hthere : evalExists e s = true)
    (hdue : evalDue (evalObject e).1 (evalObject e).2 s = true) :
    evaluate e s = evalAct e (decideOn (evalObject e).1 (evalObject e).2 (storeMeasure e s)) := by
  unfold evaluate
  dsimp only
  rw [if_neg (by simp [hmode, hthere, hdue])]
  cases e with
  | pitch => exact absurd rfl he
  | link n a b c => rfl
  | channel r l => rfl
  | bank c ch t k b => rfl
  | lanes c m => rfl
  | serving n => rfl

theorem evalDue_first {d o : Nat} {s : State} (h : kget s.seed.evalAt (placeKey d o) = none) : evalDue d o s = true := by
  simp only [evalDue, h]

theorem evaluate_first {e : Eval} {s : State} (he : e ≠ .pitch) (hmode : s.life.mode ≠ .startUp) (hthere : evalExists e s = true)
    (hfirst : kget s.seed.evalAt (placeKey (evalObject e).1 (evalObject e).2) = none) :
    evaluate e s = evalAct e (seedCount 0 1 (withSeed (fun x => { x with
      evalAt := kset x.evalAt (placeKey (evalObject e).1 (evalObject e).2) s.now }) (storeMeasure e s))) := by
  have hperiod : evalPeriod (evalObject e).1 ≠ 0 := by
    cases e with
    | pitch => exact absurd rfl he
    | link n a b c => exact show evalPeriod 0 ≠ 0 by decide
    | channel r l => exact show evalPeriod 1 ≠ 0 by decide
    | bank c ch t k b => exact show evalPeriod 5 ≠ 0 by decide
    | lanes c m => exact show evalPeriod 6 ≠ 0 by decide
    | serving n => exact show evalPeriod 8 ≠ 0 by decide
  have hstored : kget (storeMeasure e s).seed.evalAt (placeKey (evalObject e).1 (evalObject e).2) = none := by cases e <;> exact hfirst
  have hnow : (storeMeasure e s).now = s.now := by cases e <;> rfl
  rw [evaluate_due he hmode hthere (evalDue_first hfirst), decideOn_first hperiod hstored, hnow]

theorem evaluate_pitch {s : State} (hmode : s.life.mode ≠ .startUp) (hlead : s.rope.role = .lead) (hdue : evalDue 7 0 s = true) :
    evaluate .pitch s = pitchEvaluate (pitchGrid s) := by
  unfold evaluate
  exact if_neg (by simp [hmode, evalExists, hlead, evalObject, hdue])

theorem rnum_ne_zero {r : Radio} (h : r ≠ .a) : rnum r ≠ 0 := by
  cases r
  · exact absurd rfl h
  · decide
  · decide

theorem chanEvaluate_idle {r : Nat} {s : State} (hr : r ≠ 0) (hmode : s.life.mode ≠ .startUp) (hin : chanExcluded r s = false)
    (hbest : bestChan r s = none) : chanEvaluate r s = s := by
  unfold chanEvaluate
  rw [if_neg (by simp [hr, hmode]), if_neg (by simp [hin]), hbest]

theorem chanEvaluate_excluded {r : Nat} {s : State} (hr : r ≠ 0) (hmode : s.life.mode ≠ .startUp) (hout : chanExcluded r s = true) :
    chanEvaluate r s = chanForced r s := by
  unfold chanEvaluate
  rw [if_neg (by simp [hr, hmode]), if_pos hout]

section
variable {k traffic conflict best : Nat} {s : State} (hin : kget s.seed.bankIn k = some (traffic, conflict, best))
include hin

theorem bankEvaluate_quiet (h : traffic ≤ 100 ∨ conflict ≤ 200) : bankEvaluate k s = s := by
  unfold bankEvaluate
  rw [hin]
  refine if_pos ?_
  obtain h | h := h <;> simp [h]

variable (ht : 100 < traffic) (hc : 200 < conflict) (hb : best ≠ 0) (hmoves : classMoves (k % 16) s = true) (hopt : optOn 5 s = true)
  (hplace : placedAt 5 k s ≠ best) (hthere : (placeOf 5 k s).isSome = true)
include ht hc hb hmoves hopt hplace hthere

theorem bankEvaluate_worse : bankEvaluate k s = if inHold 5 k s then held1 s else place 5 2 0xFFFF k best false s := by
  have hsome : (placeOf 5 k s).isNone = false := Option.isNone_eq_false_iff.mpr hthere
  unfold bankEvaluate
  rw [hin]
  refine if_neg ?_
  simp only [decide_eq_false (Nat.not_le.mpr ht), decide_eq_false (Nat.not_le.mpr hc), decide_eq_false hb, hmoves, hopt, beq_false_of_ne hplace,
    hsome, Bool.not_true, Bool.or_self, Bool.false_eq_true, not_false_eq_true]
end

theorem laneEvaluate_moves {c set : Nat} {s : State} (hin : kget s.seed.laneIn c = some set) (hv : Nat.land set (ownLanes s) ≠ 0)
    (hplace : placedAt 6 c s ≠ Nat.land set (ownLanes s)) (hopt : optOn 6 s = true) (hthere : (placeOf 6 c s).isSome = true)
    (hhold : inHold 6 c s = false) : laneEvaluate c s = place 6 2 0xFFFF c (Nat.land set (ownLanes s)) false s := by
  have hsome : (placeOf 6 c s).isNone = false := Option.isNone_eq_false_iff.mpr hthere
  unfold laneEvaluate
  rw [hin]
  refine (if_neg ?_).trans (if_neg (by simp [hhold]))
  simp only [decide_eq_false hv, beq_false_of_ne hplace, hopt, hsome, Bool.not_true, Bool.or_self, Bool.false_eq_true, not_false_eq_true]

theorem servingEvaluate_off {n : Nat} {s : State} (h : coordMode s = false ∨ optOn 8 s = false) : servingEvaluate n s = s := by
  unfold servingEvaluate
  split
  · rfl
  · refine if_pos ?_
    obtain h | h := h <;> simp [h]

/-! Overload. -/

theorem overload_none (d : OverDom) (n : Nat) (rise : Bool) (l : List Nat) (s : State) : overload d n rise l [] s = s := by
  cases d <;> exact ite_self s

theorem overload_off {d : OverDom} {n : Nat} {rise : Bool} {l : List Nat} {o : List (Nat × Bool × Nat)} {s : State}
    (h : optOn (match d with | .queue => 2 | .cipher => 3 | .ring => 4) s = false) : overload d n rise l o s = s := by
  cases d <;> exact if_pos (by simp [h])

/-- One queue of an overloaded port whose pair's other port is up and has room. -/
theorem overload_queue {n k w q : Nat} {rise : Bool} {load : List Nat} {s : State} (hn : n < 2) (hopt : optOn 2 s = true)
    (hover : 850 < load.getD n 0) (hroom : load.getD (1 - n) 0 < 600) (hplace : placedAt 2 k s = n)
    (htarget : entryTarget k s = some (true, q)) (hmember : vget (vget s.router.pair q).member (1 - n) = true)
    (hup : portUp (1 - n) s = true) : overload .queue n rise load [(k, false, w)] s =
      if inHold 2 k s then seedCount 2 1 (seedCount 0 1 s) else place 2 9 0xFFFF k (1 - n) false (seedCount 0 1 s) := by
  have hplace' : placedAt 2 k (decide1 s) = n := hplace
  have htarget' : entryTarget k (decide1 s) = some (true, q) := htarget
  have hgo : (vget (vget (decide1 s).router.pair q).member (1 - n) && portUp (1 - n) (decide1 s) && decide (load.getD (1 - n) 0 < 600)) = true := by
    have hup' : portUp (1 - n) (decide1 s) = true := hup
    have hmember' : vget (vget (decide1 s).router.pair q).member (1 - n) = true := hmember
    simp only [hmember', hup', decide_eq_true hroom, Bool.and_self]
  have hhold : inHold 2 k (decide1 s) = inHold 2 k s := rfl
  unfold overload
  dsimp only
  rw [if_neg (by simp [hopt, hn])]
  simp only [List.foldl_cons, List.foldl_nil, overStep, decide_eq_true hover, hplace', htarget', hgo, hhold, Bool.not_true, ne_eq, not_true_eq_false,
    decide_false, Bool.or_self, Bool.false_eq_true, if_false, if_true, gt_iff_lt]
  split <;> rfl

/-! Forced re-placement. -/

theorem forced_startUp {f : Forced} {s : State} (h : s.life.mode = .startUp) : forced f s = s := if_pos (by simp [h])

section
variable {s : State} (h : s.life.mode ≠ .startUp)
include h

theorem forced_chains {r : Radio} {n : Nat} (hn : linkStas (rnum r) s = [n]) :
    forced (.chains r) s = linkRun n (some (6, 0xFFFF)) (seedCount 0 1 s) := by
  unfold forced
  rw [if_neg (by simp [h])]
  dsimp only
  rw [hn]
  rfl

theorem forced_channel {r : Radio} : forced (.channel r) s = chanForced (rnum r) s := if_neg (by simp [h])

theorem forced_rope : forced .rope s = placePitches 0x0C s := if_neg (by simp [h])
end

theorem forced_cipher {g : Fin 20} {s : State} (h : 5 ≤ groupCores g s) : forced (.cipher g) s = s := by
  unfold forced
  split
  · rfl
  · exact if_pos h

theorem forced_portUp {p : Fin 2} {s : State} (h : portUp p s = true) : forced (.portDown p) s = s := by
  unfold forced
  split
  · rfl
  · exact if_pos h

/-! Surveys and steering. -/

theorem surveyDwell_starts {r c bw prim : Nat} {s : State} (hr : r ≠ 0) (hint : s.seed.surveyInt ≠ 0) (hopt : optOn 1 s = true)
    (hstate : (vget s.fe r).state = .rx) (hquiet : quietRadio r s = true) (hheld : (vget s.fe r).txopHeld = false)
    (hdue : dueWithin 2100000 r s = false) (hsurvey : (vget s.mac.radio r).survey = none) (hfence : fenceAllows r c bw prim s = some true)
    (hother : (c, bw) ≠ ((vget s.fe r).centre, (vget s.fe r).bw)) (hseg : vget (vget s.fe r).segValid (segOf r c) = true)
    (hindex : (vget s.mac.radio r).surveyDone ≤ (s.now - (vget s.mac.radio r).surveyFrom) / (s.seed.surveyInt * 500000000)) :
    surveyDwell r c bw prim s = withRm r (fun m => { m with
        survey := some c, surveyAt := s.now, surveyDone := (s.now - m.surveyFrom) / (s.seed.surveyInt * 500000000) + 1 })
      (withFe r (fun e => { e with state := .cal }) s) := by
  have hturn : decide (surveyIndex r s < (vget s.mac.radio r).surveyDone) = false := decide_eq_false (Nat.not_lt.mpr hindex)
  refine (if_neg ?_).trans (withRm_congr rfl)
  simp only [decide_eq_false hr, decide_eq_false hint, hopt, hstate, hquiet, hheld, hdue, hsurvey, hfence, beq_false_of_ne hother, hseg, hturn,
    ne_eq, not_true_eq_false, decide_false, bne_self_eq_false, Option.isSome_none, Bool.not_true, Bool.or_self, Bool.false_eq_true, not_false_eq_true]

theorem surveyDwell_not {r c bw prim : Nat} {s : State} (h : s.seed.surveyInt = 0 ∨ fenceAllows r c bw prim s ≠ some true ∨
    (s.now - (vget s.mac.radio r).surveyFrom) / (s.seed.surveyInt * 500000000) < (vget s.mac.radio r).surveyDone) :
    surveyDwell r c bw prim s = s := by
  refine if_pos ?_
  obtain h | h | h := h
  · simp [h]
  · simp [h]
  · simp [show surveyIndex r s < (vget s.mac.radio r).surveyDone from h]

theorem surveySkip_due {r : Nat} {s : State} (hr : r ≠ 0) (hint : s.seed.surveyInt ≠ 0) (hopt : optOn 1 s = true)
    (hindex : (vget s.mac.radio r).surveyDone < (s.now - (vget s.mac.radio r).surveyFrom) / (s.seed.surveyInt * 500000000)) :
    surveySkip r s = seedCount 8 1 (withRm r (fun m => { m with surveyDone := m.surveyDone + 1 }) s) := by
  have hturn : decide (surveyIndex r s ≤ (vget s.mac.radio r).surveyDone) = false := decide_eq_false (Nat.not_le.mpr hindex)
  exact if_neg (by simp only [decide_eq_false hr, decide_eq_false hint, hopt, hturn, Bool.not_true, Bool.or_self, Bool.false_eq_true, not_false_eq_true])

theorem surveyEnd_due {r : Nat} {l : List (Nat × Fin 1001)} {s : State} (h : (vget s.mac.radio r).survey ≠ none)
    (hnow : (vget s.mac.radio r).surveyAt + 1038000 ≤ s.now) : surveyEnd r l s =
      withSeed (fun x => { x with busy := l.foldl (fun m q => kset m q.1 (q.2.val, s.now)) x.busy })
        (withRm r (fun m => { m with survey := none }) (withFe r (fun e => { e with state := .rx }) s)) := by
  have hsome : (vget s.mac.radio r).survey.isNone = false := Option.isNone_eq_false_iff.mpr (Option.isSome_iff_ne_none.mpr h)
  exact if_neg (by simp only [hsome, decide_eq_false (Nat.not_lt.mpr hnow), Bool.or_self, Bool.false_eq_true, not_false_eq_true])

theorem surveyEnd_not {r : Nat} {l : List (Nat × Fin 1001)} {s : State}
    (h : (vget s.mac.radio r).survey = none ∨ s.now < (vget s.mac.radio r).surveyAt + 1038000) : surveyEnd r l s = s := by
  refine if_pos ?_
  obtain h | h := h
  · simp [h]
  · simp only [decide_eq_true h, Bool.or_true]

/-- Where a station asked to move has been told of. -/
def steerTold (n c v : Nat) (s : State) : State :=
  withSeed (fun q => { q with place := kmod q.place (placeKey 8 n) fun p => { p with value := c + 2 ^ 16 * v } })
    (withSta n (fun x => { x with steerTo := none }) (seedCount 1 1 (logEntry 8 0x0B 0xFFFF n s.rope.index (c + 2 ^ 16 * v) s)))

theorem steerResult_told {n c v : Nat} {x : Sta} {s : State} (hx : kget s.mac.sta n = some x) (hc : x.steerTo = some c) :
    steerResult n v s = steerTold n c v s := by
  simp only [steerResult, hx, Option.bind_some, hc]
  rfl

theorem steerResult_none {n v : Nat} {x : Sta} {s : State} (hx : kget s.mac.sta n = some x) (hc : x.steerTo = none) : steerResult n v s = s := by
  simp only [steerResult, hx, Option.bind_some, hc]

/-- STEER_TIMEOUT (R278): no answer for 5 s. -/
def steerTimeout (n : Nat) (s : State) : State :=
  if ((kget s.mac.sta n).bind (·.steerAt)).all fun t => t + 2500000000 ≤ s.now then
    withSta n (fun x => { x with steerAt := none }) (steerResult n 0xFF s)
  else s

theorem steerTimeout_due {n c : Nat} {x : Sta} {s : State} (hx : kget s.mac.sta n = some x) (hc : x.steerTo = some c)
    (hdue : ∀ t, x.steerAt = some t → t + 2500000000 ≤ s.now) :
    steerTimeout n s = withSta n (fun x => { x with steerAt := none }) (steerTold n c 0xFF s) := by
  refine (if_pos ?_).trans (congrArg (withSta n _) (steerResult_told hx hc))
  rw [hx, Option.bind_some, all_due hdue]

theorem steerTimeout_early {n t : Nat} {x : Sta} {s : State} (hx : kget s.mac.sta n = some x) (ht : x.steerAt = some t)
    (hnow : s.now < t + 2500000000) : steerTimeout n s = s := by
  refine if_neg ?_
  rw [hx, Option.bind_some, all_early ⟨t, ht, hnow⟩]
  exact Bool.false_ne_true

/-! The settled statement, clause by clause. -/

theorem channel_idle {r : Radio} {l : List (Nat × Fin 1001)} {s : State} (hmode : s.life.mode ≠ .startUp) (hr : r ≠ .a)
    (hdue : evalDue 1 (rnum r) s = true) (hin : chanExcluded (rnum r) s = false) (hbest : bestChan (rnum r) (storeBusy l s) = none) :
    evaluate (.channel r l) s = decideOn 1 (rnum r) (storeBusy l s) := by
  have hin' : chanExcluded (rnum r) (storeBusy l s) = false := hin
  have hmode' : (storeBusy l s).life.mode ≠ .startUp := hmode
  refine (evaluate_due (e := .channel r l) nofun hmode (by simp [evalExists, hr]) hdue).trans ?_
  exact chanEvaluate_idle (rnum_ne_zero hr) (by rwa [decideOn_mode]) (by rwa [decideOn_chanExcluded]) (by rwa [decideOn_bestChan])

theorem channel_excluded {r : Radio} {l : List (Nat × Fin 1001)} {s : State} (hmode : s.life.mode ≠ .startUp) (hr : r ≠ .a)
    (hdue : evalDue 1 (rnum r) s = true) (hout : chanExcluded (rnum r) s = true) :
    evaluate (.channel r l) s = chanForced (rnum r) (decideOn 1 (rnum r) (storeBusy l s)) := by
  have hout' : chanExcluded (rnum r) (storeBusy l s) = true := hout
  have hmode' : (storeBusy l s).life.mode ≠ .startUp := hmode
  refine (evaluate_due (e := .channel r l) nofun hmode (by simp [evalExists, hr]) hdue).trans ?_
  exact chanEvaluate_excluded (rnum_ne_zero hr) (by rwa [decideOn_mode]) (by rwa [decideOn_chanExcluded])

theorem link_due {n : Fin 1024} {a b c : Fin 1001} {x : Sta} {s : State} (hmode : s.life.mode ≠ .startUp) (hdue : evalDue 0 n s = true)
    (hx : kget s.mac.sta n = some x) (hmld : x.mld.isSome = true) (hlinks : 2 ≤ popCount 3 x.links) :
    evaluate (.link n a b c) s = linkRun n none (decideOn 0 n (withSeed (fun x => { x with use3 := #v[a.val, b.val, c.val] }) s)) :=
  evaluate_due (e := .link n a b c) nofun hmode (by simp [evalExists, hx, multiLink, hmld, hlinks]) hdue

/-- A bank's measurement is heard and its decision counted. -/
def bankHeard (o t k b : Nat) (s : State) : State := decideOn 5 o (withSeed (fun x => { x with bankIn := kset x.bankIn o (t, k, b) }) s)

theorem bankHeard_in (o t k b : Nat) (s : State) : kget (bankHeard o t k b s).seed.bankIn o = some (t, k, b) := by
  rw [bankHeard, decideOn_bankIn]
  exact kget_kset_same _ _ _

theorem evaluate_bank {c : Fin 5} {ch : Fin 2} {t k : Fin 1001} {b : Fin 16} {s : State} (hmode : s.life.mode ≠ .startUp) (hready : s.dram.ready = true)
    (hdue : evalDue 5 (bankObject c ch) s = true) :
    evaluate (.bank c ch t k b) s = bankEvaluate (bankObject c ch) (bankHeard (bankObject c ch) t k b s) :=
  evaluate_due (e := .bank c ch t k b) nofun hmode hready hdue

theorem bankEvaluate_heard {o t k b : Nat} {s : State} (ht : 100 < t) (hk : 200 < k) (hb : b ≠ 0) (hmoves : classMoves (o % 16) s = true)
    (hopt : optOn 5 s = true) (hplace : placedAt 5 o s ≠ b) (hthere : (placeOf 5 o s).isSome = true) :
    bankEvaluate o (bankHeard o t k b s) =
      if inHold 5 o s then seedCount 2 1 (bankHeard o t k b s) else place 5 2 0xFFFF o b false (bankHeard o t k b s) := by
  refine (bankEvaluate_worse (bankHeard_in o t k b s) ht hk hb ?_ ?_ ?_ ?_).trans ?_
  · rwa [bankHeard, decideOn_classMoves]
  · rwa [bankHeard, decideOn_optOn]
  · rwa [bankHeard, decideOn_placedAt]
  · rwa [bankHeard, decideOn_placeOf]
  · rw [show inHold 5 o (bankHeard o t k b s) = inHold 5 o s from decideOn_inHold ..]
    rfl

theorem lanes_moves {c : Fin 5} {m : BitVec 16} {s : State} (hmode : s.life.mode ≠ .startUp) (hdue : evalDue 6 c s = true)
    (hv : Nat.land m.toNat (ownLanes s) ≠ 0) (hplace : placedAt 6 c s ≠ Nat.land m.toNat (ownLanes s)) (hopt : optOn 6 s = true)
    (hthere : (placeOf 6 c s).isSome = true) (hhold : inHold 6 c s = false) :
    evaluate (.lanes c m) s = place 6 2 0xFFFF c (Nat.land m.toNat (ownLanes s)) false
      (decideOn 6 c (withSeed (fun x => { x with laneIn := kset x.laneIn c.val m.toNat }) s)) := by
  refine (evaluate_due (e := .lanes c m) nofun hmode rfl hdue).trans ?_
  refine (laneEvaluate_moves (set := m.toNat) ?_ ?_ ?_ ?_ ?_ ?_).trans ?_
  · rw [decideOn_laneIn]
    exact kget_kset_same _ _ _
  · rwa [decideOn_ownLanes]
  · rwa [decideOn_ownLanes, decideOn_placedAt]
  · rwa [decideOn_optOn]
  · rwa [decideOn_placeOf]
  · rwa [decideOn_inHold]
  · rw [decideOn_ownLanes]
    rfl

theorem serving_off {n : Fin 1024} {x : Sta} {s : State} (hmode : s.life.mode ≠ .startUp) (hx : kget s.mac.sta n = some x)
    (hheard : heardElsewhere n s = true) (hdue : evalDue 8 n s = true) (hoff : coordMode s = false ∨ optOn 8 s = false) :
    evaluate (.serving n) s = decideOn 8 n s := by
  refine (evaluate_due (e := .serving n) nofun hmode (by simp [evalExists, khas, hx, hheard]) hdue).trans (servingEvaluate_off ?_)
  rwa [decideOn_coordMode, decideOn_optOn]

/-- Settles O43: by the case of the evaluation, the overload, the re-placement, the survey or the steering. -/
theorem seederEventsTakeEffect : Obligations.SeederEventsTakeEffect := by
  unfold Obligations.SeederEventsTakeEffect
  refine ⟨fun e => builminDoes (fun _ => rfl) fun s h => evaluate_startUp h, fun e => builminDoes (fun _ => rfl) fun s h => evaluate_absent h,
    fun e => builminDoes (fun _ => rfl) fun s h => evaluate_offGrid h, ?firsts, ?link, ?idle, ?excluded, ?bank, ?lanes, ?serving, ?pitchNot, ?pitch,
    fun d n rise l => builminDoes (fun _ => rfl) fun s _ => overload_none .., fun d n rise l o => builminDoes (fun _ => rfl) fun s h => overload_off h, ?queue,
    fun f => builminDoes (fun _ => rfl) fun s h => forced_startUp h, fun r n => builminDoes (fun _ => rfl) fun s h => forced_chains h.1 h.2,
    fun r => builminDoes (fun _ => rfl) fun s h => forced_channel h, builminDoes (fun _ => rfl) fun s h => forced_rope h,
    fun g => builminDoes (fun _ => rfl) fun s h => forced_cipher h, fun p => builminDoes (fun _ => rfl) fun s h => forced_portUp h, ?surveys, ?steering⟩
  case firsts =>
    intro e he
    refine builminDoes (fun _ => rfl) ?_
    rintro s ⟨hmode, hthere, hfirst⟩
    exact evaluate_first he hmode hthere hfirst
  case link =>
    intro n a b c
    refine builminDoes (fun _ => rfl) ?_
    rintro s ⟨hmode, hdue, x, hx, hmld, hlinks⟩
    exact link_due hmode hdue hx hmld hlinks
  case idle =>
    intro r l
    refine builminDoes (fun _ => rfl) ?_
    rintro s ⟨hmode, hr, hdue, hin, hbest⟩
    exact channel_idle hmode hr hdue hin hbest
  case excluded =>
    intro r l
    refine builminDoes (fun _ => rfl) ?_
    rintro s ⟨hmode, hr, hdue, hout⟩
    exact channel_excluded hmode hr hdue hout
  case bank =>
    intro c ch t k b o heard falls worse
    refine ⟨builminDoes (fun _ => rfl) ?_, builminDoes (fun _ => rfl) ?_, builminDoes (fun _ => rfl) ?_⟩
    · rintro s ⟨⟨⟨hmode, hready, hdue⟩, ht, hk, hb, hmoves, hopt, hplace, hthere⟩, hhold⟩
      refine (evaluate_bank hmode hready hdue).trans ((bankEvaluate_heard ht hk hb hmoves hopt hplace hthere).trans ?_)
      exact if_neg (by simp [o, hhold])
    · rintro s ⟨⟨⟨hmode, hready, hdue⟩, ht, hk, hb, hmoves, hopt, hplace, hthere⟩, hhold⟩
      exact (evaluate_bank hmode hready hdue).trans ((bankEvaluate_heard ht hk hb hmoves hopt hplace hthere).trans (if_pos hhold))
    · rintro s ⟨⟨hmode, hready, hdue⟩, h⟩
      exact (evaluate_bank hmode hready hdue).trans (bankEvaluate_quiet (bankHeard_in ..) h)
  case lanes =>
    intro c m v
    refine builminDoes (fun _ => rfl) ?_
    rintro s ⟨hmode, hdue, hv, hplace, hopt, hthere, hhold⟩
    exact lanes_moves hmode hdue hv hplace hopt hthere hhold
  case serving =>
    intro n x
    refine builminDoes (fun _ => rfl) ?_
    rintro s ⟨hmode, hx, hheard, hdue, hoff⟩
    exact serving_off hmode hx hheard hdue hoff
  case pitchNot => exact builminDoes (fun _ => rfl) fun s h => evaluate_absent (by simp [evalExists, h])
  case pitch => exact builminDoes (fun _ => rfl) fun s h => evaluate_pitch h.1 h.2.1 h.2.2
  case queue =>
    intro n rise a b k w q hn load hot
    have hlt : n < 2 := by omega
    have hport : (Fin.ofNat 64 n).val = n := Nat.mod_eq_of_lt (by omega)
    have hload : load.getD n 0 = a ∧ load.getD (1 - n) 0 = b := by obtain rfl | rfl := hn <;> exact ⟨rfl, rfl⟩
    have hrun (s : State) (h : hot s) : overload .queue (Fin.ofNat 64 n) rise load [(k, false, w)] s =
        if inHold 2 k s then seedCount 2 1 (seedCount 0 1 s) else place 2 9 0xFFFF k (1 - n) false (seedCount 0 1 s) := by
      obtain ⟨hopt, hover, hroom, hplace, htarget, hmember, hup⟩ := h
      rw [hport]
      exact overload_queue hlt hopt (by rwa [hload.1]) (by rwa [hload.2]) hplace htarget hmember hup
    refine ⟨builminDoes (fun _ => rfl) fun s h => (hrun s h.1).trans (if_neg (by simp [h.2])), builminDoes (fun _ => rfl) fun s h => (hrun s h.1).trans (if_pos h.2)⟩
  case surveys =>
    intro r n
    subst n
    refine ⟨fun c bw prim => builminDoes (fun _ => rfl) ?_, fun c bw prim => builminDoes (fun _ => rfl) fun s h => surveyDwell_not h, builminDoes (fun _ => rfl) ?_,
      fun l => builminDoes (fun _ => rfl) fun s h => surveyEnd_due h.1 h.2, fun l => builminDoes (fun _ => rfl) fun s h => surveyEnd_not h⟩
    · rintro s ⟨hr, hint, hopt, hstate, hquiet, hheld, hdue, hsurvey, hfence, hother, hseg, hindex⟩
      exact surveyDwell_starts (rnum_ne_zero hr) hint hopt hstate hquiet hheld hdue hsurvey hfence hother hseg hindex
    · rintro s ⟨hr, hint, hopt, hindex⟩
      exact surveySkip_due (rnum_ne_zero hr) hint hopt hindex
  case steering =>
    intro n x c told
    refine ⟨fun st => builminDoes (fun _ => rfl) fun s h => steerResult_told h.1 h.2, builminDoes (f := steerTimeout n) (fun _ => rfl) ?_,
      fun t => builminDoes (f := steerTimeout n) (fun _ => rfl) fun s h => steerTimeout_early h.1 h.2.1 h.2.2,
      fun st => builminDoes (fun _ => rfl) fun s h => steerResult_none h.1 h.2⟩
    rintro s ⟨hx, hc, hdue⟩
    exact steerTimeout_due hx hc hdue

end Sys2Proof.Machine
end

section
/-!
SUPPORT. The router's pipelines, its exceptions, its slow path and its ages, by case.
-/
namespace Sys2Proof.Machine
open Sys2Proof

/-! A frame at the router's pipelines. -/

theorem routerClassify_empty {pipe mism : Nat} {k : Checks} {s : State} (h : s.router.inq = []) : routerClassify pipe mism k s = s := by
  unfold routerClassify
  rw [h]

section
variable {pipe mism : Nat} {k : Checks} {f : Frame} {l : List Frame} {s : State} (hq : s.router.inq = f :: l)
include hq

theorem routerClassify_out (hout : pipesOut s = true) :
    routerClassify pipe mism k s = frameDone f .aborted [] (rtCount 16 1 (withRouter (fun x => { x with inq := l }) s)) := by
  unfold routerClassify
  rw [hq]
  exact if_pos hout

variable (hin : pipesOut s = false)
include hin

theorem routerClassify_fenced (hfenced : partFenced (0x10 + pipe) s = true) : routerClassify pipe mism k s = s := by
  unfold routerClassify
  rw [hq]
  exact (if_neg (by simp [hin])).trans (if_pos hfenced)

variable (hfree : partFenced (0x10 + pipe) s = false)
include hfree

theorem routerClassify_mismatch (hmism : mism = 2) : routerClassify pipe mism k s = frameDone f .aborted [] (rtCount 16 1
    (fencePart (0x10 + pipe) (relCount 0 1 (withRouter (fun x => { x with inq := l }) s)))) := by
  unfold routerClassify
  rw [hq]
  exact (if_neg (by simp [hin])).trans ((if_neg (by simp [hfree])).trans (if_pos hmism))

theorem routerClassify_frame (hmism : mism = 0) : routerClassify pipe mism k s = routeFrame k f (withRouter (fun x => { x with inq := l }) s) := by
  subst hmism
  unfold routerClassify
  rw [hq]
  exact (if_neg (by simp [hin])).trans (if_neg (by simp [hfree]))
end

theorem toControl_ring {f : Frame} {n : Nat} {s : State} (h : s.router.controlRing = some n) :
    toControl f s = frameArrived f (toRing n { f with ring := none, bytes := etherBytes f } s) := by
  unfold toControl
  rw [h]

theorem toControl_none {f : Frame} {s : State} (h : s.router.controlRing = none) :
    toControl f s = frameDone f .aborted [] (rtCount 18 1 s) := by
  unfold toControl
  rw [h]
  rfl

/-- A frame is counted as it enters. -/
def enterCount (f : Frame) (s : State) : State := rtCount 1 (etherBytes f).length (rtCount 0 1 s)

theorem routeFrame_raw {k : Checks} {f : Frame} {s : State} (h : f.raw = true) :
    routeFrame k f s = toControl f (rtCount 2 1 (enterCount f s)) := if_pos h

section
variable {k : Checks} {f : Frame} {s : State} (hraw : f.raw = false)
include hraw

theorem routeFrame_fail (h : parsePkt s.router.vxlan s.router.gre (f.src != 0) (etherBytes f) = .error .fail) :
    routeFrame k f s = toException 1 f (enterCount f s) := by
  unfold routeFrame
  dsimp only
  rw [if_neg (by simp [hraw]), h]
  rfl

theorem routeFrame_depth (h : parsePkt s.router.vxlan s.router.gre (f.src != 0) (etherBytes f) = .error .depth) :
    routeFrame k f s = toException 2 f (enterCount f s) := by
  unfold routeFrame
  dsimp only
  rw [if_neg (by simp [hraw]), h]
  rfl

/-- A packet that is steered nowhere and is no fragment. -/
theorem routeFrame_classified {p : Pkt} (h : parsePkt s.router.vxlan s.router.gre (f.src != 0) (etherBytes f) = .ok p)
    (hsteer : steerOf (mkCtx f p (enterCount f s)) (learn (mkCtx f p (enterCount f s)) (enterCount f s)) = none) (hwhole : p.fragHdr = none) :
    routeFrame k f s =
      let c := mkCtx f p (enterCount f s)
      let d := classify k c (learn c (enterCount f s))
      execute d.1 f p d.2 := by
  unfold routeFrame
  dsimp only
  rw [if_neg (by simp [hraw]), h]
  dsimp only
  unfold enterCount at hsteer
  rw [hsteer]
  unfold stages3
  simp only [mkCtx, hwhole]
  rfl
end

/-! The MP's part. -/

theorem exceptionDeliver_empty {s : State} (h : s.router.excq = []) : exceptionDeliver s = s := by
  unfold exceptionDeliver
  rw [h]

theorem exceptionDeliver_ring {e : Exc} {l : List Exc} {n : Nat} {s : State} (h : s.router.excq = e :: l) (hring : s.router.excRing = some n) :
    exceptionDeliver s = frameArrived e.frame (toRing n { e.frame with
      src := 2, raw := false, ring := none
      bytes := [byte e.reason, byte e.srcClass, 0, 0] ++ le 4 e.source ++ etherBytes e.frame } (withRouter (fun x => { x with excq := l }) s)) := by
  unfold exceptionDeliver
  rw [h]
  dsimp only
  rw [withRouter_router, hring]

theorem exceptionDeliver_none {e : Exc} {l : List Exc} {s : State} (h : s.router.excq = e :: l) (hring : s.router.excRing = none) :
    exceptionDeliver s = frameDone e.frame .aborted [] (rtCount 18 1 (withRouter (fun x => { x with excq := l }) s)) := by
  unfold exceptionDeliver
  rw [h]
  dsimp only
  rw [withRouter_router, hring]
  rfl

theorem fragmentSlowPath_empty {k : Checks} {s : State} (h : s.router.fragIn = []) : fragmentSlowPath k s = s := by
  unfold fragmentSlowPath
  rw [h]

theorem reparse_fragIn (f : Frame) (l : List Frame) (s : State) : reparse f (withRouter (fun x => { x with fragIn := l }) s) = reparse f s := rfl

theorem slowGet_fragIn (key : List Byte) (l : List Frame) (s : State) :
    slowGet key (withRouter (fun x => { x with fragIn := l }) s) = slowGet key s := rfl

section
variable {k : Checks} {f : Frame} {l : List Frame} {h : IpHdr} {s : State} (hin : s.router.fragIn = f :: l)
  (hfrag : (reparse f s).fragHdr = some h)
include hin hfrag

theorem fragmentSlowPath_decided {d : FragDec} (hdec : (slowGet (fragKey (etherBytes f) h) s).bind (·.dec) = some d) (hlater : isLater h = true) :
    fragmentSlowPath k s = execute d f (reparse f s) (withRouter (fun x => { x with fragIn := l }) s) := by
  simp only [fragmentSlowPath, hin, reparse_fragIn, hfrag, slowGet_fragIn, hdec, if_pos hlater]

theorem fragmentSlowPath_held (hdec : (slowGet (fragKey (etherBytes f) h) s).bind (·.dec) = none) (hlater : isLater h = true) :
    fragmentSlowPath k s = slowHold (fragKey (etherBytes f) h) f (withRouter (fun x => { x with fragIn := l }) s) := by
  simp only [fragmentSlowPath, hin, reparse_fragIn, hfrag, slowGet_fragIn, hdec, if_pos hlater]

theorem fragmentSlowPath_first (hfirst : isLater h = false) : fragmentSlowPath k s =
    let t := withRouter (fun x => { x with fragIn := l }) s
    let d := classify k (mkCtx f (reparse f s) t) t
    slowDecide (fragKey (etherBytes f) h) d.1 (execute d.1 f (reparse f s) d.2) := by
  simp only [fragmentSlowPath, hin, reparse_fragIn, hfrag, hfirst, Bool.false_eq_true, if_false]
end

theorem slowDue_early {d : SlowDg} {now : Nat} (h : d.dec ≠ none ∨ now < d.at_ + 1000000000) : slowDue now d = false := by
  obtain h | h := h
  · simp [slowDue, h]
  · simp only [slowDue, decide_eq_false (Nat.not_le.mpr h), Bool.and_false]

theorem slowFragTimeout_early {s : State} (h : ∀ d ∈ s.router.slow, d.dec ≠ none ∨ s.now < d.at_ + 1000000000) : slowFragTimeout s = s := by
  have hnone : s.router.slow.find? (slowDue s.now) = none := List.find?_eq_none.mpr fun d hd => by simp [slowDue_early (h d hd)]
  unfold slowFragTimeout
  rw [hnone]

theorem slowFragTimeout_due {g : SlowDg} {s : State} (h : s.router.slow.find? (slowDue s.now) = some g) : slowFragTimeout s =
    g.held.foldl (fun t f => routerDrop 23 f t) (withRouter (fun x => { x with slow := x.slow.erase g }) s) := by
  unfold slowFragTimeout
  rw [h]

/-! Ageing. -/

/-- A flow that has been idle for its time. -/
def flowOld (s : State) (p : Nat × Flow) : Prop := p.2.idle ≠ 0 ∧ p.2.hitAt + p.2.idle * 500000000 ≤ s.now

theorem flowOld_iff (s : State) (p : Nat × Flow) :
    (p.2.idle != 0 && decide (p.2.hitAt + p.2.idle * 500000000 ≤ s.now)) = true ↔ flowOld s p := by
  rw [Bool.and_eq_true, bne_iff_ne]
  exact and_congr Iff.rfl decide_eq_true_iff

theorem oldFlows_none {s : State} {l : KMap Flow} (h : ∀ p ∈ l, ¬ flowOld s p) :
    l.filter (fun p => p.2.idle != 0 && decide (p.2.hitAt + p.2.idle * 500000000 ≤ s.now)) = [] :=
  List.filter_eq_nil_iff.mpr fun p hp hold => h p hp ((flowOld_iff s p).mp hold)

theorem oldFlows_one {s : State} {a b : KMap Flow} {p : Nat × Flow} (hold : flowOld s p) (ha : ∀ q ∈ a, ¬ flowOld s q) (hb : ∀ q ∈ b, ¬ flowOld s q) :
    (a ++ p :: b).filter (fun p => p.2.idle != 0 && decide (p.2.hitAt + p.2.idle * 500000000 ≤ s.now)) = [p] := by
  rw [List.filter_append, oldFlows_none ha, List.nil_append, List.filter_cons, if_pos ((flowOld_iff s p).mpr hold), oldFlows_none hb]

theorem flowAgeCheck_early {s : State} (h : ∃ t, s.router.agedAt = some t ∧ s.now < t + 500000000) : flowAgeCheck s = s := by
  obtain ⟨t, ht, hnow⟩ := h
  have hdue : ageDue s = false := by
    unfold ageDue
    rw [ht]
    exact decide_eq_false (Nat.not_le.mpr hnow)
  exact if_pos (by simp [hdue])

theorem flowAgeCheck_due {s : State} (h : ageDue s = true) : flowAgeCheck s =
    (s.router.flows.filter fun p => p.2.idle != 0 && decide (p.2.hitAt + p.2.idle * 500000000 ≤ s.now)).foldl
      (fun t p => rtCount 13 1 (flowRemove p.1 t)) (withRouter (fun x => { x with agedAt := some s.now }) s) := if_neg (by simp [h])

theorem fdbAge_old {d : Nat} {mac : List Byte} {e : Fdb} {s : State} (h : fdbGet d mac s = some e) (hkind : e.kind = 2)
    (hold : e.seen + s.router.fdbAge * 500000000 ≤ s.now) : fdbAge d mac s =
      rtCount 12 1 (withRouter (fun x => { x with fdb := x.fdb.filter fun e => !(e.domain == d && e.mac == mac) }) s) := by
  unfold fdbAge
  rw [h]
  exact if_pos ⟨hkind, hold⟩

theorem fdbAge_young {d : Nat} {mac : List Byte} {e : Fdb} {s : State} (h : fdbGet d mac s = some e)
    (hkept : e.kind ≠ 2 ∨ s.now < e.seen + s.router.fdbAge * 500000000) : fdbAge d mac s = s := by
  unfold fdbAge
  rw [h]
  refine if_neg fun hold => ?_
  obtain hkind | hyoung := hkept
  · exact hkind hold.1
  · exact absurd hyoung (Nat.not_lt.mpr hold.2)

/-- Settles O44: by the case of the pipeline, of the MP's queues and of the ages. -/
theorem routerEventsTakeEffect : Obligations.RouterEventsTakeEffect := by
  unfold Obligations.RouterEventsTakeEffect
  refine ⟨?pipes, builminDoes (fun _ => rfl) fun s h => exceptionDeliver_empty h,
    fun e l n => builminDoes (fun _ => rfl) fun s h => exceptionDeliver_ring h.1 h.2,
    fun e l => builminDoes (fun _ => rfl) fun s h => exceptionDeliver_none h.1 h.2, ?slow,
    builminDoes (fun _ => rfl) fun s h => slowFragTimeout_early h, fun g => builminDoes (fun _ => rfl) ?slow0,
    fun g f => builminDoes (fun _ => rfl) ?slow1, ?flows, fun d mac e => does (fun _ => rfl) fun s h => fdbAge_old h.1 h.2.1 h.2.2,
    fun d mac e => does (fun _ => rfl) fun s h => fdbAge_young h.1 h.2⟩
  case pipes =>
    intro pipe mism bad rows k
    refine ⟨does (fun _ => rfl) fun s h => routerClassify_empty h, fun f l => ?_⟩
    intro taken counted goes parsed
    have hframe (s : State) (h : goes s) : routerClassify pipe mism k s = routeFrame k f (taken s) := by
      obtain ⟨hq, hin, hfree, hmism⟩ := h
      exact routerClassify_frame hq hin hfree (by simp [hmism])
    refine ⟨does (fun _ => rfl) fun s h => routerClassify_out h.1 h.2, does (fun _ => rfl) fun s h => routerClassify_fenced h.1 h.2.1 h.2.2,
      does (fun _ => rfl) ?_, fun n => does (fun _ => rfl) ?_, does (fun _ => rfl) ?_, does (fun _ => rfl) ?_, does (fun _ => rfl) ?_,
      fun p => does (fun _ => rfl) ?_⟩
    · rintro s ⟨hq, hin, hfree, hmism⟩
      exact routerClassify_mismatch hq hin hfree (by simp [hmism])
    · rintro s ⟨hgoes, hraw, hring⟩
      exact (hframe s hgoes).trans ((routeFrame_raw hraw).trans (toControl_ring hring))
    · rintro s ⟨hgoes, hraw, hring⟩
      exact (hframe s hgoes).trans ((routeFrame_raw hraw).trans (toControl_none hring))
    · rintro s ⟨hgoes, hraw, hparsed⟩
      exact (hframe s hgoes).trans (routeFrame_fail hraw hparsed)
    · rintro s ⟨hgoes, hraw, hparsed⟩
      exact (hframe s hgoes).trans (routeFrame_depth hraw hparsed)
    · rintro s ⟨hgoes, hraw, hparsed, hsteer, hwhole⟩
      exact (hframe s hgoes).trans (routeFrame_classified hraw hparsed hsteer hwhole)
  case slow =>
    intro bad rows
    refine ⟨builminDoes (fun _ => rfl) fun s h => fragmentSlowPath_empty h, fun f l h => ?_⟩
    intro taken frag key
    refine ⟨fun d => builminDoes (fun _ => rfl) ?_, builminDoes (fun _ => rfl) ?_, builminDoes (fun _ => rfl) ?_⟩
    · rintro s ⟨⟨hin, hfrag⟩, hdec, hlater⟩
      exact fragmentSlowPath_decided hin hfrag hdec hlater
    · rintro s ⟨⟨hin, hfrag⟩, hdec, hlater⟩
      exact fragmentSlowPath_held hin hfrag hdec hlater
    · rintro s ⟨⟨hin, hfrag⟩, hfirst⟩
      exact fragmentSlowPath_first hin hfrag hfirst
  case slow0 =>
    rintro s ⟨hfind, hheld⟩
    rw [slowFragTimeout_due hfind, hheld, List.foldl_nil]
  case slow1 =>
    rintro s ⟨hfind, hheld⟩
    rw [slowFragTimeout_due hfind, hheld]
    rfl
  case flows =>
    intro old aged
    refine ⟨does (fun _ => rfl) fun s h => flowAgeCheck_early h, does (fun _ => rfl) ?_, fun a b p => does (fun _ => rfl) ?_⟩
    · rintro s ⟨hdue, hyoung⟩
      rw [flowAgeCheck_due hdue, oldFlows_none hyoung]
      rfl
    · rintro s ⟨hdue, hflows, hold, ha, hb⟩
      rw [flowAgeCheck_due hdue, hflows, oldFlows_one hold ha hb]
      rfl

end Sys2Proof.Machine
end

section
/-!
SUPPORT. Frames in and out of a port, PAUSE, the link, preemption and fallow stepping, by case.
-/
namespace Sys2Proof.Machine
open Sys2Proof

/-! A port's counts. -/

theorem port_withPort {p : Nat} (hp : p < 2) (f : Port → Port) (s : State) : port p (withPort p f s) = f (port p s) := vget_vmod_same s.eth p f hp

/-- What of a port an update leaves as it was. -/
theorem port_proj {β : Type} {p : Nat} {f : Port → Port} (q : Port → β) (h : ∀ x, q (f x) = q x) (s : State) :
    q (port p (withPort p f s)) = q (port p s) := vget_vmod_proj s.eth p p q h

theorem portCount_proj {β : Type} {p i k : Nat} (q : Port → β) (h : ∀ x c, q { x with ctr := c } = q x) (s : State) :
    q (port p (portCount p i k s)) = q (port p s) := port_proj q (fun x => h x _) s

theorem portCount_zero (p i : Nat) (s : State) : portCount p i 0 s = s := by
  have hsame : withPort p (fun x => { x with ctr := vadd x.ctr i 0 }) s = s :=
    congrArg (fun v => { s with eth := v }) (vmod_id s.eth p (by rw [vadd_zero]))
  exact hsame

@[simp] theorem raise_eth (n : EvName) (inst : Nat) (data : List Byte) (s : State) : (raise n inst data s).eth = s.eth :=
  show (offHost (raise n inst data s)).eth = (offHost s).eth from congrArg State.eth (raise_offHost n inst data s)

/-! Reception. -/

/-- The wire's counts of a frame. -/
def rxTold (p fr fec : Nat) (s : State) : State := portCount p 22 fec (portCount p 16 fr s)

theorem rxTold_proj {β : Type} {p fr fec : Nat} (q : Port → β) (h : ∀ x c, q { x with ctr := c } = q x) (s : State) :
    q (port p (rxTold p fr fec s)) = q (port p s) :=
  (portCount_proj q h _).trans (portCount_proj q h s)

theorem ethFrameRx_deaf {p : Nat} {e : EthRx} {s : State} (h : (port p s).up = false ∨ (port p s).stepping ≠ none) : ethFrameRx p e s = s := by
  refine if_pos ?_
  obtain h | h := h
  · simp [h]
  · simp [Option.isSome_iff_ne_none.mpr h]

section
variable {p : Nat} {e : EthRx} {s : State} (hup : (port p s).up = true) (hstep : (port p s).stepping = none)
include hup hstep

theorem ethFrameRx_assembly (herr : e.err = 1) : ethFrameRx p e s = portCount p 17 1 (rxTold p e.frags e.fec s) := by
  refine (if_neg (by simp [hup, hstep])).trans (if_pos herr)

theorem ethFrameRx_smd (herr : e.err = 2) : ethFrameRx p e s = portCount p 18 1 (rxTold p e.frags e.fec s) :=
  (if_neg (by simp [hup, hstep])).trans ((if_neg (by simp [herr])).trans (if_pos herr))

variable (herr : e.err = 0)
include herr

theorem ethFrameRx_whole : ethFrameRx p e s =
    if e.bytes.length < 64 then portCount p 3 1 (rxTold p e.frags e.fec s)
    else if sizeLimit (port p s) e.bytes < e.bytes.length then portCount p 4 1 (rxTold p e.frags e.fec s)
    else if !e.fcsOk then portCount p 2 1 (rxTold p e.frags e.fec s)
    else ethAccept p e.bytes e.express e.util (rxTold p e.frags e.fec s) :=
  (if_neg (by simp [hup, hstep])).trans ((if_neg (by simp [herr])).trans (if_neg (by simp [herr])))

theorem ethFrameRx_short (hlen : e.bytes.length < 64) : ethFrameRx p e s = portCount p 3 1 (rxTold p e.frags e.fec s) :=
  (ethFrameRx_whole hup hstep herr).trans (if_pos hlen)

variable (hlen : 64 ≤ e.bytes.length)
include hlen

theorem ethFrameRx_long (hlimit : sizeLimit (port p s) e.bytes < e.bytes.length) : ethFrameRx p e s = portCount p 4 1 (rxTold p e.frags e.fec s) :=
  (ethFrameRx_whole hup hstep herr).trans ((if_neg (Nat.not_lt.mpr hlen)).trans (if_pos hlimit))

variable (hlimit : e.bytes.length ≤ sizeLimit (port p s) e.bytes)
include hlimit

theorem ethFrameRx_fcs (hfcs : e.fcsOk = false) : ethFrameRx p e s = portCount p 2 1 (rxTold p e.frags e.fec s) :=
  (ethFrameRx_whole hup hstep herr).trans
    ((if_neg (Nat.not_lt.mpr hlen)).trans ((if_neg (Nat.not_lt.mpr hlimit)).trans (if_pos (by simp [hfcs]))))

theorem ethFrameRx_good (hfcs : e.fcsOk = true) : ethFrameRx p e s = ethAccept p e.bytes e.express e.util (rxTold p e.frags e.fec s) :=
  (ethFrameRx_whole hup hstep herr).trans
    ((if_neg (Nat.not_lt.mpr hlen)).trans ((if_neg (Nat.not_lt.mpr hlimit)).trans (if_neg (by simp [hfcs]))))
end

/-- A received frame as the port passes it on. -/
def rxFrameOf (p : Nat) (g : List Byte) (express : Bool) (s : State) : Frame :=
  { bytes := g.take (g.length - 4), src := 1, port := p, stamps := stampIn p s, arrived := s.now, express := express }

section
variable {p util : Nat} {g : List Byte} {express : Bool} {s : State} (hcontrol : be16 (g.take (g.length - 4)) 12 ≠ 0x8808)
  (hfallow : be16 (g.take (g.length - 4)) 12 ≠ 0x88B6)
include hcontrol hfallow

theorem ethAccept_full (hroom : bufferRoom p (sizeLimit (port p s) g) express s = false) : ethAccept p g express util s = portCount p 6 1 s :=
  (if_neg hcontrol).trans ((if_neg fun h => hfallow h.1).trans (if_pos (by simp [hroom])))

variable (hroom : bufferRoom p (sizeLimit (port p s) g) express s = true)
include hroom

theorem ethAccept_filtered (hfilter : filterPass (port p s) (slice (g.take (g.length - 4)) 0 6) = false) :
    ethAccept p g express util s = portCount p 5 1 s :=
  (if_neg hcontrol).trans ((if_neg fun h => hfallow h.1).trans ((if_neg (by simp [hroom])).trans (if_pos (by simp [hfilter]))))

variable (hfilter : filterPass (port p s) (slice (g.take (g.length - 4)) 0 6) = true)
include hfilter

theorem ethAccept_passed : ethAccept p g express util s =
    if !(vget s.sec.port p).en || decide (be16 (g.take (g.length - 4)) 12 = 0x888E) then portAccept p (rxFrameOf p g express s) g.length s
    else if be16 (g.take (g.length - 4)) 12 ≠ 0x88E5 then secCount 7 1 s
    else withSec (fun y => { y with jobs := y.jobs ++ [{ kind := .rxWire, unit := p, slot := none, frame := rxFrameOf p g express s }] }) s :=
  (if_neg hcontrol).trans ((if_neg fun h => hfallow h.1).trans ((if_neg (by simp [hroom])).trans (if_neg (by simp [hfilter]))))

theorem ethAccept_plain (h : (vget s.sec.port p).en = false ∨ be16 (g.take (g.length - 4)) 12 = 0x888E) :
    ethAccept p g express util s = portAccept p (rxFrameOf p g express s) g.length s := by
  refine (ethAccept_passed hcontrol hfallow hroom hfilter).trans (if_pos ?_)
  obtain h | h := h
  · rw [h]
    rfl
  · rw [decide_eq_true h, Bool.or_true]

variable (hsecure : (vget s.sec.port p).en = true) (heapol : be16 (g.take (g.length - 4)) 12 ≠ 0x888E)
include hsecure heapol

theorem ethAccept_untagged (h : be16 (g.take (g.length - 4)) 12 ≠ 0x88E5) : ethAccept p g express util s = secCount 7 1 s :=
  (ethAccept_passed hcontrol hfallow hroom hfilter).trans ((if_neg (by rw [hsecure, decide_eq_false heapol]; decide)).trans (if_pos h))

theorem ethAccept_tagged (h : be16 (g.take (g.length - 4)) 12 = 0x88E5) : ethAccept p g express util s =
    withSec (fun y => { y with jobs := y.jobs ++ [{ kind := .rxWire, unit := p, slot := none, frame := rxFrameOf p g express s }] }) s :=
  (ethAccept_passed hcontrol hfallow hroom hfilter).trans
    ((if_neg (by rw [hsecure, decide_eq_false heapol]; decide)).trans (if_neg (fun hn => hn h)))
end

/-! PAUSE. -/

/-- A PAUSE frame, of a port whose link is up. -/
def pauseFrame (p q : Nat) (s : State) : State := if (port p s).up then pauseRx p q s else s

theorem pauseFrame_off {p q : Nat} {s : State} (hup : (port p s).up = true) (hen : (port p s).pauseEn = false) :
    pauseFrame p q s = portCount p 7 1 s := (if_pos hup).trans (if_pos (by simp [hen]))

theorem pauseFrame_begins {p q : Nat} {s : State} (hup : (port p s).up = true) (hen : (port p s).pauseEn = true) (hnone : (port p s).pause = none)
    (hq : q ≠ 0) : pauseFrame p q s =
      withPort p (fun y => { y with pause := some (s.now, q * 64 * byteTime y.speed / 100) }) (portCount p 7 1 s) := by
  have hnone' : (port p (portCount p 7 1 s)).pause = none := (portCount_proj (fun x : Port => x.pause) (fun _ _ => rfl) s).trans hnone
  have hstop : pauseStop p (portCount p 7 1 s) = portCount p 7 1 s := by
    unfold pauseStop
    rw [hnone']
  unfold pauseFrame pauseRx
  dsimp only
  rw [if_pos hup, if_neg (by simp [hen]), hstop, if_neg hq]

theorem pauseFrame_ends {p t n : Nat} {s : State} (hup : (port p s).up = true) (hen : (port p s).pauseEn = true)
    (hpause : (port p s).pause = some (t, n)) : pauseFrame p 0 s =
      portCount p 13 (min n ((s.now - t) * 2)) (withPort p (fun y => { y with pause := none }) (portCount p 7 1 s)) := by
  have hpause' : (port p (portCount p 7 1 s)).pause = some (t, n) := (portCount_proj (fun x : Port => x.pause) (fun _ _ => rfl) s).trans hpause
  unfold pauseFrame pauseRx
  dsimp only
  rw [if_pos hup, if_neg (by simp [hen]), if_pos rfl]
  unfold pauseStop
  rw [hpause']
  rfl

theorem pauseEnd_due {p t n : Nat} {s : State} (h : (port p s).pause = some (t, n)) (hnow : n ≤ (s.now - t) * 2) :
    pauseEnd p s = portCount p 13 n (withPort p (fun y => { y with pause := none }) s) := by
  unfold pauseEnd
  rw [h]
  exact if_neg (Nat.not_lt.mpr hnow)

theorem pauseEnd_early {p t n : Nat} {s : State} (h : (port p s).pause = some (t, n)) (hnow : (s.now - t) * 2 < n) : pauseEnd p s = s := by
  unfold pauseEnd
  rw [h]
  exact if_pos hnow

/-! Transmission. -/

theorem ethFrameTx_silent {p fr : Nat} {s : State} (h : (port p s).up = false ∨ (port p s).stepping ≠ none ∨ nextFrame p s = none) :
    ethFrameTx p fr s = s := by
  unfold ethFrameTx
  dsimp only
  split
  · rfl
  · next hgo =>
    obtain h | h | h := h
    · exact absurd (by simp [h]) hgo
    · exact absurd (by simp [Option.isSome_iff_ne_none.mpr h]) hgo
    · rw [h]

section
variable {p fr : Nat} {q : PortQ} {f : Frame} {s : State} (hup : (port p s).up = true) (hstep : (port p s).stepping = none)
  (hnext : nextFrame p s = some (q, f))
include hup hstep hnext

theorem ethFrameTx_tooLong (hlen : sizeLimit (port p s) f.bytes < f.bytes.length + 4) :
    ethFrameTx p fr s = portCount p 11 1 (frameDone f .badParam [] (withPort p (takeFrame q) s)) := by
  unfold ethFrameTx
  dsimp only
  rw [if_neg (by simp [hup, hstep]), hnext]
  exact if_pos hlen

/-- An express frame, or one of a port without preemption, is sent whole. -/
theorem ethFrameTx_whole (hlen : f.bytes.length + 4 ≤ sizeLimit (port p s) f.bytes) (hwhole : f.express = true ∨ (port p s).preempt = false) :
    ethFrameTx p fr s = frameDone f .ok (stampOut p s) (portCount p 14 (if f.express then 1 else 0)
      (emit (.eth p (f.bytes ++ List.replicate (60 - f.bytes.length) 0)) (portCount p 10 (wireBytes f) (portCount p 9 1
        (withPort p (takeWire q f s.now) (withPort p (takeFrame q) s)))))) := by
  unfold ethFrameTx
  dsimp only
  rw [if_neg (by simp [hup, hstep]), hnext]
  dsimp only
  rw [if_neg (Nat.not_lt.mpr hlen)]
  refine congrArg (frameDone f .ok (stampOut p s)) ?_
  obtain hexp | hpre := hwhole
  · rw [hexp]
    rfl
  · by_cases hexp : f.express = true
    · rw [hexp]
      rfl
    · rw [if_neg hexp, if_neg (by simp [hpre]), if_neg hexp, portCount_zero]
end

theorem nextFrame_may {p : Nat} {q : PortQ} {f : Frame} {s : State} (h : nextFrame p s = some (q, f)) (hq : q ≠ .due) :
    (if f.express = true ∧ (port p s).preempt = true then (port p s).expBusy else (port p s).wireBusy) ≤ s.now * 200 ∧
      mayStart (port p s) f s = true := by
  have hfound := List.find?_some h
  simp only [beq_false_of_ne hq, Bool.false_or, Bool.and_eq_true, wireOpen] at hfound
  exact ⟨of_decide_eq_true hfound.1, hfound.2⟩

section
variable {p left : Nat} {f : Frame} {s : State} (h : holdLeft (port p s) s = some (f, left))
include h

theorem launchWireHold_holds (hup : (port p s).up = true) (hexp : f.express = true) (hpre : (port p s).preempt = true)
    (hfree : (port p s).wireHold = false) (hnear : left * 100 ≤ (64 * (1 + (port p s).addFrag) + 84) * byteTime (port p s).speed) :
    launchWireHold p s = portCount p 19 1 (withPort p (fun y => { y with wireHold := true }) s) := by
  unfold launchWireHold
  dsimp only
  rw [h]
  exact if_pos (by simp [hup, hexp, hpre, hfree, holdAdv, hnear])

theorem launchWireHold_far (hfar : (64 * (1 + (port p s).addFrag) + 84) * byteTime (port p s).speed < left * 100) : launchWireHold p s = s := by
  unfold launchWireHold
  dsimp only
  rw [h]
  exact if_neg (by simp [holdAdv, Nat.not_le.mpr hfar])
end

/-! The link and preemption. -/

theorem linkUp_up {p speed fec addFrag : Nat} {s : State} (h : (port p s).up = true) : linkUp p speed fec addFrag s = s := if_pos h

theorem linkUp_mode {p speed fec addFrag v c : Nat} {s : State} (h : (port p s).up = false) (hmode : linkMode (port p s) speed fec = some (v, c)) :
    linkUp p speed fec addFrag s = raise .ethLink p [1, byte v, byte c, 0] (withPort p (fun y => { y with
      up := true, speed := v, fec := c, anDone := y.mode == 1, upAt := s.now, calmFrom := s.now, wireBusy := 0, expBusy := 0, preempt := false
      verifies := 0, verifyDone := false, addFrag := addFrag }) s) := by
  unfold linkUp
  rw [if_neg (by simp [h]), hmode]

theorem linkDown_down {p cause : Nat} {s : State} (h : (port p s).up = false) : linkDown p cause s = s := if_pos (by simp [h])

theorem linkDown_empty {p cause : Nat} {s : State} (h : (port p s).up = true) (hempty : portFrames (port p s) = []) : linkDown p cause s =
    raise .ethLink p [0, 0, 0, byte cause] (portCount p 21 1 (portCount p 12 0 (withPort p (fun y => { y with
      up := false, speed := 0, fec := 0, anDone := false, preempt := false, stepping := none, freq := none, capsAt := none
      fallow := y.fallow && (y.keepFallow || y.stepping.isNone), keepFallow := true
      dueQ := [], expQ := [], lateQ := [], launchQ := [], txQ := [], launchHeld := false, wireHold := false }) s))) := by
  unfold linkDown
  dsimp only
  rw [if_neg (by simp [h]), hempty]
  rfl

section
variable {p : Nat} {s : State}

theorem preemptVerify_early (hsome : (port p s).verifies ≠ 0) (hnow : s.now < (port p s).verifyAt + (port p s).verifyTime * 500000) :
    preemptVerify p s = s := if_pos (by simp [hsome, hnow])

variable (hup : (port p s).up = true) (hen : (port p s).preemptEn = true) (hopen : (port p s).verifyDone = false)
  (hdue : (port p s).verifies = 0 ∨ (port p s).verifyAt + (port p s).verifyTime * 500000 ≤ s.now)
include hup hen hopen hdue

theorem preemptVerify_due : preemptVerify p s =
    if (port p s).verifies < 3 then
      emit (.mpacket p false) (withPort p (fun y => { y with verifies := y.verifies + 1, verifyAt := s.now }) s)
    else portCount p 20 1 (withPort p (fun y => { y with verifyDone := true }) s) := by
  refine if_neg ?_
  obtain h | h := hdue
  · simp [hup, hen, hopen, h]
  · simp [hup, hen, hopen, h]

theorem preemptVerify_sends (h : (port p s).verifies < 3) : preemptVerify p s =
    emit (.mpacket p false) (withPort p (fun y => { y with verifies := y.verifies + 1, verifyAt := s.now }) s) :=
  (preemptVerify_due hup hen hopen hdue).trans (if_pos h)

theorem preemptVerify_fails (h : 3 ≤ (port p s).verifies) :
    preemptVerify p s = portCount p 20 1 (withPort p (fun y => { y with verifyDone := true }) s) :=
  (preemptVerify_due hup hen hopen hdue).trans (if_neg (Nat.not_lt.mpr h))
end

theorem respondMpacket_off {p : Nat} {v : Bool} {s : State} (h : (port p s).up = false ∨ (port p s).preemptEn = false) :
    respondMpacket p v s = s := by
  refine if_pos ?_
  obtain h | h := h <;> simp [h]

theorem respondMpacket_verify {p : Nat} {s : State} (hup : (port p s).up = true) (hen : (port p s).preemptEn = true) :
    respondMpacket p false s = emit (.mpacket p true) s := (if_neg (by simp [hup, hen])).trans (if_pos rfl)

theorem respondMpacket_verified {p : Nat} {s : State} (hup : (port p s).up = true) (hen : (port p s).preemptEn = true)
    (hsent : 0 < (port p s).verifies) (hopen : (port p s).verifyDone = false) :
    respondMpacket p true s = withPort p (fun y => { y with preempt := true, verifyDone := true }) s :=
  (if_neg (by simp [hup, hen])).trans ((if_neg (by simp)).trans (if_neg (by simp [Nat.ne_of_gt hsent, hopen])))

/-! Fallow stepping. -/

theorem capsSend_due {p : Nat} {s : State} (hup : (port p s).up = true) (hmay : mayStep (port p s) = true) (hstep : (port p s).stepping = none)
    (hdue : ∀ t, (port p s).capsSent = some t → t + 500000000 ≤ s.now) :
    capsSend p s = fallowSend p 0 0 0 (withPort p (fun y => { y with capsSent := some s.now }) s) := by
  have hcaps : capsDue (port p s) s.now = true := by
    unfold capsDue
    cases ht : (port p s).capsSent with
    | none => rfl
    | some t => exact decide_eq_true (hdue t ht)
  exact if_pos (by simp [hup, hmay, hstep, hcaps])

theorem capsSend_early {p t : Nat} {s : State} (ht : (port p s).capsSent = some t) (hnow : s.now < t + 500000000) : capsSend p s = s := by
  have hcaps : capsDue (port p s) s.now = false := by
    unfold capsDue
    rw [ht]
    exact decide_eq_false (Nat.not_le.mpr hnow)
  exact if_neg (by simp [hcaps])

theorem capsTimeout_due {p t : Nat} {s : State} (ht : (port p s).capsAt = some t) (hnow : t + 1500000000 ≤ s.now) :
    capsTimeout p s = withPort p (fun y => { y with capsAt := none }) s := by
  unfold capsTimeout
  rw [ht]
  exact if_pos hnow

theorem capsTimeout_early {p t : Nat} {s : State} (ht : (port p s).capsAt = some t) (hnow : s.now < t + 1500000000) : capsTimeout p s = s := by
  unfold capsTimeout
  rw [ht]
  exact if_neg (Nat.not_le.mpr hnow)

/-- A port that may ask its partner for a step. -/
structure MayAsk (x : Port) : Prop where
  up : x.up = true
  auto : x.mode = 1
  fast : bit x.anSpeeds 2 = true
  heard : x.capsAt ≠ none
  free : x.freq = none
  still : x.stepping = none

theorem stepRequest_asks {p target : Nat} {s : State} (h : MayAsk (port p s)) : stepRequest p target s = fallowSend p 1 target (port p s).fseq
    (withPort p (fun y => { y with freq := some (y.fseq, target), freqAt := s.now, fseq := (y.fseq + 1) % 2 ^ 32 }) s) := by
  have hcaps : (port p s).capsAt.isNone = false := Option.isNone_eq_false_iff.mpr (Option.isSome_iff_ne_none.mpr h.heard)
  exact if_neg (by simp [h.up, mayStep, h.auto, h.fast, hcaps, h.free, h.still])

theorem downTrigger_asks {p : Nat} {s : State} (h : MayAsk (port p s)) (hcalm : (port p s).calmFrom + 15000000000 ≤ s.now)
    (hfallow : (port p s).fallow = true) (hspeed : 1 < (port p s).speed) (hserial : s.glb.serial.toNat < (port p s).peer)
    (hpitch : pitchTraffic p s = false) : downTrigger p s = fallowSend p 1 ((port p s).speed - 1) (port p s).fseq
      (withPort p (fun y => { y with freq := some (y.fseq, (port p s).speed - 1), freqAt := s.now, fseq := (y.fseq + 1) % 2 ^ 32 }) s) :=
  (if_pos (by simp only [decide_eq_true hcalm, hfallow, decide_eq_true hspeed, decide_eq_true hserial, hpitch, Bool.not_false, Bool.and_self])).trans
    (stepRequest_asks h)

theorem downTrigger_not {p : Nat} {s : State} (h : s.now < (port p s).calmFrom + 15000000000 ∨ (port p s).fallow = false ∨
    (port p s).peer ≤ s.glb.serial.toNat ∨ pitchTraffic p s = true) : downTrigger p s = s := by
  refine if_neg ?_
  obtain h | h | h | h := h
  · simp only [decide_eq_false (Nat.not_le.mpr h), Bool.false_and, Bool.false_eq_true, not_false_eq_true]
  · simp [h]
  · simp [Nat.not_lt.mpr h]
  · simp [h]

theorem upTrigger_asks {p : Nat} {s : State} (h : MayAsk (port p s)) (hfallow : (port p s).fallow = true) (hspeed : (port p s).speed < 3) :
    upTrigger p s = fallowSend p 1 ((port p s).speed + 1) (port p s).fseq
      (withPort p (fun y => { y with freq := some (y.fseq, (port p s).speed + 1), freqAt := s.now, fseq := (y.fseq + 1) % 2 ^ 32 }) s) :=
  (if_pos (by simp [wantsUp, hfallow, hspeed])).trans (stepRequest_asks h)

theorem upTrigger_not {p : Nat} {s : State} (h : 3 ≤ (port p s).speed) : upTrigger p s = s :=
  if_neg (by simp [wantsUp, Nat.not_lt.mpr h])

section
variable {p target seq util : Nat} {s : State} (hup : (port p s).up = true) (hmay : mayStep (port p s) = true)
include hup hmay

theorem stepReqRx_refused (h : (port p s).stepping ≠ none ∨ target < (port p s).speed ∧ ((port p s).fallow = false ∨ pitchTraffic p s = true ∨ 100 ≤ util)) :
    stepReqRx p target seq util s = fallowSend p 3 target seq s := by
  refine (if_neg (by simp [hup, hmay])).trans (if_pos ?_)
  obtain h | ⟨hdown, h⟩ := h
  · simp [Option.isSome_iff_ne_none.mpr h]
  · obtain h | h | h := h <;> simp [hdown, h]

theorem stepReqRx_begins (hstep : (port p s).stepping = none)
    (h : (port p s).speed ≤ target ∨ (port p s).fallow = true ∧ pitchTraffic p s = false ∧ util < 100) : stepReqRx p target seq util s =
      withPort p (fun y => { y with stepping := some (y.speed, target), freq := none }) (fallowSend p 2 target seq s) := by
  refine (if_neg (by simp [hup, hmay])).trans (if_neg ?_)
  obtain h | ⟨hfallow, hpitch, hutil⟩ := h
  · simp [hstep, Nat.not_lt.mpr h]
  · simp [hstep, hfallow, hpitch, Nat.not_le.mpr hutil]
end

theorem stepAckRx_begins {p q target : Nat} {s : State} (h : (port p s).freq = some (q, target)) (hstep : (port p s).stepping = none) :
    stepAckRx p q s = withPort p (fun y => { y with stepping := some (y.speed, target), freq := none }) s := by
  unfold stepAckRx
  rw [h]
  exact if_pos ⟨rfl, by simp [hstep]⟩

theorem stepAckRx_other {p q seq target : Nat} {s : State} (h : (port p s).freq = some (q, target)) (hq : q ≠ seq) : stepAckRx p seq s = s := by
  unfold stepAckRx
  rw [h]
  exact if_neg fun h => hq h.1

theorem stepNakRx_asked {p q target : Nat} {s : State} (h : (port p s).freq = some (q, target)) :
    stepNakRx p q s = withPort p (fun y => { y with freq := none }) s :=
  withPort_congr (by simp [h])

/-- A port whose step to another speed has ended, with stepping on and no step up due. -/
def stepped (p fec new : Nat) (s : State) : State :=
  withPort p (fun y => { y with speed := new, fec := fec, stepping := none, calmFrom := s.now, keepFallow := true, upDue := false }) s

theorem stepEnd_ends {p fec old new : Nat} {s : State} (hp : p < 2) (h : (port p s).stepping = some (old, new))
    (hkeep : (port p s).keepFallow = true) (hdue : (port p s).upDue = false ∨ 3 ≤ new) :
    stepEnd p fec s = raise .ethFallow p [byte old, byte new] (portCount p 23 1 (stepped p fec new s)) := by
  have hup : (decide (new < 3) && ((port p s).upDue || !true)) = false := by
    obtain hdue | hnew := hdue
    · simp [hdue]
    · simp [Nat.not_lt.mpr hnew]
  have hend : withPort p (fun x => { x with
      speed := new, fec := fec, stepping := none, calmFrom := s.now, keepFallow := true, fallow := x.fallow && x.keepFallow
      upDue := new < 3 && (x.upDue || !x.keepFallow) }) s = stepped p fec new s :=
    withPort_congr (by simp only [hkeep, hup, Bool.and_true])
  have hnot : (port p (raise .ethFallow p [byte old, byte new] (portCount p 23 1 (stepped p fec new s)))).upDue = false := by
    rw [port, raise_eth]
    refine (portCount_proj (fun x : Port => x.upDue) (fun _ _ => rfl) (stepped p fec new s)).trans ?_
    rw [stepped, port_withPort hp]
  unfold stepEnd
  rw [h]
  dsimp only
  rw [hend]
  exact if_neg (by rw [hnot]; decide)

theorem stepEnd_still {p fec : Nat} {s : State} (h : (port p s).stepping = none) : stepEnd p fec s = s := by
  unfold stepEnd
  rw [h]

/-- Settles O45: by the case of the frame, the PAUSE, the queue, the link, the mPacket or the fallow frame. -/
theorem portEventsTakeEffect : Obligations.PortEventsTakeEffect := by
  unfold Obligations.PortEventsTakeEffect
  intro p x cnt set
  refine ⟨?rx, ?pause, fun t n => does (fun _ => rfl) fun s h => pauseEnd_due h.1 h.2, fun t n => does (fun _ => rfl) fun s h => pauseEnd_early h.1 h.2,
    ?tx, fun q f s h hq => nextFrame_may h hq, fun fr => does (fun _ => rfl) fun s h => ethFrameTx_silent h, ?hold,
    fun sp fec af v c => does (fun _ => rfl) fun s h => linkUp_mode h.1 h.2, fun sp fec af => does (fun _ => rfl) fun s h => linkUp_up h,
    fun c => does (fun _ => rfl) fun s h => linkDown_empty h.1 h.2, fun c => does (fun _ => rfl) fun s h => linkDown_down h, ?verify,
    does (fun _ => rfl) fun s h => respondMpacket_verified h.1 h.2.1 h.2.2.1 h.2.2.2,
    does (fun _ => rfl) fun s h => respondMpacket_verify h.1 h.2, fun v => does (fun _ => rfl) fun s h => respondMpacket_off h, ?fallow⟩
  case rx =>
    intro b ok ex fr er fec ut rx t here
    refine ⟨does (fun _ => rfl) fun s h => ethFrameRx_deaf h, does (fun _ => rfl) fun s h => ethFrameRx_assembly h.1.1 h.1.2 h.2,
      does (fun _ => rfl) fun s h => ethFrameRx_smd h.1.1 h.1.2 h.2, does (fun _ => rfl) fun s h => ethFrameRx_short h.1.1 h.1.2 h.2.1 h.2.2,
      does (fun _ => rfl) ?_, does (fun _ => rfl) ?_, ?_⟩
    · rintro s ⟨⟨hup, hstep⟩, herr, hlen, hlimit⟩
      exact ethFrameRx_long hup hstep herr hlen hlimit
    · rintro s ⟨⟨hup, hstep⟩, herr, hlen, hlimit, hfcs⟩
      exact ethFrameRx_fcs hup hstep herr hlen hlimit hfcs
    · intro body et good room f
      have haccept (s : State) (h : good s) :
          ethFrameRx p ⟨b, ok, ex, fr, er, fec, ut⟩ s = ethAccept p b ex ut (t s) := by
        obtain ⟨⟨hup, hstep⟩, herr, hlen, hlimit, hfcs, -⟩ := h
        exact ethFrameRx_good hup hstep herr hlen hlimit hfcs
      have hcontrol (s : State) (h : good s) : et ≠ 0x8808 ∧ et ≠ 0x88B6 := by
        obtain ⟨-, -, -, -, -, hcontrol, hfallow⟩ := h
        exact ⟨hcontrol, hfallow⟩
      have hlimit (s : State) : sizeLimit (port p (t s)) b = sizeLimit (x s) b := rxTold_proj (fun y => sizeLimit y b) (fun _ _ => rfl) s
      have hroom (s : State) : bufferRoom p (sizeLimit (port p (t s)) b) ex (t s) = decide (room s) := by
        rw [hlimit]
        rfl
      have hfilter (s : State) : filterPass (port p (t s)) (slice body 0 6) = filterPass (x s) (slice body 0 6) :=
        rxTold_proj (fun y => filterPass y (slice body 0 6)) (fun _ _ => rfl) s
      refine ⟨does (fun _ => rfl) ?full, does (fun _ => rfl) ?filtered, does (fun _ => rfl) ?plain, does (fun _ => rfl) ?untagged,
        does (fun _ => rfl) ?tagged⟩
      case full =>
        rintro s ⟨hgood, hfull⟩
        obtain ⟨hc, hf⟩ := hcontrol s hgood
        exact (haccept s hgood).trans (ethAccept_full hc hf ((hroom s).trans (decide_eq_false hfull)))
      case filtered =>
        rintro s ⟨hgood, hfree, hpass⟩
        obtain ⟨hc, hf⟩ := hcontrol s hgood
        exact (haccept s hgood).trans (ethAccept_filtered hc hf ((hroom s).trans (decide_eq_true hfree)) ((hfilter s).trans hpass))
      case plain =>
        rintro s ⟨hgood, hfree, hpass, hplain⟩
        obtain ⟨hc, hf⟩ := hcontrol s hgood
        exact (haccept s hgood).trans (ethAccept_plain hc hf ((hroom s).trans (decide_eq_true hfree)) ((hfilter s).trans hpass) hplain)
      case untagged =>
        rintro s ⟨hgood, hfree, hpass, hen, heapol, htag⟩
        obtain ⟨hc, hf⟩ := hcontrol s hgood
        exact (haccept s hgood).trans
          (ethAccept_untagged hc hf ((hroom s).trans (decide_eq_true hfree)) ((hfilter s).trans hpass) hen heapol htag)
      case tagged =>
        rintro s ⟨hgood, hfree, hpass, hen, htag⟩
        obtain ⟨hc, hf⟩ := hcontrol s hgood
        have heapol : et ≠ 0x888E := by omega
        exact (haccept s hgood).trans
          (ethAccept_tagged hc hf ((hroom s).trans (decide_eq_true hfree)) ((hfilter s).trans hpass) hen heapol htag)
  case pause =>
    intro q
    have hrow (s : State) : exec (.pauseRx p q) s = whenLive s (pauseFrame p q.toNat) := rfl
    refine ⟨does hrow fun s h => pauseFrame_off h.1 h.2, does hrow ?_, fun t n => does hrow ?_⟩
    · rintro s ⟨hup, hen, hnone, hq⟩
      exact pauseFrame_begins hup hen hnone fun h => hq (BitVec.eq_of_toNat_eq h)
    · rintro s ⟨hup, hen, hpause, rfl⟩
      exact pauseFrame_ends hup hen hpause
  case tx =>
    intro fr q f sends
    refine ⟨does (fun _ => rfl) ?_, does (fun _ => rfl) ?_⟩
    · rintro s ⟨⟨hup, hstep, hnext⟩, hlen⟩
      exact ethFrameTx_tooLong hup hstep hnext hlen
    · rintro s ⟨⟨hup, hstep, hnext⟩, hlen, hwhole⟩
      exact ethFrameTx_whole hup hstep hnext hlen hwhole
  case hold =>
    intro f left adv
    refine ⟨does (fun _ => rfl) ?_, does (fun _ => rfl) fun s h => launchWireHold_far h.1 h.2⟩
    rintro s ⟨hleft, hup, hexp, hpre, hfree, hnear⟩
    exact launchWireHold_holds hleft hup hexp hpre hfree hnear
  case verify =>
    intro due
    refine ⟨does (fun _ => rfl) ?_, does (fun _ => rfl) ?_, does (fun _ => rfl) fun s h => preemptVerify_early h.1 h.2⟩
    · rintro s ⟨⟨hup, hen, hopen, hdue⟩, hfew⟩
      exact preemptVerify_sends hup hen hopen hdue hfew
    · rintro s ⟨⟨hup, hen, hopen, hdue⟩, hthree⟩
      exact preemptVerify_fails hup hen hopen hdue hthree
  case fallow =>
    intro fallowFrame asks mayAsk
    have hmay (s : State) (h : mayAsk s) : MayAsk (port p s) := by
      obtain ⟨hup, hauto, hfast, hheard, hfree, hstill⟩ := h
      exact ⟨hup, hauto, hfast, hheard, hfree, hstill⟩
    refine ⟨does (fun _ => rfl) fun s h => capsSend_due h.1 h.2.1 h.2.2.1 h.2.2.2, fun t => does (fun _ => rfl) fun s h => capsSend_early h.1 h.2,
      fun fl sn => does (fun _ => rfl) fun s _ => rfl,
      fun t => ⟨does (fun _ => rfl) fun s h => capsTimeout_due h.1 h.2, does (fun _ => rfl) fun s h => capsTimeout_early h.1 h.2⟩,
      does (fun _ => rfl) ?down, does (fun _ => rfl) fun s h => downTrigger_not h,
      does (fun _ => rfl) fun s h => upTrigger_asks (hmay s h.1) h.2.1 h.2.2, does (fun _ => rfl) fun s h => upTrigger_not h,
      fun tg sq ut => ?req, fun sq tg => does (fun _ => rfl) fun s h => stepAckRx_begins h.1 h.2,
      fun sq q tg => does (fun _ => rfl) fun s h => stepAckRx_other h.1 h.2, fun sq tg => does (fun _ => rfl) fun s h => stepNakRx_asked h,
      does (fun _ => rfl) fun s h => if_pos h, does (fun _ => rfl) fun s h => if_neg (Nat.not_le.mpr h),
      fun fec old new => does (fun _ => rfl) fun s h => stepEnd_ends p.isLt h.1 h.2.1 h.2.2, fun fec => does (fun _ => rfl) fun s h => stepEnd_still h⟩
    case down =>
      rintro s ⟨hask, hcalm, hfallow, hspeed, hserial, hpitch⟩
      exact downTrigger_asks (hmay s hask) hcalm hfallow hspeed hserial hpitch
    case req =>
      intro hears
      refine ⟨does (fun _ => rfl) ?_, does (fun _ => rfl) ?_⟩
      · rintro s ⟨⟨hup, hstep⟩, hrefused⟩
        exact stepReqRx_refused hup hstep hrefused
      · rintro s ⟨⟨hup, hauto⟩, hstep, hbegins⟩
        exact stepReqRx_begins hup hauto hstep hbegins

end Sys2Proof.Machine
end

section
/-!
SUPPORT. Frames on the cipher cores, key holds and SAE contexts, by case.
-/
namespace Sys2Proof.Machine
open Sys2Proof

/-! Packet numbers of an MSDU's fragments. -/

/-- How many of the numbers are at or below one before them. -/
def staleCount (old : Nat) (l : List Nat) : Nat :=
  ((List.range l.length).filter fun i => (old :: l.take i).any fun q => decide (l.getD i 0 ≤ q)).length

theorem decide_le_max (x a b : Nat) : decide (x ≤ max a b) = (decide (x ≤ a) || decide (x ≤ b)) := by
  rw [← Bool.decide_or, decide_eq_decide]
  omega

theorem staleCount_cons (old p : Nat) (l : List Nat) :
    staleCount old (p :: l) = (if p ≤ old then 1 else 0) + staleCount (max old p) l := by
  have hfirst : ((old :: (p :: l).take 0).any fun q => decide ((p :: l).getD 0 0 ≤ q)) = decide (p ≤ old) := by simp
  have hlater : (List.range l.length).filter
      ((fun i => (old :: (p :: l).take i).any fun q => decide ((p :: l).getD i 0 ≤ q)) ∘ Nat.succ) =
      (List.range l.length).filter fun i => (max old p :: l.take i).any fun q => decide (l.getD i 0 ≤ q) :=
    List.filter_congr fun i _ => by simp [decide_le_max, Bool.or_assoc]
  unfold staleCount
  rw [List.length_cons, List.range_succ_eq_map, List.filter_cons, List.filter_map, hfirst, hlater]
  by_cases h : p ≤ old <;> simp [h, Nat.add_comm]

/-- The highest number so far, and how many were not above those before them. -/
def replayStep (a : Nat × Nat) (p : Nat) : Nat × Nat := if p ≤ a.1 then (a.1, a.2 + 1) else (p, a.2)

theorem replayStep_foldl (l : List Nat) (old c : Nat) : (l.foldl replayStep (old, c)).2 = c + staleCount old l := by
  induction l generalizing old c with
  | nil => rfl
  | cons p l ih =>
    rw [List.foldl_cons, staleCount_cons, replayStep]
    split
    · next hle =>
      rw [ih, Nat.max_eq_left hle]
      omega
    · next hlt =>
      rw [ih, Nat.max_eq_right (Nat.le_of_lt (Nat.not_le.mp hlt))]
      omega

/-! A received MPDU on a core. -/

/-- An MPDU whose tag and numbers hold is delivered, and its number is the last of its key. -/
def acceptAir (f : Frame) (k : Nat) (s : State) : State :=
  deliverClear f (withSlot k (fun x => { x with rxPn := kset x.rxPn (pnCounter f) f.pn }) (secCount 1 1 s))

section
variable {r k : Nat} {f : Frame} {ok : Bool} {ks : KeySlot} {s : State} (hslot : f.slot = some k) (hks : kget s.sec.slots k = some ks)
include hslot hks

theorem cipherRx_slot : cipherRx r f ok s =
    let stale := staleCount ((kget ks.rxPn (pnCounter f)).getD 0) (f.pns ++ [f.pn])
    match (if f.raw then none else streamOf f s) with
    | some (n, len) =>
      if 0 < stale then macCount r 11 stale s
      else if ok then acceptAir f k s
      else if len ≤ f.bytes.length then toRing n { f with authFail := true } (secCount 4 1 s)
      else secCount 2 1 s
    | none =>
      if !ok then secCount (if isBip ks.suite then 5 else 2) 1 s
      else if 0 < stale then macCount r 11 stale (secCount 1 1 s)
      else acceptAir f k s := by
  have hkey : keySlot k s = some ks := hks
  have hsuite : suiteOf k s = ks.suite := by
    unfold suiteOf
    rw [hkey]
  have hlast : lastPn k f s = (kget ks.rxPn (pnCounter f)).getD 0 := by
    unfold lastPn
    rw [hkey]
    rfl
  have hstale : ((f.pns ++ [f.pn]).foldl (fun (a : Nat × Nat) p => if p ≤ a.1 then (a.1, a.2 + 1) else (p, a.2))
      ((kget ks.rxPn (pnCounter f)).getD 0, 0)).2 = staleCount ((kget ks.rxPn (pnCounter f)).getD 0) (f.pns ++ [f.pn]) :=
    (replayStep_foldl _ _ 0).trans (Nat.zero_add _)
  unfold cipherRx
  rw [hslot]
  dsimp only
  rw [if_neg (by simp [hkey]), hlast, hstale, hsuite]
  rfl

section
variable (hclear : f.raw = true ∨ streamOf f s = none)
include hclear

theorem cipherRx_clear : cipherRx r f ok s =
    let stale := staleCount ((kget ks.rxPn (pnCounter f)).getD 0) (f.pns ++ [f.pn])
    if !ok then secCount (if isBip ks.suite then 5 else 2) 1 s
    else if 0 < stale then macCount r 11 stale (secCount 1 1 s)
    else acceptAir f k s := by
  have hnone : (if f.raw then none else streamOf f s) = none := by
    obtain h | h := hclear
    · rw [if_pos h]
    · rw [h, ite_self]
  rw [cipherRx_slot hslot hks, hnone]
end

theorem cipherRx_stream {n len : Nat} (hraw : f.raw = false) (hstream : streamOf f s = some (n, len)) : cipherRx r f ok s =
    let stale := staleCount ((kget ks.rxPn (pnCounter f)).getD 0) (f.pns ++ [f.pn])
    if 0 < stale then macCount r 11 stale s
    else if ok then acceptAir f k s
    else if len ≤ f.bytes.length then toRing n { f with authFail := true } (secCount 4 1 s)
    else secCount 2 1 s := by
  rw [cipherRx_slot hslot hks, if_neg (by simp [hraw]), hstream]
end

/-! A job at a core. -/

theorem cipherFrame_none {core j mism : Nat} {ok : Bool} {s : State} (h : s.sec.jobs[j]? = none) : cipherFrame core j mism ok s = s := by
  unfold cipherFrame
  rw [h]

/-- A job before this one must run first. -/
def waitsFor (x y : CipherJob) : Bool := y.kind == x.kind && (y.unit == x.unit || x.kind == .rxAir) && y.slot == x.slot

theorem waitsFor_iff (x y : CipherJob) : waitsFor x y = true ↔ y.kind = x.kind ∧ (y.unit = x.unit ∨ x.kind = .rxAir) ∧ y.slot = x.slot := by
  simp only [waitsFor, Bool.and_eq_true, Bool.or_eq_true, beq_iff_eq, and_assoc]

/-- A job leaves the queue for its core. -/
def jobTaken (j : Nat) (s : State) : State := withSec (fun y => { y with jobs := y.jobs.take j ++ y.jobs.drop (j + 1) }) s

section
variable {core j mism : Nat} {ok : Bool} {x : CipherJob} {s : State} (hx : s.sec.jobs[j]? = some x)
include hx

theorem cipherFrame_waits (h : (∃ y ∈ s.sec.jobs.take j, y.kind = x.kind ∧ (y.unit = x.unit ∨ x.kind = .rxAir) ∧ y.slot = x.slot) ∨
    coreServes core x.slot s = false) : cipherFrame core j mism ok s = s := by
  unfold cipherFrame
  rw [hx]
  refine if_pos ?_
  obtain ⟨y, hy, hwaits⟩ | h := h
  · have hany : (s.sec.jobs.take j).any (waitsFor x) = true := List.any_eq_true.mpr ⟨y, hy, (waitsFor_iff x y).mpr hwaits⟩
    rw [show ((s.sec.jobs.take j).any fun y => y.kind == x.kind && (y.unit == x.unit || x.kind == .rxAir) && y.slot == x.slot) = true from hany]
    rfl
  · rw [h]
    exact Bool.or_true _

variable (hfirst : ∀ y ∈ s.sec.jobs.take j, y.kind = x.kind → y.unit = x.unit ∨ x.kind = .rxAir → y.slot ≠ x.slot)
  (hserves : coreServes core x.slot s = true)
include hfirst hserves

theorem cipherFrame_may : cipherFrame core j mism ok s =
    if mism = 2 then fencePart (0x20 + core) (relCount 0 1 s)
    else
      let t := jobTaken j (if mism = 1 then relCount 0 1 s else s)
      match x.kind with
      | .txAir => deleteDone (sealAir x.frame t)
      | .rxAir => deleteDone (cipherRx x.unit x.frame ok t)
      | .rxWire => deleteDone (cipherRxWire x.unit x.frame ok t)
      | .txWire => match cipherTxWire x.unit x.frame t with | some u => deleteDone u | none => s := by
  have hnone : (s.sec.jobs.take j).any (waitsFor x) = false := by
    refine List.any_eq_false.mpr fun y hy hwaits => ?_
    obtain ⟨hkind, hunit, hslot⟩ := (waitsFor_iff x y).mp hwaits
    exact hfirst y hy hkind hunit hslot
  unfold cipherFrame
  rw [hx]
  refine if_neg ?_
  rw [show ((s.sec.jobs.take j).any fun y => y.kind == x.kind && (y.unit == x.unit || x.kind == .rxAir) && y.slot == x.slot) = false from hnone,
    hserves]
  decide

theorem cipherFrame_mismatch (hmism : mism = 2) : cipherFrame core j mism ok s = fencePart (0x20 + core) (relCount 0 1 s) :=
  (cipherFrame_may hx hfirst hserves).trans (if_pos hmism)

theorem cipherFrame_retried (hmism : mism = 1) (hkind : x.kind = .txAir) :
    cipherFrame core j mism ok s = deleteDone (sealAir x.frame (jobTaken j (relCount 0 1 s))) := by
  subst hmism
  rw [cipherFrame_may hx hfirst hserves, hkind]
  rfl

variable (hmism : mism = 0)
include hmism

theorem cipherFrame_txAir (hkind : x.kind = .txAir) : cipherFrame core j mism ok s = deleteDone (sealAir x.frame (jobTaken j s)) := by
  subst hmism
  rw [cipherFrame_may hx hfirst hserves, hkind]
  rfl

theorem cipherFrame_rxAir (hkind : x.kind = .rxAir) : cipherFrame core j mism ok s = deleteDone (cipherRx x.unit x.frame ok (jobTaken j s)) := by
  subst hmism
  rw [cipherFrame_may hx hfirst hserves, hkind]
  rfl

/-- A frame whose SecTAG names no association. -/
theorem cipherFrame_rxWire (hkind : x.kind = .rxWire) (hen : (vget s.sec.port x.unit).en = true) (hsa : rxSa x.unit x.frame.bytes s = none) :
    cipherFrame core j mism ok s = deleteDone (secCount 8 1 (jobTaken j s)) := by
  have hrun : cipherRxWire x.unit x.frame ok (jobTaken j s) = secCount 8 1 (jobTaken j s) := by
    have hen' : (vget (jobTaken j s).sec.port x.unit).en = true := hen
    have hsa' : rxSa x.unit x.frame.bytes (jobTaken j s) = none := hsa
    unfold cipherRxWire
    dsimp only
    rw [if_neg (by rw [hen']; decide), hsa']
  subst hmism
  rw [cipherFrame_may hx hfirst hserves, hkind, ← hrun]
  rfl

/-- A frame for the wire of a port with no association waits. -/
theorem cipherFrame_txWire (hkind : x.kind = .txWire) (hen : (vget s.sec.port x.unit).en = true) (hsa : activeSa x.unit s = none) :
    cipherFrame core j mism ok s = s := by
  have hrun : cipherTxWire x.unit x.frame (jobTaken j s) = none := by
    have hen' : (vget (jobTaken j s).sec.port x.unit).en = true := hen
    have hsa' : activeSa x.unit (jobTaken j s) = none := hsa
    unfold cipherTxWire
    rw [if_neg (by rw [hen']; decide), hsa']
  subst hmism
  rw [cipherFrame_may hx hfirst hserves, hkind]
  dsimp only
  rw [if_neg (by decide), if_neg (by decide), hrun]
end

theorem sealAir_keyed {f : Frame} (h : f.slot ≠ none) (s : State) : sealAir f s = secCount 0 1 s := if_pos (Option.isSome_iff_ne_none.mpr h)

/-! Key holds and SAE contexts. -/

theorem keyHoldTimeout_off {p : Nat} {s : State} (h : (vget s.sec.port p).en = false) : keyHoldTimeout p s = s := if_pos (by simp [h])

section
variable {p : Nat} {j : CipherJob} {s : State} (hen : (vget s.sec.port p).en = true) (hkey : ∀ q, activeSa p s = some q → pnLeft q.2.slot s = 0)
  (hjob : (s.sec.jobs.find? fun j => j.kind == .txWire && j.unit == p) = some j)
include hen hkey hjob

theorem keyHoldTimeout_held : keyHoldTimeout p s =
    if s.now < max j.at_ (vget s.sec.port p).noKeyAt + 50000000 then s
    else frameDone j.frame .keyExhausted [] (secCount 13 1 (withSec (fun x => { x with jobs := x.jobs.erase j }) s)) := by
  have hnone : wireKey p s = false := by
    unfold wireKey
    split
    · next q hq => simp [hkey q hq]
    · rfl
  unfold keyHoldTimeout
  dsimp only
  rw [if_neg (by simp [hen, hnone]), hjob]

theorem keyHoldTimeout_early (hnow : s.now < max j.at_ (vget s.sec.port p).noKeyAt + 50000000) : keyHoldTimeout p s = s :=
  (keyHoldTimeout_held hen hkey hjob).trans (if_pos hnow)

theorem keyHoldTimeout_due (hnow : max j.at_ (vget s.sec.port p).noKeyAt + 50000000 ≤ s.now) : keyHoldTimeout p s =
    frameDone j.frame .keyExhausted [] (secCount 13 1 (withSec (fun x => { x with jobs := x.jobs.erase j }) s)) :=
  (keyHoldTimeout_held hen hkey hjob).trans (if_neg (Nat.not_lt.mpr hnow))
end

theorem saeTimeout_due {i : Nat} {x : SaeCtx} {s : State} (h : kget s.sec.sae i = some x) (hnow : x.usedAt + 1000000000 ≤ s.now) :
    saeTimeout i s = withSec (fun y => { y with sae := kdel y.sae i }) s := by
  unfold saeTimeout
  rw [h]
  exact if_pos hnow

theorem saeTimeout_early {i : Nat} {x : SaeCtx} {s : State} (h : kget s.sec.sae i = some x) (hnow : s.now < x.usedAt + 1000000000) :
    saeTimeout i s = s := by
  unfold saeTimeout
  rw [h]
  exact if_neg (Nat.not_le.mpr hnow)

/-- Settles O46: by the job's kind, the numbers and the tag of a received MPDU, and the time of a hold. -/
theorem cipherEventsTakeEffect : Obligations.CipherEventsTakeEffect := by
  unfold Obligations.CipherEventsTakeEffect
  refine ⟨fun core j mism ok => ?frames, fun p => ⟨does (fun _ => rfl) fun s h => keyHoldTimeout_off h, fun j => ?hold⟩,
    fun i x => ⟨does (fun _ => rfl) fun s h => saeTimeout_due h.1 h.2, does (fun _ => rfl) fun s h => saeTimeout_early h.1 h.2⟩,
    does (fun _ => rfl) fun s _ => rfl⟩
  case hold =>
    intro held
    refine ⟨does (fun _ => rfl) ?_, does (fun _ => rfl) ?_⟩
    · rintro s ⟨⟨hen, hkey, hjob⟩, hnow⟩
      exact keyHoldTimeout_early hen hkey hjob hnow
    · rintro s ⟨⟨hen, hkey, hjob⟩, hnow⟩
      exact keyHoldTimeout_due hen hkey hjob hnow
  case frames =>
    intro run rest
    refine ⟨does (fun _ => rfl) fun s h => cipherFrame_none h, fun x => ?_⟩
    intro first may taken
    refine ⟨does (fun _ => rfl) fun s h => cipherFrame_waits h.1 h.2, does (fun _ => rfl) ?mismatch, does (fun _ => rfl) ?txAir,
      does (fun _ => rfl) ?retried, fun k ks => ?rxAir, does (fun _ => rfl) ?rxWire, does (fun _ => rfl) ?txWire⟩
    case mismatch =>
      rintro s ⟨⟨⟨hx, hfirst⟩, hserves⟩, rfl⟩
      exact cipherFrame_mismatch hx hfirst hserves rfl
    case txAir =>
      rintro s ⟨⟨⟨hx, hfirst⟩, hserves⟩, rfl, hkind, hkeyed⟩
      exact (cipherFrame_txAir hx hfirst hserves rfl hkind).trans (congrArg deleteDone (sealAir_keyed hkeyed _))
    case retried =>
      rintro s ⟨⟨⟨hx, hfirst⟩, hserves⟩, rfl, hkind, hkeyed⟩
      exact (cipherFrame_retried hx hfirst hserves rfl hkind).trans (congrArg deleteDone (sealAir_keyed hkeyed _))
    case rxWire =>
      rintro s ⟨⟨⟨hx, hfirst⟩, hserves⟩, rfl, hkind, hen, hsa⟩
      exact cipherFrame_rxWire hx hfirst hserves rfl hkind hen hsa
    case txWire =>
      rintro s ⟨⟨⟨hx, hfirst⟩, hserves⟩, rfl, hkind, hen, hsa⟩
      exact cipherFrame_txWire hx hfirst hserves rfl hkind hen hsa
    case rxAir =>
      intro f rx old all stale fresh good clear
      have hrun (s : State) (h : rx s) : cipherFrame core j mism ok s = rest (cipherRx x.unit f ok (taken s)) ∧
          f.slot = some k ∧ kget (taken s).sec.slots k = some ks := by
        obtain ⟨⟨⟨hx, hfirst⟩, hserves⟩, hmism, hkind, hslot, hks⟩ := h
        exact ⟨cipherFrame_rxAir hx hfirst hserves (by rw [hmism]; rfl) hkind, hslot, hks⟩
      have hopen (s : State) (h : rx s) (hclear : clear s) := (hrun s h).1.trans
        (congrArg rest (cipherRx_clear (r := x.unit) (ok := ok) (hrun s h).2.1 (hrun s h).2.2 hclear))
      refine ⟨does (fun _ => rfl) ?_, does (fun _ => rfl) ?_, does (fun _ => rfl) ?_, fun n len => ?streams⟩
      · rintro s ⟨h, hclear, rfl, hfresh⟩
        exact (hopen s h hclear).trans (congrArg rest ((if_neg (by decide)).trans (if_neg (Nat.not_lt.mpr (Nat.le_of_eq hfresh)))))
      · rintro s ⟨h, hclear, rfl, hstale⟩
        exact (hopen s h hclear).trans (congrArg rest ((if_neg (by decide)).trans (if_pos (Nat.pos_of_ne_zero hstale))))
      · rintro s ⟨h, hclear, rfl⟩
        exact (hopen s h hclear).trans (congrArg rest (if_pos rfl))
      case streams =>
        intro streams
        have hstream (s : State) (h : streams s) := (hrun s h.1).1.trans
          (congrArg rest (cipherRx_stream (r := x.unit) (ok := ok) (hrun s h.1).2.1 (hrun s h.1).2.2 h.2.1 h.2.2))
        refine ⟨does (fun _ => rfl) ?_, does (fun _ => rfl) ?_, does (fun _ => rfl) ?_, does (fun _ => rfl) ?_⟩
        · rintro s ⟨h, hstale⟩
          exact (hstream s h).trans (congrArg rest (if_pos (Nat.pos_of_ne_zero hstale)))
        · rintro s ⟨h, hfresh, rfl⟩
          exact (hstream s h).trans (congrArg rest ((if_neg (Nat.not_lt.mpr (Nat.le_of_eq hfresh))).trans (if_pos rfl)))
        · rintro s ⟨h, hfresh, rfl, hlen⟩
          exact (hstream s h).trans (congrArg rest ((if_neg (Nat.not_lt.mpr (Nat.le_of_eq hfresh))).trans ((if_neg (by decide)).trans (if_pos hlen))))
        · rintro s ⟨h, hfresh, rfl, hlen⟩
          exact (hstream s h).trans (congrArg rest ((if_neg (Nat.not_lt.mpr (Nat.le_of_eq hfresh))).trans
            ((if_neg (by decide)).trans (if_neg (Nat.not_le.mpr hlen)))))

end Sys2Proof.Machine
end

section
/-!
SUPPORT. The host data rings, by the state of the ring.
-/
namespace Sys2Proof.Machine
open Sys2Proof

/-! A ring, and an update of it. -/

theorem withHtx_get {n : Nat} (hn : n < 64) (f : Ring → Ring) (s : State) : vget (withHtx n f s).rings.htx n = f (vget s.rings.htx n) :=
  vget_vmod_same s.rings.htx n f hn

theorem withHrx_get {n : Nat} (hn : n < 64) (f : Ring → Ring) (s : State) : vget (withHrx n f s).rings.hrx n = f (vget s.rings.hrx n) :=
  vget_vmod_same s.rings.hrx n f hn

theorem withHrx_withHrx (n : Nat) (f g : Ring → Ring) (s : State) : withHrx n g (withHrx n f s) = withHrx n (fun x => g (f x)) s :=
  congrArg (fun v => { s with rings := { s.rings with hrx := v } }) (vmod_vmod s.rings.hrx n f g)

theorem ringOf_withRing {tx : Bool} {n : Nat} (hn : n < 64) (f : Ring → Ring) (s : State) : ringOf tx n (withRing tx n f s) = f (ringOf tx n s) := by
  cases tx
  · exact withHrx_get hn f s
  · exact withHtx_get hn f s

/-! Halting. -/

theorem haltOverfull_keeps {tx : Bool} {n : Nat} {s : State}
    (h : (ringOf tx n s).halted = true ∨ ((ringOf tx n s).prod - (ringOf tx n s).cons).toNat ≤ 2 ^ (ringOf tx n s).sizeLog) :
    haltOverfull tx n s = s := by
  refine if_neg ?_
  obtain h | h := h
  · simp [h]
  · simp only [overfull, decide_eq_false (Nat.not_lt.mpr h), Bool.and_false, Bool.false_eq_true, not_false_eq_true]

theorem haltOverfull_halts {tx : Bool} {n : Nat} {s : State} (hgo : (ringOf tx n s).halted = false)
    (hfull : 2 ^ (ringOf tx n s).sizeLog < ((ringOf tx n s).prod - (ringOf tx n s).cons).toNat) :
    haltOverfull tx n s = ringHalt tx n ((ringOf tx n s).cons + BitVec.ofNat 16 (2 ^ (ringOf tx n s).sizeLog)) s :=
  if_pos (by simp only [hgo, overfull, decide_eq_true hfull, Bool.not_false, Bool.and_self])

section
variable {tx : Bool} {n : Nat} {s : State} (hn : n < 64)
include hn

theorem prodWrite_keeps {v : BitVec 16} (h : (ringOf tx n s).halted = true ∨ (v - (ringOf tx n s).cons).toNat ≤ 2 ^ (ringOf tx n s).sizeLog) :
    prodWrite tx n v s = withRing tx n (fun g => { g with prod := v }) s :=
  haltOverfull_keeps (by rwa [ringOf_withRing hn])

theorem prodWrite_halts {v : BitVec 16} (hgo : (ringOf tx n s).halted = false)
    (hfull : 2 ^ (ringOf tx n s).sizeLog < (v - (ringOf tx n s).cons).toNat) : prodWrite tx n v s =
      ringHalt tx n ((ringOf tx n s).cons + BitVec.ofNat 16 (2 ^ (ringOf tx n s).sizeLog)) (withRing tx n (fun g => { g with prod := v }) s) := by
  refine (haltOverfull_halts ?_ ?_).trans ?_
  · rwa [ringOf_withRing hn]
  · rwa [ringOf_withRing hn]
  · rw [ringOf_withRing hn]

variable (hoff : (ringOf tx n s).en = false) (hmin : 6 ≤ (ringOf tx n s).sizeLog) (hmax : (ringOf tx n s).sizeLog ≤ 14)
include hoff hmin hmax

omit hn in
theorem ringEnable_enables : ringEnable tx n s =
    haltOverfull tx n (withRing tx n (fun g => { g with en := true, idle := false, fetched := g.cons }) s) :=
  if_neg (by simp [hoff, Nat.not_lt.mpr hmin, Nat.not_lt.mpr hmax])

theorem ringEnable_keeps (h : (ringOf tx n s).halted = true ∨
    ((ringOf tx n s).prod - (ringOf tx n s).cons).toNat ≤ 2 ^ (ringOf tx n s).sizeLog) :
    ringEnable tx n s = withRing tx n (fun g => { g with en := true, idle := false, fetched := g.cons }) s :=
  (ringEnable_enables hoff hmin hmax).trans (haltOverfull_keeps (by rwa [ringOf_withRing hn]))

theorem ringEnable_halts (hgo : (ringOf tx n s).halted = false)
    (hfull : 2 ^ (ringOf tx n s).sizeLog < ((ringOf tx n s).prod - (ringOf tx n s).cons).toNat) : ringEnable tx n s =
      ringHalt tx n ((ringOf tx n s).cons + BitVec.ofNat 16 (2 ^ (ringOf tx n s).sizeLog))
        (withRing tx n (fun g => { g with en := true, idle := false, fetched := g.cons }) s) := by
  refine (ringEnable_enables hoff hmin hmax).trans ((haltOverfull_halts ?_ ?_).trans ?_)
  · rwa [ringOf_withRing hn]
  · rwa [ringOf_withRing hn]
  · rw [ringOf_withRing hn]
end

theorem ringEnable_refused {tx : Bool} {n : Nat} {s : State}
    (h : (ringOf tx n s).en = true ∨ (ringOf tx n s).sizeLog < 6 ∨ 14 < (ringOf tx n s).sizeLog) : ringEnable tx n s = s := by
  refine if_pos ?_
  obtain h | h | h := h <;> simp [h]

/-- HRING_IDLE (R59). -/
def ringIdle (tx : Bool) (n : Nat) (s : State) : State :=
  if (ringOf tx n s).en then s else withRing tx n (fun g => { g with idle := true }) s

/-! Resuming and disabling. -/

/-- An enabled ring that goes on at CONS. -/
def ringResumed (tx : Bool) (n : Nat) (s : State) : State :=
  if tx then withHtx n (fun g => { g with fetched := g.cons, inflight := [] }) (withdraw n (withHtx n (fun g => { g with halted := false }) s))
  else withHrx n (fun g => { g with halted := false }) s

/-- What R53's rule looks at. -/
def ringMarks (g : Ring) : BitVec 16 × BitVec 16 × Nat := (g.prod, g.cons, g.sizeLog)

theorem ringResumed_ring {tx : Bool} {n : Nat} (hn : n < 64) (s : State) :
    (ringOf tx n (ringResumed tx n s)).halted = false ∧ ringMarks (ringOf tx n (ringResumed tx n s)) = ringMarks (ringOf tx n s) := by
  cases tx
  · have hring : ringOf false n (ringResumed false n s) = _ := withHrx_get hn _ s
    rw [hring]
    exact ⟨rfl, rfl⟩
  · have hring : ringOf true n (ringResumed true n s) = _ := withHtx_get hn _ _
    have hwithdrawn : vget (withdraw n (withHtx n (fun g => { g with halted := false }) s)).rings.htx n = _ := withHtx_get hn _ s
    rw [hring, hwithdrawn]
    exact ⟨rfl, rfl⟩

theorem ringResume_running {tx : Bool} {n : Nat} {s : State} (h : (ringOf tx n s).halted = false) : ringResume tx n s = s := if_pos (by simp [h])

theorem ringResume_disabled {tx : Bool} {n : Nat} {s : State} (h : (ringOf tx n s).halted = true) (hoff : (ringOf tx n s).en = false) :
    ringResume tx n s = withRing tx n (fun g => { g with halted := false }) s := (if_neg (by simp [h])).trans (if_pos (by simp [hoff]))

section
variable {tx : Bool} {n : Nat} {s : State} (hn : n < 64) (h : (ringOf tx n s).halted = true) (hon : (ringOf tx n s).en = true)
include h hon

theorem ringResume_enabled : ringResume tx n s = haltOverfull tx n (ringResumed tx n s) := by
  refine ((if_neg (by simp [h])).trans (if_neg (by simp [hon]))).trans (congrArg (haltOverfull tx n) ?_)
  cases tx <;> rfl

include hn

theorem ringResume_keeps (hfits : ((ringOf tx n s).prod - (ringOf tx n s).cons).toNat ≤ 2 ^ (ringOf tx n s).sizeLog) :
    ringResume tx n s = ringResumed tx n s := by
  obtain ⟨-, hmarks⟩ := ringResumed_ring (tx := tx) hn s
  simp only [ringMarks, Prod.mk.injEq] at hmarks
  obtain ⟨hprod, hcons, hsize⟩ := hmarks
  exact (ringResume_enabled h hon).trans (haltOverfull_keeps (.inr (by rwa [hprod, hcons, hsize])))

theorem ringResume_halts (hfull : 2 ^ (ringOf tx n s).sizeLog < ((ringOf tx n s).prod - (ringOf tx n s).cons).toNat) :
    ringResume tx n s = ringHalt tx n ((ringOf tx n s).cons + BitVec.ofNat 16 (2 ^ (ringOf tx n s).sizeLog)) (ringResumed tx n s) := by
  obtain ⟨hgo, hmarks⟩ := ringResumed_ring (tx := tx) hn s
  simp only [ringMarks, Prod.mk.injEq] at hmarks
  obtain ⟨hprod, hcons, hsize⟩ := hmarks
  refine (ringResume_enabled h hon).trans ((haltOverfull_halts hgo (by rwa [hprod, hcons, hsize])).trans ?_)
  rw [hcons, hsize]
end

theorem ringDisable_off {tx : Bool} {n : Nat} {s : State} (h : (ringOf tx n s).en = false) : ringDisable tx n s = s := if_pos (by simp [h])

theorem ringDisable_rx {n : Nat} {s : State} (h : (vget s.rings.hrx n).en = true) :
    ringDisable false n s = dropPart n true (withHrx n (fun g => { g with en := false }) s) := (if_neg (by simp [ringOf, h])).trans (if_pos rfl)

theorem ringDisable_rx_idle {n : Nat} {s : State} (hn : n < 64) (h : (vget s.rings.hrx n).en = true) (hcur : (vget s.rings.hrx n).cur = none) :
    ringDisable false n s = withHrx n (fun g => { g with en := false }) s := by
  have hcur' : (vget (withHrx n (fun g => { g with en := false }) s).rings.hrx n).cur = none := by rw [withHrx_get hn, hcur]
  rw [ringDisable_rx h, dropPart, hcur']

/-- The frame in progress is dropped. -/
theorem ringDisable_rx_drops {n : Nat} {p : RxPart} {s : State} (hn : n < 64) (h : (vget s.rings.hrx n).en = true)
    (hcur : (vget s.rings.hrx n).cur = some p) (hstream : (vget s.rings.hrx n).hostStream = false) : ringDisable false n s =
      frameDone p.frame .aborted [] (withHrx n (fun g => { g with ctrB := g.ctrB + 1 }) (withHrx n (fun g => { g with en := false, cur := none }) s)) := by
  have hcur' : (vget (withHrx n (fun g => { g with en := false }) s).rings.hrx n).cur = some p := by rw [withHrx_get hn, hcur]
  have hstream' : (vget (withHrx n (fun g => { g with en := false }) s).rings.hrx n).hostStream = false := by rw [withHrx_get hn, hstream]
  rw [ringDisable_rx h, dropPart]
  rw [hcur']
  dsimp only
  rw [if_neg (by rw [hstream']; decide), withHrx_withHrx]
  rfl

theorem ringDisable_tx {n : Nat} {s : State} (h : (vget s.rings.htx n).en = true) : ringDisable true n s =
    let u := withdraw n (unfetched n (withHtx n (fun g => { g with en := false }) s))
    (vget u.rings.htx n).inflight.foldl (fun v f => completeTx n f.id .aborted 0 v) u :=
  (if_neg (by simp [ringOf, h])).trans (if_neg (by decide))

/-! Transmit. -/

theorem fetchFrame_off {n : Nat} {ds : List (List Byte)} {data : List Byte} {s : State}
    (h : (vget s.rings.htx n).en = false ∨ (vget s.rings.htx n).halted = true) : fetchFrame n ds data s = s := by
  refine if_pos ?_
  obtain h | h := h <;> simp [h]

/-- The descriptors `l` of the next frame are copied. -/
def txCopied (n : Nat) (l : List (List Byte)) (s : State) : State :=
  withHtx n (fun g => { g with
    inflight := g.inflight ++ [{ id := s.rings.nextId, first := g.fetched, ndesc := l.length }], fetched := g.fetched + BitVec.ofNat 16 l.length })
    { s with rings := { s.rings with nextId := s.rings.nextId + 1 } }

/-- The frame they describe. -/
def txFrame (n : Nat) (l : List (List Byte)) (data : List Byte) (s : State) : Frame :=
  hostFrame n s.rings.nextId (l.headD []) (pad (l.map dLen).sum data) s.now

/-- It is counted. -/
def txCounted (n : Nat) (l : List (List Byte)) (data : List Byte) (s : State) : State :=
  withHtx n (fun g => { g with frames := g.frames + 1, bytes := g.bytes + (txFrame n l data s).bytes.length }) (txCopied n l s)

section
variable {n : Nat} {ds l : List (List Byte)} {data : List Byte} {s : State} (hen : (vget s.rings.htx n).en = true)
  (hgo : (vget s.rings.htx n).halted = false)
  (hwhole : frameDescs (ds.take ((vget s.rings.htx n).prod - (vget s.rings.htx n).fetched).toNat) = some l)
include hen hgo hwhole

theorem fetchFrame_whole : fetchFrame n ds data s =
    if frameBad l || destBad (l.headD []) then completeTx n s.rings.nextId .badParam 0 (txCopied n l s)
    else dispatchHost (txFrame n l data s)
      (if (txFrame n l data s).ring.isSome then txCounted n l data s else completeTx n s.rings.nextId .ok 0 (txCounted n l data s)) := by
  unfold fetchFrame
  dsimp only
  rw [if_neg (by simp [hen, hgo]), hwhole]
  rfl

theorem fetchFrame_bad (hbad : frameBad l = true ∨ destBad (l.headD []) = true) :
    fetchFrame n ds data s = completeTx n s.rings.nextId .badParam 0 (txCopied n l s) := by
  refine (fetchFrame_whole hen hgo hwhole).trans (if_pos ?_)
  obtain h | h := hbad <;> simp only [h, Bool.true_or, Bool.or_true]

variable (hframe : frameBad l = false) (hdest : destBad (l.headD []) = false)
include hframe hdest

theorem fetchFrame_done (hring : (txFrame n l data s).ring = none) :
    fetchFrame n ds data s = dispatchHost (txFrame n l data s) (completeTx n s.rings.nextId .ok 0 (txCounted n l data s)) := by
  refine (fetchFrame_whole hen hgo hwhole).trans ((if_neg (by rw [hframe, hdest]; decide)).trans ?_)
  rw [if_neg (by simp [hring])]

theorem fetchFrame_awaits (hring : (txFrame n l data s).ring ≠ none) :
    fetchFrame n ds data s = dispatchHost (txFrame n l data s) (txCounted n l data s) := by
  refine (fetchFrame_whole hen hgo hwhole).trans ((if_neg (by rw [hframe, hdest]; decide)).trans ?_)
  rw [if_pos (Option.isSome_iff_ne_none.mpr hring)]
end

/-! Receive. -/

theorem deliverFrame_idle {n : Nat} {ds : List (List Byte)} {s : State} (hcur : (vget s.rings.hrx n).cur = none) (hq : vget s.rings.rxq n = []) :
    deliverFrame n ds s = s := by
  unfold deliverFrame
  dsimp only
  rw [hcur, hq]

theorem deliverFrame_part {n : Nat} {ds : List (List Byte)} {p : RxPart} {s : State} (hcur : (vget s.rings.hrx n).cur = some p) :
    deliverFrame n ds s = fillPart n p ds s := by
  unfold deliverFrame
  dsimp only
  rw [hcur]

/-- The first frame on its way to the ring leaves its queue. -/
def rxTaken (n : Nat) (rest : List Frame) (s : State) : State := { s with rings := { s.rings with rxq := vset s.rings.rxq n rest } }

section
variable {n : Nat} {ds : List (List Byte)} {f : Frame} {rest : List Frame} {s : State} (hcur : (vget s.rings.hrx n).cur = none)
  (hq : vget s.rings.rxq n = f :: rest)
include hcur hq

theorem deliverFrame_dropped (h : (vget s.rings.hrx n).en = false ∨ (vget s.rings.hrx n).halted = true ∨
    (vget s.rings.hrx n).prod = (vget s.rings.hrx n).cons) : deliverFrame n ds s =
      frameDone f .aborted [] (withHrx n (fun g => { g with ctrA := g.ctrA + 1 }) (rxTaken n rest s)) := by
  unfold deliverFrame
  dsimp only
  rw [hcur, hq]
  refine if_pos ?_
  obtain h | h | h := h <;> simp [h]

variable (hen : (vget s.rings.hrx n).en = true) (hgo : (vget s.rings.hrx n).halted = false)
  (hposted : (vget s.rings.hrx n).prod ≠ (vget s.rings.hrx n).cons)
include hen hgo hposted

theorem deliverFrame_begins : deliverFrame n ds s = fillPart n { frame := f, filled := [], left := f.bytes } ds (rxTaken n rest s) := by
  unfold deliverFrame
  dsimp only
  rw [hcur, hq]
  exact if_neg (by simp [hen, hgo, hposted])
end

/-- The buffers `l` are filled, and `b` is left of the frame. -/
def rxPart (n : Nat) (f : Frame) (l : List (List Byte × List Byte)) (b : List Byte) (s : State) : State :=
  writeBufs l false (withHrx n (fun g => { g with cur := some { frame := f, filled := l, left := b } }) s)

section
variable {n : Nat} {ds : List (List Byte)} {f : Frame} {l : List (List Byte × List Byte)} {b : List Byte} {e : FillEnd} {s : State}

/-- What follows as the buffers have been filled. -/
def rxFilled (n : Nat) (f : Frame) (l : List (List Byte × List Byte)) (e : FillEnd) (b : List Byte) (s : State) : State :=
  match e with
  | .more => rxPart n f l b s
  | .bad => ringHalt false n ((vget s.rings.hrx n).cons + BitVec.ofNat 16 l.length) (rxPart n f l b s)
  | .dry => dropPart n true (rxPart n f l b s)
  | .done =>
    let u := withHrx n (fun g => { g with cur := none }) (rxPart n f l b s)
    if l.isEmpty then u else completeRx n f l (if f.authFail then writeBufs l true u else u)

theorem fillPart_first (h : fillBufs ((vget s.rings.hrx n).prod - (vget s.rings.hrx n).cons).toNat ds f.bytes = (l, e, b)) :
    fillPart n { frame := f, filled := [], left := f.bytes } ds s = rxFilled n f l e b s := by
  obtain ⟨hl, he, hb⟩ : _ = l ∧ _ = e ∧ _ = b := ⟨congrArg (·.1) h, congrArg (·.2.1) h, congrArg (·.2.2) h⟩
  subst hl he hb
  rfl

theorem fillPart_done (hsome : l ≠ []) (hauth : f.authFail = false)
    (h : fillBufs ((vget s.rings.hrx n).prod - (vget s.rings.hrx n).cons).toNat ds f.bytes = (l, .done, b)) :
    fillPart n { frame := f, filled := [], left := f.bytes } ds s =
      completeRx n f l (withHrx n (fun g => { g with cur := none }) (rxPart n f l b s)) := by
  rw [fillPart_first h, rxFilled]
  rw [if_neg (by simpa using hsome), if_neg (by simp [hauth])]
end

/-- Settles O47: by the state of the ring and how the buffers take the frame. -/
theorem hostRingsTakeEffect : Obligations.HostRingsTakeEffect := by
  unfold Obligations.HostRingsTakeEffect
  refine ⟨fun tx n => ?rings, fun n => ?frames⟩
  case rings =>
    intro g size breach halts
    have hidle (s : State) : exec (.hringIdle tx n) s = whenLive s (ringIdle tx n) := rfl
    refine ⟨fun v => does (fun _ => rfl) fun s h => prodWrite_keeps n.isLt h, fun v => does (fun _ => rfl) fun s h => prodWrite_halts n.isLt h.1 h.2,
      does (fun _ => rfl) ?enables, does (fun _ => rfl) ?enableHalts, does (fun _ => rfl) fun s h => ringEnable_refused h,
      does hidle fun s h => if_neg (by simpa using h), does hidle fun s h => if_pos h, does (fun _ => rfl) fun s h => ringResume_running h,
      does (fun _ => rfl) fun s h => ringResume_disabled h.1 h.2, ⟨does (fun _ => rfl) ?resumes, does (fun _ => rfl) ?resumeHalts⟩,
      does (fun _ => rfl) fun s h => ringDisable_off h⟩
    case enables =>
      rintro s ⟨hoff, hmin, hmax, h⟩
      exact ringEnable_keeps n.isLt hoff hmin hmax (h.imp_right Nat.not_lt.mp)
    case enableHalts =>
      rintro s ⟨hoff, hmin, hmax, hgo, hfull⟩
      exact ringEnable_halts n.isLt hoff hmin hmax hgo hfull
    case resumes =>
      rintro s ⟨hhalted, hon, hfits⟩
      exact ringResume_keeps n.isLt hhalted hon (Nat.not_lt.mp hfits)
    case resumeHalts =>
      rintro s ⟨hhalted, hon, hfull⟩
      exact ringResume_halts n.isLt hhalted hon hfull
  case frames =>
    refine ⟨does (fun _ => rfl) fun s h => ringDisable_rx_idle n.isLt h.1 h.2,
      fun p => does (fun _ => rfl) fun s h => ringDisable_rx_drops n.isLt h.1 h.2.1 h.2.2, does (fun _ => rfl) fun s h => ringDisable_tx h,
      fun ds data => does (fun _ => rfl) fun s h => fetchFrame_off h, fun ds data l => ?fetch,
      fun ds => does (fun _ => rfl) fun s h => deliverFrame_idle h.1 h.2, fun ds p => does (fun _ => rfl) fun s h => deliverFrame_part h,
      fun ds f rest => ?deliver⟩
    case fetch =>
      intro g id_ copied f counted whole
      refine ⟨does (fun _ => rfl) ?_, does (fun _ => rfl) ?_, does (fun _ => rfl) ?_⟩
      · rintro s ⟨⟨hen, hgo, hwhole⟩, hbad⟩
        exact fetchFrame_bad hen hgo hwhole hbad
      · rintro s ⟨⟨hen, hgo, hwhole⟩, hframe, hdest, hring⟩
        exact fetchFrame_done hen hgo hwhole hframe hdest hring
      · rintro s ⟨⟨hen, hgo, hwhole⟩, hframe, hdest, hring⟩
        exact fetchFrame_awaits hen hgo hwhole hframe hdest hring
    case deliver =>
      intro g posted taken takes
      have hbegins (s : State) (h : takes s) :
          deliverFrame n ds s = fillPart n { frame := f, filled := [], left := f.bytes } ds (taken s) := by
        obtain ⟨hcur, hq, hen, hgo, hposted⟩ := h
        exact deliverFrame_begins hcur hq hen hgo hposted
      refine ⟨does (fun _ => rfl) fun s h => deliverFrame_dropped h.1 h.2.1 h.2.2, fun l b => ?_⟩
      intro part run
      refine ⟨does (fun _ => rfl) ?_, does (fun _ => rfl) ?_, does (fun _ => rfl) ?_, does (fun _ => rfl) ?_⟩
      · rintro s ⟨h, hsome, hauth, hfill⟩
        exact (hbegins s h).trans (fillPart_done hsome hauth hfill)
      · rintro s ⟨h, hfill⟩
        exact (hbegins s h).trans (fillPart_first (s := taken s) hfill)
      · rintro s ⟨h, hfill⟩
        exact (hbegins s h).trans (fillPart_first (s := taken s) hfill)
      · rintro s ⟨h, hfill⟩
        exact (hbegins s h).trans (fillPart_first (s := taken s) hfill)

end Sys2Proof.Machine
end

section
/-!
SUPPORT. DRAM initialisation, requests, alerts and replays, by case.
-/
namespace Sys2Proof.Machine
open Sys2Proof

/-! A channel of the DRAM. -/

theorem chan_withChan {c : Nat} (hc : c < 2) (f : Chan → Chan) (s : State) : chan c (withChan c f s) = f (chan c s) :=
  vget_vmod_same s.dram.chan c f hc

/-- What of a channel an update leaves as it was. -/
theorem chan_proj {β : Type} {c : Nat} {f : Chan → Chan} (q : Chan → β) (h : ∀ x, q (f x) = q x) (s : State) :
    q (chan c (withChan c f s)) = q (chan c s) := vget_vmod_proj s.dram.chan c c q h

theorem writeData_offHost (r : CmdRec) (data : List Byte) (s : State) : offHost (writeData r data s) = offHost s := by
  unfold writeData
  split
  · exact hostWrite_offHost _ _ _
  · rfl

theorem releaseList_offHost (l : List CmdRec) (s : State) : offHost (releaseList l s).2 = offHost s := by
  induction l generalizing s with
  | nil => rfl
  | cons c l ih =>
    unfold releaseList
    split
    · exact ih _
    · rfl

/-- A command's end is seen by the host alone. -/
theorem finish_offHost (h : Word) (st : Status) (data : List Byte) (s : State) : offHost (finish h st data s) = offHost s := by
  unfold finish
  split
  · rfl
  · next r _ =>
    exact (releaseList_offHost _ (setPhase h (.done st data) (writeData r data s))).trans (writeData_offHost r data s)

@[simp] theorem finish_dram (h : Word) (st : Status) (data : List Byte) (s : State) : (finish h st data s).dram = s.dram :=
  show (offHost (finish h st data s)).dram = (offHost s).dram from congrArg State.dram (finish_offHost h st data s)

/-! Initialisation. -/

theorem dramInitDone_idle {fail : Option (Nat × Nat × Nat)} {s : State} (h : s.dram.job = none) : dramInitDone fail s = s := by
  unfold dramInitDone
  rw [h]

theorem dramInitDone_fails {h : Word} {st c r : Nat} {s : State} (hjob : s.dram.job = some h) : dramInitDone (some (st, c, r)) s =
    finish h .hwFault (configData s.dram.cfg st c r)
      (withDram (fun d => { d with job := none, chan := d.chan.map fun x => { x with state := 0 } }) s) := by
  unfold dramInitDone
  rw [hjob]

/-- The DRAM as initialisation leaves it. -/
def dramFresh (s : State) (d : Dram) : Dram :=
  let p := s.dram.cfg
  { d with
    job := none, ready := true, scratch := chanShare p (u16 p 10) * (if m1Present p then 2 else 1), pkt := cfgGib p * 1024 - chanTaken p
    chan := #v[freshChan s p true (vget d.chan 0), freshChan s p (m1Present p) (vget d.chan 1)] }

/-- During start-up Builmin's banks wait. -/
theorem dramInitDone_done {h : Word} {s : State} (hjob : s.dram.job = some h) (hmode : s.life.mode = .startUp) : dramInitDone none s =
    finish h .ok (configData s.dram.cfg 0 0 0) (withDram (dramFresh s)
      { s with rel := { s.rel with passes := vset (vset s.rel.passes 16 { began := s.now }) 17 { began := s.now } } }) := by
  unfold dramInitDone
  rw [hjob]
  exact congrArg (finish h .ok (configData s.dram.cfg 0 0 0)) (if_pos (by rw [hmode]; rfl))

theorem freshChan_state (s : State) (p : List Byte) (present : Bool) (x : Chan) : (freshChan s p present x).state = if present then 2 else 0 := by
  cases present <;> rfl

/-! Requests. -/

section
variable {c a : Nat} {u : DramFor} {s : State}

theorem readArrive_failed (h : (chan c s).state = 3) : readArrive c a u s = readerAction c u none s := if_pos h

section
variable (hready : (chan c s).state = 2) (hrate : rateChanging s = false)
include hready hrate

theorem readArrive_queued {q : DramReq} (h : ((chan c s).reqs.filter fun q => q.write && q.addr == burstOf a).getLast? = some q) :
    readArrive c a u s = chanCount c 20 1 (withChan c (fun y => { y with answer := q.data }) s) := by
  unfold readArrive
  dsimp only
  rw [if_neg (by rw [hready]; decide), if_neg (by simp [hready, hrate]), h]

theorem readArrive_waits (h : ((chan c s).reqs.filter fun q => q.write && q.addr == burstOf a).getLast? = none) :
    readArrive c a u s = arriveReq c { addr := burstOf a, use := u, at_ := s.now } s := by
  unfold readArrive
  dsimp only
  rw [if_neg (by rw [hready]; decide), if_neg (by simp [hready, hrate]), h]
end

theorem writeArrive_full {d : List Byte} (h : 64 ≤ wqLen (chan c s)) : writeArrive c a u d s = s := if_pos (by simp [h])

theorem writeArrive_waits {d : List Byte} (hready : (chan c s).state = 2) (hrate : rateChanging s = false) (hroom : wqLen (chan c s) < 64) :
    writeArrive c a u d s = arriveReq c { write := true, addr := burstOf a, use := u, data := pad 64 d, at_ := s.now } s :=
  if_neg (by simp [hready, hrate, Nat.not_le.mpr hroom])
end

/-- A read burst comes from the memory. -/
def readBurst (c : Nat) (q : DramReq) (pro : Bool) (s : State) : State :=
  withChan c (fun x => { x with answer := memRead x.mem q.addr 64 }) (chanCount c 0 1 (takeReq c q pro s))

section
variable {c : Nat} {q : DramReq} {pro : Bool} {f : Option PktAt} {s : State} (hpick : pickReq (chan c s) s.now = some (q, pro))
  (hopen : chanOpen c s = true)
include hpick hopen

theorem writeServe_stores (hwrite : q.write = true) : writeServe c s = storeBurst c q (takeReq c q pro s) := by
  unfold writeServe
  rw [hpick]
  exact if_neg (by simp [hopen, hwrite])

variable (hread : q.write = false)
include hread

theorem readServe_clean (h : kget (chan c s).poison q.addr = none) : readServe c .clean f s = readBurst c q pro s := by
  unfold readServe
  rw [hpick]
  dsimp only
  rw [if_neg (by simp [hopen, hread]), h]
  rfl

theorem readServe_one {d : Fin 9} (h : kget (chan c s).poison q.addr = none) :
    readServe c (.one d) f s = chanCount c 2 1 (noteError c 0 q.addr d (readBurst c q pro s)) := by
  unfold readServe
  rw [hpick]
  dsimp only
  rw [if_neg (by simp [hopen, hread]), h]
  rfl

theorem readServe_two {a b : Fin 9} (h : kget (chan c s).poison q.addr = none) :
    readServe c (.two a b) f s = readerAction c q.use f (dramUncorr c q.addr (bufClass q.use) a b (readBurst c q pro s)) := by
  unfold readServe
  rw [hpick]
  dsimp only
  rw [if_neg (by simp [hopen, hread]), h]
  rfl

theorem readServe_poisoned {e : RdErr} {b : Nat} (h : kget (chan c s).poison q.addr = some b) :
    readServe c e f s = readerAction c q.use f (dramUncorr c q.addr (bufClass q.use) 0xFF b (readBurst c q pro s)) := by
  unfold readServe
  rw [hpick]
  dsimp only
  rw [if_neg (by simp [hopen, hread]), h]
  rfl
end

/-! Alerts and replays. -/

/-- An alert is counted and recorded. -/
def alertNoted (c : Nat) (crc : Bool) (s : State) : State :=
  withChan c (fun y => { y with errors := (alertFall.alertRecord crc s :: y.errors).take 16 })
    (chanCount c (if crc then 6 else 5) 1 (withChan c (fun x => { x with alertLow := true }) s))

/-- An alert within a replay makes it a failed one. -/
def replayFailed (c : Nat) (crc : Bool) (s : State) : State :=
  chanCount c 8 1 (withChan c (fun y => { y with replaying := false, fails := (chan c s).fails + 1 }) (alertNoted c crc s))

section
variable {c : Nat} {crc : Bool} {s : State} (hready : (chan c s).state = 2)
include hready

section
variable (hhigh : (chan c s).alertLow = false)
include hhigh

theorem alertFall_plain (h : (chan c s).replaying = false) : alertFall c crc s = alertNoted c crc s :=
  (if_neg (by simp [hready, hhigh])).trans (if_pos (by simp [h]))

theorem alertFall_again (h : (chan c s).replaying = true) (hlast : (chan c s).lastTry = false) : alertFall c crc s = replayFailed c crc s :=
  (if_neg (by simp [hready, hhigh])).trans ((if_neg (by simp [h])).trans (if_neg (by simp [hlast])))

theorem alertFall_last (h : (chan c s).replaying = true) (hlast : (chan c s).lastTry = true) :
    alertFall c crc s = chanFail c (replayFailed c crc s) :=
  (if_neg (by simp [hready, hhigh])).trans ((if_neg (by simp [h])).trans (if_pos hlast))
end

variable (hlow : (chan c s).alertLow = true)
include hlow

theorem alertRise_replays (h : (chan c s).fails < 3) : alertRise c s = chanCount c 7 1
    (withChan c (fun x => { x with replaying := true, lastTry := false }) (withChan c (fun y => { y with alertLow := false, rows := [] }) s)) :=
  (if_neg (by simp [hready, hlow])).trans (if_pos h)

theorem alertRise_retrains (h : 3 ≤ (chan c s).fails) : alertRise c s = raise .dramRetrain c [0] (chanCount c 9 1
    (withChan c (fun y => { y with training := some .replay, trainOf := none }) (withChan c (fun y => { y with alertLow := false, rows := [] }) s))) :=
  (if_neg (by simp [hready, hlow])).trans (if_neg (Nat.not_lt.mpr h))
end

/-- Settles O48: by how initialisation ends, what the channel holds of a burst, and where an alert finds it. -/
theorem dramRequestsAndAlerts : Obligations.DramRequestsAndAlerts := by
  unfold Obligations.DramRequestsAndAlerts
  refine ⟨fun fail => builminDoes (fun _ => rfl) fun s h => dramInitDone_idle h, ?fails, ?done, fun c => ?chans⟩
  case fails =>
    intro h st c r hst s hrunning hjob
    have hcode : st.val ≠ 0 := fun hz => hst (Fin.ext hz)
    refine (whenRunning_running hrunning).trans (congrArg _ ?_)
    dsimp only [Option.bind_some]
    rw [if_neg hcode, dramInitDone_fails hjob]
  case done =>
    intro h s hrunning hjob hmode
    refine ⟨_, (whenRunning_running hrunning).trans (congrArg _ (dramInitDone_done hjob hmode)), ?_⟩
    simp only [chan, finish_dram]
    exact ⟨rfl, rfl, rfl, rfl, rfl, freshChan_state .., rfl⟩
  case chans =>
    intro x
    refine ⟨fun a u => ?reads, fun a u d => ?writes, fun q pro f => ?serves, fun crc => ?falls, ?rises⟩
    case reads =>
      intro run queued
      refine ⟨does (f := readArrive c a u) (fun _ => rfl) fun s h => readArrive_failed h,
        fun q => does (f := readArrive c a u) (fun _ => rfl) fun s h => readArrive_queued h.1 h.2.1 h.2.2,
        does (f := readArrive c a u) (fun _ => rfl) fun s h => readArrive_waits h.1 h.2.1 h.2.2⟩
    case writes =>
      intro run
      refine ⟨does (f := writeArrive c a u d) (fun _ => rfl) fun s h => writeArrive_full h,
        does (f := writeArrive c a u d) (fun _ => rfl) fun s h => writeArrive_waits h.1 h.2.1 h.2.2⟩
    case serves =>
      intro may served
      refine ⟨does (f := readServe c .clean f) (fun _ => rfl) ?_, fun d => does (f := readServe c (.one d) f) (fun _ => rfl) ?_,
        fun a b => does (f := readServe c (.two a b) f) (fun _ => rfl) ?_, fun e b => does (f := readServe c e f) (fun _ => rfl) ?_,
        does (f := writeServe c) (fun _ => rfl) fun s h => writeServe_stores h.1 h.2.1 h.2.2⟩
      · rintro s ⟨⟨hpick, hopen, hread⟩, h⟩
        exact readServe_clean hpick hopen hread h
      · rintro s ⟨⟨hpick, hopen, hread⟩, h⟩
        exact readServe_one hpick hopen hread h
      · rintro s ⟨⟨hpick, hopen, hread⟩, h⟩
        exact readServe_two hpick hopen hread h
      · rintro s ⟨⟨hpick, hopen, hread⟩, h⟩
        exact readServe_poisoned hpick hopen hread h
    case falls =>
      intro run low up again
      refine ⟨does (fun _ => rfl) fun s h => alertFall_plain h.1.1 h.1.2 h.2, does (fun _ => rfl) fun s h => alertFall_again h.1.1 h.1.2 h.2.1 h.2.2,
        does (fun _ => rfl) fun s h => alertFall_last h.1.1 h.1.2 h.2.1 h.2.2⟩
    case rises =>
      intro high
      exact ⟨does (fun _ => rfl) fun s h => alertRise_replays h.1 h.2.1 h.2.2, does (fun _ => rfl) fun s h => alertRise_retrains h.1 h.2.1 h.2.2⟩

end Sys2Proof.Machine
end

section
/-!
SUPPORT. DRAM refresh, temperature, calibration, retraining and rate change, by case.
-/
namespace Sys2Proof.Machine
open Sys2Proof

/-! Refresh. -/

/-- A rank's REF that falls due is noted. -/
def refNoted (c r : Nat) (s : State) : State :=
  withChan c (fun y => { y with
    refAt := kset y.refAt r (match kget y.refAt r with | some t => t + refInterval (chan c s) | none => s.now) }) s

theorem refTime_due {c r : Nat} {s : State} (h : ∀ t, kget (chan c s).refAt r = some t → t + refInterval (chan c s) ≤ s.now) : refTime c r s = true := by
  unfold refTime
  cases ht : kget (chan c s).refAt r with
  | none => rfl
  | some t => exact decide_eq_true (h t ht)

section
variable {c r : Nat} {s : State} (hready : (chan c s).state = 2) (hrank : hasRank r s = true)
  (hdue : ∀ t, kget (chan c s).refAt r = some t → t + refInterval (chan c s) ≤ s.now)
include hready hrank hdue

theorem refDue_due : refDue c r s =
    if 0 < vget (chan c s).ahead r then withChan c (fun y => { y with ahead := vset y.ahead r (vget y.ahead r - 1) }) (refNoted c r s)
    else
      let t := if 0 < vget (chan c s).owed r then chanCount c 13 1 (refNoted c r s) else refNoted c r s
      if vget (chan c s).owed r < 8 then withChan c (fun y => { y with owed := vset y.owed r (vget (chan c s).owed r + 1) }) t
      else chanCount c 14 1 (refresh c r 8 (withChan c (fun y => { y with owed := vset y.owed r 1 }) t)) :=
  if_neg (by simp [hready, hrank, refTime_due hdue])

theorem refDue_ahead (h : 0 < vget (chan c s).ahead r) :
    refDue c r s = withChan c (fun y => { y with ahead := vset y.ahead r (vget y.ahead r - 1) }) (refNoted c r s) :=
  (refDue_due hready hrank hdue).trans (if_pos h)

variable (hnone : vget (chan c s).ahead r = 0)
include hnone

theorem refDue_first (h : vget (chan c s).owed r = 0) :
    refDue c r s = withChan c (fun y => { y with owed := vset y.owed r 1 }) (refNoted c r s) := by
  rw [refDue_due hready hrank hdue, if_neg (by simp [hnone]), h]
  rfl

theorem refDue_more (hsome : 0 < vget (chan c s).owed r) (h : vget (chan c s).owed r < 8) : refDue c r s =
    withChan c (fun y => { y with owed := vset y.owed r (vget (chan c s).owed r + 1) }) (chanCount c 13 1 (refNoted c r s)) := by
  rw [refDue_due hready hrank hdue, if_neg (by simp [hnone]), if_pos hsome]
  exact if_pos h

/-- The eighth owed REF makes all eight run. -/
theorem refDue_all (h : 8 ≤ vget (chan c s).owed r) : refDue c r s =
    chanCount c 14 1 (refresh c r 8 (withChan c (fun y => { y with owed := vset y.owed r 1 }) (chanCount c 13 1 (refNoted c r s)))) := by
  have hsome : 0 < vget (chan c s).owed r := by omega
  rw [refDue_due hready hrank hdue, if_neg (by simp [hnone]), if_pos hsome]
  exact if_neg (Nat.not_lt.mpr h)
end

theorem refDue_early {c r t : Nat} {s : State} (h : kget (chan c s).refAt r = some t) (hnow : s.now < t + refInterval (chan c s)) :
    refDue c r s = s := by
  have htime : refTime c r s = false := by
    unfold refTime
    rw [h]
    exact decide_eq_false (Nat.not_le.mpr hnow)
  exact if_pos (by simp [htime])

theorem refIssue_issues {c r : Nat} {s : State} (hopen : chanOpen c s = true) (howed : 0 < vget (chan c s).owed r) (hquiet : rankQuiet c r s = true)
    (hfree : rankFree (chan c s) r s.now = true) :
    refIssue c r s = refresh c r 1 (issued c (withChan c (fun y => { y with owed := vset y.owed r (vget y.owed r - 1) }) s)) :=
  if_neg (by simp [hopen, Nat.ne_of_gt howed, hquiet, hfree])

theorem refPullIn_issues {c r : Nat} {s : State} (hopen : chanOpen c s = true) (hrank : hasRank r s = true) (howed : vget (chan c s).owed r = 0)
    (hahead : vget (chan c s).ahead r < 8) (hquiet : rankQuiet c r s = true) (hidle : rankIdle (chan c s) r s.now = true) : refPullIn c r s =
      chanCount c 15 1 (refresh c r 1 (issued c (withChan c (fun y => { y with ahead := vset y.ahead r (vget y.ahead r + 1) }) s))) :=
  if_neg (by simp [hopen, hrank, howed, Nat.not_le.mpr hahead, hquiet, hidle])

theorem mem_of_openFirst {x : Chan} {l : List DramReq} {q : DramReq} (h : openFirst x l = some q) : q ∈ l := by
  unfold openFirst at h
  split at h
  · next hfind =>
    obtain rfl := Option.some.inj h
    exact List.mem_of_find?_eq_some hfind
  · exact List.mem_of_mem_head? h

theorem mem_of_openFirst_map {x : Chan} {l : List DramReq} {q : DramReq} {pro : Bool} (h : (openFirst x l).map (·, false) = some (q, pro)) : q ∈ l := by
  obtain ⟨p, hp, heq⟩ := Option.map_eq_some_iff.mp h
  obtain ⟨rfl, -⟩ := Prod.mk.inj heq
  exact mem_of_openFirst hp

/-- No request is served while a refresh of its rank runs. -/
theorem pickReq_rankFree {x : Chan} {now : Nat} {q : DramReq} {pro : Bool} (h : pickReq x now = some (q, pro)) :
    rankFree x (dramRank q.addr) now = true := by
  suffices hmem : q ∈ (eligibleReqs [] x.reqs).filter fun q => rankFree x (dramRank q.addr) now from (List.mem_filter.mp hmem).2
  unfold pickReq at h
  dsimp only at h
  split at h
  · split at h
    · exact (List.mem_filter.mp (mem_of_openFirst_map h)).1
    · split at h
      · next hfind =>
        obtain ⟨rfl, -⟩ := Prod.mk.inj (Option.some.inj h)
        exact (List.mem_filter.mp (List.mem_of_find?_eq_some hfind)).1
      · exact (List.mem_filter.mp (mem_of_openFirst_map h)).1
  · split at h
    · next hfind =>
      obtain ⟨rfl, -⟩ := Prod.mk.inj (Option.some.inj h)
      exact List.mem_of_find?_eq_some hfind
    · obtain ⟨p, hp, heq⟩ := Option.map_eq_some_iff.mp h
      obtain ⟨rfl, -⟩ := Prod.mk.inj heq
      obtain ⟨k, -, hk⟩ := List.exists_of_findSome?_eq_some hp
      exact (List.mem_filter.mp (mem_of_openFirst hk)).1

/-! Temperature and calibration. -/

/-- What of a channel the count of its hot time leaves as it was. -/
theorem hotCount_proj {β : Type} {c : Nat} (q : Chan → β) (hctr : ∀ x v, q { x with ctr := v } = q x) (hat : ∀ x v, q { x with hotAt := v } = q x)
    (s : State) : q (chan c (hotCount c s)) = q (chan c s) := by
  unfold hotCount
  dsimp only
  split
  · rfl
  · exact (chan_proj q (fun x => hctr x _) _).trans (chan_proj q (fun x => hat x _) s)

/-- A channel whose temperature has been read. -/
def tempNoted (hot : Bool) (now : Nat) (x : Chan) : Chan :=
  if hot then { x with hot := true, cool := 0, hotAt := if x.hot then x.hotAt else now, tempAt := some now }
  else { x with cool := min 2 (x.cool + 1), hot := x.hot && x.cool + 1 < 2, tempAt := some now }

section
variable {c : Nat} {s : State} (hready : (chan c s).state = 2) (hdue : upkeepDue (chan c s) (chan c s).tempAt 16000000 32000000 s.now = true)
include hready hdue

theorem tempRead_due (hot : Bool) : tempRead c hot s = withChan c (tempNoted hot s.now) (hotCount c s) := if_neg (by simp [hready, hdue])

theorem tempRead_heats (h : (chan c s).hot = false) :
    tempRead c true s = withChan c (fun y => { y with hot := true, cool := 0, hotAt := s.now, tempAt := some s.now }) s := by
  rw [tempRead_due hready hdue, hotCount_cool h]
  exact withChan_congr (by simp [tempNoted, h])

theorem tempRead_stays (h : (chan c s).hot = false) :
    tempRead c false s = withChan c (fun y => { y with cool := min 2 (y.cool + 1), tempAt := some s.now }) s := by
  rw [tempRead_due hready hdue, hotCount_cool h]
  refine withChan_congr ?_
  simp only [tempNoted, h, Bool.false_and, Bool.false_eq_true, if_false]

theorem tempRead_cools (hcool : 1 ≤ (chan c s).cool) : tempRead c false s =
    withChan c (fun y => { y with cool := min 2 (y.cool + 1), hot := false, tempAt := some s.now }) (hotCount c s) := by
  have hcool' : (chan c (hotCount c s)).cool = (chan c s).cool := hotCount_proj (fun x => x.cool) (fun _ _ => rfl) (fun _ _ => rfl) s
  rw [tempRead_due hready hdue]
  refine withChan_congr ?_
  have hnot : decide ((chan c (hotCount c s)).cool + 1 < 2) = false := decide_eq_false (by omega)
  simp only [tempNoted, hnot, Bool.and_false, Bool.false_eq_true, if_false]

theorem tempRead_warm (h : (chan c s).hot = true) (hcool : (chan c s).cool = 0) : tempRead c false s =
    withChan c (fun y => { y with cool := 1, tempAt := some s.now }) (hotCount c s) := by
  have hcool' : (chan c (hotCount c s)).cool = 0 := (hotCount_proj (fun x => x.cool) (fun _ _ => rfl) (fun _ _ => rfl) s).trans hcool
  have hhot' : (chan c (hotCount c s)).hot = true := (hotCount_proj (fun x => x.hot) (fun _ _ => rfl) (fun _ _ => rfl) s).trans h
  rw [tempRead_due hready hdue]
  refine withChan_congr ?_
  simp [tempNoted, hcool', hhot']
end

theorem upkeepDue_early {x : Chan} {t due limit now : Nat} (h : now < t + due ∨ x.reqs ≠ [] ∧ now < t + limit) :
    upkeepDue x (some t) due limit now = false := by
  unfold upkeepDue
  dsimp only
  obtain h | ⟨hreqs, h⟩ := h
  · rw [decide_eq_false (Nat.not_le.mpr h), Bool.false_and]
  · rw [decide_eq_false (Nat.not_le.mpr h), Bool.or_false, show x.reqs.isEmpty = false by simpa using hreqs, Bool.and_false]

theorem tempRead_early {c t : Nat} {hot : Bool} {s : State} (h : (chan c s).tempAt = some t) (hnow : s.now < t + 16000000) : tempRead c hot s = s := by
  refine if_pos ?_
  rw [h, upkeepDue_early (.inl hnow)]
  exact Bool.or_true _

theorem zqCal_due {c : Nat} {s : State} (hopen : chanOpen c s = true) (hdue : upkeepDue (chan c s) (chan c s).zqAt 64000000 64500000 s.now = true) :
    zqCal c s = withChan c (fun y => { y with rows := [], zqAt := some s.now }) s := if_pos (by rw [hopen, hdue]; rfl)

theorem zqCal_early {c t : Nat} {s : State} (h : (chan c s).zqAt = some t)
    (hnow : s.now < t + 64000000 ∨ (chan c s).reqs ≠ [] ∧ s.now < t + 64500000) : zqCal c s = s := by
  refine if_neg ?_
  rw [h, upkeepDue_early hnow, Bool.and_false]
  exact Bool.false_ne_true

/-! Retraining. -/

theorem retrainDue_due {c : Nat} {s : State} (hready : (chan c s).state = 2) (hidle : (chan c s).training = none) (hnone : (chan c s).due = none)
    (hnow : (chan c s).trainedAt + (chan c s).interval * 500000000 ≤ s.now) : retrainDue c s = withChan c (fun y => { y with due := some s.now }) s := by
  refine if_neg ?_
  rw [hidle, hnone, decide_eq_false (Nat.not_lt.mpr hnow), hready]
  decide

theorem retrainDue_early {c : Nat} {s : State} (h : s.now < (chan c s).trainedAt + (chan c s).interval * 500000000) : retrainDue c s = s := by
  refine if_pos ?_
  rw [decide_eq_true h]
  exact Bool.or_true _

/-- A retraining of the channel starts. -/
def trainStarted (c : Nat) (k : Training) (q : Option TrainReq) (s : State) : State :=
  withChan c (fun y => { y with training := some k, trainOf := q.map (·.handle), trainReqs := y.trainReqs.drop 1, due := none, rows := [] }) s

/-- Its margins are measured before a periodic one. -/
def marginsMeasured (c : Nat) (last : List (Nat × Nat)) (s : State) : State :=
  noteLast c last (replanInterval c (marginLoss c last s) s)

/-- A channel that may retrain. -/
structure MayTrain (c : Nat) (s : State) : Prop where
  ready : (chan c s).state = 2
  idle : (chan c s).training = none
  other : (chan (1 - c) s).training = none
  high : (chan c s).alertLow = false
  live : (chan c s).replaying = false
  steady : rateChanging s = false

/-- A periodic retraining that has waited for 100 ms. -/
def trainLate (c : Nat) (s : State) : Bool := match (chan c s).due with | some t => decide (t + 50000000 ≤ s.now) | none => false

section
variable {c : Nat} {last : List (Nat × Nat)} {s : State}

theorem retrainStart_may (h : MayTrain c s) : retrainStart c last s =
    let req := (chan c s).trainReqs.head?
    let force := (req.map (·.force)).getD false
    let full := (req.map (·.full)).getD false
    if !((chan c s).due.isSome || req.isSome) || !(force || quiet10 c s || trainLate c s) then s
    else
      let u := chanCount c (if full then 9 else 10) 1
        (trainStarted c (if full then .full else .periodic) req (if full then s else marginsMeasured c last s))
      if trainLate c s && !force && !quiet10 c s then chanCount c 11 1 u else u := by
  unfold retrainStart
  dsimp only
  rw [h.ready, h.idle, h.other, h.high, h.live, h.steady]
  rfl

theorem retrainStart_forced {q : TrainReq} (h : MayTrain c s) (hq : (chan c s).trainReqs.head? = some q) (hforce : q.force = true) :
    retrainStart c last s = chanCount c (if q.full then 9 else 10) 1
      (trainStarted c (if q.full then .full else .periodic) (some q) (if q.full then s else marginsMeasured c last s)) := by
  rw [retrainStart_may h, hq]
  refine (if_neg ?_).trans (if_neg ?_)
  · simp [hforce]
  · simp [hforce]

theorem retrainStart_quiet (h : MayTrain c s) (hreqs : (chan c s).trainReqs = []) (hdue : (chan c s).due ≠ none) (hquiet : quiet10 c s = true) :
    retrainStart c last s = chanCount c 10 1 (trainStarted c .periodic none (marginsMeasured c last s)) := by
  rw [retrainStart_may h, hreqs]
  refine (if_neg ?_).trans (if_neg ?_)
  · simp [Option.isSome_iff_ne_none.mpr hdue, hquiet]
  · simp [hquiet]

theorem retrainStart_late {t : Nat} (h : MayTrain c s) (hreqs : (chan c s).trainReqs = []) (hdue : (chan c s).due = some t)
    (hquiet : quiet10 c s = false) (hnow : t + 50000000 ≤ s.now) :
    retrainStart c last s = chanCount c 11 1 (chanCount c 10 1 (trainStarted c .periodic none (marginsMeasured c last s))) := by
  have hlate : trainLate c s = true := by
    unfold trainLate
    rw [hdue]
    exact decide_eq_true hnow
  rw [retrainStart_may h, hreqs]
  refine (if_neg ?_).trans (if_pos ?_)
  · simp [hdue, hlate]
  · simp [hlate, hquiet]

theorem retrainStart_waits {t : Nat} (hreqs : (chan c s).trainReqs = []) (hdue : (chan c s).due = some t)
    (hquiet : quiet10 c s = false) (hnow : s.now < t + 50000000) : retrainStart c last s = s := by
  unfold retrainStart
  dsimp only
  refine if_pos ?_
  rw [hreqs, hdue, hquiet]
  dsimp only
  rw [decide_eq_false (Nat.not_le.mpr hnow)]
  exact Bool.or_true _
end

/-- A retraining ends. -/
def trainEnded (c : Nat) (s : State) : State := withChan c (fun y => { y with training := none, trainOf := none, trainedAt := s.now }) s

section
variable {c : Nat} {tr : List (Nat × Nat)} {s : State}

theorem retrainDone_replays (h : (chan c s).training = some .replay) : retrainDone c true tr s =
    chanCount c 7 1 (withChan c (fun x => { x with replaying := true, lastTry := true }) (trainEnded c (noteTrained c tr s))) := by
  unfold retrainDone
  dsimp only
  rw [h]
  rfl

theorem retrainDone_fails (h : (chan c s).training = some .replay) : retrainDone c false tr s = chanFail c (trainEnded c s) := by
  unfold retrainDone
  dsimp only
  rw [h]
  rfl

theorem retrainDone_answers (ok : Bool) (h : (chan c s).training = some .full ∨ (chan c s).training = some .periodic) : retrainDone c ok tr s =
    finishOpt (chan c s).trainOf (if ok then .ok else .hwFault) [] (trainEnded c (if ok then noteTrained c tr s else s)) := by
  unfold retrainDone
  dsimp only
  cases ok <;> obtain h | h := h <;> rw [h] <;> rfl
end

theorem rateChange_none {s : State} (h : s.dram.rateReqs = []) : rateChange s = s := by
  unfold rateChange
  rw [h]

theorem rateChange_changes {h : Word} {w : Nat} {r : List (Word × Nat)} {s : State} (hreq : s.dram.rateReqs = (h, w) :: r) (hgo : rateChanging s = true) :
    rateChange s =
      let rate := if w = 0 then u8 s.dram.cfg 3 else u8 s.dram.cfg 4
      finish h .ok [byte rate] (withDram (fun d => { d with rateReqs := r }) (changeChan 1 rate (changeChan 0 rate s))) := by
  unfold rateChange
  rw [hreq]
  exact if_neg (by simp [hgo])

/-- Settles O49: by what is owed to the rank, what the temperature was, and why the channel retrains. -/
theorem dramUpkeepTakesEffect : Obligations.DramUpkeepTakesEffect := by
  unfold Obligations.DramUpkeepTakesEffect
  refine ⟨fun c => ?chans, does (fun _ => rfl) fun s h => rateChange_none h, fun h w r => does (fun _ => rfl) fun s hc => rateChange_changes hc.1 hc.2⟩
  intro x
  refine ⟨fun r => ?refs, ?temps, does (fun _ => rfl) fun s h => zqCal_due h.1 h.2, fun t => does (fun _ => rfl) fun s h => zqCal_early h.1 h.2,
    does (fun _ => rfl) fun s h => retrainDue_due h.1 h.2.1 h.2.2.1 h.2.2.2, does (fun _ => rfl) fun s h => retrainDue_early h,
    fun last => ?starts, fun tr => ?ends⟩
  case refs =>
    intro interval due noted runs
    refine ⟨does (fun _ => rfl) ?_, does (fun _ => rfl) ?_, does (fun _ => rfl) ?_, does (fun _ => rfl) ?_,
      fun t => does (fun _ => rfl) fun s h => refDue_early h.1 h.2, does (fun _ => rfl) fun s h => refIssue_issues h.1 h.2.1 h.2.2.1 h.2.2.2,
      does (fun _ => rfl) ?_, fun q pro s h t ht => ?_⟩
    · rintro s ⟨⟨hready, hrank, hdue⟩, hahead⟩
      exact refDue_ahead hready hrank hdue hahead
    · rintro s ⟨⟨hready, hrank, hdue⟩, hahead, howed⟩
      exact refDue_first hready hrank hdue hahead howed
    · rintro s ⟨⟨hready, hrank, hdue⟩, hahead, hsome, howed⟩
      exact refDue_more hready hrank hdue hahead hsome howed
    · rintro s ⟨⟨hready, hrank, hdue⟩, hahead, howed⟩
      exact refDue_all hready hrank hdue hahead howed
    · rintro s ⟨hopen, hrank, howed, hahead, hquiet, hidle⟩
      exact refPullIn_issues hopen hrank howed hahead hquiet hidle
    · have hfree := pickReq_rankFree h
      unfold rankFree at hfree
      rw [ht] at hfree
      exact of_decide_eq_true hfree
  case temps =>
    intro reads
    exact ⟨does (fun _ => rfl) fun s h => tempRead_heats h.1.1 h.1.2 h.2, does (fun _ => rfl) fun s h => tempRead_stays h.1.1 h.1.2 h.2,
      does (fun _ => rfl) fun s h => tempRead_cools h.1.1 h.1.2 h.2.2, does (fun _ => rfl) fun s h => tempRead_warm h.1.1 h.1.2 h.2.1 h.2.2,
      fun hot t => does (fun _ => rfl) fun s h => tempRead_early h.1 h.2⟩
  case starts =>
    intro ready starts measured
    have hmay (s : State) (h : ready s) : MayTrain c s := by
      obtain ⟨hready, hidle, hother, hhigh, hlive, hsteady⟩ := h
      exact ⟨hready, hidle, hother, hhigh, hlive, hsteady⟩
    refine ⟨fun q => does (fun _ => rfl) ?_, fun q => does (fun _ => rfl) ?_, does (fun _ => rfl) ?_, fun t => does (fun _ => rfl) ?_,
      fun t => does (fun _ => rfl) fun s h => retrainStart_waits h.1 h.2.1 h.2.2.1 h.2.2.2⟩
    · rintro s ⟨h, hq, hforce, hfull⟩
      refine (retrainStart_forced (hmay s h) hq hforce).trans ?_
      rw [hfull]
      rfl
    · rintro s ⟨h, hq, hforce, hfull⟩
      refine (retrainStart_forced (hmay s h) hq hforce).trans ?_
      rw [hfull]
      rfl
    · rintro s ⟨h, hreqs, hdue, hquiet⟩
      exact retrainStart_quiet (hmay s h) hreqs hdue hquiet
    · rintro s ⟨h, hreqs, hdue, hquiet, hnow⟩
      exact retrainStart_late (hmay s h) hreqs hdue hquiet hnow
  case ends =>
    intro ended
    exact ⟨does (fun _ => rfl) fun s h => retrainDone_replays h, does (fun _ => rfl) fun s h => retrainDone_fails h,
      does (fun _ => rfl) fun s h => retrainDone_answers true h, does (fun _ => rfl) fun s h => retrainDone_answers false h⟩

end Sys2Proof.Machine
end

section
/-!
SUPPORT. Arrays, the Gleaner, ageing and the cairn, by case.
-/
namespace Sys2Proof.Machine
open Sys2Proof

/-! Arrays. -/

@[simp] theorem raise_sec (n : EvName) (inst : Nat) (data : List Byte) (s : State) : (raise n inst data s).sec = s.sec :=
  show (offHost (raise n inst data s)).sec = (offHost s).sec from congrArg State.sec (raise_offHost n inst data s)

theorem wordLost_key {w : Nat} {k : Fin 2560} {s : State} (h : khas s.sec.slots k = true) :
    wordLost w (.key k) s = slotErase k (unbindSlot k (arrayUncorr (partCode (.key k)) w s)) := by
  refine if_pos ?_
  show (kget (raise _ _ _ (relCount 3 1 s)).sec.slots k).isSome = true
  rw [raise_sec]
  exact h

/-- TERNARY_REPAIR (R443). -/
def ternaryRepair (i : Nat) (bad : Bool) (s : State) : State := if s.rel.badRows.contains i then rowRepair i bad s else s

theorem ternaryRepair_shadow {i : Nat} {s : State} (h : s.rel.badRows.contains i = true) :
    ternaryRepair i false s = relCount 5 1 (withRel (fun x => { x with badRows := x.badRows.filter (· != i) }) s) :=
  (if_pos h).trans (if_neg Bool.false_ne_true)

theorem ternaryRepair_lost {i : Nat} {s : State} (h : s.rel.badRows.contains i = true) :
    ternaryRepair i true s = ruleLost i (arrayUncorr 0x0B i s) := (if_pos h).trans (if_pos rfl)

/-! The Gleaner. -/

section
variable {a w : Nat} {s : State}

theorem scrub_single (h : a < 16) (cancelled : Bool) : scrub a w (.single cancelled) s =
    if cancelled then noteCorrected a w (relCount 2 1 s) else relCount 8 1 (noteCorrected a w (relCount 2 1 s)) := if_pos h

theorem scrub_uncorr {l : ArrayPart} (h : partCode l = a) : scrub a w (.uncorr l) s = wordLost w l s := if_pos h

section
variable {addr : Nat} {cls : Fin 5} (ha : 16 ≤ a) (hready : (chan (a - 16) s).state = 2) (hfine : kget (chan (a - 16) s).poison (burstOf addr) = none)
include ha hready hfine

theorem scrub_burst_one (d : Fin 9) : scrub a w (.burst addr cls (.one d)) s =
    relCount 8 1 (chanCount (a - 16) 2 1 (noteError (a - 16) 0 (burstOf addr) d s)) := by
  refine (if_pos ha).trans ?_
  unfold scrubBurst
  dsimp only
  rw [if_neg fun h => h hready, hfine]

theorem scrub_burst_two (d e : Fin 9) : scrub a w (.burst addr cls (.two d e)) s = dramUncorr (a - 16) (burstOf addr) cls d e s := by
  refine (if_pos ha).trans ?_
  unfold scrubBurst
  dsimp only
  rw [if_neg fun h => h hready, hfine]
end
end

/-- WEAK_REGION_SCRUB (R447). -/
def weakScrub (i w : Nat) (f : ScrubFind) (s : State) : State :=
  match s.rel.weak[i]? with
  | some g => scrub g.array (512 * g.region + w) f s
  | none => s

theorem weakScrub_none {i w : Nat} {f : ScrubFind} {s : State} (h : s.rel.weak[i]? = none) : weakScrub i w f s = s := by
  unfold weakScrub
  rw [h]

theorem weakScrub_region {i w : Nat} {f : ScrubFind} {g : WeakRegion} {s : State} (h : s.rel.weak[i]? = some g) :
    weakScrub i w f s = scrub g.array (512 * g.region + w) f s := by
  unfold weakScrub
  rw [h]

theorem passRuns_iff (a : Nat) (s : State) : passRuns a s = true ↔ a < 16 ∨ (chan (a - 16) s).state = 2 := by
  simp [passRuns]

theorem passEscalate_due {a : Nat} {s : State} (hruns : passRuns a s = true) (hfirst : (vget s.rel.passes a).escalated = false)
    (hnow : (vget s.rel.passes a).began + hourTicks ≤ s.now) : passEscalate a s = raise .gleanerEsc a []
      (relCount 7 1 (withRel (fun x => { x with passes := vset x.passes a { vget x.passes a with escalated := true } }) s)) := by
  refine if_neg ?_
  rw [hruns, hfirst, decide_eq_false (Nat.not_lt.mpr hnow)]
  decide

theorem passEscalate_not {a : Nat} {s : State} (h : (vget s.rel.passes a).escalated = true ∨ s.now < (vget s.rel.passes a).began + hourTicks) :
    passEscalate a s = s := by
  refine if_pos ?_
  obtain h | h := h
  · rw [h, Bool.or_true, Bool.true_or]
  · rw [decide_eq_true h, Bool.or_true]

/-! Ageing. -/

theorem periodDue_early {t period now : Nat} (h : now < t + period) : periodDue (some t) period now = false := decide_eq_false (Nat.not_le.mpr h)

theorem stressSample_due {tj : Int} {s : State} (h : ∀ t, s.rel.stressAt = some t → t + 500000000 ≤ s.now) : stressSample tj s =
    withRel (fun x => { x with bootStress := x.bootStress + stressRate tj s.power.readback, bootS := x.bootS + 1, stressAt := some s.now }) s :=
  if_neg (by simp [periodDue_of h])

theorem stressSample_early {tj : Int} {t : Nat} {s : State} (h : s.rel.stressAt = some t) (hnow : s.now < t + 500000000) : stressSample tj s = s :=
  if_pos (by rw [h, periodDue_early hnow]; rfl)

theorem marginReplan_early {d d0 t : Nat} {s : State} (h : s.rel.replanAt = some t) (hnow : s.now < t + 300000000000) : marginReplan d d0 s = s :=
  if_pos (by rw [h, periodDue_early hnow]; rfl)

theorem triggerFor_fused {base top d d0 : Nat} (h : 0 < d0) : triggerFor base top d d0 = max base (min top (base * d / d0)) := if_neg (Nat.ne_of_gt h)

theorem marginReplan_due {d d0 : Nat} {s : State} (hd : 0 < d0) (h : ∀ t, s.rel.replanAt = some t → t + 300000000000 ≤ s.now) :
    marginReplan d d0 s = withRel (fun x => { x with
      replanAt := some s.now, ageGuard := guardFor (stressNow s), t1 := max 2000 (min 2500 (2000 * d / d0)), t2 := max 1000 (min 1250 (1000 * d / d0)) }) s := by
  rw [← triggerFor_fused hd, ← triggerFor_fused hd]
  exact if_neg (by simp [periodDue_of h])

/-- A chain's gain is noted, and the interval to the next measurement. -/
def gainNoted (r c : Nat) (gain : Int) (n : Nat → Nat) (s : State) : State :=
  withRel (fun x => { x with
    gainAt := kset x.gainAt (chainSlot r c) s.now, chainGain := vset x.chainGain (chainSlot r c) gain, gainInt := n x.gainInt }) s

section
variable {r c : Nat} {gain : Int} {need : Nat} {s : State} (hc : c < chainCount r) (hin : chainOut (vget (vget s.fe r).chains c) = false)
  (hdue : ∀ t, kget s.rel.gainAt (chainSlot r c) = some t → t + s.rel.gainInt * 500000000 ≤ s.now)
include hc hin hdue

theorem gainCal_due : gainCal r c gain need s =
    let changed := need ≤ 12 && need != (vget (vget s.fe r).chains c).ageDerate
    let t := gainNoted r c gain (fun g => if changed then max 60 (g / 2) else min 600 (g * 2)) s
    if 12 < need then setChainState r c .fallowAge t
    else if changed then relCount 10 1 (chainBoundary r (withChain r c (fun k => { k with ageNext := some need }) t))
    else t := if_neg (by simp [Nat.not_le.mpr hc, hin, periodDue_of hdue])

theorem gainCal_same (hsame : need = (vget (vget s.fe r).chains c).ageDerate) (hneed : need ≤ 12) :
    gainCal r c gain need s = gainNoted r c gain (fun g => min 600 (g * 2)) s := by
  have hchanged : (decide (need ≤ 12) && need != (vget (vget s.fe r).chains c).ageDerate) = false := by simp [hsame]
  rw [gainCal_due hc hin hdue, hchanged]
  exact (if_neg (Nat.not_lt.mpr hneed)).trans (if_neg Bool.false_ne_true)

theorem gainCal_derates (hother : need ≠ (vget (vget s.fe r).chains c).ageDerate) (hneed : need ≤ 12) : gainCal r c gain need s =
    relCount 10 1 (chainBoundary r (withChain r c (fun k => { k with ageNext := some need }) (gainNoted r c gain (fun g => max 60 (g / 2)) s))) := by
  have hchanged : (decide (need ≤ 12) && need != (vget (vget s.fe r).chains c).ageDerate) = true := by simp [hother, hneed]
  rw [gainCal_due hc hin hdue, hchanged]
  exact (if_neg (Nat.not_lt.mpr hneed)).trans (if_pos rfl)

theorem gainCal_fallow (hneed : 12 < need) :
    gainCal r c gain need s = setChainState r c .fallowAge (gainNoted r c gain (fun g => min 600 (g * 2)) s) := by
  have hchanged : (decide (need ≤ 12) && need != (vget (vget s.fe r).chains c).ageDerate) = false := by simp [Nat.not_le.mpr hneed]
  rw [gainCal_due hc hin hdue, hchanged]
  exact if_pos hneed
end

/-- Settles O50: by what the access finds, and by whether the period has passed. -/
theorem reliabilityEventsTakeEffect : Obligations.ReliabilityEventsTakeEffect := by
  unfold Obligations.ReliabilityEventsTakeEffect
  refine ⟨fun a w => does (fun _ => rfl) fun s _ => rfl, fun a w => does (fun _ => rfl) fun s _ => rfl, does (fun _ => rfl) fun s _ => rfl,
    fun w k => does (fun _ => rfl) fun s h => wordLost_key h, fun w q => does (fun _ => rfl) fun s _ => rfl,
    fun w l b => does (fun _ => rfl) fun s _ => rfl, does (fun _ => rfl) fun s _ => rfl, fun i => ?rows, fun a w => ?gleaner,
    fun i w f => ⟨does (f := weakScrub i w f) (fun _ => rfl) fun s h => weakScrub_none h,
      fun g => does (f := weakScrub i w f) (fun _ => rfl) fun s h => weakScrub_region h⟩, fun a => ?passes,
    fun tj => ⟨does (fun _ => rfl) fun s h => stressSample_due h, fun t => does (fun _ => rfl) fun s h => stressSample_early h.1 h.2⟩,
    fun d d0 t => does (fun _ => rfl) fun s h => marginReplan_early h.1 h.2, fun d d0 hd => does (fun _ => rfl) fun s h => marginReplan_due hd h,
    fun r c gain need => ?gain, ?cairn⟩
  case rows =>
    intro bad
    have hrow (b : Bool) (s : State) : exec (.ternaryRepair i b) s = whenLive s (ternaryRepair i b) := rfl
    exact ⟨does (hrow false) fun s h => ternaryRepair_shadow h, does (hrow true) fun s h => ternaryRepair_lost h,
      fun b => does (hrow b) fun s h => if_neg h⟩
  case gleaner =>
    refine ⟨does (fun _ => rfl) fun s _ => rfl, fun ha => ⟨does (fun _ => rfl) fun s _ => scrub_single ha true,
      does (fun _ => rfl) fun s _ => scrub_single ha false⟩, fun l hl => does (fun _ => rfl) fun s _ => scrub_uncorr hl, fun addr cls ha => ?_⟩
    intro fine
    exact ⟨fun d => does (fun _ => rfl) fun s h => scrub_burst_one ha h.1 h.2 d, fun d e => does (fun _ => rfl) fun s h => scrub_burst_two ha h.1 h.2 d e⟩
  case passes =>
    intro runs
    exact ⟨does (fun _ => rfl) fun s h => if_pos ((passRuns_iff a s).mpr h),
      does (fun _ => rfl) fun s h => passEscalate_due ((passRuns_iff a s).mpr h.1) h.2.1 h.2.2, does (fun _ => rfl) fun s h => passEscalate_not h⟩
  case gain =>
    intro k works noted
    refine ⟨does (fun _ => rfl) ?_, does (fun _ => rfl) ?_, does (fun _ => rfl) ?_⟩
    · rintro s ⟨⟨hc, hin, hdue⟩, hsame, hneed⟩
      exact gainCal_same hc hin hdue hsame hneed
    · rintro s ⟨⟨hc, hin, hdue⟩, hother, hneed⟩
      exact gainCal_derates hc hin hdue hother hneed
    · rintro s ⟨⟨hc, hin, hdue⟩, hneed⟩
      exact gainCal_fallow hc hin hdue hneed
  case cairn =>
    intro due
    exact ⟨builminDoes (fun _ => rfl) fun s h => if_neg (Nat.not_lt.mpr h), builminDoes (fun _ => rfl) fun s h => if_pos h⟩

end Sys2Proof.Machine
end

section
/-!
SUPPORT. Wake-up frames, windows and copies, by case.
-/
namespace Sys2Proof.Machine
open Sys2Proof

/-! A wake-up frame. -/

/-- The receiver hears the whole of a frame that ends now. -/
def wurReceives (f : WurFrame) (s : State) : Bool :=
  decide (wurTicks f.high f.body ≤ s.now) && wurHears (s.now - wurTicks f.high f.body) s

theorem wurReceives_iff (f : WurFrame) (s : State) : wurReceives f s = true ↔
    wurTicks f.high f.body ≤ s.now ∧ wurOn s = true ∧ s.wur.mode ≠ 0 ∧ s.wur.modeAt ≤ s.now - wurTicks f.high f.body ∧
      (s.wur.mode = 2 → inWindow s.wur (s.now - wurTicks f.high f.body) = true) ∧ (vget s.fe 0).tx = none ∧
      s.wur.blankTill ≤ s.now - wurTicks f.high f.body := by
  simp only [wurReceives, wurHears, Bool.and_eq_true, decide_eq_true_eq, bne_iff_ne, Bool.or_eq_true, Option.isNone_iff_eq_none, and_assoc,
    Decidable.imp_iff_not_or]

theorem wurFrameRx_deaf {f : WurFrame} {s : State} (h : wurReceives f s = false) : wurFrameRx f s = s := by
  refine if_pos ?_
  by_cases hticks : wurTicks f.high f.body ≤ s.now
  · have hears : wurHears (s.now - wurTicks f.high f.body) s = false := by simpa [wurReceives, hticks] using h
    simp [hears]
  · simp [Nat.not_le.mp hticks]

section
variable {f : WurFrame} {s : State} (h : wurReceives f s = true)
include h

theorem wurFrameRx_heard : wurFrameRx f s =
    if !f.fcsOk then wurCount 1 (wurCount 0 s)
    else
      match wurFind (tableAt s.wur (s.now - wurTicks f.high f.body)) f with
      | some e => wurMatched e f (wurCount 0 s)
      | none => wurCount 3 (wurCount 0 s) := by
  obtain ⟨hticks, hears⟩ := Bool.and_eq_true_iff.mp h
  refine if_neg ?_
  rw [hears, decide_eq_false (Nat.not_lt.mpr (of_decide_eq_true hticks))]
  decide

theorem wurFrameRx_broken (hfcs : f.fcsOk = false) : wurFrameRx f s = wurCount 1 (wurCount 0 s) :=
  (wurFrameRx_heard h).trans (if_pos (by simp [hfcs]))

variable (hfcs : f.fcsOk = true)
include hfcs

theorem wurFrameRx_unmatched (hnone : ∀ i, i < 64 → wurEntryMatch (vget (tableAt s.wur (s.now - wurTicks f.high f.body)) i) f = false) :
    wurFrameRx f s = wurCount 3 (wurCount 0 s) := by
  have hfind : wurFind (tableAt s.wur (s.now - wurTicks f.high f.body)) f = none :=
    List.find?_eq_none.mpr fun i hi => by simp [hnone i (List.mem_range.mp hi)]
  rw [wurFrameRx_heard h, if_neg (by simp [hfcs]), hfind]

theorem wurFrameRx_matched {e : Nat} (he : e < 64) (hmatch : wurEntryMatch (vget (tableAt s.wur (s.now - wurTicks f.high f.body)) e) f = true)
    (hfirst : ∀ i, i < e → wurEntryMatch (vget (tableAt s.wur (s.now - wurTicks f.high f.body)) i) f = false) :
    wurFrameRx f s = wurMatched e f (wurCount 0 s) := by
  have hfind : wurFind (tableAt s.wur (s.now - wurTicks f.high f.body)) f = some e :=
    List.find?_range_eq_some.mpr ⟨hmatch, List.mem_range.mpr he, fun i hi => by simp [hfirst i hi]⟩
  rw [wurFrameRx_heard h, if_neg (by simp [hfcs]), hfind]
end

section
variable {e : Nat} {f : WurFrame} {s : State}

theorem wurMatched_armed (h : s.life.armed = true) : wurMatched e f s = driveWake 0 s := if_pos h

variable (h : s.life.armed = false)
include h

theorem wurMatched_raises (hquiet : ∀ t, kget s.wur.lastEvt e = some t → t + 50000000 ≤ s.now) : wurMatched e f s =
    raise .wurMatch e (wurData f) (withWur (fun w => { w with lastEvt := kset w.lastEvt e s.now }) (wurCount 2 s)) := by
  unfold wurMatched
  dsimp only
  rw [if_neg (by simp [h])]
  cases ht : kget s.wur.lastEvt e with
  | none => rfl
  | some t => exact if_neg (Nat.not_lt.mpr (hquiet t ht))

theorem wurMatched_counts {t : Nat} (ht : kget s.wur.lastEvt e = some t) (hnow : s.now < t + 50000000) : wurMatched e f s = wurCount 2 s := by
  unfold wurMatched
  dsimp only
  rw [if_neg (by simp [h]), ht]
  exact if_pos hnow
end

/-! Windows and copies. -/

section
variable {o : Bool} {s : State}

theorem wurWindow_agrees (hon : wurOn s = true) (hmode : s.wur.mode = 2) (h : inWindow s.wur s.now = o) :
    wurWindow o s = withWur (fun w => { w with window := o }) s := if_pos (by simp [hon, hmode, h])

theorem wurWindow_not (h : wurOn s = false ∨ s.wur.mode ≠ 2 ∨ inWindow s.wur s.now ≠ o) : wurWindow o s = s := by
  refine if_neg ?_
  obtain h | h | h := h <;> simp [h]
end

theorem wurCopyDue_none {b : Nat} {s : State} (h : kget s.wur.tx b = none) : wurCopyDue b s = s := by
  unfold wurCopyDue
  rw [h]

/-- The next copy of a wake-up frame waits for its transmission. -/
def copyWaits (b : Nat) (x : WurTx) (s : State) : State :=
  withWur (fun w => { w with tx := kset w.tx b { x with left := x.left - 1, next := x.next + 1, waiting := true } }) s

section
variable {b : Nat} {x : WurTx} {s : State} (h : kget s.wur.tx b = some x)
include h

theorem wurCopyDue_early (hnow : x.left = 0 ∨ s.now < x.t0 + x.next * x.interval * 512000) : wurCopyDue b s = s := by
  unfold wurCopyDue
  rw [h]
  exact if_pos hnow

/-- A copy that still waits is missed. -/
theorem wurCopyDue_due (hleft : 0 < x.left) (hnow : x.t0 + x.next * x.interval * 512000 ≤ s.now) :
    wurCopyDue b s = copyWaits b x (if x.waiting then wurCount 6 s else s) := by
  unfold wurCopyDue
  rw [h]
  exact if_neg fun hn => hn.elim (Nat.ne_of_gt hleft) (Nat.not_lt.mpr hnow)
end

/-- Settles O51: by what the receiver hears, the entry that matches, and the copy that is due. -/
theorem wakeEventsTakeEffect : Obligations.WakeEventsTakeEffect := by
  unfold Obligations.WakeEventsTakeEffect
  refine ⟨fun f => ?frames, fun o => ?windows, fun b => ⟨builminDoes (fun _ => rfl) fun s h => wurCopyDue_none h, fun x => ?copies⟩⟩
  case frames =>
    intro began hears table run
    have hrun (s : State) : exec run s = .next (wurFrameRx f s) := rfl
    refine ⟨alwaysDoes hrun fun s h => wurFrameRx_deaf (Bool.eq_false_iff.mpr fun hr => h ((wurReceives_iff f s).mp hr)), alwaysDoes hrun ?_,
      alwaysDoes hrun ?_, fun e => ?matched⟩
    · rintro s ⟨h, hfcs⟩
      exact wurFrameRx_broken ((wurReceives_iff f s).mpr h) hfcs
    · rintro s ⟨h, hfcs, hnone⟩
      exact wurFrameRx_unmatched ((wurReceives_iff f s).mpr h) hfcs hnone
    case matched =>
      intro first matched
      have hmatched (s : State) (h : first s) : wurFrameRx f s = wurMatched e f (wurCount 0 s) := by
        obtain ⟨h, hfcs, he, hmatch, hfirst⟩ := h
        exact wurFrameRx_matched ((wurReceives_iff f s).mpr h) hfcs he hmatch hfirst
      exact ⟨alwaysDoes hrun fun s h => (hmatched s h.1).trans (wurMatched_armed h.2),
        alwaysDoes hrun fun s h => (hmatched s h.1).trans (wurMatched_raises h.2.1 h.2.2),
        fun t => alwaysDoes hrun fun s h => (hmatched s h.1).trans (wurMatched_counts h.2.1 h.2.2.1 h.2.2.2)⟩
  case windows =>
    intro agrees
    exact ⟨alwaysDoes (fun _ => rfl) fun s h => wurWindow_agrees h.1 h.2.1 h.2.2, alwaysDoes (fun _ => rfl) fun s h => wurWindow_not h⟩
  case copies =>
    intro next due
    refine ⟨builminDoes (fun _ => rfl) fun s h => wurCopyDue_early h.1 h.2, builminDoes (fun _ => rfl) ?_, builminDoes (fun _ => rfl) ?_⟩
    · rintro s ⟨⟨h, hleft, hnow⟩, hwaiting⟩
      refine (wurCopyDue_due h hleft hnow).trans ?_
      rw [hwaiting]
      rfl
    · rintro s ⟨⟨h, hleft, hnow⟩, hwaiting⟩
      refine (wurCopyDue_due h hleft hnow).trans ?_
      rw [hwaiting]
      rfl

end Sys2Proof.Machine
end
